-- ==== Sys2Proof/Word.lean ====
section
/-! DEFINITION. The word types of the Trigaeg: a byte, a 32-bit word, a 64-bit word. -/
namespace Sys2Proof

/-- One byte of memory or of a message. -/
abbrev Byte := BitVec 8

/-- A 32-bit register, narrow word or per-thread register. -/
abbrev Word32 := BitVec 32

/-- A 64-bit register or crew-uniform register. -/
abbrev Word64 := BitVec 64

end Sys2Proof
end

