-- ==== Sys2Proof/Machine/Bytes.lean ====
section
/-! DEFINITION. Bit fields, byte orders and tables keyed by a number: the helpers every other file uses
(00 R5, R7, R8: ranges include both ends, on-chip structures are little-endian, messages big-endian). -/
namespace Sys2Proof.Machine

/-- Bits `lo + w - 1` down to `lo` of a number. -/
def bitsOf (v lo w : Nat) : Nat := (v >>> lo) % 2 ^ w

/-- One bit of a number as 0 or 1. -/
def bitNat (b : Bool) : Nat := if b then 1 else 0

/-- A number with bits `lo + w - 1` down to `lo` replaced. -/
def setBits (v lo w x : Nat) : Nat :=
  v - bitsOf v lo w * 2 ^ lo + (x % 2 ^ w) * 2 ^ lo

/-- The number that little-endian bytes spell (00 R7). -/
def leNat : List Byte → Nat
  | [] => 0
  | b :: bs => b.toNat + 256 * leNat bs

/-- The number that big-endian bytes spell (00 R8). -/
def beNat (bs : List Byte) : Nat := leNat bs.reverse

/-- The low `n` bytes of a number, little-endian. -/
def leBytes : Nat → Nat → List Byte
  | 0, _ => []
  | n + 1, v => BitVec.ofNat 8 v :: leBytes n (v / 256)

/-- The low `n` bytes of a number, big-endian. -/
def beBytes (n v : Nat) : List Byte := (leBytes n v).reverse

/-- `n` bytes of `bs` from offset `off`; bytes past the end read as zero. -/
def sliceBytes (bs : List Byte) (off n : Nat) : List Byte :=
  let t := (bs.drop off).take n
  t ++ List.replicate (n - t.length) 0

/-- Little-endian field of `n` bytes at offset `off`. -/
def fieldLE (bs : List Byte) (off n : Nat) : Nat := leNat (sliceBytes bs off n)

/-- Big-endian field of `n` bytes at offset `off`. -/
def fieldBE (bs : List Byte) (off n : Nat) : Nat := beNat (sliceBytes bs off n)

/-- Whether every byte from `lo` to `hi - 1` is zero (bytes past the end count as zero). -/
def zeroRange (bs : List Byte) (lo hi : Nat) : Bool :=
  ((bs.drop lo).take (hi - lo)).all (· == 0)

/-- `bs` cut or padded with zeros to `n` bytes. -/
def padTo (n : Nat) (bs : List Byte) : List Byte := sliceBytes bs 0 n

/-- The positions of the set bits of `v` below `n`, ascending. -/
def bitList (n v : Nat) : List Nat := (List.range n).filter (v.testBit ·)

/-- The number whose set bits are the listed positions. -/
def bitMask : List Nat → Nat
  | [] => 0
  | i :: is => 2 ^ i ||| bitMask is

/-- Number of set bits of `v` below `n`. -/
def popCount (n v : Nat) : Nat := (bitList n v).length

/-- Bytes combined by exclusive or, as long as the shorter list. -/
def xorBytes (a b : List Byte) : List Byte := List.zipWith (· ^^^ ·) a b

/-- The value a saturating counter of width `w` takes after `n` more events (00 R972). -/
def satAdd (w v n : Nat) : Nat := min (v + n) (2 ^ w - 1)

/-- A number as a two's complement integer of width `w`. -/
def toSigned (w v : Nat) : Int :=
  let u := v % 2 ^ w
  if u < 2 ^ (w - 1) then (u : Int) else (u : Int) - (2 ^ w : Nat)

/-- An integer modulo `2 ^ w`. -/
def ofSigned (w : Nat) (i : Int) : Nat := (i % ((2 ^ w : Nat) : Int)).toNat

/-- Ceiling of a division. -/
def ceilDiv (a b : Nat) : Nat := (a + b - 1) / b

/-- A table keyed by numbers: pairs in strictly rising order of key. -/
abbrev Table (α : Type) := List (Nat × α)

/-- The entry of a table at a key. -/
def Table.find {α : Type} : Table α → Nat → Option α
  | [], _ => none
  | (j, a) :: t, k => if j = k then some a else Table.find t k

/-- The entry of a table at a key, or the given value where the table lists none. -/
def Table.getD {α : Type} (t : Table α) (k : Nat) (d : α) : α := (Table.find t k).getD d

/-- The table with an entry written at a key. -/
def Table.put {α : Type} : Table α → Nat → α → Table α
  | [], k, a => [(k, a)]
  | (j, b) :: t, k, a =>
    if k < j then (k, a) :: (j, b) :: t
    else if k = j then (k, a) :: t
    else (j, b) :: Table.put t k a

/-- The table without the entry at a key. -/
def Table.drop {α : Type} (t : Table α) (k : Nat) : Table α := t.filter (fun e => e.1 ≠ k)

/-- The table with one entry changed, where it lists that key. -/
def Table.change {α : Type} (t : Table α) (k : Nat) (f : α → α) : Table α :=
  t.map (fun e => if e.1 = k then (k, f e.2) else e)

/-- The smallest number from `lo` upward, among `n`, that the table does not list. -/
def Table.firstFree {α : Type} (t : Table α) (lo : Nat) : Nat → Option Nat
  | 0 => none
  | n + 1 => if (Table.find t lo).isNone then some lo else Table.firstFree t (lo + 1) n

/-- Number of entries that satisfy a test. -/
def Table.countIf {α : Type} (t : Table α) (p : Nat → α → Bool) : Nat :=
  (t.filter (fun e => p e.1 e.2)).length

end Sys2Proof.Machine
end

