-- ==== Sys2Proof/Machine/TypesCore.lean ====
section
/-! DEFINITION. The state types of the package, the cadence, the sectors, the rings, the memory, the ports, boot and power,
errors and the wake queues (chapters 01-05, 15-17, 19 of spec/). Default field values are the reset values. -/
namespace Sys2Proof

/-- A PCIe function: the physical function, or virtual function `n` of sector `n` (03 R116, R121, R122). -/
inductive Fn where
  | pf
  | vf (n : Nat)
  deriving DecidableEq, Repr

namespace Machine

/-! ### Cadence (02) -/

/-- Cadence states LOCKED, HOLDOVER, ADRIFT (02, R71). -/
inductive CadState where
  | locked
  | holdover
  | adrift
  deriving DecidableEq, Repr

/-- What a mark releases: a stored command packet of a sector (R83), or work of Coxswain firmware (R91). -/
inductive MarkWork where
  | stored (bytes : List Byte) (fn : Fn)
  | heatDeadline
  | pairHeartbeat
  | firmware (code : Nat)
  deriving DecidableEq, Repr

/-- A mark slot that holds a mark (02 R83-R103). -/
structure Mark where
  sector : Nat := 0
  ring : Nat := 0
  target : Nat := 0
  window : Nat := 0
  period : Nat := 0
  limited : Bool := false
  left : Nat := 0
  lockstep : Bool := false
  withheld : Bool := false
  work : MarkWork := .firmware 0
  deriving DecidableEq, Repr

/-- A mark taken at a boundary: its slot, the stroke of the boundary, and whether it expires (with its status) or is
released (R92-R97). -/
structure Taken where
  slot : Nat
  stroke : Nat
  expiry : Option Nat
  deriving DecidableEq, Repr

/-- A PTP master as an Announce message describes it (15 R794). -/
structure PtpMaster where
  identity : Nat := 0
  priority1 : Nat := 255
  clockClass : Nat := 255
  accuracy : Nat := 255
  variance : Nat := 65535
  priority2 : Nat := 255
  steps : Nat := 0
  deriving DecidableEq, Repr

/-- The cadence block (02). -/
structure Cad where
  /-- CAD.STATUS.STATE: reset ADRIFT (R105). -/
  state : CadState := .adrift
  /-- CAD.STATUS.CONFIGURED: a SET_TIMEBASE has completed since the cold reset (R59). -/
  configured : Bool := false
  /-- A CADENCE_CONFIG of any kind has completed since the cold reset (R105). -/
  sourced : Bool := false
  /-- CAD.STATUS.SOURCE: false PTP, true PPS. -/
  pps : Bool := false
  /-- CAD.STATUS.PRE_ORIGIN (R57). -/
  preOrigin : Bool := false
  /-- CAD.STATUS.REF_PRESENT. -/
  refPresent : Bool := false
  /-- CAD.STATUS.REF10_PRESENT. -/
  ref10 : Bool := false
  /-- CAD.ORIGIN, ns (R56). -/
  origin : Nat := 0
  /-- CAD.CONFIG.PERIOD_US: 100-1,000,000, default 1,000 (R58). -/
  periodUs : Nat := 1000
  ptpPort : Nat := 0
  ptpDomain : Nat := 0
  toleranceNs : Nat := 20000
  lockNs : Nat := 1000
  holdoverPpb : Nat := 100
  /-- SLEW_NS: default 100,000 (R72). -/
  slewNs : Nat := 100000
  /-- ASYM_NS: default 250 (R66). -/
  asymNs : Nat := 250
  /-- CAD.TIME_NS: the local time counter as the last event gave it. -/
  timeNs : Nat := 0
  /-- CAD.STROKE (R56). -/
  stroke : Nat := 0
  /-- The error estimate in ns at `estTime` (R66, R68); reset all ones (R105). -/
  est : Nat := 4294967295
  /-- Local time from which the estimate grows after the loss of the reference (R68). -/
  estTime : Nat := 0
  /-- Consecutive reference updates with an estimate at or below LOCK_NS (R70). -/
  goodUpdates : Nat := 0
  /-- CAD.LAST_STEP_NS, signed (R72). -/
  lastStep : Int := 0
  /-- Formula value just after a step, until whose next increase the count holds (R73, R74). -/
  stepHold : Option Nat := none
  /-- The 256 mark slots (R91); unlisted slots are free. -/
  marks : Table Mark := []
  /-- Marks taken and not yet released or expired, in the order of R92. -/
  taken : List Taken := []
  /-- Masters of the configured domain heard of (15 R794). -/
  masters : Table PtpMaster := []
  /-- A Sync waiting for its Follow_Up: master, sequence number, receive timestamp (15 R795). -/
  sync : Option (Nat × Nat × Nat) := none
  /-- Path delay measured by the last Delay_Resp, ns (15 R794). -/
  pathDelay : Int := 0
  /-- A Delay_Req sent and not answered: sequence number and send timestamp. -/
  delayReq : Option (Nat × Nat) := none
  /-- Sequence number of the next Delay_Req. -/
  delaySeq : Nat := 0
  deriving DecidableEq, Repr

/-! ### Sectors (03) -/

/-- Sector states (03). -/
inductive SectorState where
  | undefined
  | active
  | shifting
  | stopping
  deriving DecidableEq, Repr

/-- A sector's state, crew mode and quotas (03 R116-R119). -/
structure Sector where
  state : SectorState := .undefined
  distance : Bool := false
  qps : Nat := 0
  pds : Nat := 0
  rng : Nat := 0
  deriving DecidableEq, Repr

/-- A move entry of a sector command, 16 bytes (03). -/
structure Move where
  kind : Nat := 0
  src : Nat := 0
  dst : Nat := 0
  power : Nat := 0
  value : Nat := 0
  set : Nat := 0
  deriving DecidableEq, Repr

/-- The four class 0x01 commands, which run one at a time (03 R132, 16 R833). -/
inductive SectorOp where
  | define
  | shift
  | stop
  | power
  deriving DecidableEq, Repr

/-- A class 0x01 command in progress, from its commit point (03, steps 1 to 7). -/
structure SectorCmd where
  serial : Nat := 0
  op : SectorOp := .shift
  target : Nat := 0
  moves : List Move := []
  power : Nat := 0
  step : Nat := 1
  /-- Sectors that the command touches. -/
  touched : List Nat := []
  /-- Granules cleared: HBM and lake. -/
  hbm : Nat := 0
  lake : Nat := 0
  /-- Departing launches killed, and those finished during the drain (R144). -/
  killed : Nat := 0
  finished : Nat := 0
  /-- Departing launches not yet ended. -/
  launches : List Nat := []
  /-- Resources whose power transition the command waits for: kind and index (16 R834). -/
  waits : List (Nat × Nat) := []
  changed : Nat := 0
  deriving DecidableEq, Repr

/-- Ownership of every resource; a resource no table lists is in the free pool (03). -/
structure Sct where
  sectors : Table Sector := [(0, { state := .active })]
  eights : Table Nat := []
  engines : Table Nat := []
  hbm : Table Nat := []
  lake : Table Nat := []
  wake : Table Nat := []
  cmd : Option SectorCmd := none
  lastStatus : Nat := 0
  count : Nat := 0
  deriving DecidableEq, Repr

/-! ### Rings and command packets (04) -/

/-- Ring states (04). -/
inductive RingState where
  | disabled
  | active
  | halted
  | resetting
  deriving DecidableEq, Repr

/-- How far a fetched command has come: waiting to begin, running, or done with status and results (R155, R158). -/
inductive Phase where
  | waiting
  | running
  | done (status r0 r1 : Nat)
  deriving DecidableEq, Repr

/-- A fetched command that has not posted its completion (04 R152-R158, R173). -/
structure Cmd where
  serial : Nat := 0
  ring : Nat := 0
  bytes : List Byte := []
  fn : Fn := .pf
  mark : Bool := false
  /-- Stroke at which the command became due; none while it is held for its not-before stroke (02 R79, R81). -/
  due : Option Nat := none
  phase : Phase := .waiting
  /-- Ring or session that a VD_COMMAND answers in place of a completion ring: the mailbox (14 R728). -/
  vendor : Option Nat := none
  deriving DecidableEq, Repr

/-- A ring pair (04 R151-R186). -/
structure Ring where
  state : RingState := .disabled
  cls : Nat := 0
  hub : Bool := false
  sqBase : Nat := 0
  cqBase : Nat := 0
  sqLog2 : Nat := 6
  cqLog2 : Nat := 6
  vector : Nat := 0
  sqHead : Nat := 0
  sqTail : Nat := 0
  cqHead : Nat := 0
  cqTail : Nat := 0
  phase : Bool := true
  haltCause : Nat := 0
  /-- Units posted and not fetched, in order: how many, and the function whose SQ_TAIL write first covered them (R173). -/
  cover : List (Nat × Fn) := []
  inflight : List Cmd := []
  /-- The RING_RESET (false) or RING_DESTROY (true) in progress: serial of its command, 0 for ADMIN_CFG.RESET, and the
  submission head at the stop (R182-R185). -/
  resetting : Option (Bool × Nat × Nat) := none
  /-- In sealed mode, the plaintext of the record that holds the ring's tail (14 R733). -/
  cqRecord : List Byte := []
  deriving DecidableEq, Repr

/-- The fetch side of all rings (04 R187-R191, R207). -/
structure Rings where
  table : Table Ring := []
  /-- URGENT rings with posted units, in doorbell order (R187). -/
  urgent : List Nat := []
  /-- Commands still to be fetched in this round from HIGH, NORMAL and BULK rings (R190). -/
  credits : Nat × Nat × Nat := (8, 4, 1)
  /-- Last ring served in HIGH, NORMAL and BULK (R190). -/
  lastServed : Nat × Nat × Nat := (511, 511, 511)
  /-- Serial number of the next fetched command (the model's own). -/
  nextSerial : Nat := 1
  /-- CMD.QUIESCEn.HELD: classes held, per sector (R207). -/
  held : Table Nat := []
  deriving DecidableEq, Repr

/-! ### Memory (05) -/

/-- A cached translation of an eight (05 R244-R247). -/
structure Cached where
  ctx : Nat
  page : Nat
  giant : Bool
  entry : Nat
  entryDpa : Nat
  uses : Nat := 0
  sector : Nat := 0
  deriving DecidableEq, Repr

/-- The memory of the package (05). -/
structure Mem where
  /-- Every byte of the DPA map that is not zero, strictly rising by address; an unlisted byte reads as zero (R289, log
  entry 3). -/
  cells : List (Nat × Byte) := []
  /-- Poisoned lines by line number, strictly rising (R249, R263, R268). -/
  poison : List Nat := []
  /-- Translation caches of the eights, up to 2,048 entries each (R244). -/
  caches : Table (List Cached) := []
  /-- Far ranges of the sectors: base and size (R238). -/
  far : Table (Nat × Nat) := []
  /-- Capacity in GiB behind each CXL port (R234, 15 R775). -/
  farCap : Nat × Nat := (0, 0)
  /-- MEM.STATUS.FARp_ONLINE. -/
  farOnline : Bool × Bool := (false, false)
  /-- A FAR_ASSIGN has begun since the cold reset (R236). -/
  farFixed : Bool := false
  /-- Page tags of far pages in sealed mode (R257). -/
  pageTags : Table Nat := []
  /-- Far pages lost with an OFFLINE port are those of that port (R285); contents are then undefined. -/
  scrubActive : Bool := false
  scrubGranule : Nat := 0
  deriving DecidableEq, Repr

/-- What a tier-mover command does (05 R273-R283). -/
inductive MoverJob where
  | explicit (moves : List (Nat × Nat × Nat))
  | coldest (table farSlot maxPages threshold : Nat)
  | zero (base size : Nat)
  | farAssign (sector base size : Nat) (fills : List (Nat × Nat))
  deriving DecidableEq, Repr

/-- A tier-mover command in its queue; the head is being served (05, The tier mover). -/
structure Mover where
  serial : Nat
  sector : Nat
  job : MoverJob
  /-- Entry or table index in progress. -/
  entry : Nat := 0
  pages : Nat := 0
  bytes : Nat := 0
  poisoned : Nat := 0
  held : Bool := false
  /-- A page is in flight, with MOVING set in its leaf (05 R275). -/
  moving : Bool := false
  /-- Yielded to an urgent command (04 R210). -/
  yielded : Bool := false
  begun : Bool := false
  deriving DecidableEq, Repr

/-! ### Wake queues (19) -/

/-- A closed wide word (19 R905). -/
structure WideWord where
  payload : List Word32
  sop : Bool
  eop : Bool
  seq : Nat
  deriving DecidableEq, Repr

/-- One bank: slots written since it was last empty, and its unread words (19 R910). -/
structure Bank where
  written : Nat := 0
  words : List WideWord := []
  deriving DecidableEq, Repr

/-- A wake queue (19). -/
structure WakeQ where
  /-- WAKE.CFGq.KIND: 0 TRACE, 1 PERF, 2 LOG. -/
  kind : Nat := 0
  emptyMode : Bool := false
  perfSelect : Nat := 0
  period : Nat := 0
  older : Bank := {}
  filling : Bank := {}
  /-- Whether unread words are only in the filling bank is `older.words = []`; `partialWords` is the partly filled word. -/
  partialWords : List Word32 := []
  partialSop : Bool := false
  nextSeq : Nat := 0
  /-- Each function's latch: 32 bytes (R913); key 0 the physical function, n + 1 virtual function n. -/
  latches : Table (List Byte) := []
  /-- EOP of the last word taken since the queue was last emptied (R923). -/
  lastEop : Option Bool := none
  /-- DROP_PACKET discards arriving narrow words (R923). -/
  dropping : Bool := false
  deriving DecidableEq, Repr

/-! ### Errors, tests, injection (17) -/

/-- A resource by kind and index (17, table of resource kinds); for memory, also the line that was hit. -/
structure Res where
  kind : Nat := 0
  index : Nat := 0
  addr : Nat := 0
  /-- Lane of a scull lane fault; none for the whole scull. -/
  lane : Option Nat := none
  deriving DecidableEq, Repr

/-- A targeted self-test, queued or running (17 R855-R862, R871). -/
structure SelfTest where
  res : Res
  /-- SECTOR and ADDRESS of the record that began the test. -/
  sector : Nat := 0xFF
  addr : Nat := 0
  /-- Record that began the test: SEQ, SOURCE and SEVERITY; SEQ 0 for SELFTEST_RUN. -/
  ref : Nat := 0
  source : Nat := 0x0B07
  severity : Nat := 0
  /-- DETAIL0 and DETAIL1 of that record. -/
  d0 : Nat := 0
  d1 : Nat := 0
  /-- The fault came from an injection point (R869). -/
  injected : Bool := false
  /-- PERSIST injection makes the patterns fail (R868). -/
  forced : Bool := false
  /-- The test acts on a persistent outcome (R871). -/
  acts : Bool := true
  /-- SELFTEST_RUN commands joined to it. -/
  joined : List Nat := []
  /-- Errors counted with the test it joins (R872). -/
  counted : Nat := 0
  deriving DecidableEq, Repr

/-- An armed injection slot (17 R867-R870). -/
structure Inject where
  point : Nat
  mode : Nat
  left : Nat
  target : Nat
  addr : Nat
  pattern : Nat
  expire : Nat
  deriving DecidableEq, Repr

/-- A retirement list entry (17 R863). -/
structure Retired where
  kind : Nat
  index : Nat
  action : Nat
  addr : Nat := 0
  deriving DecidableEq, Repr

/-- Error records, self-tests, spares and injection (17). -/
structure Err where
  /-- ERR.SEQ: SEQ of the last record. -/
  seq : Nat := 0
  /-- Records were lost since the last one written (R853, R854). -/
  lostBefore : Bool := false
  /-- Copies for wake queue 63 held until BOOT_DONE (R854). -/
  heldCopies : List (List Byte) := []
  last : List Byte := []
  sectorLast : Table (List Byte) := []
  running : List SelfTest := []
  queued : List SelfTest := []
  /-- Transient classifications: resource and local time of each, newest first (R858). -/
  transients : List (Res × List Nat) := []
  /-- Last passed test of a resource: local time and SEQ (R859). -/
  passed : List (Res × Nat × Nat) := []
  /-- Tests abandoned by a warm reset, run again after BOOT_DONE (R874). -/
  abandoned : List SelfTest := []
  /-- Spare rows used per package channel, spare banks used per die, spare lines per array, spare lanes per scull half
  (scull × 2 + half), bridge lanes used per bundle (R855). -/
  rowsUsed : Table Nat := []
  banksUsed : Table Nat := []
  linesUsed : Table Nat := []
  lanesUsed : Table Nat := []
  bridgeUsed : Table Nat := []
  /-- Retirements since the cold reset that the list does not hold yet (R863, step 4). -/
  toList : List Retired := []
  /-- The retirement list in the boot flash (R866). -/
  list : List Retired := []
  listFull : Bool := false
  /-- Everything now retired or spared, injected faults included (R869). -/
  retired : List Retired := []
  slots : Table Inject := []
  deriving DecidableEq, Repr

/-! ### The package (01), boot, resets and power (16) -/

/-- Fused identity (01 R41-R46) and fused values (16 R824, 14 R712). -/
structure Fuses where
  serial : Nat := 0
  lots : List Nat := []
  poss : List Nat := []
  /-- Check code failed: bit n for die n (R45). -/
  bad : Nat := 0
  minSvn : Nat := 0
  fwKeyHash : Nat := 0
  uds : Nat := 0
  deriving DecidableEq, Repr

/-- Straps (16 R821). -/
structure Straps where
  pkgSlot : Nat := 0
  pairSide : Bool := false
  sealReq : Bool := false
  bootSel : Nat := 0
  deriving DecidableEq, Repr

/-- The boot flash: two image slots and the active and pending marks (16). -/
structure Flash where
  slotA : List Byte := []
  slotB : List Byte := []
  activeB : Bool := false
  pending : Bool := false
  readable : Bool := true
  deriving DecidableEq, Repr

/-- Identity and availability (01). -/
structure Top where
  sensed : Bool := false
  identBad : Nat := 0
  serial : Nat := 0
  lots : List Nat := []
  poss : List Nat := []
  /-- Bit j: scull j available (R23); zero until boot restores the retirement list (R37). -/
  sculls : Nat := 0
  /-- TOP.AVAIL_MISC. -/
  misc : Nat := 0
  /-- TOP.AVAIL_GEN, 32 bits, wraps (R52). -/
  gen : Nat := 0
  deriving DecidableEq, Repr

/-- Power states of eights and engines (16 R831). -/
inductive Power where
  | on
  | idle
  | off
  deriving DecidableEq, Repr

/-- A power transition (16 R835, R838, R839; 17 R873): resource kind (1 eight, 2 engine), index, state to be reached, whether it has
begun (it waits for a test that runs on the resource), and the moves requested after it. -/
structure Transition where
  kind : Nat
  index : Nat
  goal : Power
  begun : Bool := true
  later : List Power := []
  deriving DecidableEq, Repr

/-- Boot, resets and power (16). -/
structure Rst where
  /-- PWR_GOOD high (20 R943); at reset the package is powered. -/
  powered : Bool := true
  /-- Held in reset by a thermal trip (20 R952). -/
  tripped : Bool := false
  bootDone : Bool := false
  halted : Bool := false
  lastWarm : Bool := false
  warmCause : Nat := 0
  bootError : Nat := 0
  /-- RST.STATUS.FALLBACK (R826). -/
  fallback : Bool := false
  /-- The boot has chosen a verified image (step 4), and the cold work of steps 6 and 7 is done since the cold reset. -/
  chosen : Bool := false
  restored : Bool := false
  /-- The image being tried and whether it is a trial (R826). -/
  trial : Bool := false
  runningB : Bool := false
  /-- VERSION and FW_SVN of the running image, and its measurements (R822). -/
  version : Nat := 0
  svn : Nat := 0
  mLoader : List Byte := []
  mFw : List Byte := []
  recoveryReady : Bool := false
  recoveryImage : List Byte := []
  straps : Straps := {}
  fuses : Fuses := {}
  flash : Flash := {}
  /-- Power of eights and engines; an unlisted one is ON (R831; State.reset: log entry 4). -/
  eightPower : Table Power := []
  enginePower : Table Power := []
  transitions : List Transition := []
  /-- Eights and engines held in engine reset by a PLL (R841). -/
  heldEights : Nat := 0
  heldEngines : Nat := 0
  /-- CLK.PLL_STATUS; every PLL locks at the start of a boot (R798). -/
  pll : Nat := 0
  /-- RST.SECTOR_RESET bits waiting for a shift to end, in order (R147, R815). -/
  sectorResets : List Nat := []
  deriving DecidableEq, Repr

/-! ### Ports (15) -/

/-- One MSI-X table entry (15 R759). -/
structure MsixEntry where
  addr : Nat := 0
  data : Nat := 0
  masked : Bool := true
  deriving DecidableEq, Repr

/-- Configuration space of a function, as far as the spec gives it an effect (15). -/
structure FnConfig where
  msixEnable : Bool := false
  msixMask : Bool := false
  relaxed : Bool := false
  msix : Table MsixEntry := []
  /-- Pending-bit array: vectors with a message held (R762). -/
  pendingBits : List Nat := []
  /-- BAR registers as the host programmed them: BAR number, value. -/
  bars : Table Nat := []
  /-- Device Control 2 completion timeout value (R764). -/
  cplTimeout : Nat := 0
  deriving DecidableEq, Repr

/-- The PCIe host port (15). -/
structure Pci where
  /-- Key 0 the physical function, n + 1 virtual function n. -/
  fns : Table FnConfig := []
  vfEnable : Bool := false
  numVfs : Nat := 0
  linkUp : Bool := false
  speed : Nat := 0
  width : Nat := 0
  flit : Bool := false
  perst : Bool := false
  /-- IDE streams with keys set: stream identifier and key bytes (R772). -/
  ide : Table (List Byte) := []
  /-- What the last register, doorbell, BAR or configuration read returned (the model's own). -/
  reply : Nat := 0
  /-- The last configuration request was answered with Request Retry Status (R770). -/
  retryStatus : Bool := false
  deriving DecidableEq, Repr

/-- CXL port states: OFFLINE 0, TRAINING 1, ONLINE 2 (15 R775-R778). -/
structure CxlPort where
  state : Nat := 0
  speed : Nat := 0
  width : Nat := 0
  capacity : Nat := 0
  cause : Nat := 0
  timeouts : Nat := 0
  deriving DecidableEq, Repr

/-- An Ethernet port: sub-ports up, classes paused by the partner and bytes held, both by sub-port × 8 + class, and classes for
which XOFF is in force, likewise (15 R782-R790). -/
structure EthPort where
  up : Nat := 0
  paused : Nat := 0
  fill : Table Nat := []
  xoff : List Nat := []
  deriving DecidableEq, Repr

end Machine
end Sys2Proof
end

