-- ==== Sys2Proof/Machine/TypesHeat.lean ====
section
/-! DEFINITION. The state types of heats (chapters 06 and 07 of spec/). -/
namespace Sys2Proof.Machine

/-- A share that a revealer disclosed (06 R328, 07 R356): the entrant whose secret it is, its kind (1 b, 2 m), and the share. -/
structure Reveal where
  owner : Nat
  kind : Nat
  revealer : Nat
  share : Nat
  deriving DecidableEq, Repr

/-- A vector with its heat sequence number, staged until its commit (07 R347, R377, R383). -/
structure HeatVector where
  hsn : Nat
  index : Nat
  bytes : List Byte
  deriving DecidableEq, Repr

/-- One keystream that the mask expanders subtract or add: key, domain, and sign (07 R357). -/
structure MaskJob where
  key : List Byte
  domain : Nat
  negative : Bool
  deriving DecidableEq, Repr

/-- A message held in stage 8 (07 R348), in the order of arrival on its queue pair (R345): its bytes and the phase in force when it
was parsed; the MSN of a CONFIRM that was accepted and waits for its reply data; the reply of a message that only waits for those
before it, with its immediate. -/
structure HeldMessage where
  qp : Nat
  msg : List Byte
  phase : Nat
  accepted : Option Nat := none
  answer : Option (Option Nat × List Byte) := none
  deriving DecidableEq, Repr

/-- What the packages of a heat tell each other (07, The phases in detail; 18 R881): the manual names the exchanges and gives
them no layout (log entry 32). `pkg` is the package that sends, or the one whose place it has taken. -/
inductive HeatMsg where
  /-- A home's report for a phase that ended: its range, its members, and its check. -/
  | report (phase pkg first count members : Nat) (ok : Bool)
  /-- The lead's verdict, with the graph seed and the homes in tree order after ENROL. -/
  | verdict (phase : Nat) (ok : Bool) (seed : List Byte) (homes : List (Nat × Nat × Nat)) (total : Nat)
  /-- Sort keys and indices of a home's entrants. -/
  | sortKeys (pkg : Nat) (keys : List (Nat × Nat))
  /-- Slot order of E. -/
  | slotOrder (order : List Nat)
  /-- C_pk ‖ M_pk of a home's entrants. -/
  | keys (pkg : Nat) (entries : List (Nat × List Byte))
  /-- Bitmap bytes of a home's entrants after a phase. -/
  | bits (phase pkg : Nat) (entries : List (Nat × Nat))
  /-- Share ciphertexts for entrants of the receiving home: recipient, sender, ciphertext. -/
  | shares (pkg : Nat) (entries : List (Nat × Nat × List Byte))
  /-- Revealed shares for the home of their owners. -/
  | reveals (pkg : Nat) (entries : List Reveal)
  /-- The lead ends a phase by HEAT_ADVANCE. -/
  | advance (phase : Nat)
  /-- The heat is FAILED. -/
  | failed
  deriving DecidableEq, Repr

/-- A region of a slot in HBM: the granules it lies over, its offset within each, and the bytes it takes of each (07 R344, R352). -/
structure Extent where
  granules : List Nat := []
  base : Nat := 0
  share : Nat := 0
  deriving DecidableEq, Repr

/-- A heat slot (07). -/
structure HeatSlot where
  /-- The HEAT_OPEN packet that opened the heat. -/
  params : List Byte := []
  sector : Nat := 0
  /-- The package in whose place this slot acts: this one, or one it has taken over (18 R892). -/
  self : Nat := 0
  /-- 0 home, 1 lead, 2 shadow (07 R394); and for a shadow the role of its stroke side. -/
  role : Nat := 0
  strokeRole : Nat := 0
  phase : Nat := 0
  prior : Nat := 0
  /-- Serial of the HEAT_OPEN that waits for the twin. -/
  opening : Option Nat := none
  /-- Heat device key pair and K_rc (06 R296, R331). -/
  dSk : List Byte := []
  dPk : List Byte := []
  krc : List Byte := []
  /-- Tally mode: moduli of the committee key object, and its hash (06 R335). -/
  moduli : List Nat := []
  keysetHash : List Byte := []
  /-- The HBM regions, and DPA of the bitmap (07 R344, R352, R974). -/
  records : Extent := {}
  acc : Extent := {}
  mask : Extent := {}
  noise : Extent := {}
  recon : Extent := {}
  staging : Extent := {}
  bitmap : Nat := 0
  /-- Accepted fragments of entrants whose vector is not complete, by index (R349). -/
  staged : Table (Table (List Byte)) := []
  nextHsn : Nat := 1
  /-- Vectors that were issued and are kept in staging until their commit. -/
  vectors : List HeatVector := []
  /-- Highest HSN committed, and the MSN of its commit. -/
  committed : Nat := 0
  commitMsn : Nat := 0
  /-- Tally accumulators by block: the limbs of c0, then those of c1 (09 R487). -/
  tally : Table (List Nat) := []
  /-- Graph seed and slot order of E, once known (06 R314), and on the lead the sort keys gathered so far. -/
  seed : List Byte := []
  sortKeys : List (Nat × Nat) := []
  order : Option (List Nat) := none
  /-- C_pk ‖ M_pk and bitmap bytes of entrants of every home, as the exchanges brought them. -/
  keys : Table (List Byte) := []
  bits : Table Nat := []
  /-- Share ciphertexts by recipient × 2 ^ 32 + sender. -/
  shares : Table (List Byte) := []
  reveals : List Reveal := []
  /-- Reconstructed secrets: 2 × entrant for b, 2 × entrant + 1 for m (R361). -/
  secrets : Table Nat := []
  /-- Exchanges received: kind (0 sort keys, 1 keys, 2 shares, 3 reveals, 16 + phase bits) and package; and done here: 32 sort
  keys sent, 33 keys sent, 48 + phase an advance that waits. -/
  got : List (Nat × Nat) := []
  /-- Homes in tree order: package, first index, indices (07 R372). -/
  homes : List (Nat × Nat × Nat) := []
  /-- Reports the lead holds: phase × 64 + package → first, indices, members, check. -/
  reports : Table (Nat × Nat × Nat × Bool) := []
  /-- Phases that ended here with work or a verdict to come: phase, stroke of the release, and how far the work is: 0 not begun,
  1 bits sent, 2 report sent (R354, R355). -/
  endings : List (Nat × Nat × Nat) := []
  /-- A deadline was released while the slot was TAINTED, stopped or waiting (log entry 45). -/
  late : Bool := false
  /-- The verdict of REVEAL was favourable. -/
  closing : Bool := false
  jobs : List MaskJob := []
  /-- Chunk of the batch of jobs in progress; reconstruction is done; the mask accumulator is complete here. -/
  chunk : Nat := 0
  rebuilt : Bool := false
  maskDone : Bool := false
  /-- The masked reduction has started here (R373). -/
  reducing : Bool := false
  /-- Chunks received, by child × 2 + tree (0 masked, 1 mask) (R374). -/
  received : Table (List Nat) := []
  /-- Trees whose partial this package has sent upward (R373): bit 0 masked, bit 1 mask. -/
  sentUp : Nat := 0
  subtracted : Bool := false
  /-- Noise bytes drawn so far (R371), and the noise is added. -/
  drawn : List Byte := []
  noiseWaiting : Bool := false
  noiseDone : Bool := false
  /-- The noise is added (R370), so that only the sealing is left. -/
  noiseAdded : Bool := false
  /-- The checkpoint at the end of the masked reduction was sent (R380). -/
  lastCheckpoint : Bool := false
  result : List Byte := []
  /-- Counts |E ∩ range| and |S ∩ range|, and pod-wide |S| on the lead. -/
  enrolled : Nat := 0
  survivors : Nat := 0
  total : Nat := 0
  /-- Mirroring (07 R376-R382): the twin holds a shadow; sequence numbers; last checkpoint stroke and whether it is
  acknowledged; MSN of the last item sent before SUBMIT_END (R381); copy acknowledged after a resync (18 R880). -/
  mirrored : Bool := false
  msnSent : Nat := 0
  msnAcked : Nat := 0
  checkpoint : Nat := 0
  checkpointAcked : Bool := false
  submitMsn : Nat := 0
  copying : Bool := false
  /-- Highest MSN applied in a shadow slot; and its entrants whose fragments have all arrived before their commit, in order of
  completion (18 R891, step 3). -/
  msnApplied : Nat := 0
  complete : List Nat := []
  /-- TAINTED: poisoned lines, and the lowest HSN whose add was refused (R383). -/
  taintLines : List Nat := []
  hMin : Option Nat := none
  /-- Stopped under 18 R888; being handed over under 18 R897, with the serial of the command. -/
  stopped : Bool := false
  moving : Option Nat := none
  /-- The slot has been sent to the twin and waits for it to take over. -/
  handed : Bool := false
  /-- HEAT_ADVANCE commands that wait for a verdict: serial and phase. -/
  advance : List (Nat × Nat) := []
  deriving DecidableEq, Repr

/-- The heat pool of a sector (07 R341): first HBM granule and count, first lake granule and count. -/
structure HeatPool where
  hbmFirst : Nat := 0
  hbmCount : Nat := 0
  lakeFirst : Nat := 0
  lakeCount : Nat := 0
  deriving DecidableEq, Repr

/-- The heats of the package. -/
structure Heats where
  pools : Table HeatPool := []
  slots : Table HeatSlot := []
  held : List HeldMessage := []
  /-- Messages between slots of this package that are still to be handled in the same step: slot and message. -/
  inbox : List (Nat × HeatMsg) := []
  deriving DecidableEq, Repr

end Sys2Proof.Machine
end

