-- ==== Sys2Proof/Machine/TypesSys.lean ====
section
/-! DEFINITION. What system packets on chord links carry (chapters 07, 11 and 18 of spec/). The manual names these exchanges and
gives them no layout, so they are constructors, and their payload bytes are a free value (log entry 32). -/
namespace Sys2Proof.Machine

/-- The memory of a heat slot that goes to a twin whole: accumulator, mask accumulator, bitmap, entrant records. -/
structure SlotImage where
  acc : List Byte := []
  mask : List Byte := []
  bitmap : List Byte := []
  records : List Byte := []
  deriving DecidableEq, Repr

/-- A system packet's content. -/
inductive SysMsg where
  /-- A message of a heat to the slot that acts for package `to`. -/
  | heat (id home : Nat) (m : HeatMsg)
  /-- A shadow slot is opened or refused, or a whole slot is copied to the twin (07 R376; 18 R880, R881). -/
  | shadowOpen (slot : HeatSlot)
  | shadowOpened (id : Nat) (ok : Bool)
  | slotCopy (slot : HeatSlot) (image : SlotImage)
  | copyDone (id msn : Nat)
  /-- Mirror stream items and their acknowledgement (07 R377, R378). -/
  | contribution (id msn index typ fragment : Nat) (data : List Byte)
  | commit (id msn hsn index : Nat)
  | mirrorAck (id msn : Nat)
  /-- State of a heat that changes on the stroke side outside the mirror stream: phase, exchanged data (18 R881). -/
  | slotState (slot : HeatSlot)
  /-- A chunk that a parent added, for its twin (07 R379). -/
  | treeCopy (id tree child chunk : Nat) (bytes : List Byte)
  | checkpoint (id stroke : Nat) (image : SlotImage)
  | checkpointAck (id stroke : Nat)
  /-- Pair: a package offers to form with a twin; a slot is handed over, taken, or kept unmirrored; the twin is asked to hand
  over (18 R878, R897, R899). -/
  | pairHello (twin : Nat) (side : Bool) (qpn : Nat)
  | handover (slot : HeatSlot) (image : SlotImage)
  | handoverAsk (id : Nat)
  | handoverDone (id : Nat)
  | keepUnmirrored
  /-- The successor of a failed package, or of the old stroke side of one heat (18 R891, step 5, R897); heat 0 names every heat. -/
  | substitution (failed successor heat : Nat)
  deriving DecidableEq, Repr

end Sys2Proof.Machine

namespace Sys2Proof.Config

/-- Payload bytes of a system packet (log entry 32). -/
opaque sysBytes : Machine.SysMsg → List Byte

end Sys2Proof.Config
end

