-- ==== Sys2Proof/Machine/TypesChord.lean ====
section
/-! DEFINITION. The state types of chord links, transfers and folds (chapter 11 of spec/), and the packets on the links. -/
namespace Sys2Proof.Machine

/-- A packet on a chord link (R568). `poison` lists the lines of the chunk that travel marked poisoned (R592). -/
structure Packet where
  typ : Nat
  flags : Nat := 0
  srcPkg : Nat := 0
  srcSector : Nat := 0
  hops : Nat := 4
  etype : Nat := 7
  status : Nat := 0
  dest : Nat := 0
  stream : Nat := 0
  chunk : Nat := 0
  decoded : Nat := 0
  payload : List Byte := []
  poison : List Nat := []
  deriving DecidableEq, Repr

/-- What the sides of a link tell each other in IDENT (R561; on a sealed link 14 R737, R738). The manual gives the flit's
payload no layout. `chainsOk` says whether both Alias chains and the signatures of the transcript hold. -/
structure IdentInfo where
  pkg : Nat
  link : Nat
  serial : Nat := 0
  pairMode : Bool := false
  sealed : Bool := false
  epoch : Nat := 0
  /-- Last DATA SEQ accepted from the peer, as a count; none before the first. -/
  last : Nat := 0
  svn : Nat := 0
  chainsOk : Bool := true
  share : List Byte := []
  ek : List Byte := []
  ct : List Byte := []
  deriving DecidableEq, Repr

/-- Chord link states, in the order of their codes. -/
inductive LinkState where
  | down
  | training
  | ident
  | up
  | retrain
  deriving DecidableEq, Repr

/-- A chord link (R556-R567). -/
structure Link where
  state : LinkState := .down
  cause : Nat := 0
  /-- Pair mode (R555, R600). -/
  pairMode : Bool := false
  retired : Nat := 0
  spareUsed : Bool := false
  peerPkg : Nat := 0
  peerLink : Nat := 0
  peerSerial : Nat := 0
  peerEpoch : Nat := 0
  epoch : Nat := 0
  /-- The link reached IDENT of the training that runs (TRAINING steps 1 to 3 are done). -/
  trained : Bool := false
  /-- DATA flits accepted in the epoch, and whether one NAK for the next has been sent (R557). -/
  rxCount : Nat := 0
  nakSent : Bool := false
  /-- DATA flits sent in the epoch, and the unacknowledged ones, oldest first, with their payloads (R558). -/
  txCount : Nat := 0
  replay : List (List Byte) := []
  /-- Payloads that wait for a credit, for room in the replay buffer or for the end of a retrain (R558, R559, R564), each with
  the poison marks of the packet that begins in it. -/
  txWait : List (List Byte × List Nat) := []
  credits : Nat := 0
  /-- Payload bytes accepted and not yet taken by a packet, and credits that can be returned. -/
  rx : List Byte := []
  due : Nat := 0
  /-- Flits resent since UP. -/
  replayed : Nat := 0
  /-- A sealed link: ephemeral secrets of IDENT, keys of the directions, counts of flits other than DATA (14 R737, R739). -/
  ephemeral : List Byte := []
  txKey : List Byte := []
  rxKey : List Byte := []
  txOther : Nat := 0
  rxOther : Nat := 0
  /-- NAKs in a row that named one sequence number. -/
  naks : Nat := 0
  nakSeq : Nat := 0
  /-- A BIST command in progress (R602). -/
  bist : Option Nat := none
  deriving DecidableEq, Repr

/-- A CHORD_XFER in progress (R583-R587). -/
structure Transfer where
  serial : Nat
  sector : Nat
  op : Nat
  etype : Nat
  compress : Bool
  localAddr : Nat
  remote : Nat
  bytes : Nat
  /-- Chunks acknowledged, and chunks refused with their statuses. -/
  acked : List Nat := []
  refused : List (Nat × Nat) := []
  sent : Nat := 0
  /-- Link that carries it. -/
  link : Nat := 0
  deriving DecidableEq, Repr

/-- A fold slot (R588-R593). -/
structure Fold where
  serial : Nat
  sector : Nat
  role : Nat
  stream : Nat
  etype : Nat
  compress : Bool
  localAddr : Nat
  dest : Nat
  bytes : Nat
  next : Nat
  prev : Nat
  /-- Chunks sent and not yet acknowledged, as packets, for resending; chunks acknowledged; chunks added; lines written
  poisoned. -/
  waiting : Table Packet := []
  acked : List Nat := []
  written : List Nat := []
  poisoned : Nat := 0
  /-- Status of the first own line that failed (R592). -/
  failed : Nat := 0
  /-- Chunks that were refused RETRY_BUSY and are sent again (R590). -/
  busy : List Nat := []
  /-- Link that carries its chunks. -/
  link : Nat := 0
  deriving DecidableEq, Repr

/-- Chord links, transfers, folds and the receiver's bitmaps. -/
structure Chord where
  links : Table Link := []
  transfers : Table Transfer := []
  /-- Transfer number assigned last (R584). -/
  lastStream : Nat := 0
  folds : Table Fold := []
  /-- Tree chunks of heats sent and not acknowledged, each with the link that carried it (R596, R597). -/
  tree : List (Nat × Packet) := []
  /-- System messages that found no link UP: over the pair link or not, destination, message. -/
  unsent : List (Bool × Nat × SysMsg) := []
  /-- Packages that act for others after a takeover (18 R892): heat × 64 + failed package → successor; heat 0 names every heat. -/
  successor : Table Nat := []
  /-- Chunks applied, by source package × 2 ^ 33 + (FOLD 2 ^ 32) + stream (R586, R593). -/
  applied : Table (List Nat) := []
  deriving DecidableEq, Repr

end Sys2Proof.Machine
end

