-- ==== Sys2Proof/Machine/TypesCrew.lean ====
section
/-! DEFINITION. The state types of contexts, launches, groups and crews (chapters 12 and 13 of spec/). -/
namespace Sys2Proof.Machine

/-- A fault that a memory controller finds while it serves an access, at a line (05 R251, R255; 17 R843, R984): corrected
symbols or bits, uncorrectable, tag failure, an interface error whose retry passes, one whose retry fails, and one that nothing detects. -/
inductive FaultKind where
  | corrected
  | uncorrectable
  | tagFail
  | busRetried
  | busFailed
  | undetected
  deriving DecidableEq, Repr

/-- A line fault: DPA of the line, what was found, and the number of symbols or bits in error. -/
structure LineFault where
  line : Nat
  kind : FaultKind
  symbols : Nat := 1
  deriving DecidableEq, Repr

/-- Why a context is being killed or was killed (12 R641-R645): cause code, scull (0x3FF for none), group, crew, PC and
virtual address. -/
structure Kill where
  cause : Nat
  scull : Nat := 0x3FF
  group : Nat := 0
  crew : Nat := 0
  pc : Nat := 0
  va : Nat := 0
  /-- Status that the record names (16 R836). -/
  status : Nat := 0x0503
  deriving DecidableEq, Repr

/-- A context (12 R603-R608). -/
structure Context where
  root : Nat := 0
  firmware : Bool := false
  /-- The kill that is not complete yet. -/
  dying : Option Kill := none
  /-- The cause of a completed kill: the context is KILLED. -/
  killed : Option Nat := none
  /-- CONTEXT_KILL commands that wait for the kill. -/
  waiters : List Nat := []
  deriving DecidableEq, Repr

/-- A launch, by age (12 R609-R616). -/
structure Launch where
  serial : Nat := 0
  ctx : Nat := 0
  distance : Bool := false
  crews : Nat := 1
  vregs : Nat := 4
  entry : Nat := 0
  arg : Nat := 0
  groups : Nat := 1
  localBytes : Nat := 0
  eights : Nat := 0
  timeoutMs : Nat := 0
  /-- Next group to be placed, the scull that took the last one, and groups that have ended. -/
  next : Nat := 0
  lastScull : Option Nat := none
  ended : Nat := 0
  deriving DecidableEq, Repr

/-- A placed crew group, by key (12 R615-R620). -/
structure Group where
  age : Nat := 0
  number : Nat := 0
  scull : Nat := 0
  localOff : Nat := 0
  deriving DecidableEq, Repr

/-- An access that has not returned (13 R683): the register writes it will make (keys register × 64 + thread), or the kill
it will raise. -/
structure Load where
  writes : List (Nat × Word32) := []
  fault : Option Kill := none
  deriving DecidableEq, Repr

/-- A resident crew, by key (12 R618, 13 R651-R655). Unlisted registers read zero. -/
structure Crew where
  group : Nat := 0
  number : Nat := 0
  half : Nat := 0
  pc : Nat := 0
  /-- Per-thread registers: key register × 64 + thread. -/
  v : Table Word32 := []
  s : Table Word64 := []
  /-- Predicate registers p1-p7 as thread masks; p0 is always true. -/
  p : Table Nat := []
  atBarrier : Bool := false
  ended : Bool := false
  /-- Pending completion tokens (13 R689). -/
  tokens : Nat := 0
  loads : List Load := []
  deriving DecidableEq, Repr

/-- A matrix descriptor in a scull's queue (12 R633, 13 R684). -/
structure Descriptor where
  crew : Nat := 0
  token : Nat := 0
  pc : Nat := 0
  bytes : List Byte := []
  deriving DecidableEq, Repr

/-- Contexts, launches and crews of the package (12). -/
structure Sculls where
  contexts : Table Context := []
  /-- Launches queued or running, by age (R611). -/
  launches : Table Launch := []
  nextAge : Nat := 0
  groups : Table Group := []
  nextGroup : Nat := 0
  crews : Table Crew := []
  nextCrew : Nat := 0
  /-- Matrix queues, by scull. -/
  matrix : Table (List Descriptor) := []
  deriving DecidableEq, Repr

end Sys2Proof.Machine
end

