-- ==== Sys2Proof/Machine/TypesRdma.lean ====
section
/-! DEFINITION. The state types of remote memory access (chapter 10 of spec/), and the RoCE v2 packets that the device sends
and receives. -/
namespace Sys2Proof.Machine

/-- What a RoCE v2 packet carries, as far as the device supports it (R497). -/
inductive RoceOp where
  /-- A packet of a SEND; the immediate is in the last packet of a SEND with immediate. -/
  | send (first last : Bool) (imm : Option Nat)
  /-- A packet of an RDMA WRITE; address, key and message length are in the first packet. -/
  | write (first last : Bool) (imm : Option Nat) (addr key len : Nat)
  | readReq (addr key len : Nat)
  | fetchAdd (addr key addend : Nat)
  | cmpSwap (addr key compare swap : Nat)
  | ack
  | readResp
  | atomicResp (value : Nat)
  /-- NAK codes of IBTA: 0 PSN sequence error, 1 invalid request, 2 remote access error, 3 remote operational error. -/
  | nak (code : Nat)
  | rnrNak (timer : Nat)
  | cnp
  deriving DecidableEq, Repr

/-- A RoCE v2 packet. `valid` says that its ICRC, P_Key, opcode and transport are as R498 asks; `ce` that its ECN field is CE
or is treated so (15 R793); `misses` how many state cache entries it waited for (R504). -/
structure RocePacket where
  dest : Nat
  psn : Nat := 0
  op : RoceOp
  payload : List Byte := []
  ackReq : Bool := false
  source : Nat := 0
  qkey : Nat := 0
  /-- The 40-byte address header of a UD packet (R523). -/
  address : List Byte := []
  valid : Bool := true
  ce : Bool := false
  misses : Nat := 0
  deriving DecidableEq, Repr

/-- A RoCE v2 frame that the device sends: port, sub-port and class, address entry, UDP source port, DSCP, next hop, packet
(R500, R501; 15 R784, R787). The ECN field is always ECT(0). -/
structure RoceFrame where
  port : Nat
  sub : Nat
  cls : Nat
  srcIndex : Nat
  udpSource : Nat
  dscp : Nat
  vlan : Nat
  destIp : List Byte
  destMac : List Byte
  pkt : RocePacket
  deriving DecidableEq, Repr

/-- A key entry: a memory region, or a Type-2 window (R506-R512). -/
structure RdmaKey where
  variant : Nat := 0
  pd : Nat := 0
  window : Bool := false
  valid : Bool := true
  host : Bool := false
  iova : Nat := 0
  len : Nat := 0
  target : Nat := 0
  access : Nat := 0
  /-- A bound window: its queue pair and the key of its region. -/
  bound : Option (Nat × Nat) := none
  deriving DecidableEq, Repr

/-- A send posted on a queue pair (R520-R524). -/
structure Post where
  serial : Nat
  /-- The RDMA_POST packet. -/
  params : List Byte
  /-- What a SEND or WRITE carries, read when it was posted. -/
  data : List Byte := []
  sent : Bool := false
  firstPsn : Nat := 0
  /-- PSNs it takes. -/
  psns : Nat := 1
  /-- Bytes of READ response placed. -/
  got : Nat := 0
  deriving DecidableEq, Repr

/-- A receive posted on a queue pair. -/
structure Recv where
  serial : Nat
  lkey : Nat
  addr : Nat
  len : Nat
  deriving DecidableEq, Repr

/-- A message being received: bytes placed so far, and for a WRITE the next address, the key and the bytes left. -/
structure Inbound where
  write : Bool := false
  addr : Nat := 0
  key : Nat := 0
  left : Nat := 0
  placed : Nat := 0
  /-- Bytes of a heat message so far. -/
  bytes : List Byte := []
  deriving DecidableEq, Repr

/-- A queue pair (R516-R547). -/
structure Qp where
  sector : Nat := 0
  pd : Nat := 0
  /-- 0 RC, 1 UD, 2 HEAT_INGRESS. -/
  kind : Nat := 0
  port : Nat := 0
  sqRing : Nat := 0
  rqRing : Nat := 0
  sqDepth : Nat := 1
  rqDepth : Nat := 1
  /-- 0 RESET, 1 INIT, 2 RTR, 3 RTS, 4 SQD, 5 SQE, 6 ERROR. -/
  state : Nat := 0
  access : Nat := 0
  pmtu : Nat := 0
  ackTimeout : Nat := 0
  retryCnt : Nat := 0
  rnrRetry : Nat := 0
  minRnr : Nat := 0
  maxRd : Nat := 1
  destQpn : Nat := 0
  qkey : Nat := 0
  dscp : Nat := 0
  srcIndex : Nat := 0
  destIp : List Byte := []
  destMac : List Byte := []
  vlan : Nat := 0
  /-- Next PSN to send, and the expected receive PSN. -/
  sqPsn : Nat := 0
  rqPsn : Nat := 0
  posts : List Post := []
  recvs : List Recv := []
  /-- Atomics executed, newest first: PSN and original value (R537). -/
  replay : List (Nat × Nat) := []
  /-- A NAK PSN sequence error was sent and the expected PSN has not arrived (R534). -/
  nakSent : Bool := false
  inbound : Option Inbound := none
  /-- Retransmissions, and RNR NAKs, of the oldest unacknowledged PSN (R533). -/
  retries : Nat := 0
  rnrs : Nat := 0
  rnrWait : Bool := false
  /-- Rate gear, local time of the last cut, RISE periods since it (R543-R546), and time of the last CNP sent (R544). -/
  gear : Nat := 0
  lastCut : Option Nat := none
  lastRise : Nat := 0
  rises : Nat := 0
  lastCnp : Option Nat := none
  /-- A HEAT_INGRESS queue pair: messages waiting for the heat engine (R529), and replies not yet acknowledged (R532). -/
  messages : List (List Byte) := []
  replies : List (Nat × Option Nat × List Byte) := []
  deriving DecidableEq, Repr

/-- The tables of the RDMA engine. -/
structure Rdma where
  /-- RDMA table granule of each sector that has one (R502). -/
  tables : Table Nat := []
  /-- Protection domains with their sectors. -/
  pds : Table Nat := []
  /-- Key entries by sector × 2 ^ 20 + INDEX. -/
  keys : Table RdmaKey := []
  /-- Queue pairs by package-local index (R499). -/
  qps : Table Qp := []
  /-- Frames that wait for their sub-port or their class (15 R783, R787). -/
  held : List RoceFrame := []
  deriving DecidableEq, Repr

end Sys2Proof.Machine
end

