-- ==== Sys2Proof/Syntax.lean ====
section
/-! DEFINITION. The commands of the block: one constructor per row of spec/opcode_table.json, with the row's operands, and
the operand types. A command packet's parameters travel in its bytes on the ring, so a packet row names only the ring whose
next command begins, and what the device reads from outside while it executes. -/
namespace Sys2Proof
open Machine

/-- How a read that the device makes of host memory ends (15 R765). -/
inductive HostRead where
  | data (bytes : List Byte)
  | timeout
  | poisoned
  | error
  deriving DecidableEq, Repr

/-- Who writes a doorbell: a function through BAR2 or the mirror, an RDMA peer through the mirror, or Coxswain firmware
(04 R165, R173). -/
inductive Doorbell where
  | page (fn : Fn)
  | mirror (fn : Fn)
  | peer
  | firmware
  deriving DecidableEq, Repr

/-- What a CXL port finds at boot (15 R775): an expander that trains, with its capacity in GiB, speed and width. -/
inductive ExpanderEnv where
  | absent
  | failed
  | otherDevice
  | sld (gib speed width : Nat)
  deriving DecidableEq, Repr

/-- What a boot reads from outside: straps, fuses when they are first sensed, the flash the board carries (none: as it
stands), the stacks whose HBM trains, the expanders, and the standby level that SEAL.STATUS.RETAIN keeps. -/
structure BootEnv where
  straps : Straps := {}
  fuses : Option Fuses := none
  flash : Option Flash := none
  list : Option (List Retired) := none
  hbm : Nat := 255
  cxl0 : ExpanderEnv := .absent
  cxl1 : ExpanderEnv := .absent
  /-- At BOOT_DONE: the start-up of the entropy source has ended meanwhile, with every seed it needs (log entry 78). -/
  source : Bool := true
  deriving DecidableEq, Repr

/-- Causes of a warm reset that has a row of its own (16 R808): the pin, a register write through a function, sealing. -/
inductive WarmCause where
  | pin
  | register (fn : Fn) (value : Nat)
  | sealing
  deriving DecidableEq, Repr

/-- Events that reset the host port (15 R768). -/
inductive PortReset where
  | perst
  | hotReset
  | linkDown
  deriving DecidableEq, Repr

/-- Host configuration requests, as far as the spec gives them an effect (15 R751-R764, R770). -/
inductive ConfigReq where
  | read (off : Nat)
  | vfEnable (on : Bool) (numVfs : Nat)
  | msixControl (enable mask : Bool)
  | relaxedOrdering (on : Bool)
  | bar (n value : Nat)
  | completionTimeout (value : Nat)
  deriving DecidableEq, Repr

/-- The instruction shifted into the JTAG port (14 R707). -/
inductive JtagIr where
  | idcode
  | bypass
  | other (code : Nat)
  deriving DecidableEq, Repr


/-- The commands (spec/opcode_table.json). -/
inductive Instr where
  /-- NOP (R203): Administrative command that does nothing and completes with OK and zero results. -/
  | nop (ring : Nat)
  /-- IDENTIFY (R204): Command returning the part ID, stepping and running firmware version. -/
  | identify (ring : Nat)
  /-- FW_ACTIVATE (R825): Copies and verifies a firmware image, then writes it to the inactive flash slot and marks that slot pending. -/
  | fwActivate (ring : Nat) (image : HostRead)
  /-- RING_CREATE (R181): Creates ring 1-63 of the sector with its class, sizes, location and vector, and leaves it ACTIVE. -/
  | ringCreate (ring : Nat)
  /-- RING_DESTROY (R183): Stops fetching on a ring, waits for fetched commands to post, then leaves the ring DISABLED. -/
  | ringDestroy (ring : Nat)
  /-- RING_RESET (R183): Stops fetching on a ring, waits for fetched commands to post, then leaves it ACTIVE with heads and tails at zero. -/
  | ringReset (ring : Nat)
  /-- QUIESCE (R207): Holds the named work classes of the sector at their next boundaries, or releases held work when RELEASE is set. -/
  | quiesce (ring : Nat)
  /-- SECTOR_DEFINE (R133): Makes an UNDEFINED sector ACTIVE and assigns it resources from the free pool, with no drain. -/
  | sectorDefine (ring : Nat)
  /-- SECTOR_SHIFT (R135): Validates and commits a move of resources between sectors, then drains, kills, unmaps, clears and assigns them. -/
  | sectorShift (ring : Nat)
  /-- SECTOR_STOP (R145): Drains a sector, cancels its marks, resets its rings, returns its resources to the free pool and leaves it UNDEFINED. -/
  | sectorStop (ring : Nat)
  /-- POWER_SET (R834): Moves named eights or lattice engines to ON, IDLE or OFF. -/
  | powerSet (ring : Nat)
  /-- MARK_SET (R83): Stores a command in a mark slot with a target stroke, window and optional repeat. -/
  | markSet (ring : Nat)
  /-- MARK_CANCEL (R101): Frees a mark slot of the sector whose stored tag matches. -/
  | markCancel (ring : Nat)
  /-- CADENCE_CONFIG (R59): Selects the cadence reference source and limits, and with SET_TIMEBASE sets the origin and period once. -/
  | cadenceConfig (ring : Nat)
  /-- MEM_INVALIDATE (R248): Drops cached copies of named page-table entries and waits for accesses already translated through them. -/
  | memInvalidate (ring : Nat)
  /-- TIER_MOVE (R275): Queues on the tier mover a copy of 2 MiB pages between near and far tier, explicitly or by coldest access count. -/
  | tierMove (ring : Nat) (faults : List LineFault)
  /-- MEM_ZERO (R281): Writes zeros to a near-tier or lake range by full-line writes. -/
  | memZero (ring : Nat)
  /-- FAR_ASSIGN (R282): Replaces or releases a sector's far-tier range, zeroing joining pages. -/
  | farAssign (ring : Nat)
  /-- LAUNCH (R609): Checks a kernel dispatch and places it in the sector's launch queue with an age. -/
  | launch (ring : Nat)
  /-- CONTEXT_CREATE (R604): Creates an ALIVE context with the given page-table root. -/
  | contextCreate (ring : Nat)
  /-- CONTEXT_DESTROY (R607): Frees a context with no queued or running launch and drops its translations. -/
  | contextDestroy (ring : Nat)
  /-- CONTEXT_KILL (R606): Kills an ALIVE context as a fault would, with cause HOST. -/
  | contextKill (ring : Nat)
  /-- HEAT_OPEN (R296): Opens a heat slot, allocates its regions, draws the heat device key and writes the heat key statement. -/
  | heatOpen (ring : Nat) (faults : List LineFault)
  /-- HEAT_ADVANCE (R392): On the lead, ends the expected phase on every home as its deadline release would. -/
  | heatAdvance (ring : Nat)
  /-- HEAT_ABORT (R393): Makes a heat FAILED on the package, or on every reachable home when issued on the lead. -/
  | heatAbort (ring : Nat)
  /-- HEAT_QUERY (R394): Returns a heat's phase, slot, role, checkpoint stroke and counts. -/
  | heatQuery (ring : Nat)
  /-- HEAT_COLLECT (R395): Writes the sealed result of a DONE heat on the lead and frees the slot. -/
  | heatCollect (ring : Nat)
  /-- HEAT_POOL_SET (R341): Reserves or releases a sector's HBM and lake granules for heats. -/
  | heatPoolSet (ring : Nat)
  /-- LAT_EXEC (R457): Queues a lattice operation on an engine of the sector. -/
  | latExec (ring : Nat)
  /-- LAT_SUSPEND (R478): Suspends a tagged lattice operation at its next boundary into a slot, optionally spilling it. -/
  | latSuspend (ring : Nat)
  /-- LAT_RESUME (R480): Restores a suspended context named by its token and continues at its first step not done. -/
  | latResume (ring : Nat)
  /-- LAT_MODULI (R448): Loads modulus table entries of an engine and derives their constants, in queue order. -/
  | latModuli (ring : Nat)
  /-- RNG_INSTANTIATE (R415): Instantiates a client CTR_DRBG instance from one seed with its interval and limit. -/
  | rngInstantiate (ring : Nat)
  /-- RNG_GENERATE (R425): Generates random bytes from a client instance, reseeding, stretching or starving as seeds allow. -/
  | rngGenerate (ring : Nat) (faults : List LineFault)
  /-- RNG_RESEED (R416): Reseeds a client instance from one seed and any additional input. -/
  | rngReseed (ring : Nat)
  /-- RNG_UNINSTANTIATE (R418): Uninstantiates a client instance and writes its state with zeros. -/
  | rngUninstantiate (ring : Nat)
  /-- RNG_RAW_MODE (R430): Enters or leaves raw test mode, or captures raw samples or lock statistics of one annulus. -/
  | rngRawMode (ring : Nat)
  /-- RDMA_TABLE_SET (R502): Assigns or releases a sector's RDMA table granule, zeroing it. -/
  | rdmaTableSet (ring : Nat)
  /-- PD_ALLOC (R507): Allocates a protection domain within the sector's quota. -/
  | pdAlloc (ring : Nat)
  /-- PD_FREE (R507): Frees an unused protection domain. -/
  | pdFree (ring : Nat)
  /-- MR_REGISTER (R509): Registers a memory region with rights and returns its key. -/
  | mrRegister (ring : Nat)
  /-- MR_DEREGISTER (R512): Deregisters a memory region with no window bound. -/
  | mrDeregister (ring : Nat)
  /-- MW_ALLOC (R512): Creates an unbound Type-2 memory window and returns its key. -/
  | mwAlloc (ring : Nat)
  /-- MW_FREE (R512): Frees a memory window key. -/
  | mwFree (ring : Nat)
  /-- QP_CREATE (R517): Creates an RC, UD or HEAT_INGRESS queue pair in RESET. -/
  | qpCreate (ring : Nat)
  /-- QP_MODIFY (R518): Moves a queue pair through an allowed state transition with that transition's fields. -/
  | qpModify (ring : Nat)
  /-- QP_DESTROY (R519): Destroys a queue pair in RESET or ERROR with no window bound. -/
  | qpDestroy (ring : Nat)
  /-- QP_QUERY (R519): Returns a queue pair's state, PSNs, rate gear and peer QPN. -/
  | qpQuery (ring : Nat)
  /-- RDMA_POST (R520): Posts a send, write, read, atomic or window bind or invalidate on a queue pair. -/
  | rdmaPost (ring : Nat) (host : HostRead) (faults : List LineFault)
  /-- RDMA_RECV (R520): Posts a receive buffer on a queue pair. -/
  | rdmaRecv (ring : Nat)
  /-- CHORD_LINK (R602): Takes a chord link DOWN, starts its training, or runs lane BIST. -/
  | chordLink (ring : Nat)
  /-- CHORD_ROUTE (R601): Sets the mask of links toward a destination package. -/
  | chordRoute (ring : Nat)
  /-- CHORD_ACL (R601): Writes one access window of a sector for remote packages. -/
  | chordAcl (ring : Nat)
  /-- CHORD_XFER (R584): Moves, fetches or accumulates a memory range to or from another package in 64 KiB chunks. -/
  | chordXfer (ring : Nat)
  /-- CHORD_FOLD (R589): Joins a fold chain as head, middle or tail with a stream slot. -/
  | chordFold (ring : Nat)
  /-- ATTEST_REPORT (R718): Writes a signed attestation report with identity, measurements and nonce. -/
  | attestReport (ring : Nat)
  /-- BOUNCE_WINDOW_ADD (R735): Registers a bounce window of record slots for the sector. -/
  | bounceWindowAdd (ring : Nat)
  /-- BOUNCE_WINDOW_REMOVE (R735): Removes a bounce window that no ring lies in. -/
  | bounceWindowRemove (ring : Nat)
  /-- OPKEY_LOAD (R740): Stores an operator key under a handle for named sectors. -/
  | opkeyLoad (ring : Nat) (key : HostRead)
  /-- OPKEY_REMOVE (R741): Removes an operator key handle that no open heat names. -/
  | opkeyRemove (ring : Nat)
  /-- SEAL_ARM (R702): Closes debug paths, zeroes memory, releases far ranges and sets ARMED for a sealing warm reset. -/
  | sealArm (ring : Nat)
  /-- CERT_READ (R716): Writes the ECDSA or ML-DSA certificate chain in DER. -/
  | certRead (ring : Nat)
  /-- SELFTEST_RUN (R871): Runs, or joins, the targeted self-test of a named resource and reports its outcome. -/
  | selftestRun (ring : Nat)
  /-- INJECT_ARM (R867): Arms an injection slot for a detector on a target resource. -/
  | injectArm (ring : Nat)
  /-- INJECT_DISARM (R870): Disarms an armed injection slot. -/
  | injectDisarm (ring : Nat)
  /-- PAIR_FORM (R878): Switches C10 and C11 to pair mode, creates the heartbeat queue pair and forms a pair with the twin. -/
  | pairForm (ring : Nat)
  /-- PAIR_TAKEOVER (R897): Moves the stroke side of mirrored slots to the twin without loss. -/
  | pairTakeover (ring : Nat)
  /-- TRAY_DETACH (R899): Hands over slots, quiesces sectors, returns pair links and enters DETACHED driving TRAY_READY. -/
  | trayDetach (ring : Nat)
  /-- PAIR_BREAK (R902): Ends a pair without handover when no mirrored slot exists. -/
  | pairBreak (ring : Nat)
  /-- WAKE_CONFIG (R920): Sets a wake queue's kind, empty mode and performance sampling, or clears it. -/
  | wakeConfig (ring : Nat)
  /-- WAKE_DRAIN (R921): Writes up to MAX_WORDS wide words of a wake queue to memory, oldest first. -/
  | wakeDrain (ring : Nat) (faults : List LineFault) (refused : Option Nat)
  /-- DROP_PACKET (R923): Discards the rest of the packet whose last taken word lacked EOP. -/
  | dropPacket (ring : Nat)
  /-- REGISTER_WRITE (R10): Write to a register field that has no row of its own, acting by its access code. -/
  | registerWrite (fn : Fn) (off size value : Nat)
  /-- RC_READ (R18): Read of a read-to-clear register that returns and clears its accumulated count. -/
  | rcRead (fn : Fn) (off size : Nat)
  /-- MISALIGNED_REGISTER_ACCESS (R15): Unaligned or wrongly sized register access that is discarded or reads all ones and is recorded. -/
  | misalignedRegisterAccess (fn : Fn) (off size : Nat) (write : Bool)
  /-- SQ_TAIL (R167): Doorbell or mirror write of a new submission tail that lets the device fetch the units up to it. -/
  | sqTail (src : Doorbell) (ring value : Nat)
  /-- CQ_HEAD (R161): Doorbell or mirror write that releases completion entries to the device. -/
  | cqHead (src : Doorbell) (ring value : Nat)
  /-- ADMIN_CFG_ENABLE (R174): Write of CMD.ADMIN_CFGn.ENABLE that makes the admin ring ACTIVE or DISABLED. -/
  | adminCfgEnable (fn : Fn) (sector value : Nat)
  /-- ADMIN_CFG_RESET (R185): Write of 1 to CMD.ADMIN_CFGn.RESET that resets ring 0 as RING_RESET does. -/
  | adminCfgReset (fn : Fn) (sector value : Nat)
  /-- POP (R913): Read at offset 0 of WAKE.DATAq that removes the oldest wide word into the function's latch. -/
  | pop (fn : Fn) (queue size : Nat)
  /-- RECOVERY_GO (R830): Write of RST.RECOVERY_CTRL.GO that starts verification of a host-written recovery image. -/
  | recoveryGo (fn : Fn) (value : Nat)
  /-- PORT_CFG (R781): Write of ETH.PORT_CFGe that enables a port and sets its mode, media and buffer thresholds. -/
  | portCfg (fn : Fn) (port value : Nat)
  /-- BAR4_READ (R753): Read through the read-only debug window at MEM.DBG_BASE. -/
  | bar4Read (fn : Fn) (off size : Nat) (faults : List LineFault)
  /-- MSIX_UNMASK (R762): Unmask of an MSI-X vector or function that sends one message for a pending bit. -/
  | msixUnmask (fn : Fn) (vector : Option Nat)
  /-- VF_ENABLE_CLEAR (R757): Host clears SR-IOV VF Enable, treating every sector as a function-level reset. -/
  | vfEnableClear
  /-- FUNCTION_LEVEL_RESET (R814): PCIe FLR of a function that performs a sector reset and resets its configuration space. -/
  | functionLevelReset (fn : Fn)
  /-- COLD_RESET (R808): PWR_GOOD rising or COLD_RESET_N low restarts the whole package and runs the cold boot. -/
  | coldReset (env : BootEnv)
  /-- PWR_GOOD_FALL (R943): PWR_GOOD low holds the whole package in reset. -/
  | pwrGoodFall
  /-- WARM_RESET (R808): Pin, RST.CTRL key write, watchdog, hub PLL loss or sealing restarts the package except what survives, and reboots. -/
  | warmReset (cause : WarmCause)
  /-- SECTOR_RESET (R812): Write of a bit of RST.SECTOR_RESET that ends a sector's work and disables its rings. -/
  | sectorReset (fn : Fn) (value : Nat)
  /-- ENGINE_RESET (R816): Reset of one eight or one lattice engine started through RST.ENGINE_RESET or by firmware. -/
  | engineReset (fn : Option Fn) (kind index : Nat)
  /-- HOST_PORT_RESET (R768): PERST#, hot reset or data-link down resets configuration space and disables host-memory rings. -/
  | hostPortReset (cause : PortReset)
  /-- BOOT_DONE (R828): End of boot: resources set IDLE or OFF, all blocks reachable, held error records flushed. -/
  | bootDone (env : BootEnv)
  /-- WATCHDOG_EXPIRY (R818): One second without a watchdog restart causes a warm reset with cause WATCHDOG. -/
  | watchdogExpiry
  /-- TRIAL_TIMER_EXPIRY (R819): Trial image did not reach BOOT_DONE within 5 s; BOOT_ERROR 9 and a warm reset. -/
  | trialTimerExpiry
  /-- PLL_LOSS_OF_LOCK (R841): A PLL loses lock, causing engine resets of a die or a warm reset. -/
  | pllLossOfLock (pll : Nat)
  /-- TEMPERATURE_WARN (R952): Die temperature reaches 95 C, writing a THERMAL record and driving THERM_ALERT_N. -/
  | temperatureWarn (die reading : Nat)
  /-- TEMPERATURE_CRITICAL (R952): Die temperature reaches 105 C, writing an UNCORRECTED THERMAL record. -/
  | temperatureCritical (die reading : Nat)
  /-- THERMAL_TRIP (R952): Die temperature reaches 115 C, driving THERMTRIP_N and holding all but VSTBY in reset. -/
  | thermalTrip (die reading : Nat)
  /-- VR_FAULT (R954): VR_FAULT_N low writes a FATAL THERMAL record naming the regulator. -/
  | vrFault (regulator : Nat)
  /-- STROKE_BOUNDARY (R92): The stroke count increases and every mark at or before the new stroke is taken in order. -/
  | strokeBoundary (now : Nat)
  /-- MARK_RELEASE (R94): A taken mark's stored command enters its delivery ring, one release per 250 ns. -/
  | markRelease (faults : List LineFault)
  /-- NOT_BEFORE_DUE (R79): A command held for its not-before stroke begins execution. -/
  | notBeforeDue (ring : Nat)
  /-- LOCKSTEP_WAIT_EXPIRY (R81): A LOCKSTEP command still waiting 1,000 strokes after becoming due completes with ADRIFT. -/
  | lockstepWaitExpiry (ring : Nat)
  /-- SYNC (R795): A PTP Sync message is received and timestamped, or ignored when not two-step. -/
  | sync (port master seq received : Nat) (twoStep : Bool)
  /-- FOLLOW_UP (R66): A PTP Follow_Up completes a reference update that disciplines the local time counter. -/
  | followUp (port master seq now : Nat) (offset : Int)
  /-- ANNOUNCE (R794): A PTP Announce message feeds the best master clock algorithm. -/
  | announce (port domain : Nat) (master : PtpMaster)
  /-- DELAY_RESP (R794): A PTP Delay_Resp gives the path delay measurement. -/
  | delayResp (port master seq : Nat) (delay : Int)
  /-- DELAY_REQ (R794): The device sends a Delay_Req at the master's logMinDelayReqInterval. -/
  | delayReq (now : Nat)
  /-- PPS_PULSE (R63): A STROKE_PPS edge is a reference update and takes the TAI second from CAD.PPS_SECONDS. -/
  | ppsPulse (now : Nat) (offset : Int) (early : Bool)
  /-- REFERENCE_LOST (R67): No valid reference update arrives in time, or the 10 MHz reference is absent for 10 us. -/
  | referenceLost (now : Nat) (ref10 : Bool)
  /-- ESTIMATE_EXCEEDS_TOLERANCE (R71): The growing holdover error estimate exceeds TOLERANCE_NS and the cadence enters ADRIFT. -/
  | estimateExceedsTolerance (now : Nat)
  /-- COMMAND_FETCH (R190): The device fetches a command from a ring with work by class round and checks its header. -/
  | commandFetch (data : HostRead)
  /-- COMPLETION_POST (R161): A completion is written into a released entry in ring order, with MSI-X when NOTIFY is set. -/
  | completionPost (ring : Nat) (failed : Bool) (latency : Nat)
  /-- PCIE_COMPLETION_TIMEOUT (R765): A device read times out and delivers no data, halting a ring fetch or failing its command. -/
  | pcieCompletionTimeout (ring : Option Nat)
  /-- YIELD_RESUME (R210): An operation yielded to an urgent command resumes automatically once that command completes. -/
  | yieldResume
  /-- DRAIN_TIMEOUT (R136): A shift's DRAIN_US elapses and its departing launches and operations are killed or stopped. -/
  | drainTimeout
  /-- SHIFT_CLEAR_END (R140): Departing resources are cleared, ownership is assigned and the sector command completes. -/
  | shiftClearEnd
  /-- POWER_DRAIN_END (R835): Requests that passed a closed gate have drained and the resource gates its clock or power. -/
  | powerDrainEnd (kind index : Nat)
  /-- POWER_UP_COMPLETE (R838): A resource regains clock or power, leaves engine reset and opens its gate. -/
  | powerUpComplete (kind index : Nat)
  /-- PAGE_MOVE_END (R275): The tier mover finishes copying a page and switches its leaf entry. -/
  | pageMoveEnd (tagFail : Bool) (poisonLines : List Nat) (faults : List LineFault)
  /-- GROUP_PLACEMENT (R615): A crew group is placed on a scull with room, zeroed and given its start registers. -/
  | groupPlacement (sector : Nat)
  /-- LAUNCH_TIMEOUT (R613): A launch's TIMEOUT_MS passes and its context is killed with cause TIMEOUT. -/
  | launchTimeout (age : Nat)
  /-- KILL_COMPLETE (R642): A context kill completes, frees its groups, writes a record and completes its launches with CONTEXT_KILLED. -/
  | killComplete (ctx : Nat)
  /-- MEMORY_ACCESS_RETURN (R683): A crew's global load, atomic or line add returns, writing its destination or raising a fault. -/
  | memoryAccessReturn (crew : Nat)
  /-- DESCRIPTOR_COMPLETE (R689): A matrix descriptor completes and clears its completion token. -/
  | descriptorComplete (scull elapsed : Nat) (faults : List LineFault)
  /-- CREW_NOP (R659): Crew instruction with no effect. -/
  | crewNop (crew : Nat)
  /-- BRA (R661): Relative branch on the instruction predicate or on any or every thread's predicate. -/
  | bra (crew : Nat)
  /-- JMP (R659): Jump to the address in an s register. -/
  | jmp (crew : Nat)
  /-- CALL (R659): Saves the return PC and branches. -/
  | call (crew : Nat)
  /-- EXIT (R691): The crew ends; the launch completes when its last crew and descriptors end. -/
  | exit (crew elapsed : Nat)
  /-- BAR (R639): Group barrier with a GROUP fence. -/
  | bar (crew : Nat)
  /-- FENCE (R638): Memory fence of scope GROUP, PACKAGE or SYSTEM. -/
  | fence (crew : Nat)
  /-- MISSUE (R633): Issues the cox lane's matrix descriptor to the matrix queue bound to a token. -/
  | missue (crew : Nat)
  /-- MWAIT (R689): Waits until the named completion tokens are clear. -/
  | mwait (crew : Nat)
  /-- SREAD (R655): Copies a special register into an s register. -/
  | sread (crew cycle : Nat)
  /-- TPUSH (R692): Pushes a scalar word to a wake queue. -/
  | tpush (crew : Nat)
  /-- TPUSHV (R692): Pushes a v register of each true thread to a wake queue. -/
  | tpushv (crew : Nat)
  /-- VOTE (R659): Collects a predicate of every thread into an s register. -/
  | vote (crew : Nat)
  /-- SHFL (R659): Reads a v register of another thread. -/
  | shfl (crew : Nat)
  /-- IADD (R659): 32-bit add, also in its immediate form. -/
  | iadd (crew : Nat)
  /-- ISUB (R659): 32-bit subtract, also in its immediate form. -/
  | isub (crew : Nat)
  /-- IMUL (R659): Low 32 bits of a product, also in its immediate form. -/
  | imul (crew : Nat)
  /-- IMULHI (R659): High 32 bits of a product, also in its immediate form. -/
  | imulhi (crew : Nat)
  /-- IMAD (R659): 32-bit multiply-add. -/
  | imad (crew : Nat)
  /-- AND (R659): Bitwise AND, also in its immediate form. -/
  | and (crew : Nat)
  /-- OR (R659): Bitwise OR, also in its immediate form. -/
  | or (crew : Nat)
  /-- XOR (R659): Bitwise XOR, also in its immediate form. -/
  | xor (crew : Nat)
  /-- SHL (R659): Left shift, also in its immediate form. -/
  | shl (crew : Nat)
  /-- SHR (R659): Logical or arithmetic right shift, also in its immediate form. -/
  | shr (crew : Nat)
  /-- MIN (R659): Smaller of two integers, also in its immediate form. -/
  | min (crew : Nat)
  /-- MAX (R659): Larger of two integers, also in its immediate form. -/
  | max (crew : Nat)
  /-- SEL (R659): Selects one of two operands by a predicate. -/
  | sel (crew : Nat)
  /-- POPC (R659): Counts one bits. -/
  | popc (crew : Nat)
  /-- CLZ (R659): Counts leading zeros. -/
  | clz (crew : Nat)
  /-- MOV (R662): Moves a register or immediate into a v register. -/
  | mov (crew : Nat)
  /-- IADD64 (R659): 64-bit add of register pairs. -/
  | iadd64 (crew : Nat)
  /-- IADDC (R659): 32-bit add with carry through a predicate. -/
  | iaddc (crew : Nat)
  /-- MODMUL (R672): Montgomery modular multiply of pairs. -/
  | modmul (crew : Nat)
  /-- MODADD (R672): Modular add of pairs. -/
  | modadd (crew : Nat)
  /-- MODSUB (R672): Modular subtract of pairs. -/
  | modsub (crew : Nat)
  /-- IMADW (R659): 32 x 32 multiply added to a 64-bit pair. -/
  | imadw (crew : Nat)
  /-- FADD (R663): Binary32 add. -/
  | fadd (crew : Nat)
  /-- FSUB (R663): Binary32 subtract. -/
  | fsub (crew : Nat)
  /-- FMUL (R663): Binary32 multiply. -/
  | fmul (crew : Nat)
  /-- FFMA (R663): Binary32 fused multiply-add. -/
  | ffma (crew : Nat)
  /-- FMIN (R664): Binary32 minimum with NaN rules. -/
  | fmin (crew : Nat)
  /-- FMAX (R664): Binary32 maximum with NaN rules. -/
  | fmax (crew : Nat)
  /-- FFUNC (R665): Correctly rounded reciprocal, square root, reciprocal square root, exp2 or log2. -/
  | ffunc (crew : Nat)
  /-- HADD2 (R666): Two-lane 16-bit float add. -/
  | hadd2 (crew : Nat)
  /-- HMUL2 (R666): Two-lane 16-bit float multiply. -/
  | hmul2 (crew : Nat)
  /-- HFMA2 (R666): Two-lane 16-bit float fused multiply-add. -/
  | hfma2 (crew : Nat)
  /-- CVT (R667): Converts between integer and float types. -/
  | cvt (crew : Nat)
  /-- F8PACK (R670): Rounds two binary32 values into two FP8 bytes of the destination. -/
  | f8pack (crew : Nat)
  /-- F8UNPACK (R671): Reads one FP8 byte as binary32. -/
  | f8unpack (crew : Nat)
  /-- ISETP (R659): Integer compare into a predicate. -/
  | isetp (crew : Nat)
  /-- FSETP (R668): Binary32 compare into a predicate. -/
  | fsetp (crew : Nat)
  /-- PLOP (R659): Logical operation on predicates. -/
  | plop (crew : Nat)
  /-- LD (R675): Issues a global load by virtual address. -/
  | ld (crew : Nat) (faults : List LineFault)
  /-- ST (R677): Global store gathered per line into full-line or masked writes. -/
  | st (crew : Nat) (faults : List LineFault)
  /-- ATOM (R679): Global atomic performed thread by thread. -/
  | atom (crew : Nat) (faults : List LineFault)
  /-- LADD (R680): Line add by groups of 16 threads. -/
  | ladd (crew : Nat) (faults : List LineFault)
  /-- LLD (R628): Local-memory load in bank passes. -/
  | lld (crew : Nat)
  /-- LST (R677): Local-memory store in bank passes. -/
  | lst (crew : Nat)
  /-- LATOM (R679): Local-memory atomic. -/
  | latom (crew : Nat)
  /-- SADD (R659): 64-bit scalar add. -/
  | sadd (crew : Nat)
  /-- SSUB (R659): 64-bit scalar subtract. -/
  | ssub (crew : Nat)
  /-- SMUL (R659): 64-bit scalar multiply, low half. -/
  | smul (crew : Nat)
  /-- SAND (R659): 64-bit scalar AND. -/
  | sand (crew : Nat)
  /-- SOR (R659): 64-bit scalar OR. -/
  | sor (crew : Nat)
  /-- SXOR (R659): 64-bit scalar XOR. -/
  | sxor (crew : Nat)
  /-- SSHL (R659): 64-bit scalar left shift. -/
  | sshl (crew : Nat)
  /-- SSHR (R659): 64-bit scalar right shift. -/
  | sshr (crew : Nat)
  /-- SMOVI (R659): Sign-extended immediate into an s register. -/
  | smovi (crew : Nat)
  /-- SSETHI (R659): Sets the upper half of an s register. -/
  | ssethi (crew : Nat)
  /-- S2V (R659): Copies half of an s register into each thread's v register. -/
  | s2v (crew : Nat)
  /-- V2S (R659): Copies one thread's v register into an s register. -/
  | v2s (crew : Nat)
  /-- SADDI (R659): Adds a sign-extended immediate to an s register. -/
  | saddi (crew : Nat)
  /-- STEP_BOUNDARY (R473): A lattice operation reaches a step boundary where a pending stop, suspend, spill or yield takes effect. -/
  | stepBoundary (engine stall : Nat)
  /-- LAT_OPERATION_END (R484): A lattice operation finishes its last step and completes with its cycle counts. -/
  | latOperationEnd (engine stall : Nat) (faults : List LineFault)
  /-- RAW_BLOCK_COMPLETE (R402): 1,024 raw bits of an annulus form a block that is conditioned into a seed in probation. -/
  | rawBlockComplete (annulus : Nat)
  /-- ALIVE_WINDOW_CLOSE (R407): An alive window of 4,096 HUB cycles closes and its edge counts are tested. -/
  | aliveWindowClose (edges : List (Nat × Nat))
  /-- LOCK_BLOCK_CLOSE (R407): A lock block of 1,024 alive windows closes and the lock test is judged. -/
  | lockBlockClose
  /-- SEED_LEAVES_PROBATION (R403): A seed whose health windows closed clean enters the seed queue. -/
  | seedLeavesProbation (katPass : Bool)
  /-- SEED_TO_WAITING_INSTANCE (R424): A seed is given to the head of the wait list and that instance is reseeded. -/
  | seedToWaitingInstance
  /-- ENROL (R312): Heat message enrolling an entrant and deriving its K_ed. -/
  | enrol (qp : Nat) (faults : List LineFault)
  /-- ROSTER_GET (R332): Heat fetch returning the graph seed and the entrant's neighbours. -/
  | rosterGet (qp : Nat) (faults : List LineFault)
  /-- SHARE (R325): Heat message carrying the entrant's share ciphertexts. -/
  | share (qp : Nat) (faults : List LineFault)
  /-- INBOX_GET (R332): Heat fetch returning the share ciphertexts addressed to the entrant. -/
  | inboxGet (qp : Nat) (faults : List LineFault)
  /-- SUBMIT (R327): Heat message carrying one fragment of a masked vector. -/
  | submit (qp : Nat) (faults : List LineFault)
  /-- CONFIRM (R332): Heat message confirming survival and returning the status list. -/
  | confirm (qp : Nat) (faults : List LineFault)
  /-- REVEAL (R329): Heat message revealing shares of neighbours' secrets. -/
  | reveal (qp : Nat) (faults : List LineFault)
  /-- TALLY (R338): Heat message carrying one RLWE ciphertext block in tally mode. -/
  | tally (qp : Nat) (faults : List LineFault)
  /-- HELD_REPLY (R348): A held fetch or CONFIRM is answered once its reply data is assembled. -/
  | heldReply (qp : Nat) (faults : List LineFault)
  /-- VECTOR_COMMIT (R377): All local line adds of a vector complete and its commit is sent on the mirror stream. -/
  | vectorCommit (slot : Nat)
  /-- TAINT (R383): A line operation on a heat slot region is answered POISONED or INTEGRITY_FAIL and the slot becomes TAINTED. -/
  | taint (slot addr : Nat) (faults : List LineFault)
  /-- TAINT_RECOVERY (R384): The poisoned region is restored and staged vectors from h_min are added again. -/
  | taintRecovery (slot : Nat) (lines : List (Nat × List Byte)) (image : SlotImage)
  /-- EXCHANGE_TIMEOUT (R355): A home's report has not reached the lead in EXCHANGE_STROKES and the heat fails. -/
  | exchangeTimeout (slot : Nat)
  /-- DATA (R557): A DATA flit is accepted in order, discarded, or answered by one NAK. -/
  | data (link : Nat) (flit : List Byte)
  /-- NAK (R558): A NAK flit makes the sender resend from the named sequence number. -/
  | nak (link : Nat) (flit : List Byte)
  /-- IDLE (R559): An IDLE flit returns credits and acknowledgements. -/
  | idle (link : Nat) (flit : List Byte)
  /-- HEARTBEAT (R599): A pair-link HEARTBEAT flit from the twin is received. -/
  | heartbeat (link : Nat) (flit : List Byte)
  /-- IDENT (R562): An IDENT flit is checked and the link enters UP or returns DOWN. -/
  | ident (link : Nat) (peer : IdentInfo)
  /-- LANE_LOCK_LOSS (R563): A data lane loses lock, or 16 NAKs name one sequence, and the link enters RETRAIN. -/
  | laneLockLoss (link lane : Nat)
  /-- FEC_ERROR_BURST (R563): More than 1,000 uncorrectable codewords in 1 ms put the link in RETRAIN. -/
  | fecErrorBurst (link lane : Nat)
  /-- RETRAIN_TIMEOUT (R564): A retrain does not reach UP within RETRAIN_MS and the link goes DOWN. -/
  | retrainTimeout (link : Nat)
  /-- WRITE (R572): Chord packet writing remote memory through an access window. -/
  | write (link : Nat)
  /-- READ_REQ (R572): Chord packet requesting a read of remote memory. -/
  | readReq (link : Nat) (faults : List LineFault)
  /-- READ_RESP (R568): Chord packet returning read data. -/
  | readResp (link : Nat)
  /-- ACCUM (R585): Chord packet adding its elements into destination memory, or a heat tree chunk. -/
  | accum (link : Nat) (faults : List LineFault)
  /-- FOLD (R589): Chord fold chunk that is added to the local contribution and forwarded or written. -/
  | fold (link : Nat) (poison : List Nat) (faults : List LineFault)
  /-- ACK (R584): Chord packet acknowledging an applied chunk. -/
  | ack (link : Nat)
  /-- REFUSE (R587): Chord packet refusing a chunk with a status. -/
  | refuse (link : Nat)
  /-- SYSTEM (R571): Chord system packet handed to its consumer: heat reports, verdicts, mirror items, substitutions. -/
  | system (link : Nat) (msg : SysMsg) (faults : List LineFault)
  /-- FOLD_RETRY (R590): A fold chunk refused RETRY_BUSY is sent again after 10 us. -/
  | foldRetry (slot : Nat)
  /-- FOLD_WAIT_EXPIRY (R590): FOLD_WAIT_US passes and the fold completes with DEADLINE_PASSED. -/
  | foldWaitExpiry (slot : Nat)
  /-- DEDUP_EXPIRY (R586): DEDUP_MS after a stream's last chunk its applied-chunk bitmap is dropped. -/
  | dedupExpiry (pkg stream : Nat) (fold : Bool)
  /-- SEND (R540): Inbound RoCE SEND or SEND with immediate placed into a posted receive. -/
  | send (pkt : RocePacket) (now : Nat) (faults : List LineFault)
  /-- RDMA_WRITE (R539): Inbound RDMA WRITE, with or without immediate, checked and applied. -/
  | rdmaWrite (pkt : RocePacket) (now : Nat) (faults : List LineFault)
  /-- RDMA_READ (R536): Inbound RDMA READ executed and answered. -/
  | rdmaRead (pkt : RocePacket) (now : Nat) (host : HostRead) (faults : List LineFault)
  /-- FETCH_ADD (R537): Inbound 64-bit fetch-and-add, replayed from cache when duplicate. -/
  | fetchAdd (pkt : RocePacket) (now : Nat) (faults : List LineFault)
  /-- CMP_SWAP (R537): Inbound 64-bit compare-and-swap, replayed from cache when duplicate. -/
  | cmpSwap (pkt : RocePacket) (now : Nat) (faults : List LineFault)
  /-- ACKNOWLEDGEMENT (R522): An RC acknowledgement completes posts up to its PSN. -/
  | acknowledgement (pkt : RocePacket) (now : Nat)
  /-- READ_RESPONSE (R522): RDMA READ response data placed and the post completed. -/
  | readResponse (pkt : RocePacket) (now : Nat) (faults : List LineFault)
  /-- ATOMIC_RESPONSE (R523): Atomic response returning the original value completes the post. -/
  | atomicResponse (pkt : RocePacket) (now : Nat) (faults : List LineFault)
  /-- ROCE_NAK (R533): A NAK sequence error, invalid request, access or operational error reaches the requester. -/
  | roceNak (pkt : RocePacket) (now : Nat)
  /-- RNR_NAK (R533): A receiver-not-ready NAK makes the requester retry later. -/
  | rnrNak (pkt : RocePacket) (now : Nat)
  /-- CNP (R545): A received CNP makes its QP cut its rate gear. -/
  | cnp (pkt : RocePacket) (now : Nat)
  /-- ACK_TIMEOUT (R533): Acknowledgement timer expires; retransmit go-back-N and cut rate, or enter ERROR. -/
  | ackTimeout (qpn now : Nat)
  /-- RNR_TIMER (R533): The RNR timer expires and the requester resends the refused PSN. -/
  | rnrTimer (qpn : Nat)
  /-- RISE_PERIOD (R546): A RISE_US period without a cut lowers a QP's gear. -/
  | risePeriod (qpn now : Nat)
  /-- PFC_FRAME (R790): A received PFC frame pauses or resumes sending of classes. -/
  | pfcFrame (port sub classes times : Nat)
  /-- PFC_REFRESH (R788): XOFF is refreshed every 64 us while a lossless class stays above XON. -/
  | pfcRefresh (port sub cls : Nat)
  /-- OTHER_FRAME (R786): A frame that is neither RoCE nor PTP is dropped and counted. -/
  | otherFrame (port sub : Nat) (accepted : Bool) (cls bytes : Nat)
  /-- SUBPORT_LINK_UP (R782): An Ethernet sub-port finishes training and comes up. -/
  | subportLinkUp (port sub : Nat)
  /-- SUBPORT_LINK_DOWN (R783): An Ethernet sub-port goes down, holding its queued packets. -/
  | subportLinkDown (port sub : Nat)
  /-- CXL_PORT_OFFLINE (R778): A CXL port's link goes down or its expander reports a fatal error and it becomes OFFLINE. -/
  | cxlPortOffline (port : Nat) (fatal : Bool)
  /-- CXL_MEM_TIMEOUT (R778): A CXL.mem request times out after 10 ms; three in a row take the port OFFLINE. -/
  | cxlMemTimeout (port : Nat)
  /-- GET_VERSION (R720): SPDM request for supported versions. -/
  | getVersion (path : Nat) (req : List Byte)
  /-- GET_CAPABILITIES (R720): SPDM request for capabilities. -/
  | getCapabilities (path : Nat) (req : List Byte)
  /-- NEGOTIATE_ALGORITHMS (R720): SPDM algorithm negotiation. -/
  | negotiateAlgorithms (path : Nat) (req : List Byte)
  /-- GET_DIGESTS (R720): SPDM request for certificate digests. -/
  | getDigests (path : Nat) (req : List Byte)
  /-- GET_CERTIFICATE (R720): SPDM request for the ECDSA certificate chain. -/
  | getCertificate (path : Nat) (req : List Byte)
  /-- CHALLENGE (R720): SPDM challenge signed with the Alias key. -/
  | challenge (path : Nat) (req : List Byte)
  /-- GET_MEASUREMENTS (R721): SPDM request returning loader, firmware and configuration measurements. -/
  | getMeasurements (path : Nat) (req : List Byte)
  /-- KEY_EXCHANGE (R723): SPDM key exchange opening the sector's one session. -/
  | keyExchange (path : Nat) (req : List Byte)
  /-- FINISH (R720): SPDM FINISH completing the session handshake. -/
  | finish (path : Nat) (req : List Byte)
  /-- SPDM_HEARTBEAT (R720): SPDM HEARTBEAT within a session. -/
  | spdmHeartbeat (path : Nat) (req : List Byte)
  /-- KEY_UPDATE (R720): SPDM KEY_UPDATE within a session. -/
  | keyUpdate (path : Nat) (req : List Byte)
  /-- END_SESSION (R724): Ends a session, destroying record keys and bounce windows. -/
  | endSession (path : Nat) (req : List Byte)
  /-- CHUNK_SEND (R720): SPDM chunked request transfer. -/
  | chunkSend (path : Nat) (req : List Byte) (data : HostRead)
  /-- CHUNK_GET (R720): SPDM chunked response transfer. -/
  | chunkGet (path : Nat) (req : List Byte)
  /-- KEM_KEY_GET (R725): Vendor message returning a fresh signed ML-KEM-768 key. -/
  | kemKeyGet (path : Nat) (req : List Byte)
  /-- KEM_CIPHER (R727): Vendor message decapsulating to derive the sector's record keys. -/
  | kemCipher (path : Nat) (req : List Byte)
  /-- VD_COMMAND (R728): Vendor message carrying a class 0x0A command for the session's sector. -/
  | vdCommand (path : Nat) (req : List Byte) (data : HostRead)
  /-- MLDSA_CERT_GET (R724): Vendor message returning bytes of the ML-DSA chain. -/
  | mldsaCertGet (path : Nat) (req : List Byte)
  /-- IDE_KM (R772): Vendor-defined IDE key management message setting up PCIe IDE keys. -/
  | ideKm (path : Nat) (req : List Byte)
  /-- PERF_SAMPLE (R928): At a stroke multiple of PERIOD a PERF queue writes one sample per selected source. -/
  | perfSample (queue : Nat) (counts : List Nat)
  /-- TARGETED_SELF_TEST_START (R855): The self-test engine starts a queued targeted test, first firing the resource's injection points. -/
  | targetedSelfTestStart (dead : Bool)
  /-- TARGETED_SELF_TEST_END (R857): A targeted test classifies its fault transient or persistent and writes a FOLLOW_UP record. -/
  | targetedSelfTestEnd (res : Res) (failed : Bool)
  /-- RETIREMENT_LIST_WRITE (R863): Within 1 s a retirement is added to the list in boot flash. -/
  | retirementListWrite
  /-- INJECTION_EXPIRY (R870): An armed injection slot disarms when its EXPIRE stroke passes. -/
  | injectionExpiry
  /-- MGT_CORE_STOP (R845): A management core stops on a memory error; its commands fail and it is restarted. -/
  | mgtCoreStop (core : Nat) (commands : List Nat)
  /-- PAIR_HEARTBEAT (R882): An Ethernet heartbeat UD SEND from the twin is received. -/
  | pairHeartbeat (pkt : RocePacket) (now : Nat)
  /-- MISS_LIMIT_REACHED (R886): Heartbeat miss counts reach MISS_LIMIT; the pair becomes SUSPECT or stops its slots and fences. -/
  | missLimitReached
  /-- PAIR_FENCE_CONF (R887): Fence confirmation from the twin's tray lets a FENCING package take over. -/
  | pairFenceConf (asserted : Bool)
  /-- GRACE_EXPIRY (R887): The Ethernet miss count reaches MISS_LIMIT + GRACE and a FENCING package takes over. -/
  | graceExpiry
  /-- FORM_WAIT_EXPIRY (R878): FORM_WAIT_MS passes before pairing and PAIR_FORM completes with DEADLINE_PASSED. -/
  | formWaitExpiry
  /-- PLL_RELOCK (R841): A die's SCL or LAT PLL locks again and its eights or lattice engines are released from engine reset. -/
  | pllRelock (pll : Nat)
  /-- TEMPERATURE_WARN_CLEAR (R952): The highest die reading falls below 90 C and THERM_ALERT_N is released. -/
  | temperatureWarnClear
  /-- STANDBY_POWER_LOSS (R744): VSTBY is lost, clearing SEAL.STATUS.RETAIN and releasing THERMTRIP_N. -/
  | standbyPowerLoss
  /-- STANDBY_POWER_UP (R959): VSTBY rises, with TRAY_READY low and the control I/O powered. -/
  | standbyPowerUp
  /-- PERST_DEASSERT (R770): PERST# deasserts and the host link trains again while configuration requests get Request Retry Status until TOP is readable. -/
  | perstDeassert
  /-- HOST_LINK_UP (R749): The PCIe host link finishes training at its negotiated rate and width. -/
  | hostLinkUp (speed width : Nat) (flit : Bool)
  /-- CONFIGURATION_REQUEST (R770): A host configuration read or write, such as setting VF Enable, masking MSI-X or sizing a BAR, answered normally or with Request Retry Status. -/
  | configurationRequest (fn : Fn) (req : ConfigReq)
  /-- REF_10M_RETURN (R67): The 10 MHz reference returns and CAD.STATUS.REF10_PRESENT is set. -/
  | ref10mReturn
  /-- ORIGIN_REACHED (R57): Local time reaches the cadence origin, PRE_ORIGIN clears and stroke 0 begins. -/
  | originReached (now : Nat)
  /-- ERR_LAST0_READ (R946): A physical-function read of ERR.LAST0 releases SMB_ALERT_N. -/
  | errLast0Read (fn : Fn) (size : Nat)
  /-- REFUSED_REGISTER_READ (R123): A virtual-function register read refused by the ingress filter returns the block's refusal value, writes a FILTER record and counts PCI.FILTERED. -/
  | refusedRegisterRead (fn : Fn) (off size : Nat)
  /-- LINK_TRAINING_COMPLETE (R602): Equalisation and lane BIST of a chord link end and it reaches FEC lock and enters IDENT, or a BIST completes. -/
  | linkTrainingComplete (link failed : Nat)
  /-- ANNULUS_STROBE (R398): A strobe edge latches a raw bit of each annulus, feeding the repetition and proportion tests, the raw block and any capture. -/
  | annulusStrobe (a b lost : Nat)
  /-- TIER_MOVER_FILL_END (R281): The tier mover finishes a MEM_ZERO or FAR_ASSIGN fill, or reaches a 64 KiB boundary where it is held. -/
  | tierMoverFillEnd
  /-- MASK_EXPANSION_CHUNK_END (R362): A mask expander finishes summing keystreams for a 64 KiB chunk and issues its line adds to the mask accumulator. -/
  | maskExpansionChunkEnd (slot expander : Nat) (fault : Bool) (faults : List LineFault)
  /-- NOISE_DRAW_COMPLETE (R370): The noise sampler finishes drawing every sample into the noise buffer, after which the noise is added. -/
  | noiseDrawComplete (slot : Nat)
  /-- EXPANDER_ERROR_EVENT (R777): A CXL expander reports a memory error event that Coxswain firmware reads and writes as an error record. -/
  | expanderErrorEvent (port : Nat) (event detail : Nat)
  /-- JTAG_ACCESS (R707): An instruction shifted into the JTAG port, answered in full unsealed and only as IDCODE or BYPASS sealed. -/
  | jtagAccess (ir : JtagIr) (dr : Nat)
  /-- PFC_XON (R788): A lossless class drains to XON_KIB or less and the device sends XON with pause time 0. -/
  | pfcXon (port sub cls : Nat)
  deriving DecidableEq, Repr

end Sys2Proof
end

