-- ==== Sys2Proof/Config.lean ====
section
/-! DEFINITION. What the manual leaves open or names only by a standard, as constants without a body: free values, the
unpublished mapping of HBM banks and rows, and the cryptographic primitives. A claim is true whatever they are. -/
namespace Sys2Proof.Config

/-- A free value: the n-th value that the manual leaves open (log entry 2). -/
opaque freeNat : Nat → Nat

/-- Bank and row of a near-tier line within its channel: fixed in the part, not published (05 R976). -/
opaque hbmBank : Nat → Nat
opaque hbmRow : Nat → Nat

/-- AES-256: one block under a 32-byte key (FIPS 197). -/
opaque aes256 : List Byte → List Byte → List Byte

/-- AES-256-GCM: ciphertext ‖ tag of a plaintext under key, nonce and associated data (NIST SP 800-38D). -/
opaque gcmSeal : List Byte → List Byte → List Byte → List Byte → List Byte

/-- AES-256-GCM: the plaintext of ciphertext ‖ tag, or none when the tag fails. -/
opaque gcmOpen : List Byte → List Byte → List Byte → List Byte → Option (List Byte)

/-- AES-256-GCM with the tag cut to its first 8 bytes (14 R739). -/
opaque gcmOpenShort : List Byte → List Byte → List Byte → List Byte → Option (List Byte)

/-- AES-256-CMAC (NIST SP 800-38B) as a 128-bit number. -/
opaque cmac : List Byte → List Byte → Nat

/-- SHA-256 and SHA-384 (FIPS 180-4). -/
opaque sha256 : List Byte → List Byte
opaque sha384 : List Byte → List Byte

/-- X25519 of a scalar and a u-coordinate (RFC 7748). -/
opaque x25519 : List Byte → List Byte → List Byte

/-- P-384: the public point (97 bytes, SEC1 uncompressed) of a private scalar, the x-coordinate of an exchange, and whether
97 bytes are a point of the curve. -/
opaque p384Public : List Byte → List Byte
opaque p384Ecdh : List Byte → List Byte → List Byte
opaque p384OnCurve : List Byte → Bool

/-- ML-KEM-768 (FIPS 203): encapsulation and decapsulation key of a seed, the check of an encapsulation key, ciphertext and
secret of an encapsulation with given randomness, and the secret of a decapsulation. -/
opaque mlkemKeys : List Byte → List Byte × List Byte
opaque mlkemEkOk : List Byte → Bool
opaque mlkemEncaps : List Byte → List Byte → List Byte × List Byte
opaque mlkemDecaps : List Byte → List Byte → List Byte

/-- ECDSA P-384: whether a signature of a message verifies under a public key; and a signature under a private key with a
per-signature value. -/
opaque ecdsaVerify : List Byte → List Byte → List Byte → Bool
opaque ecdsaSign : List Byte → List Byte → Nat → List Byte

/-- ML-DSA-65 (FIPS 204), likewise. -/
opaque mldsaVerify : List Byte → List Byte → List Byte → Bool
opaque mldsaSign : List Byte → List Byte → Nat → List Byte

/-- The Drumisia firmware keys, ECDSA and ML-DSA, by the SHA-384 that is fused (16 R823). -/
opaque fwKeyEc : Nat → List Byte
opaque fwKeyMl : Nat → List Byte

/-- The certificate chain in DER, ECDSA (false) or ML-DSA (true), for the public keys and the TcbInfo it carries (14 R716). -/
opaque certChain : Bool → List Byte → List Byte

/-- SHA-384 of the Drumisia root certificate, which heads an SPDM certificate chain (14 R716; log entry 64). -/
opaque rootHash : List Byte

/-- The device's JTAG identification code (14 R707 names it, and no file gives it). -/
opaque jtagIdcode : Nat

end Sys2Proof.Config
end

