-- ==== Sys2Proof/Machine/RegTable.lean ====
section
/-! DEFINITION. The register table (21 R961, R962, R964; the field tables of R55, R110, R150, R221, R290, R397, R443, R496,
R551, R601, R650, R748, R797, R842, R875, R904, R932): every register's offset, width, reach and access masks, and the
sparse file that holds the stored fields. -/
namespace Sys2Proof.Machine

/-- The registers of the package, by block and name (21 R964). -/
inductive Reg where
  | topPartId
  | topStepping
  | topCapDies
  | topCapScullMem
  | topCapMatrix
  | topCapLattice
  | topCapNear
  | topCapSram
  | topCapFar
  | topCapNet
  | topCapHeat
  | topCapRandom
  | topCapRdma
  | topCapSystem
  | topPkgSerial
  | topFuseStatus
  | topDieLot
  | topDiePos
  | topAvailEights
  | topAvailSculls
  | topAvailMisc
  | topAvailGen
  | cadStatus
  | cadStroke
  | cadTimeNs
  | cadErrEst
  | cadOrigin
  | cadConfig
  | cadLimits
  | cadLastStepNs
  | cadPpsSeconds
  | cadStateChanges
  | cadMarkExpired
  | cadMarkSkipped
  | cadMarkWithheld
  | cadSlotsUsed
  | cadLogQueue
  | cadMarkQuota
  | cadSlotState
  | cadSlotTarget
  | sctFreeEights
  | sctFreeMisc
  | sctFreeQuotas
  | sctCmdStatus
  | sctHbmOwner
  | sctLakeOwner
  | sctState
  | sctEights
  | sctLattice
  | sctWake
  | sctMemory
  | sctQuotas
  | cmdAdminSqBase
  | cmdAdminCqBase
  | cmdAdminCfg
  | cmdQuiesce
  | cmdRingState
  | cmdRingCount
  | cmdDoorbellDropped
  | cmdUrgentMaxNs
  | cmdUrgentCount
  | cmdDbMirrorSqTail
  | cmdDbMirrorCqHead
  | memStatus
  | memFarCfg
  | memFarCap
  | memDbgBase
  | memScrubCfg
  | memScrubProgress
  | memCeCount
  | memUeCount
  | memTagFailCount
  | memPoisonReads
  | memXlatFaults
  | memFarBase
  | memFarSize
  | memMoverState
  | cxlPortStatus
  | cxlErrors
  | cxlOfflineCause
  | sclKillCount
  | sclLaunchCount
  | sclQueue
  | sclCtxState
  | sclCtxRoot
  | sclScullLoad
  | latEngineState
  | latQueue
  | latOpsDone
  | latPreempts
  | latPaceStalls
  | latModValid
  | latModValidFw
  | latCtxSlots
  | heatConfig
  | heatConfig2
  | heatMsgAccepted
  | heatMsgRefused
  | heatDupCount
  | heatTaintCount
  | heatNoiseWaits
  | heatSlotState
  | heatSlotHeatId
  | heatSlotCounts
  | heatSlotMirror
  | rngStatus
  | rngQueueDepth
  | rngAnnulusState
  | rngConfig
  | rngSeedsMade
  | rngSeedsDiscarded
  | rngHealthFails
  | rngStretched
  | rngStarved
  | rngInternalWaits
  | rngWaitList
  | rngInstUsed
  | rngInstance
  | rdmaRateCfg
  | rdmaDropped
  | rdmaKeyFaults
  | rdmaNakSent
  | rdmaRetransmits
  | rdmaAtomicReplays
  | rdmaAtomicAged
  | rdmaCnpSent
  | rdmaCnpReceived
  | rdmaCacheMisses
  | rdmaTable
  | rdmaMrQuota
  | rdmaUsed
  | chdCfg
  | chdPodMembers
  | chdAclRefused
  | chdHopDrops
  | chdLinkState
  | chdLinkCounts
  | chdTxDecoded
  | chdTxCoded
  | chdRoute
  | chdAclSrc
  | chdAclWin
  | chdFoldSlot
  | ethPortCfg
  | ethPortStatus
  | ethRxDrops
  | ethRxOther
  | ethPfcSent
  | ethPfcReceived
  | ethLinkDowns
  | ethPtpIgnored
  | ethLosslessDrops
  | ethAddrIpHi
  | ethAddrIpLo
  | ethAddrMac
  | ethDscpMap
  | pciLink
  | pciPortResets
  | pciCplTimeouts
  | pciPoisonRx
  | pciFiltered
  | sealStatus
  | sealScrubProgress
  | sealCfg
  | sealRecordFails
  | sealFwSvn
  | sealMboxCtrl
  | sealWindows
  | clkPllStatus
  | clkOverrun
  | clkPllLosses
  | clkLost
  | rstStatus
  | rstCtrl
  | rstSectorReset
  | rstEngineReset
  | rstEngineDiscards
  | rstStraps
  | rstFusedMinSvn
  | rstBootError
  | rstWarmCount
  | rstSlots
  | rstRecoveryAddr
  | rstRecoveryCtrl
  | pwrEightState
  | pwrLeState
  | pwrRefused
  | pwrTransitions
  | errCfg
  | errStatus
  | errSeq
  | errLost
  | errCorrected
  | errUncorrected
  | errFatal
  | errTests
  | errTransient
  | errPersistent
  | errLast
  | errRepairLeft
  | errSpares
  | errSectorLast
  | injArmed
  | injFired
  | injSlot
  | pairStatus
  | pairCfg
  | pairHbMissed
  | pairTakeovers
  | pairFences
  | pairSelfFences
  | wakeData
  | wakeCount
  | wakeLost
  | wakeCfg
  | wakeMisrouted
  deriving DecidableEq, Repr

/-- Which virtual functions read a register (21 R964): all, those of the instance's sector by the named rule, or none. -/
inductive Reach where
  | all
  | sector
  | ring
  | context
  | scull
  | engine
  | slot
  | instanceOf
  | fold
  | mailbox
  | wake
  | physical
  deriving DecidableEq, Repr

/-- One row of the register table: offset in register space, stride and count of its two indices, width in bytes, reach,
whether VF writes are refused, the masks of its RW, W1C, W1S and RC bits, and the reset value of the stored and fixed bits. -/
structure RegInfo where
  off : Nat
  stride : Nat
  count : Nat
  stride2 : Nat
  count2 : Nat
  bytes : Nat
  reach : Reach
  writesP : Bool
  rw : Nat
  w1c : Nat
  w1s : Nat
  rc : Nat
  reset : Nat
  deriving DecidableEq, Repr

/-- The register table (21 R964). -/
def Reg.info : Reg → RegInfo
  | .topPartId => ⟨0, 0, 1, 0, 1, 4, .all, false, 0, 0, 0, 0, 0x50544733⟩
  | .topStepping => ⟨0x4, 0, 1, 0, 1, 4, .all, false, 0, 0, 0, 0, 0x4200⟩
  | .topCapDies => ⟨0x10, 0, 1, 0, 1, 8, .all, false, 0, 0, 0, 0, 0x3073a202082012⟩
  | .topCapScullMem => ⟨0x18, 0, 1, 0, 1, 8, .all, false, 0, 0, 0, 0, 0x4010042001000100⟩
  | .topCapMatrix => ⟨0x20, 0, 1, 0, 1, 8, .all, false, 0, 0, 0, 0, 0x400040008000800⟩
  | .topCapLattice => ⟨0x28, 0, 1, 0, 1, 8, .all, false, 0, 0, 0, 0, 0x4e20a1022c3c2008⟩
  | .topCapNear => ⟨0x30, 0, 1, 0, 1, 8, .all, false, 0, 0, 0, 0, 0x100fa0204008⟩
  | .topCapSram => ⟨0x38, 0, 1, 0, 1, 8, .all, false, 0, 0, 0, 0, 0x2f000300080⟩
  | .topCapFar => ⟨0x40, 0, 1, 0, 1, 8, .all, false, 0, 0, 0, 0, 0x20408002⟩
  | .topCapNet => ⟨0x48, 0, 1, 0, 1, 8, .all, false, 0, 0, 0, 0, 0x110400e08c1908⟩
  | .topCapHeat => ⟨0x50, 0, 1, 0, 1, 8, .all, false, 0, 0, 0, 0, 0x57a00043eb5440⟩
  | .topCapRandom => ⟨0x58, 0, 1, 0, 1, 8, .all, false, 0, 0, 0, 0, 0x1001010001020⟩
  | .topCapRdma => ⟨0x60, 0, 1, 0, 1, 8, .all, false, 0, 0, 0, 0, 0x85190⟩
  | .topCapSystem => ⟨0x68, 0, 1, 0, 1, 8, .all, false, 0, 0, 0, 0, 0x54640401004068⟩
  | .topPkgSerial => ⟨0x100, 0, 1, 0, 1, 8, .physical, false, 0, 0, 0, 0, 0⟩
  | .topFuseStatus => ⟨0x108, 0, 1, 0, 1, 4, .physical, false, 0, 0, 0, 0, 0⟩
  | .topDieLot => ⟨0x110, 0x10, 3, 0, 1, 8, .physical, false, 0, 0, 0, 0, 0⟩
  | .topDiePos => ⟨0x118, 0x10, 3, 0, 1, 8, .physical, false, 0, 0, 0, 0, 0⟩
  | .topAvailEights => ⟨0x200, 0, 1, 0, 1, 8, .physical, false, 0, 0, 0, 0, 0⟩
  | .topAvailSculls => ⟨0x208, 0x8, 4, 0, 1, 8, .physical, false, 0, 0, 0, 0, 0⟩
  | .topAvailMisc => ⟨0x228, 0, 1, 0, 1, 8, .physical, false, 0, 0, 0, 0, 0⟩
  | .topAvailGen => ⟨0x230, 0, 1, 0, 1, 4, .physical, false, 0, 0, 0, 0, 0⟩
  | .cadStatus => ⟨0x100000, 0, 1, 0, 1, 4, .all, true, 0, 0x20, 0, 0, 0⟩
  | .cadStroke => ⟨0x100008, 0, 1, 0, 1, 8, .all, true, 0, 0, 0, 0, 0⟩
  | .cadTimeNs => ⟨0x100010, 0, 1, 0, 1, 8, .all, true, 0, 0, 0, 0, 0⟩
  | .cadErrEst => ⟨0x100018, 0, 1, 0, 1, 4, .all, true, 0, 0, 0, 0, 0⟩
  | .cadOrigin => ⟨0x100020, 0, 1, 0, 1, 8, .all, true, 0, 0, 0, 0, 0⟩
  | .cadConfig => ⟨0x100028, 0, 1, 0, 1, 8, .all, true, 0, 0, 0, 0, 0⟩
  | .cadLimits => ⟨0x100030, 0, 1, 0, 1, 8, .all, true, 0, 0, 0, 0, 0⟩
  | .cadLastStepNs => ⟨0x100038, 0, 1, 0, 1, 8, .all, true, 0, 0, 0, 0, 0⟩
  | .cadPpsSeconds => ⟨0x100040, 0, 1, 0, 1, 8, .all, true, 0xffffffffffffffff, 0, 0, 0, 0⟩
  | .cadStateChanges => ⟨0x100048, 0, 1, 0, 1, 4, .all, true, 0, 0, 0, 0xffffffff, 0⟩
  | .cadMarkExpired => ⟨0x10004c, 0, 1, 0, 1, 4, .all, true, 0, 0, 0, 0xffffffff, 0⟩
  | .cadMarkSkipped => ⟨0x100050, 0, 1, 0, 1, 4, .all, true, 0, 0, 0, 0xffffffff, 0⟩
  | .cadMarkWithheld => ⟨0x100054, 0, 1, 0, 1, 4, .all, true, 0, 0, 0, 0, 0⟩
  | .cadSlotsUsed => ⟨0x100058, 0, 1, 0, 1, 4, .all, true, 0, 0, 0, 0, 0⟩
  | .cadLogQueue => ⟨0x10005c, 0, 1, 0, 1, 4, .all, true, 0x3f, 0, 0, 0, 0⟩
  | .cadMarkQuota => ⟨0x100060, 0x4, 8, 0, 1, 4, .all, true, 0xff, 0, 0, 0, 0x1e⟩
  | .cadSlotState => ⟨0x100100, 0x8, 256, 0, 1, 8, .all, true, 0, 0, 0, 0, 0⟩
  | .cadSlotTarget => ⟨0x100900, 0x8, 256, 0, 1, 8, .all, true, 0, 0, 0, 0, 0⟩
  | .sctFreeEights => ⟨0x200000, 0, 1, 0, 1, 8, .physical, false, 0, 0, 0, 0, 0⟩
  | .sctFreeMisc => ⟨0x200008, 0, 1, 0, 1, 8, .physical, false, 0, 0, 0, 0, 0⟩
  | .sctFreeQuotas => ⟨0x200010, 0, 1, 0, 1, 8, .physical, false, 0, 0, 0, 0, 0⟩
  | .sctCmdStatus => ⟨0x200018, 0, 1, 0, 1, 8, .physical, false, 0, 0, 0, 0, 0⟩
  | .sctHbmOwner => ⟨0x200100, 0x8, 32, 0, 1, 8, .physical, false, 0, 0, 0, 0, 0⟩
  | .sctLakeOwner => ⟨0x200200, 0x8, 8, 0, 1, 8, .physical, false, 0, 0, 0, 0, 0⟩
  | .sctState => ⟨0x201000, 0x100, 8, 0, 1, 8, .sector, false, 0, 0, 0, 0, 0⟩
  | .sctEights => ⟨0x201008, 0x100, 8, 0, 1, 8, .sector, false, 0, 0, 0, 0, 0⟩
  | .sctLattice => ⟨0x201010, 0x100, 8, 0, 1, 8, .sector, false, 0, 0, 0, 0, 0⟩
  | .sctWake => ⟨0x201018, 0x100, 8, 0, 1, 8, .sector, false, 0, 0, 0, 0, 0⟩
  | .sctMemory => ⟨0x201020, 0x100, 8, 0, 1, 8, .sector, false, 0, 0, 0, 0, 0⟩
  | .sctQuotas => ⟨0x201028, 0x100, 8, 0, 1, 8, .sector, false, 0, 0, 0, 0, 0⟩
  | .cmdAdminSqBase => ⟨0x300000, 0x40, 8, 0, 1, 8, .sector, false, 0xfffffffffffff000, 0, 0, 0, 0⟩
  | .cmdAdminCqBase => ⟨0x300008, 0x40, 8, 0, 1, 8, .sector, false, 0xfffffffffffff000, 0, 0, 0, 0⟩
  | .cmdAdminCfg => ⟨0x300010, 0x40, 8, 0, 1, 8, .sector, false, 0x1001fffff, 0, 0x200000000, 0, 0xc6⟩
  | .cmdQuiesce => ⟨0x300018, 0x40, 8, 0, 1, 4, .sector, false, 0, 0, 0, 0, 0⟩
  | .cmdRingState => ⟨0x301000, 0x10, 512, 0, 1, 8, .ring, false, 0, 0, 0, 0, 0⟩
  | .cmdRingCount => ⟨0x301008, 0x10, 512, 0, 1, 8, .ring, false, 0, 0, 0, 0xffffffffffffffff, 0⟩
  | .cmdDoorbellDropped => ⟨0x304000, 0, 1, 0, 1, 4, .physical, false, 0, 0, 0, 0xffffffff, 0⟩
  | .cmdUrgentMaxNs => ⟨0x304004, 0, 1, 0, 1, 4, .physical, false, 0, 0, 0, 0xffffffff, 0⟩
  | .cmdUrgentCount => ⟨0x304008, 0, 1, 0, 1, 4, .physical, false, 0, 0, 0, 0xffffffff, 0⟩
  | .cmdDbMirrorSqTail => ⟨0x380000, 0x40, 512, 0, 1, 8, .ring, false, 0, 0, 0, 0, 0⟩
  | .cmdDbMirrorCqHead => ⟨0x380008, 0x40, 512, 0, 1, 8, .ring, false, 0, 0, 0, 0, 0⟩
  | .memStatus => ⟨0x400000, 0, 1, 0, 1, 4, .physical, false, 0, 0, 0, 0, 0⟩
  | .memFarCfg => ⟨0x400008, 0, 1, 0, 1, 8, .physical, false, 0x1, 0, 0, 0, 0x1⟩
  | .memFarCap => ⟨0x400010, 0, 1, 0, 1, 8, .physical, false, 0, 0, 0, 0, 0⟩
  | .memDbgBase => ⟨0x400018, 0, 1, 0, 1, 8, .physical, false, 0x3fff00000000, 0, 0, 0, 0⟩
  | .memScrubCfg => ⟨0x400020, 0, 1, 0, 1, 4, .physical, false, 0xfffff, 0, 0, 0, 0x15180⟩
  | .memScrubProgress => ⟨0x400024, 0, 1, 0, 1, 4, .physical, false, 0, 0, 0, 0, 0⟩
  | .memCeCount => ⟨0x400028, 0, 1, 0, 1, 4, .physical, false, 0, 0, 0, 0xffffffff, 0⟩
  | .memUeCount => ⟨0x40002c, 0, 1, 0, 1, 4, .physical, false, 0, 0, 0, 0xffffffff, 0⟩
  | .memTagFailCount => ⟨0x400030, 0, 1, 0, 1, 4, .physical, false, 0, 0, 0, 0xffffffff, 0⟩
  | .memPoisonReads => ⟨0x400034, 0, 1, 0, 1, 4, .physical, false, 0, 0, 0, 0xffffffff, 0⟩
  | .memXlatFaults => ⟨0x400038, 0, 1, 0, 1, 4, .physical, false, 0, 0, 0, 0xffffffff, 0⟩
  | .memFarBase => ⟨0x400040, 0x10, 8, 0, 1, 8, .sector, false, 0, 0, 0, 0, 0⟩
  | .memFarSize => ⟨0x400048, 0x10, 8, 0, 1, 8, .sector, false, 0, 0, 0, 0, 0⟩
  | .memMoverState => ⟨0x400100, 0, 1, 0, 1, 8, .physical, false, 0, 0, 0, 0, 0⟩
  | .cxlPortStatus => ⟨0x500000, 0x20, 2, 0, 1, 8, .physical, false, 0, 0, 0, 0, 0⟩
  | .cxlErrors => ⟨0x500008, 0x20, 2, 0, 1, 4, .physical, false, 0, 0, 0, 0xffffffff, 0⟩
  | .cxlOfflineCause => ⟨0x50000c, 0x20, 2, 0, 1, 4, .physical, false, 0, 0, 0, 0, 0⟩
  | .sclKillCount => ⟨0x700000, 0, 1, 0, 1, 4, .physical, false, 0, 0, 0, 0xffffffff, 0⟩
  | .sclLaunchCount => ⟨0x700004, 0, 1, 0, 1, 4, .physical, false, 0, 0, 0, 0xffffffff, 0⟩
  | .sclQueue => ⟨0x700100, 0x4, 8, 0, 1, 4, .sector, false, 0, 0, 0, 0, 0⟩
  | .sclCtxState => ⟨0x701000, 0x10, 512, 0, 1, 8, .context, false, 0, 0, 0, 0, 0⟩
  | .sclCtxRoot => ⟨0x701008, 0x10, 512, 0, 1, 8, .context, false, 0, 0, 0, 0, 0⟩
  | .sclScullLoad => ⟨0x704000, 0x8, 256, 0, 1, 8, .scull, false, 0, 0, 0, 0, 0⟩
  | .latEngineState => ⟨0x800000, 0x40, 8, 0, 1, 8, .engine, false, 0, 0, 0, 0, 0⟩
  | .latQueue => ⟨0x800008, 0x40, 8, 0, 1, 4, .engine, false, 0, 0, 0, 0, 0⟩
  | .latOpsDone => ⟨0x80000c, 0x40, 8, 0, 1, 4, .engine, false, 0, 0, 0, 0xffffffff, 0⟩
  | .latPreempts => ⟨0x800010, 0x40, 8, 0, 1, 4, .engine, false, 0, 0, 0, 0xffffffff, 0⟩
  | .latPaceStalls => ⟨0x800014, 0x40, 8, 0, 1, 4, .engine, false, 0, 0, 0, 0xffffffff, 0⟩
  | .latModValid => ⟨0x800018, 0x40, 8, 0, 1, 8, .engine, false, 0, 0, 0, 0, 0⟩
  | .latModValidFw => ⟨0x800020, 0x40, 8, 0, 1, 8, .engine, false, 0, 0, 0, 0, 0⟩
  | .latCtxSlots => ⟨0x800028, 0x40, 8, 0, 1, 4, .engine, false, 0, 0, 0, 0, 0⟩
  | .heatConfig => ⟨0x900000, 0, 1, 0, 1, 8, .physical, false, 0x3fffffffffffffff, 0, 0, 0, 0x13880000ea60⟩
  | .heatConfig2 => ⟨0x900008, 0, 1, 0, 1, 8, .physical, false, 0xffffffffffff, 0, 0, 0, 0x100000002710⟩
  | .heatMsgAccepted => ⟨0x900010, 0, 1, 0, 1, 4, .physical, false, 0, 0, 0, 0xffffffff, 0⟩
  | .heatMsgRefused => ⟨0x900014, 0, 1, 0, 1, 4, .physical, false, 0, 0, 0, 0xffffffff, 0⟩
  | .heatDupCount => ⟨0x900018, 0, 1, 0, 1, 4, .physical, false, 0, 0, 0, 0xffffffff, 0⟩
  | .heatTaintCount => ⟨0x90001c, 0, 1, 0, 1, 4, .physical, false, 0, 0, 0, 0xffffffff, 0⟩
  | .heatNoiseWaits => ⟨0x900020, 0, 1, 0, 1, 4, .physical, false, 0, 0, 0, 0xffffffff, 0⟩
  | .heatSlotState => ⟨0x900100, 0x40, 64, 0, 1, 8, .slot, false, 0, 0, 0, 0, 0⟩
  | .heatSlotHeatId => ⟨0x900108, 0x40, 64, 0, 1, 8, .slot, false, 0, 0, 0, 0, 0⟩
  | .heatSlotCounts => ⟨0x900110, 0x40, 64, 0, 1, 8, .slot, false, 0, 0, 0, 0, 0⟩
  | .heatSlotMirror => ⟨0x900118, 0x40, 64, 0, 1, 8, .slot, false, 0, 0, 0, 0, 0⟩
  | .rngStatus => ⟨0xa00000, 0, 1, 0, 1, 4, .all, false, 0, 0, 0, 0, 0⟩
  | .rngQueueDepth => ⟨0xa00004, 0, 1, 0, 1, 4, .all, false, 0, 0, 0, 0, 0⟩
  | .rngAnnulusState => ⟨0xa00008, 0, 1, 0, 1, 8, .physical, false, 0, 0, 0, 0, 0⟩
  | .rngConfig => ⟨0xa00010, 0, 1, 0, 1, 8, .physical, false, 0x3fff, 0, 0, 0, 0x420⟩
  | .rngSeedsMade => ⟨0xa00018, 0, 1, 0, 1, 4, .physical, false, 0, 0, 0, 0xffffffff, 0⟩
  | .rngSeedsDiscarded => ⟨0xa0001c, 0, 1, 0, 1, 4, .physical, false, 0, 0, 0, 0xffffffff, 0⟩
  | .rngHealthFails => ⟨0xa00020, 0, 1, 0, 1, 4, .physical, false, 0, 0, 0, 0xffffffff, 0⟩
  | .rngStretched => ⟨0xa00024, 0, 1, 0, 1, 4, .physical, false, 0, 0, 0, 0xffffffff, 0⟩
  | .rngStarved => ⟨0xa00028, 0, 1, 0, 1, 4, .physical, false, 0, 0, 0, 0xffffffff, 0⟩
  | .rngInternalWaits => ⟨0xa0002c, 0, 1, 0, 1, 4, .physical, false, 0, 0, 0, 0xffffffff, 0⟩
  | .rngWaitList => ⟨0xa00030, 0, 1, 0, 1, 4, .physical, false, 0, 0, 0, 0, 0⟩
  | .rngInstUsed => ⟨0xa00040, 0x4, 8, 0, 1, 4, .sector, false, 0, 0, 0, 0, 0⟩
  | .rngInstance => ⟨0xa01000, 0x8, 4352, 0, 1, 8, .instanceOf, false, 0, 0, 0, 0, 0⟩
  | .rdmaRateCfg => ⟨0xb00000, 0, 1, 0, 1, 8, .physical, false, 0x3fffffffffff, 0, 0, 0, 0x14506414400⟩
  | .rdmaDropped => ⟨0xb00008, 0, 1, 0, 1, 4, .physical, false, 0, 0, 0, 0xffffffff, 0⟩
  | .rdmaKeyFaults => ⟨0xb0000c, 0, 1, 0, 1, 4, .physical, false, 0, 0, 0, 0xffffffff, 0⟩
  | .rdmaNakSent => ⟨0xb00010, 0, 1, 0, 1, 4, .physical, false, 0, 0, 0, 0xffffffff, 0⟩
  | .rdmaRetransmits => ⟨0xb00014, 0, 1, 0, 1, 4, .physical, false, 0, 0, 0, 0xffffffff, 0⟩
  | .rdmaAtomicReplays => ⟨0xb00018, 0, 1, 0, 1, 4, .physical, false, 0, 0, 0, 0xffffffff, 0⟩
  | .rdmaAtomicAged => ⟨0xb0001c, 0, 1, 0, 1, 4, .physical, false, 0, 0, 0, 0xffffffff, 0⟩
  | .rdmaCnpSent => ⟨0xb00020, 0, 1, 0, 1, 4, .physical, false, 0, 0, 0, 0xffffffff, 0⟩
  | .rdmaCnpReceived => ⟨0xb00024, 0, 1, 0, 1, 4, .physical, false, 0, 0, 0, 0xffffffff, 0⟩
  | .rdmaCacheMisses => ⟨0xb00028, 0, 1, 0, 1, 4, .physical, false, 0, 0, 0, 0xffffffff, 0⟩
  | .rdmaTable => ⟨0xb00100, 0x10, 8, 0, 1, 4, .sector, true, 0, 0, 0, 0, 0⟩
  | .rdmaMrQuota => ⟨0xb00104, 0x10, 8, 0, 1, 4, .sector, true, 0x1fffff, 0, 0, 0, 0⟩
  | .rdmaUsed => ⟨0xb00108, 0x10, 8, 0, 1, 8, .sector, true, 0, 0, 0, 0, 0⟩
  | .chdCfg => ⟨0xc00000, 0, 1, 0, 1, 8, .physical, false, 0x3ffffffffffffff, 0, 0, 0, 0x271000640064⟩
  | .chdPodMembers => ⟨0xc00008, 0, 1, 0, 1, 8, .physical, false, 0xffffffffffffffff, 0, 0, 0, 0⟩
  | .chdAclRefused => ⟨0xc00010, 0, 1, 0, 1, 4, .physical, false, 0, 0, 0, 0xffffffff, 0⟩
  | .chdHopDrops => ⟨0xc00014, 0, 1, 0, 1, 4, .physical, false, 0, 0, 0, 0xffffffff, 0⟩
  | .chdLinkState => ⟨0xc00100, 0x20, 12, 0, 1, 8, .physical, false, 0, 0, 0, 0, 0⟩
  | .chdLinkCounts => ⟨0xc00108, 0x20, 12, 0, 1, 8, .physical, false, 0, 0, 0, 0xffffffffffffffff, 0⟩
  | .chdTxDecoded => ⟨0xc00110, 0x20, 12, 0, 1, 8, .physical, false, 0, 0, 0, 0xffffffffffffffff, 0⟩
  | .chdTxCoded => ⟨0xc00118, 0x20, 12, 0, 1, 8, .physical, false, 0, 0, 0, 0xffffffffffffffff, 0⟩
  | .chdRoute => ⟨0xc01000, 0x8, 64, 0, 1, 4, .physical, false, 0xfff, 0, 0, 0, 0⟩
  | .chdAclSrc => ⟨0xc02000, 0x100, 8, 0x10, 16, 8, .sector, true, 0xffffffffffffffff, 0, 0, 0, 0⟩
  | .chdAclWin => ⟨0xc02008, 0x100, 8, 0x10, 16, 8, .sector, true, 0xffffffffffffffff, 0, 0, 0, 0⟩
  | .chdFoldSlot => ⟨0xc03000, 0x8, 64, 0, 1, 8, .fold, false, 0, 0, 0, 0, 0⟩
  | .ethPortCfg => ⟨0xd00000, 0x1000, 8, 0, 1, 8, .physical, false, 0xfffffffffffffff, 0, 0, 0, 0x80100180200000⟩
  | .ethPortStatus => ⟨0xd00008, 0x1000, 8, 0, 1, 4, .physical, false, 0, 0, 0, 0, 0⟩
  | .ethRxDrops => ⟨0xd00010, 0x1000, 8, 0, 1, 4, .physical, false, 0, 0, 0, 0xffffffff, 0⟩
  | .ethRxOther => ⟨0xd00014, 0x1000, 8, 0, 1, 4, .physical, false, 0, 0, 0, 0xffffffff, 0⟩
  | .ethPfcSent => ⟨0xd00018, 0x1000, 8, 0, 1, 4, .physical, false, 0, 0, 0, 0xffffffff, 0⟩
  | .ethPfcReceived => ⟨0xd0001c, 0x1000, 8, 0, 1, 4, .physical, false, 0, 0, 0, 0xffffffff, 0⟩
  | .ethLinkDowns => ⟨0xd00020, 0x1000, 8, 0, 1, 4, .physical, false, 0, 0, 0, 0xffffffff, 0⟩
  | .ethPtpIgnored => ⟨0xd00024, 0x1000, 8, 0, 1, 4, .physical, false, 0, 0, 0, 0xffffffff, 0⟩
  | .ethLosslessDrops => ⟨0xd00028, 0x1000, 8, 0, 1, 4, .physical, false, 0, 0, 0, 0xffffffff, 0⟩
  | .ethAddrIpHi => ⟨0xd00100, 0x1000, 8, 0x20, 16, 8, .physical, false, 0xffffffffffffffff, 0, 0, 0, 0⟩
  | .ethAddrIpLo => ⟨0xd00108, 0x1000, 8, 0x20, 16, 8, .physical, false, 0xffffffffffffffff, 0, 0, 0, 0⟩
  | .ethAddrMac => ⟨0xd00110, 0x1000, 8, 0x20, 16, 8, .physical, false, 0xffffffffffffffff, 0, 0, 0, 0⟩
  | .ethDscpMap => ⟨0xd08000, 0x8, 4, 0, 1, 8, .physical, false, 0x7777777777777777, 0, 0, 0, 0⟩
  | .pciLink => ⟨0xe00000, 0, 1, 0, 1, 4, .all, false, 0, 0, 0, 0, 0⟩
  | .pciPortResets => ⟨0xe00004, 0, 1, 0, 1, 4, .physical, false, 0, 0, 0, 0xffffffff, 0⟩
  | .pciCplTimeouts => ⟨0xe00008, 0, 1, 0, 1, 4, .physical, false, 0, 0, 0, 0xffffffff, 0⟩
  | .pciPoisonRx => ⟨0xe0000c, 0, 1, 0, 1, 4, .physical, false, 0, 0, 0, 0xffffffff, 0⟩
  | .pciFiltered => ⟨0xe00010, 0, 1, 0, 1, 4, .physical, false, 0, 0, 0, 0xffffffff, 0⟩
  | .sealStatus => ⟨0xf00000, 0, 1, 0, 1, 8, .all, false, 0, 0, 0, 0, 0⟩
  | .sealScrubProgress => ⟨0xf00008, 0, 1, 0, 1, 8, .physical, false, 0, 0, 0, 0, 0⟩
  | .sealCfg => ⟨0xf00010, 0, 1, 0, 1, 8, .physical, false, 0xffffffff, 0, 0, 0, 0⟩
  | .sealRecordFails => ⟨0xf00018, 0, 1, 0, 1, 4, .physical, false, 0, 0, 0, 0xffffffff, 0⟩
  | .sealFwSvn => ⟨0xf0001c, 0, 1, 0, 1, 4, .physical, false, 0, 0, 0, 0, 0⟩
  | .sealMboxCtrl => ⟨0xf00100, 0x10, 9, 0, 1, 8, .mailbox, false, 0x7fff0000, 0x2, 0x1, 0, 0⟩
  | .sealWindows => ⟨0xf00200, 0x8, 8, 0, 1, 8, .sector, false, 0, 0, 0, 0, 0⟩
  | .clkPllStatus => ⟨0x1000000, 0, 1, 0, 1, 4, .physical, false, 0, 0, 0, 0, 0⟩
  | .clkOverrun => ⟨0x1000004, 0, 1, 0, 1, 4, .physical, false, 0, 0xfff, 0, 0, 0⟩
  | .clkPllLosses => ⟨0x1000008, 0, 1, 0, 1, 4, .physical, false, 0, 0, 0, 0xffffffff, 0⟩
  | .clkLost => ⟨0x1000100, 0x4, 12, 0, 1, 4, .physical, false, 0, 0, 0, 0xffffffff, 0⟩
  | .rstStatus => ⟨0x1100000, 0, 1, 0, 1, 8, .all, true, 0, 0x800, 0, 0, 0⟩
  | .rstCtrl => ⟨0x1100008, 0, 1, 0, 1, 4, .physical, false, 0, 0, 0, 0, 0⟩
  | .rstSectorReset => ⟨0x110000c, 0, 1, 0, 1, 4, .physical, false, 0, 0, 0xff, 0, 0⟩
  | .rstEngineReset => ⟨0x1100010, 0, 1, 0, 1, 4, .physical, false, 0xff, 0, 0x100, 0, 0⟩
  | .rstEngineDiscards => ⟨0x1100014, 0, 1, 0, 1, 4, .physical, false, 0, 0, 0, 0xffffffff, 0⟩
  | .rstStraps => ⟨0x1100018, 0, 1, 0, 1, 4, .physical, false, 0, 0, 0, 0, 0⟩
  | .rstFusedMinSvn => ⟨0x110001c, 0, 1, 0, 1, 4, .physical, false, 0, 0, 0, 0, 0⟩
  | .rstBootError => ⟨0x1100020, 0, 1, 0, 1, 4, .physical, false, 0, 0, 0, 0, 0⟩
  | .rstWarmCount => ⟨0x1100024, 0, 1, 0, 1, 4, .physical, false, 0, 0, 0, 0xffffffff, 0⟩
  | .rstSlots => ⟨0x1100028, 0, 1, 0, 1, 8, .physical, false, 0, 0, 0, 0, 0⟩
  | .rstRecoveryAddr => ⟨0x1100100, 0, 1, 0, 1, 8, .physical, false, 0, 0, 0, 0, 0x2000000⟩
  | .rstRecoveryCtrl => ⟨0x1100108, 0, 1, 0, 1, 4, .physical, false, 0xffffff00, 0, 0x2, 0, 0⟩
  | .pwrEightState => ⟨0x1200000, 0, 1, 0, 1, 8, .physical, false, 0, 0, 0, 0, 0⟩
  | .pwrLeState => ⟨0x1200008, 0, 1, 0, 1, 4, .physical, false, 0, 0, 0, 0, 0⟩
  | .pwrRefused => ⟨0x120000c, 0, 1, 0, 1, 4, .physical, false, 0, 0, 0, 0xffffffff, 0⟩
  | .pwrTransitions => ⟨0x1200010, 0, 1, 0, 1, 4, .physical, false, 0, 0, 0, 0xffffffff, 0⟩
  | .errCfg => ⟨0x1300000, 0, 1, 0, 1, 8, .physical, false, 0xffffffffff, 0, 0, 0, 0x3c151803⟩
  | .errStatus => ⟨0x1300008, 0, 1, 0, 1, 4, .physical, false, 0, 0, 0, 0, 0⟩
  | .errSeq => ⟨0x130000c, 0, 1, 0, 1, 4, .physical, false, 0, 0, 0, 0, 0⟩
  | .errLost => ⟨0x1300010, 0, 1, 0, 1, 4, .physical, false, 0, 0, 0, 0xffffffff, 0⟩
  | .errCorrected => ⟨0x1300014, 0, 1, 0, 1, 4, .physical, false, 0, 0, 0, 0xffffffff, 0⟩
  | .errUncorrected => ⟨0x1300018, 0, 1, 0, 1, 4, .physical, false, 0, 0, 0, 0xffffffff, 0⟩
  | .errFatal => ⟨0x130001c, 0, 1, 0, 1, 4, .physical, false, 0, 0, 0, 0xffffffff, 0⟩
  | .errTests => ⟨0x1300020, 0, 1, 0, 1, 4, .physical, false, 0, 0, 0, 0xffffffff, 0⟩
  | .errTransient => ⟨0x1300024, 0, 1, 0, 1, 4, .physical, false, 0, 0, 0, 0xffffffff, 0⟩
  | .errPersistent => ⟨0x1300028, 0, 1, 0, 1, 4, .physical, false, 0, 0, 0, 0xffffffff, 0⟩
  | .errLast => ⟨0x1300040, 0x8, 8, 0, 1, 8, .physical, false, 0, 0, 0, 0, 0⟩
  | .errRepairLeft => ⟨0x1300100, 0x4, 8, 0, 1, 4, .physical, false, 0, 0, 0, 0, 0⟩
  | .errSpares => ⟨0x1300120, 0, 1, 0, 1, 4, .physical, false, 0, 0, 0, 0, 0⟩
  | .errSectorLast => ⟨0x1300400, 0x40, 8, 0x8, 8, 8, .sector, false, 0, 0, 0, 0, 0⟩
  | .injArmed => ⟨0x1400000, 0, 1, 0, 1, 4, .physical, false, 0, 0, 0, 0, 0⟩
  | .injFired => ⟨0x1400004, 0, 1, 0, 1, 4, .physical, false, 0, 0, 0, 0xffffffff, 0⟩
  | .injSlot => ⟨0x1400100, 0x8, 16, 0, 1, 8, .physical, false, 0, 0, 0, 0, 0⟩
  | .pairStatus => ⟨0x1500000, 0, 1, 0, 1, 8, .physical, false, 0, 0, 0, 0, 0⟩
  | .pairCfg => ⟨0x1500008, 0, 1, 0, 1, 8, .physical, false, 0x3fffffffffffff, 0, 0, 0, 0x271000320203⟩
  | .pairHbMissed => ⟨0x1500010, 0, 1, 0, 1, 4, .physical, false, 0, 0, 0, 0xffffffff, 0⟩
  | .pairTakeovers => ⟨0x1500014, 0, 1, 0, 1, 4, .physical, false, 0, 0, 0, 0xffffffff, 0⟩
  | .pairFences => ⟨0x1500018, 0, 1, 0, 1, 4, .physical, false, 0, 0, 0, 0xffffffff, 0⟩
  | .pairSelfFences => ⟨0x150001c, 0, 1, 0, 1, 4, .physical, false, 0, 0, 0, 0xffffffff, 0⟩
  | .wakeData => ⟨0x1600000, 0x40, 64, 0x8, 4, 8, .wake, false, 0, 0, 0, 0, 0⟩
  | .wakeCount => ⟨0x1600020, 0x40, 64, 0, 1, 4, .wake, false, 0, 0, 0, 0, 0⟩
  | .wakeLost => ⟨0x1600024, 0x40, 64, 0, 1, 4, .wake, false, 0, 0, 0, 0xffffffff, 0⟩
  | .wakeCfg => ⟨0x1600028, 0x40, 64, 0, 1, 8, .wake, false, 0, 0, 0, 0, 0⟩
  | .wakeMisrouted => ⟨0x1601000, 0, 1, 0, 1, 4, .physical, false, 0, 0, 0, 0xffffffff, 0⟩

/-- Every register, in the order of the table. -/
def Reg.list : List Reg := [

  .topPartId, .topStepping, .topCapDies, .topCapScullMem, .topCapMatrix, .topCapLattice, .topCapNear, .topCapSram, .topCapFar, .topCapNet, .topCapHeat, .topCapRandom, .topCapRdma, .topCapSystem, .topPkgSerial, .topFuseStatus, .topDieLot, .topDiePos, .topAvailEights, .topAvailSculls, .topAvailMisc, .topAvailGen, .cadStatus, .cadStroke, .cadTimeNs, .cadErrEst, .cadOrigin, .cadConfig, .cadLimits, .cadLastStepNs, .cadPpsSeconds, .cadStateChanges, .cadMarkExpired, .cadMarkSkipped, .cadMarkWithheld, .cadSlotsUsed, .cadLogQueue, .cadMarkQuota, .cadSlotState, .cadSlotTarget] ++ [
  .sctFreeEights, .sctFreeMisc, .sctFreeQuotas, .sctCmdStatus, .sctHbmOwner, .sctLakeOwner, .sctState, .sctEights, .sctLattice, .sctWake, .sctMemory, .sctQuotas, .cmdAdminSqBase, .cmdAdminCqBase, .cmdAdminCfg, .cmdQuiesce, .cmdRingState, .cmdRingCount, .cmdDoorbellDropped, .cmdUrgentMaxNs, .cmdUrgentCount, .cmdDbMirrorSqTail, .cmdDbMirrorCqHead, .memStatus, .memFarCfg, .memFarCap, .memDbgBase, .memScrubCfg, .memScrubProgress, .memCeCount, .memUeCount, .memTagFailCount, .memPoisonReads, .memXlatFaults, .memFarBase, .memFarSize, .memMoverState, .cxlPortStatus, .cxlErrors, .cxlOfflineCause] ++ [
  .sclKillCount, .sclLaunchCount, .sclQueue, .sclCtxState, .sclCtxRoot, .sclScullLoad, .latEngineState, .latQueue, .latOpsDone, .latPreempts, .latPaceStalls, .latModValid, .latModValidFw, .latCtxSlots, .heatConfig, .heatConfig2, .heatMsgAccepted, .heatMsgRefused, .heatDupCount, .heatTaintCount, .heatNoiseWaits, .heatSlotState, .heatSlotHeatId, .heatSlotCounts, .heatSlotMirror, .rngStatus, .rngQueueDepth, .rngAnnulusState, .rngConfig, .rngSeedsMade, .rngSeedsDiscarded, .rngHealthFails, .rngStretched, .rngStarved, .rngInternalWaits, .rngWaitList, .rngInstUsed, .rngInstance, .rdmaRateCfg, .rdmaDropped] ++ [
  .rdmaKeyFaults, .rdmaNakSent, .rdmaRetransmits, .rdmaAtomicReplays, .rdmaAtomicAged, .rdmaCnpSent, .rdmaCnpReceived, .rdmaCacheMisses, .rdmaTable, .rdmaMrQuota, .rdmaUsed, .chdCfg, .chdPodMembers, .chdAclRefused, .chdHopDrops, .chdLinkState, .chdLinkCounts, .chdTxDecoded, .chdTxCoded, .chdRoute, .chdAclSrc, .chdAclWin, .chdFoldSlot, .ethPortCfg, .ethPortStatus, .ethRxDrops, .ethRxOther, .ethPfcSent, .ethPfcReceived, .ethLinkDowns, .ethPtpIgnored, .ethLosslessDrops, .ethAddrIpHi, .ethAddrIpLo, .ethAddrMac, .ethDscpMap, .pciLink, .pciPortResets, .pciCplTimeouts, .pciPoisonRx] ++ [
  .pciFiltered, .sealStatus, .sealScrubProgress, .sealCfg, .sealRecordFails, .sealFwSvn, .sealMboxCtrl, .sealWindows, .clkPllStatus, .clkOverrun, .clkPllLosses, .clkLost, .rstStatus, .rstCtrl, .rstSectorReset, .rstEngineReset, .rstEngineDiscards, .rstStraps, .rstFusedMinSvn, .rstBootError, .rstWarmCount, .rstSlots, .rstRecoveryAddr, .rstRecoveryCtrl, .pwrEightState, .pwrLeState, .pwrRefused, .pwrTransitions, .errCfg, .errStatus, .errSeq, .errLost, .errCorrected, .errUncorrected, .errFatal, .errTests, .errTransient, .errPersistent, .errLast, .errRepairLeft] ++ [
  .errSpares, .errSectorLast, .injArmed, .injFired, .injSlot, .pairStatus, .pairCfg, .pairHbMissed, .pairTakeovers, .pairFences, .pairSelfFences, .wakeData, .wakeCount, .wakeLost, .wakeCfg, .wakeMisrouted]

/-- Offset in register space of instance (i, j) of a register (21 R961). -/
def Reg.offset (r : Reg) (i j : Nat) : Nat := r.info.off + i * r.info.stride + j * r.info.stride2

/-- The instance of a register that holds offset `off`, and the byte within it. -/
def Reg.hit (r : Reg) (off : Nat) : Option (Nat × Nat × Nat) :=
  let k := r.info
  if off < k.off then none
  else
    let d := off - k.off
    let i := if k.stride = 0 then 0 else d / k.stride
    let d1 := d - i * k.stride
    let j := if k.stride2 = 0 then 0 else d1 / k.stride2
    let b := d1 - j * k.stride2
    if i < k.count && j < k.count2 && b < k.bytes then some (i, j, b) else none

/-- The register that holds an offset of register space, its instance, and the byte within it (21 R961). -/
def findReg (off : Nat) : List Reg → Option (Reg × Nat × Nat × Nat)
  | [] => none
  | r :: rs =>
    match r.hit off with
    | some (i, j, b) => some (r, i, j, b)
    | none => findReg off rs

/-- Stored and fixed bits of a register instance; an unlisted one holds its reset value. -/
def regGet (f : Table Word64) (r : Reg) (i j : Nat) : Nat :=
  ((Table.find f (r.offset i j)).map BitVec.toNat).getD r.info.reset

/-- The register file with an instance written. -/
def regPut (f : Table Word64) (r : Reg) (i j v : Nat) : Table Word64 :=
  Table.put f (r.offset i j) (BitVec.ofNat 64 v)

/-- What a software write of `v` makes of stored bits `old` (00 R10): RW bits take the value, W1C bits written as 1 clear,
W1S bits written as 1 set; every other bit stays. -/
def accessWrite (k : RegInfo) (mask old v : Nat) : Nat :=
  let m := k.rw &&& mask
  let kept := old - (old &&& m)
  let t := kept ||| (v &&& m)
  let c := v &&& k.w1c &&& mask
  let t := t - (t &&& c)
  t ||| (v &&& k.w1s &&& mask)

end Sys2Proof.Machine
end

