-- ==== Sys2Proof/Machine/TypesLattice.lean ====
section
/-! DEFINITION. The state types of the lattice engines (chapter 09 of spec/). -/
namespace Sys2Proof.Machine

/-- A modulus table entry (09 R446, R448); the constants of R448 follow from it. -/
structure Modulus where
  q : Nat
  psi : Nat
  logN : Nat
  deriving DecidableEq, Repr

/-- An operation: its LAT_EXEC parameters (packet bytes 24-127) and how far it has come (09 R457, R477). -/
structure LatOp where
  /-- Command that it completes, its ring and its original tag. -/
  serial : Nat := 0
  ring : Nat := 0
  tag : Nat := 0
  params : List Byte := []
  steps : Nat := 0
  /-- LAT cycles and stall cycles since it began or was resumed (R484). -/
  cycles : Nat := 0
  stalls : Nat := 0
  /-- Check of its resume token while it is suspended (R477). -/
  check : Nat := 0
  deriving DecidableEq, Repr

/-- A command queued on an engine, in arrival order (09 R444). -/
inductive LatItem where
  | exec (op : LatOp)
  | resume (serial ring tag t0 t1 : Nat)
  | moduli (serial first logN : Nat) (entries : List (Nat × Nat))
  deriving DecidableEq, Repr

/-- One lattice engine (09 R444, R478). -/
structure LatEngine where
  moduli : Table Modulus := []
  queue : List LatItem := []
  running : Option LatOp := none
  /-- The running operation is held by QUIESCE (R207). -/
  held : Bool := false
  yielded : Option LatOp := none
  /-- Context slots 0-15: the operation and the hash of its entries. -/
  slots : Table (LatOp × List Byte) := []
  /-- A LAT_SUSPEND that waits for the next boundary: its command, and SPILL. -/
  suspend : Option (Nat × Bool) := none
  /-- A test or urgent command waits for the running operation to yield at its next boundary (R210, 17 R855). -/
  yieldAsked : Bool := false
  /-- A shift's drain timeout stops the running operation at its next boundary (R475). -/
  shiftStop : Bool := false
  /-- Domain of the polynomial last written at an address: true for the NTT domain (R455, R459; log entry 34). -/
  domains : Table Bool := []
  /-- The heat that alone may use the engine during its CLOSE (R489). -/
  heat : Option Nat := none
  deriving DecidableEq, Repr

end Sys2Proof.Machine
end

