-- ==== Sys2Proof/Machine/TypesOut.lean ====
section
/-! DEFINITION. What the device sends to the outside. -/
namespace Sys2Proof.Machine

/-- One thing the device sends (log entry 5). -/
inductive Emit where
  /-- A memory write to the host with the requester of a function (03 R125, 15 R763). -/
  | hostWrite (fn : Fn) (addr : Nat) (bytes : List Byte)
  /-- An MSI-X message of a function's vector (15 R759). -/
  | msix (fn : Fn) (vector : Nat)
  /-- A Delay_Req on sub-port 0 of a port (15 R794). -/
  | delayReq (port seq : Nat)
  /-- A PFC frame on a sub-port for a class with a pause time (15 R788). -/
  | pfc (port sub cls quanta : Nat)
  /-- A RoCE v2 frame. -/
  | roce (frame : RoceFrame)
  /-- A flit on a chord link; `marks` are the lines of a fold chunk that begin in it and travel marked poisoned (11 R556, R592). -/
  | flit (link : Nat) (bytes : List Byte) (marks : List Nat)
  /-- An IDENT exchange on a chord link (11 R561). -/
  | ident (link : Nat) (info : IdentInfo)
  /-- A system message handed to the links as a packet whose payload has no stated layout. -/
  | sys (dest : Nat) (m : SysMsg)
  /-- An SPDM response over MCTP: over PCIe (9) or the SMBus (10). -/
  | mctp (path : Nat) (bytes : List Byte)
  /-- Bytes a JTAG data register shifts out (14 R707). -/
  | jtag (value : Nat)
  deriving DecidableEq, Repr

end Sys2Proof.Machine
end

