-- ==== Sys2Proof/Machine/TypesPair.lean ====
section
/-! DEFINITION. The state types of pairs, trays and the board pins (chapters 18 and 20 of spec/). -/
namespace Sys2Proof.Machine

/-- Pair states, in the order of their codes (18). -/
inductive PairState where
  | none
  | forming
  | formed
  | suspect
  | fencing
  | solo
  | selfFenced
  | detached
  deriving DecidableEq, Repr

/-- Output pins of the package that the manual drives (20 R946, R952, R954, R959; 18 R887). True is driven low for the
active-low ones, and driven high for TRAY_READY and PAIR_FENCE_REQ. -/
structure Pins where
  thermAlert : Bool := false
  thermTrip : Bool := false
  smbAlert : Bool := false
  fenceReq : Bool := false
  fenceConf : Bool := false
  trayReady : Bool := false
  deriving DecidableEq, Repr

/-- The pair (18). -/
structure Pair where
  state : PairState := .none
  twin : Nat := 0
  /-- Serial of the PAIR_FORM, PAIR_TAKEOVER or TRAY_DETACH in progress. -/
  serial : Option Nat := none
  resync : Bool := false
  /-- Package-local index of the heartbeat queue pair, and the twin's heartbeat QPN (R878). -/
  qp : Option Nat := none
  twinQpn : Nat := 0
  /-- Heartbeats that arrived since the last stroke boundary, and the miss counts, on the pair link and over Ethernet (R883). -/
  heardLink : Bool := false
  heardEth : Bool := false
  misses : Nat := 0
  ethMisses : Nat := 0
  /-- The package has taken over its twin's slots by grace (R887, R889). -/
  byGrace : Bool := false
  /-- PAIR_TAKEOVER commands in progress: serial → slots moved so far; and heats that the twin was asked to hand over, with the
  serials (R897). -/
  moves : Table Nat := []
  asked : List (Nat × Nat) := []
  deriving DecidableEq, Repr

end Sys2Proof.Machine
end

