-- ==== Sys2Proof/Machine/TypesRng.lean ====
section
/-! DEFINITION. The state types of the entropy source and the expanders (chapter 08 of spec/). -/
namespace Sys2Proof.Machine

/-- Annulus states HEALTHY, TESTING, RETIRED (08 R408, R409). -/
inductive AnnulusState where
  | healthy
  | testing
  | retired
  deriving DecidableEq, Repr

/-- An annulus (08 R398-R411). After a reset it is TESTING in its start-up test. -/
structure Annulus where
  state : AnnulusState := .testing
  /-- The start-up test of R411 after a reset (or after LEAVE) is running. -/
  startup : Bool := true
  /-- Raw bits that passed in the start-up test, to 1,024, and whether the lock block begun since is clean so far. -/
  passed : Nat := 0
  /-- Failures since the cold reset (R409). -/
  failures : Nat := 0
  /-- Blocks conditioned since the cold reset (R402). -/
  blocks : Nat := 0
  /-- Repetition count: last bit and length of its run. -/
  lastBit : Bool := false
  run : Nat := 0
  /-- Adaptive proportion: bits of the window so far, its first bit, and bits equal to it. -/
  window : Nat := 0
  firstBit : Bool := false
  equal : Nat := 0
  /-- Raw block in progress, first bit first (R401). -/
  block : List Bool := []
  /-- Lock block in progress: alive windows closed, first value of d, and whether another value was seen. -/
  lockWindows : Nat := 0
  firstD : Int := 0
  moved : Bool := false
  deriving DecidableEq, Repr

/-- A conditioned seed in probation, and whether the alive window and the lock block that overlap its raw block have closed
clean (08 R403). -/
structure Probation where
  annulus : Nat
  seed : List Byte
  alive : Bool := false
  lock : Bool := false
  deriving DecidableEq, Repr

/-- A CTR_DRBG instance (08 R415-R425). -/
structure Instance where
  key : List Byte := []
  v : List Byte := []
  count : Nat := 0
  sector : Nat := 0
  interval : Nat := 256
  limit : Nat := 256
  pr : Bool := false
  needReseed : Bool := false
  deriving DecidableEq, Repr

/-- A CAPTURE in progress (08 R439): its command, and the samples taken so far, oldest first. -/
structure Capture where
  serial : Nat
  annulus : Nat
  values : Bool
  count : Nat
  sector : Nat
  dest : Nat
  bits : List Bool := []
  ds : List Int := []
  deriving DecidableEq, Repr

/-- Source states STARTUP, OK, LOW, FAILED, in the order of their codes (08 R410, R413). -/
inductive SourceState where
  | startup
  | ok
  | low
  | failed
  deriving DecidableEq, Repr

/-- The entropy source and the expanders. -/
structure Rng where
  annuli : Table Annulus := []
  probation : List Probation := []
  /-- Seed queue, oldest first, at most 256 (R406). -/
  queue : List (List Byte) := []
  instances : Table Instance := []
  /-- Instances instantiated since the cold reset (R415). -/
  instantiations : Nat := 0
  /-- Client instances that wait for a seed, in the order they joined (R423). -/
  waitList : List Nat := []
  /-- Internal instances that wait at their reseed point (R421). -/
  internalWaits : List Nat := []
  /-- STARTUP has ended since the last reset or LEAVE (R413). -/
  started : Bool := false
  /-- The known-answer tests have run since the reset, and failed (R412). -/
  katDone : Bool := false
  katFailed : Bool := false
  /-- Source state last recorded, for the record of R410. -/
  shown : SourceState := .startup
  raw : Bool := false
  capture : Option Capture := none
  deriving DecidableEq, Repr

end Sys2Proof.Machine
end

