-- ==== Sys2Proof/Machine/TypesSeal.lean ====
section
/-! DEFINITION. The state types of sealed mode (chapter 14 of spec/). -/
namespace Sys2Proof.Machine

/-- A bounce window (14 R729-R735): direction, areas, slots, and the highest COUNTER accepted from each slot (R731). -/
structure Window where
  d2h : Bool := false
  dataBase : Nat := 0
  tagBase : Nat := 0
  slots : Nat := 0
  counters : Table Nat := []
  deriving DecidableEq, Repr

/-- An SPDM session (14 R723-R728). -/
structure Session where
  mailbox : Nat
  id : Nat
  /-- FINISH was accepted: the application keys are in force. -/
  finished : Bool := false
  /-- Running transcript, and TH once FINISH was answered. -/
  transcript : List Byte := []
  th : List Byte := []
  /-- Handshake secret, secrets of both directions in force, records counted in each, export master secret. -/
  handshake : List Byte := []
  reqSecret : List Byte := []
  rspSecret : List Byte := []
  reqCount : Nat := 0
  rspCount : Nat := 0
  exportMaster : List Byte := []
  /-- KEM_KEY_GET was answered: seed of the decapsulation key; KEM_CIPHER was accepted. -/
  kemSeed : Option (List Byte) := none
  kemDone : Bool := false
  deriving DecidableEq, Repr

/-- Sealed-mode state of one sector (14 R723-R735). -/
structure SealSector where
  session : Option Session := none
  windows : Table Window := []
  /-- Record keys: 36 bytes K ‖ SALT for each direction; none without keys (R727). -/
  h2d : Option (List Byte) := none
  d2h : Option (List Byte) := none
  /-- COUNTER of the next device-to-host record (R733). -/
  nextCounter : Nat := 1
  deriving DecidableEq, Repr

/-- An operator key (14 R740). -/
structure OpKey where
  sectors : Nat := 0
  point : List Byte := []
  ek : List Byte := []
  deriving DecidableEq, Repr

/-- A mailbox of a function (14 R722), or the MCTP endpoint as number 9 (PCIe) or 10 (SMBus): buffers, BUSY, and the state of the
SPDM connection. -/
structure Mailbox where
  req : List Byte := []
  resp : List Byte := []
  busy : Bool := false
  /-- Chunked request being assembled, and a response that is fetched in chunks: handle and bytes. -/
  chunkIn : List Byte := []
  chunkOut : List Byte := []
  handle : Nat := 0
  /-- How far negotiation has come: 1 version, 2 capabilities, 3 algorithms; and the messages so far: those of the negotiation,
  those of digests and certificates, those of measurements since the last signature. -/
  negotiated : Nat := 0
  vca : List Byte := []
  certs : List Byte := []
  meas : List Byte := []
  deriving DecidableEq, Repr

/-- Sealed mode (14). -/
structure Seal where
  sealed : Bool := false
  armed : Bool := false
  scrub : Bool := false
  /-- SEAL.STATUS.RETAIN, in the standby domain (R744). -/
  retain : Bool := false
  scrubPartial : Bool := false
  refused : Bool := false
  scrubDone : Nat := 0
  scrubTotal : Nat := 0
  kEnc : List Byte := []
  kMac : List Byte := []
  sectors : Table SealSector := []
  opkeys : Table OpKey := []
  mailboxes : Table Mailbox := []
  /-- Private keys of Alias and HeatSign and the hash of the DeviceID public key, as the boot derived them (R713-R716). -/
  aliasEc : List Byte := []
  aliasMl : List Byte := []
  heatEc : List Byte := []
  heatMl : List Byte := []
  deviceHash : List Byte := []
  mConfig : List Byte := []
  /-- The UDS fuses are locked (R712). -/
  udsLocked : Bool := false
  deriving DecidableEq, Repr

end Sys2Proof.Machine
end

