-- ==== Sys2Proof/Machine/State.lean ====
section
/-! DEFINITION. The state of the block, the reasons a step can stop, and the state right after reset. -/
namespace Sys2Proof.Machine

/-- Faults of a step. None: the manual gives every command an effect on State, errors included (04 R216). -/
inductive Fault where
  deriving DecidableEq, Repr

/-- Refusals of a step. -/
inductive Refusal where
  /-- Raised by the dispatch for a command without a meaning; safe. -/
  | notModelled (mnemonic : String)
  deriving DecidableEq, Repr

/-- The state of the package. -/
structure State where
  /-- Commands waiting, first in, first out (the block's queue). -/
  pending : List Instr := []
  /-- Everything sent to the outside so far, oldest first (the model's own; log entry 5). -/
  out : List Emit := []
  /-- Number of free values drawn so far (the model's own; log entry 2). -/
  fresh : Nat := 0
  /-- Stored register fields that differ from their reset value (21 R964). -/
  regs : Table Word64 := []
  top : Top := {}
  cad : Cad := {}
  sct : Sct := {}
  rings : Rings := {}
  mem : Mem := {}
  /-- Tier-mover commands, the one being served first (05). -/
  mover : List Mover := []
  wake : Table WakeQ := []
  err : Err := {}
  rst : Rst := {}
  pci : Pci := {}
  cxl0 : CxlPort := {}
  cxl1 : CxlPort := {}
  eth : Table EthPort := []
  /-- Contexts, launches and crews (12, 13). -/
  scl : Sculls := {}
  /-- Heat pools and slots (06, 07). -/
  heat : Heats := {}
  /-- Lattice engines (09). -/
  lat : Table LatEngine := []
  /-- Entropy source and expanders (08). -/
  rng : Rng := {}
  /-- Queue pairs, domains and keys (10). -/
  rdma : Rdma := {}
  /-- Chord links, transfers and folds (11). -/
  chord : Chord := {}
  /-- Sealed mode (14). -/
  sealing : Seal := {}
  /-- The pair (18) and the output pins (20). -/
  pair : Pair := {}
  pins : Pins := {}
  deriving DecidableEq, Repr

/-- The machine right after reset (the Reset columns of the register tables; 02 R105, 03 R126, 19 R926). -/
def State.reset : State := {}

end Sys2Proof.Machine
end

