-- ==== Sys2Proof/Machine/Ops.lean ====
section
/-! DEFINITION. The shared operations over State: registers and counters, what is sent, memory bytes and poison, wake-queue
pushes, error records, ownership, and the running of command packets. -/
namespace Sys2Proof.Machine

/-- The three outcomes of a meaning. -/
abbrev Out := Host.Outcome State Fault Refusal

/-! ### Status codes (04 R216) -/

abbrev stOk : Nat := 0x0000
abbrev stBadOpcode : Nat := 0x0101
abbrev stBadLength : Nat := 0x0102
abbrev stBadParam : Nat := 0x0103
abbrev stNotPermitted : Nat := 0x0201
abbrev stKeyInvalid : Nat := 0x0202
abbrev stKeyBounds : Nat := 0x0203
abbrev stNoResource : Nat := 0x0301
abbrev stRngStarved : Nat := 0x0302
abbrev stBadState : Nat := 0x0401
abbrev stDuplicate : Nat := 0x0402
abbrev stDeadlinePassed : Nat := 0x0403
abbrev stAdrift : Nat := 0x0404
abbrev stPoisoned : Nat := 0x0501
abbrev stIntegrityFail : Nat := 0x0502
abbrev stContextKilled : Nat := 0x0503
abbrev stHwFault : Nat := 0x0504
abbrev stRetryPower : Nat := 0x0601
abbrev stRetryBusy : Nat := 0x0602
abbrev stPreempted : Nat := 0x0603
abbrev stSealedForbids : Nat := 0x0701
abbrev stAttestFail : Nat := 0x0702

/-! ### Registers and counters -/

/-- Stored bits of a register instance. -/
def rget (s : State) (r : Reg) (i : Nat := 0) (j : Nat := 0) : Nat := regGet s.regs r i j

/-- A field of a register instance. -/
def rfield (s : State) (r : Reg) (i lo w : Nat) : Nat := bitsOf (rget s r i) lo w

/-- A register instance written. -/
def rput (s : State) (r : Reg) (i j v : Nat) : State := { s with regs := regPut s.regs r i j v }

/-- A counting field of width `w` at `lo` raised by `n`, saturating (00 R972). -/
def bumpField (s : State) (r : Reg) (i lo w n : Nat) : State :=
  let v := rget s r i
  rput s r i 0 (setBits v lo w (satAdd w (bitsOf v lo w) n))

/-- A 32-bit event counter raised by one (00 R972). -/
def bump (s : State) (r : Reg) (i : Nat := 0) : State := bumpField s r i 0 32 1

/-! ### Sending and free values -/

/-- Something sent to the outside. -/
def emit (e : Emit) (s : State) : State := { s with out := s.out ++ [e] }

/-- The next free value, and the state after it was drawn (log entry 2). -/
def drawFree (s : State) : Nat × State := (Config.freeNat s.fresh, { s with fresh := s.fresh + 1 })

/-! ### The address map (05 R222) -/

/-- Where a local DPA lies (05 R222). -/
inductive Region where
  | near
  | far
  | lake
  | hub
  | lattice
  | localMem
  | registers
  | hole
  deriving DecidableEq, Repr

/-- MEM.FAR_CFG.INTERLEAVE. -/
def interleaved (s : State) : Bool := (rget s .memFarCfg).testBit 0

/-- Size of the far tier in bytes with interleave on (05 R234). -/
def farInterleavedSize (m : Mem) : Nat := 2 * min m.farCap.1 m.farCap.2 * 2 ^ 30

/-- Whether a DPA lies in the installed far tier (05 R222, R234, R235). -/
def inFar (s : State) (a : Nat) : Bool :=
  if interleaved s then 0x010000000000 ≤ a && a < 0x010000000000 + farInterleavedSize s.mem
  else (0x010000000000 ≤ a && a < 0x010000000000 + s.mem.farCap.1 * 2 ^ 30)
    || (0x030000000000 ≤ a && a < 0x030000000000 + s.mem.farCap.2 * 2 ^ 30)

/-- The region of a local DPA (05 R222). -/
def regionOf (s : State) (a : Nat) : Region :=
  if a < 0x008000000000 then .near
  else if inFar s a then .far
  else if 0x080000000000 ≤ a && a < 0x080010000000 then .lake
  else if 0x080010000000 ≤ a && a < 0x080013000000 then .hub
  else if 0x080020000000 ≤ a && a < 0x080040000000 then
    if (a - 0x080020000000) % 0x04000000 < 40 * 2 ^ 20 then .lattice else .hole
  else if 0x080040000000 ≤ a && a < 0x080044000000 then .localMem
  else if 0x0C0000000000 ≤ a && a < 0x0C0004000000 then .registers
  else .hole

/-- Package channel of a near-tier line (05 R226, R227). -/
def hbmChannel (a : Nat) : Nat :=
  let stack := (a / 2 ^ 30) % 8
  stack * 32 + (bitsOf a 8 5 ^^^ bitsOf a 13 5)

/-- Lake bank index, die × 512 + bank (05 R230, 17 R846). -/
def lakeBank (a : Nat) : Nat :=
  (if a < 0x080008000000 then 0 else 512) + bitsOf a 6 8

/-! ### Memory bytes and poison -/

/-- The byte a cell list holds at an address; an unlisted byte is zero. -/
def cellAt (cells : List (Nat × Byte)) (a : Nat) : Byte := (Table.find cells a).getD 0

/-- A byte written into a cell list in canonical form: a zero byte is not listed. -/
def cellPut (cells : List (Nat × Byte)) (a : Nat) (b : Byte) : List (Nat × Byte) :=
  if b = 0 then Table.drop cells a else Table.put cells a b

/-- Consecutive bytes written into a cell list. -/
def cellsPut (cells : List (Nat × Byte)) (a : Nat) : List Byte → List (Nat × Byte)
  | [] => cells
  | b :: bs => cellsPut (cellPut cells a b) (a + 1) bs

/-- The canonical form of memory: addresses strictly rising, no entry zero. -/
def cellsWf : List (Nat × Byte) → Bool
  | [] => true
  | [(_, b)] => b != 0
  | (a, b) :: (a', b') :: t => b != 0 && decide (a < a') && cellsWf ((a', b') :: t)

/-- Memory is in canonical form. -/
def Mem.wf (m : Mem) : Bool := cellsWf m.cells

/-- Bytes of memory from an address, whatever their poison. -/
def peek (s : State) (a n : Nat) : List Byte := (List.range n).map (fun i => cellAt s.mem.cells (a + i))

/-- Bytes of memory written, whatever their poison. -/
def poke (s : State) (a : Nat) (bs : List Byte) : State :=
  { s with mem := { s.mem with cells := cellsPut s.mem.cells a bs } }

/-- A number inserted into a rising list. -/
def insertNat (n : Nat) : List Nat → List Nat
  | [] => [n]
  | m :: t => if n < m then n :: m :: t else if n = m then m :: t else m :: insertNat n t

/-- Whether the line that holds an address is poisoned (05 R249, R265). -/
def poisonedAt (s : State) (a : Nat) : Bool := s.mem.poison.contains (a / 64)

/-- The line that holds an address marked poisoned, with zero data in the near tier (05 R263, 17 R844). -/
def poisonLine (s : State) (a : Nat) : State :=
  { s with mem := { s.mem with poison := insertNat (a / 64) s.mem.poison } }

/-- The line that holds an address no longer poisoned (05 R266). -/
def unpoison (s : State) (a : Nat) : State :=
  { s with mem := { s.mem with poison := s.mem.poison.filter (· ≠ a / 64) } }

/-- Zeros written to whole lines of a range by full-line writes: the bytes are zero and the lines not poisoned (05 R266). -/
def zeroFill (s : State) (base size : Nat) : State :=
  { s with mem := { s.mem with
      cells := s.mem.cells.filter (fun c => c.1 < base || base + size ≤ c.1)
      poison := s.mem.poison.filter (fun l => l * 64 < base || base + size ≤ l * 64) } }

/-! ### Ownership (03) -/

/-- A sector's entry. -/
def sectorOf (s : State) (n : Nat) : Sector := Table.getD s.sct.sectors n {}

/-- Resources a table gives to a sector, as a bitmap. -/
def ownedMask (t : Table Nat) (n : Nat) : Nat := bitMask ((t.filter (fun e => e.2 = n)).map Prod.fst)

/-- Whether a sector is losing a resource under the sector command in progress, from its commit point until ownership changes
(03 R135). -/
def losing (s : State) (kind i : Nat) : Bool :=
  match s.sct.cmd with
  | none => false
  | some c =>
    c.step < 6 &&
    match c.op with
    | .power => false
    | .stop =>
      (kind = 1 && Table.find s.sct.eights i = some c.target) || (kind = 2 && Table.find s.sct.engines i = some c.target)
        || (kind = 8 && Table.find s.sct.wake i = some c.target)
        || (kind = 3 && Table.find s.sct.hbm i = some c.target) || (kind = 4 && Table.find s.sct.lake i = some c.target)
    | _ =>
      c.moves.any (fun m =>
        m.src ≠ 0xFF && m.kind = kind
          && (if kind = 3 || kind = 4 then m.value ≤ i && i < m.value + m.set
              else (kind = 1 || kind = 2 || kind = 8) && m.set.testBit i))

/-- Whether a resource is departing for drain and kill: a sector loses it, or it is an eight of a sector whose mode changes (R136,
R139). -/
def departing (s : State) (kind i : Nat) : Bool :=
  losing s kind i || (match s.sct.cmd with
    | none => false
    | some c => c.step < 6 && kind = 1 && (c.op = .shift || c.op = .define)
        && c.moves.any (fun m => m.kind = 9 && Table.find s.sct.eights i = some m.src))

/-- Whether the granules of a kind that a range touches all belong to a sector and none is leaving it (R135). -/
def granulesOwned (s : State) (kind n size base a len : Nat) : Bool :=
  let g0 := (a - base) / size
  let g1 := (a - base + (len - 1)) / size
  let t := if kind = 3 then s.sct.hbm else s.sct.lake
  (List.range (g1 - g0 + 1)).all (fun i => Table.find t (g0 + i) = some n && !losing s kind (g0 + i))

/-- Whether a non-empty range lies wholly in HBM or lake granules that a sector owns. -/
def ownsRange (s : State) (n a len : Nat) : Bool :=
  if a < 0x008000000000 then
    a + len ≤ 0x008000000000 && granulesOwned s 3 n (2 ^ 30) 0 a len
  else
    0x080000000000 ≤ a && a + len ≤ 0x080010000000
      && granulesOwned s 4 n (2 ^ 21) 0x080000000000 a len

/-- Owner of the resource at a DPA: a sector, or 0xFF (17 R846). -/
def ownerAt (s : State) (a : Nat) : Nat :=
  if a < 0x008000000000 then (Table.find s.sct.hbm (a / 2 ^ 30)).getD 0xFF
  else if 0x080000000000 ≤ a && a < 0x080010000000 then
    (Table.find s.sct.lake ((a - 0x080000000000) / 2 ^ 21)).getD 0xFF
  else if 0x080020000000 ≤ a && a < 0x080040000000 then
    (Table.find s.sct.engines ((a - 0x080020000000) / 0x04000000)).getD 0xFF
  else if 0x080040000000 ≤ a && a < 0x080044000000 then
    (Table.find s.sct.eights ((a - 0x080040000000) / 0x200000)).getD 0xFF
  else 0xFF

/-- Power state of an eight (kind 1) or a lattice engine (kind 2). -/
def powerOf (s : State) (kind i : Nat) : Power :=
  Table.getD (if kind = 1 then s.rst.eightPower else s.rst.enginePower) i .on

/-- Whether a power transition of the resource is in progress (16 R835). -/
def inTransition (s : State) (kind i : Nat) : Bool :=
  s.rst.transitions.any (fun t => t.kind = kind && t.index = i && t.begun)

/-- Whether the fabric gate of an eight or an engine is open (16, Gate-then-drain). -/
def gateOpen (s : State) (kind i : Nat) : Bool :=
  powerOf s kind i = .on && !inTransition s kind i

/-- TOP.AVAIL_EIGHTS, computed from the sculls (01 R40). -/
def availEights (t : Top) : Nat :=
  bitMask ((List.range 32).filter (fun e => bitsOf t.sculls (8 * e) 8 ≠ 0))

/-- The number of the package (01 R47). -/
def pkgNumber (s : State) : Nat := s.rst.straps.pkgSlot

/-! ### Wake queues: entering words (19) -/

/-- A wake queue; queues 0 and 63 are LOG after a reset (19 R926). -/
def wakeOf (s : State) (q : Nat) : WakeQ :=
  Table.getD s.wake q (if q = 0 || q = 63 then { kind := 2 } else {})

/-- A wake queue replaced. -/
def setWake (s : State) (q : Nat) (w : WakeQ) : State := { s with wake := Table.put s.wake q w }

/-- Number of packets that have a word in a list of wide words, a first word without SOP counting as one (19 R911). -/
def packetsIn (ws : List WideWord) : Nat :=
  ws.countP (·.sop) + (match ws with | w :: _ => if w.sop then 0 else 1 | [] => 0)

/-- A closed wide word stored in the filling bank, with the swap or the discard of 19 R910 and R911; the second result is
the number of packets lost. -/
def storeWide (w : WakeQ) (x : WideWord) : WakeQ × Nat :=
  let add (b : Bank) : Bank :=
    if b.words = [] && b.written = 512 then { written := 1, words := [x] }
    else if b.words = [] then { written := 1, words := [x] }
    else { written := b.written + 1, words := b.words ++ [x] }
  if w.filling.written < 512 || w.filling.words = [] then ({ w with filling := add w.filling }, 0)
  else if w.older.words = [] then ({ w with older := w.filling, filling := { written := 1, words := [x] } }, 0)
  else ({ w with older := w.filling, filling := { written := 1, words := [x] } }, packetsIn w.older.words)

/-- The partly filled word closed (19 R906, R907). -/
def closeWord (w : WakeQ) (eop : Bool) : WakeQ × Nat :=
  let r := storeWide w { payload := w.partialWords, sop := w.partialSop, eop := eop, seq := w.nextSeq }
  ({ r.1 with partialWords := [], partialSop := false, nextSeq := (w.nextSeq + 1) % 65536 }, r.2)

/-- One narrow word entering a queue, with its packet marks (19 R906, R923). -/
def enterWord (w : WakeQ) (x : Word32) (sop eop : Bool) : WakeQ × Nat :=
  if w.dropping && !sop then
    (if eop then { w with dropping := false } else w, 0)
  else
    let w := { w with dropping := false }
    let (w, l0) := if sop && w.partialWords ≠ [] then closeWord w false else (w, 0)
    let w := { w with partialSop := if w.partialWords = [] then sop else w.partialSop
                      partialWords := w.partialWords ++ [x] }
    if eop || w.partialWords.length = 7 then
      let (w, l1) := closeWord w eop
      (w, l0 + l1)
    else (w, l0)

/-- Narrow words entering a queue together (19 R908). -/
def enterWords (w : WakeQ) : List (Word32 × Bool × Bool) → WakeQ × Nat
  | [] => (w, 0)
  | (x, sop, eop) :: t =>
    let (w1, l1) := enterWord w x sop eop
    let (w2, l2) := enterWords w1 t
    (w2, l1 + l2)

/-- Narrow words pushed to queue `q`, lost packets counted in WAKE.LOSTq (19 R911). -/
def wakePush (q : Nat) (ws : List (Word32 × Bool × Bool)) (s : State) : State :=
  let (w, lost) := enterWords (wakeOf s q) ws
  bumpField (setWake s q w) .wakeLost q 0 32 lost

/-- One packet of narrow words: the first carries SOP, the last EOP. -/
def packetOf (ws : List Word32) : List (Word32 × Bool × Bool) :=
  (ws.zip (List.range ws.length)).map (fun p => (p.1, p.2 == 0, p.2 + 1 == ws.length))

/-- Little-endian bytes as narrow words. -/
def narrowWords : List Byte → List Word32
  | a :: b :: c :: d :: t => BitVec.ofNat 32 (leNat [a, b, c, d]) :: narrowWords t
  | _ => []

/-- A device log record of a type and 24 body bytes written to the queue named for it, or discarded and counted in
WAKE.MISROUTED (19 R925, R927). -/
def logRecord (queue typ : Nat) (body : List Byte) (s : State) : State :=
  let w := wakeOf s queue
  let owner := Table.find s.sct.wake queue
  if w.kind = 2 && (owner = none || owner = some 0) then
    let header := typ + 256 + pkgNumber s * 2 ^ 16
    wakePush queue (packetOf (BitVec.ofNat 32 header :: narrowWords (padTo 24 body))) s
  else bump s .wakeMisrouted

/-- A queue emptied (19 R931): words, latches and discarding gone, SEQ restarts, WAKE.LOSTq cleared. -/
def emptyWake (q : Nat) (s : State) : State :=
  let w := wakeOf s q
  rput (setWake s q { kind := w.kind, emptyMode := w.emptyMode, perfSelect := w.perfSelect, period := w.period })
    .wakeLost q 0 0

/-! ### Error records (17 R846-R854) -/

/-- One step of CRC-32 with the IEEE 802.3 polynomial, reflected. -/
def crcStep (c : Nat) : Nat := if c.testBit 0 then (c >>> 1) ^^^ 0xEDB88320 else c >>> 1

/-- CRC-32 over bytes, initial value and final exclusive or all ones (17 R846). -/
def crc32 (bs : List Byte) : Nat :=
  (bs.foldl (fun c b => (List.range 8).foldl (fun c _ => crcStep c) (c ^^^ b.toNat)) 0xFFFFFFFF) ^^^ 0xFFFFFFFF

/-- What an error record says, apart from its number, time and check (17 R846). -/
structure Rec where
  source : Nat
  severity : Nat
  injected : Bool := false
  followUp : Bool := false
  sector : Nat := 0xFF
  kind : Nat := 0
  index : Nat := 0
  status : Nat := 0
  test : Nat := 0
  action : Nat := 0
  addr : Nat := 0
  d0 : Nat := 0
  d1 : Nat := 0
  ref : Nat := 0
  /-- ADDRESS names memory of a sector, so that sealed mode shortens it (17 R848). -/
  memAddr : Bool := false
  deriving DecidableEq, Repr

/-- The 64 bytes of a record (17 R846). -/
def recBytes (r : Rec) (seq addr : Nat) (s : State) : List Byte :=
  let body := leBytes 4 seq ++ leBytes 2 r.source ++ leBytes 1 r.severity
    ++ leBytes 1 (bitNat r.injected + 2 * bitNat r.followUp + 4 * bitNat s.sealing.sealed + 8 * bitNat s.err.lostBefore)
    ++ leBytes 8 s.cad.stroke ++ leBytes 8 s.cad.timeNs ++ leBytes 1 r.sector ++ leBytes 1 r.kind ++ leBytes 2 r.index
    ++ leBytes 2 r.status ++ leBytes 1 r.test ++ leBytes 1 r.action ++ leBytes 8 addr ++ leBytes 8 r.d0 ++ leBytes 8 r.d1
    ++ leBytes 4 r.ref
  body ++ leBytes 4 (crc32 body)

/-- An error record written (17 R846-R854; 20 R946): it takes the next SEQ, goes to ERR.LAST, to ERR.SECTOR_LAST of the
sector it names and to wake queue 63 (a held copy before BOOT_DONE), and counts in its severity's counter. -/
def writeRecord (r : Rec) (s : State) : State :=
  if !s.rst.bootDone && s.err.heldCopies.length ≥ 256 then
    bump { s with err := { s.err with lostBefore := true } } .errLost
  else
    let seq := (s.err.seq + 1) % 2 ^ 32
    let shown := if s.sealing.sealed && r.memAddr then r.addr / 2 ^ 21 * 2 ^ 21 else r.addr
    let pub := recBytes r seq shown s
    let full := recBytes r seq r.addr s
    let err := { s.err with
      seq := seq
      lostBefore := false
      last := pub
      sectorLast := if r.sector < 8 then Table.put s.err.sectorLast r.sector full else s.err.sectorLast
      heldCopies := if s.rst.bootDone then s.err.heldCopies else s.err.heldCopies ++ [pub] }
    let s := { s with err := err }
    let s := if s.rst.bootDone then wakePush 63 (packetOf (narrowWords pub)) s else s
    let s := if r.source = 0x0A05 && r.severity ≥ 2 then { s with pins := { s.pins with smbAlert := true } } else s
    if r.severity = 1 then bump s .errCorrected
    else if r.severity = 2 then bump s .errUncorrected
    else if r.severity = 3 then bump s .errFatal
    else s

/-- An EVENT record with no resource (17 R843). -/
def eventRecord (source sector status addr : Nat) (s : State) : State :=
  writeRecord { source := source, severity := 0, sector := sector, status := status, addr := addr } s

/-! ### Command packets in flight (04) -/

/-- Field of `n` bytes at an offset of a command packet. -/
def Cmd.param (c : Cmd) (off n : Nat) : Nat := fieldLE c.bytes off n

/-- Header fields (04 R152). -/
def Cmd.opcode (c : Cmd) : Nat := c.param 0 2
def Cmd.flags (c : Cmd) : Nat := c.param 2 1
def Cmd.units (c : Cmd) : Nat := c.param 3 1
def Cmd.tag (c : Cmd) : Nat := c.param 4 4
def Cmd.sector (c : Cmd) : Nat := c.param 8 1
def Cmd.notBefore (c : Cmd) : Nat := c.param 16 8
def Cmd.fence (c : Cmd) : Bool := c.flags.testBit 0
def Cmd.notify (c : Cmd) : Bool := c.flags.testBit 1
def Cmd.lockstep (c : Cmd) : Bool := c.flags.testBit 2

/-- Whether the listed byte ranges (first byte, one past the last) of a packet are zero (00 R17). -/
def Cmd.reserved (c : Cmd) (rs : List (Nat × Nat)) : Bool := rs.all (fun r => zeroRange c.bytes r.1 r.2)

/-- Whether a command was issued through the physical function (04 R173). -/
def Cmd.viaPf (c : Cmd) : Bool := c.fn == .pf

/-- Why a command is refused: status and results (04 R155, R216). -/
structure Refuse where
  status : Nat
  r0 : Nat := 0
  r1 : Nat := 0
  deriving DecidableEq, Repr

/-- How the execution of a command begins: done at once with status and results, or running until an event ends it. -/
inductive Begun where
  | done (status r0 r1 : Nat) (s : State)
  | running (s : State)
  /-- The command waits to begin, since the device waits for a seed first (08 R421). -/
  | later (s : State)

/-- The body of a command: refused, done or running. -/
abbrev Body := Except Refuse Begun

/-- A check: refused with a status when the condition is false. -/
def need (ok : Bool) (status : Nat) (r0 : Nat := 0) : Except Refuse Unit :=
  if ok then .ok () else .error { status := status, r0 := r0 }

/-- A ring; an unlisted one is DISABLED. -/
def ringOf (s : State) (i : Nat) : Ring := Table.getD s.rings.table i {}

/-- A ring replaced. -/
def setRing (s : State) (i : Nat) (r : Ring) : State :=
  { s with rings := { s.rings with table := Table.put s.rings.table i r } }

/-- Every ring's in-flight commands changed by a function. -/
def mapInflight (f : Cmd → Cmd) (s : State) : State :=
  { s with rings := { s.rings with
      table := s.rings.table.map (fun e => (e.1, { e.2 with inflight := e.2.inflight.map f })) } }

/-- The command with a serial number takes a phase, unless it is done. -/
def setPhase (serial : Nat) (p : Phase) (s : State) : State :=
  mapInflight (fun c => if c.serial = serial then
    (match c.phase with
      | .done _ _ _ => c
      | _ => { c with phase := p }) else c) s

/-- The command with a serial number is done with a status and results, unless it was done before. -/
def finish (serial status r0 r1 : Nat) (s : State) : State :=
  mapInflight (fun c => if c.serial = serial then
    (match c.phase with
      | .done _ _ _ => c
      | _ => { c with phase := .done status r0 r1 }) else c) s

/-- Every command with one of the serial numbers is done with a status and results. -/
def finishAll (serials : List Nat) (status r0 r1 : Nat) (s : State) : State :=
  serials.foldl (fun s n => finish n status r0 r1 s) s

/-- The in-flight command with a serial number. -/
def cmdOf (s : State) (serial : Nat) : Option Cmd :=
  (s.rings.table.flatMap (fun e => e.2.inflight)).find? (·.serial = serial)

/-- The first command of a ring that waits to begin, and whether commands stand before it (04 R195). -/
def firstWaiting : List Cmd → Bool → Option (Cmd × Bool)
  | [], _ => none
  | c :: cs, behind =>
    match c.phase with
    | .waiting => some (c, behind)
    | _ => firstWaiting cs true

/-- Whether a class 0x01 command other than this one is in progress (03 R132, 16 R833). -/
def sectorBusy (s : State) : Bool := s.sct.cmd.isSome

/-- The command of a ring that may begin now: in ring order (04 R195), a FENCE command only at the head (R196), a deferred
one only when due (02 R79), a LOCKSTEP one not while ADRIFT (02 R81), a class 0x01 one not while another runs (03 R132). -/
def nextToBegin (s : State) (ring : Nat) : Option Cmd :=
  match firstWaiting (ringOf s ring).inflight false with
  | none => none
  | some (c, behind) =>
    if c.fence && behind then none
    else if c.due.isNone then none
    else if c.lockstep && s.cad.state = .adrift then none
    else if c.opcode / 256 = 1 && sectorBusy s then none
    else some c

/-- Refusals that stand before a command's own checks: ARMED (14 R703) and DETACHED (18 R900) refuse every command but
NOP and IDENTIFY. -/
def commandGate (s : State) (opcode : Nat) : Option Nat :=
  if (s.sealing.armed || s.pair.state = .detached) && opcode ≠ 0x0001 && opcode ≠ 0x0002 then some stBadState else none

/-- The outcome of a body recorded at the command; a refusal for a closed gate counts in PWR.REFUSED (16 R836). -/
def settle (serial : Nat) (s : State) : Body → State
  | .error r => finish serial r.status r.r0 r.r1 (if r.status = stRetryPower then bump s .pwrRefused else s)
  | .ok (.done st r0 r1 s') => finish serial st r0 r1 s'
  | .ok (.later s') => s'
  | .ok (.running s') => setPhase serial .running s'

/-- The next command of a ring begins execution, when it may begin and its opcode is the row's; otherwise nothing happens
(log entry 6). -/
def beginCommand (opcode ring : Nat) (body : Cmd → State → Body) (s : State) : State :=
  match nextToBegin s ring with
  | none => s
  | some c =>
    if c.opcode ≠ opcode then s
    else
      match commandGate s opcode with
      | some st => finish c.serial st 0 0 s
      | none => settle c.serial s (body c s)

/-! ### Injection points (17 R867-R870, R983) -/

/-- One firing of an armed slot: counted, and the slot disarmed with its last firing (17 R868, R870). -/
def fireSlot (k : Nat) (s : State) : State :=
  let s := bump s .injFired
  match Table.find s.err.slots k with
  | none => s
  | some i =>
    let slots := if i.left ≤ 1 then Table.drop s.err.slots k else Table.put s.err.slots k { i with left := i.left - 1 }
    { s with err := { s.err with slots := slots } }

/-- A point of a resource that fires at an event of its kind: whether it fired, whether it persists, and the state. The
lowest slot fires. -/
def firePoint (point target : Nat) (s : State) : Bool × Bool × State :=
  match s.err.slots.find? (fun e => e.2.point = point && e.2.target = target) with
  | none => (false, false, s)
  | some (k, i) => (true, i.mode = 2, fireSlot k s)

/-! ### Host memory (03 R125, 14 R729-R734, 15 R763) -/

/-- The bounce window of a sector and direction whose slots hold a range that starts at a slot: its number, the window
and the first slot (14 R734). -/
def windowFor (ss : SealSector) (d2h : Bool) (addr len : Nat) : Option (Nat × Window × Nat) :=
  (ss.windows.find? (fun e => e.2.d2h = d2h && e.2.dataBase ≤ addr && (addr - e.2.dataBase) % 4096 = 0
      && addr + len ≤ e.2.dataBase + 4096 * e.2.slots)).map
    (fun e => (e.1, e.2, (addr - e.2.dataBase) / 4096))

/-- A sector's sealed-mode state. -/
def sealOf (s : State) (n : Nat) : SealSector := Table.getD s.sealing.sectors n {}

/-- A sector's sealed-mode state replaced. -/
def setSeal (s : State) (n : Nat) (x : SealSector) : State :=
  { s with sealing := { s.sealing with sectors := Table.put s.sealing.sectors n x } }

/-- Associated data of a record (14 R730). -/
def recordAad (sector : Nat) (d2h : Bool) (window slot len : Nat) : List Byte :=
  leBytes 1 sector ++ leBytes 1 (bitNat d2h) ++ leBytes 1 window ++ leBytes 1 0 ++ leBytes 4 slot ++ leBytes 4 len

/-- IV of a record: SALT ‖ COUNTER (14 R730). -/
def recordIv (keys : List Byte) (counter : Nat) : List Byte := keys.drop 32 ++ leBytes 8 counter

/-- One device-to-host record written: slot data, then its tag entry (14 R730, R733). -/
def writeRecordSlot (n window slot : Nat) (w : Window) (plain : List Byte) (s : State) : State :=
  let ss := sealOf s n
  let keys := ss.d2h.getD []
  let sealed := Config.gcmSeal (keys.take 32) (recordIv keys ss.nextCounter)
    (recordAad n true window slot plain.length) plain
  let entry := leBytes 8 ss.nextCounter ++ leBytes 4 plain.length ++ leBytes 4 0 ++ sealed.drop plain.length
  let s := setSeal s n { ss with nextCounter := ss.nextCounter + 1 }
  emit (.hostWrite (.vf n) (w.tagBase + 32 * slot) entry)
    (emit (.hostWrite (.vf n) (w.dataBase + 4096 * slot) (sealed.take plain.length)) s)

/-- An object written into consecutive records from a slot; `fuel` bounds the number of records. -/
def writeRecords (n window : Nat) (w : Window) : Nat → Nat → List Byte → State → State
  | 0, _, _, s => s
  | fuel + 1, slot, bs, s =>
    if bs = [] then s
    else writeRecords n window w fuel (slot + 1) (bs.drop 4096) (writeRecordSlot n window slot w (bs.take 4096) s)

/-- A write to host memory on behalf of a sector (03 R125): in sealed mode through device-to-host records, else plain. It is
refused with SEALED_FORBIDS outside the windows (14 R734) and with HW_FAULT while the host link is down. -/
def hostWrite (n addr : Nat) (bs : List Byte) (s : State) : Except Nat State :=
  if s.sealing.sealed then
    match windowFor (sealOf s n) true addr bs.length with
    | none => .error stSealedForbids
    | some (i, w, slot) =>
      if s.pci.linkUp then .ok (writeRecords n i w (bs.length / 4096 + 1) slot bs s) else .error stHwFault
  else if s.pci.linkUp then .ok (emit (.hostWrite (.vf n) addr bs) s)
  else .error stHwFault

/-- Whether a host address may be used for a transfer of a sector: always unsealed, inside a window sealed (14 R734). -/
def hostAllowed (s : State) (n : Nat) (d2h : Bool) (addr len : Nat) : Bool :=
  !s.sealing.sealed || (windowFor (sealOf s n) d2h addr len).isSome

/-- One host-to-device record opened (14 R730, R731): `raw` is the slot's 4,096 bytes and its 32-byte tag entry. -/
def openRecord (n window slot : Nat) (raw : List Byte) (s : State) : Option (List Byte) × State :=
  let ss := sealOf s n
  let entry := raw.drop 4096
  let counter := fieldLE entry 0 8
  let len := fieldLE entry 8 4
  let keys := ss.h2d.getD []
  let w := Table.getD ss.windows window {}
  let plain := if ss.h2d.isNone || len = 0 || 4096 < len || counter < Table.getD w.counters slot 0 then none
    else Config.gcmOpen (keys.take 32) (recordIv keys counter) (recordAad n false window slot len)
      ((raw.take len) ++ sliceBytes entry 16 16)
  match plain with
  | none => (none, bump s .sealRecordFails)
  | some p =>
    let w' := { w with counters := Table.put w.counters slot counter }
    (some p, setSeal s n { ss with windows := Table.put ss.windows window w' })

/-- Consecutive host-to-device records opened and joined. -/
def openRecords (n window : Nat) : Nat → Nat → List Byte → State → Option (List Byte) × State
  | 0, _, _, s => (some [], s)
  | k + 1, slot, raw, s =>
    match openRecord n window slot (raw.take 4128) s with
    | (none, s) => (none, s)
    | (some p, s) =>
      match openRecords n window k (slot + 1) (raw.drop 4128) s with
      | (none, s) => (none, s)
      | (some q, s) => (some (p ++ q), s)

/-- The bytes of a read of host memory that failed, counted and logged under AER (15 R765). -/
def hostReadFail (h : HostRead) (s : State) : State :=
  let s := match h with
    | .timeout => bump s .pciCplTimeouts
    | .poisoned => bump s .pciPoisonRx
    | _ => s
  let (fired, _, s) := firePoint 0x0802 0 s
  writeRecord { source := 0x0802, severity := 2, injected := fired, kind := 9, status := stHwFault } s

/-- A read of host memory by a command of a sector: the bytes, or the status that ends the command (14 R731, 15 R765). In
sealed mode the outside supplies the records of the slots. -/
def hostRead (n addr len : Nat) (h : HostRead) (s : State) : Except Nat (List Byte) × State :=
  match h with
  | .data raw =>
    if s.sealing.sealed then
      match windowFor (sealOf s n) false addr len with
      | none => (.error stSealedForbids, s)
      | some (i, _, slot) =>
        match openRecords n i (ceilDiv len 4096) slot raw s with
        | (none, s) => (.error stIntegrityFail, s)
        | (some p, s) => (.ok (padTo len p), s)
    else (.ok (padTo len raw), s)
  | _ => (.error stHwFault, hostReadFail h s)

end Sys2Proof.Machine
end

