-- ==== Sys2Proof/Machine/Rings.lean ====
section
/-! DEFINITION. Rings, doorbells, the fetch of commands with the header checks, completions, interrupts, and the ring and
administrative commands (chapter 04 of spec/; 15 R756-R762). -/
namespace Sys2Proof.Machine

/-! ### Interrupts (15 R759-R762, 04 R201) -/

/-- A function's configuration space, by key 0 for the physical function and n + 1 for virtual function n. -/
def fnKey : Fn → Nat
  | .pf => 0
  | .vf n => n + 1

/-- A function's configuration state. -/
def fnOf (s : State) (f : Fn) : FnConfig := Table.getD s.pci.fns (fnKey f) {}

/-- A function's configuration state replaced. -/
def setFn (s : State) (f : Fn) (c : FnConfig) : State :=
  { s with pci := { s.pci with fns := Table.put s.pci.fns (fnKey f) c } }

/-- Entries of a function's MSI-X table (15 R759). -/
def msixSize : Fn → Nat
  | .pf => 2048
  | .vf _ => 256

/-- A message raised for a vector: sent, held as a pending bit while masked, or not sent (15 R760, R762). -/
def raiseMsix (f : Fn) (vec : Nat) (s : State) : State :=
  let c := fnOf s f
  if !c.msixEnable || msixSize f ≤ vec then s
  else if c.msixMask || (Table.getD c.msix vec {}).masked then
    setFn s f { c with pendingBits := insertNat vec c.pendingBits }
  else emit (.msix f vec) s

/-- Pending messages of unmasked vectors sent, one each, in vector order (15 R762). -/
def releaseMsix (f : Fn) (s : State) : State :=
  let c := fnOf s f
  if !c.msixEnable || c.msixMask then s
  else
    let due := c.pendingBits.filter (fun v => !(Table.getD c.msix v {}).masked)
    let s := setFn s f { c with pendingBits := c.pendingBits.filter (fun v => (Table.getD c.msix v {}).masked) }
    due.foldl (fun s v => emit (.msix f v) s) s

/-! ### Ring pairs (04) -/

/-- Size of the submission ring in units, and of the completion ring in entries. -/
def Ring.sqSize (r : Ring) : Nat := 2 ^ r.sqLog2
def Ring.cqSize (r : Ring) : Nat := 2 ^ r.cqLog2

/-- Units posted and not fetched (R167). -/
def Ring.posted (r : Ring) : Nat := (r.sqTail + r.sqSize - r.sqHead) % r.sqSize

/-- Sector of a ring index (R116). -/
def ringSector (i : Nat) : Nat := i / 64

/-- An ACTIVE ring with every head and tail at zero and the next PHASE 1 (R181, R183). -/
def freshRing (r : Ring) : Ring :=
  { state := .active, cls := r.cls, hub := r.hub, sqBase := r.sqBase, cqBase := r.cqBase, sqLog2 := r.sqLog2,
    cqLog2 := r.cqLog2, vector := r.vector }

/-- A ring whose reset or destruction waited for its last completion reaches its new state, and the command that asked for
it is done (R182-R185). -/
def finishReset (i : Nat) (s : State) : State :=
  let r := ringOf s i
  match r.resetting with
  | none => s
  | some (destroy, serial, head) =>
    if r.inflight ≠ [] then s
    else
      let s := setRing s i (if destroy then {} else freshRing r)
      if serial = 0 then
        let v := rget s .cmdAdminCfg (i / 64)
        rput s .cmdAdminCfg (i / 64) 0 (setBits v 33 1 0)
      else finish serial stOk head 0 s

/-- A ring made RESETTING (R182). -/
def startReset (i : Nat) (destroy : Bool) (serial : Nat) (s : State) : State :=
  let r := ringOf s i
  let s := setRing s i { r with state := .resetting, resetting := some (destroy, serial, r.sqHead), cover := [],
                                sqTail := r.sqHead }
  finishReset i { s with rings := { s.rings with urgent := s.rings.urgent.filter (· ≠ i) } }

/-! ### Doorbells (R165-R173) -/

/-- The function a doorbell write counts as for a ring (R173). -/
def doorbellFn (i : Nat) (hub : Bool) : Doorbell → Fn
  | .page f => f
  | .mirror f => if hub then (match f with | .pf => .pf | .vf _ => .vf (i / 64)) else f
  | .peer => .vf (i / 64)
  | .firmware => .pf

/-- Whether a doorbell write reaches the ring: a virtual function only those of its sector (03 R122). -/
def doorbellReaches (i : Nat) : Doorbell → Bool
  | .page (.vf n) => n = i / 64
  | .mirror (.vf n) => n = i / 64
  | _ => true

/-- A request refused by the ingress filter: counted and recorded (03 R123). -/
def filterRefuse (fn : Fn) (off : Nat) (s : State) : State :=
  let sector := match fn with | .pf => 0xFF | .vf n => n
  bump (eventRecord 0x0B02 sector 0 off s) .pciFiltered

/-- The source of a doorbell write as a function, for a refusal's record. -/
def doorbellSource (i : Nat) : Doorbell → Fn
  | .page f => f
  | .mirror f => f
  | _ => .vf (i / 64)

/-- A doorbell write reaching a ring that takes it, or refused, dropped or discarded (R122, R170, R171, 16 R827, R829). -/
def doorbell (src : Doorbell) (i value limit : Nat) (act : Ring → Ring) (s : State) : State :=
  let r := ringOf s i
  if 512 ≤ i then s
  else if s.rst.halted then bump s .cmdDoorbellDropped
  else if !s.rst.bootDone then s
  else if !doorbellReaches i src then filterRefuse (doorbellSource i src) (i * 0x1000) s
  else if r.state = .disabled || (sectorOf s (i / 64)).state = .undefined then bump s .cmdDoorbellDropped
  else if limit ≤ value then setRing s i { r with state := .halted, haltCause := 2 }
  else setRing s i (act r)

/-- SQ_TAIL (04 R167-R173): a new submission tail. -/
def writeSqTail (src : Doorbell) (i value : Nat) (s : State) : State :=
  let r := ringOf s i
  let s' := doorbell src i value r.sqSize (fun r =>
    let n := (value + r.sqSize - r.sqTail) % r.sqSize
    { r with sqTail := value, cover := if n = 0 then r.cover else r.cover ++ [(n, doorbellFn i r.hub src)] }) s
  if (ringOf s' i).cls = 0 && (ringOf s' i).posted ≠ 0 && !s'.rings.urgent.contains i then
    { s' with rings := { s'.rings with urgent := s'.rings.urgent ++ [i] } }
  else s'

/-- CQ_HEAD (04 R161, R170-R172): completion entries released. -/
def writeCqHead (src : Doorbell) (i value : Nat) (s : State) : State :=
  doorbell src i value (ringOf s i).cqSize (fun r => { r with cqHead := value }) s

def execSqTail (src : Doorbell) (ring value : Nat) (s : State) : Out := .next (writeSqTail src ring (value % 65536) s)

def execCqHead (src : Doorbell) (ring value : Nat) (s : State) : Out := .next (writeCqHead src ring (value % 65536) s)

/-! ### The opcode table (R155 checks 4 to 6, R215) -/

/-- What checks 5 and 6 know of an opcode: least and greatest length, ring 0 only, physical function only, in the urgent
set. -/
structure OpInfo where
  least : Nat := 1
  most : Nat := 1
  ring0 : Bool := false
  pfOnly : Bool := false
  urgent : Bool := false
  deriving DecidableEq, Repr

/-- The assigned opcodes (R215 and the opcode tables of the owning chapters). -/
def opcodeTable : List (Nat × OpInfo) :=
  [(0x0001, { most := 8, urgent := true }), (0x0002, { most := 1 }), (0x0003, { pfOnly := true }),
   (0x0010, { ring0 := true }), (0x0011, { ring0 := true }), (0x0012, { ring0 := true }), (0x0013, { urgent := true }),
   (0x0101, { most := 8, pfOnly := true }), (0x0102, { most := 8, pfOnly := true }), (0x0103, { most := 8, pfOnly := true }),
   (0x0110, { most := 1 }), (0x0201, { least := 2, most := 8 }), (0x0202, { most := 1 }), (0x0203, { pfOnly := true }),
   (0x0310, { most := 1 }), (0x0311, { most := 8 }), (0x0312, { most := 1 }), (0x0313, { pfOnly := true }),
   (0x0401, { most := 1 }), (0x0402, { most := 1 }), (0x0410, { most := 1 }), (0x0411, { most := 1 })] ++
  [(0x0501, { least := 4, most := 4 }), (0x0502, { most := 1 }), (0x0503, { urgent := true }), (0x0504, { most := 1 }), (0x0505, { most := 1 }),
   (0x0510, { pfOnly := true }),
   (0x0601, { least := 2, most := 2 }), (0x0602, { urgent := true }), (0x0603, { most := 1 }), (0x0610, { most := 8 }),
   (0x0701, { most := 5 }), (0x0702, { most := 5 }), (0x0703, { most := 5 }), (0x0704, { most := 1 }), (0x0705, { pfOnly := true }),
   (0x0810, { pfOnly := true }), (0x0811, { most := 1 }), (0x0812, { most := 1 }), (0x0813, { most := 1 }), (0x0814, { most := 1 }), (0x0815, { most := 1 }), (0x0816, { most := 1 }),
   (0x0817, { most := 1 }), (0x0818, { least := 2, most := 2 }), (0x0819, { most := 1 }), (0x081A, { most := 1 }), (0x0820, { most := 2 }), (0x0821, { most := 1 })] ++
  [(0x0910, { pfOnly := true }), (0x0911, { pfOnly := true }), (0x0912, { pfOnly := true }), (0x0913, { most := 1 }), (0x0914, { most := 1 }),
   (0x0A01, { least := 2, most := 2 }), (0x0A02, { most := 1 }), (0x0A10, { most := 1 }), (0x0A11, { pfOnly := true }), (0x0A12, { pfOnly := true }),
   (0x0A13, { pfOnly := true }), (0x0A14, { most := 1 }), (0x0B01, { pfOnly := true }), (0x0B02, { pfOnly := true }),
   (0x0B10, { pfOnly := true }), (0x0C01, { pfOnly := true }), (0x0C02, { pfOnly := true }), (0x0C03, { pfOnly := true }),
   (0x0C10, { pfOnly := true }), (0x0D01, { most := 1 }), (0x0D10, { most := 1 }), (0x0D11, { most := 1 })]

/-- What is known of an opcode; none when it is not assigned. -/
def opInfo (op : Nat) : Option OpInfo := (opcodeTable.find? (·.1 = op)).map Prod.snd

/-! ### Header checks (R155, R970, R971) -/

/-- Offset of the first reserved header byte that is not zero (R155, check 3). -/
def reservedHeader (c : Cmd) : Option Nat :=
  if 8 ≤ c.flags then some 2
  else ((List.range 7).map (· + 9)).find? (fun o => c.param o 1 ≠ 0)

/-- Check 5 (R970): ring, class and submitting function. -/
def permitted (i cls : Nat) (c : Cmd) (k : OpInfo) : Bool :=
  (!k.ring0 || i % 64 = 0) && (cls ≠ 0 || k.urgent) && (!k.pfOnly || c.viaPf)

/-- Check 7 (R971). -/
def deferral (cls : Nat) (c : Cmd) (s : State) : Option Nat :=
  if c.notBefore = 0 then none
  else if cls = 0 then some stBadParam
  else if !s.cad.configured then some stBadState
  else if s.cad.stroke + 65536 < c.notBefore then some stBadParam
  else none

/-- Checks 2 to 7 of a fetched header (R155): the status and the byte offset of the first that fails. -/
def headerCheck (i cls : Nat) (c : Cmd) (s : State) : Option (Nat × Nat) :=
  if c.sector ≠ ringSector i then some (stNotPermitted, 8)
  else match reservedHeader c with
    | some o => some (stBadParam, o)
    | none =>
      match opInfo c.opcode with
      | none => some (stBadOpcode, 0)
      | some k =>
        if !permitted i cls c k then some (stNotPermitted, 0)
        else if c.units < k.least || k.most < c.units then some (stBadLength, 3)
        else (deferral cls c s).map (fun st => (st, 16))

/-- A command that enters a ring's order: done at once when a header check fails, else waiting, due at once unless it is
held for its not-before stroke (R155-R157, 02 R79). -/
def enterOrder (i : Nat) (c : Cmd) (s : State) : Cmd :=
  match headerCheck i (ringOf s i).cls c s with
  | some (st, off) => { c with phase := .done st off 0 }
  | none => { c with due := if c.notBefore = 0 then some s.cad.stroke else none }

/-! ### Fetch (R187-R191, R217) -/

/-- Whether a ring can fetch: ACTIVE, its sector not UNDEFINED, units posted, fewer than 256 in flight (R151, R191). -/
def canFetch (s : State) (i : Nat) : Bool :=
  let r := ringOf s i
  r.state = .active && (sectorOf s (i / 64)).state ≠ .undefined && r.posted ≠ 0 && r.inflight.length < 256

/-- The rings of a class that can fetch, in ring-index order. -/
def ready (s : State) (cls : Nat) : List Nat :=
  (s.rings.table.map Prod.fst).filter (fun i => (ringOf s i).cls = cls && canFetch s i)

/-- The next ring of a class after the one served last, in ring-index order (R190). -/
def nextInClass (s : State) (cls last : Nat) : Option Nat :=
  let l := ready s cls
  (l.find? (last < ·)).orElse (fun _ => l.head?)

/-- The ring the device fetches from next: URGENT rings first in doorbell order (R187), then the round of 8, 4 and 1 (R190).
The result carries the round's state after the choice. -/
def pickRing (s : State) : Option (Nat × Rings) :=
  match s.rings.urgent.find? (canFetch s) with
  | some i => some (i, s.rings)
  | none =>
    let (h, n, b) := s.rings.credits
    let (lh, ln, lb) := s.rings.lastServed
    let try_ (h n b : Nat) : Option (Nat × Rings) :=
      match if h = 0 then none else nextInClass s 1 lh with
      | some i => some (i, { s.rings with credits := (h - 1, n, b), lastServed := (i, ln, lb) })
      | none =>
        match if n = 0 then none else nextInClass s 2 ln with
        | some i => some (i, { s.rings with credits := (0, n - 1, b), lastServed := (lh, i, lb) })
        | none =>
          match if b = 0 then none else nextInClass s 3 lb with
          | some i => some (i, { s.rings with credits := (0, 0, b - 1), lastServed := (lh, ln, i) })
          | none => none
    (try_ h n b).orElse (fun _ => try_ 8 4 1)

/-- Units taken from the cover list, and the function of the first (R173). -/
def takeCover : List (Nat × Fn) → Nat → List (Nat × Fn)
  | [], _ => []
  | (n, f) :: t, k => if k < n then (n - k, f) :: t else takeCover t (k - n)

/-- The function that first covered the next unit. -/
def coverFn : List (Nat × Fn) → Fn
  | (_, f) :: _ => f
  | [] => .pf

/-- A ring halted by a failed fetch (R217). -/
def haltRing (i cause : Nat) (s : State) : State := setRing s i { ringOf s i with state := .halted, haltCause := cause }

/-- Plain bytes of the units from `head` on of a host-memory ring in sealed mode, from the records of their slots; the slots
after the first are opened only as far as `len` units need them (14 R730, R731, R734). -/
def sealedUnits (i : Nat) (r : Ring) (raw : List Byte) (s : State) : Option (List Byte) × State :=
  let n := i / 64
  match windowFor (sealOf s n) false r.sqBase (64 * r.sqSize) with
  | none => (none, s)
  | some (w, _, slot) =>
    let off := 64 * r.sqHead
    match openRecord n w (slot + off / 4096) (raw.take 4128) s with
    | (none, s) => (none, s)
    | (some p, s) =>
      let first := (padTo (min 4096 (64 * r.sqSize)) p).drop (off % 4096)
      let want := 64 * fieldLE first 3 1
      if first.length < want && want ≤ 512 then
        let next := (off / 4096 + 1) % ceilDiv (64 * r.sqSize) 4096
        match openRecord n w (slot + next) ((raw.drop 4128).take 4128) s with
        | (none, s) => (none, s)
        | (some q, s) => (some (first ++ q), s)
      else (some first, s)

/-- Bytes of the next command of a hub SRAM ring, units taken modulo the ring (R153, R186). -/
def hubUnits (r : Ring) (s : State) : List Byte :=
  (List.range 8).flatMap (fun k => peek s (r.sqBase + 64 * ((r.sqHead + k) % r.sqSize)) 64)

/-- A fetched command taken into a ring: LENGTH units consumed, one when LENGTH is bad and the ring halts (R155, R156); a
command whose units are not all posted waits (log entry 8). -/
def takeCommand (i : Nat) (bytes : List Byte) (s : State) : State :=
  let r := ringOf s i
  let len := fieldLE bytes 3 1
  let fn := coverFn r.cover
  let serial := s.rings.nextSerial
  let bad := len = 0 || 8 < len
  if !bad && r.posted < len then s
  else
    let used := if bad then 1 else len
    let c : Cmd := { serial := serial, ring := i, bytes := padTo (64 * used) bytes, fn := fn }
    let c := if bad then { c with phase := .done stBadLength 3 0 } else enterOrder i c s
    let r := { r with sqHead := (r.sqHead + used) % r.sqSize, cover := takeCover r.cover used, inflight := r.inflight ++ [c],
                      state := if bad then .halted else r.state, haltCause := if bad then 1 else r.haltCause }
    let s := setRing s i r
    let left := if r.posted = 0 then s.rings.urgent.filter (· ≠ i) else s.rings.urgent
    { s with rings := { s.rings with nextSerial := serial + 1, urgent := left } }

/-- COMMAND_FETCH (04 R187-R191): the next ring by class round fetches its next command from hub SRAM, or from host memory
with what the outside answers. -/
def commandFetch (data : HostRead) (s : State) : State :=
  match pickRing s with
  | none => s
  | some (i, rings) =>
    let s := { s with rings := rings }
    let r := ringOf s i
    if r.hub then
      if poisonedAt s (r.sqBase + 64 * r.sqHead) then
        let e : Rec :=
          { source := 0x0202, severity := 2, sector := i / 64, status := stPoisoned, memAddr := true,
            addr := r.sqBase + 64 * r.sqHead, kind := 3, index := 2 }
        haltRing i 3 (writeRecord e (bump s .memPoisonReads))
      else takeCommand i (hubUnits r s) s
    else match data with
      | .data raw =>
        if s.sealing.sealed then
          match sealedUnits i r raw s with
          | (none, s) => haltRing i 4 (eventRecord 0x0B01 (i / 64) stIntegrityFail 0 s)
          | (some p, s) => takeCommand i p s
        else takeCommand i raw s
      | _ => haltRing i 3 (hostReadFail data s)

def execCommandFetch (data : HostRead) (s : State) : Out := .next (commandFetch data s)

/-! ### Completions (R158-R164, R194, R201, R202, R214, R218) -/

/-- The 32 bytes of a completion (R158). -/
def completionBytes (tag status r0 r1 stroke : Nat) (phase mark : Bool) : List Byte :=
  leBytes 4 tag ++ leBytes 2 status ++ leBytes 2 (bitNat phase + 2 * bitNat mark) ++ leBytes 8 r0 ++ leBytes 8 r1
    ++ leBytes 8 stroke

/-- Whether the completion ring has an entry that the submitter has released (R161, log entry 7). -/
def Ring.cqFree (r : Ring) : Bool := (r.cqTail + 1) % r.cqSize ≠ r.cqHead

/-- A list with bytes written at an offset. -/
def overlay (bs : List Byte) (off : Nat) (new : List Byte) : List Byte :=
  sliceBytes bs 0 off ++ new ++ bs.drop (off + new.length)

/-- A completion entry written to its ring: host memory, a bounce record, or hub SRAM; none when it cannot be written. -/
def putEntry (i : Nat) (r : Ring) (entry : List Byte) (s : State) : Option State :=
  if r.hub then
    if poisonedAt s (r.cqBase + 32 * r.cqTail) then none
    else some (poke s (r.cqBase + 32 * r.cqTail) entry)
  else if !s.pci.linkUp then none
  else if s.sealing.sealed then
    let n := i / 64
    match windowFor (sealOf s n) true r.cqBase (32 * r.cqSize) with
    | none => none
    | some (w, win, slot) =>
      let off := 32 * r.cqTail
      let size := min 4096 (32 * r.cqSize)
      let plain := overlay (if off % 4096 = 0 then List.replicate size 0 else padTo size r.cqRecord) (off % 4096) entry
      let s := setRing s i { ringOf s i with cqRecord := plain }
      some (writeRecordSlot n w (slot + off / 4096) win plain s)
  else some (emit (.hostWrite (.vf (i / 64)) (r.cqBase + 32 * r.cqTail) entry) s)

/-- Whether an opcode is in the urgent set (R188). -/
def urgentSet (opcode : Nat) : Bool := ((opInfo opcode).map (·.urgent)).getD false

/-- The head completion of a ring leaves it: counters, tail, PHASE and interrupt (R159, R201, R202, R214). The latency of an urgent
command is measured on a ring in host memory. -/
def posted (i : Nat) (c : Cmd) (status latency : Nat) (s : State) : State :=
  let r := ringOf s i
  let wrap := r.cqTail + 1 = r.cqSize
  let s := setRing s i { r with inflight := r.inflight.tail, cqTail := if wrap then 0 else r.cqTail + 1,
                                phase := if wrap then !r.phase else r.phase }
  let s := bumpField s .cmdRingCount i 0 32 1
  let s := if status = stOk then s else bumpField s .cmdRingCount i 32 32 1
  let s := if r.cls = 0 && urgentSet c.opcode then
      let s := bump s .cmdUrgentCount
      if r.hub then s else rput s .cmdUrgentMaxNs 0 0 (max (rget s .cmdUrgentMaxNs) (min latency (2 ^ 32 - 1)))
    else s
  let s := if c.notify && !r.hub then raiseMsix (.vf (i / 64)) r.vector s else s
  finishReset i s

/-- COMPLETION_POST (04 R161, R194): the completion at the head of a ring's order is written, when it is done and an entry
is released; a failed write halts the ring and discards what was not written (R218). -/
def completionPost (i : Nat) (failed : Bool) (latency : Nat) (s : State) : State :=
  let r := ringOf s i
  match r.inflight with
  | [] => s
  | c :: rest =>
    match c.phase with
    | .done status r0 r1 =>
      if r.haltCause = 5 then finishReset i (setRing s i { r with inflight := rest })
      else if !r.cqFree then s
      else
        match if failed then none else
            putEntry i r (completionBytes c.tag status r0 r1 s.cad.stroke r.phase c.mark) s with
        | some s => posted i c status latency s
        | none =>
          let keep := r.inflight.filter (fun c => match c.phase with | .done _ _ _ => false | _ => true)
          let s := setRing s i { r with state := .halted, haltCause := 5, inflight := keep }
          finishReset i (writeRecord { source := 0x0802, severity := 2, sector := i / 64, kind := 9 } s)
    | _ => s

def execCompletionPost (ring : Nat) (failed : Bool) (latency : Nat) (s : State) : Out :=
  .next (completionPost ring failed latency s)

/-- PCIE_COMPLETION_TIMEOUT (15 R765): a device read that times out delivers no data; the ring whose fetch it was halts. A
command's read that times out is answered in that command's row. -/
def execPcieCompletionTimeout (ring : Option Nat) (s : State) : Out :=
  match ring with
  | none => .next (hostReadFail .timeout s)
  | some i => if (ringOf s i).state = .active && !(ringOf s i).hub then .next (haltRing i 3 (hostReadFail .timeout s)) else .next s

/-! ### Deferred commands (02 R79-R81) -/

/-- NOT_BEFORE_DUE (02 R79): the first waiting command of a ring becomes due once its not-before stroke has come. -/
def notBeforeDue (i : Nat) (s : State) : State :=
  match firstWaiting (ringOf s i).inflight false with
  | none => s
  | some (c, _) =>
    if c.due.isNone && c.notBefore ≤ s.cad.stroke then
      mapInflight (fun d => if d.serial = c.serial then { d with due := some s.cad.stroke } else d) s
    else s

def execNotBeforeDue (ring : Nat) (s : State) : Out := .next (notBeforeDue ring s)

/-- LOCKSTEP_WAIT_EXPIRY (02 R81): a LOCKSTEP command still waiting 1,000 strokes after it became due completes with
ADRIFT. -/
def lockstepExpiry (i : Nat) (s : State) : State :=
  match firstWaiting (ringOf s i).inflight false with
  | none => s
  | some (c, _) =>
    match c.due with
    | none => s
    | some d =>
      if c.lockstep && s.cad.state = .adrift && d + 1000 ≤ s.cad.stroke then finish c.serial stAdrift 0 0 s else s

def execLockstepWaitExpiry (ring : Nat) (s : State) : Out := .next (lockstepExpiry ring s)

/-! ### Administrative commands (R203-R204) -/

/-- NOP (R203): no effect. -/
def nopBody (_ : Cmd) (s : State) : Body := .ok (.done stOk 0 0 s)

def execNop (ring : Nat) (s : State) : Out := .next (beginCommand 0x0001 ring nopBody s)

/-- IDENTIFY (R204): part, stepping and firmware version. -/
def identifyBody (_ : Cmd) (s : State) : Body :=
  .ok (.done stOk (rget s .topPartId + rget s .topStepping * 2 ^ 32) s.rst.version s)

def execIdentify (ring : Nat) (s : State) : Out := .next (beginCommand 0x0002 ring identifyBody s)

/-- Whether two byte ranges overlap. -/
def overlaps (a n b m : Nat) : Bool := decide (a < b + m) && decide (b < a + n)

/-- The areas of every hub SRAM ring (R179). -/
def hubAreas (s : State) : List (Nat × Nat) :=
  (s.rings.table.filter (fun e => e.2.state ≠ .disabled && e.2.hub)).flatMap
    (fun e => [(e.2.sqBase, 64 * e.2.sqSize), (e.2.cqBase, 32 * e.2.cqSize)])

/-- RING_CREATE (R177-R181). -/
def ringCreateBody (c : Cmd) (s : State) : Body := do
  let sq := c.param 24 8
  let cq := c.param 32 8
  let ring := c.param 40 1
  let cls := c.param 41 1
  let sl := c.param 42 1
  let cl := c.param 43 1
  let loc := c.param 44 1
  let vec := c.param 46 2
  let n := c.ring / 64
  let i := n * 64 + ring
  need (c.reserved [(45, 46), (48, 64)]) stBadParam
  need (1 ≤ ring && ring ≤ 63 && cls ≤ 3 && 6 ≤ sl && sl ≤ 16 && 6 ≤ cl && cl ≤ 16 && loc ≤ 1) stBadParam
  need (sq % 4096 = 0 && cq % 4096 = 0 && vec < 256) stBadParam
  let inHub (a len : Nat) : Bool := decide (0x080012C00000 ≤ a) && decide (a + len ≤ 0x080013000000)
  need (loc = 0 || (inHub sq (64 * 2 ^ sl) && inHub cq (32 * 2 ^ cl))) stBadParam
  need ((ringOf s i).state = .disabled) stBadState
  let urgents := (s.rings.table.filter (fun e => e.1 / 64 = n && e.2.state ≠ .disabled && e.2.cls = 0)).length
  need (cls ≠ 0 || urgents < 2) stNoResource
  let clash := (hubAreas s).any (fun a => overlaps a.1 a.2 sq (64 * 2 ^ sl) || overlaps a.1 a.2 cq (32 * 2 ^ cl))
  need (loc = 0 || (!clash && !overlaps sq (64 * 2 ^ sl) cq (32 * 2 ^ cl))) stNoResource
  need (loc = 1 || (hostAllowed s n false sq (64 * 2 ^ sl) && hostAllowed s n true cq (32 * 2 ^ cl))) stSealedForbids
  let r : Ring := { state := .active, cls := cls, hub := loc = 1, sqBase := sq, cqBase := cq, sqLog2 := sl, cqLog2 := cl,
                    vector := vec }
  .ok (.done stOk i (i * 0x1000) (setRing s i r))

def execRingCreate (ring : Nat) (s : State) : Out := .next (beginCommand 0x0010 ring ringCreateBody s)

/-- RING_DESTROY and RING_RESET (R182-R184). -/
def ringStopBody (destroy : Bool) (c : Cmd) (s : State) : Body := do
  let ring := c.param 32 1
  let i := c.ring / 64 * 64 + ring
  need (c.reserved [(24, 32), (33, 64)] && 1 ≤ ring && ring ≤ 63) stBadParam
  need ((ringOf s i).state ≠ .disabled && (ringOf s i).state ≠ .resetting) stBadState
  let head := (ringOf s i).sqHead
  if (ringOf s i).inflight = [] then
    .ok (.done stOk head 0 (startReset i destroy c.serial s))
  else .ok (.running (startReset i destroy c.serial s))

def execRingDestroy (ring : Nat) (s : State) : Out := .next (beginCommand 0x0011 ring (ringStopBody true) s)

def execRingReset (ring : Nat) (s : State) : Out := .next (beginCommand 0x0012 ring (ringStopBody false) s)

/-! ### The admin ring (R174, R175, R185; 15 R756) -/

/-- A size field of CMD.ADMIN_CFG stored as the nearest limit (R221). -/
def clampLog2 (v : Nat) : Nat := min (max v 6) 16

/-- Ring 0 of a sector as its registers describe it, ACTIVE. -/
def adminRing (n : Nat) (s : State) : Ring :=
  let cfg := rget s .cmdAdminCfg n
  { state := .active, cls := 1, sqBase := rget s .cmdAdminSqBase n, cqBase := rget s .cmdAdminCqBase n,
    sqLog2 := bitsOf cfg 0 5, cqLog2 := bitsOf cfg 5 5, vector := bitsOf cfg 10 11 }

/-- A write of CMD.ADMIN_CFGn (R174, R175, R185; 15 R756): size and vector fields only while ENABLE is 0, ENABLE 1 only with
eight virtual functions, clearing ENABLE drains the ring as RING_DESTROY does (log entry 9), and RESET resets it. -/
def writeAdminCfg (n v : Nat) (s : State) : State :=
  let old := rget s .cmdAdminCfg n
  let wasOn := old.testBit 32
  let want := v.testBit 32
  let i := n * 64
  let fields := if wasOn then old % 2 ^ 21
    else clampLog2 (bitsOf v 0 5) + clampLog2 (bitsOf v 5 5) * 2 ^ 5 + bitsOf v 10 11 * 2 ^ 10
  let allowed := s.pci.vfEnable && s.pci.numVfs = 8
  let on := if want then wasOn || (allowed && (ringOf s i).state = .disabled) else false
  let s := rput s .cmdAdminCfg n 0 (fields + bitNat on * 2 ^ 32 + bitNat (old.testBit 33) * 2 ^ 33)
  let s := if on && !wasOn then setRing s i (adminRing n s) else s
  let s := if wasOn && !want && (ringOf s i).state ≠ .disabled then startReset i true 0 s else s
  if v.testBit 33 && on && (ringOf s i).state ≠ .resetting then
    let w := rget s .cmdAdminCfg n
    startReset i false 0 (rput s .cmdAdminCfg n 0 (setBits w 33 1 1))
  else s

end Sys2Proof.Machine
end

