-- ==== Sys2Proof/Machine/Errors.lean ====
section
/-! DEFINITION. Detected errors: records that begin a targeted self-test, transient counts, repairs of memory from spares,
and injection points that fire (chapter 17 of spec/, R843-R872, R983, R984). -/
namespace Sys2Proof.Machine

/-- A detected error: what its record says, the resource to be tested (kind 0 for none), and whether an injection point
caused it and keeps it present for the test (17 R843, R868, R869). -/
structure Detect where
  source : Nat
  severity : Nat
  res : Res := {}
  sector : Nat := 0xFF
  status : Nat := 0
  addr : Nat := 0
  memAddr : Bool := false
  d0 : Nat := 0
  d1 : Nat := 0
  injected : Bool := false
  forced : Bool := false
  deriving DecidableEq, Repr

/-- The record of a detected error with its test, action and reference. -/
def Detect.record (d : Detect) (test action ref : Nat) : Rec :=
  { source := d.source, severity := d.severity, injected := d.injected, sector := d.sector, kind := d.res.kind,
    index := d.res.index, status := d.status, test := test, action := action, addr := d.addr, d0 := d.d0, d1 := d.d1,
    ref := ref, memAddr := d.memAddr }

/-- What acting on a persistent fault does: the action code, and the state once the resource left service (17 R863, steps 1
and 2). The flag says that the fault was injected. -/
abbrev ActFn := Res → Bool → State → Nat × State

/-- One more transient classification of a resource, and their number in the window (17 R858): a table of 1,024 resources
that loses the least recently counted. -/
def noteTransient (r : Res) (s : State) : Nat × State :=
  let now := s.cad.timeNs
  let window := rfield s .errCfg 0 4 20 * 1000000000
  let old := (((s.err.transients.find? (·.1 = r)).map Prod.snd).getD []).filter (fun t => now < t + window)
  let mine := now :: old
  let rest := s.err.transients.filter (·.1 ≠ r)
  (mine.length, { s with err := { s.err with transients := (r, mine) :: rest.take 1023 } })

/-- ERR.CFG.REPEAT_LIMIT. -/
def repeatLimit (s : State) : Nat := rfield s .errCfg 0 0 4

/-- The RETIRE record of an action (17 R846, R863), and the entry for the retirement list: none for UNREPAIRED (R865) and
for an injected fault (R869). `ref` is the SEQ of the record whose test or count decided. -/
def retireRecord (r : Res) (action ref sector addr : Nat) (injected : Bool) (s : State) : State :=
  let s := writeRecord { source := 0x0B06, severity := 0, injected := injected, sector := sector, kind := r.kind, index := r.index,
                         action := action, addr := addr, memAddr := r.kind = 1, d0 := ref, d1 := s.top.gen } s
  if action = 11 then s
  else
    let e : Retired := { kind := r.kind, index := r.index, action := action,
                         addr := (match r.lane with | some l => l | none => r.addr) }
    let err := { s.err with
      retired := s.err.retired ++ [e]
      toList := if injected then s.err.toList else s.err.toList ++ [e] }
    { s with err := err }

/-- MiB of an SRAM array that holds lines with spares: hub SRAM 48, lattice stores 8 × 40, local memory 64, register files
64; none is stated for management memory, which is taken as 1 (17 R855; log entry 17). -/
def arrayMiB : Nat → Nat
  | 2 => 48
  | 3 => 320
  | 4 => 64
  | 5 => 64
  | _ => 1

/-- Acting on a persistent fault of a row, a lake bank or an SRAM line: a spare replaces it, or none is left (17 R855,
R865). -/
def actMemory : ActFn := fun r _ s =>
  let used (t : Table Nat) (k : Nat) := Table.getD t k 0
  if r.kind = 1 then
    if used s.err.rowsUsed r.index < 32 then
      (1, { s with err := { s.err with rowsUsed := Table.put s.err.rowsUsed r.index (used s.err.rowsUsed r.index + 1) } })
    else (11, s)
  else if r.kind = 2 then
    let die := r.index / 512
    if used s.err.banksUsed die < 4 then
      (2, { s with err := { s.err with banksUsed := Table.put s.err.banksUsed die (used s.err.banksUsed die + 1) } })
    else (11, s)
  else
    if used s.err.linesUsed r.index < 64 * arrayMiB r.index then
      (3, { s with err := { s.err with linesUsed := Table.put s.err.linesUsed r.index (used s.err.linesUsed r.index + 1) } })
    else (11, s)

/-- Acting on a persistent fault of a bridge lane: its bundle's spare, while one of two is left (17 R855). -/
def actBridge : ActFn := fun r _ s =>
  let used := Table.getD s.err.bridgeUsed (r.index / 64) 0
  if used < 2 then (0, { s with err := { s.err with bridgeUsed := Table.put s.err.bridgeUsed (r.index / 64) (used + 1) } })
  else (11, s)

/-- The FOLLOW_UP record of a test (17 R861). -/
def followUp (t : SelfTest) (test action : Nat) (s : State) : State :=
  writeRecord { source := t.source, severity := t.severity, injected := t.injected, followUp := true, sector := t.sector,
                kind := t.res.kind, index := t.res.index, test := test, action := action, addr := t.addr, ref := t.ref,
                memAddr := t.res.kind ≤ 3, d0 := t.d0, d1 := t.d1 } s

/-- A test of a resource queued, or abandoned with a FOLLOW_UP record when the queue is full (17 R860). -/
def queueTest (t : SelfTest) (s : State) : State :=
  if s.err.queued.length < 256 then { s with err := { s.err with queued := s.err.queued ++ [t] } }
  else followUp t 4 0 s

/-- The test of a resource that runs or waits. -/
def testOf (s : State) (r : Res) : Option SelfTest := (s.err.running ++ s.err.queued).find? (·.res = r)

/-- A test of a resource changed where it stands. -/
def changeTest (r : Res) (f : SelfTest → SelfTest) (s : State) : State :=
  let g := fun (t : SelfTest) => if t.res = r then f t else t
  { s with err := { s.err with running := s.err.running.map g, queued := s.err.queued.map g } }

/-- Whether the resource takes no part in the rule of recent tests: annuli (17 R859). -/
def alwaysTested (r : Res) : Bool := r.kind = 11

/-- A detected error: its record, and the test, the count or the action that follows (17 R855, R858, R859, R863, R872). -/
def detect (act : ActFn) (d : Detect) (s : State) : State :=
  if d.res.kind = 0 then writeRecord (d.record 0 0 0) s
  else
    match testOf s d.res with
    | some t =>
      changeTest d.res (fun t => { t with counted := t.counted + 1, forced := t.forced || d.forced })
        (writeRecord (d.record 1 0 t.ref) s)
    | none =>
      let window := rfield s .errCfg 0 24 16 * 1000000000
      let recent := s.err.passed.find? (fun p => p.1 = d.res && s.cad.timeNs < p.2.1 + window)
      match recent, alwaysTested d.res with
      | some (_, _, seq), false =>
        let (n, s) := noteTransient d.res s
        if n < repeatLimit s then writeRecord (d.record 2 0 seq) s
        else
          let (action, s) := act d.res d.injected s
          let s := writeRecord (d.record 3 action seq) s
          retireRecord d.res action s.err.seq d.sector d.addr d.injected (bump s .errPersistent)
      | _, _ =>
        let s := writeRecord (d.record 1 0 0) s
        queueTest { res := d.res, sector := d.sector, addr := d.addr, ref := s.err.seq, source := d.source, severity := d.severity, d0 := d.d0, d1 := d.d1,
                    injected := d.injected, forced := d.forced } s

/-! ### Faults of memory lines (05 R251, R252, R255, R263; 17 R844, R984) -/

/-- The resource that holds a line: an HBM row by channel, bank and row (05 R227, R976), a lake bank, or a line of another
SRAM array (17, table of resource kinds). -/
def lineRes (s : State) (a : Nat) : Res :=
  match regionOf s a with
  | .near => { kind := 1, index := hbmChannel a, addr := Config.hbmBank (a / 64) + Config.hbmRow (a / 64) * 2 ^ 8 }
  | .lake => { kind := 2, index := lakeBank a }
  | .hub => { kind := 3, index := 2, addr := a / 64 * 64 }
  | .lattice => { kind := 3, index := 3, addr := a / 64 * 64 }
  | .localMem => { kind := 3, index := 4, addr := a / 64 * 64 }
  | _ => {}

/-- DETAIL0 of a memory record: symbols or bits in error, then bank and row, or the array (17, details by source). -/
def lineDetail (s : State) (a n : Nat) : Nat :=
  match regionOf s a with
  | .near => n + (Config.hbmBank (a / 64) % 256) * 2 ^ 8 + (Config.hbmRow (a / 64) % 2 ^ 32) * 2 ^ 16
  | .lake => n + 1 * 2 ^ 8
  | .hub => n + 2 * 2 ^ 8
  | .lattice => n + 3 * 2 ^ 8
  | _ => n + 4 * 2 ^ 8

/-- Whether a line lies in the near tier. -/
def isNear (a : Nat) : Bool := a < 0x008000000000

/-- Status of a near-tier read that failed: POISONED, or INTEGRITY_FAIL in sealed mode (17 R844). -/
def failStatus (s : State) (a : Nat) : Nat := if isNear a && s.sealing.sealed then stIntegrityFail else stPoisoned

/-- The detection of a fault at a line. -/
def lineDetect (s : State) (a source severity status n : Nat) (injected forced : Bool) : Detect :=
  { source := source, severity := severity, res := lineRes s a, sector := ownerAt s a, status := status,
    addr := a / 64 * 64, memAddr := true, d0 := lineDetail s a n, injected := injected, forced := forced }

/-- Whether an error of `n` symbols of a near-tier line, or bits of an SRAM word, is one that the code is sure to correct
(05 R231, R251). -/
def guaranteed (a n : Nat) : Bool := n ≤ if isNear a then 3 else 1

/-- A line whose error was corrected to a wrong value or went undetected: free bytes (05 R231, R251; log entry 18). -/
def spoilLine (a : Nat) (s : State) : State :=
  let (v, s) := drawFree s
  poke s (a / 64 * 64) (leBytes 64 v)

/-- What a fault found at a line does to the access and the machine: the status of the access, and the state (17 R844,
R984). A near-tier line is written poisoned with zero data; an SRAM line keeps its content. -/
def faultAt (a : Nat) (kind : FaultKind) (n : Nat) (injected forced : Bool) (s : State) : Nat × State :=
  let lost := failStatus s a
  match kind with
  | .undetected => (stOk, spoilLine a s)
  | .corrected =>
    let src := if isNear a then 0x0101 else 0x0201
    let s := if guaranteed a n then s else spoilLine a s
    (stOk, detect actMemory (lineDetect s a src 1 0 n injected forced) (bump s .memCeCount))
  | .uncorrectable =>
    if isNear a then
      let s := poisonLine (zeroFill s (a / 64 * 64) 64) a
      (lost, detect actMemory (lineDetect s a 0x0102 2 lost n injected forced) (bump s .memUeCount))
    else
      (lost, detect actMemory (lineDetect s a 0x0202 2 lost n injected forced) (bump (poisonLine s a) .memUeCount))
  | .tagFail =>
    if isNear a && s.sealing.sealed then
      let s := poisonLine (zeroFill s (a / 64 * 64) 64) a
      (lost, detect actMemory (lineDetect s a 0x0103 2 lost 0 injected forced) (bump s .memTagFailCount))
    else (stOk, s)
  | .busRetried =>
    if isNear a then (stOk, detect actMemory (lineDetect s a 0x0104 1 0 0 injected forced) s) else (stOk, s)
  | .busFailed =>
    if isNear a then (lost, detect actMemory (lineDetect s a 0x0104 2 lost 0 injected forced) s) else (stOk, s)

/-- Whether an armed memory slot names a line: its point belongs to the line's region, its target is the line's resource, and
its address is zero or the line (17 R868, R983). -/
def slotNames (s : State) (a : Nat) (i : Inject) : Bool :=
  let r := lineRes s a
  let here := i.addr = 0 || i.addr / 64 = a / 64
  if isNear a then (0x0101 ≤ i.point && i.point ≤ 0x0104) && i.target = r.index && here
  else (i.point = 0x0201 || i.point = 0x0202)
    && (if r.kind = 2 then i.target = r.index else i.target = 2 ^ 31 + r.index) && here

/-- The kind of fault that corrupted symbols or bits make: at most 3 symbols, or 1 bit, are corrected; 4 or 5 symbols, or 2
bits, are uncorrectable; what more of them do is a free choice, which the tag check of a sealed line follows (05 R231, R251,
R255; log entry 18). -/
def patternKind (a n : Nat) (s : State) : FaultKind × State :=
  if guaranteed a n then (.corrected, s)
  else if n ≤ if isNear a then 5 else 2 then (.uncorrectable, s)
  else
    let (v, s) := drawFree s
    (if v % 3 = 0 then .uncorrectable
      else if isNear a && s.sealing.sealed && v / 6 % 2 = 0 then .tagFail
      else if v % 3 = 1 then .corrected
      else .undetected, s)

/-- Faults that armed slots make in a read of a line: the slots fire, and their corruptions join in one detection (17 R868 and
the corner of two slots). A bus error whose retry a COUNT slot fails too makes the access fail (R984). -/
def injectedFault (a : Nat) (s : State) : Option (FaultKind × Nat × Bool) × State :=
  match s.err.slots.filter (fun e => slotNames s a e.2) with
  | [] => (none, s)
  | hits =>
    let s := hits.foldl (fun s e => fireSlot e.1 s) s
    let forced := hits.any (fun e => e.2.mode = 2)
    let bus := hits.filter (fun e => e.2.point = 0x0104)
    let symbols := ((hits.filter (fun e => e.2.point ≠ 0x0104 && e.2.point ≠ 0x0103)).map (fun e => e.2.pattern)).sum
    let again := bus.filter (fun e => 1 < e.2.left)
    if again ≠ [] then
      (some (.busFailed, 0, forced), again.foldl (fun s e => fireSlot e.1 s) s)
    else if symbols ≠ 0 then
      let (k, s) := patternKind a symbols s
      (some (k, symbols, forced), s)
    else if bus ≠ [] then (some (.busRetried, 0, forced), s)
    else (some (.tagFail, 0, forced), s)

/-- One line read by the array or channel that holds it, with the faults that the controllers find there: the status of the
read (05 R263-R265; 17 R844). -/
def readLine (faults : List LineFault) (a : Nat) (s : State) : Nat × State :=
  if poisonedAt s a then (stPoisoned, bump s .memPoisonReads)
  else
    match injectedFault a s with
    | (some (k, n, forced), s) => faultAt a k n true forced s
    | (none, s) =>
      match faults.find? (fun f => f.line / 64 = a / 64) with
      | some f => faultAt a f.kind f.symbols false false s
      | none => (stOk, s)

/-- Lines read in ascending order from a line number; the first refusal stops. -/
def readLines (faults : List LineFault) : Nat → Nat → State → Nat × State
  | 0, _, s => (stOk, s)
  | k + 1, l, s =>
    match readLine faults (l * 64) s with
    | (0, s) => readLines faults k (l + 1) s
    | r => r

end Sys2Proof.Machine
end

