-- ==== Sys2Proof/Machine/MemAccess.lean ====
section
/-! DEFINITION. Memory as trusted masters reach it: holes, poison, reads, writes line by line, line adds (chapter 05 of
spec/, R223, R261-R272, R975). -/
namespace Sys2Proof.Machine

/-- Whether an address can be read or written by the fabric as memory. -/
def isMemory (s : State) (a : Nat) : Bool :=
  match regionOf s a with
  | .near | .lake | .hub | .lattice | .localMem | .far => true
  | _ => false

/-- A fabric request to a hole: not performed, recorded (R223). -/
def holeRequest (sector a : Nat) (s : State) : State :=
  eventRecord 0x0B03 sector stHwFault a s

/-- A read of whole bytes: the bytes, or the status that refuses it: HW_FAULT for a hole (R223), POISONED for a poisoned line
(R265), or what a fault found on the way gives it (17 R844). -/
def faultyRead (faults : List LineFault) (a n : Nat) (s : State) : Except Nat (List Byte) × State :=
  if n = 0 then (.ok [], s)
  else if !isMemory s a || !isMemory s (a + n - 1) then (.error stHwFault, holeRequest (ownerAt s a) a s)
  else
    match readLines faults ((a + n - 1) / 64 - a / 64 + 1) (a / 64) s with
    | (0, s) => (.ok (peek s a n), s)
    | (st, s) => (.error st, s)

/-- A read of whole bytes by a trusted master. -/
def trustedRead (a n : Nat) (s : State) : Except Nat (List Byte) × State := faultyRead [] a n s

/-- Whether a write of part of a line reads nothing first: whole 8-byte words of SRAM in a line that is not poisoned (R268). -/
def wholeWords (s : State) (a n : Nat) : Bool :=
  !isNear a && regionOf s a ≠ .far && a % 8 = 0 && n % 8 = 0 && !poisonedAt s a

/-- One line of a write: a whole-line write clears poison; a narrower one is a read-modify-write, refused at a poisoned line and
where its read fails, except for whole words of SRAM (R261, R263, R264, R266, R268). -/
def writeLine (faults : List LineFault) (a : Nat) (bs : List Byte) (s : State) : Nat × State :=
  if bs.length = 64 then (stOk, poke (unpoison s a) a bs)
  else if wholeWords s a bs.length then (stOk, poke s a bs)
  else
    match readLine faults a s with
    | (0, s) => (stOk, poke s a bs)
    | r => r

/-- A write line by line in ascending order; it stops at the first line that is refused (R975). `fuel` bounds the lines. -/
def writeLines (faults : List LineFault) : Nat → Nat → List Byte → State → Nat × State
  | 0, _, _, s => (stOk, s)
  | fuel + 1, a, bs, s =>
    if bs = [] then (stOk, s)
    else
      let n := 64 - a % 64
      match writeLine faults a (bs.take n) s with
      | (0, s) => writeLines faults fuel (a + n) (bs.drop n) s
      | r => r

/-- A write of whole bytes: its status, and the state it leaves (R223, R975); the read of a line written in part meets the faults
there (R263). -/
def faultyWrite (faults : List LineFault) (a : Nat) (bs : List Byte) (s : State) : Nat × State :=
  if bs = [] then (stOk, s)
  else if !isMemory s a || !isMemory s (a + bs.length - 1) then (stHwFault, holeRequest (ownerAt s a) a s)
  else writeLines faults (bs.length / 64 + 2) a bs s

/-- A write by a trusted master whose lines hold no fault. -/
def trustedWrite (a : Nat) (bs : List Byte) (s : State) : Nat × State := faultyWrite [] a bs s

/-- Elementwise sum or difference of two lines of little-endian elements of `w` bytes, modulo the width (R269). -/
def addElements (w : Nat) (sub : Bool) : Nat → List Byte → List Byte → List Byte
  | 0, _, _ => []
  | k + 1, x, y =>
    let a := leNat (x.take w)
    let b := leNat (y.take w)
    leBytes w (if sub then a + 2 ^ (8 * w) - b else a + b) ++ addElements w sub k (x.drop w) (y.drop w)

/-- A line add in the near tier with elements of `w` bytes: a read-modify-write (R269, R270, R272). -/
def faultyLineAdd (faults : List LineFault) (a w : Nat) (sub : Bool) (operand : List Byte) (s : State) : Nat × State :=
  if regionOf s a ≠ .near then (stHwFault, holeRequest (ownerAt s a) a s)
  else
    match readLine faults a s with
    | (0, s) => (stOk, poke s a (addElements w sub (64 / w) (peek s a 64) (padTo 64 operand)))
    | r => r

end Sys2Proof.Machine
end

