-- ==== Sys2Proof/Machine/Wake.lean ====
section
/-! DEFINITION. Wake queues as readers and commands see them (chapter 19 of spec/). -/
namespace Sys2Proof.Machine

/-- The 32 bytes of a closed wide word (19 R905). -/
def wideBytes (x : WideWord) : List Byte :=
  padTo 28 (x.payload.flatMap (fun w => leBytes 4 w.toNat))
    ++ leBytes 4 (1 + 4 * x.payload.length * 2 + bitNat x.sop * 2 ^ 6 + bitNat x.eop * 2 ^ 7 + x.seq * 2 ^ 16)

/-- The oldest closed word and the queue without it (19 R910). -/
def takeWide (w : WakeQ) : Option (WideWord × WakeQ) :=
  match w.older.words with
  | x :: t => some (x, { w with older := if t = [] then {} else { w.older with words := t }, lastEop := some x.eop })
  | [] =>
    match w.filling.words with
    | x :: t => some (x, { w with filling := if t = [] then {} else { w.filling with words := t }, lastEop := some x.eop })
    | [] => none

/-- The item that a pop of an empty queue returns (19 R916). -/
def emptyItem (w : WakeQ) (stroke : Nat) : List Byte :=
  if w.emptyMode then padTo 28 (leBytes 8 stroke) ++ leBytes 4 (0x0101 + w.nextSeq * 2 ^ 16)
  else padTo 28 [] ++ leBytes 4 (w.nextSeq * 2 ^ 16)

/-- A pop: the 32 bytes it gives and the queue after it (19 R913-R918). -/
def popWake (w : WakeQ) (stroke : Nat) : List Byte × WakeQ :=
  match takeWide w with
  | some (x, w) => (wideBytes x, w)
  | none =>
    if w.partialWords = [] then (emptyItem w stroke, w)
    else
      match takeWide (closeWord w false).1 with
      | some (x, w) => (wideBytes x, w)
      | none => (emptyItem w stroke, w)

/-- Words waiting (19 R917). -/
def WakeQ.waiting (w : WakeQ) : Nat := w.older.words.length + w.filling.words.length

/-- Whether a function reaches a queue's registers: the physical function all, virtual function n those of sector n. -/
def wakeReaches (s : State) (q : Nat) : Fn → Bool
  | .pf => true
  | .vf n => Table.find s.sct.wake q = some n && !losing s 8 q

/-- The value a read returns, kept as the bus reply. -/
def reply (v : Nat) (s : State) : State := { s with pci := { s.pci with reply := v } }

/-- All ones over a read of `size` bytes. -/
def allOnes (size : Nat) : Nat := 2 ^ (8 * size) - 1

/-- POP (19 R913-R918, R930, R932): a read of WAKE.DATAq at offset 0. -/
def wakePop (fn : Fn) (q size : Nat) (s : State) : State :=
  let off := 0x1600000 + 0x40 * q
  if 64 ≤ q || !(size = 4 || size = 8) then s
  else if !s.rst.bootDone then reply (allOnes size) s
  else if !wakeReaches s q fn then reply 0 (filterRefuse fn off s)
  else if s.sealing.sealed && (Table.find s.sct.wake q).isSome then reply (allOnes size) s
  else
    let (bs, w) := popWake (wakeOf s q) s.cad.stroke
    let w := { w with latches := Table.put w.latches (fnKey fn) bs }
    reply (leNat (bs.take size)) (setWake s q w)

def execPop (fn : Fn) (queue size : Nat) (s : State) : Out := .next (wakePop fn queue size s)

/-! ### Commands (19 R919-R923, R978) -/

/-- Whether a class 0x0D command may name a queue (19 R919). -/
def wakePermitted (c : Cmd) (q : Nat) (s : State) : Bool :=
  (Table.find s.sct.wake q = some (c.ring / 64) && !losing s 8 q)
    || (c.viaPf && ((Table.find s.sct.wake q).isNone || q = 63))

/-- WAKE_CONFIG (19 R919, R920, R978). -/
def wakeConfigBody (c : Cmd) (s : State) : Body := do
  let q := c.param 24 1
  let kind := c.param 25 1
  let flags := c.param 26 1
  let sel := c.param 27 1
  let period := c.param 28 4
  need (q < 64 && kind ≤ 2 && flags < 4 && c.reserved [(32, 64)]) stBadParam
  need (kind ≠ 1 || (1 ≤ period && period ≤ 65536)) stBadParam
  need (wakePermitted c q s && (kind ≠ 2 || c.viaPf)) stNotPermitted
  need (q ≠ 63 || kind = 2) stBadParam
  let w := wakeOf s q
  let s := if flags.testBit 1 || w.kind ≠ kind then emptyWake q s else s
  let w := wakeOf s q
  let w := { w with kind := kind, emptyMode := flags.testBit 0, perfSelect := if kind = 1 then sel else 0,
                    period := if kind = 1 then period else 0 }
  .ok (.done stOk 0 0 (setWake s q w))

def execWakeConfig (ring : Nat) (s : State) : Out := .next (beginCommand 0x0D01 ring wakeConfigBody s)

/-- Words drained to consecutive slots: how many were written, and the status of the first refused write (19 R921). A line written
once has a new code, and its fault is gone. `refused` is the first word whose host write the host port cannot perform. -/
def drainWords (faults : List LineFault) (refused : Option Nat) (n : Nat) (dpa : Bool) (q : Nat) (flush : Bool) : Nat → Nat → Nat → State → Nat × Nat × State
  | 0, _, done, s => (stOk, done, s)
  | k + 1, dest, done, s =>
    let w := wakeOf s q
    let w := if flush && w.waiting = 0 && w.partialWords ≠ [] then (closeWord w false).1 else w
    match takeWide w with
    | none => (stOk, done, s)
    | some (x, w') =>
      if dpa then
        match faultyWrite faults dest (wideBytes x) s with
        | (0, s) => drainWords (faults.filter (fun f => f.line / 64 ≠ dest / 64)) refused n dpa q flush k (dest + 32) (done + 1) (setWake s q w')
        | (st, s) => (st, done, s)
      else
        match (if refused = some done then .error stHwFault else hostWrite n dest (wideBytes x) s) with
        | .ok s => drainWords faults refused n dpa q flush k (dest + 32) (done + 1) (setWake s q w')
        | .error st => (st, done, s)

/-- Words a sealed drain takes as one object, and the queue after them (14 R734). -/
def drainObject (flush : Bool) : Nat → WakeQ → List Byte × Nat × WakeQ
  | 0, w => ([], 0, w)
  | k + 1, w =>
    let w := if flush && w.waiting = 0 && w.partialWords ≠ [] then (closeWord w false).1 else w
    match takeWide w with
    | none => ([], 0, w)
    | some (x, w) =>
      let (bs, n, w) := drainObject flush k w
      (wideBytes x ++ bs, n + 1, w)

/-- WAKE_DRAIN (19 R921, R978). In sealed mode a word whose write the port cannot perform is refused with its whole record of
128 words (DESIGN CHOICE, log 106). -/
def wakeDrainBody (faults : List LineFault) (refused : Option Nat) (c : Cmd) (s : State) : Body := do
  let q := c.param 24 1
  let flags := c.param 25 1
  let words := c.param 28 4
  let dest := c.param 32 8
  let n := c.ring / 64
  let dpa := flags.testBit 1
  need (q < 64 && flags < 4 && 1 ≤ words && words ≤ 1024 && dest % 32 = 0 && c.reserved [(26, 28), (40, 64)]) stBadParam
  need (!dpa || ownsRange s n dest (32 * words)) stBadParam
  need (wakePermitted c q s) stNotPermitted
  need (dpa || hostAllowed s n true dest (32 * words)) stSealedForbids
  if !dpa && s.sealing.sealed then
    let (bs, k, w) := drainObject (flags.testBit 0) words (wakeOf s q)
    let cut := (refused.getD k) / 128 * 128
    let (bs, k, w, st) := if refused.any (· < k) then
        let (bs, k, w) := drainObject (flags.testBit 0) cut (wakeOf s q)
        (bs, k, w, stHwFault)
      else (bs, k, w, stOk)
    if k = 0 && st ≠ stOk then .ok (.done st 0 0 s)
    else match hostWrite n dest bs s with
    | .ok s => .ok (.done st k 0 (setWake s q w))
    | .error st => .ok (.done st 0 0 s)
  else
    let (st, k, s) := drainWords faults refused n dpa q (flags.testBit 0) words dest 0 s
    .ok (.done st k 0 s)

def execWakeDrain (ring : Nat) (faults : List LineFault) (refused : Option Nat) (s : State) : Out :=
  .next (beginCommand 0x0D10 ring (wakeDrainBody faults refused) s)

/-- Stored words of the packet whose last taken word lacked EOP: how many are discarded, and whether its end or the next
packet's start was met (19 R923). -/
def packetRest : List WideWord → Nat × Bool
  | [] => (0, false)
  | x :: t =>
    if x.sop then (0, true)
    else if x.eop then (1, true)
    else ((packetRest t).1 + 1, (packetRest t).2)

/-- A bank without its first words. -/
def dropBank (b : Bank) (k : Nat) : Bank := if b.words.length ≤ k then {} else { b with words := b.words.drop k }

/-- The rest of a packet discarded (19 R923). -/
def dropPacket (w : WakeQ) : Nat × WakeQ :=
  let (k, ended) := packetRest (w.older.words ++ w.filling.words)
  let w' := if k = 0 then w
    else { w with older := if w.older.words = [] then w.older else dropBank w.older k,
                  filling := if w.older.words.length < k then dropBank w.filling (k - w.older.words.length) else w.filling }
  if ended || (w.partialWords ≠ [] && w.partialSop) then (k, w')
  else (k, { w' with partialWords := [], partialSop := false, dropping := true })

/-- DROP_PACKET (19 R923, R978). -/
def dropPacketBody (c : Cmd) (s : State) : Body := do
  let q := c.param 24 1
  need (q < 64 && c.reserved [(25, 64)]) stBadParam
  need (wakePermitted c q s) stNotPermitted
  need ((wakeOf s q).lastEop = some false) stBadState
  let (k, w) := dropPacket (wakeOf s q)
  .ok (.done stOk k 0 (setWake s q w))

def execDropPacket (ring : Nat) (s : State) : Out := .next (beginCommand 0x0D11 ring dropPacketBody s)

/-- PERF_SAMPLE (19 R928, R929): one sample per selected source at a stroke that is a multiple of PERIOD, with the counts the
performance hardware gives (log entry 10). -/
def perfSample (q : Nat) (counts : List Nat) (s : State) : State :=
  let w := wakeOf s q
  if w.kind ≠ 1 || s.sealing.sealed || s.sealing.armed || w.period = 0 || s.cad.stroke % w.period ≠ 0 || 64 ≤ q then s
  else (bitList 8 w.perfSelect).foldl (fun s src =>
    let header := 0x10 + 256 + pkgNumber s * 2 ^ 16
    let body := padTo 8 (leBytes 1 src) ++ leBytes 8 (counts.getD src 0) ++ leBytes 8 s.cad.stroke
    wakePush q (packetOf (BitVec.ofNat 32 header :: narrowWords body)) s) s

def execPerfSample (queue : Nat) (counts : List Nat) (s : State) : Out := .next (perfSample queue counts s)

end Sys2Proof.Machine
end

