-- ==== Sys2Proof/Machine/Cadence.lean ====
section
/-! DEFINITION. The cadence: time base, references, lock and drift, marks, PTP (chapter 02 of spec/; 15 R794-R796, 20 R942). -/
namespace Sys2Proof.Machine

/-- Code of a cadence state (02). -/
def cadCode : CadState → Nat
  | .locked => 0
  | .holdover => 1
  | .adrift => 2

/-- The error estimate in ns at a local time (R66, R68). -/
def estimateAt (c : Cad) (now : Nat) : Nat :=
  if c.refPresent then c.est else c.est + c.holdoverPpb * (now - c.estTime) / 1000000000

/-- Whether the estimate at a local time exceeds a limit (R68, R71): a growing estimate is compared whole, with the part below
1 ns. -/
def exceedsAt (c : Cad) (now limit : Nat) : Bool :=
  if c.refPresent then limit < c.est else limit * 1000000000 < c.est * 1000000000 + c.holdoverPpb * (now - c.estTime)

/-- CAD.ERR_EST: the estimate, saturating. -/
def errEst (c : Cad) : Nat := min (estimateAt c c.timeNs) (2 ^ 32 - 1)

/-- The formula of the stroke count (R56). -/
def strokeAt (c : Cad) (now : Nat) : Nat := (now - c.origin) / (c.periodUs * 1000)

/-- The cadence block replaced. -/
def setCad (c : Cad) (s : State) : State := { s with cad := c }

/-- A change of cadence state: recorded and counted (R75, 19 R927). -/
def enterCad (st : CadState) (s : State) : State :=
  if s.cad.state = st then s
  else
    let body := leBytes 1 (cadCode s.cad.state) ++ leBytes 1 (cadCode st) ++ leBytes 2 0 ++ leBytes 4 (errEst s.cad)
      ++ leBytes 8 s.cad.stroke ++ leBytes 8 (ofSigned 64 s.cad.lastStep)
    let s := logRecord (rfield s .cadLogQueue 0 0 6) 0x01 body (setCad { s.cad with state := st } s)
    bump s .cadStateChanges

/-- The tests of R71 made on the estimate as it stands. -/
def judgeCad (s : State) : State :=
  let above := exceedsAt s.cad s.cad.timeNs
  match s.cad.state with
  | .adrift => s
  | .holdover => if above s.cad.toleranceNs then enterCad .adrift s else s
  | .locked =>
    if above s.cad.toleranceNs then enterCad .adrift s
    else if above s.cad.lockNs || !s.cad.refPresent then enterCad .holdover s
    else s

/-- A reference update: discipline, estimate, lock (R66, R70-R74). `offset` is the filtered offset of the local counter
from the reference (log entry 11). -/
def referenceUpdate (now : Nat) (offset : Int) (s : State) : State :=
  let c := s.cad
  let est := offset.natAbs + c.asymNs
  let good := if est ≤ c.lockNs then c.goodUpdates + 1 else 0
  let stepped := c.slewNs < offset.natAbs
  let time := if stepped then ((now : Int) - offset).toNat else now
  let c := { c with refPresent := true, est := est, estTime := time, goodUpdates := good, timeNs := time }
  let c := if stepped then
      { c with lastStep := -offset
               stepHold := if c.configured && c.origin ≤ time then some (max (strokeAt c time) c.stroke) else c.stepHold }
    else c
  let s := judgeCad (setCad c s)
  if 4 ≤ good && est ≤ c.toleranceNs then enterCad .locked s else s

/-- The reference is lost (R67, R68, R71). -/
def referenceLost (now : Nat) (s : State) : State :=
  let c := s.cad
  judgeCad (setCad { c with refPresent := false, estTime := now, goodUpdates := 0, timeNs := max now c.timeNs } s)

/-- REFERENCE_LOST (R67): no update in time, or the 10 MHz reference absent. -/
def execReferenceLost (now : Nat) (ref10 : Bool) (s : State) : Out :=
  if ref10 then
    let s := setCad { s.cad with ref10 := false } s
    if s.cad.pps && s.cad.refPresent then .next (referenceLost now s) else .next s
  else if s.cad.refPresent then .next (referenceLost now s) else .next s

/-- REF_10M_RETURN (R67). -/
def execRef10mReturn (s : State) : Out := .next (setCad { s.cad with ref10 := true } s)

/-- ESTIMATE_EXCEEDS_TOLERANCE (R71): the tests of R71 at a later local time. -/
def execEstimateExceedsTolerance (now : Nat) (s : State) : Out :=
  .next (judgeCad (setCad { s.cad with timeNs := max now s.cad.timeNs } s))

/-! ### References (R61-R63; 15 R794, R795; 20 R942) -/

/-- An overrun of a crossing class: `n` events lost (16 R804). -/
def overrun (cls n : Nat) (s : State) : State :=
  let was := (rget s .clkOverrun).testBit cls
  let s := bumpField s .clkLost cls 0 32 n
  let s := rput s .clkOverrun 0 0 (rget s .clkOverrun ||| 2 ^ cls)
  if was then s
  else
    let (fired, _, s) := firePoint 0x0A03 (0x100 + cls) s
    writeRecord { source := 0x0A03, severity := 2, injected := fired, kind := 14, index := 0x100 + cls } s

/-- PPS_PULSE (R62, R63, R67; 20 R942): an early edge is ignored and counted; otherwise, with source PPS and the 10 MHz
reference present, a reference update that advances CAD.PPS_SECONDS. -/
def execPpsPulse (now : Nat) (offset : Int) (early : Bool) (s : State) : Out :=
  if early then .next (overrun 5 1 s)
  else if s.cad.sourced && s.cad.pps && s.cad.ref10 then
    .next (rput (referenceUpdate now offset s) .cadPpsSeconds 0 0 ((rget s .cadPpsSeconds + 1) % 2 ^ 64))
  else .next s

/-- Whether PTP messages of a port reach the clock: source PTP, and sub-port 0 of the configured port (15 R794). -/
def ptpPort (s : State) (port : Nat) : Bool := s.cad.sourced && !s.cad.pps && s.cad.ptpPort = port

/-- The order of the best master clock algorithm (15 R794): the first set of the two is the better. -/
def betterMaster (a b : PtpMaster) : Bool :=
  let key (m : PtpMaster) : List Nat :=
    [m.priority1, m.clockClass, m.accuracy, m.variance, m.priority2, m.identity, m.steps]
  decide (key a < key b)

/-- The best master heard of (15 R794). -/
def bestMaster (s : State) : Option PtpMaster :=
  (s.cad.masters.map Prod.snd).foldl (fun b m =>
    match b with
    | none => some m
    | some b => if betterMaster m b then some m else some b) none

/-- Whether an identity is that of the best master. -/
def isMaster (s : State) (master : Nat) : Bool := (bestMaster s).any (·.identity = master)

/-- A PTP message on a port that is not the cadence port: dropped and counted (15 R786). -/
def otherPtp (port : Nat) (s : State) : State := bump s .ethRxOther port

/-- SYNC (15 R795): a one-step Sync is ignored and counted; a two-step one of the best master waits for its Follow_Up. -/
def execSync (port master seq received : Nat) (twoStep : Bool) (s : State) : Out :=
  if !ptpPort s port then .next (otherPtp port s)
  else if !twoStep then .next (bump s .ethPtpIgnored port)
  else if isMaster s master then .next (setCad { s.cad with sync := some (master, seq, received) } s)
  else .next s

/-- FOLLOW_UP (R66): with the Sync it belongs to, a reference update. -/
def execFollowUp (port master seq now : Nat) (offset : Int) (s : State) : Out :=
  if !ptpPort s port then .next (otherPtp port s)
  else
    match s.cad.sync with
    | some (m, q, _) =>
      if m = master && q = seq && isMaster s master then
        .next (referenceUpdate now offset (setCad { s.cad with sync := none } s))
      else .next s
    | none => .next s

/-- ANNOUNCE (15 R794): a master of the configured domain is heard of. -/
def execAnnounce (port domain : Nat) (master : PtpMaster) (s : State) : Out :=
  if !ptpPort s port then .next (otherPtp port s)
  else if domain ≠ s.cad.ptpDomain then .next s
  else .next (setCad { s.cad with masters := Table.put s.cad.masters master.identity master } s)

/-- DELAY_REQ (15 R794): the device sends a Delay_Req to its master. -/
def execDelayReq (now : Nat) (s : State) : Out :=
  if s.cad.sourced && !s.cad.pps && (bestMaster s).isSome then
    let c := { s.cad with delayReq := some (s.cad.delaySeq, now), delaySeq := (s.cad.delaySeq + 1) % 65536 }
    .next (emit (.delayReq s.cad.ptpPort s.cad.delaySeq) (setCad c s))
  else .next s

/-- DELAY_RESP (15 R794): the path delay that the answer to the last Delay_Req measures. -/
def execDelayResp (port master seq : Nat) (delay : Int) (s : State) : Out :=
  if !ptpPort s port then .next (otherPtp port s)
  else
    match s.cad.delayReq with
    | some (q, _) =>
      if q = seq && isMaster s master then
        .next (setCad { s.cad with pathDelay := delay, delayReq := none } s)
      else .next s
    | none => .next s

/-! ### Marks (R83-R103) -/

/-- Class order of a mark at a boundary (R92): its ring's class; firmware marks first, a DISABLED ring's last (log entry 12). -/
def markClass (s : State) (m : Mark) : Nat :=
  match m.work with
  | .stored _ _ => if (ringOf s m.ring).state = .disabled then 3 else (ringOf s m.ring).cls
  | _ => 0

/-- The order in which marks are taken at one boundary (R92). -/
def markBefore (s : State) (a b : Nat × Mark) : Bool :=
  decide ([a.2.target, markClass s a.2, a.1] < [b.2.target, markClass s b.2, b.1])

/-- A mark inserted into an ordered list of marks. -/
def insertMark (s : State) (a : Nat × Mark) : List (Nat × Mark) → List (Nat × Mark)
  | [] => [a]
  | b :: t => if markBefore s a b then a :: b :: t else b :: insertMark s a t

/-- A mark taken: it expires, is withheld, or is to be released (R93-R96). -/
def takeMark (s : State) (e : Nat × Mark) : State :=
  let (slot, m) := e
  let c := s.cad
  if m.window < c.stroke - m.target then
    setCad { c with taken := c.taken ++ [⟨slot, c.stroke, some (if m.withheld then stAdrift else stDeadlinePassed)⟩] } s
  else if m.lockstep && c.state = .adrift then
    setCad { c with marks := Table.put c.marks slot { m with withheld := true } } s
  else setCad { c with taken := c.taken ++ [⟨slot, c.stroke, none⟩] } s

/-- Every mark whose target is at or before the stroke taken in the order of R92. -/
def takeMarks (s : State) : State :=
  let due := s.cad.marks.filter (fun e => e.2.target ≤ s.cad.stroke && !s.cad.taken.any (·.slot = e.1))
  (due.foldr (insertMark s) []).foldl takeMark s

/-- STROKE_BOUNDARY (R56, R57, R73, R74, R92): at a local time the count takes the formula's value, once it exceeds the count
and, after a step, the value just after the step; every due mark is taken. -/
def strokeBoundary (now : Nat) (s : State) : State :=
  let s := setCad { s.cad with timeNs := max now s.cad.timeNs } s
  let c := s.cad
  let v := strokeAt c now
  if !c.configured || now < c.origin then s
  else if v ≤ c.stroke || (match c.stepHold with | some h => decide (v ≤ h) | none => false) then s
  else takeMarks (setCad { c with stroke := v, stepHold := none, preOrigin := false } s)

/-- ORIGIN_REACHED (R57): stroke 0 begins. -/
def execOriginReached (now : Nat) (s : State) : Out :=
  if s.cad.configured && s.cad.origin ≤ now then
    .next (setCad { s.cad with preOrigin := false, timeNs := max now s.cad.timeNs } s)
  else .next s

/-- A slot after its mark's release or expiry: freed, or advanced to its next target with skipped periods counted (R99,
R100). -/
def advanceMark (slot : Nat) (m : Mark) (s : State) : State :=
  let c := s.cad
  let freed := setCad { c with marks := Table.drop c.marks slot } s
  let left := m.left - 1
  if m.period = 0 || (m.limited && left = 0) then freed
  else
    let next := m.target + m.period
    let skip := ceilDiv (c.stroke - m.window - next) m.period
    if m.limited && left ≤ skip then bumpField freed .cadMarkSkipped 0 0 32 left
    else
      let m := { m with target := next + skip * m.period, left := left - skip, withheld := false }
      bumpField (setCad { c with marks := Table.put c.marks slot m } s) .cadMarkSkipped 0 0 32 skip

/-- A mark record (R103, 19 R927). -/
def markRecord (slot status target : Nat) (s : State) : State :=
  logRecord (rfield s .cadLogQueue 0 0 6) 0x02
    (leBytes 2 slot ++ leBytes 2 status ++ leBytes 1 (cadCode s.cad.state) ++ leBytes 3 0 ++ leBytes 8 target
      ++ leBytes 8 s.cad.stroke) s

/-- A command placed in a ring's order after every command already fetched (R98). -/
def placeCommand (i : Nat) (c : Cmd) (s : State) : State :=
  let r := ringOf s i
  let s := { s with rings := { s.rings with nextSerial := s.rings.nextSerial + 1 } }
  setRing s i { r with inflight := r.inflight ++ [{ c with serial := s.rings.nextSerial - 1, ring := i }] }

/-- A stored command released into its delivery ring, and the status of its mark record (R98, 04 R173, R220). -/
def deliver (m : Mark) (bytes : List Byte) (fn : Fn) (s : State) : Nat × State :=
  let c : Cmd := { bytes := bytes, fn := fn, mark := true }
  match (ringOf s m.ring).state with
  | .active => (stOk, placeCommand m.ring (enterOrder m.ring c s) s)
  | .halted => (stBadState, placeCommand m.ring { c with phase := .done stBadState 0 0 } s)
  | _ => (stBadState, s)

/-- MARK_RELEASE (R94-R100, R103): the first taken mark is released or expires; `fw` is what the release (true) or the expiry of a
mark of Coxswain firmware does. -/
def markRelease (fw : MarkWork → Mark → Bool → State → State) (s : State) : State :=
  match s.cad.taken with
  | [] => s
  | t :: rest =>
    let s := setCad { s.cad with taken := rest } s
    match Table.find s.cad.marks t.slot with
    | none => s
    | some m =>
      match t.expiry with
      | some st =>
        let s := bump (markRecord t.slot st m.target s) .cadMarkExpired
        let s := match m.work with
          | .stored bytes fn =>
            if (ringOf s m.ring).state = .disabled then s
            else placeCommand m.ring { bytes := bytes, fn := fn, phase := .done st t.slot m.target } s
          | _ => s
        let s := advanceMark t.slot m s
        (match m.work with
          | .stored _ _ => s
          | w => fw w m false s)
      | none =>
        match m.work with
        | .stored bytes fn =>
          let (st, s) := deliver m bytes fn s
          advanceMark t.slot m (markRecord t.slot st m.target s)
        | w => fw w m true (advanceMark t.slot m (markRecord t.slot stOk m.target s))

/-- MARK_SET (R83-R90, R980). -/
def markSetBody (c : Cmd) (s : State) : Body := do
  let target := c.param 24 8
  let ring := c.param 44 1
  let want := c.param 45 1
  let stored := c.bytes.drop 64
  let op := fieldLE stored 0 2
  let len := fieldLE stored 3 1
  let n := c.ring / 64
  need (c.reserved [(46, 64)] && op ≠ 0x0201 && op ≠ 0x0202 && op ≠ 0x0203 && fieldLE stored 16 8 = 0
    && ring ≤ 63 && (16 ≤ want || want = 0xFF)) stBadParam
  need (len ≠ 0 && len ≤ c.units - 1) stBadLength
  need (fieldLE stored 8 1 = c.sector) stNotPermitted
  need s.cad.configured stBadState
  let slot := if want = 0xFF then Table.firstFree s.cad.marks 16 240
    else if (Table.find s.cad.marks want).isNone then some want else none
  let used := Table.countIf s.cad.marks (fun k m => 16 ≤ k && m.sector = n)
  match if used < rfield s .cadMarkQuota n 0 8 then slot else none with
  | none => .error { status := stNoResource }
  | some k =>
    need (s.cad.stroke < target || s.cad.stroke - target ≤ c.param 32 4) stDeadlinePassed
    let m : Mark :=
      { sector := n, ring := n * 64 + ring, target := target, window := c.param 32 4, period := c.param 36 4,
        limited := c.param 36 4 ≠ 0 && c.param 40 4 ≠ 0, left := c.param 40 4, lockstep := (fieldLE stored 2 1).testBit 2,
        work := .stored (padTo (64 * len) stored) c.fn }
    let s := setCad { s.cad with marks := Table.put s.cad.marks k m } s
    .ok (.done stOk k target (if s.cad.stroke < target then s else takeMark s (k, m)))

def execMarkSet (ring : Nat) (s : State) : Out := .next (beginCommand 0x0201 ring markSetBody s)

/-- A mark's slot freed without a completion (R101, R107). -/
def cancelMark (slot : Nat) (s : State) : State :=
  setCad { s.cad with marks := Table.drop s.cad.marks slot, taken := s.cad.taken.filter (·.slot ≠ slot) } s

/-- Every mark of a sector cancelled (R107). -/
def cancelSectorMarks (n : Nat) (s : State) : State :=
  ((s.cad.marks.filter (fun e => 16 ≤ e.1 && e.2.sector = n)).map Prod.fst).foldl (fun s k => cancelMark k s) s

/-- Tag of the stored command of a mark; 0 for a firmware mark. -/
def Mark.tag (m : Mark) : Nat :=
  match m.work with
  | .stored bytes _ => fieldLE bytes 4 4
  | _ => 0

/-- MARK_CANCEL (R90, R101, R980). -/
def markCancelBody (c : Cmd) (s : State) : Body := do
  let slot := c.param 24 8
  need (c.reserved [(36, 64)] && 16 ≤ slot && slot ≤ 255) stBadParam
  need s.cad.configured stBadState
  match Table.find s.cad.marks slot with
  | none => .error { status := stBadState }
  | some m =>
    need (m.sector = c.ring / 64) stNotPermitted
    need (m.tag = c.param 32 4) stBadState
    .ok (.done stOk 0 0 (cancelMark slot s))

def execMarkCancel (ring : Nat) (s : State) : Out := .next (beginCommand 0x0202 ring markCancelBody s)

/-- CADENCE_CONFIG (R59, R65, R111, R981, R982). -/
def cadenceConfigBody (c : Cmd) (s : State) : Body := do
  let period := c.param 32 4
  let source := c.param 36 1
  let port := c.param 37 1
  let domain := c.param 38 1
  let flags := c.param 39 1
  let tol := c.param 40 4
  let lock := c.param 44 4
  let ppb := c.param 48 4
  need (100 ≤ period && period ≤ 1000000 && source ≤ 1 && port ≤ 7 && domain ≤ 127 && flags ≤ 1) stBadParam
  need (1000 ≤ tol && tol ≤ 1000000 && 100 ≤ lock && lock ≤ tol && 1 ≤ ppb && ppb ≤ 10000) stBadParam
  need (c.param 52 4 ≤ 1000000 && c.param 56 4 ≤ 10000 && c.reserved [(60, 64)]) stBadParam
  need (flags = 0 || !s.cad.configured) stBadState
  let k := s.cad
  let pps := source = 1
  let moved := k.sourced && k.pps ≠ pps
  let elsewhere := k.sourced && (moved || k.ptpPort ≠ port || k.ptpDomain ≠ domain)
  let k := { k with est := estimateAt k k.timeNs, estTime := k.timeNs, sourced := true, pps := pps, ptpPort := port,
                    ptpDomain := domain, toleranceNs := tol, lockNs := lock, holdoverPpb := ppb, slewNs := c.param 52 4,
                    asymNs := c.param 56 4 }
  let k := if moved then { k with refPresent := false, goodUpdates := 0 } else k
  let k := if elsewhere then { k with sync := none, masters := [], delayReq := none } else k
  let k := if flags = 1 then
      let k := { k with origin := c.param 24 8, periodUs := period, configured := true }
      { k with preOrigin := decide (k.timeNs < k.origin), stroke := if k.timeNs < k.origin then 0 else strokeAt k k.timeNs }
    else k
  .ok (.done stOk 0 0 (judgeCad (setCad k s)))

/-- The repeating mark of the patrol scrub in slot 0, one granule at each release (05 R259, R260; log entry 69): set while an interval
and a time base are configured. -/
def setScrubMark (s : State) : State :=
  let interval := rfield s .memScrubCfg 0 0 20
  if interval = 0 || !s.cad.configured || !s.rst.bootDone then
    (if (Table.find s.cad.marks 0).isNone then s else cancelMark 0 s)
  else
    let period := max 1 (interval * 1000000 / 512 / s.cad.periodUs)
    if (Table.find s.cad.marks 0).map (fun m => m.period) = some period then s
    else
      let m : Mark := { target := s.cad.stroke + period, window := 2 ^ 32 - 1, period := period, work := .firmware 0 }
      let s := cancelMark 0 s
      setCad { s.cad with marks := Table.put s.cad.marks 0 m } s

def execCadenceConfig (ring : Nat) (s : State) : Out := .next (setScrubMark (beginCommand 0x0203 ring cadenceConfigBody s))

end Sys2Proof.Machine
end

