-- ==== Sys2Proof/Machine/Float.lean ====
section
/-! DEFINITION. Floating point as exact values that are rounded once (chapter 13 of spec/, R663-R671). -/
namespace Sys2Proof.Machine

/-- A float value: NaN, an infinity, or the exact number `m * 2 ^ e` with a sign. -/
inductive Fp where
  | nan
  | inf (neg : Bool)
  | fin (neg : Bool) (m : Nat) (e : Int)
  deriving DecidableEq, Repr

/-- A binary format with exponent and mantissa field widths and the NaN that the device writes. `finite` says that the
format has no infinity and one NaN mantissa (E4M3). -/
structure FpFmt where
  ebits : Nat
  mbits : Nat
  nan : Nat
  finite : Bool := false
  deriving DecidableEq, Repr

abbrev f32 : FpFmt := { ebits := 8, mbits := 23, nan := 0x7FC00000 }
abbrev f16 : FpFmt := { ebits := 5, mbits := 10, nan := 0x7E00 }
abbrev bf16 : FpFmt := { ebits := 8, mbits := 7, nan := 0x7FC0 }
abbrev e4m3 : FpFmt := { ebits := 4, mbits := 3, nan := 0x7F, finite := true }
abbrev e5m2 : FpFmt := { ebits := 5, mbits := 2, nan := 0x7E }

/-- Exponent of the unit of the smallest subnormal of a format. -/
def FpFmt.unit (f : FpFmt) : Int := 2 - (2 ^ (f.ebits - 1) : Nat) - (f.mbits : Int)

/-- Bit pattern of the infinity of a format, without its sign. -/
def FpFmt.infBits (f : FpFmt) : Nat := (2 ^ f.ebits - 1) * 2 ^ f.mbits

/-- The value that a bit pattern holds (R663, R669, R671). -/
def FpFmt.value (f : FpFmt) (bits : Nat) : Fp :=
  let neg := bits.testBit (f.ebits + f.mbits)
  let ex := bitsOf bits f.mbits f.ebits
  let man := bitsOf bits 0 f.mbits
  if f.finite then
    if ex = 2 ^ f.ebits - 1 && man = 2 ^ f.mbits - 1 then .nan
    else if ex = 0 then .fin neg man f.unit
    else .fin neg (man + 2 ^ f.mbits) (f.unit + (ex - 1 : Nat))
  else if ex = 2 ^ f.ebits - 1 then (if man = 0 then .inf neg else .nan)
  else if ex = 0 then .fin neg man f.unit
  else .fin neg (man + 2 ^ f.mbits) (f.unit + (ex - 1 : Nat))

/-- A magnitude `m * 2 ^ e` rounded to nearest, ties to even, to the unit `2 ^ q`. -/
def roundTo (m : Nat) (e q : Int) : Nat :=
  if q ≤ e then m * 2 ^ (e - q).toNat
  else
    let k := (q - e).toNat
    let t := m / 2 ^ k
    let r := m % 2 ^ k
    if 2 * r < 2 ^ k then t else if 2 ^ k < 2 * r then t + 1 else t + t % 2

/-- The bits of a rounded magnitude with an unbounded exponent: consecutive numbers in order of value. -/
def FpFmt.magnitude (f : FpFmt) (m : Nat) (e : Int) : Nat :=
  if m = 0 then 0
  else
    let top : Int := e + (Nat.log2 m : Int) - (f.mbits : Int)
    let q := if f.unit < top then top else f.unit
    (q - f.unit).toNat * 2 ^ f.mbits + roundTo m e q

/-- Sign bit of a format. -/
def FpFmt.sign (f : FpFmt) (neg : Bool) : Nat := if neg then 2 ^ (f.ebits + f.mbits) else 0

/-- A value rounded once to a format under roundTiesToEven (R663, R666, R667); overflow gives an infinity. -/
def FpFmt.round (f : FpFmt) : Fp → Nat
  | .nan => f.nan
  | .inf neg => f.sign neg + f.infBits
  | .fin neg m e => f.sign neg + min (f.magnitude m e) f.infBits

/-- The signed mantissa of a finite value. -/
def signedMan (neg : Bool) (m : Nat) : Int := if neg then -(m : Int) else m

/-- Exact sum (R663): an exact zero sum is positive unless both terms are negative zeros. -/
def Fp.add : Fp → Fp → Fp
  | .nan, _ => .nan
  | _, .nan => .nan
  | .inf a, .inf b => if a = b then .inf a else .nan
  | .inf a, .fin _ _ _ => .inf a
  | .fin _ _ _, .inf b => .inf b
  | .fin na ma ea, .fin nb mb eb =>
    let e := if ea ≤ eb then ea else eb
    let x := signedMan na (ma * 2 ^ (ea - e).toNat) + signedMan nb (mb * 2 ^ (eb - e).toNat)
    if x = 0 then .fin (ma = 0 && mb = 0 && na && nb) 0 e else .fin (decide (x < 0)) x.natAbs e

/-- Exact product. -/
def Fp.mul : Fp → Fp → Fp
  | .nan, _ => .nan
  | _, .nan => .nan
  | .inf a, .inf b => .inf (a != b)
  | .inf a, .fin nb mb _ => if mb = 0 then .nan else .inf (a != nb)
  | .fin na ma _, .inf b => if ma = 0 then .nan else .inf (na != b)
  | .fin na ma ea, .fin nb mb eb => .fin (na != nb) (ma * mb) (ea + eb)

/-- Sign changed. -/
def Fp.neg : Fp → Fp
  | .nan => .nan
  | .inf a => .inf (!a)
  | .fin n m e => .fin (!n) m e

/-- Magnitude. -/
def Fp.abs : Fp → Fp
  | .nan => .nan
  | .inf _ => .inf false
  | .fin _ m e => .fin false m e

/-- Whether one finite value is below another. -/
def finLt (na : Bool) (ma : Nat) (ea : Int) (nb : Bool) (mb : Nat) (eb : Int) : Bool :=
  let e := if ea ≤ eb then ea else eb
  decide (signedMan na (ma * 2 ^ (ea - e).toNat) < signedMan nb (mb * 2 ^ (eb - e).toNat))

/-- Numeric order of two values, false with a NaN. -/
def Fp.lt : Fp → Fp → Bool
  | .nan, _ => false
  | _, .nan => false
  | .inf a, .inf b => a && !b
  | .inf a, .fin _ _ _ => a
  | .fin _ _ _, .inf b => !b
  | .fin na ma ea, .fin nb mb eb => finLt na ma ea nb mb eb

/-- Whether a value is a NaN. -/
def Fp.isNan : Fp → Bool
  | .nan => true
  | _ => false

/-- Sign of a value. -/
def Fp.isNeg : Fp → Bool
  | .nan => false
  | .inf n => n
  | .fin n _ _ => n

/-- FMIN: the other operand of a NaN, -0 below +0 (R664). -/
def Fp.min (a b : Fp) : Fp :=
  if a.isNan then b else if b.isNan then a
  else if a.lt b then a else if b.lt a then b else if a.isNeg then a else b

/-- FMAX (R664). -/
def Fp.max (a b : Fp) : Fp :=
  if a.isNan then b else if b.isNan then a
  else if a.lt b then b else if b.lt a then a else if a.isNeg then b else a

/-- The integer part of a value, toward zero, saturated to a range; 0 for a NaN (R667). -/
def Fp.toInt (lo hi : Int) : Fp → Int
  | .nan => 0
  | .inf n => if n then lo else hi
  | .fin n m e =>
    let t := if 0 ≤ e then m * 2 ^ e.toNat else m / 2 ^ (-e).toNat
    let x := signedMan n t
    if x < lo then lo else if hi < x then hi else x

/-- An integer as a value. -/
def Fp.ofInt (x : Int) : Fp := .fin (decide (x < 0)) x.natAbs 0

/-! ### Correctly rounded functions (R665): an inexact result is a prefix of the exact one with one more set bit, which no
format of the device reaches, so that one rounding gives the correctly rounded result (log entry 23) -/

/-- Integer square root by bits: the largest `r` below `2 ^ k` plus the part found whose square does not exceed `n`. -/
def sqrtBits (n : Nat) : Nat → Nat → Nat
  | 0, r => r
  | k + 1, r => if (r + 2 ^ k) * (r + 2 ^ k) ≤ n then sqrtBits n k (r + 2 ^ k) else sqrtBits n k r

/-- Integer square root. -/
def isqrt (n : Nat) : Nat := sqrtBits n (Nat.log2 n / 2 + 1) 0

/-- A value `m * 2 ^ e`, one bit longer when more digits follow. -/
def sticky (neg : Bool) (m : Nat) (e : Int) (more : Bool) : Fp :=
  .fin neg (2 * m + bitNat more) (e - 1)

/-- Reciprocal: 200 further bits of the quotient. -/
def Fp.rcp : Fp → Fp
  | .nan => .nan
  | .inf n => .fin n 0 0
  | .fin n m e => if m = 0 then .inf n else
    let k := Nat.log2 m + 200
    sticky n (2 ^ k / m) (-e - (k : Int)) (2 ^ k % m ≠ 0)

/-- A positive number `m * 2 ^ e` with an even exponent and at least 400 further bits. -/
def evenForm (m : Nat) (e : Int) : Nat × Int :=
  if e % 2 = 0 then (m * 2 ^ 400, e - 400) else (m * 2 ^ 401, e - 401)

/-- Square root. -/
def Fp.sqrt : Fp → Fp
  | .nan => .nan
  | .inf n => if n then .nan else .inf false
  | .fin n m e =>
    if m = 0 then .fin n 0 0 else if n then .nan
    else
      let (x, q) := evenForm m e
      let r := isqrt x
      sticky false r (q / 2) (r * r ≠ x)

/-- Reciprocal square root: the root of a quotient with 800 bits. -/
def Fp.rsqrt : Fp → Fp
  | .nan => .nan
  | .inf n => if n then .nan else .fin false 0 0
  | .fin n m e =>
    if m = 0 then .inf n else if n then .nan
    else
      let (x, q) := if e % 2 = 0 then (m, e) else (m * 2, e - 1)
      let k := (Nat.log2 x / 2 + 400) * 2
      let t := 2 ^ k / x
      let r := isqrt t
      sticky false r (-(q / 2) - ((k / 2 : Nat) : Int)) (r * r ≠ t || 2 ^ k % x ≠ 0)

/-- The product of `2 ^ (2 ^ -i)` over the set bits of a fraction, most significant first, as a number of 256 fraction bits;
`root` is the current factor. -/
def exp2Bits : List Bool → Nat → Nat → Nat
  | [], _, acc => acc
  | b :: bs, root, acc =>
    let root := isqrt (root * 2 ^ 256)
    exp2Bits bs root (if b then acc * root / 2 ^ 256 else acc)

/-- Power of two. Its exponent is split into an integer and a fraction of 64 bits (smaller arguments round to 1). -/
def Fp.exp2 : Fp → Fp
  | .nan => .nan
  | .inf n => if n then .fin false 0 0 else .inf false
  | .fin n m e =>
    if m = 0 then .fin false 1 0
    else if 20 < e + (Nat.log2 m : Int) then (if n then .fin false 0 0 else .inf false)
    else if e + (Nat.log2 m : Int) < -40 then
      (if n then sticky false (2 ^ 200 - 1) (-200) true else sticky false (2 ^ 200) (-200) true)
    else
      let x := signedMan n (roundTo m (e + 64) 0)
      let frac := (x % (2 ^ 64 : Nat)).toNat
      let int := x / (2 ^ 64 : Nat)
      if frac = 0 then .fin false 1 int
      else
        let acc := exp2Bits ((List.range 64).map (fun i => frac.testBit (63 - i))) (2 ^ 257) (2 ^ 256)
        sticky false acc (int - 256) true

/-- Fraction bits of the logarithm of a number of 300 fraction bits in [1, 2), by repeated squaring. -/
def log2Bits : Nat → Nat → Nat → Nat
  | 0, _, acc => acc
  | k + 1, y, acc =>
    let y := y * y / 2 ^ 300
    if 2 ^ 301 ≤ y then log2Bits k (y / 2) (2 * acc + 1) else log2Bits k y (2 * acc)

/-- Binary logarithm. -/
def Fp.log2 : Fp → Fp
  | .nan => .nan
  | .inf n => if n then .nan else .inf false
  | .fin n m e =>
    if m = 0 then .inf true else if n then .nan
    else
      let b := Nat.log2 m
      let int : Int := e + (b : Int)
      if m = 2 ^ b then Fp.ofInt int
      else
        let y := m * 2 ^ 300 / 2 ^ b
        let frac := log2Bits 120 y 0
        let x : Int := (int * (2 ^ 120 : Nat) + (frac : Int)) * 2 + 1
        .fin (decide (x < 0)) x.natAbs (-121)

/-! ### The 8-bit formats (R669-R671) -/

/-- Bits of the largest finite value of an 8-bit format. -/
def FpFmt.maxFinite (f : FpFmt) : Nat := if f.finite then 0x7E else 0x7B

/-- A value packed into an 8-bit format (R670). -/
def pack8 (f : FpFmt) (sat : Bool) (x : Fp) : Nat :=
  let tooBig (neg : Bool) : Nat :=
    if sat then f.sign neg + f.maxFinite else if f.finite then f.nan else f.sign neg + f.infBits
  match x with
  | .nan => f.nan
  | .inf neg => tooBig neg
  | .fin neg m e => let b := f.magnitude m e; if f.maxFinite < b then tooBig neg else f.sign neg + b

end Sys2Proof.Machine
end

