-- ==== Sys2Proof/Machine/LatticeMath.lean ====
section
/-! DEFINITION. What the lattice operations compute on words, and their steps (chapter 09 of spec/, R449-R467). A limb is a list
of N words; a polynomial is a list of limbs. -/
namespace Sys2Proof.Machine

/-- The radix of Montgomery form (09, Words). -/
abbrev latBeta : Nat := 2 ^ 64

/-- `b ^ e mod q` by the bits of `e`, lowest first; `fuel` bounds the bits. -/
def powMod (q : Nat) : Nat → Nat → Nat → Nat
  | 0, _, _ => 1 % q
  | fuel + 1, b, e =>
    if e = 0 then 1 % q
    else (if e % 2 = 1 then b else 1) * powMod q fuel (b * b % q) (e / 2) % q

/-- Power of exponents below `2 ^ 70`. -/
def modPow (q b e : Nat) : Nat := powMod q 70 (b % q) e

/-- Inverse modulo a prime. -/
def modInv (q x : Nat) : Nat := modPow q x (q - 2)

/-- No divisor from `d` upward among `fuel` numbers. -/
def noDivisor (q : Nat) : Nat → Nat → Bool
  | 0, _ => true
  | fuel + 1, d => q % d ≠ 0 && noDivisor q fuel (d + 1)

/-- Primality (R450). -/
def isPrime (q : Nat) : Bool := 2 ≤ q && noDivisor q (isqrt q - 1) 2

/-- mont(x, y) = x y beta^-1 mod q (09, Words). -/
def mont (q x y : Nat) : Nat := x * y * modInv q (latBeta % q) % q

/-- The `LOG_N` low bits of `k` reversed (R455). -/
def brv (logN k : Nat) : Nat := bitMask ((List.range logN).filter (fun i => k.testBit (logN - 1 - i)))

/-- The root that an operation of degree `2 ^ logN` uses with an entry (R449). -/
def Modulus.root (m : Modulus) (logN : Nat) : Nat := modPow m.q m.psi (2 ^ (m.logN - logN))

/-- NTT of a limb (R455). -/
def ntt (q psi logN : Nat) (a : List Nat) : List Nat :=
  (List.range (2 ^ logN)).map (fun k =>
    ((a.mapIdx (fun j x => x * modPow q psi ((2 * brv logN k + 1) * j % 2 ^ (logN + 1)))).sum) % q)

/-- INTT, the exact inverse (R455). -/
def intt (q psi logN : Nat) (v : List Nat) : List Nat :=
  let n := 2 ^ logN
  let inv := modInv q n
  (List.range n).map (fun j =>
    inv * ((v.mapIdx (fun k x =>
      x * modPow q psi (2 * n - (2 * brv logN k + 1) * j % (2 * n)))).sum) % q)

/-- Wordwise function of two limbs. -/
def limb2 (f : Nat → Nat → Nat) (a b : List Nat) : List Nat := List.zipWith f a b

/-- A Galois map of a limb in the coefficient domain (R459). -/
def autoCoeff (q logN g : Nat) (a : List Nat) : List Nat :=
  let n := 2 ^ logN
  (List.range n).map (fun p =>
    match (List.range n).find? (fun j => j * g % (2 * n) % n = p) with
    | none => 0
    | some j => let x := a.getD j 0; if j * g % (2 * n) < n then x % q else (q - x % q) % q)

/-- A Galois map of a limb in the NTT domain (R459). -/
def autoNtt (logN g : Nat) (v : List Nat) : List Nat :=
  let n := 2 ^ logN
  (List.range n).map (fun k =>
    match (List.range n).find? (fun k' => 2 * brv logN k' + 1 = g * (2 * brv logN k + 1) % (2 * n)) with
    | none => 0
    | some k' => v.getD k' 0)

/-- Product of a list of moduli. -/
def product (qs : List Nat) : Nat := qs.foldl (· * ·) 1

/-- BCONV of limbs over moduli `qs` to one target modulus (R460). -/
def bconv (qs : List Nat) (p : Nat) (a : List (List Nat)) (n : Nat) : List Nat :=
  let big := product qs
  (List.range n).map (fun j =>
    ((qs.mapIdx (fun i q =>
      let y := (a.getD i []).getD j 0 * modInv q (big / q % q) % q
      y * (big / q % p))).sum) % p)

/-- One drop of RESCALE: the top limb leaves (R461). `ms` are modulus and root of each limb. -/
def rescaleDrop (logN : Nat) (ms : List (Nat × Nat)) (a : List (List Nat)) : List (List Nat) :=
  match ms.getLast?, a.getLast? with
  | some (qt, psiT), some top =>
    let c := intt qt psiT logN top
    let r : List Int := c.map (fun x => if (qt - 1) / 2 < x then (x : Int) - qt else x)
    (List.zip ms.dropLast a.dropLast).map (fun e =>
      let q := e.1.1
      let rn := ntt q e.1.2 logN (r.map (fun x => (x % (q : Int)).toNat))
      limb2 (fun x y => (x + q - y) * modInv q (qt % q) % q) e.2 rn)
  | _, _ => a

/-- RESCALE by `d` limbs (R461). -/
def rescale (logN : Nat) : Nat → List (Nat × Nat) → List (List Nat) → List (List Nat)
  | 0, _, a => a
  | d + 1, ms, a => rescale logN d ms.dropLast (rescaleDrop logN ms a)

/-- A slice of a list. -/
def slice {α : Type} (xs : List α) (lo n : Nat) : List α := (xs.drop lo).take n

/-- Sums over the digits of KEYSWITCH: one of the two accumulators, limb by limb over q and p (R462, R463). `key t m` gives
limb `m` of the key part of digit `t`. -/
def keySum (logN l alpha dnum : Nat) (ms : List (Nat × Nat)) (d dc : List (List Nat))
    (key : Nat → Nat → List Nat) : List (List Nat) :=
  ms.mapIdx (fun m mod =>
    (List.range dnum).foldl (fun acc t =>
      let lo := t * alpha
      let width := min alpha (l - lo)
      let e := if lo ≤ m && m < lo + width then d.getD m []
        else ntt mod.1 mod.2 logN
          (bconv ((slice ms lo width).map Prod.fst) mod.1 (slice dc lo width) (2 ^ logN))
      limb2 (fun x y => (x + y) % mod.1) acc (limb2 (mont mod.1) e (key t m))) (List.replicate (2 ^ logN) 0))

/-- The reduction of an accumulator from q and p to q (R463). -/
def keyReduce (logN l : Nat) (ms : List (Nat × Nat)) (u : List (List Nat)) : List (List Nat) :=
  let ps := ms.drop l
  let uc := (List.zip ps (u.drop l)).map (fun e => intt e.1.1 e.1.2 logN e.2)
  (List.zip (ms.take l) (u.take l)).map (fun e =>
    let q := e.1.1
    let c := ntt q e.1.2 logN (bconv (ps.map Prod.fst) q uc (2 ^ logN))
    limb2 (fun x y => (x + q - y) * modInv q (product (ps.map Prod.fst) % q) % q) e.2 c)

/-- KEYSWITCH: the two outputs (R463). `key b t m` is limb `m` of `k_b` of digit `t`. -/
def keyswitch (logN l dnum : Nat) (ms : List (Nat × Nat)) (a d : List (List Nat))
    (key : Nat → Nat → Nat → List Nat) : List (List Nat) × List (List Nat) :=
  let alpha := ceilDiv l dnum
  let dc := (List.zip ms d).map (fun e => intt e.1.1 e.1.2 logN e.2)
  let out := fun b => keyReduce logN l ms (keySum logN l alpha dnum ms d dc (key b))
  ((List.zip ms (List.zip a (out 0))).map (fun e => limb2 (fun x y => (x + y) % e.1.1) e.2.1 e.2.2), out 1)

/-- FLOOD_MASK: the outputs from the words drawn (R464). -/
def floodMask (ms : List (Nat × Nat)) (e pt : Nat) (a : List (List Nat)) (draw : List Nat) :
    List (List Nat) × List Nat :=
  let delta := product (ms.map Prod.fst) / 2 ^ pt
  let n := draw.length / 2
  let r := (List.range n).map (fun j => draw.getD (2 * j) 0 % 2 ^ pt)
  let noise : List Int := (List.range n).map (fun j => ((draw.getD (2 * j + 1) 0 % 2 ^ (e + 1) : Nat) : Int) - (2 ^ e : Nat))
  ((List.zip ms a).map (fun x =>
    let q : Int := x.1.1
    (List.zip x.2 (List.zip r noise)).map (fun w => (((w.1 : Int) + delta * w.2.1 + w.2.2) % q).toNat)), r)

/-! ### Steps (R466) -/

/-- Costs of the group steps of one target limb over `sources` source limbs: groups of at most 16. -/
def groupSteps (n : Nat) : Nat → Nat → List Nat
  | 0, _ => []
  | fuel + 1, sources =>
    if sources = 0 then [] else (min sources 16 * n + 64) :: groupSteps n fuel (sources - min sources 16)

/-- Costs of a conversion from `src` to `dst` limbs (R466). -/
def bconvSteps (n src dst : Nat) : List Nat :=
  List.replicate src (n + 64) ++ (List.replicate dst (groupSteps n (src + 1) src)).flatten

/-- Costs of the steps of KEYSWITCH, in the order of the table of R466 (log entry 31). -/
def keySteps (n ns perLimb cn ci l k dnum : Nat) (keyOff : Bool) : List Nat :=
  let alpha := ceilDiv l dnum
  let digit := fun t =>
    let at' := min alpha (l - t * alpha)
    bconvSteps n at' (l + k - at') ++ List.replicate (l + k - at') cn
      ++ (if keyOff then List.replicate ((l + k) * perLimb) (32 * ns) else List.replicate (l + k) (2 * n + 64))
  List.replicate l ci ++ ((List.range dnum).map digit).flatten ++ List.replicate (2 * k) ci
    ++ (List.replicate 2 (bconvSteps n k l)).flatten ++ List.replicate (2 * l) cn ++ List.replicate (2 * l) (2 * n + 64)

/-- Costs in LAT cycles of the steps of an operation (R466): code, LOG_N, L, P1, P2, streamed accesses, KEY off store. -/
def opSteps (op logN l p1 p2 m : Nat) (keyOff : Bool) : List Nat :=
  let size := 2 ^ logN
  let n := size / 512
  let sizeS := min size (2 ^ 15)
  let ns := sizeS / 512
  let cn := n * logN / 2 + 64
  let ci := cn + n
  if op ≤ 0x07 then
    (if m = 0 then List.replicate l (n + 64) else List.replicate (l * (size / sizeS)) (16 * ns * m))
  else if op = 0x08 then List.replicate l cn
  else if op = 0x09 then List.replicate l ci
  else if op = 0x0A then List.replicate l (2 * n + 64)
  else if op = 0x0B then bconvSteps n l p1
  else if op = 0x0C then
    ((List.range p1).map (fun d => ci :: List.replicate (l - 1 - d) (cn + 2 * n))).flatten
  else if op = 0x0D then keySteps n ns (size / sizeS) cn ci l p1 p2 keyOff
  else List.replicate (size / 4096) 1024 ++ List.replicate l (2 * n + 64) ++ [n + 64]

end Sys2Proof.Machine
end

