-- ==== Sys2Proof/Machine/Pool.lean ====
section
/-! DEFINITION. Which memory lies in a heat pool or an RDMA table, so that its masters keep away (07 R342, R343; 09 R456). -/
namespace Sys2Proof.Machine

/-- Whether a granule of a table lies in a range. -/
def granuleIn (first count g : Nat) : Bool := first ≤ g && g < first + count

/-- Whether an HBM granule, or a lake granule, lies in a heat pool that satisfies a test on its sector. -/
def hbmPooled (s : State) (p : Nat → Bool) (g : Nat) : Bool :=
  s.heat.pools.any (fun e => p e.1 && granuleIn e.2.hbmFirst e.2.hbmCount g)
def lakePooled (s : State) (p : Nat → Bool) (g : Nat) : Bool :=
  s.heat.pools.any (fun e => p e.1 && granuleIn e.2.lakeFirst e.2.lakeCount g)

/-- Whether a range touches a heat pool that satisfies a test. -/
def poolTouches (s : State) (p : Nat → Bool) (a len : Nat) : Bool :=
  if a < 0x008000000000 then
    let g0 := a / 2 ^ 30
    (List.range ((a + (len - 1)) / 2 ^ 30 - g0 + 1)).any (fun i => hbmPooled s p (g0 + i))
  else
    let off := a - 0x080000000000
    let g0 := off / 2 ^ 21
    (List.range ((off + (len - 1)) / 2 ^ 21 - g0 + 1)).any (fun i => lakePooled s p (g0 + i))

/-- Whether a range touches any heat pool. -/
def inPool (s : State) (a len : Nat) : Bool := poolTouches s (fun _ => true) a len

/-- Whether a sector has an open heat slot. -/
def heatsOpen (s : State) (n : Nat) : Bool := s.heat.slots.any (fun e => e.2.sector = n)

/-- Whether a range holds state of a heat slot: a pool granule of a sector with an open slot (07 R342). -/
def holdsHeat (s : State) (a len : Nat) : Bool := poolTouches s (heatsOpen s) a len

/-- Memory of a sector outside its heat pools. -/
def ownsFree (s : State) (n a len : Nat) : Bool := ownsRange s n a len && !inPool s a len

end Sys2Proof.Machine
end

