-- ==== Sys2Proof/Machine/Drbg.lean ====
section
/-! DEFINITION. CTR_DRBG with AES-256 and the derivation function (NIST SP 800-90A, as 08 R415-R417 name it). -/
namespace Sys2Proof.Machine

/-- One AES-256 block. -/
def aesBlock (key block : List Byte) : List Byte := padTo 16 (Config.aes256 key block)

/-- A 16-byte counter plus one. -/
def incr16 (v : List Byte) : List Byte := beBytes 16 (beNat v + 1)

/-- Blocks of counter output under a key: the bytes and the last counter. -/
def ctrBlocks (key : List Byte) : Nat → List Byte → List Byte × List Byte
  | 0, v => ([], v)
  | k + 1, v =>
    let v := incr16 v
    let (rest, w) := ctrBlocks key k v
    (aesBlock key v ++ rest, w)

/-- The update function: new key and counter. -/
def drbgUpdate (data key v : List Byte) : List Byte × List Byte :=
  let t := xorBytes (ctrBlocks key 3 v).1 (padTo 48 data)
  (t.take 32, t.drop 32)

/-- The BCC function over whole blocks; `fuel` bounds their number. -/
def bcc (key : List Byte) : Nat → List Byte → List Byte → List Byte
  | 0, chain, _ => chain
  | k + 1, chain, data =>
    if data = [] then chain else bcc key k (aesBlock key (xorBytes chain (data.take 16))) (data.drop 16)

/-- The derivation function: 48 bytes from input bytes. -/
def derive48 (input : List Byte) : List Byte :=
  let s := beBytes 4 input.length ++ beBytes 4 48 ++ input ++ [0x80]
  let s := padTo ((s.length + 15) / 16 * 16) s
  let k0 := (List.range 32).map (BitVec.ofNat 8)
  let part := fun i => bcc k0 (s.length / 16 + 1) (padTo 16 []) (beBytes 4 i ++ padTo 12 [] ++ s)
  let t := part 0 ++ part 1 ++ part 2
  let key := t.take 32
  let x0 := aesBlock key (t.drop 32)
  let x1 := aesBlock key x0
  x0 ++ x1 ++ aesBlock key x1

/-- Key and counter of a new instance from its entropy, nonce and personalisation (R415). -/
def drbgNew (entropy nonce pers : List Byte) : List Byte × List Byte :=
  drbgUpdate (derive48 (entropy ++ nonce ++ pers)) (padTo 32 []) (padTo 16 [])

/-- An instance reseeded (R416). -/
def Instance.reseed (i : Instance) (entropy add : List Byte) : Instance :=
  let (k, v) := drbgUpdate (derive48 (entropy ++ add)) i.key i.v
  { i with key := k, v := v, count := 0, needReseed := false }

/-- One generate request: its bytes and the instance after it (R417). -/
def Instance.generate (i : Instance) (n : Nat) (add : List Byte) : List Byte × Instance :=
  let extra := if add = [] then [] else derive48 add
  let (k, v) := if add = [] then (i.key, i.v) else drbgUpdate extra i.key i.v
  let (out, v) := ctrBlocks k ((n + 15) / 16) v
  let (k, v) := drbgUpdate extra k v
  (out.take n, { i with key := k, v := v, count := i.count + 1 })

end Sys2Proof.Machine
end

