-- ==== Sys2Proof/Machine/Random.lean ====
section
/-! DEFINITION. The entropy source, its health tests, the seed queue, the expander instances and their commands (chapter 08 of
spec/). -/
namespace Sys2Proof.Machine

/-- The source and expanders replaced. -/
def setRng (r : Rng) (s : State) : State := { s with rng := r }

/-- An annulus; an unlisted one is as after a reset. -/
def annulusOf (s : State) (a : Nat) : Annulus := Table.getD s.rng.annuli a {}

/-- An annulus replaced. -/
def setAnnulus (a : Nat) (x : Annulus) (s : State) : State :=
  setRng { s.rng with annuli := Table.put s.rng.annuli a x } s

/-- HEALTHY annuli (R410). -/
def healthyCount (s : State) : Nat := Table.countIf s.rng.annuli (fun _ x => x.state = .healthy)

/-- RNG.CONFIG.INTERNAL_RESERVE and MIN_ANNULI. -/
def seedReserve (s : State) : Nat := rfield s .rngConfig 0 0 8
def minAnnuli (s : State) : Nat := rfield s .rngConfig 0 8 6

/-- The source state (R410, R412, R413). -/
def sourceState (s : State) : SourceState :=
  if s.rng.katFailed then .failed
  else if !s.rng.started then .startup
  else if healthyCount s = 0 then .failed
  else if healthyCount s < minAnnuli s then .low
  else .ok

/-- Entry into LOW or FAILED recorded (R410): SOURCE ANNULUS with no resource and the state in DETAIL0 (log entry 29). -/
def noteSource (s : State) : State :=
  let x := sourceState s
  let s' := setRng { s.rng with shown := x } s
  if x ≠ s.rng.shown && (x = .low || x = .failed) then
    writeRecord { source := 0x0901, severity := 2, d0 := if x = .low then 2 else 3 } s'
  else s'

/-! ### Instances (R415-R424) -/

/-- An instance replaced. -/
def setInstance (i : Nat) (x : Instance) (s : State) : State :=
  setRng { s.rng with instances := Table.put s.rng.instances i x } s

/-- An instance instantiated from a seed (R415): the nonce is the package serial and the count of instantiations. -/
def newInstance (i : Nat) (x : Instance) (seed pers : List Byte) (s : State) : State :=
  let n := s.rng.instantiations + 1
  let (k, v) := drbgNew seed (leBytes 8 s.top.serial ++ leBytes 8 n) pers
  setInstance i { x with key := k, v := v, count := 0 } (setRng { s.rng with instantiations := n } s)

/-- Personalisation string of an internal instance: "PYRK INT" and its number (R415). -/
def internalPers (i : Nat) : List Byte := [0x50, 0x59, 0x52, 0x4B, 0x20, 0x49, 0x4E, 0x54] ++ leBytes 2 i

/-- The oldest seed taken from the queue (R406). -/
def takeSeed (s : State) : Option (List Byte × State) :=
  match s.rng.queue with
  | [] => none
  | x :: q => some (x, setRng { s.rng with queue := q } s)

/-- An internal instance instantiated when the queue holds a seed (R414, R420, R422). -/
def startInternal (i : Nat) (s : State) : State :=
  match takeSeed s with
  | none => s
  | some (seed, s) => newInstance i {} seed (internalPers i) s

/-- Whether the queue holds a seed for a client (R422). -/
def clientSeed (s : State) : Bool := seedReserve s < s.rng.queue.length

/-- One internal request of at most 65,536 bytes: its bytes, or none when the instance waits for a seed (R421). -/
def internalRequest (i n : Nat) (s : State) : Option (List Byte) × State :=
  let wait := fun (s : State) =>
    bump (setRng { s.rng with internalWaits := insertNat i s.rng.internalWaits } s) .rngInternalWaits
  match Table.find s.rng.instances i with
  | none => (none, s)
  | some x =>
    if x.needReseed || 256 ≤ x.count then
      match takeSeed s with
      | none => (none, if s.rng.internalWaits.contains i then s else wait s)
      | some (seed, s) =>
        let (bs, x) := (x.reseed seed []).generate n []
        (some bs, setInstance i x (setRng { s.rng with internalWaits := s.rng.internalWaits.filter (· ≠ i) } s))
    else
      let (bs, x) := x.generate n []
      (some bs, setInstance i x s)

/-- Bytes drawn from an internal instance in requests of at most 65,536 bytes; `fuel` bounds the requests. -/
def internalDraw (i : Nat) : Nat → Nat → State → Option (List Byte) × State
  | 0, _, s => (some [], s)
  | fuel + 1, n, s =>
    if n = 0 then (some [], s)
    else
      match internalRequest i (min n 65536) s with
      | (none, s) => (none, s)
      | (some bs, s) =>
        match internalDraw i fuel (n - min n 65536) s with
        | (none, s) => (none, s)
        | (some rest, s) => (some (bs ++ rest), s)

/-- A short internal draw: at most 64 KiB. -/
def internalBytes (i n : Nat) (s : State) : Option (List Byte) × State := internalDraw i 1 n s

/-- A client instance joins the wait list, unless it is on it (R424). -/
def joinWait (i : Nat) (s : State) : State :=
  if s.rng.waitList.contains i then s else setRng { s.rng with waitList := s.rng.waitList ++ [i] } s

/-- A client instance leaves the wait list. -/
def leaveWait (i : Nat) (s : State) : State :=
  setRng { s.rng with waitList := s.rng.waitList.filter (· ≠ i) } s

/-- A client instance reseeded from the queue; it leaves the wait list. -/
def clientReseed (i : Nat) (x : Instance) (add : List Byte) (s : State) : Instance × State :=
  match takeSeed s with
  | none => (x, s)
  | some (seed, s) => let x := x.reseed seed add; (x, setInstance i x (leaveWait i s))

/-- A generate request of a client instance (R425, R426): bytes, whether it was served stretched, and the state; none when it is
RNG_STARVED. -/
def clientGenerate (i n : Nat) (first : Bool) (add : List Byte) (s : State) : Option (List Byte × Bool) × State :=
  match Table.find s.rng.instances i with
  | none => (none, s)
  | some x =>
    let starve := (none, bump (joinWait i s) .rngStarved)
    let serve := fun (x : Instance) (stretched : Bool) (s : State) =>
      let (bs, x) := x.generate n add
      (some (bs, stretched), setInstance i x s)
    if x.pr || first || x.needReseed then
      if clientSeed s then let (x, s) := clientReseed i x [] s; serve x false s else starve
    else if x.interval ≤ x.count then
      if clientSeed s then let (x, s) := clientReseed i x [] s; serve x false s
      else if x.count < x.limit then serve x true (bump (joinWait i s) .rngStretched)
      else starve
    else serve x false s

/-- SEED_TO_WAITING_INSTANCE (R423, R424): internal instances first, in instance order; then the head of the wait list. An
internal instance takes its seed with the request that waits for it. -/
def seedToWaiting (s : State) : State :=
  if s.rng.raw then s
  else
    match s.rng.internalWaits with
    | i :: rest =>
      match Table.find s.rng.instances i, takeSeed s with
      | some x, some (seed, s) => setInstance i (x.reseed seed []) (setRng { s.rng with internalWaits := rest } s)
      | _, _ => s
    | [] =>
      match s.rng.waitList with
      | [] => s
      | i :: _ =>
        match Table.find s.rng.instances i with
        | none => leaveWait i s
        | some x => if clientSeed s then (clientReseed i x [] s).2 else s

def execSeedToWaitingInstance (s : State) : Out := .next (seedToWaiting s)

/-- Client instances of a sector uninstantiated (R441). -/
def dropInstances (n : Nat) (s : State) : State :=
  let mine := (s.rng.instances.filter (fun e => 0x100 ≤ e.1 && e.2.sector = n)).map Prod.fst
  setRng { s.rng with instances := s.rng.instances.filter (fun e => !mine.contains e.1)
                      waitList := s.rng.waitList.filter (fun i => !mine.contains i) } s

/-! ### Annuli and health tests (R398-R413) -/

/-- The capture of an annulus ends: with a failure (R439), or done with what it took. -/
def failCapture (a : Nat) (s : State) : State :=
  match s.rng.capture with
  | none => s
  | some c =>
    if c.annulus = a then finish c.serial stHwFault 0 0 (setRng { s.rng with capture := none } s) else s

/-- Acting on a persistent annulus fault: RETIRED until the next cold reset (R409). -/
def actAnnulus : ActFn := fun r _ s =>
  (9, noteSource (setAnnulus r.index { annulusOf s r.index with state := .retired, startup := false, block := [] } s))

/-- A sample lost to an overrun: counted, and the raw block in progress ends (R399); no test has failed. -/
def sampleLost (a : Nat) (s : State) : State :=
  let x := annulusOf s a
  if x.state = .retired || (x.state = .testing && !x.startup) then s
  else setAnnulus a { x with block := [] } (bump s .rngHealthFails)

/-- An annulus fails a health test: counted, its block and its seeds in probation discarded, recorded, and the annulus enters
TESTING (R408). One that is under test or RETIRED is left as it is (log entry 30). -/
def annulusFail (a : Nat) (injected forced : Bool) (s : State) : State :=
  let x := annulusOf s a
  if x.state = .retired || (x.state = .testing && !x.startup) then s
  else
    let lost := (s.rng.probation.filter (fun p => p.annulus = a)).length
    let s := bumpField (bump s .rngHealthFails) .rngSeedsDiscarded 0 0 32 lost
    let s := setRng { s.rng with probation := s.rng.probation.filter (fun p => p.annulus ≠ a) } s
    let s := setAnnulus a { x with state := .testing, startup := false, failures := x.failures + 1, block := [], passed := 0,
                                   lockWindows := 0, moved := false, run := 0, window := 0 } s
    let s := failCapture a s
    noteSource (detect actAnnulus { source := 0x0901, severity := 2, res := { kind := 11, index := a },
                                    injected := injected, forced := forced } s)

/-- One raw bit through the repetition and proportion tests: the annulus after it, and whether it failed (R407). -/
def Annulus.sample (x : Annulus) (b : Bool) : Annulus × Bool :=
  let run := if x.run ≠ 0 && x.lastBit = b then x.run + 1 else 1
  let first := if x.window = 0 then b else x.firstBit
  let equal := (if x.window = 0 then 0 else x.equal) + bitNat (b = first)
  let window := x.window + 1
  ({ x with lastBit := b, run := run, firstBit := first, equal := if window = 1024 then 0 else equal,
            window := window % 1024, passed := min 1024 (x.passed + 1) },
   41 ≤ run || (window = 1024 && 800 ≤ equal))

/-- One raw bit of an annulus: tests, then the raw block of a HEALTHY annulus outside raw test mode (R401, R430, R431). -/
def strobeBit (a : Nat) (b : Bool) (s : State) : State :=
  let x := annulusOf s a
  if x.state = .retired || (x.state = .testing && !x.startup) then s
  else
    let (x, bad) := x.sample b
    let x := if x.state = .healthy && !s.rng.raw then { x with block := x.block ++ [b] } else x
    let s := setAnnulus a x s
    if bad then annulusFail a false false s else s

/-- A capture of raw bits takes its annulus's bit. -/
def captureBit (a : Nat) (b : Bool) (s : State) : State :=
  match s.rng.capture with
  | none => s
  | some c =>
    if c.annulus = a && !c.values && c.bits.length < c.count then
      setRng { s.rng with capture := some { c with bits := c.bits ++ [b] } } s
    else s

/-- The bytes of a finished capture (R401, R439). -/
def packBits : Nat → List Bool → List Byte
  | 0, _ => []
  | k + 1, bs =>
    BitVec.ofNat 8 (bitMask ((List.range 8).filter (fun j => (bs.getD (7 - j) false)))) :: packBits k (bs.drop 8)

def Capture.bytes (c : Capture) : List Byte :=
  if c.values then c.ds.flatMap (fun d => leBytes 2 (ofSigned 16 d)) else packBits (c.count / 8) c.bits

/-- A capture that has all its samples is written to the host and completes (R439). -/
def endCapture (s : State) : State :=
  match s.rng.capture with
  | none => s
  | some c =>
    if (if c.values then c.ds.length else c.bits.length) < c.count then s
    else
      let s' := setRng { s.rng with capture := none } s
      match hostWrite c.sector c.dest c.bytes s' with
      | .error st => finish c.serial st 0 0 s'
      | .ok s => finish c.serial stOk c.count 0 s

/-- ANNULUS_STROBE (R398, R399): the levels of every A and B as bit masks, and the annuli whose sample was lost. -/
def annulusStrobe (a b lost : Nat) (s : State) : State :=
  endCapture ((List.range 32).foldl (fun s k =>
    if lost.testBit k then sampleLost k s
    else
      let bit := a.testBit k != b.testBit k
      captureBit k bit (strobeBit k bit s)) s)

def execAnnulusStrobe (a b lost : Nat) (s : State) : Out := .next (annulusStrobe a b lost s)

/-- RAW_BLOCK_COMPLETE (R402): 1,024 bits of an annulus become a seed in probation. -/
def rawBlockComplete (a : Nat) (s : State) : State :=
  let x := annulusOf s a
  if x.block.length < 1024 || s.rng.raw then s
  else
    let seed := padTo 48 (Config.sha384 (leBytes 1 a ++ padTo 7 [] ++ leBytes 8 x.blocks ++ packBits 128 (x.block.take 1024)))
    let s := setAnnulus a { x with block := x.block.drop 1024, blocks := x.blocks + 1 } s
    setRng { s.rng with probation := s.rng.probation ++ [{ annulus := a, seed := seed }] } s

def execRawBlockComplete (annulus : Nat) (s : State) : Out := .next (rawBlockComplete annulus s)

/-- Seeds of an annulus whose window closed clean. -/
def markProbation (a : Nat) (f : Probation → Probation) (s : State) : State :=
  setRng { s.rng with probation := s.rng.probation.map (fun p => if p.annulus = a then f p else p) } s

/-- The alive window of one annulus (R407): edges of A and of B. -/
def aliveClose (a : Nat) (e : Nat × Nat) (s : State) : State :=
  let x := annulusOf s a
  if x.state = .retired || (x.state = .testing && !x.startup) then s
  else
    match firePoint 0x0901 a s with
    | (true, p, s) => annulusFail a true p s
    | (false, _, s) =>
      let inRange := fun n => 600 ≤ n && n ≤ 2300
      if !(inRange e.1 && inRange e.2) then annulusFail a false false s
      else
        let d : Int := (e.1 : Int) - e.2
        let counts := x.state = .healthy || 1024 ≤ x.passed
        let x := if !counts || 1024 ≤ x.lockWindows then x
          else if x.lockWindows = 0 then { x with lockWindows := 1, firstD := d, moved := false }
          else { x with lockWindows := x.lockWindows + 1, moved := x.moved || d ≠ x.firstD }
        let s := markProbation a (fun p => { p with alive := true }) (setAnnulus a x s)
        match s.rng.capture with
        | some c =>
          if c.annulus = a && c.values && c.ds.length < c.count then
            setRng { s.rng with capture := some { c with ds := c.ds ++ [d] } } s
          else s
        | none => s

/-- ALIVE_WINDOW_CLOSE (R407): the edges counted of every annulus, in order. -/
def execAliveWindowClose (edges : List (Nat × Nat)) (s : State) : Out :=
  .next (endCapture ((edges.take 32).foldl (fun (p : Nat × State) e => (p.1 + 1, aliveClose p.1 e p.2)) (0, s)).2)

/-- STARTUP ends when enough annuli are HEALTHY and 64 seeds are queued; instance 0x0005 is then instantiated (R413, R414). -/
def endStartup (s : State) : State :=
  if !s.rng.started && !s.rng.katFailed && minAnnuli s ≤ healthyCount s && 64 ≤ s.rng.queue.length then
    let s := setRng { s.rng with started := true } s
    noteSource (if (Table.find s.rng.instances 5).isNone then startInternal 5 s else s)
  else s

/-- The lock block of one annulus closes (R407, R411). -/
def lockClose (a : Nat) (s : State) : State :=
  let x := annulusOf s a
  if x.lockWindows < 1024 then s
  else if !x.moved then annulusFail a false false s
  else
    let healthy := x.state = .testing && x.startup
    let x := { x with lockWindows := 0, moved := false }
    let x := if healthy then { x with state := .healthy, startup := false, block := [] } else x
    noteSource (markProbation a (fun p => { p with lock := true }) (setAnnulus a x s))

/-- LOCK_BLOCK_CLOSE. -/
def execLockBlockClose (s : State) : Out := .next (endStartup ((List.range 32).foldl (fun s a => lockClose a s) s))

/-- SEED_LEAVES_PROBATION (R403, R406, R412): the first seed whose windows closed clean enters the queue. `katPass` is the outcome
of the known-answer tests that the first such seed after a reset waits for. -/
def seedLeaves (katPass : Bool) (s : State) : State :=
  if s.rng.katFailed || s.rng.raw then s
  else
    match s.rng.probation.find? (fun p => p.alive && p.lock) with
    | none => s
    | some p =>
      let (fired, _, s) := if s.rng.katDone then (false, false, s) else firePoint 0x0902 0 s
      if !s.rng.katDone && (!katPass || fired) then
        noteSource (writeRecord { source := 0x0902, severity := 3, injected := fired, status := stHwFault }
          (setRng { s.rng with katDone := true, katFailed := true, shown := .failed } s))
      else
        let r := { s.rng with katDone := true, probation := s.rng.probation.erase p }
        if 256 ≤ s.rng.queue.length then setRng r s
        else endStartup (bump (setRng { r with queue := r.queue ++ [p.seed] } s) .rngSeedsMade)

def execSeedLeavesProbation (katPass : Bool) (s : State) : Out := .next (seedLeaves katPass s)

/-! ### Commands (R427-R439) -/

/-- Client instance numbers (R420). -/
def isClient (i : Nat) : Bool := 0x100 ≤ i && i ≤ 0x10FF
def isInternal (i : Nat) : Bool := i ≤ 0xF

/-- Client instances that a sector uses. -/
def instancesOf (s : State) (n : Nat) : Nat := Table.countIf s.rng.instances (fun i x => 0x100 ≤ i && x.sector = n)

/-- Row 2 of R434: the instance is internal or another sector's. -/
def instanceForeign (s : State) (n i : Nat) : Bool :=
  isInternal i || ((Table.find s.rng.instances i).map (fun x => decide (x.sector ≠ n))).getD false

/-- RNG_INSTANTIATE (R433-R435). -/
def rngInstantiateBody (c : Cmd) (s : State) : Body := do
  let n := c.ring / 64
  let named := c.param 24 4
  let interval := if c.param 28 4 = 0 then 4096 else c.param 28 4
  let limit := if c.param 32 4 = 0 then interval else c.param 32 4
  let plen := c.param 36 2
  need (1 + (plen + 63) / 64 ≤ c.units) stBadLength
  need (plen ≤ 256 && (isClient named || isInternal named || named = 0xFFFFFFFF) && interval ≤ 2 ^ 20 && interval ≤ limit
    && c.param 38 1 ≤ 1 && c.reserved [(39, 64)]) stBadParam
  need (!instanceForeign s n named) stNotPermitted
  need (!s.rng.raw && (Table.find s.rng.instances named).isNone) stBadState
  let free := if named = 0xFFFFFFFF then Table.firstFree s.rng.instances 0x100 4096 else some named
  match free with
  | none => .error { status := stNoResource }
  | some i =>
    need (instancesOf s n < (sectorOf s n).rng) stNoResource
    need (sourceState s ≠ .failed) stHwFault
    need (sourceState s ≠ .startup && clientSeed s) stRetryBusy
    match takeSeed s with
    | none => .error { status := stRetryBusy }
    | some (seed, s) =>
      let x : Instance := { sector := n, interval := interval, limit := limit, pr := c.param 38 1 = 1 }
      .ok (.done stOk i 0 (newInstance i x seed (sliceBytes c.bytes 64 plen) s))

def execRngInstantiate (ring : Nat) (s : State) : Out := .next (beginCommand 0x0701 ring rngInstantiateBody s)

/-- RNG_GENERATE (R425, R433-R437). -/
def rngGenerateBody (faults : List LineFault) (c : Cmd) (s : State) : Body := do
  let n := c.ring / 64
  let i := c.param 24 4
  let len := c.param 28 4
  let dest := c.param 32 8
  let dpa := c.param 40 1
  let alen := c.param 42 2
  need (1 + (alen + 63) / 64 ≤ c.units) stBadLength
  need (alen ≤ 256 && (isClient i || isInternal i) && 1 ≤ len && len ≤ 65536 && dpa ≤ 1 && c.param 41 1 ≤ 1
    && c.reserved [(44, 64)] && (dpa = 0 || ownsRange s n dest len)) stBadParam
  need (!instanceForeign s n i) stNotPermitted
  need (dpa = 1 || hostAllowed s n true dest len) stSealedForbids
  need (!s.rng.raw && (Table.find s.rng.instances i).isSome) stBadState
  match clientGenerate i len (c.param 41 1 = 1) (sliceBytes c.bytes 64 alen) s with
  | (none, s) => .ok (.done stRngStarved 0 0 s)
  | (some (bs, stretched), s) =>
    let count := ((Table.find s.rng.instances i).getD {}).count
    let r1 := count % 2 ^ 32 + bitNat stretched * 2 ^ 63
    if dpa = 1 then
      match faultyWrite faults dest bs s with
      | (0, s) => .ok (.done stOk len r1 s)
      | (st, s) => .ok (.done st 0 0 s)
    else
      match hostWrite n dest bs s with
      | .error st => .ok (.done st 0 0 s)
      | .ok s => .ok (.done stOk len r1 s)

def execRngGenerate (ring : Nat) (faults : List LineFault) (s : State) : Out :=
  .next (beginCommand 0x0702 ring (rngGenerateBody faults) s)

/-- RNG_RESEED (R416, R434, R435). -/
def rngReseedBody (c : Cmd) (s : State) : Body := do
  let n := c.ring / 64
  let i := c.param 24 4
  let alen := c.param 42 2
  need (1 + (alen + 63) / 64 ≤ c.units) stBadLength
  need (alen ≤ 256 && (isClient i || isInternal i) && c.reserved [(28, 42), (44, 64)]) stBadParam
  need (!instanceForeign s n i) stNotPermitted
  need (!s.rng.raw) stBadState
  match Table.find s.rng.instances i with
  | none => .error { status := stBadState }
  | some x =>
    need (sourceState s ≠ .failed) stHwFault
    need (sourceState s ≠ .startup && clientSeed s) stRetryBusy
    .ok (.done stOk 0 0 (clientReseed i x (sliceBytes c.bytes 64 alen) s).2)

def execRngReseed (ring : Nat) (s : State) : Out := .next (beginCommand 0x0703 ring rngReseedBody s)

/-- RNG_UNINSTANTIATE (R418, R434, R435). -/
def rngUninstantiateBody (c : Cmd) (s : State) : Body := do
  let n := c.ring / 64
  let i := c.param 24 4
  need ((isClient i || isInternal i) && c.reserved [(28, 64)]) stBadParam
  need (!instanceForeign s n i) stNotPermitted
  need (!s.rng.raw && (Table.find s.rng.instances i).isSome) stBadState
  .ok (.done stOk 0 0 (setRng { s.rng with instances := Table.drop s.rng.instances i
                                           waitList := s.rng.waitList.filter (· ≠ i) } s))

def execRngUninstantiate (ring : Nat) (s : State) : Out := .next (beginCommand 0x0704 ring rngUninstantiateBody s)

/-- LEAVE (R432): every instance must reseed, and the source starts up again. -/
def leaveRaw (s : State) : State :=
  let r := s.rng
  setRng { r with
    raw := false
    started := false
    shown := .startup
    instances := r.instances.map (fun e => (e.1, { e.2 with needReseed := true }))
    probation := []
    annuli := r.annuli.map (fun e => (e.1,
      if e.2.state = .healthy then { e.2 with state := .testing, startup := true, passed := 0, lockWindows := 0, block := [] }
      else e.2)) } s

/-- Whether any heat slot of the package is open; an internal draw is in progress when an internal instance waits (R429). -/
def rawRefused (heatOpen : Bool) (s : State) : Bool := heatOpen || s.rng.internalWaits ≠ [] || s.rng.raw

/-- RNG_RAW_MODE (R427-R432, R439). -/
def rngRawModeBody (heatOpen : State → Bool) (c : Cmd) (s : State) : Body := do
  let action := c.param 24 1
  let kind := c.param 26 1
  let count := c.param 28 4
  let dest := c.param 32 8
  need (!s.sealing.sealed) stSealedForbids
  need (action ≤ 2 && c.reserved [(27, 28), (40, 64)]) stBadParam
  if action = 2 then do
    need (c.param 25 1 < 32 && kind ≤ 1 && 8 ≤ count && count ≤ 2 ^ 25 && count % 8 = 0 && dest % 4096 = 0) stBadParam
    need (s.rng.raw && (annulusOf s (c.param 25 1)).state = .healthy && s.rng.capture.isNone) stBadState
    .ok (.running (setRng { s.rng with capture := some { serial := c.serial, annulus := c.param 25 1, values := kind = 1,
                                                          count := count, sector := c.ring / 64, dest := dest } } s))
  else do
    need (c.reserved [(25, 40)]) stBadParam
    if action = 1 then do
      need (!rawRefused (heatOpen s) s) stBadState
      .ok (.done stOk 0 0 (setRng { s.rng with
        raw := true
        queue := []
        annuli := s.rng.annuli.map (fun e => (e.1, { e.2 with block := [] })) } s))
    else do
      need (s.rng.raw && s.rng.capture.isNone) stBadState
      .ok (.done stOk 0 0 (leaveRaw s))

end Sys2Proof.Machine
end

