-- ==== Sys2Proof/Machine/Contexts.lean ====
section
/-! DEFINITION. Contexts, launches, placement of crew groups, and context kill (chapter 12 of spec/). -/
namespace Sys2Proof.Machine

/-- The crew and context state replaced. -/
def setScl (x : Sculls) (s : State) : State := { s with scl := x }

/-- A context by number. -/
def ctxOf (s : State) (x : Nat) : Option Context := Table.find s.scl.contexts x

/-- A context replaced. -/
def setCtx (x : Nat) (c : Context) (s : State) : State :=
  setScl { s.scl with contexts := Table.put s.scl.contexts x c } s

/-- Ages of the launches of a context. -/
def launchesOf (s : State) (x : Nat) : List Nat := (s.scl.launches.filter (fun e => e.2.ctx = x)).map Prod.fst

/-- Keys of the groups of a launch. -/
def groupsOf (s : State) (age : Nat) : List Nat := (s.scl.groups.filter (fun e => e.2.age = age)).map Prod.fst

/-- Keys of the crews of a group. -/
def crewsOf (s : State) (g : Nat) : List Nat := (s.scl.crews.filter (fun e => e.2.group = g)).map Prod.fst

/-- The launch that a crew runs. -/
def launchOfCrew (s : State) (c : Crew) : Option Launch :=
  (Table.find s.scl.groups c.group).bind (fun g => Table.find s.scl.launches g.age)

/-! ### Kill (R641-R646) -/

/-- Queued matrix descriptors of the crews that a test names discarded (R641). -/
def discardDescriptors (p : Nat → Bool) (s : State) : State :=
  setScl { s.scl with matrix := s.scl.matrix.map (fun e => (e.1, e.2.filter (fun d => !p d.crew))) } s

/-- Keys of every crew of a context. -/
def crewsOfContext (s : State) (x : Nat) : List Nat :=
  (launchesOf s x).flatMap (fun a => (groupsOf s a).flatMap (crewsOf s))

/-- A context killed: its crews stop and its queued descriptors are discarded; the first cause stays (R641, R645). -/
def killContext (x : Nat) (k : Kill) (s : State) : State :=
  match ctxOf s x with
  | none => s
  | some c =>
    if c.dying.isSome || c.killed.isSome then s
    else
      let cs := crewsOfContext s x
      discardDescriptors (fun i => cs.contains i) (setCtx x { c with dying := some k } s)

/-- A departing launch's end noted by the sector command that drains it (03 R136, R144). -/
def noteLaunchEnd (age : Nat) (killed : Bool) (s : State) : State :=
  match s.sct.cmd with
  | none => s
  | some c =>
    if c.launches.contains age then
      let c := { c with launches := c.launches.filter (· ≠ age), killed := c.killed + bitNat killed,
                        finished := c.finished + bitNat (!killed) }
      { s with sct := { s.sct with cmd := some c } }
    else s

/-- A launch removed with its groups and crews: registers, crew slots and local memory are free (R620). -/
def removeLaunch (age : Nat) (s : State) : State :=
  let gs := groupsOf s age
  let cs := gs.flatMap (crewsOf s)
  let s := discardDescriptors (fun i => cs.contains i) s
  setScl { s.scl with launches := Table.drop s.scl.launches age
                      groups := s.scl.groups.filter (fun e => !gs.contains e.1)
                      crews := s.scl.crews.filter (fun e => !cs.contains e.1) } s

/-- The CONTEXT_KILL record (R642, 17 R846). -/
def killRecord (x : Nat) (k : Kill) (s : State) : State :=
  let e : Rec :=
    { source := 0x0B04, severity := 0, sector := x / 64, kind := if k.scull = 0x3FF then 0 else 4,
      index := if k.scull = 0x3FF then 0 else k.scull, status := k.status, addr := k.va, memAddr := true, d0 := k.pc,
      d1 := k.cause + k.crew * 2 ^ 8 + x * 2 ^ 16 + k.group * 2 ^ 32 }
  writeRecord e s

/-- KILL_COMPLETE (R642, R643): groups freed, the record written, every launch of the context completes. -/
def killComplete (x : Nat) (s : State) : State :=
  match ctxOf s x with
  | none => s
  | some c =>
    match c.dying with
    | none => s
    | some k =>
      let ages := launchesOf s x
      let serials := ages.filterMap (fun a => (Table.find s.scl.launches a).map (·.serial))
      let s := ages.foldl (fun s a => noteLaunchEnd a true (removeLaunch a s)) s
      let s := bump (killRecord x k s) .sclKillCount
      let s := setCtx x { c with dying := none, killed := some k.cause, waiters := [] } s
      let s := finishAll serials stContextKilled (k.cause + k.scull * 2 ^ 8 + k.group * 2 ^ 32) k.va s
      let s := bumpField s .sclLaunchCount 0 0 32 ages.length
      finishAll c.waiters stOk 0 0 s

def execKillComplete (ctx : Nat) (s : State) : Out := .next (killComplete ctx s)

/-- The resources of a context that is gone, and its cached translations (R607, R649). -/
def dropContext (x : Nat) (s : State) : State :=
  let s := (launchesOf s x).foldl (fun s a => removeLaunch a s) s
  let s := setScl { s.scl with contexts := Table.drop s.scl.contexts x } s
  { s with mem := { s.mem with caches := s.mem.caches.map (fun e => (e.1, e.2.filter (·.ctx ≠ x))) } }

/-- Every context of a sector freed; no completion is posted for its launches (R649). -/
def freeContexts (n : Nat) (s : State) : State :=
  ((s.scl.contexts.filter (fun e => e.1 / 64 = n)).map Prod.fst).foldl (fun s x => dropContext x s) s

/-- Contexts with a crew on a scull that satisfies a test. -/
def contextsOn (s : State) (p : Nat → Bool) : List Nat :=
  ((s.scl.groups.filter (fun e => p e.2.scull)).filterMap
    (fun e => (Table.find s.scl.launches e.2.age).map (·.ctx))).eraseDups

/-- Every context with a crew on one of the sculls killed with a cause (R648, 17 R863). -/
def killOnSculls (p : Nat → Bool) (cause scull : Nat) (s : State) : State :=
  (contextsOn s p).foldl (fun s x => killContext x { cause := cause, scull := scull } s) s

/-! ### Context commands (R603-R608) -/

/-- Whether host software of a ring's sector may name a context (R608). -/
def ctxPermitted (c : Cmd) (x : Nat) : Bool := x / 64 = c.ring / 64 && x % 64 < 60

/-- CONTEXT_CREATE (R604). -/
def contextCreateBody (c : Cmd) (s : State) : Body := do
  let root := c.param 24 8
  let n := c.ring / 64
  need (c.reserved [(32, 64)] && root % 4096 = 0 && ownsRange s n root 4096) stBadParam
  match Table.firstFree s.scl.contexts (n * 64) 60 with
  | none => .error { status := stNoResource }
  | some x => .ok (.done stOk x 0 (setCtx x { root := root } s))

def execContextCreate (ring : Nat) (s : State) : Out := .next (beginCommand 0x0402 ring contextCreateBody s)

/-- CONTEXT_DESTROY (R607, R608). -/
def contextDestroyBody (c : Cmd) (s : State) : Body := do
  let x := c.param 24 4
  need (c.reserved [(28, 64)] && x < 512) stBadParam
  need (ctxPermitted c x) stNotPermitted
  need ((ctxOf s x).isSome && launchesOf s x = []) stBadState
  .ok (.done stOk 0 0 (dropContext x s))

def execContextDestroy (ring : Nat) (s : State) : Out := .next (beginCommand 0x0410 ring contextDestroyBody s)

/-- CONTEXT_KILL (R606, R608): it completes once the kill is complete. -/
def contextKillBody (c : Cmd) (s : State) : Body := do
  let x := c.param 24 4
  need (c.reserved [(28, 64)] && x < 512) stBadParam
  need (ctxPermitted c x) stNotPermitted
  match ctxOf s x with
  | none => .error { status := stBadState }
  | some k =>
    need k.killed.isNone stBadState
    let s := killContext x { cause := 9 } s
    let k := (ctxOf s x).getD k
    .ok (.running (setCtx x { k with waiters := k.waiters ++ [c.serial] } s))

def execContextKill (ring : Nat) (s : State) : Out := .next (beginCommand 0x0411 ring contextKillBody s)

/-! ### Launches (R609-R617) -/

/-- Register bytes that the crews of a group take in a half of a scull. -/
def halfBytes (distance : Bool) (crews vregs half : Nat) : Nat :=
  if distance then (if half = 0 then (crews + 1) / 2 else crews / 2) * (256 * vregs + 1024)
  else crews * (64 * vregs + 1024)

/-- Whether a group fits an empty scull. -/
def fitsEmpty (distance : Bool) (crews vregs localBytes : Nat) : Bool :=
  halfBytes distance crews vregs 0 ≤ 131072 && localBytes ≤ 262144

/-- LAUNCH (R608-R611). -/
def launchBody (c : Cmd) (s : State) : Body := do
  let n := c.ring / 64
  let x := c.param 24 4
  let mode := c.param 28 1
  let crews := c.param 29 1
  let vregs := c.param 30 2
  let entry := c.param 32 8
  let groups := c.param 48 4
  let lb := c.param 52 4
  let eights := c.param 56 4
  let timeout := c.param 60 4
  need (x < 512 && mode ≤ 1 && 1 ≤ crews && crews ≤ 32 && 4 ≤ vregs && vregs ≤ 256 && vregs % 4 = 0) stBadParam
  need (entry % 256 = 0 && 1 ≤ groups && groups ≤ 2 ^ 24 && lb ≤ 262144 && lb % 256 = 0 && timeout ≤ 3600000) stBadParam
  need (fitsEmpty (mode = 1) crews vregs lb) stBadParam
  let owned := ownedMask s.sct.eights n
  need (ctxPermitted c x && eights &&& owned = eights) stNotPermitted
  need ((ctxOf s x).isSome && decide (mode = 1) = (sectorOf s n).distance) stBadState
  need (((ctxOf s x).getD {}).killed.isNone && ((ctxOf s x).getD {}).dying.isNone) stContextKilled
  let mask := if eights = 0 then owned else eights
  need (mask = 0 || (bitList 32 mask).any (gateOpen s 1)) stRetryPower
  let queued := Table.countIf s.scl.launches (fun _ l => l.ctx / 64 = n && l.next = 0)
  need (queued < 1024) stRetryBusy
  let l : Launch :=
    { serial := c.serial, ctx := x, distance := mode = 1, crews := crews, vregs := vregs, entry := entry,
      arg := c.param 40 8, groups := groups, localBytes := lb, eights := eights, timeoutMs := timeout }
  .ok (.running (setScl { s.scl with launches := Table.put s.scl.launches s.scl.nextAge l,
                                     nextAge := s.scl.nextAge + 1 } s))

def execLaunch (ring : Nat) (s : State) : Out := .next (beginCommand 0x0401 ring launchBody s)

/-- Groups resident on a scull with their launches. -/
def residents (s : State) (j : Nat) : List (Group × Launch) :=
  (s.scl.groups.filter (fun e => e.2.scull = j)).filterMap
    (fun e => (Table.find s.scl.launches e.2.age).map (fun l => (e.2, l)))

/-- Register bytes used in a half of a scull. -/
def usedRegs (s : State) (j half : Nat) : Nat :=
  ((residents s j).map (fun r => halfBytes r.2.distance r.2.crews r.2.vregs half)).sum

/-- Crews resident in a half of a scull in distance mode, or on the scull in sprint mode. -/
def usedSlots (s : State) (j half : Nat) : Nat :=
  ((residents s j).map (fun r => if r.2.distance then (if half = 0 then (r.2.crews + 1) / 2 else r.2.crews / 2)
    else r.2.crews)).sum

/-- The lowest multiple of 256 at which a group's local memory fits beside the others on a scull (log entry 16). -/
def freeLocal (s : State) (j bytes : Nat) : Option Nat :=
  let taken := (residents s j).map (fun r => (r.1.localOff, r.2.localBytes))
  ((0 :: taken.map (fun t => t.1 + t.2)).filter (fun o =>
    o + bytes ≤ 262144 && taken.all (fun t => t.2 = 0 || bytes = 0 || !overlaps o bytes t.1 t.2))).min?

/-- Whether a launch's next group has room on a scull now (R615, R617). -/
def roomOn (s : State) (j : Nat) (l : Launch) : Bool :=
  usedRegs s j 0 + halfBytes l.distance l.crews l.vregs 0 ≤ 131072
    && usedRegs s j 1 + halfBytes l.distance l.crews l.vregs 1 ≤ 131072
    && (if l.distance then usedSlots s j 0 + (l.crews + 1) / 2 ≤ 16 && usedSlots s j 1 + l.crews / 2 ≤ 16
        else usedSlots s j 0 + l.crews ≤ 32)
    && (freeLocal s j l.localBytes).isSome

/-- Whether a scull is one of a launch's effective mask (R610, 03 R135). -/
def inMask (s : State) (j : Nat) (l : Launch) : Bool :=
  let e := j / 8
  Table.find s.sct.eights e = some (l.ctx / 64) && (l.eights = 0 || l.eights.testBit e) && gateOpen s 1 e
    && s.top.sculls.testBit j && !departing s 1 e && !s.rst.heldEights.testBit e

/-- Whether a launch still has a group to place and its context lives. -/
def unplaced (s : State) (l : Launch) : Bool :=
  l.next < l.groups && ((ctxOf s l.ctx).map (fun c => c.dying.isNone && c.killed.isNone)).getD false

/-- The scull that takes the next group of a launch, if one has room for it and for no older launch's next group. -/
def placeFor (s : State) (older : List Launch) (l : Launch) : Option Nat :=
  let start := match l.lastScull with | none => 0 | some j => j + 1
  ((List.range 256).map (fun i => (start + i) % 256)).find? (fun j =>
    inMask s j l && roomOn s j l && older.all (fun o => !(inMask s j o && roomOn s j o)))

/-- The first launch of a list, in order of age, that can place a group, and the scull (R615, R616). -/
def findPlace (s : State) : List (Nat × Launch) → List Launch → Option (Nat × Launch × Nat)
  | [], _ => none
  | (a, l) :: t, older =>
    match placeFor s older l with
    | some j => some (a, l, j)
    | none => findPlace s t (older ++ [l])

/-- The crews of a newly placed group with their start registers (R618). -/
def startCrews (l : Launch) (g number : Nat) : Nat → Nat → Table Crew → Table Crew
  | 0, _, t => t
  | k + 1, base, t =>
    let n := l.crews - (k + 1)
    let threads := if l.distance then 64 else 32
    let c : Crew :=
      { group := g, number := n, half := if l.distance then n % 2 else 0, pc := l.entry,
        v := ((List.range threads).map (fun i => (i, BitVec.ofNat 32 (n * threads + i)))).filter (fun e => e.2 ≠ 0),
        s := [(0, BitVec.ofNat 64 l.arg), (1, BitVec.ofNat 64 number),
              (2, BitVec.ofNat 64 (n + l.crews * 2 ^ 32)), (3, BitVec.ofNat 64 l.groups)] }
    startCrews l g number k base (Table.put t (base + n) c)

/-- GROUP_PLACEMENT (R615-R618): the next group of a sector that has a place is placed, zeroed and started. -/
def groupPlacement (n : Nat) (s : State) : State :=
  let ls := s.scl.launches.filter (fun e => e.2.ctx / 64 = n && unplaced s e.2)
  match findPlace s ls [] with
  | none => s
  | some (a, l, j) =>
    let off := (freeLocal s j l.localBytes).getD 0
    let s := if l.localBytes = 0 then s else zeroFill s (0x080040000000 + j * 0x40000 + off) l.localBytes
    let g := s.scl.nextGroup
    setScl { s.scl with
      groups := Table.put s.scl.groups g { age := a, number := l.next, scull := j, localOff := off }
      nextGroup := g + 1
      crews := startCrews l g l.next l.crews s.scl.nextCrew s.scl.crews
      nextCrew := s.scl.nextCrew + l.crews
      launches := Table.put s.scl.launches a { l with next := l.next + 1, lastScull := some j } } s

def execGroupPlacement (sector : Nat) (s : State) : Out := .next (groupPlacement sector s)

/-- LAUNCH_TIMEOUT (R613): TIMEOUT_MS has passed since the placement of the launch's first group. -/
def launchTimeout (age : Nat) (s : State) : State :=
  match Table.find s.scl.launches age with
  | none => s
  | some l => if l.timeoutMs ≠ 0 && l.next ≠ 0 then killContext l.ctx { cause := 7 } s else s

def execLaunchTimeout (age : Nat) (s : State) : Out := .next (launchTimeout age s)

/-! ### Ends of crews and groups (R612, R620, R639) -/

/-- A barrier ends for a group when every crew has reached it or ended (R639). -/
def releaseBarrier (g : Nat) (s : State) : State :=
  let mine := s.scl.crews.filter (fun e => e.2.group = g)
  if mine.all (fun e => e.2.ended || e.2.atBarrier) then
    setScl { s.scl with crews := s.scl.crews.map (fun e =>
      if e.2.group = g then (e.1, { e.2 with atBarrier := false }) else e) } s
  else s

/-- Whether a crew has a descriptor queued. -/
def hasDescriptor (s : State) (crew : Nat) : Bool := s.scl.matrix.any (fun e => e.2.any (·.crew = crew))

/-- A group whose crews have all ended, with no descriptor left, is freed; a launch whose groups have all ended completes
with OK (R612, R620). `elapsed` is the time since its first placement, in ns. -/
def settleGroup (g elapsed : Nat) (s : State) : State :=
  match Table.find s.scl.groups g with
  | none => s
  | some grp =>
    let mine := s.scl.crews.filter (fun e => e.2.group = g)
    if !mine.all (fun e => e.2.ended && !hasDescriptor s e.1) then s
    else
      let s := setScl { s.scl with crews := s.scl.crews.filter (fun e => e.2.group ≠ g),
                                   groups := Table.drop s.scl.groups g } s
      match Table.find s.scl.launches grp.age with
      | none => s
      | some l =>
        if l.ended + 1 < l.groups then
          setScl { s.scl with launches := Table.put s.scl.launches grp.age { l with ended := l.ended + 1 } } s
        else
          let s := setScl { s.scl with launches := Table.drop s.scl.launches grp.age } s
          noteLaunchEnd grp.age false (bump (finish l.serial stOk l.groups elapsed s) .sclLaunchCount)

end Sys2Proof.Machine
end

