-- ==== Sys2Proof/Machine/Translate.lean ====
section
/-! DEFINITION. Sector page tables, the translation caches of the eights, access counts, and MEM_INVALIDATE (chapter 05 of
spec/, R240-R248). -/
namespace Sys2Proof.Machine

/-- What a crew access wants of a leaf (R243). -/
inductive Want where
  | fetch
  | read
  | write
  deriving DecidableEq, Repr

/-- The answer of a translation: a DPA; a stall on a MOVING leaf (R246); or a translation fault (R243). -/
inductive Xlat where
  | at (dpa : Nat) (s : State)
  | stall
  | fault (s : State)
  /-- The request met the closed gate of an eight: a translation fault whose record names RETRY_POWER (16 R836). -/
  | gated (s : State)

/-- Fields of a page-table entry (R240). -/
abbrev pteValid (e : Nat) : Bool := e.testBit 0
abbrev pteLeaf (e : Nat) : Bool := e.testBit 1
abbrev pteWrite (e : Nat) : Bool := e.testBit 2
abbrev pteExec (e : Nat) : Bool := e.testBit 3
abbrev pteFar (e : Nat) : Bool := e.testBit 4
abbrev pteMoving (e : Nat) : Bool := e.testBit 5
abbrev pteCount (e : Nat) : Bool := e.testBit 6
abbrev pteAddr (e : Nat) : Nat := bitsOf e 12 34 * 4096

/-- Whether a leaf's memory is a unit that the sector owns in full: an HBM granule at level 2; at level 3, 2 MiB of HBM, a
lake granule, or the local memory of an eight (R241, R242). -/
def leafOwned (s : State) (n level dpa : Nat) : Bool :=
  if level = 2 then dpa < 0x008000000000 && ownsRange s n dpa (2 ^ 30)
  else if 0x080040000000 ≤ dpa && dpa < 0x080044000000 then
    Table.find s.sct.eights ((dpa - 0x080040000000) / 0x200000) = some n && !losing s 1 ((dpa - 0x080040000000) / 0x200000)
  else ownsRange s n dpa (2 ^ 21)

/-- Whether a leaf maps a granule of a heat pool, which only firmware contexts may do (07 R343). -/
def leafPooled (s : State) (level dpa : Nat) : Bool :=
  (dpa < 0x008000000000 || dpa < 0x080010000000 && 0x080000000000 ≤ dpa)
    && inPool s dpa (if level = 2 then 2 ^ 30 else 2 ^ 21)

/-- Whether a leaf maps part of an RDMA table, which nothing may translate (10 R503). -/
def leafTabled (s : State) (level dpa : Nat) : Bool :=
  s.rdma.tables.any (fun e => overlaps (e.2 * 2 ^ 30) (2 ^ 30) dpa (if level = 2 then 2 ^ 30 else 2 ^ 21))

/-- Whether an entry met at a level is valid for a sector (R241). -/
def pteOk (s : State) (n level e : Nat) (firmware : Bool) : Bool :=
  pteValid e && bitsOf e 7 5 = 0 && bitsOf e 46 2 = 0
    && (if pteLeaf e then
          level ≠ 1 && pteAddr e % (if level = 2 then 2 ^ 30 else 2 ^ 21) = 0 && (pteFar e || (leafOwned s n level (pteAddr e)
            && (firmware || !leafPooled s level (pteAddr e)) && !leafTabled s level (pteAddr e)))
        else level ≠ 3 && ownsRange s n (pteAddr e) 4096)

/-- Entry of a table read by the walker; none where its line is poisoned (R243). -/
def walkEntry (faults : List LineFault) (a : Nat) (s : State) : Option Nat × State :=
  match readLine faults a s with
  | (0, s) => (some (leNat (peek s a 8)), s)
  | (_, s) => (none, s)

/-- The walk of a virtual address from a table at a level: the leaf as a cache entry, or none for a fault. -/
def walk (faults : List LineFault) (x n va : Nat) : Nat → Nat → Nat → State → Option Cached × State
  | 0, _, _, s => (none, s)
  | k + 1, level, table, s =>
    let a := table + 8 * bitsOf va (48 - 9 * level) 9
    match walkEntry faults a s with
    | (none, s) => (none, s)
    | (some e, s) =>
      if !pteOk s n level e (60 ≤ x % 64) then (none, s)
      else if pteLeaf e then
        (some { ctx := x, page := va / (if level = 2 then 2 ^ 30 else 2 ^ 21), giant := level = 2, entry := e, entryDpa := a,
                sector := n }, s)
      else walk faults x n va k (level + 1) (pteAddr e) s

/-- A cached copy of the leaf of a virtual address. -/
def cachedLeaf (s : State) (eight x va : Nat) : Option Cached :=
  (Table.getD s.mem.caches eight []).find? (fun c =>
    c.ctx = x && c.page = va / (if c.giant then 2 ^ 30 else 2 ^ 21))

/-- The cache of an eight replaced. -/
def setCache (eight : Nat) (l : List Cached) (s : State) : State :=
  { s with mem := { s.mem with caches := Table.put s.mem.caches eight l } }

/-- One access through a cached copy: counted, and every 256th adds 1 to ACCESS of a COUNT leaf, saturating (R247). -/
def useCopy (faults : List LineFault) (eight : Nat) (c : Cached) (s : State) : State :=
  let c' := { c with uses := c.uses + 1 }
  let l := (Table.getD s.mem.caches eight []).map (fun d => if d = c then c' else d)
  let s := setCache eight l s
  if pteCount c.entry && c'.uses % 256 = 0 then
    match readLine faults c.entryDpa s with
    | (0, s) =>
      let n := leNat (peek s (c.entryDpa + 6) 2)
      poke s (c.entryDpa + 6) (leBytes 2 (satAdd 16 n 1))
    | (_, s) => s
  else s

/-- A leaf entered in the cache of an eight: at most 2,048 entries, the oldest leaves (R244; log entry 22). -/
def enterCopy (eight : Nat) (c : Cached) (s : State) : State :=
  setCache eight (c :: ((Table.getD s.mem.caches eight []).filter (fun d =>
    !(d.ctx = c.ctx && d.page = c.page && d.giant = c.giant))).take 2047) s

/-- A translation fault counted (R243). -/
def xlatFault (s : State) : Xlat := .fault (bump s .memXlatFaults)

/-- Whether a cached leaf maps memory that its sector is losing, which no edge admits (03 R135). -/
def leafLosing (s : State) (c : Cached) : Bool :=
  !pteFar c.entry && !leafOwned s c.sector (if c.giant then 2 else 3) (pteAddr c.entry)

/-- The checks of a leaf for an access, and the DPA (R243, R246). -/
def useLeaf (faults : List LineFault) (eight : Nat) (want : Want) (va : Nat) (c : Cached) (s : State) : Xlat :=
  let size := if c.giant then 2 ^ 30 else 2 ^ 21
  if pteFar c.entry || (want = .write && !pteWrite c.entry) || (want = .fetch && !pteExec c.entry) || leafLosing s c then
    xlatFault s
  else if want = .write && pteMoving c.entry then .stall
  else
    let a := pteAddr c.entry + va % size
    if regionOf s a = .localMem && !gateOpen s 1 ((a - 0x080040000000) / 0x200000) then .gated (bump s .pwrRefused)
    else .at a (useCopy faults eight c s)

/-- A virtual address of a context translated for a crew of an eight (R243-R247). A write that meets a cached MOVING leaf
walks again (R246). -/
def translate (faults : List LineFault) (eight x : Nat) (want : Want) (va : Nat) (s : State) : Xlat :=
  if va ≥ 2 ^ 48 then xlatFault s
  else
    match (cachedLeaf s eight x va).filter (fun c => !(want = .write && pteMoving c.entry)) with
    | some c => useLeaf faults eight want va c s
    | none =>
      match walk faults x (x / 64) va 3 1 ((ctxOf s x).getD {}).root s with
      | (none, s) => xlatFault s
      | (some c, s) => useLeaf faults eight want va c (enterCopy eight c s)

/-- Cached copies that a test names dropped from every eight (R248). -/
def dropCopies (p : Cached → Bool) (s : State) : State :=
  { s with mem := { s.mem with caches := s.mem.caches.map (fun e => (e.1, e.2.filter (fun c => !p c))) } }

/-- MEM_INVALIDATE (R248). -/
def memInvalidateBody (c : Cmd) (s : State) : Body := do
  let n := c.ring / 64
  let a := c.param 24 8
  let k := c.param 32 4
  need (c.reserved [(36, 64)] && k ≤ 512 && (k = 0 || (a % 8 = 0 && ownsRange s n a (8 * k)))) stBadParam
  .ok (.done stOk 0 0
    (dropCopies (fun d => d.sector = n && (k = 0 || (a ≤ d.entryDpa && d.entryDpa < a + 8 * k))) s))

def execMemInvalidate (ring : Nat) (s : State) : Out := .next (beginCommand 0x0310 ring memInvalidateBody s)

end Sys2Proof.Machine
end

