-- ==== Sys2Proof/Machine/Retire.lean ====
section
/-! DEFINITION. Retirement of sculls (17 R855, R863, R864; 01 R34, R36, R40; 16 R832). -/
namespace Sys2Proof.Machine

/-- Power state of an eight (kind 1) or engine (kind 2) written. -/
def setPower (kind i : Nat) (p : Power) (s : State) : State :=
  if kind = 1 then { s with rst := { s.rst with eightPower := Table.put s.rst.eightPower i p } }
  else { s with rst := { s.rst with enginePower := Table.put s.rst.enginePower i p } }

/-- A scull that goes offline: contexts with a crew on it are killed, its bit clears with the count, and an eight without
available sculls becomes OFF. -/
def scullOffline (j : Nat) (s : State) : State :=
  let s := killOnSculls (fun x => x = j) 10 j s
  if !s.top.sculls.testBit j then s
  else
    let sculls := setBits s.top.sculls j 1 0
    let s := { s with top := { s.top with sculls := sculls, gen := (s.top.gen + 1) % 2 ^ 32 } }
    if bitsOf sculls (j / 8 * 8) 8 = 0 then setPower 1 (j / 8) .off s else s

/-- Acting on a persistent fault of a scull: the spare lane of its half, or the scull offline (17 R855, R864). -/
def actScull : ActFn := fun r _ s =>
  match r.lane with
  | some lane =>
    let half := r.index * 2 + lane / 16
    if (Table.find s.err.lanesUsed half).isNone then
      (4, { s with err := { s.err with lanesUsed := Table.put s.err.lanesUsed half 1 } })
    else (5, scullOffline r.index s)
  | none => (5, scullOffline r.index s)

end Sys2Proof.Machine
end

