-- ==== Sys2Proof/Machine/Lattice.lean ====
section
/-! DEFINITION. The lattice engines: their commands, queues, step boundaries, suspension, and the effect of an operation on
memory (chapter 09 of spec/). An operation writes its outputs when its last step ends (log entry 33). -/
namespace Sys2Proof.Machine

/-- An engine; an unlisted one is idle and empty. -/
def latOf (s : State) (e : Nat) : LatEngine := Table.getD s.lat e {}

/-- An engine replaced. -/
def setLat (e : Nat) (x : LatEngine) (s : State) : State := { s with lat := Table.put s.lat e x }

/-- Base of an engine's store. -/
def storeBase (e : Nat) : Nat := 0x080020000000 + e * 0x04000000

/-- Size of a store. -/
abbrev storeSize : Nat := 40 * 2 ^ 20

/-- Whether a range lies wholly in an engine's store. -/
def inStore (e a len : Nat) : Bool := storeBase e ≤ a && a + len ≤ storeBase e + storeSize

/-- Parameters of an operation, by packet offset (09, LAT_EXEC). -/
def LatOp.p (o : LatOp) (off n : Nat) : Nat := fieldLE o.params (off - 24) n
def LatOp.engine (o : LatOp) : Nat := o.p 24 1
def LatOp.op (o : LatOp) : Nat := o.p 25 1
def LatOp.logN (o : LatOp) : Nat := o.p 26 1
def LatOp.l (o : LatOp) : Nat := o.p 27 1
def LatOp.p1 (o : LatOp) : Nat := o.p 28 1
def LatOp.p2 (o : LatOp) : Nat := o.p 29 1
def LatOp.modBase (o : LatOp) : Nat := o.p 30 1
def LatOp.modAux (o : LatOp) : Nat := o.p 31 1
def LatOp.aux (o : LatOp) : Nat := o.p 32 4
def LatOp.save (o : LatOp) : Nat := o.p 88 8

/-- Bytes of a limb. -/
def LatOp.limb (o : LatOp) : Nat := 8 * 2 ^ o.logN

/-- A region of an operation: which operand, its address and bytes, and whether it must be in store (R456, R457). -/
structure LatRegion where
  tag : Nat
  addr : Nat
  bytes : Nat
  store : Bool
  deriving DecidableEq, Repr

/-- Regions of an operation in the order A, B, OUT0, OUT1, SCRATCH, KEY (tags 0 to 5; R457, R462, R470, R474). -/
def LatOp.regions (o : LatOp) : List LatRegion :=
  let op := o.op
  let l := o.l
  let b := o.limb
  let inS := 0x08 ≤ op
  let a := [LatRegion.mk 0 (o.p 40 8) (l * b) inS]
  let out := fun n => [LatRegion.mk 2 (o.p 56 8) (n * b) inS]
  let bReg := [LatRegion.mk 1 (o.p 48 8) (l * b) inS]
  let scratch := fun n => [LatRegion.mk 4 (o.p 80 8) n true]
  if op = 0x00 || op = 0x06 || op = 0x07 || op = 0x08 || op = 0x09 || op = 0x0A then a ++ out l
  else if op ≤ 0x04 then a ++ bReg ++ out l
  else if op = 0x05 then a ++ bReg ++ out l ++ [LatRegion.mk 5 (o.p 72 8) (8 * l) false]
  else if op = 0x0B then a ++ out o.p1
  else if op = 0x0C then a ++ out (l - o.p1) ++ scratch b
  else if op = 0x0D then
    a ++ bReg ++ out l ++ [LatRegion.mk 3 (o.p 64 8) (l * b) true] ++ scratch (4 * (l + o.p1) * b)
      ++ [LatRegion.mk 5 (o.p 72 8) (o.p2 * 2 * (l + o.p1) * b) false]
  else a ++ out l ++ [LatRegion.mk 3 (o.p 64 8) b true] ++ scratch (2 * b)

/-- Region of an operation by tag. -/
def LatOp.region (o : LatOp) (tag : Nat) : LatRegion := (o.regions.find? (·.tag = tag)).getD ⟨tag, 0, 0, false⟩

/-- Modulus entries of the auxiliary list. -/
def LatOp.auxCount (o : LatOp) : Nat := if o.op = 0x0B || o.op = 0x0D then o.p1 else 0

/-- Entries an operation uses, in entry order (R477). -/
def LatOp.entries (o : LatOp) : List Nat :=
  (List.range o.l).map (· + o.modBase) ++ (List.range o.auxCount).map (· + o.modAux)

/-- Fields that an operation does not use must be zero (09, Operations). -/
def LatOp.unusedZero (o : LatOp) : Bool :=
  let op := o.op
  let usesB := (1 ≤ op && op ≤ 5) || op = 0x0D
  (op = 0x0B || op = 0x0C || op = 0x0D || op = 0x0E || o.p1 = 0) && (op = 0x0D || op = 0x0E || o.p2 = 0)
    && (op = 0x0B || op = 0x0D || o.modAux = 0) && (op = 0x0A || op = 0x0E || o.aux = 0) && (usesB || o.p 48 8 = 0)
    && (op = 0x0D || op = 0x0E || o.p 64 8 = 0) && (op = 0x05 || op = 0x0D || o.p 72 8 = 0)
    && (0x0C ≤ op || o.p 80 8 = 0) && o.p 36 4 = 0 && zeroRange o.params 72 104

/-- Ranges of the fields (09, LAT_EXEC; R458-R464). -/
def LatOp.fieldsOk (o : LatOp) : Bool :=
  let op := o.op
  o.engine < 8 && op ≤ 0x0E && 12 ≤ o.logN && o.logN ≤ 17 && 1 ≤ o.l && o.l ≤ 64 && o.unusedZero
    && (op ≠ 0x0A || (o.aux % 2 = 1 && o.aux < 2 ^ (o.logN + 1)))
    && (op ≠ 0x0B || (1 ≤ o.p1 && o.p1 ≤ 64))
    && (op ≠ 0x0C || (1 ≤ o.p1 && o.p1 < o.l))
    && (op ≠ 0x0D || (1 ≤ o.p1 && o.l + o.p1 ≤ 64 && 1 ≤ o.p2 && o.p2 ≤ o.l))
    && (op ≠ 0x0E || (o.p1 ≤ 59 && 1 ≤ o.p2 && o.p2 ≤ 63))
    && o.modBase + o.l ≤ 64 && o.modAux + o.auxCount ≤ 64

/-- Whether a region may lie where it does (R454, R456): in the engine's store, or off store in memory of the sector outside
the heat pools. -/
def regionOk (s : State) (n e : Nat) (r : LatRegion) : Bool :=
  r.addr % (if r.tag = 5 && r.bytes < 4096 then 8 else 4096) = 0
    && (inStore e r.addr r.bytes || (!r.store && ownsFree s n r.addr r.bytes))

/-- Whether two store regions may share memory: OUT0 equal to A or B for the operations of R458. -/
def mayShare (op : Nat) (x y : LatRegion) : Bool :=
  (op ≤ 0x09 || op = 0x0C || op = 0x0D) && x.addr = y.addr
    && ((x.tag = 2 && (y.tag = 0 || y.tag = 1)) || (y.tag = 2 && (x.tag = 0 || x.tag = 1)))

/-- No two store regions overlap against R458. -/
def noOverlap (op e : Nat) : List LatRegion → Bool
  | [] => true
  | r :: rs =>
    rs.all (fun t => !inStore e r.addr r.bytes || !inStore e t.addr t.bytes || mayShare op r t
      || !overlaps r.addr r.bytes t.addr t.bytes) && noOverlap op e rs

/-- The distinct store regions of an operation (R474). -/
def LatOp.storeRegions (o : LatOp) (e : Nat) : List (Nat × Nat) :=
  ((o.regions.filter (fun r => inStore e r.addr r.bytes)).map (fun r => (r.addr, r.bytes))).eraseDups

/-- Bytes that a spill writes after its context block. -/
def LatOp.spillBytes (o : LatOp) (e : Nat) : Nat := ((o.storeRegions e).map Prod.snd).sum

/-- Whether SAVE is none or holds the context and the regions in memory of the sector (R474). -/
def saveOk (s : State) (n : Nat) (o : LatOp) : Bool :=
  o.save = 0 || (o.save % 4096 = 0 && ownsFree s n o.save (4096 + o.spillBytes o.engine))

/-- Suspended and yielded operations of an engine (R482). -/
def parked (x : LatEngine) : List LatOp := x.slots.map (fun e => e.2.1) ++ x.yielded.toList

/-- Whether store regions overlap a parked context's. -/
def meetsParked (e : Nat) (x : LatEngine) (regions : List (Nat × Nat)) : Bool :=
  (parked x).any (fun o => (o.storeRegions e).any (fun r => regions.any (fun t => overlaps r.1 r.2 t.1 t.2)))

/-- Entries loaded with a large enough degree (R449). -/
def entriesOk (x : LatEngine) (logN : Nat) (es : List Nat) : Bool :=
  es.all (fun e => ((Table.find x.moduli e).map (fun m => decide (logN ≤ m.logN))).getD false)

/-- An engine is available (01). -/
def engineAvail (s : State) (e : Nat) : Bool := s.top.misc.testBit e

/-- The checks that commands for an engine share (R483, rows 2 and 4 to 6), in two parts. -/
def latOwned (s : State) (n e : Nat) : Except Refuse Unit := need (Table.find s.sct.engines e = some n) stNotPermitted
def latReady (s : State) (e : Nat) : Except Refuse Unit := do
  need (!engineAvail s e || gateOpen s 2 e) stRetryPower
  need (engineAvail s e) stHwFault
  need ((latOf s e).queue.length < 64) stRetryBusy

/-- An item queued on an engine (R444). -/
def latEnqueue (e : Nat) (i : LatItem) (s : State) : State :=
  setLat e { latOf s e with queue := (latOf s e).queue ++ [i] } s

/-! ### Reading and writing operands -/

/-- Words of little-endian bytes. -/
def words64 : Nat → List Byte → List Nat
  | 0, _ => []
  | k + 1, bs => leNat (bs.take 8) :: words64 k (bs.drop 8)

/-- Words as bytes. -/
def wordBytes (ws : List Nat) : List Byte := ws.flatMap (leBytes 8)

/-- Limbs of `n` words. -/
def limbsOf (n : Nat) : Nat → List Nat → List (List Nat)
  | 0, _ => []
  | k + 1, ws => ws.take n :: limbsOf n k (ws.drop n)

/-- An operand read as limbs: the words, or the status of a refused read. -/
def readLimbs (faults : List LineFault) (o : LatOp) (tag : Nat) (s : State) : Except Nat (List (List Nat)) × State :=
  let r := o.region tag
  if r.bytes = 0 then (.ok [], s)
  else
    match faultyRead faults r.addr r.bytes s with
    | (.ok bs, s) => (.ok (limbsOf (2 ^ o.logN) (r.bytes / o.limb) (words64 (r.bytes / 8) bs)), s)
    | (.error st, s) => (.error st, s)

/-- Limbs written at an operand. -/
def writeLimbs (o : LatOp) (tag : Nat) (ls : List (List Nat)) (s : State) : Nat × State :=
  trustedWrite (o.region tag).addr (wordBytes ls.flatten) s

/-- Free words in place of outputs that the manual does not define (R450, R453, R485; log entry 2). -/
def freeLimbs (o : LatOp) (tag : Nat) (s : State) : State :=
  let r := o.region tag
  let n := r.bytes / 8
  let s' := { s with fresh := s.fresh + n }
  (trustedWrite r.addr ((List.range n).flatMap (fun j => leBytes 8 (Config.freeNat (s.fresh + j)))) s').2

/-- Both outputs left undefined. -/
def freeOutputs (o : LatOp) (s : State) : State :=
  let s := freeLimbs o 2 s
  if (o.region 3).bytes = 0 then s else freeLimbs o 3 s

/-- Modulus and root of each limb of the operation's list of entries (R449). -/
def opModuli (x : LatEngine) (o : LatOp) (es : List Nat) : List (Nat × Nat) :=
  es.filterMap (fun e => (Table.find x.moduli e).map (fun m => (m.q, m.root o.logN)))

/-- Whether every word of every limb is below its modulus (R453). -/
def limbsBelow (ms : List (Nat × Nat)) (a : List (List Nat)) : Bool :=
  (List.zip ms a).all (fun e => e.2.all (· < e.1.1))

/-- Constants q' and MONT_SQ of an entry follow from q (R448). -/
def montSq (q : Nat) : Nat := latBeta * latBeta % q

/-- One limb of the wordwise operations 0x00 to 0x07 (R457): `b` second input, `o` old output, `k` the constant of SCALE_ADD. -/
def wordOp (op q : Nat) (a b o : List Nat) (k : Nat) : List Nat :=
  match op with
  | 0x00 => a
  | 0x01 => limb2 (fun x y => (x + y) % q) a b
  | 0x02 => limb2 (fun x y => (x + q - y) % q) a b
  | 0x03 => limb2 (mont q) a b
  | 0x04 => limb2 (fun x y => (x + y) % q) o (limb2 (mont q) a b)
  | 0x05 => limb2 (fun x y => (x + mont q y k) % q) a b
  | 0x06 => a.map (fun x => mont q x (montSq q))
  | _ => a.map (fun x => mont q x 1)

/-- Limb `m` of key part `b` of digit `t` (R462). -/
def keyLimb (o : LatOp) (key : List (List Nat)) (b t m : Nat) : List Nat :=
  let w := o.l + o.p1
  key.getD ((2 * t + b) * w + m) []

/-- OUT0 and OUT1 of an operation from its inputs (R457-R463); FLOOD_MASK has its own form. -/
def latResult (o : LatOp) (ms aux : List (Nat × Nat)) (a b old key : List (List Nat)) : List (List Nat) × List (List Nat) :=
  let op := o.op
  let n := o.logN
  if op ≤ 0x07 then
    (ms.mapIdx (fun i m => wordOp op m.1 (a.getD i []) (b.getD i []) (old.getD i []) ((key.getD 0 []).getD i 0)), [])
  else if op = 0x08 then ((List.zip ms a).map (fun e => ntt e.1.1 e.1.2 n e.2), [])
  else if op = 0x09 then ((List.zip ms a).map (fun e => intt e.1.1 e.1.2 n e.2), [])
  else if op = 0x0A then (a, [])
  else if op = 0x0B then (aux.map (fun t => bconv (ms.map Prod.fst) t.1 a (2 ^ n)), [])
  else if op = 0x0C then (rescale n o.p1 ms a, [])
  else keyswitch n o.l o.p2 (ms ++ aux) a b (keyLimb o key)

/-- The domain of an input: what the engine last wrote there. LAT_EXEC has no field that names it, and words do not show it;
where no operation wrote the region it is free (R459; log entry 34). -/
def domainOf (x : LatEngine) (a : Nat) (s : State) : Bool × State :=
  match Table.find x.domains a with
  | some d => (d, s)
  | none => let (n, s) := drawFree s; (n % 2 = 1, s)

/-- AUTO of limbs in their domain (R459). -/
def autoLimbs (o : LatOp) (nttForm : Bool) (ms : List (Nat × Nat)) (a : List (List Nat)) : List (List Nat) :=
  (List.zip ms a).map (fun e => if nttForm then autoNtt o.logN o.aux e.2 else autoCoeff e.1.1 o.logN o.aux e.2)

/-- The domain an operation leaves its outputs in (R457). -/
def outDomain (op : Nat) (d : Bool) : Bool :=
  if op = 0x08 || op = 0x0C || op = 0x0D || op = 0x03 || op = 0x04 then true
  else if op = 0x09 || op = 0x0B || op = 0x0E then false else d

/-- The draw of FLOOD_MASK in requests of 65,536 bytes; none when one is RNG_STARVED (R464, R465). -/
def floodDraw (inst : Nat) : Nat → State → Option (List Byte) × State
  | 0, s => (some [], s)
  | k + 1, s =>
    match clientGenerate inst 65536 false [] s with
    | (none, s) => (none, s)
    | (some (bs, _), s) =>
      match floodDraw inst k s with
      | (none, s) => (none, s)
      | (some rest, s) => (some (bs ++ rest), s)

/-- The effect of an operation on memory, and its status (R450, R453, R457, R464, R465, R485). -/
def latEffect (faults : List LineFault) (e : Nat) (o : LatOp) (s : State) : Nat × State :=
  let x := latOf s e
  let mods := opModuli x o ((List.range o.l).map (· + o.modBase))
  let aux := opModuli x o ((List.range o.auxCount).map (· + o.modAux))
  match readLimbs faults o 0 s with
  | (.error st, s) => (st, freeOutputs o s)
  | (.ok a, s) =>
  match readLimbs faults o 1 s with
  | (.error st, s) => (st, freeOutputs o s)
  | (.ok b, s) =>
  match (if o.op = 0x04 then readLimbs faults o 2 s else (.ok [], s)) with
  | (.error st, s) => (st, freeOutputs o s)
  | (.ok old, s) =>
  match readLimbs faults { o with params := o.params } 5 s with
  | (.error st, s) => (st, freeOutputs o s)
  | (.ok key, s) =>
    let key := if o.op = 0x05 then [key.flatten] else key
    let good := (mods ++ aux).all (fun m => isPrime m.1) && limbsBelow mods a && limbsBelow mods b && limbsBelow mods old
      && (o.op ≠ 0x0D || (List.range (2 * o.p2)).all (fun t => limbsBelow (mods ++ aux) (slice key (t * (o.l + o.p1)) (o.l + o.p1))))
      && (o.op ≠ 0x05 || (List.zip mods (key.getD 0 [])).all (fun e => decide (e.2 < e.1.1)))
    let (dom, s) := domainOf x (o.region 0).addr s
    let s := setLat e { latOf s e with domains := Table.put (latOf s e).domains (o.region 2).addr (outDomain o.op dom) } s
    if o.op = 0x0E then
      match floodDraw o.aux (2 ^ o.logN / 4096) s with
      | (none, s) => (stRngStarved, s)
      | (some bs, s) =>
        let (_, s) := trustedWrite (o.region 4).addr bs s
        if !good then (stOk, freeLimbs o 2 s)
        else
          let (out, r) := floodMask mods o.p1 o.p2 a (words64 (bs.length / 8) bs)
          match writeLimbs o 2 out s with
          | (0, s) => writeLimbs o 3 [r] s
          | r => r
    else if !good then (stOk, freeOutputs o s)
    else
      let (out0, out1) := if o.op = 0x0A then (autoLimbs o dom mods a, []) else latResult o mods aux a b old key
      match writeLimbs o 2 out0 s with
      | (0, s) => if out1 = [] then (stOk, s) else writeLimbs o 3 out1 s
      | r => r

/-! ### Suspending and resuming (R474-R482) -/

/-- Hash of the entries an operation uses (R477). -/
def entriesHash (x : LatEngine) (o : LatOp) : List Byte :=
  padTo 32 (Config.sha256 (o.entries.flatMap (fun e =>
    let m := (Table.find x.moduli e).getD ⟨0, 0, 0⟩
    leBytes 8 m.q ++ leBytes 8 m.psi ++ leBytes 1 m.logN)))

/-- The context block of a suspended operation (R477). -/
def contextBlock (e : Nat) (o : LatOp) (hash : List Byte) : List Byte :=
  padTo 256 (padTo 104 o.params ++ leBytes 4 o.steps ++ leBytes 8 (storeBase e) ++ leBytes 8 o.check ++ hash
    ++ leBytes 2 o.ring ++ leBytes 4 o.tag)

/-- Store regions written one after the other from an address. -/
def spillRegions : Nat → List (Nat × Nat) → State → State
  | _, [], s => s
  | a, r :: rs, s =>
    match trustedRead r.1 r.2 s with
    | (.ok bs, s) => spillRegions (a + r.2) rs (trustedWrite a bs s).2
    | (.error _, s) => spillRegions (a + r.2) rs s

/-- A spill: the context block, then every distinct store region (R474). -/
def spill (e : Nat) (o : LatOp) (hash : List Byte) (s : State) : State :=
  spillRegions (o.save + 4096) (o.storeRegions e) (trustedWrite o.save (contextBlock e o hash) s).2

/-- The resume token: result0 (R477). -/
def tokenOf (e slot : Nat) (spilled : Bool) (o : LatOp) : Nat :=
  if spilled then 1 + e * 2 + bitsOf o.save 12 34 * 2 ^ 12 else e * 2 + slot * 2 ^ 4 + o.steps % 2 ^ 28 * 2 ^ 12

/-- An operation suspended: saved to a free slot or spilled; its command completes with PREEMPTED_RESUMABLE and the token
(R475, R478). None when its check must wait for a seed, or no slot is free. -/
def suspendOp (e : Nat) (o : LatOp) (spilled : Bool) (s : State) : Option (Nat × Nat × State) :=
  match internalBytes 3 8 s with
  | (none, _) => none
  | (some bs, s) =>
    let o := { o with check := leNat bs }
    let x := latOf s e
    let hash := entriesHash x o
    if spilled then
      let r0 := tokenOf e 0 true o
      some (r0, o.check, finish o.serial stPreempted r0 o.check (spill e o hash s))
    else
      match Table.firstFree x.slots 0 16 with
      | none => none
      | some k =>
        let r0 := tokenOf e k false o
        some (r0, o.check, finish o.serial stPreempted r0 o.check (setLat e { x with slots := Table.put x.slots k (o, hash) } s))

/-- An operation stopped by a shift: spilled when it has SAVE, else its context is lost with the store; it completes with
PREEMPTED_RESUMABLE either way (R475). None when its check must wait for a seed. -/
def shiftSuspend (e : Nat) (o : LatOp) (s : State) : Option State :=
  if o.save ≠ 0 then (suspendOp e o true s).map (fun r => r.2.2)
  else
    match internalBytes 3 8 s with
    | (none, _) => none
    | (some bs, s) => some (finish o.serial stPreempted (tokenOf e 0 false o) (leNat bs) s)

/-- The operation with its store addresses moved to another engine's store (R481). -/
def LatOp.rebase (o : LatOp) (src dst : Nat) : LatOp :=
  let field := fun off =>
    let a := o.p off 8
    let a := if inStore src a 1 then a - storeBase src + storeBase dst else a
    leBytes 8 a
  { o with params := leBytes 1 dst ++ sliceBytes o.params 1 15 ++ field 40 ++ field 48 ++ field 56 ++ field 64 ++ field 72
      ++ field 80 ++ sliceBytes o.params 64 40 }

/-- Regions read back from a spill (R480). -/
def loadRegions : Nat → List (Nat × Nat) → State → State
  | _, [], s => s
  | a, r :: rs, s =>
    match trustedRead a r.2 s with
    | (.ok bs, s) => loadRegions (a + r.2) rs (trustedWrite r.1 bs s).2
    | (.error _, s) => loadRegions (a + r.2) rs s

/-- An operation in progress on an engine. -/
def startOp (e : Nat) (o : LatOp) (s : State) : State := setLat e { latOf s e with running := some o, held := false } s

/-- A LAT_RESUME that reaches the head of its engine's queue (R480-R482). -/
def resumeItem (e serial ring tag t0 t1 : Nat) (s : State) : State :=
  let x := latOf s e
  let refuse := finish serial stBadState 0 0 s
  if t0.testBit 0 then
    let save := bitsOf t0 12 34 * 2 ^ 12
    match trustedRead save 256 s with
    | (.error st, s) => finish serial st 0 0 s
    | (.ok blk, s) =>
      let src := (fieldLE blk 108 8 - storeBase 0) / 0x04000000
      let o : LatOp := { params := blk.take 104, steps := fieldLE blk 104 4 }
      let o' := o.rebase src e
      if fieldLE blk 116 8 ≠ t1 || t1 = 0 || sliceBytes blk 124 32 ≠ entriesHash x o' || meetsParked e x (o'.storeRegions e) then
        finish serial stBadState 0 0 s
      else
        let s := (trustedWrite (save + 116) (leBytes 8 0) s).2
        let s := loadRegions (save + 4096) (o'.storeRegions e) s
        startOp e { o' with serial := serial, ring := ring, tag := tag, cycles := 840 + o'.spillBytes e / 256 } s
  else
    match Table.find x.slots (bitsOf t0 4 4) with
    | none => refuse
    | some (o, hash) =>
      if o.check ≠ t1 || hash ≠ entriesHash x o then refuse
      else
        let s := setLat e { x with slots := Table.drop x.slots (bitsOf t0 4 4) } s
        startOp e { o with serial := serial, ring := ring, tag := tag, cycles := 840, stalls := 0 } s

/-- A LAT_MODULI that reaches the head of its engine's queue (R448). -/
def moduliItem (e serial first logN : Nat) (entries : List (Nat × Nat)) (s : State) : State :=
  let x := latOf s e
  let named := (List.range entries.length).map (· + first)
  if (parked x).any (fun o => o.entries.any (fun i => named.contains i)) then finish serial stBadState 0 0 s
  else
    let t := (entries.mapIdx (fun i m => (i + first, (⟨m.1, m.2, logN⟩ : Modulus)))).foldl
      (fun t p => Table.put t p.1 p.2) x.moduli
    finish serial stOk 0 0 (setLat e { x with moduli := t } s)

/-- Whether an engine may start queued work: idle, no yielded operation, not held, not taken by a heat's CLOSE, not under test,
and ON (R210, R444, R489; 04 R207; 17 R855). -/
def latFree (s : State) (e : Nat) : Bool :=
  let x := latOf s e
  x.running.isNone && x.yielded.isNone && x.heat.isNone && gateOpen s 2 e && !departing s 2 e && !s.rst.heldEngines.testBit e
    && !((Table.find s.sct.engines e).map (fun n => (Table.getD s.rings.held n 0).testBit 1)).getD false
    && !s.err.running.any (fun t => t.res.kind = 5 && t.res.index = e)

/-- Queued items taken in order until an operation runs (R444); `fuel` bounds the items. -/
def latNext (e : Nat) : Nat → State → State
  | 0, s => s
  | fuel + 1, s =>
    if !latFree s e then s
    else
      let x := latOf s e
      match x.queue with
      | [] => s
      | i :: q =>
        let s := setLat e { x with queue := q } s
        match i with
        | .exec o => startOp e { o with cycles := 200 } s
        | .resume serial ring tag t0 t1 => latNext e fuel (resumeItem e serial ring tag t0 t1 s)
        | .moduli serial first logN entries => latNext e fuel (moduliItem e serial first logN entries s)

/-- An engine goes on to its queue. -/
def latGo (e : Nat) (s : State) : State := latNext e 65 s

/-- A LAT_SUSPEND that an operation's end leaves without its operation (09, corner). -/
def dropSuspend (e : Nat) (s : State) : State :=
  match (latOf s e).suspend with
  | none => s
  | some (serial, _) => finish serial stBadState 0 0 (setLat e { latOf s e with suspend := none } s)

/-! ### Stops of a whole engine (R492-R494; 17 R863) -/

/-- Commands of queued items. -/
def LatItem.serial : LatItem → Nat
  | .exec o => o.serial
  | .resume n _ _ _ _ => n
  | .moduli n _ _ _ => n

/-- The operation in progress or yielded, and the queue, end with statuses; contexts are discarded. -/
def latStop (e run queued : Nat) (s : State) : State :=
  let x := latOf s e
  let ops := (x.running.toList ++ x.yielded.toList).map (·.serial)
  let s := dropSuspend e s
  let s := finishAll (x.queue.map LatItem.serial) queued 0 0 (finishAll ops run 0 0 s)
  setLat e { latOf s e with queue := [], running := none, yielded := none, held := false, slots := [], yieldAsked := false,
                            shiftStop := false } s

/-- The store is zeros and the modulus table empty (R494). -/
def latWipe (e : Nat) (s : State) : State :=
  zeroFill (setLat e {} s) (storeBase e) storeSize

/-- Acting on a persistent fault of an engine: retired and OFF (17 R855, R863; 01 R34, R36; 16 R832). -/
def actEngine : ActFn := fun r _ s =>
  let s := latWipe r.index (latStop r.index stHwFault stHwFault s)
  let s := setPower 2 r.index .off s
  (6, { s with top := { s.top with misc := setBits s.top.misc r.index 1 0, gen := (s.top.gen + 1) % 2 ^ 32 } })

/-- A lane fault of an engine: the running operation ends with HW_FAULT (17 R843). -/
def laneFault (e : Nat) (forced : Bool) (s : State) : State :=
  let x := latOf s e
  let s := finishAll (x.running.toList.map (·.serial)) stHwFault 0 0 s
  let s := dropSuspend e (setLat e { x with running := none, held := false } s)
  let d : Detect := { source := 0x0401, severity := 2, res := { kind := 5, index := e }, status := stHwFault,
                      sector := (Table.find s.sct.engines e).getD 0xFF, d0 := 2 * 2 ^ 8, injected := true, forced := forced }
  detect actEngine d s

/-! ### Step boundaries -/

/-- Costs of the steps of an operation (R466). -/
def LatOp.costs (o : LatOp) : List Nat :=
  let e := o.engine
  let off := fun tag => let r := o.region tag; r.bytes ≠ 0 && !inStore e r.addr r.bytes
  let m := bitNat (off 0) + bitNat (off 1) + bitNat (off 2) * (if o.op = 0x04 then 2 else 1)
  opSteps o.op o.logN o.l o.p1 o.p2 m (off 5)

/-- One step's cycles and stall added to an operation and to LAT.PACE_STALLS (R467, R484). -/
def addStep (e stall : Nat) (o : LatOp) (s : State) : LatOp × State :=
  ({ o with steps := o.steps + 1, cycles := o.cycles + o.costs.getD o.steps 0 + stall, stalls := o.stalls + stall },
   bumpField s .latPaceStalls e 0 32 stall)

/-- What a boundary does to a running operation that a stop waits for, most final first (R475, R478; 04 R207, R210). -/
def boundaryStop (e : Nat) (o : LatOp) (s : State) : State :=
  let x := latOf s e
  let count := fun s => bump s .latPreempts e
  if x.shiftStop then
    match shiftSuspend e o s with
    | none => s
    | some s => count (dropSuspend e (setLat e { latOf s e with running := none, held := false, shiftStop := false } s))
  else
    match x.suspend with
    | some (serial, sp) =>
      (match suspendOp e o sp s with
      | none => s
      | some (r0, r1, s) =>
        latGo e (count (finish serial stOk r0 r1 (setLat e { latOf s e with running := none, suspend := none } s))))
    | none =>
      if x.yieldAsked then
        count (setLat e { x with running := none, yielded := some o, yieldAsked := false } s)
      else if ((Table.find s.sct.engines e).map (fun n => (Table.getD s.rings.held n 0).testBit 1)).getD false then
        count (setLat e { x with held := true } s)
      else s

/-- STEP_BOUNDARY: a step other than the last ends (R466, R473). -/
def stepBoundary (e stall : Nat) (s : State) : State :=
  let x := latOf s e
  match x.running with
  | none => s
  | some o =>
    if x.held || o.costs.length ≤ o.steps + 1 then s
    else
      match firePoint 0x0401 e s with
      | (true, p, s) => laneFault e p s
      | (false, _, s) =>
        let (o, s) := addStep e stall o s
        boundaryStop e o (setLat e { latOf s e with running := some o } s)

def execStepBoundary (engine stall : Nat) (s : State) : Out := .next (stepBoundary engine stall s)

/-- LAT_OPERATION_END: the last step ends; the outputs are written and the command completes (R484, R485). -/
def latOperationEnd (e stall : Nat) (faults : List LineFault) (s : State) : State :=
  let x := latOf s e
  match x.running with
  | none => s
  | some o =>
    if x.held || o.steps + 1 ≠ o.costs.length then s
    else
      match firePoint 0x0401 e s with
      | (true, p, s) => laneFault e p s
      | (false, _, s) =>
        let (o, s) := addStep e stall o s
        let (st, s) := latEffect faults e o s
        let s := setLat e { latOf s e with running := none } s
        let s := bump (if st = 0 then finish o.serial stOk o.cycles (o.stalls % 2 ^ 32 + e * 2 ^ 32) s
          else finish o.serial st 0 0 s) .latOpsDone e
        latGo e (dropSuspend e s)

def execLatOperationEnd (engine stall : Nat) (faults : List LineFault) (s : State) : Out :=
  .next (latOperationEnd engine stall faults s)

/-! ### Commands (R446-R448, R478-R483) -/

/-- LAT_EXEC (R483). -/
def latExecBody (c : Cmd) (s : State) : Body := do
  let n := c.ring / 64
  let o : LatOp := { serial := c.serial, ring := c.ring, tag := c.tag, params := sliceBytes c.bytes 24 104 }
  let e := o.engine
  need (o.fieldsOk && o.regions.all (regionOk s n e) && noOverlap o.op e o.regions && saveOk s n o) stBadParam
  latOwned s n e
  need (o.op ≠ 0x0E || ((Table.find s.rng.instances o.aux).map (fun i => decide (i.sector = n) && isClient o.aux)).getD false)
    stNotPermitted
  need (entriesOk (latOf s e) o.logN o.entries && !meetsParked e (latOf s e) (o.storeRegions e)
    && !(o.op = 0x0E && s.rng.raw)) stBadState
  latReady s e
  .ok (.running (latEnqueue e (.exec o) s))

/-- A body that runs queues its item; the engine then goes on. -/
def latGoAll (s : State) : State := (List.range 8).foldl (fun s e => latGo e s) s

def execLatExec (ring : Nat) (s : State) : Out := .next (latGoAll (beginCommand 0x0601 ring latExecBody s))

/-- LAT_SUSPEND (R478, R479). -/
def latSuspendBody (c : Cmd) (s : State) : Body := do
  let n := c.ring / 64
  let e := c.param 24 1
  let sp := (c.param 25 1).testBit 0
  need (e < 8 && c.param 25 1 ≤ 1 && c.reserved [(26, 32), (36, 64)]) stBadParam
  need (Table.find s.sct.engines e = some n) stBadState
  let x := latOf s e
  match (x.running.toList ++ x.yielded.toList).find? (fun o => o.tag = c.param 32 4) with
  | none => .error { status := stBadState }
  | some o => do
    need (!sp || o.save ≠ 0) stBadState
    need (sp || x.slots.length < 16) stNoResource
    if x.held || x.running ≠ some o then
      match suspendOp e o sp s with
      | none => .ok (.later (internalBytes 3 8 s).2)
      | some (r0, r1, s) =>
        let y := latOf s e
        let y := if x.running = some o then { y with running := none, held := false } else { y with yielded := none }
        .ok (.done stOk r0 r1 (bump (setLat e y s) .latPreempts e))
    else do
      need x.suspend.isNone stBadState
      .ok (.running (setLat e { x with suspend := some (c.serial, sp) } s))

def execLatSuspend (ring : Nat) (s : State) : Out := .next (latGoAll (beginCommand 0x0602 ring latSuspendBody s))

/-- LAT_RESUME (R480-R483). -/
def latResumeBody (c : Cmd) (s : State) : Body := do
  let n := c.ring / 64
  let t0 := c.param 24 8
  let spilled := t0.testBit 0
  let own := bitsOf t0 1 3
  let named := c.param 40 1
  let e := if named = 0xFF then own else named
  let save := bitsOf t0 12 34 * 2 ^ 12
  need (c.reserved [(41, 64)] && e < 8 && (spilled || e = own) && (!spilled || ownsFree s n save 4096)) stBadParam
  latOwned s n e
  latReady s e
  .ok (.running (latEnqueue e (.resume c.serial c.ring c.tag t0 (c.param 32 8)) s))

def execLatResume (ring : Nat) (s : State) : Out := .next (latGoAll (beginCommand 0x0603 ring latResumeBody s))

/-- Whether an entry of LAT_MODULI passes the checks of R446. -/
def modulusOk (logN q psi : Nat) : Bool :=
  q % 2 = 1 && 2 ^ 20 < q && q < 2 ^ 60 && q % 2 ^ (logN + 1) = 1 && psi < q && modPow q psi (2 ^ logN) = q - 1

/-- LAT_MODULI (R446-R448; log entry 35 for the order of its checks). -/
def latModuliBody (c : Cmd) (s : State) : Body := do
  let n := c.ring / 64
  let e := c.param 24 1
  let first := c.param 25 1
  let count := c.param 26 1
  let logN := c.param 27 1
  let entries := (List.range count).map (fun i => (c.param (64 + 16 * i) 8, c.param (72 + 16 * i) 8))
  need (!(64 ≤ first && first ≤ 127)) stNotPermitted
  need (e < 8 && first ≤ 63 && 1 ≤ count && count ≤ 28 && 12 ≤ logN && logN ≤ 17 && first + count ≤ 64
    && c.reserved [(28, 64)] && 64 + 16 * count ≤ 64 * c.units) stBadParam 0xFFFFFFFF
  match (List.range count).find? (fun i => !modulusOk logN (entries.getD i (0, 0)).1 (entries.getD i (0, 0)).2) with
  | some i => .error { status := stBadParam, r0 := i }
  | none => do
    latOwned s n e
    latReady s e
    .ok (.running (latEnqueue e (.moduli c.serial first logN entries) s))

def execLatModuli (ring : Nat) (s : State) : Out := .next (latGoAll (beginCommand 0x0610 ring latModuliBody s))

end Sys2Proof.Machine
end

