-- ==== Sys2Proof/Machine/Rdma.lean ====
section
/-! DEFINITION. The RDMA engine: tables, domains, keys, queue pairs, what they send, and their states (chapter 10 of spec/,
R497-R524, R543-R551; 15 R784, R787). -/
namespace Sys2Proof.Machine

/-- The RDMA tables replaced. -/
def setRdma (r : Rdma) (s : State) : State := { s with rdma := r }

/-- The queue pair of a QPN (R499). -/
def qpIndex (qpn : Nat) : Option Nat := if 0x10000 ≤ qpn && qpn < 0x20000 then some (qpn - 0x10000) else none
def qpFind (s : State) (qpn : Nat) : Option (Nat × Qp) :=
  (qpIndex qpn).bind (fun k => (Table.find s.rdma.qps k).map (fun q => (k, q)))

/-- A queue pair replaced. -/
def setQp (k : Nat) (q : Qp) (s : State) : State := setRdma { s.rdma with qps := Table.put s.rdma.qps k q } s

/-- A queue pair changed where it stands. -/
def changeQp (k : Nat) (f : Qp → Qp) (s : State) : State := setRdma { s.rdma with qps := Table.change s.rdma.qps k f } s

/-- Path MTU in bytes. -/
def Qp.mtu (q : Qp) : Nat := 1024 * 2 ^ q.pmtu

/-- Whether a class of a sector's work is held by QUIESCE (04 R207). -/
def heldClass (s : State) (n bit : Nat) : Bool := (Table.getD s.rings.held n 0).testBit bit

/-- Keys of a sector in use. -/
def keysUsed (s : State) (n : Nat) : Nat := Table.countIf s.rdma.keys (fun k _ => k / 2 ^ 20 = n)

/-! ### Keys (R508-R513) -/

/-- Entry of a key with its place in the table: check 6 of R513. -/
def keyEntry (s : State) (n key : Nat) : Option RdmaKey :=
  let i := bitsOf key 8 20
  if bitsOf key 28 4 ≠ n || rfield s .rdmaMrQuota n 0 21 ≤ i then none
  else (Table.find s.rdma.keys (n * 2 ^ 20 + i)).filter (fun k => k.valid && k.variant = key % 256)

/-- Where a checked access goes: device memory, host memory, or the doorbell mirrors of a sector. -/
inductive Target where
  | device (dpa : Nat)
  | host (addr : Nat)
  | mirror (off : Nat)
  deriving DecidableEq, Repr

/-- The mirrors of a sector's rings as a DPA (R508). -/
def mirrorBase (n : Nat) : Nat := 0x0C0000380000 + n * 0x1000

/-- Whether device memory may serve RDMA: HBM or lake of the sector outside heat pools and its table, or a submission ring in
hub SRAM (R508). -/
def rdmaMemory (s : State) (n a len : Nat) : Bool :=
  (ownsFree s n a len
    && ((Table.find s.rdma.tables n).map (fun g => decide (a + len ≤ g * 2 ^ 30) || decide ((g + 1) * 2 ^ 30 ≤ a))).getD true)
  || (s.rings.table.any (fun e => e.1 / 64 = n && e.2.state ≠ .disabled && e.2.hub && decide (e.2.sqBase ≤ a)
        && decide (a + len ≤ e.2.sqBase + 64 * e.2.sqSize)))

/-- The rights and the range of a key: a window narrows its region (R512; log entry 37). -/
def keyView (s : State) (n : Nat) (k : RdmaKey) : Option (RdmaKey × Nat) :=
  if !k.window then some (k, k.access)
  else (k.bound.bind (fun b => keyEntry s n b.2)).map (fun r => (r, k.access &&& r.access))

/-- Checks 6 to 9 of R513 for `len` bytes at an address: the place of the access, or the check that fails. `right` is the
bit of ACCESS that the operation needs. -/
def keyCheck (s : State) (qp : Nat) (q : Qp) (key addr len : Nat) (right : Option Nat) (aligned : Bool) : Except Nat Target :=
  match keyEntry s q.sector key with
  | none => .error 6
  | some k =>
    if k.pd ≠ q.pd || (k.window && (k.bound.map Prod.fst) ≠ some qp) then .error 7
    else
      match keyView s q.sector k with
      | none => .error 7
      | some (r, access) =>
        if !(right.map access.testBit).getD true then .error 8
        else if addr < k.iova || k.iova + k.len < addr + len || (aligned && addr % 8 ≠ 0) then .error 9
        else
          let a := r.target + (addr - r.iova)
          if r.host then .ok (.host a)
          else if mirrorBase q.sector ≤ a && a + len ≤ mirrorBase q.sector + 0x1000 then .ok (.mirror (a - mirrorBase q.sector))
          else if len = 0 || rdmaMemory s q.sector a len then .ok (.device a)
          else .error 9

/-- Status of a local key failure (R521): KEY_INVALID for checks 6 and 7, KEY_BOUNDS for 8 and 9. -/
def keyStatus (check : Nat) : Nat := if check ≤ 7 then stKeyInvalid else stKeyBounds

/-- Doorbell writes that an RDMA write to the mirrors makes, 8 bytes each (R511). -/
def mirrorWrites (n : Nat) : Nat → Nat → List Byte → State → State
  | 0, _, _, s => s
  | k + 1, off, bs, s =>
    let v := leNat (bs.take 8) % 65536
    let i := n * 64 + off / 64
    let s := if off % 64 = 0 then writeSqTail .peer i v s else if off % 64 = 8 then writeCqHead .peer i v s else s
    mirrorWrites n k (off + 8) (bs.drop 8) s

/-- A write to a checked target (R510, R511, R539): its status and the state. -/
def writeTarget (faults : List LineFault) (n : Nat) (t : Target) (bs : List Byte) (s : State) : Nat × State :=
  match t with
  | .device a => faultyWrite faults a bs s
  | .host a => if bs = [] then (stOk, s)
      else if s.pci.linkUp then (stOk, emit (.hostWrite (.vf n) a bs) s) else (stHwFault, s)
  | .mirror off => (stOk, mirrorWrites n (bs.length / 8) off bs s)

/-- A read from a checked target; the mirrors read as zero, since their registers are write-only. -/
def readTarget (t : Target) (len : Nat) (host : HostRead) (faults : List LineFault) (s : State) :
    Except Nat (List Byte) × State :=
  match t with
  | .device a => faultyRead faults a len s
  | .host _ =>
    match host with
    | .data bs => (.ok (padTo len bs), s)
    | h => if len = 0 then (.ok [], s) else (.error stHwFault, hostReadFail h s)
  | .mirror _ => (.ok (padTo len []), s)

/-! ### Sending (R500, R501, R543; 15 R783, R784, R787) -/

/-- Sub-ports of an Ethernet port in its mode (15 R779). -/
def subPorts (s : State) (e : Nat) : Nat := 2 ^ min 2 (rfield s .ethPortCfg e 1 2)

/-- An Ethernet port's state. -/
def ethOf (s : State) (e : Nat) : EthPort := Table.getD s.eth e {}

/-- Class of a packet: its PCP when tagged, else the map of its DSCP (15 R787). -/
def packetClass (s : State) (vlan dscp : Nat) : Nat :=
  if vlan.testBit 15 then bitsOf vlan 12 3 else bitsOf (rget s .ethDscpMap (dscp / 16)) (4 * (dscp % 16)) 3

/-- A frame leaves when its address entry is valid, and waits while its sub-port is down or its class paused. -/
def sendFrame (f : RoceFrame) (s : State) : State :=
  let entry := rget s .ethAddrMac f.port f.srcIndex
  let sub := bitsOf entry 49 2
  if !entry.testBit 48 || subPorts s f.port ≤ sub then s
  else
    let f := { f with sub := sub, cls := packetClass s f.vlan f.dscp }
    if (ethOf s f.port).up.testBit sub && !(ethOf s f.port).paused.testBit (sub * 8 + f.cls) then emit (.roce f) s
    else setRdma { s.rdma with held := s.rdma.held ++ [f] } s

/-- Frames that wait are sent again as they now stand. -/
def releaseFrames (s : State) : State :=
  s.rdma.held.foldl (fun s f => sendFrame f s) (setRdma { s.rdma with held := [] } s)

/-- UDP source port of a packet (R500). -/
def udpSource (qpn dest : Nat) : Nat := 0xC000 ||| ((qpn ^^^ dest) &&& 0x3FFF)

/-- A packet of a connected queue pair sent to its peer. -/
def sendOn (k : Nat) (q : Qp) (p : RocePacket) (s : State) : State :=
  let dest := if p.dest = 0 then q.destQpn else p.dest
  let f : RoceFrame :=
    { port := q.port, sub := 0, cls := 0, srcIndex := q.srcIndex, udpSource := udpSource (0x10000 + k) dest, dscp := q.dscp,
      vlan := q.vlan, destIp := q.destIp, destMac := q.destMac, pkt := { p with dest := dest, source := 0x10000 + k } }
  sendFrame f s

/-- Bytes cut into pieces of a size, at least one piece. -/
def pieces (size : Nat) : Nat → List Byte → List (List Byte)
  | 0, bs => [bs]
  | k + 1, bs => if bs.length ≤ size then [bs] else bs.take size :: pieces size k (bs.drop size)

/-- PSN arithmetic modulo 2^24. -/
def psnAdd (a b : Nat) : Nat := (a + b) % 2 ^ 24
def psnSub (a b : Nat) : Nat := (a + 2 ^ 24 - b % 2 ^ 24) % 2 ^ 24

/-- Field of a post's packet. -/
def Post.p (x : Post) (off n : Nat) : Nat := fieldLE x.params off n
def Post.op (x : Post) : Nat := x.p 28 1
def Post.len (x : Post) : Nat := x.p 36 4

/-- Whether a post waits for a response: READ and atomics. -/
def Post.responds (x : Post) : Bool := 4 ≤ x.op && x.op ≤ 6

/-- The packets of a SEND, numbered from a PSN. -/
def sendPackets (mtu psn : Nat) (imm : Option Nat) (bs : List Byte) : List RocePacket :=
  let ps := pieces mtu (bs.length / mtu + 1) bs
  let n := ps.length
  (ps.zip (List.range n)).map (fun e =>
    { dest := 0, psn := psnAdd psn e.2, payload := e.1, ackReq := e.2 + 1 == n,
      op := .send (e.2 == 0) (e.2 + 1 == n) (if e.2 + 1 = n then imm else none) })

/-- The packets of a post (R497), the READ request for what has not been received yet. -/
def Post.packets (x : Post) (mtu : Nat) : List RocePacket :=
  let imm := beNat (sliceBytes x.params 60 4)
  let raddr := x.p 48 8
  let rkey := x.p 56 4
  if x.op ≤ 1 then sendPackets mtu x.firstPsn (if x.op = 1 then some imm else none) x.data
  else if x.op ≤ 3 then
    let ps := pieces mtu (x.data.length / mtu + 1) x.data
    let n := ps.length
    (ps.zip (List.range n)).map (fun e =>
      { dest := 0, psn := psnAdd x.firstPsn e.2, payload := e.1, ackReq := e.2 + 1 == n,
        op := .write (e.2 == 0) (e.2 + 1 == n) (if x.op = 3 && e.2 + 1 = n then some imm else none) raddr rkey x.len })
  else if x.op = 4 then
    [{ dest := 0, psn := psnAdd x.firstPsn (x.got / mtu), op := .readReq (raddr + x.got) rkey (x.len - x.got) }]
  else if x.op = 5 then [{ dest := 0, psn := x.firstPsn, op := .fetchAdd raddr rkey (x.p 64 8) }]
  else [{ dest := 0, psn := x.firstPsn, op := .cmpSwap raddr rkey (x.p 64 8) (x.p 72 8) }]

/-- A queue pair's outstanding posts and receives ended with BAD_STATE and syndrome FLUSHED, in ring order (R518). -/
def flushQp (k : Nat) (s : State) : State :=
  match Table.find s.rdma.qps k with
  | none => s
  | some q =>
    let s := finishAll (q.posts.map (·.serial) ++ q.recvs.map (·.serial)) stBadState 0 8 s
    setQp k { q with posts := [], recvs := [], inbound := none, replies := [], rnrWait := false } s

/-- A queue pair enters ERROR (R514, R518). -/
def qpError (k : Nat) (s : State) : State := changeQp k (fun q => { q with state := 6 }) (flushQp k s)

/-- An RC queue pair enters ERROR, a UD one SQE with its posts flushed (R521). -/
def qpLocalError (k : Nat) (s : State) : State :=
  match Table.find s.rdma.qps k with
  | none => s
  | some q =>
    if q.kind = 1 then
      setQp k { q with state := 5, posts := [] } (finishAll (q.posts.map (·.serial)) stBadState 0 8 s)
    else qpError k s

/-- A window bound or invalidated by a post (R512): the status. The local checks of R521 apply to the region. -/
def windowPost (k : Nat) (q : Qp) (x : Post) (s : State) : Nat × State :=
  let key := x.p 56 4
  let i := q.sector * 2 ^ 20 + bitsOf key 8 20
  match (keyEntry s q.sector key).filter (fun w => w.window && w.pd = q.pd) with
  | none => (stKeyInvalid, s)
  | some w =>
    if x.op = 8 then
      if (w.bound.map Prod.fst) = some k then
        (stOk, setRdma { s.rdma with keys := Table.put s.rdma.keys i { w with bound := none, iova := 0, len := 0, access := 0 } } s)
      else (stKeyInvalid, s)
    else
      match (keyEntry s q.sector (x.p 32 4)).filter (fun r => !r.window && r.pd = q.pd) with
      | none => (stKeyInvalid, s)
      | some r =>
        let a := x.p 40 8
        if w.bound.isSome then (stKeyInvalid, s)
        else if !r.access.testBit 4 || a < r.iova || r.iova + r.len < a + x.len then (stKeyBounds, s)
        else
          let w := { w with bound := some (k, x.p 32 4), iova := a, len := x.len, access := x.p 60 1 }
          (stOk, setRdma { s.rdma with keys := Table.put s.rdma.keys i w } s)

/-- Whether a queue pair may send requests now: in RTS, RDMA_TX not held, no RNR wait (R516, R533, R549). -/
def maySend (s : State) (q : Qp) : Bool := q.state = 3 && !heldClass s q.sector 4 && !q.rnrWait

/-- Whether a post may go out beside what is outstanding: at most MAX_RD_ATOMIC READs and atomics (R513). -/
def Qp.room (q : Qp) (x : Post) : Bool :=
  !x.responds || (q.posts.filter (fun y => y.sent && y.responds)).length < q.maxRd

/-- A UD post as a frame to the destination it names. -/
def udFrame (k : Nat) (q : Qp) (x : Post) : RoceFrame :=
  let dest := x.p 64 4 % 2 ^ 24
  let imm := if x.op = 1 then some (beNat (sliceBytes x.params 60 4)) else none
  { port := q.port, sub := 0, cls := 0, srcIndex := q.srcIndex, udpSource := udpSource (0x10000 + k) dest, dscp := q.dscp,
    vlan := x.p 102 2, destIp := sliceBytes x.params 80 16, destMac := sliceBytes x.params 96 6,
    pkt := { dest := dest, psn := q.sqPsn, op := .send true true imm, payload := x.data, source := 0x10000 + k,
             qkey := x.p 68 4 } }

/-- The next unsent post of a queue pair sent, while it may; `fuel` bounds the posts (R516, R520, R522). -/
def pump (k : Nat) : Nat → State → State
  | 0, s => s
  | fuel + 1, s =>
    match Table.find s.rdma.qps k with
    | none => s
    | some q =>
      match q.posts.find? (fun x => !x.sent) with
      | none => s
      | some x =>
        if !maySend s q || !q.room x then s
        else
          let others := q.posts.filter (fun y => y.serial ≠ x.serial)
          if 7 ≤ x.op then
            let (st, s) := windowPost k q x s
            if st = stOk then pump k fuel (finish x.serial stOk 0 0 (changeQp k (fun q => { q with posts := others }) s))
            else qpLocalError k (finish x.serial st 0 1 (changeQp k (fun q => { q with posts := others }) s))
          else if q.kind = 1 then
            let s := setQp k { q with posts := others, sqPsn := psnAdd q.sqPsn 1 } s
            pump k fuel (finish x.serial stOk x.len 0 (sendFrame (udFrame k q x) s))
          else
            let n := max 1 (ceilDiv x.len q.mtu)
            let x := { x with sent := true, firstPsn := q.sqPsn, psns := if x.op = 5 || x.op = 6 then 1 else n }
            let q := { q with sqPsn := psnAdd q.sqPsn x.psns
                              posts := q.posts.map (fun y => if y.serial = x.serial then x else y) }
            pump k fuel ((x.packets q.mtu).foldl (fun s p => sendOn k q p s) (setQp k q s))

/-- Every post that may go out is sent. -/
def pumpQp (k : Nat) (s : State) : State :=
  match Table.find s.rdma.qps k with
  | none => s
  | some q => pump k (q.posts.length + 1) s

/-- Every queue pair of a sector sends what it may: after RDMA_TX is released. -/
def pumpSector (n : Nat) (s : State) : State :=
  ((s.rdma.qps.filter (fun e => e.2.sector = n)).map Prod.fst).foldl (fun s k => pumpQp k s) s

/-! ### Rate control (R543-R546) -/

/-- A cut (R545): the gear rises by CUT_STEP unless the last cut is too recent. -/
def cutRate (k now : Nat) (s : State) : State :=
  changeQp k (fun q =>
    if (q.lastCut.map (fun t => decide (now < t + 1000 * rfield s .rdmaRateCfg 0 11 10))).getD false then q
    else { q with gear := min 127 (q.gear + rfield s .rdmaRateCfg 0 7 4), lastCut := some now, lastRise := now, rises := 0 }) s

/-- RISE_PERIOD (R546): RISE_US without a cut lowers the gear by 1, or by 2 after RISE_FAST such periods; the periods stop
while RDMA_TX is held (R549). -/
def risePeriod (qpn now : Nat) (s : State) : State :=
  match qpFind s qpn with
  | none => s
  | some (k, q) =>
    if heldClass s q.sector 4 || now < q.lastRise + 1000 * rfield s .rdmaRateCfg 0 21 10 then s
    else setQp k { q with gear := q.gear - (if rfield s .rdmaRateCfg 0 31 5 ≤ q.rises then 2 else 1), lastRise := now,
                          rises := q.rises + 1 } s

def execRisePeriod (qpn now : Nat) (s : State) : Out := .next (risePeriod qpn now s)

/-- CNP (R545): counted, and a cut. -/
def execCnp (pkt : RocePacket) (now : Nat) (s : State) : Out :=
  match (if pkt.valid then qpFind s pkt.dest else none).filter (fun e => e.2.state ≠ 0) with
  | none => .next (bump s .rdmaDropped)
  | some (k, _) => .next (cutRate k now (bump s .rdmaCnpReceived))

/-! ### Table, domain and key commands (R502-R512) -/

/-- RDMA_TABLE_SET (R502). -/
def rdmaTableSetBody (c : Cmd) (s : State) : Body := do
  let g := c.param 24 4
  let n := c.param 28 1
  need (c.reserved [(29, 64)] && n < 8 && (g < 512 || g = 0xFFFFFFFF)) stBadParam
  if g = 0xFFFFFFFF then do
    need (!(s.rdma.qps.any (fun e => e.2.sector = n) || s.rdma.pds.any (fun e => e.2 = n) || keysUsed s n ≠ 0)) stBadState
    .ok (.done stOk 0 0 (setRdma { s.rdma with tables := Table.drop s.rdma.tables n } s))
  else do
    need (Table.find s.sct.hbm g = some n && !hbmPooled s (fun _ => true) g) stBadParam
    need ((Table.find s.rdma.tables n).isNone) stBadState
    .ok (.done stOk 0 0 (setRdma { s.rdma with tables := Table.put s.rdma.tables n g } (zeroFill s (g * 2 ^ 30) (2 ^ 30))))

def execRdmaTableSet (ring : Nat) (s : State) : Out := .next (beginCommand 0x0810 ring rdmaTableSetBody s)

/-- Whether a sector has an RDMA table. -/
def hasTable (s : State) (n : Nat) : Bool := (Table.find s.rdma.tables n).isSome

/-- PD_ALLOC (R507; log entry 38: the lowest free number). -/
def pdAllocBody (c : Cmd) (s : State) : Body := do
  let n := c.ring / 64
  need (c.reserved [(24, 64)]) stBadParam
  need (hasTable s n) stBadState
  need (Table.countIf s.rdma.pds (fun _ m => m = n) < (sectorOf s n).pds) stNoResource
  match Table.firstFree s.rdma.pds 0 4096 with
  | none => .error { status := stNoResource }
  | some pd => .ok (.done stOk pd 0 (setRdma { s.rdma with pds := Table.put s.rdma.pds pd n } s))

def execPdAlloc (ring : Nat) (s : State) : Out := .next (beginCommand 0x0811 ring pdAllocBody s)

/-- Whether a PD is the sector's: refused as another sector's, or as one not allocated. -/
def needPd (c : Cmd) (pd : Nat) (s : State) : Except Refuse Unit := do
  need (pd < 4096) stBadParam
  need ((Table.find s.rdma.pds pd).getD (c.ring / 64) = c.ring / 64) stNotPermitted
  need ((Table.find s.rdma.pds pd).isSome) stBadState

/-- PD_FREE (R507). -/
def pdFreeBody (c : Cmd) (s : State) : Body := do
  let pd := c.param 24 4
  need (c.reserved [(28, 64)]) stBadParam
  needPd c pd s
  need (!(s.rdma.qps.any (fun e => e.2.pd = pd) || s.rdma.keys.any (fun e => e.2.pd = pd))) stBadState
  .ok (.done stOk 0 0 (setRdma { s.rdma with pds := Table.drop s.rdma.pds pd } s))

def execPdFree (ring : Nat) (s : State) : Out := .next (beginCommand 0x0812 ring pdFreeBody s)

/-- A new key entry of a sector at the lowest free INDEX: the key, and the state (R506, R509; log entry 38). -/
def addKey (n : Nat) (k : RdmaKey) (s : State) : Option (Nat × State) :=
  let quota := rfield s .rdmaMrQuota n 0 21
  if quota ≤ keysUsed s n then none
  else (Table.firstFree s.rdma.keys (n * 2 ^ 20) quota).map (fun i =>
    (k.variant + (i % 2 ^ 20) * 2 ^ 8 + n * 2 ^ 28, setRdma { s.rdma with keys := Table.put s.rdma.keys i k } s))

/-- MR_REGISTER (R508-R510; 14 R711). -/
def mrRegisterBody (c : Cmd) (s : State) : Body := do
  let n := c.ring / 64
  let iova := c.param 24 8
  let len := c.param 32 8
  let target := c.param 40 8
  let kind := c.param 48 1
  let access := c.param 49 1
  let pd := c.param 52 4
  need (c.reserved [(51, 52), (56, 64)] && 1 ≤ len && len ≤ 2 ^ 40 && kind ≤ 1 && access < 32) stBadParam
  let mirror := mirrorBase n ≤ target && target + len ≤ mirrorBase n + 0x1000
  need (kind = 1 || mirror || rdmaMemory s n target len) stBadParam
  need (!access.testBit 3 || (kind = 0 && ownsFree s n target len)) stBadParam
  need (!(access.testBit 2 || access.testBit 3) || access.testBit 0) stBadParam
  needPd c pd s
  need (!(kind = 1 && s.sealing.sealed)) stSealedForbids
  need (hasTable s n) stBadState
  match addKey n { variant := c.param 50 1, pd := pd, host := kind = 1, iova := iova, len := len, target := target,
                   access := access } s with
  | none => .error { status := stNoResource }
  | some (key, s) => .ok (.done stOk key 0 s)

def execMrRegister (ring : Nat) (s : State) : Out := .next (beginCommand 0x0813 ring mrRegisterBody s)

/-- Key entry that a command of a sector frees: KEY_INVALID when it is not one (log entry 39). -/
def needKey (c : Cmd) (window : Bool) (s : State) : Except Refuse Nat := do
  let key := c.param 24 4
  let n := c.ring / 64
  let i := n * 2 ^ 20 + bitsOf key 8 20
  need (bitsOf key 28 4 = n) stNotPermitted
  need (((Table.find s.rdma.keys i).map (fun k => k.window == window && k.variant == key % 256)).getD false) stKeyInvalid
  .ok i

/-- MR_DEREGISTER (R512). -/
def mrDeregisterBody (c : Cmd) (s : State) : Body := do
  need (c.reserved [(28, 64)]) stBadParam
  let i ← needKey c false s
  need (!s.rdma.keys.any (fun e => (e.2.bound.map Prod.snd) = some (c.param 24 4))) stBadState
  .ok (.done stOk 0 0 (setRdma { s.rdma with keys := Table.drop s.rdma.keys i } s))

def execMrDeregister (ring : Nat) (s : State) : Out := .next (beginCommand 0x0814 ring mrDeregisterBody s)

/-- MW_ALLOC (R512). -/
def mwAllocBody (c : Cmd) (s : State) : Body := do
  let n := c.ring / 64
  let pd := c.param 24 4
  need (c.reserved [(29, 64)]) stBadParam
  needPd c pd s
  need (hasTable s n) stBadState
  match addKey n { variant := c.param 28 1, pd := pd, window := true } s with
  | none => .error { status := stNoResource }
  | some (key, s) => .ok (.done stOk key 0 s)

def execMwAlloc (ring : Nat) (s : State) : Out := .next (beginCommand 0x0815 ring mwAllocBody s)

/-- MW_FREE (R512). -/
def mwFreeBody (c : Cmd) (s : State) : Body := do
  need (c.reserved [(28, 64)]) stBadParam
  let i ← needKey c true s
  .ok (.done stOk 0 0 (setRdma { s.rdma with keys := Table.drop s.rdma.keys i } s))

def execMwFree (ring : Nat) (s : State) : Out := .next (beginCommand 0x0816 ring mwFreeBody s)

/-! ### Queue pair commands (R516-R519) -/

/-- HEAT_INGRESS queue pairs of the package. -/
def ingressCount (s : State) : Nat := Table.countIf s.rdma.qps (fun _ q => q.kind = 2)

/-- A queue pair created (R517): its package-local index, the lowest free one (log entry 38). -/
def createQp (n : Nat) (q : Qp) (s : State) : Option (Nat × State) :=
  if (sectorOf s n).qps ≤ Table.countIf s.rdma.qps (fun _ q => q.sector = n) || (q.kind = 2 && 1024 ≤ ingressCount s) then none
  else (Table.firstFree s.rdma.qps 0 65536).map (fun k => (k, setQp k q s))

/-- QP_CREATE (R517). -/
def qpCreateBody (c : Cmd) (s : State) : Body := do
  let n := c.ring / 64
  let kind := c.param 28 1
  let sq := c.param 30 1
  let rq := c.param 31 1
  let sd := c.param 32 2
  let rd := c.param 34 2
  need (c.reserved [(36, 64)] && kind ≤ 2 && c.param 29 1 ≤ 7 && 1 ≤ sd && sd ≤ 4096 && 1 ≤ rd && rd ≤ 4096) stBadParam
  need (if kind = 2 then sq = 0 && rq = 0 else 1 ≤ sq && sq ≤ 63 && 1 ≤ rq && rq ≤ 63 && sq ≠ rq) stBadParam
  needPd c (c.param 24 4) s
  need (hasTable s n) stBadState
  match createQp n { sector := n, pd := c.param 24 4, kind := kind, port := c.param 29 1, sqRing := sq, rqRing := rq,
                     sqDepth := sd, rqDepth := rd } s with
  | none => .error { status := stNoResource }
  | some (k, s) => .ok (.done stOk (0x10000 + k) 0 s)

def execQpCreate (ring : Nat) (s : State) : Out := .next (beginCommand 0x0817 ring qpCreateBody s)

/-- The queue pair that a command of a sector names: NOT_PERMITTED for another sector's, BAD_STATE for none (log entry 39). -/
def needQp (c : Cmd) (s : State) : Except Refuse (Nat × Qp) :=
  match qpFind s (c.param 24 4) with
  | none => .error { status := stBadState }
  | some (k, q) => if q.sector = c.ring / 64 then .ok (k, q) else .error { status := stNotPermitted }

/-- Whether R516 allows a transition. -/
def qpMay (kind old new : Nat) : Bool :=
  new = 6 || new = 0 || (old = 0 && new = 1) || (old = 1 && new = 2) || (old = 2 && new = 3) || (old = 3 && new = 4)
    || (old = 4 && new = 3) || (old = 5 && new = 3 && kind = 1)

/-- A queue pair after a transition to RESET: its PSNs, rate state and replay cache are cleared (R518). -/
def Qp.resetState (q : Qp) : Qp :=
  { sector := q.sector, pd := q.pd, kind := q.kind, port := q.port, sqRing := q.sqRing, rqRing := q.rqRing,
    sqDepth := q.sqDepth, rqDepth := q.rqDepth }

/-- QP_MODIFY (R516, R518, R543). -/
def qpModifyBody (c : Cmd) (s : State) : Body := do
  let new := c.param 28 1
  need (c.reserved [(54, 64), (88, 128)] && new ≤ 6) stBadParam
  let (k, q) ← needQp c s
  need (qpMay q.kind q.state new) stBadState
  if new = 0 then .ok (.done stOk 0 0 (changeQp k Qp.resetState (flushQp k s)))
  else if new = 6 then .ok (.done stOk 0 0 (qpError k s))
  else if new = 1 then do
    need (c.param 29 1 &&& 0xF1 = 0) stBadParam
    .ok (.done stOk 0 0 (setQp k { q with state := 1, access := c.param 29 1, qkey := if q.kind = 1 then c.param 48 4 else 0 } s))
  else if new = 2 then do
    need (c.param 30 1 ≤ 2 && c.param 34 1 ≤ 31 && 1 ≤ c.param 35 1 && c.param 35 1 ≤ 16 && c.param 44 4 < 2 ^ 24
      && c.param 52 1 ≤ 63 && c.param 53 1 ≤ 15 && (q.kind = 1 || c.param 36 4 < 2 ^ 24)) stBadParam
    let q := { q with state := 2, pmtu := c.param 30 1, minRnr := c.param 34 1, maxRd := c.param 35 1, rqPsn := c.param 44 4,
                      dscp := c.param 52 1, srcIndex := c.param 53 1 }
    let q := if q.kind = 1 then q else
      { q with destQpn := c.param 36 4, destIp := sliceBytes c.bytes 64 16, destMac := sliceBytes c.bytes 80 6, vlan := c.param 86 2 }
    .ok (.done stOk 0 0 (setQp k q s))
  else if new = 3 then
    let gear := rfield s .rdmaRateCfg 0 0 7
    if q.state = 2 then do
      need (c.param 31 1 ≤ 31 && c.param 32 1 ≤ 7 && c.param 33 1 ≤ 7 && c.param 40 4 < 2 ^ 24) stBadParam
      .ok (.done stOk 0 0 (pumpQp k (setQp k { q with
        state := 3, ackTimeout := c.param 31 1, retryCnt := c.param 32 1, rnrRetry := c.param 33 1, sqPsn := c.param 40 4,
        gear := gear, rises := 0, lastCut := none } s)))
    else .ok (.done stOk 0 0 (pumpQp k (setQp k { q with state := 3, gear := gear, rises := 0, lastCut := none } s)))
  else .ok (.done stOk 0 0 (setQp k { q with state := 4 } s))

def execQpModify (ring : Nat) (s : State) : Out := .next (beginCommand 0x0818 ring qpModifyBody s)

/-- QP_DESTROY (R519). -/
def qpDestroyBody (c : Cmd) (s : State) : Body := do
  need (c.reserved [(28, 64)]) stBadParam
  let (k, q) ← needQp c s
  need ((q.state = 0 || q.state = 6) && !s.rdma.keys.any (fun e => (e.2.bound.map Prod.fst) = some k)) stBadState
  .ok (.done stOk 0 0 (setRdma { s.rdma with qps := Table.drop s.rdma.qps k } s))

def execQpDestroy (ring : Nat) (s : State) : Out := .next (beginCommand 0x0819 ring qpDestroyBody s)

/-- QP_QUERY (R519). -/
def qpQueryBody (c : Cmd) (s : State) : Body := do
  need (c.reserved [(28, 64)]) stBadParam
  let (_, q) ← needQp c s
  .ok (.done stOk (q.state + q.sqPsn * 2 ^ 8 + q.rqPsn * 2 ^ 32) (q.gear + q.destQpn * 2 ^ 32) s)

def execQpQuery (ring : Nat) (s : State) : Out := .next (beginCommand 0x081A ring qpQueryBody s)

/-! ### Posting (R520-R524) -/

/-- The local buffer of a post read or checked (R521): what a SEND or WRITE carries, or the status and syndrome. -/
def postData (k : Nat) (q : Qp) (x : Post) (host : HostRead) (faults : List LineFault) (s : State) :
    Except (Nat × Nat) (List Byte) × State :=
  if 7 ≤ x.op || x.len = 0 then (.ok [], s)
  else
    match keyCheck s k q (x.p 32 4) (x.p 40 8) x.len (if 4 ≤ x.op then some 0 else none) false with
    | .error e => (.error (keyStatus e, 1), s)
    | .ok t =>
      if 4 ≤ x.op then (.ok [], s)
      else
        match readTarget t x.len host faults s with
        | (.ok bs, s) => (.ok bs, s)
        | (.error st, s) => (.error (st, 2), s)

/-- RDMA_POST (R520-R524). -/
def rdmaPostBody (host : HostRead) (faults : List LineFault) (c : Cmd) (s : State) : Body := do
  let op := c.param 28 1
  let x : Post := { serial := c.serial, params := padTo 128 c.bytes }
  let (k, q) ← needQp c s
  need (q.kind ≠ 2 && q.sqRing = c.ring % 64) stNotPermitted
  need (op ≤ 8 && c.param 36 4 ≤ 2 ^ 31 && (!(op = 5 || op = 6) || c.param 36 4 = 8) && (q.kind = 0 || op ≤ 1)
    && c.reserved [(29, 32)]) stBadParam
  need (c.units = if op = 5 || op = 6 || op = 7 || q.kind = 1 then 2 else 1) stBadLength
  need (c.units = 1 || c.reserved [(104, 128)]) stBadParam
  need (2 ≤ q.state && q.posts.length < q.sqDepth) stBadState
  if 5 ≤ q.state then .error { status := stBadState, r1 := 8 }
  else do
    need (q.kind ≠ 1 || c.param 36 4 ≤ q.mtu) stBadParam
    match postData k q x host faults s with
    | (.error (st, syn), s) => .ok (.done st 0 syn (if syn = 1 then qpLocalError k s else s))
    | (.ok bs, s) => .ok (.running (changeQp k (fun q => { q with posts := q.posts ++ [{ x with data := bs }] }) s))

/-- After a post has begun, its queue pair sends what it may. -/
def pumpAll (s : State) : State := (s.rdma.qps.map Prod.fst).foldl (fun s k => pumpQp k s) s

def execRdmaPost (ring : Nat) (host : HostRead) (faults : List LineFault) (s : State) : Out :=
  .next (pumpAll (beginCommand 0x0820 ring (rdmaPostBody host faults) s))

/-- RDMA_RECV (R520, R521). -/
def rdmaRecvBody (c : Cmd) (s : State) : Body := do
  need (c.reserved [(28, 32), (48, 64)]) stBadParam
  let (k, q) ← needQp c s
  need (q.kind ≠ 2 && q.rqRing = c.ring % 64) stNotPermitted
  need (1 ≤ q.state && q.recvs.length < q.rqDepth) stBadState
  if q.state = 6 then .error { status := stBadState, r1 := 8 }
  else
    let len := c.param 36 4
    match if len = 0 then .ok (.device 0) else keyCheck s k q (c.param 32 4) (c.param 40 8) len (some 0) false with
    | .error e => .ok (.done (keyStatus e) 0 1 (qpLocalError k s))
    | .ok _ =>
      let r : Recv := { serial := c.serial, lkey := c.param 32 4, addr := c.param 40 8, len := len }
      .ok (.running (setQp k { q with recvs := q.recvs ++ [r] } s))

def execRdmaRecv (ring : Nat) (s : State) : Out := .next (beginCommand 0x0821 ring rdmaRecvBody s)

/-! ### The end of a sector's objects (R548, R550; 03, step 4) -/

/-- Every queue pair, domain, key and the table of a sector freed, without completions (R548). -/
def freeRdma (n : Nat) (s : State) : State :=
  setRdma { s.rdma with
    qps := s.rdma.qps.filter (fun e => e.2.sector ≠ n)
    pds := s.rdma.pds.filter (fun e => e.2 ≠ n)
    keys := s.rdma.keys.filter (fun e => e.1 / 2 ^ 20 ≠ n)
    tables := Table.drop s.rdma.tables n } s

/-- Regions of a sector over memory it no longer owns become invalid, and windows over them with them (10, corner of a
shift). -/
def invalidateRegions (n : Nat) (s : State) : State :=
  let dead := fun (k : RdmaKey) => !k.window && !k.host && !(mirrorBase n ≤ k.target && k.target < mirrorBase n + 0x1000)
    && !rdmaMemory s n k.target k.len
  let gone := (s.rdma.keys.filter (fun e => e.1 / 2 ^ 20 = n && dead e.2)).map (fun e => e.1)
  let overDead := fun (k : RdmaKey) => (k.bound.map (fun b => gone.contains (n * 2 ^ 20 + bitsOf b.2 8 20))).getD false
  setRdma { s.rdma with keys := s.rdma.keys.map (fun e =>
    if gone.contains e.1 || (e.1 / 2 ^ 20 = n && overDead e.2) then (e.1, { e.2 with valid := false }) else e) } s

end Sys2Proof.Machine
end

