-- ==== Sys2Proof/Machine/RdmaPackets.lean ====
section
/-! DEFINITION. Inbound RoCE packets: the responder's checks and effects, acknowledgements and responses at the requester,
retransmission (chapter 10 of spec/, R498, R513-R515, R522-R540, R544). -/
namespace Sys2Proof.Machine

/-! ### What the responder sends -/

/-- A packet answering on a queue pair. -/
def answer (k : Nat) (psn : Nat) (op : RoceOp) (s : State) : State :=
  match Table.find s.rdma.qps k with
  | none => s
  | some q => sendOn k q { dest := 0, psn := psn, op := op } s

/-- A NAK sent; after invalid request (1) or remote access error (2) the queue pair enters ERROR (R514). -/
def sendNak (k psn code : Nat) (s : State) : State :=
  let s := bump (answer k psn (.nak code) s) .rdmaNakSent
  if code = 1 || code = 2 then qpError k s else s

/-- An RNR NAK with the queue pair's MIN_RNR_TIMER (R515). -/
def sendRnr (k psn : Nat) (s : State) : State :=
  match Table.find s.rdma.qps k with
  | none => s
  | some q => bump (answer k psn (.rnrNak q.minRnr) s) .rdmaNakSent

/-- A packet with CE makes the device send a CNP, at most one per gap (R544). -/
def noteCe (k : Nat) (p : RocePacket) (now : Nat) (s : State) : State :=
  match Table.find s.rdma.qps k with
  | none => s
  | some q =>
    let recent := (q.lastCnp.map (fun t => decide (now < t + 1000 * rfield s .rdmaRateCfg 0 36 10))).getD false
    if !p.ce || recent then s
    else bump (sendOn k q { dest := if q.kind = 1 then p.source else 0, op := .cnp } (setQp k { q with lastCnp := some now } s))
      .rdmaCnpSent

/-- How a request ends at the responder: executed with a number of PSNs, refused by a NAK or an RNR NAK, or dropped. -/
inductive Served where
  | done (psns : Nat) (s : State)
  | nak (code : Nat) (s : State)
  | rnr (s : State)
  | drop (s : State)

/-- Counting and dropping of a packet (R498, check 2). -/
def dropPacketIn (s : State) : State := bump s .rdmaDropped

/-- An inbound packet before its operation: R498, cache misses, CE, and check 2 of R513. -/
def inboundPacket (p : RocePacket) (now : Nat) (act : Nat → Qp → State → State) (s : State) : State :=
  if !p.valid then dropPacketIn s
  else
    match qpFind s p.dest with
    | none => dropPacketIn s
    | some (k, q) =>
      if q.state = 0 then dropPacketIn s
      else
        let s := noteCe k p now (bumpField s .rdmaCacheMisses 0 0 32 p.misses)
        if q.state = 2 || q.state = 3 || q.state = 4 then
          match Table.find s.rdma.qps k with
          | none => s
          | some q => act k q s
        else dropPacketIn s

/-- An RC request in PSN order (R513, check 3; R534-R537): executed when it is the expected one, answered as a duplicate when
it is behind, and answered by one NAK PSN sequence error when it is ahead. -/
def rcRequest (p : RocePacket) (run dup : Nat → Qp → State → State) (k : Nat) (q : Qp) (s : State) : State :=
  let d := psnSub p.psn q.rqPsn
  if d = 0 then run k { q with nakSent := false } (setQp k { q with nakSent := false } s)
  else if d < 2 ^ 23 then
    if q.nakSent then s else sendNak k q.rqPsn 0 (setQp k { q with nakSent := true } s)
  else dup k q s

/-- The end of an executed request: the expected PSN moves past it, and an answer follows. -/
def settleRequest (k psn : Nat) (ackReq : Bool) : Served → State
  | .drop s => s
  | .rnr s => sendRnr k psn s
  | .nak code s => sendNak k psn code s
  | .done n s =>
    let s := changeQp k (fun q => { q with rqPsn := psnAdd psn n }) s
    if ackReq then answer k psn .ack s else s

/-- A duplicate SEND or WRITE is acknowledged again (R535). -/
def dupAck (k : Nat) (q : Qp) (s : State) : State := answer k (psnSub q.rqPsn 1) .ack s

/-! ### SEND (R522-R529, R540) -/

/-- The oldest receive of a queue pair completes. -/
def endReceive (k : Nat) (status r0 r1 : Nat) (s : State) : State :=
  match (Table.find s.rdma.qps k).bind (fun q => q.recvs.head?) with
  | none => s
  | some r => finish r.serial status r0 r1 (changeQp k (fun q => { q with recvs := q.recvs.tail, inbound := none }) s)

/-- Results of a receive (R523). -/
def recvResult (placed : Nat) (imm : Option Nat) (writeImm : Bool) (source : Nat) : Nat :=
  placed % 2 ^ 32 + bitNat imm.isSome * 2 ^ 32 + bitNat writeImm * 2 ^ 33 + source * 2 ^ 40

/-- Bytes placed in the oldest receive buffer at an offset: the status and syndrome that fail it, or none (R521, R524). -/
def placeBytes (k : Nat) (q : Qp) (r : Recv) (off : Nat) (bs : List Byte) (faults : List LineFault) (s : State) : Option (Nat × Nat) × State :=
  if r.len < off + bs.length then (some (stBadParam, 9), s)
  else if bs = [] then (none, s)
  else
    match keyCheck s k q r.lkey (r.addr + off) bs.length (some 0) false with
    | .error e => (some (keyStatus e, 1), s)
    | .ok t =>
      match writeTarget faults q.sector t bs s with
      | (0, s) => (none, s)
      | (st, s) => (some (st, 2), s)

/-- One packet of a SEND into a posted receive (R513, R522, R523). -/
def sendRun (faults : List LineFault) (p : RocePacket) (first last : Bool) (imm : Option Nat) (k : Nat) (q : Qp) (s : State) : Served :=
  match q.recvs.head? with
  | none => .rnr s
  | some r =>
    let off := if first then 0 else (q.inbound.map (·.placed)).getD 0
    if !first && !((q.inbound.map (fun i => !i.write)).getD false) then .nak 1 s
    else
      match placeBytes k q r off p.payload faults s with
      | (some (st, syn), s) => .nak (if syn = 9 then 1 else 3) (endReceive k st 0 syn s)
      | (none, s) =>
        let placed := off + p.payload.length
        if last then .done 1 (endReceive k stOk (recvResult placed imm false 0) (imm.getD 0) s)
        else .done 1 (changeQp k (fun q => { q with inbound := some { placed := placed } }) s)

/-- Messages of a HEAT_INGRESS queue pair that occupy its receive slots, held ones included (07 R348; R529). -/
def ingressUsed (s : State) (k : Nat) (q : Qp) : Nat := q.messages.length + (s.heat.held.filter (fun h => h.qp = k)).length

/-- One packet of a SEND on a HEAT_INGRESS queue pair (R526-R529). -/
def ingressRun (p : RocePacket) (first last : Bool) (k : Nat) (q : Qp) (s : State) : Served :=
  if first && 4 ≤ ingressUsed s k q then .rnr s
  else if !first && q.inbound.isNone then .nak 1 s
  else
    let bytes := (if first then [] else (q.inbound.map (·.bytes)).getD []) ++ p.payload
    if 268435456 < bytes.length then .nak 1 s
    else if last then .done 1 (changeQp k (fun q => { q with inbound := none, messages := q.messages ++ [bytes] }) s)
    else .done 1 (changeQp k (fun q => { q with inbound := some { bytes := bytes } }) s)

/-- A UD SEND: header and payload placed in the oldest receive (R523); without a receive, or with another Q_Key, it is dropped
(log entry 40). -/
def udSend (faults : List LineFault) (p : RocePacket) (imm : Option Nat) (k : Nat) (q : Qp) (s : State) : State :=
  match q.recvs.head? with
  | none => dropPacketIn s
  | some r =>
    if p.qkey ≠ q.qkey then dropPacketIn s
    else
      match placeBytes k q r 0 (padTo 40 p.address ++ p.payload) faults s with
      | (some (st, syn), s) => endReceive k st 0 syn s
      | (none, s) => endReceive k stOk (recvResult (40 + p.payload.length) imm false p.source) (imm.getD 0) s

/-- SEND (R513, R522, R526-R529, R535). -/
def roceSend (faults : List LineFault) (p : RocePacket) (now : Nat) (s : State) : State :=
  match p.op with
  | .send first last imm =>
    inboundPacket p now (fun k q s =>
      if q.kind = 1 then udSend faults p imm k q s
      else rcRequest p (fun k q s =>
        settleRequest k p.psn (p.ackReq || last) (if q.kind = 2 then ingressRun p first last k q s else sendRun faults p first last imm k q s))
        dupAck k q s) s
  | _ => dropPacketIn s

def execSend (pkt : RocePacket) (now : Nat) (faults : List LineFault) (s : State) : Out := .next (roceSend faults pkt now s)

/-! ### WRITE (R513, R535, R539) -/

/-- Outcome of a failed key check (R513, checks 6 to 9). -/
def keyNak (check : Nat) (s : State) : Served := .nak 2 (if check = 6 then bump s .rdmaKeyFaults else s)

/-- One packet of an RDMA WRITE: `i` is what the message still has to write. -/
def writeRun (faults : List LineFault) (p : RocePacket) (last : Bool) (imm : Option Nat) (i : Inbound) (k : Nat) (q : Qp) (s : State) : Served :=
  if q.kind = 2 || !q.access.testBit 2 then .nak 1 s
  else if last && imm.isSome && q.recvs = [] then .rnr s
  else if i.left < p.payload.length || (last && i.left ≠ p.payload.length) then .nak 1 s
  else
    match keyCheck s k q i.key i.addr i.left (some 2) false with
    | .error e => keyNak e s
    | .ok t =>
      let misfit := match t with
        | .mirror _ => i.addr % 8 ≠ 0 || p.payload.length % 8 ≠ 0
        | _ => false
      if misfit then .nak 2 s
      else
        match writeTarget faults q.sector t p.payload s with
        | (0, s) =>
          if last then
            let s := changeQp k (fun q => { q with inbound := none }) s
            .done 1 (if imm.isSome then endReceive k stOk (recvResult 0 imm true 0) (imm.getD 0) s else s)
          else
            let i := { i with addr := i.addr + p.payload.length, left := i.left - p.payload.length }
            .done 1 (changeQp k (fun q => { q with inbound := some i }) s)
        | (_, s) => .nak 3 s

/-- RDMA_WRITE. -/
def roceWrite (faults : List LineFault) (p : RocePacket) (now : Nat) (s : State) : State :=
  match p.op with
  | .write first last imm addr key len =>
    inboundPacket p now (fun k q s =>
      if q.kind = 1 then dropPacketIn s
      else rcRequest p (fun k q s =>
        let i := if first then some { write := true, addr := addr, key := key, left := len } else q.inbound.filter (·.write)
        settleRequest k p.psn (p.ackReq || last) (match i with
          | none => .nak 1 s
          | some i => writeRun faults p last imm i k q s)) dupAck k q s) s
  | _ => dropPacketIn s

def execRdmaWrite (pkt : RocePacket) (now : Nat) (faults : List LineFault) (s : State) : Out := .next (roceWrite faults pkt now s)

/-! ### READ and atomics (R513, R536-R538) -/

/-- An RDMA READ: its data, or how it is refused. -/
def readRun (addr key len : Nat) (host : HostRead) (faults : List LineFault) (k : Nat) (q : Qp) (s : State) :
    Except Served (List Byte) × State :=
  if q.kind = 2 || !q.access.testBit 1 then (.error (.nak 1 s), s)
  else
    match keyCheck s k q key addr len (some 1) false with
    | .error e => (.error (keyNak e s), s)
    | .ok t =>
      match readTarget t len host faults s with
      | (.ok bs, s) => (.ok bs, s)
      | (.error _, s) => (.error (.nak 3 s), s)

/-- The response packets of a READ. -/
def readResponses (k psn mtu : Nat) (bs : List Byte) (s : State) : State :=
  let ps := pieces mtu (bs.length / mtu + 1) bs
  (ps.zip (List.range ps.length)).foldl (fun s e =>
    match Table.find s.rdma.qps k with
    | none => s
    | some q => sendOn k q { dest := 0, psn := psnAdd psn e.2, op := .readResp, payload := e.1 } s) s

/-- RDMA_READ: executed and answered; a duplicate is executed again (R536). -/
def roceRead (p : RocePacket) (now : Nat) (host : HostRead) (faults : List LineFault) (s : State) : State :=
  match p.op with
  | .readReq addr key len =>
    inboundPacket p now (fun k q s =>
      if q.kind = 1 then dropPacketIn s
      else
        let go := fun (advance : Bool) (k : Nat) (q : Qp) (s : State) =>
          match readRun addr key len host faults k q s with
          | (.error o, _) => settleRequest k p.psn false o
          | (.ok bs, s) =>
            let s := readResponses k p.psn q.mtu bs s
            if advance then changeQp k (fun q => { q with rqPsn := psnAdd p.psn (max 1 (ceilDiv len q.mtu)) }) s else s
        rcRequest p (go true) (go false) k q s) s
  | _ => dropPacketIn s

def execRdmaRead (pkt : RocePacket) (now : Nat) (host : HostRead) (faults : List LineFault) (s : State) : Out :=
  .next (roceRead pkt now host faults s)

/-- The write half of an atomic: in memory its read half has met what the line holds (05 R262, R263). -/
def updateTarget (n : Nat) (t : Target) (bs : List Byte) (s : State) : Nat × State :=
  match t with
  | .device a => (stOk, poke s a bs)
  | t => writeTarget [] n t bs s

/-- One atomic (R537, R538): an 8-byte read-modify-write; the original value is answered and enters the replay cache. -/
def atomicRun (p : RocePacket) (addr key : Nat) (f : Nat → Nat) (faults : List LineFault) (k : Nat) (q : Qp) (s : State) :
    State :=
  if q.kind = 2 || !q.access.testBit 3 then sendNak k p.psn 1 s
  else
    match keyCheck s k q key addr 8 (some 3) true with
    | .error e => settleRequest k p.psn false (keyNak e s)
    | .ok t =>
      match readTarget t 8 .error faults s with
      | (.error _, s) => sendNak k p.psn 3 s
      | (.ok bs, s) =>
        match updateTarget q.sector t (leBytes 8 (f (leNat bs))) s with
        | (0, s) =>
          let s := changeQp k (fun q => { q with rqPsn := psnAdd p.psn 1, replay := ((p.psn, leNat bs) :: q.replay).take 16 }) s
          answer k p.psn (.atomicResp (leNat bs)) s
        | (_, s) => sendNak k p.psn 3 s

/-- A duplicate atomic (R537). -/
def atomicDup (p : RocePacket) (k : Nat) (q : Qp) (s : State) : State :=
  match q.replay.find? (fun e => e.1 = p.psn) with
  | some (_, v) => bump (answer k p.psn (.atomicResp v) s) .rdmaAtomicReplays
  | none => sendNak k p.psn 1 (bump s .rdmaAtomicAged)

/-- An inbound atomic. -/
def roceAtomic (p : RocePacket) (now addr key : Nat) (f : Nat → Nat) (faults : List LineFault) (s : State) : State :=
  inboundPacket p now (fun k q s =>
    if q.kind = 1 then dropPacketIn s else rcRequest p (atomicRun p addr key f faults) (atomicDup p) k q s) s

def execFetchAdd (pkt : RocePacket) (now : Nat) (faults : List LineFault) (s : State) : Out :=
  match pkt.op with
  | .fetchAdd addr key addend => .next (roceAtomic pkt now addr key (fun v => (v + addend) % 2 ^ 64) faults s)
  | _ => .next (dropPacketIn s)

def execCmpSwap (pkt : RocePacket) (now : Nat) (faults : List LineFault) (s : State) : Out :=
  match pkt.op with
  | .cmpSwap addr key compare swap => .next (roceAtomic pkt now addr key (fun v => if v = compare then swap else v) faults s)
  | _ => .next (dropPacketIn s)

/-! ### The requester (R522-R524, R533) -/

/-- A packet for the requester: it needs a queue pair in RTS or SQD. -/
def requesterPacket (p : RocePacket) (now : Nat) (act : Nat → Qp → State → State) (s : State) : State :=
  inboundPacket p now (fun k q s => if q.state = 3 || q.state = 4 then act k q s else s) s

/-- Whether a PSN lies at or before another. -/
def psnLe (a b : Nat) : Bool := psnSub b a < 2 ^ 23

/-- Posts acknowledged up to a PSN, in order: those done, and those left. A READ or atomic stops the row until its response has
come. -/
def ackedPosts (psn : Nat) : List Post → List Post × List Post
  | [] => ([], [])
  | x :: xs =>
    if x.sent && !x.responds && psnLe (psnAdd x.firstPsn (x.psns - 1)) psn then
      let (a, b) := ackedPosts psn xs
      (x :: a, b)
    else ([], x :: xs)

/-- Posts and replies up to a PSN are acknowledged (R522, R532): they complete with OK and the bytes transferred. -/
def ackUpTo (k psn : Nat) (s : State) : State :=
  match Table.find s.rdma.qps k with
  | none => s
  | some q =>
    let (done, left) := ackedPosts psn q.posts
    let replies := q.replies.filter (fun r => !psnLe r.1 psn)
    let s := done.foldl (fun s x => finish x.serial stOk x.len 0 s) s
    let moved := done ≠ [] || replies.length < q.replies.length
    pumpQp k (setQp k { q with posts := left, replies := replies, retries := if moved then 0 else q.retries,
                               rnrs := if moved then 0 else q.rnrs } s)

/-- ACKNOWLEDGEMENT (R522). -/
def execAcknowledgement (pkt : RocePacket) (now : Nat) (s : State) : Out :=
  .next (requesterPacket pkt now (fun k _ s => ackUpTo k pkt.psn s) s)

/-- The oldest post completes with a syndrome and the queue pair enters ERROR (R524, R533; log entry 41). -/
def failOldest (k : Nat) (status syn : Nat) (s : State) : State :=
  match (Table.find s.rdma.qps k).bind (fun q => q.posts.find? (·.sent)) with
  | none => qpError k s
  | some x => qpError k (finish x.serial status 0 syn s)

/-- A post that responds leaves its queue pair with a result. -/
def endPost (k : Nat) (x : Post) (status r0 r1 : Nat) (s : State) : State :=
  let s := changeQp k (fun q => { q with posts := q.posts.filter (fun y => y.serial ≠ x.serial), retries := 0, rnrs := 0 }) s
  pumpQp k (finish x.serial status r0 r1 s)

/-- READ_RESPONSE (R522, R523): data of the expected PSN is placed; the last completes the post. -/
def readResponse (faults : List LineFault) (p : RocePacket) (k : Nat) (q : Qp) (s : State) : State :=
  match q.posts.find? (fun x => x.sent && x.op = 4 && psnAdd x.firstPsn (x.got / q.mtu) = p.psn) with
  | none => s
  | some x =>
    if x.len < x.got + p.payload.length then s
    else
      let got := x.got + p.payload.length
      let keep := fun (s : State) => changeQp k (fun q => { q with
        posts := q.posts.map (fun y => if y.serial = x.serial then { y with got := got } else y), retries := 0 }) s
      match if p.payload = [] then .ok (.device 0) else
          keyCheck s k q (x.p 32 4) (x.p 40 8 + x.got) p.payload.length (some 0) false with
      | .error e => qpLocalError k (endPost k x (keyStatus e) 0 1 s)
      | .ok t =>
        match writeTarget faults q.sector t p.payload s with
        | (0, s) => if got = x.len then endPost k x stOk x.len 0 s else keep s
        | (st, s) => endPost k x st 0 2 s

def execReadResponse (pkt : RocePacket) (now : Nat) (faults : List LineFault) (s : State) : Out :=
  .next (requesterPacket pkt now (fun k q s =>
    readResponse faults pkt k q (ackUpTo k (psnSub pkt.psn 1) s)) s)

/-- ATOMIC_RESPONSE (R523): the original value is placed in the local buffer and completes the post. -/
def atomicResponse (faults : List LineFault) (p : RocePacket) (value : Nat) (k : Nat) (q : Qp) (s : State) : State :=
  match q.posts.find? (fun x => x.sent && (x.op = 5 || x.op = 6) && x.firstPsn = p.psn) with
  | none => s
  | some x =>
    match keyCheck s k q (x.p 32 4) (x.p 40 8) 8 (some 0) false with
    | .error e => qpLocalError k (endPost k x (keyStatus e) 0 1 s)
    | .ok t =>
      match writeTarget faults q.sector t (leBytes 8 value) s with
      | (0, s) => endPost k x stOk value 0 s
      | (st, s) => endPost k x st 0 2 s

def execAtomicResponse (pkt : RocePacket) (now : Nat) (faults : List LineFault) (s : State) : Out :=
  match pkt.op with
  | .atomicResp v => .next (requesterPacket pkt now (fun k q s => atomicResponse faults pkt v k q (ackUpTo k (psnSub pkt.psn 1) s)) s)
  | _ => .next (dropPacketIn s)

/-- Every packet outstanding on a queue pair: those of its posts and of its heat replies. -/
def outstanding (q : Qp) : List RocePacket :=
  (q.posts.filter (·.sent)).flatMap (fun x => x.packets q.mtu)
    ++ q.replies.flatMap (fun r => sendPackets q.mtu (psnSub r.1 (ceilDiv r.2.2.length q.mtu - 1)) r.2.1 r.2.2)

/-- Go-back-N from a PSN (R533), counted per packet; nothing is sent while RDMA_TX is held (R549). -/
def resendFrom (k psn : Nat) (s : State) : State :=
  match Table.find s.rdma.qps k with
  | none => s
  | some q =>
    if heldClass s q.sector 4 then s
    else
      ((outstanding q).filter (fun p => psnLe psn p.psn)).foldl (fun s p =>
        bump (sendOn k q p s) .rdmaRetransmits) s

/-- The oldest PSN that is not acknowledged. -/
def oldestPsn (q : Qp) : Option Nat := ((outstanding q).map (·.psn)).head?

/-- A retransmission, or ERROR once RETRY_CNT of one PSN were made without progress (R533). -/
def retry (k psn : Nat) (s : State) : State :=
  match Table.find s.rdma.qps k with
  | none => s
  | some q =>
    if q.retryCnt ≤ q.retries then failOldest k stHwFault 6 s
    else resendFrom k psn (setQp k { q with retries := q.retries + 1 } s)

/-- ROCE_NAK (R524, R533): what lies before the PSN named is acknowledged; a sequence error makes the requester go back, any other
error ends the oldest post and the queue pair. -/
def roceNak (p : RocePacket) (code : Nat) (k : Nat) (s : State) : State :=
  let s := ackUpTo k (psnSub p.psn 1) s
  if code = 0 then retry k p.psn s
  else if code = 1 then failOldest k stBadParam 4 s
  else if code = 2 then failOldest k stKeyInvalid 3 s
  else failOldest k stHwFault 5 s

def execRoceNak (pkt : RocePacket) (now : Nat) (s : State) : Out :=
  match pkt.op with
  | .nak code => .next (requesterPacket pkt now (fun k _ s => roceNak pkt code k s) s)
  | _ => .next (dropPacketIn s)

/-- RNR_NAK (R533): the requester waits for the RNR timer, or ends after RNR_RETRY of them. -/
def rnrNak (p : RocePacket) (k : Nat) (s : State) : State :=
  let s := ackUpTo k (psnSub p.psn 1) s
  match Table.find s.rdma.qps k with
  | none => s
  | some q =>
    if q.rnrRetry ≠ 7 && q.rnrRetry ≤ q.rnrs then failOldest k stRetryBusy 7 s
    else setQp k { q with rnrs := q.rnrs + 1, rnrWait := true } s

def execRnrNak (pkt : RocePacket) (now : Nat) (s : State) : Out :=
  match pkt.op with
  | .rnrNak _ => .next (requesterPacket pkt now (fun k _ s => rnrNak pkt k s) s)
  | _ => .next (dropPacketIn s)

/-- RNR_TIMER: the refused PSN is sent again. -/
def rnrTimer (qpn : Nat) (s : State) : State :=
  match qpFind s qpn with
  | none => s
  | some (k, q) =>
    if !q.rnrWait then s
    else
      let s := setQp k { q with rnrWait := false } s
      match oldestPsn q with
      | none => s
      | some psn => pumpQp k (resendFrom k psn s)

def execRnrTimer (qpn : Nat) (s : State) : Out := .next (rnrTimer qpn s)

/-- ACK_TIMEOUT (R533, R545): go-back-N from the oldest PSN and a cut, or ERROR; the timers stop while RDMA_TX is held. -/
def ackTimeout (qpn now : Nat) (s : State) : State :=
  match qpFind s qpn with
  | none => s
  | some (k, q) =>
    match oldestPsn q with
    | none => s
    | some psn =>
      if q.ackTimeout = 0 || heldClass s q.sector 4 || q.rnrWait || !(q.state = 3 || q.state = 4) then s
      else retry k psn (cutRate k now s)

def execAckTimeout (qpn now : Nat) (s : State) : Out := .next (ackTimeout qpn now s)

/-- A heat reply sent as a SEND, with an immediate where one is given (R526; 18 R894); it stays until it is acknowledged. -/
def heatReplySend (k : Nat) (imm : Option Nat) (bs : List Byte) (s : State) : State :=
  match Table.find s.rdma.qps k with
  | none => s
  | some q =>
    if q.state ≠ 3 && q.state ≠ 4 then s
    else
      let ps := sendPackets q.mtu q.sqPsn imm bs
      let q := { q with sqPsn := psnAdd q.sqPsn ps.length
                        replies := q.replies ++ [(psnAdd q.sqPsn (ps.length - 1), imm, bs)] }
      ps.foldl (fun s p => sendOn k q p s) (setQp k q s)

end Sys2Proof.Machine
end

