-- ==== Sys2Proof/Machine/ChordCode.lean ====
section
/-! DEFINITION. The block exponent code, the sums of chord interfaces, and the CRC of a flit (chapter 11 of spec/, R556,
R576-R579, R585, R594). -/
namespace Sys2Proof.Machine

/-! ### CRC-64 (R556; log entry 46) -/

/-- One bit of CRC-64 with the ECMA-182 polynomial, most significant bit first. -/
def crc64Step (c : Nat) : Nat :=
  if c.testBit 63 then ((c * 2) % 2 ^ 64) ^^^ 0x42F0E1EBA9EA3693 else (c * 2) % 2 ^ 64

/-- CRC-64 over bytes, initial value and final exclusive or all ones. -/
def crc64 (bs : List Byte) : Nat :=
  (bs.foldl (fun c b => (List.range 8).foldl (fun c _ => crc64Step c) (c ^^^ (b.toNat * 2 ^ 56))) (2 ^ 64 - 1)) ^^^ (2 ^ 64 - 1)

/-! ### Element formats (11, Element fields) -/

/-- Bytes of an element of an ETYPE; 0 for untyped bytes. -/
def elementBytes : Nat → Nat
  | 0 => 2
  | 1 => 4
  | 2 => 8
  | 3 => 2
  | 4 => 4
  | 5 => 1
  | 6 => 1
  | _ => 0

/-- Exponent bits, and sign and mantissa bits, of a float ETYPE. -/
def expBits : Nat → Nat
  | 3 => 8
  | 4 => 8
  | 5 => 4
  | _ => 5
def resBits : Nat → Nat
  | 3 => 8
  | 4 => 24
  | 5 => 4
  | _ => 3

/-- Exponent field and residue of an element: the residue is the sign above the mantissa. -/
def exponentOf (etype v : Nat) : Nat := bitsOf v (resBits etype - 1) (expBits etype)
def residueOf (etype v : Nat) : Nat :=
  bitsOf v 0 (resBits etype - 1) + bitsOf v (resBits etype - 1 + expBits etype) 1 * 2 ^ (resBits etype - 1)

/-- An element from its exponent and residue. -/
def joinElement (etype e r : Nat) : Nat :=
  bitsOf r 0 (resBits etype - 1) + e * 2 ^ (resBits etype - 1)
    + bitsOf r (resBits etype - 1) 1 * 2 ^ (resBits etype - 1 + expBits etype)

/-- Little-endian elements of `w` bytes, `n` of them; past the end they are zero. -/
def elementsOf (w : Nat) : Nat → List Byte → List Nat
  | 0, _ => []
  | n + 1, bs => leNat (bs.take w) :: elementsOf w n (bs.drop w)

/-- Fields of `w` bits packed from bit 0 of the first byte upward and padded to a byte (R577). -/
def packFields (w : Nat) (vs : List Nat) : List Byte :=
  leBytes ((w * vs.length + 7) / 8) ((vs.zip (List.range vs.length)).foldl (fun acc p => acc + p.1 * 2 ^ (w * p.2)) 0)

/-- `n` fields of `w` bits from packed bytes. -/
def unpackFields (w n : Nat) (bs : List Byte) : List Nat :=
  let v := leNat bs
  (List.range n).map (fun i => bitsOf v (w * i) w)

/-- Bits of an index into `m` exponents. -/
def indexBits (m : Nat) : Nat := if m ≤ 1 then 0 else Nat.log2 (m - 1) + 1

/-- Bytes of a RAW block and of an INDEX block with `m` exponents. -/
def rawSize (etype : Nat) : Nat := 1 + 64 * elementBytes etype
def indexSize (etype m : Nat) : Nat := 1 + m + (64 * indexBits m + 7) / 8 + (64 * resBits etype + 7) / 8

/-- Distinct exponents of a block, ascending. -/
def distinctExps (etype : Nat) (vs : List Nat) : List Nat :=
  (List.range (2 ^ expBits etype)).filter (fun e => vs.any (fun v => exponentOf etype v = e))

/-- One block of 64 elements coded (R577, R578). -/
def encodeBlock (etype : Nat) (vs : List Nat) : List Byte :=
  let es := distinctExps etype vs
  let m := es.length
  let low := (m - 1) % 16
  if m ≤ 16 && indexSize etype m < rawSize etype then
    leBytes 1 (128 + low) ++ es.flatMap (leBytes 1)
      ++ packFields (indexBits m) (vs.map (fun v => (es.takeWhile (· ≠ exponentOf etype v)).length))
      ++ packFields (resBits etype) (vs.map (residueOf etype))
  else leBytes 1 low ++ vs.flatMap (leBytes (elementBytes etype))

/-- Blocks of a chunk coded; the last is padded with zero elements (R576). `fuel` bounds the blocks. -/
def encodeBlocks (etype : Nat) : Nat → List Byte → List Byte
  | 0, _ => []
  | k + 1, bs =>
    if bs = [] then []
    else
      let n := 64 * elementBytes etype
      encodeBlock etype (elementsOf (elementBytes etype) 64 (bs.take n)) ++ encodeBlocks etype k (bs.drop n)

def encodeChunk (etype : Nat) (bs : List Byte) : List Byte := encodeBlocks etype (bs.length / 64 + 1) bs

/-- Whether a list rises strictly. -/
def rising : List Nat → Bool
  | a :: b :: t => a < b && rising (b :: t)
  | _ => true

/-- One block decoded: its elements and the bytes after it; none where R579 refuses it. -/
def decodeBlock (etype : Nat) (bs : List Byte) : Option (List Nat × List Byte) :=
  let h := fieldLE bs 0 1
  let m := h % 16 + 1
  let size := if h.testBit 7 then indexSize etype m else rawSize etype
  if bitsOf h 4 3 ≠ 0 || bs.length < size then none
  else if h.testBit 7 then
    let es := (bs.drop 1).take m |>.map BitVec.toNat
    let k := indexBits m
    let is := unpackFields k 64 (sliceBytes bs (1 + m) ((64 * k + 7) / 8))
    let rs := unpackFields (resBits etype) 64 (sliceBytes bs (1 + m + (64 * k + 7) / 8) ((64 * resBits etype + 7) / 8))
    if !rising es || is.any (m ≤ ·) then none
    else some ((is.zip rs).map (fun p => joinElement etype (es.getD p.1 0) p.2), bs.drop size)
  else some (elementsOf (elementBytes etype) 64 (bs.drop 1), bs.drop size)

/-- A coded chunk decoded to `n` bytes (R576, R579); none where a block is refused. -/
def decodeBlocks (etype : Nat) : Nat → Nat → List Byte → Option (List Byte)
  | 0, _, _ => some []
  | k + 1, n, bs =>
    if n = 0 then some []
    else
      match decodeBlock etype bs with
      | none => none
      | some (vs, rest) =>
        let raw := (vs.flatMap (leBytes (elementBytes etype))).take n
        (decodeBlocks etype k (n - raw.length) rest).map (raw ++ ·)

def decodeChunk (etype n : Nat) (bs : List Byte) : Option (List Byte) := decodeBlocks etype (n / 64 + 1) n bs

/-! ### Sums (R585, R594) -/

/-- The sum of two elements of an ETYPE: integers modulo 2^w, BF16 and FP32 as binary32 addition, a BF16 sum rounded again. -/
def sumElement (etype a b : Nat) : Nat :=
  match etype with
  | 3 => bf16.round (f32.value (f32.round (Fp.add (bf16.value a) (bf16.value b))))
  | 4 => f32.round (Fp.add (f32.value a) (f32.value b))
  | _ => (a + b) % 2 ^ (8 * elementBytes etype)

/-- Elementwise sum of two equally long byte strings, the first operand first. -/
def sumBytes (etype : Nat) (a b : List Byte) : List Byte :=
  let w := elementBytes etype
  let n := a.length / w
  ((elementsOf w n a).zip (elementsOf w n b)).flatMap (fun p => leBytes w (sumElement etype p.1 p.2))

end Sys2Proof.Machine
end

