-- ==== Sys2Proof/Machine/Kdf.lean ====
section
/-! DEFINITION. HMAC and HKDF (RFC 2104, RFC 5869) over the hashes of Config, as 06 R308 and 14 R737, R743 name them. -/
namespace Sys2Proof.Machine

/-- HMAC with a hash of block size `block`. -/
def hmac (hash : List Byte → List Byte) (block : Nat) (key msg : List Byte) : List Byte :=
  let k := padTo block (if block < key.length then hash key else key)
  hash (k.map (· ^^^ 0x5C) ++ hash (k.map (· ^^^ 0x36) ++ msg))

def hmac256 : List Byte → List Byte → List Byte := hmac (fun m => padTo 32 (Config.sha256 m)) 64
def hmac384 : List Byte → List Byte → List Byte := hmac (fun m => padTo 48 (Config.sha384 m)) 128

/-- The blocks of an HKDF expansion; `fuel` bounds their number. -/
def hkdfBlocks (mac : List Byte → List Byte → List Byte) (prk info : List Byte) : Nat → Nat → List Byte → List Byte
  | 0, _, _ => []
  | k + 1, i, last =>
    let t := mac prk (last ++ info ++ leBytes 1 i)
    t ++ hkdfBlocks mac prk info k (i + 1) t

/-- HKDF-Expand to `n` bytes. -/
def hkdfExpand (mac : List Byte → List Byte → List Byte) (prk info : List Byte) (n : Nat) : List Byte :=
  (hkdfBlocks mac prk info (n / 32 + 1) 1 []).take n

/-- HKDF with SHA-256 and with SHA-384. -/
def hkdf256 (salt ikm info : List Byte) (n : Nat) : List Byte := hkdfExpand hmac256 (hmac256 salt ikm) info n
def hkdf384 (salt ikm info : List Byte) (n : Nat) : List Byte := hkdfExpand hmac384 (hmac384 salt ikm) info n

/-- An ASCII string as bytes. -/
def ascii (s : String) : List Byte := s.toList.map (fun c => BitVec.ofNat 8 c.toNat)

end Sys2Proof.Machine
end

