-- ==== Sys2Proof/Machine/Chord.lean ====
section
/-! DEFINITION. Chord links: flits, retry, training and states, and the sending of packets (chapter 11 of spec/, R552-R571, R598,
R602; 14 R737-R739). -/
namespace Sys2Proof.Machine

/-- The chord block replaced. -/
def setChord (x : Chord) (s : State) : State := { s with chord := x }

/-- A link, and a link replaced. -/
def linkOf (s : State) (c : Nat) : Link := Table.getD s.chord.links c {}
def setLink (c : Nat) (l : Link) (s : State) : State := setChord { s.chord with links := Table.put s.chord.links c l } s

/-- Code of a link state. -/
def linkCode : LinkState → Nat
  | .down => 0
  | .training => 1
  | .ident => 2
  | .up => 3
  | .retrain => 4

/-- Whether the pair is formed: C10 and C11 are the pair link (R555). -/
def pairFormed (s : State) : Bool :=
  match s.pair.state with
  | .formed | .suspect | .fencing | .selfFenced => true
  | _ => false

/-- A link enters a state: recorded in the log queue (19 R927). -/
def enterLink (c : Nat) (st : LinkState) (s : State) : State :=
  let l := linkOf s c
  let s' := setLink c { l with state := st } s
  logRecord (rfield s .chdCfg 0 52 6) 0x04
    (leBytes 1 c ++ leBytes 1 (linkCode l.state) ++ leBytes 1 (linkCode st) ++ leBytes 1 l.cause ++ leBytes 4 l.epoch
      ++ leBytes 8 s.cad.stroke ++ leBytes 1 l.peerPkg) s'

/-! ### Flits (R556-R559, 14 R739) -/

/-- Salt ‖ CLASS ‖ COUNT (14 R739). -/
def flitIv (key : List Byte) (cls count : Nat) : List Byte := key.drop 32 ++ leBytes 1 cls ++ leBytes 7 count

/-- A flit built from its clear bytes and payload: with a CRC, or encrypted with the first 8 bytes of the tag. -/
def sealFlit (key : List Byte) (cls count : Nat) (clear payload : List Byte) : List Byte :=
  if key = [] then clear ++ payload ++ leBytes 8 (crc64 (clear ++ payload))
  else clear ++ (Config.gcmSeal (key.take 32) (flitIv key cls count) clear payload).take 248

/-- The payload of a flit whose CRC or tag holds. -/
def openFlit (key : List Byte) (cls count : Nat) (flit : List Byte) : Option (List Byte) :=
  let f := padTo 256 flit
  if key = [] then (if fieldLE f 248 8 = crc64 (f.take 248) then some (sliceBytes f 8 240) else none)
  else Config.gcmOpenShort (key.take 32) (flitIv key cls count) (f.take 8) (f.drop 8)

/-- A flit sent on a link: ACK names the last DATA flit accepted in order, CREDITS returns what has drained. -/
def emitFlit (c kind number : Nat) (payload : List Byte) (marks : List Nat) (s : State) : State :=
  let l := linkOf s c
  let back := min l.due 255
  let other := kind ≠ 1
  let clear := leBytes 2 (if other then 0 else number) ++ leBytes 2 (l.rxCount + 65535) ++ leBytes 1 kind ++ leBytes 1 back
    ++ leBytes 2 (if other && l.txKey ≠ [] then l.txOther else 0)
  let bytes := sealFlit l.txKey (bitNat other) (if other then l.txOther else number) clear (padTo 240 payload)
  emit (.flit c bytes marks) (setLink c { l with due := l.due - back, txOther := if other then l.txOther + 1 else l.txOther } s)

/-- Payloads that wait are sent while there is credit and replay room; `fuel` bounds them (R558, R559). -/
def pushData (c : Nat) : Nat → State → State
  | 0, s => s
  | fuel + 1, s =>
    let l := linkOf s c
    match l.txWait with
    | [] => s
    | (p, marks) :: rest =>
      if l.state ≠ .up || l.credits = 0 || 4096 ≤ l.replay.length then s
      else
        let n := l.txCount
        let s := setLink c { l with txWait := rest, txCount := n + 1, replay := l.replay ++ [p], credits := l.credits - 1 } s
        pushData c fuel (emitFlit c 1 n p marks s)

/-- Everything that waits on a link is sent as far as it may. -/
def pushLink (c : Nat) (s : State) : State := pushData c ((linkOf s c).txWait.length + 1) s

/-- Unacknowledged DATA flits sent again, from the oldest (R558, R564); counted in REPLAYS. -/
def resendLink (c : Nat) (s : State) : State :=
  let l := linkOf s c
  let first := l.txCount - l.replay.length
  let n := l.replay.length
  let s := setLink c { l with replayed := l.replayed + n } (bumpField s .chdLinkCounts c 0 32 n)
  (l.replay.zip (List.range n)).foldl (fun s e => emitFlit c 1 (first + e.2) e.1 [] s) s

/-! ### Packets (R568-R571) -/

/-- The 32-byte header of a packet. -/
def Packet.header (p : Packet) : List Byte :=
  leBytes 1 p.typ ++ leBytes 1 p.flags ++ leBytes 1 p.srcPkg ++ leBytes 1 p.srcSector ++ leBytes 1 p.hops ++ leBytes 1 p.etype
    ++ leBytes 2 p.status ++ leBytes 8 p.dest ++ leBytes 4 p.stream ++ leBytes 4 p.chunk ++ leBytes 4 p.payload.length
    ++ leBytes 4 p.decoded

/-- The packet whose header begins a byte string, and its length in bytes; none while it is not whole. -/
def parsePacket (bs : List Byte) (poison : List Nat) : Option (Packet × Nat) :=
  let len := fieldLE bs 24 4
  if bs.length < 32 || bs.length < 32 + len then none
  else
    some ({ typ := fieldLE bs 0 1, flags := fieldLE bs 1 1, srcPkg := fieldLE bs 2 1, srcSector := fieldLE bs 3 1,
            hops := fieldLE bs 4 1, etype := fieldLE bs 5 1, status := fieldLE bs 6 2, dest := fieldLE bs 8 8,
            stream := fieldLE bs 16 4, chunk := fieldLE bs 20 4, decoded := fieldLE bs 28 4, payload := sliceBytes bs 32 len,
            poison := poison }, 32 + len)

/-- A packet put on a link, beginning in a flit of its own and padded with zeros (log entry 47). -/
def putPacket (c : Nat) (p : Packet) (s : State) : State :=
  let bs := p.header ++ p.payload
  let ps := pieces240 (bs.length / 240 + 1) bs
  let l := linkOf s c
  let marked := (ps.zip (List.range ps.length)).map (fun e => (padTo 240 e.1, if e.2 = 0 then p.poison else []))
  let s := setLink c { l with txWait := l.txWait ++ marked } s
  let s := bumpField s .chdTxDecoded c 0 64 (32 + p.decoded)
  pushLink c (bumpField s .chdTxCoded c 0 64 bs.length)
where
  pieces240 : Nat → List Byte → List (List Byte)
    | 0, bs => [bs]
    | k + 1, bs => if bs.length ≤ 240 then [bs] else bs.take 240 :: pieces240 k (bs.drop 240)

/-- Whether a link carries routed traffic: UP, and not the pair link (R598). -/
def routable (s : State) (c : Nat) : Bool := (linkOf s c).state = .up && !(linkOf s c).pairMode

/-- The link on which a stream leaves toward a package (R570). -/
def routeLink (s : State) (pkg stream : Nat) : Option Nat :=
  let up := (bitList 12 (rget s .chdRoute pkg)).filter (routable s)
  if up = [] then none else up[stream % up.length]?

/-- A packet sent toward its destination: the link that took it. -/
def sendPacket (p : Packet) (s : State) : Option (Nat × State) :=
  (routeLink s (bitsOf p.dest 46 6) p.stream).map (fun c => (c, putPacket c p s))

/-- The UP links of the pair. -/
def pairLinks (s : State) : List Nat := [10, 11].filter (fun c => (linkOf s c).state = .up && (linkOf s c).pairMode)

/-- The package that acts for a package in a heat (18 R892). -/
def actingFor (s : State) (heat pkg : Nat) : Nat :=
  ((Table.find s.chord.successor (heat * 64 + pkg)).orElse (fun _ => Table.find s.chord.successor pkg)).getD pkg

/-- A system message as a packet (R571): over the pair link, or by the route; without a link UP it waits. -/
def sysSend (viaPair : Bool) (dest : Nat) (m : SysMsg) (s : State) : State :=
  let p : Packet :=
    { typ := 8, srcPkg := pkgNumber s, srcSector := 15, dest := dest * 2 ^ 46, payload := Config.sysBytes m,
      decoded := (Config.sysBytes m).length }
  match if viaPair then (pairLinks s).head? else routeLink s dest 0 with
  | some c => emit (.sys dest m) (putPacket c p s)
  | none => setChord { s.chord with unsent := s.chord.unsent ++ [(viaPair, dest, m)] } s

/-- System messages that waited are sent again. -/
def retrySys (s : State) : State :=
  s.chord.unsent.foldl (fun s e => sysSend e.1 e.2.1 e.2.2 s) (setChord { s.chord with unsent := [] } s)

/-! ### Link states (R561-R566, R600) -/

/-- A link goes DOWN (R565): replay buffer and flits not accepted are discarded, the epoch rises, a record is written. -/
def linkDown (c cause : Nat) (injected : Bool) (s : State) : State :=
  let l := linkOf s c
  if l.state = .down then s
  else
    let s := setLink c { l with cause := cause } s
    let s := enterLink c .down s
    let s := bumpField s .chdLinkCounts c 48 16 1
    let s := match l.bist with
      | some n => finish n stHwFault 0 0 s
      | none => s
    let s := writeRecord { source := 0x0702, severity := 3, injected := injected, kind := 7, index := c,
                           d0 := c + l.epoch * 2 ^ 32, d1 := l.replayed } s
    setLink c { state := .down, cause := cause, pairMode := l.pairMode, retired := l.retired, spareUsed := l.spareUsed,
                peerPkg := l.peerPkg, peerLink := l.peerLink, peerSerial := l.peerSerial, peerEpoch := l.peerEpoch,
                epoch := (l.epoch + 1) % 2 ^ 32, rx := [] } s

/-- Whether a link is available (01, AVAIL_MISC). -/
def linkAvail (s : State) (c : Nat) : Bool := s.top.misc.testBit (24 + c)

/-- Training from DOWN begins (step 1). -/
def linkTrain (c : Nat) (s : State) : State :=
  if (linkOf s c).state = .down && linkAvail s c then enterLink c .training s else s

/-- A link changes between pair mode and inter-tray mode: it goes DOWN and trains again (R600). -/
def switchMode (c : Nat) (pair : Bool) (s : State) : State :=
  let s := linkDown c 6 false s
  linkTrain c (setLink c { linkOf s c with pairMode := pair } s)

/-- A link in UP enters RETRAIN (R563). -/
def linkRetrain (c : Nat) (s : State) : State :=
  if (linkOf s c).state ≠ .up then s
  else
    let s := bumpField (enterLink c .retrain s) .chdLinkCounts c 32 16 1
    setLink c { linkOf s c with trained := false, naks := 0 } s

/-- Acting on a persistent fault of a chord lane (R566; 17 R855): the spare replaces it, or the link is retired. -/
def actChordLane : ActFn := fun r _ s =>
  let c := r.index / 16
  let lane := r.index % 16
  let l := linkOf s c
  if !l.spareUsed then (7, setLink c { l with retired := setBits l.retired lane 1 1, spareUsed := true } s)
  else
    let s := linkDown c 5 false (setLink c { l with retired := setBits l.retired lane 1 1 } s)
    (8, { s with top := { s.top with misc := setBits s.top.misc (24 + c) 1 0, gen := (s.top.gen + 1) % 2 ^ 32 } })

/-- A lane fault recorded, and its test begun (R563, R566; 17 R843). -/
def laneError (c lane : Nat) (s : State) : State :=
  let (fired, forced, s) := firePoint 0x0701 (c * 16 + lane) s
  let l := linkOf s c
  detect actChordLane { source := 0x0701, severity := 1, res := { kind := 6, index := c * 16 + lane },
                        d0 := c + lane * 16 + l.epoch * 2 ^ 32, d1 := l.replayed, injected := fired, forced := forced } s

/-- What this side sends in IDENT (R561, 14 R737). -/
def ownIdent (s : State) (c : Nat) : IdentInfo :=
  let l := linkOf s c
  { pkg := pkgNumber s, link := c, serial := s.top.serial, pairMode := l.pairMode, sealed := s.sealing.sealed, epoch := l.epoch,
    last := l.rxCount, svn := s.rst.svn,
    share := if l.ephemeral = [] then [] else Config.p384Public (l.ephemeral.take 48)
    ek := if l.ephemeral = [] then [] else (Config.mlkemKeys (sliceBytes l.ephemeral 48 64)).1 }

/-- A link with its equalisation and lane BIST done reaches IDENT; a sealed one draws its ephemeral secrets first. -/
def reachIdent (c : Nat) (s : State) : State :=
  let go := fun (s : State) =>
    let s := if (linkOf s c).state = .training then enterLink c .ident s else s
    let s := setLink c { linkOf s c with trained := true } s
    emit (.ident c (ownIdent s c)) s
  if s.sealing.sealed && (linkOf s c).state = .training then
    match internalBytes 5 144 s with
    | (none, s) => s
    | (some bs, s) => go (setLink c { linkOf s c with ephemeral := bs } s)
  else go s

/-- LINK_TRAINING_COMPLETE (R602, R566): equalisation and lane BIST end; `failed` is the set of lanes that failed it. -/
def linkTrainingComplete (c failed : Nat) (s : State) : State :=
  let l := linkOf s c
  if l.state ≠ .training && l.state ≠ .retrain then s
  else
    let s := (bitList 9 failed).foldl (fun s lane => laneError c lane s) s
    match l.bist with
    | some serial =>
      let s := finish serial (if failed = 0 then stOk else stHwFault) 0 0 (setLink c { linkOf s c with bist := none } s)
      enterLink c .down s
    | none => if failed = 0 && (linkOf s c).state ≠ .down then reachIdent c s else s

/-- The package that a link C0-C5 must meet (R552). -/
def inTrayPeer (s : State) (c : Nat) : Nat × Nat :=
  let p := pkgNumber s
  let d := c / 2 + 1
  (p / 4 * 4 + (p % 4 + d) % 4, if c < 2 then c + 4 else if c < 4 then c else c - 4)

/-- The cause that keeps a link out of UP (R562, 14 R738): 1 WIRING, 2 MEMBER, 3 SEAL. -/
def identRefused (s : State) (c : Nat) (i : IdentInfo) : Option Nat :=
  if !(rget s .chdPodMembers).testBit i.pkg then some 2
  else if c < 6 && (i.pkg, i.link) ≠ inTrayPeer s c then some 1
  else if (linkOf s c).pairMode && (i.pkg ≠ s.pair.twin || i.link ≠ c || !i.pairMode) then some 1
  else if i.sealed != s.sealing.sealed then some 3
  else if s.sealing.sealed && (!i.chainsOk || i.svn < rfield s .sealCfg 0 0 32) then some 3
  else none

/-- Keys of a sealed link: those of this side's direction and of the peer's (14 R737). -/
def linkKeys (s : State) (c : Nat) (i : IdentInfo) : List Byte × List Byte × List Byte :=
  let l := linkOf s c
  let z := Config.p384Ecdh (l.ephemeral.take 48) i.share
  let (ct, mine) := Config.mlkemEncaps i.ek (sliceBytes l.ephemeral 112 32)
  let theirs := Config.mlkemDecaps (Config.mlkemKeys (sliceBytes l.ephemeral 48 64)).2 i.ct
  let salt := if s.top.serial < i.serial then mine ++ theirs else theirs ++ mine
  let secret := hmac384 salt z
  let key := fun (epoch serial : Nat) =>
    hkdfExpand hmac384 secret (ascii "TGSL chord " ++ leBytes 4 epoch ++ leBytes 8 serial) 36
  (ct, key l.epoch s.top.serial, key l.epoch i.serial)

/-- IDENT (R561, R562, R564): the checks; from TRAINING both directions start at SEQ 0; from RETRAIN the link resends from the
SEQ after the peer's last, unless the peer's serial or epoch differs. -/
def linkIdent (c : Nat) (i : IdentInfo) (s : State) : State :=
  let l := linkOf s c
  if !l.trained then s
  else
    match identRefused s c i with
    | some cause => linkDown c cause false s
    | none =>
      let peer := fun (l : Link) => { l with peerPkg := i.pkg, peerLink := i.link, peerSerial := i.serial, peerEpoch := i.epoch }
      if l.state = .ident then
        let (ct, tx, rx) := if s.sealing.sealed then linkKeys s c i else ([], [], [])
        let s := if s.sealing.sealed then emit (.ident c { ownIdent s c with ct := ct }) s else s
        let s := setLink c { peer l with trained := false, rxCount := 0, txCount := 0, replay := [], credits := 2048, rx := [],
                                         due := 0, replayed := 0, txKey := tx, rxKey := rx, txOther := 0, rxOther := 0,
                                         nakSent := false, ephemeral := [] } s
        retrySys (pushLink c (enterLink c .up s))
      else if l.state = .retrain then
        if i.serial ≠ l.peerSerial || i.epoch ≠ l.peerEpoch then linkDown c 4 false s
        else
          let acked := i.last - (l.txCount - l.replay.length)
          let s := setLink c { l with trained := false, replay := l.replay.drop acked, nakSent := false } s
          retrySys (pushLink c (resendLink c (enterLink c .up s)))
      else s

/-! ### Received flits (R557-R559, R563) -/

/-- DATA flits acknowledged and credits returned by a flit's clear bytes. -/
def noteAck (c : Nat) (flit : List Byte) (s : State) : State :=
  let l := linkOf s c
  let ack := (fieldLE flit 2 2 + 1) % 65536
  let first := l.txCount - l.replay.length
  let n := (ack + 65536 - first % 65536) % 65536
  let drop := if n ≤ l.replay.length then n else 0
  pushLink c (setLink c { l with replay := l.replay.drop drop, credits := l.credits + fieldLE flit 5 1,
                                 naks := if drop = 0 then l.naks else 0 } s)

/-- The count of a flit other than DATA: the least from the next on whose low 16 bits its bytes 6 and 7 carry. -/
def otherCount (l : Link) (flit : List Byte) : Nat :=
  l.rxOther + (fieldLE flit 6 2 + 65536 - l.rxOther % 65536) % 65536

/-- One NAK for the flit expected (R557). -/
def sendFlitNak (c : Nat) (s : State) : State :=
  let l := linkOf s c
  if l.nakSent then s else emitFlit c 2 0 [] [] (setLink c { l with nakSent := true } s)

/-- DATA (R557): accepted in order, discarded, or answered by one NAK. -/
def dataFlit (c : Nat) (flit : List Byte) (s : State) : State :=
  let l := linkOf s c
  if l.state ≠ .up || fieldLE flit 4 1 ≠ 1 then s
  else
    let ahead := (fieldLE flit 0 2 + 65536 - l.rxCount % 65536) % 65536
    let count := if ahead < 32768 then l.rxCount + ahead else l.rxCount + ahead - 65536
    match openFlit l.rxKey 0 count flit with
    | none => sendFlitNak c s
    | some payload =>
      let s := noteAck c flit s
      if ahead = 0 then
        let l := linkOf s c
        setLink c { l with rxCount := l.rxCount + 1, nakSent := false, rx := l.rx ++ payload } s
      else if ahead < 32768 then sendFlitNak c s
      else s

def execData (link : Nat) (flit : List Byte) (s : State) : Out := .next (dataFlit link flit s)

/-- A flit other than DATA on an UP link, with its CRC or tag checked: its payload. -/
def otherFlit (c kind : Nat) (flit : List Byte) (s : State) : Option (List Byte × State) :=
  let l := linkOf s c
  if l.state ≠ .up || fieldLE flit 4 1 ≠ kind then none
  else
    let n := otherCount l flit
    (openFlit l.rxKey 1 n flit).map (fun p => (p, noteAck c flit (setLink c { l with rxOther := n + 1 } s)))

/-- NAK (R558, R563): the sender resends from the SEQ named, one past the ACK field (log entry 46); 16 in a row that name one SEQ
put the link in RETRAIN. -/
def nakFlit (c : Nat) (flit : List Byte) (s : State) : State :=
  match otherFlit c 2 flit s with
  | none => s
  | some (_, s) =>
    let l := linkOf s c
    let seq := (fieldLE flit 2 2 + 1) % 65536
    let naks := if l.naks ≠ 0 && l.nakSeq = seq then l.naks + 1 else 1
    let s := setLink c { l with naks := naks, nakSeq := seq } s
    if 16 ≤ naks then linkRetrain c (laneError c 0 s) else resendLink c s

/-- IDLE (R559): credits and acknowledgements. -/
def execIdle (link : Nat) (flit : List Byte) (s : State) : Out :=
  match otherFlit link 0 flit s with
  | none => .next s
  | some (_, s) => .next s

/-! ### Packets received (R569) -/

/-- Zero bytes that fill a flit after its packet are skipped (log entry 47). -/
def skipFill : List Byte → List Byte
  | [] => []
  | b :: bs => if b = 0 then skipFill bs else b :: bs

/-- The packet at the head of a link's stream, of a type: taken, with its queue space returned to the peer (R559). -/
def takePacket (c typ : Nat) (poison : List Nat) (s : State) : Option (Packet × State) :=
  let l := linkOf s c
  if l.state ≠ .up then none
  else
    let bs := skipFill l.rx
    match parsePacket bs poison with
    | none => none
    | some (p, n) =>
      if p.typ ≠ typ then none
      else
        let rest := bs.drop n
        let freed := ceilDiv l.rx.length 240 - ceilDiv rest.length 240
        let s := setLink c { l with rx := rest, due := l.due + freed } s
        some (p, emitFlit c 0 0 [] [] s)

/-- A packet for another package forwarded by this package's route, or discarded with no hops left (R569). -/
def forwardPacket (p : Packet) (s : State) : State :=
  if p.hops = 0 then
    writeRecord { source := 0, severity := 0, addr := p.dest } (bump s .chdHopDrops)
  else
    match sendPacket { p with hops := p.hops - 1 } s with
    | some (_, s) => s
    | none => s

/-- A packet row: the packet at the head of the link's stream is forwarded, or acted on here (R569). -/
def packetRow (c typ : Nat) (poison : List Nat) (act : Packet → State → State) (s : State) : State :=
  match takePacket c typ poison s with
  | none => s
  | some (p, s) => if bitsOf p.dest 46 6 = pkgNumber s then act p s else forwardPacket p s

/-! ### CHORD_LINK, CHORD_ROUTE, CHORD_ACL (R601, R602) -/

/-- CHORD_LINK. -/
def chordLinkBody (c : Cmd) (s : State) : Body := do
  let k := c.param 24 1
  let action := c.param 25 1
  need (c.reserved [(26, 64)] && k < 12 && action ≤ 2) stBadParam
  need (!(10 ≤ k && pairFormed s)) stNotPermitted
  let l := linkOf s k
  if action = 0 then .ok (.done stOk 0 0 (linkDown k 6 false s))
  else if action = 1 then do
    need (l.state ≠ .up && linkAvail s k) stBadState
    .ok (.done stOk 0 0 (linkTrain k s))
  else do
    need (l.state = .down && linkAvail s k) stBadState
    let s := enterLink k .training s
    .ok (.running (setLink k { linkOf s k with bist := some c.serial } s))

/-- CHORD_ROUTE. -/
def chordRouteBody (c : Cmd) (s : State) : Body := do
  need (c.reserved [(25, 26), (28, 64)] && c.param 24 1 < 64 && c.param 26 2 < 4096) stBadParam
  .ok (.done stOk 0 0 (retrySys (rput s .chdRoute (c.param 24 1) 0 (c.param 26 2))))

def execChordRoute (ring : Nat) (s : State) : Out := .next (beginCommand 0x0911 ring chordRouteBody s)

/-- CHORD_ACL. -/
def chordAclBody (c : Cmd) (s : State) : Body := do
  let n := c.param 24 1
  let e := c.param 25 1
  need (c.reserved [(26, 32), (48, 64)] && n < 8 && e < 16) stBadParam
  .ok (.done stOk 0 0 (rput (rput s .chdAclSrc n e (c.param 32 8)) .chdAclWin n e (c.param 40 8)))

def execChordAcl (ring : Nat) (s : State) : Out := .next (beginCommand 0x0912 ring chordAclBody s)

end Sys2Proof.Machine
end

