-- ==== Sys2Proof/Machine/Transfers.lean ====
section
/-! DEFINITION. Transfers, folds, access lists, and the packets that carry them (chapter 11 of spec/, R572-R575, R583-R597). -/
namespace Sys2Proof.Machine

/-- Chunk size (R584), the number of chunks of a transfer, and the bytes of one. -/
abbrev chunkSize : Nat := 65536
def chunkCount (bytes : Nat) : Nat := ceilDiv bytes chunkSize
def chunkLen (bytes c : Nat) : Nat := min chunkSize (bytes - c * chunkSize)

/-- Flags of a chunk: COMPRESSED and LAST (R568). -/
def chunkFlags (compress : Bool) (bytes c : Nat) : Nat := bitNat compress + 2 * bitNat (c + 1 = chunkCount bytes)

/-- A transfer by its number replaced or dropped; a fold likewise. -/
def setTransfer (k : Nat) (t : Transfer) (s : State) : State :=
  setChord { s.chord with transfers := Table.put s.chord.transfers k t } s
def setFold (k : Nat) (f : Fold) (s : State) : State := setChord { s.chord with folds := Table.put s.chord.folds k f } s

/-- A transfer that has every chunk acknowledged or refused completes (R587). -/
def settleTransfer (k : Nat) (s : State) : State :=
  match Table.find s.chord.transfers k with
  | none => s
  | some t =>
    if t.acked.length + t.refused.length < chunkCount t.bytes then s
    else
      let status := match (List.range (chunkCount t.bytes)).find? (fun c => t.refused.any (fun r => r.1 = c)) with
        | none => stOk
        | some c => ((t.refused.find? (fun r => r.1 = c)).map Prod.snd).getD stOk
      finish t.serial status t.acked.length t.sent (setChord { s.chord with transfers := Table.drop s.chord.transfers k } s)

/-- One chunk of a transfer sent (R584, R576): a local line that cannot be read refuses it; without an UP link the transfer
ends with HW_FAULT (R587). -/
def sendChunk (k c : Nat) (s : State) : State :=
  match Table.find s.chord.transfers k with
  | none => s
  | some t =>
    let n := chunkLen t.bytes c
    let head : Packet :=
      { typ := if t.op = 0 then 1 else if t.op = 1 then 2 else 4, flags := chunkFlags t.compress t.bytes c, srcPkg := pkgNumber s,
        srcSector := t.sector, etype := t.etype, dest := t.remote + c * chunkSize, stream := k, chunk := c, decoded := n }
    let (data, s) := if t.op = 1 then (.ok [], s) else trustedRead (t.localAddr + c * chunkSize) n s
    match data with
    | .error st => setTransfer k { t with refused := t.refused ++ [(c, st)] } s
    | .ok bs =>
      let p := { head with payload := if t.compress then encodeChunk t.etype bs else bs }
      match sendPacket p s with
      | some (l, s) => setTransfer k { t with sent := t.sent + p.payload.length, link := l } s
      | none => finish t.serial stHwFault t.acked.length t.sent
          (setChord { s.chord with transfers := Table.drop s.chord.transfers k } s)

/-- Chunks of a transfer that are neither acknowledged nor refused. -/
def Transfer.open (t : Transfer) : List Nat :=
  (List.range (chunkCount t.bytes)).filter (fun c => !t.acked.contains c && !t.refused.any (fun r => r.1 = c))

/-- Every open chunk of a transfer sent. -/
def sendOpen (k : Nat) (s : State) : State :=
  match Table.find s.chord.transfers k with
  | none => s
  | some t => settleTransfer k (t.open.foldl (fun s c => sendChunk k c s) s)

/-- CHORD_XFER (R583, R584). -/
def chordXferBody (c : Cmd) (s : State) : Body := do
  let n := c.ring / 64
  let a := c.param 24 8
  let r := c.param 32 8
  let bytes := c.param 40 8
  let op := c.param 48 1
  let et := c.param 49 1
  let fl := c.param 50 1
  need (c.reserved [(51, 64)] && a % 64 = 0 && r % 64 = 0 && r < 2 ^ 52 && bitsOf r 46 6 ≠ pkgNumber s && 64 ≤ bytes
    && bytes ≤ 2 ^ 36 && bytes % 64 = 0 && op ≤ 2 && et ≤ 7 && (op ≠ 2 || et ≤ 4) && fl ≤ 1
    && (fl = 0 || (3 ≤ et && et ≤ 6 && op ≠ 1)) && ownsFree s n a bytes) stBadParam
  let k := (List.range 4096).foldl (fun k _ =>
    if (Table.find s.chord.transfers k).isSome then (k + 1) % 2 ^ 32 else k) ((s.chord.lastStream + 1) % 2 ^ 32)
  need (routeLink s (bitsOf r 46 6) k).isSome stBadState
  let s := setChord { s.chord with lastStream := k } s
  .ok (.running (setTransfer k { serial := c.serial, sector := n, op := op, etype := et, compress := fl = 1, localAddr := a,
                                 remote := r, bytes := bytes } s))

/-- The transfer that a command has just begun sends its chunks. -/
def execChordXfer (ring : Nat) (s : State) : Out :=
  let s' := beginCommand 0x0913 ring chordXferBody s
  if s'.chord.lastStream = s.chord.lastStream then .next s' else .next (sendOpen s'.chord.lastStream s')

/-! ### Answers (R584, R587) -/

/-- An ACK or a REFUSE to the sender of a packet. -/
def answerPacket (p : Packet) (typ status : Nat) (payload : List Byte) (s : State) : State :=
  let q : Packet :=
    { typ := typ, flags := p.flags &&& 2, srcPkg := pkgNumber s, srcSector := p.srcSector, etype := p.etype, status := status,
      dest := p.srcPkg * 2 ^ 46 + p.dest % 2 ^ 46, stream := p.stream, chunk := p.chunk, payload := payload,
      decoded := payload.length }
  match sendPacket q s with
  | some (_, s) => s
  | none => s

def ackPacket (p : Packet) (s : State) : State := answerPacket p 6 0 [] s
def refusePacket (p : Packet) (status : Nat) (s : State) : State := answerPacket p 7 status [] s

/-- Key of a stream's bitmap (R586, R593). -/
def appliedKey (p : Packet) : Nat := p.srcPkg * 2 ^ 33 + bitNat (p.typ = 5) * 2 ^ 32 + p.stream

/-- Whether a chunk was applied; and a chunk noted as applied. -/
def wasApplied (p : Packet) (s : State) : Bool := (Table.getD s.chord.applied (appliedKey p) []).contains p.chunk
def noteApplied (p : Packet) (s : State) : State :=
  let k := appliedKey p
  setChord { s.chord with applied := Table.put s.chord.applied k (insertNat p.chunk (Table.getD s.chord.applied k [])) } s

/-- DEDUP_EXPIRY (R586): the bitmap of a stream is dropped. -/
def execDedupExpiry (pkg stream : Nat) (fold : Bool) (s : State) : Out :=
  .next (setChord { s.chord with applied := Table.drop s.chord.applied (pkg * 2 ^ 33 + bitNat fold * 2 ^ 32 + stream) } s)

/-! ### Access lists (R572, R573) -/

/-- Whether a range lies outside a sector's RDMA table. -/
def outsideTable (s : State) (n a len : Nat) : Bool :=
  ((Table.find s.rdma.tables n).map (fun g => decide (a + len ≤ g * 2 ^ 30) || decide ((g + 1) * 2 ^ 30 ≤ a))).getD true

/-- Whether a sector's window grants a right (1 WRITE, 2 READ, 3 ACCUM, 4 FOLD) over a range to a package and sector. -/
def windowGrants (s : State) (n right pkg sector a len : Nat) : Bool :=
  (List.range 16).any (fun e =>
    let w := rget s .chdAclWin n e
    let base := bitsOf w 13 25 * 2 ^ 21
    w.testBit 0 && w.testBit right && w.testBit (5 + sector) && (rget s .chdAclSrc n e).testBit pkg
      && base ≤ a && a + len ≤ base + bitsOf w 38 26 * 2 ^ 21)

/-- The check of R572 for a packet's range. -/
def aclAllows (s : State) (p : Packet) (right len : Nat) : Bool :=
  let a := p.dest % 2 ^ 46
  p.srcSector < 8 && len ≠ 0 && (List.range 8).any (fun n =>
    ownsFree s n a len && outsideTable s n a len && windowGrants s n right p.srcPkg p.srcSector a len)

/-- A sector's packet on the memory of a sector here: refused by the access list, acknowledged again, or acted on (R572, R586). A
packet of system traffic has no memory consumer (R571). -/
def memoryPacket (p : Packet) (right : Nat) (act : State → State) (s : State) : State :=
  if p.srcSector = 15 then s
  else if !aclAllows s p right p.decoded then refusePacket p stNotPermitted (bump s .chdAclRefused)
  else if wasApplied p s then ackPacket p s
  else act s

/-- The decoded payload of a packet; none where its code is refused (R579). -/
def decodedOf (p : Packet) : Option (List Byte) :=
  if p.flags.testBit 0 then
    (if 3 ≤ p.etype && p.etype ≤ 6 then decodeChunk p.etype p.decoded p.payload else none)
  else if p.payload.length = p.decoded then some p.payload else none

/-- A chunk that was applied is noted and acknowledged; one that failed is refused (R575, R584). -/
def settlePacket (p : Packet) (r : Nat × State) : State :=
  if r.1 = stOk then ackPacket p (noteApplied p r.2) else refusePacket p r.1 r.2

/-- WRITE (R572, R584, R586). -/
def writePacket (p : Packet) (s : State) : State :=
  memoryPacket p 1 (fun s =>
    match decodedOf p with
    | none => refusePacket p stBadParam s
    | some bs => settlePacket p (trustedWrite (p.dest % 2 ^ 46) bs s)) s

def execWrite (link : Nat) (s : State) : Out := .next (packetRow link 1 [] writePacket s)

/-- READ_REQ (R572): the data is answered, or the status that refuses it (R575). -/
def readPacket (faults : List LineFault) (p : Packet) (s : State) : State :=
  memoryPacket p 2 (fun s =>
    match faultyRead faults (p.dest % 2 ^ 46) p.decoded s with
    | (.ok bs, s) => answerPacket p 3 0 bs s
    | (.error st, s) => refusePacket p st s) s

def execReadReq (link : Nat) (faults : List LineFault) (s : State) : Out := .next (packetRow link 2 [] (readPacket faults) s)

/-- READ_RESP: data of a READ transfer is written to its local range. -/
def readRespPacket (p : Packet) (s : State) : State :=
  match Table.find s.chord.transfers p.stream with
  | none => s
  | some t =>
    if t.op ≠ 1 || p.srcPkg ≠ bitsOf t.remote 46 6 || !t.open.contains p.chunk || p.payload.length ≠ chunkLen t.bytes p.chunk
    then s
    else
      match trustedWrite (t.localAddr + p.chunk * chunkSize) p.payload s with
      | (0, s) => settleTransfer p.stream (setTransfer p.stream { t with acked := t.acked ++ [p.chunk] } s)
      | (st, s) => settleTransfer p.stream (setTransfer p.stream { t with refused := t.refused ++ [(p.chunk, st)] } s)

def execReadResp (link : Nat) (s : State) : Out := .next (packetRow link 3 [] readRespPacket s)

/-- Lines of a chunk added into memory in ascending order (R585): integers by line adds, floats by the interface with each line
written whole. -/
def accumLines (etype : Nat) (faults : List LineFault) : Nat → Nat → List Byte → State → Nat × State
  | 0, _, _, s => (stOk, s)
  | k + 1, a, bs, s =>
    if bs = [] then (stOk, s)
    else
      let r := if etype ≤ 2 then faultyLineAdd faults a (elementBytes etype) false (bs.take 64) s
        else
          match faultyRead faults a 64 s with
          | (.error st, s) => (st, s)
          | (.ok old, s) => trustedWrite a (sumBytes etype old (padTo 64 bs)) s
      match r with
      | (0, s) => accumLines etype faults k (a + 64) (bs.drop 64) s
      | r => r

/-- ACCUM of a sector (R572, R585, R586). -/
def accumPacket (faults : List LineFault) (p : Packet) (s : State) : State :=
  memoryPacket p 3 (fun s =>
    match decodedOf p with
    | none => refusePacket p stBadParam s
    | some bs =>
      if 4 < p.etype then refusePacket p stBadParam s
      else settlePacket p (accumLines p.etype faults (bs.length / 64 + 1) (p.dest % 2 ^ 46) bs s)) s

/-! ### Folds (R588-R595) -/

/-- A fold ends: its slot is free and its command done (R588, R591). -/
def endFold (k : Nat) (f : Fold) (status : Nat) (s : State) : State :=
  finish f.serial status (if f.role = 2 then f.written.length else f.acked.length) f.poisoned
    (setChord { s.chord with folds := Table.drop s.chord.folds k } s)

/-- A fold that has every chunk done completes (R591, R592). -/
def settleFold (k : Nat) (s : State) : State :=
  match Table.find s.chord.folds k with
  | none => s
  | some f =>
    let n := chunkCount f.bytes
    let full := if f.role = 2 then f.written.length = n else f.acked.length = n && (f.role = 0 || f.written.length = n)
    if !full then s
    else
      let bad := if s.sealing.sealed then stIntegrityFail else stPoisoned
      endFold k f (if f.failed ≠ 0 then f.failed else if f.role = 2 && f.poisoned ≠ 0 then bad else stOk) s

/-- A member's own contribution to a chunk: its lines, the lines that failed, and the status of the first failure (R592). -/
def ownLines (faults : List LineFault) : Nat → Nat → Nat → State → (List Byte × List Nat × Nat) × State
  | 0, _, _, s => (([], [], 0), s)
  | k + 1, i, a, s =>
    match faultyRead faults a 64 s with
    | (.ok bs, s) =>
      let ((rest, marks, st), s) := ownLines faults k (i + 1) (a + 64) s
      ((bs ++ rest, marks, st), s)
    | (.error e, s) =>
      let ((rest, marks, _), s) := ownLines faults k (i + 1) (a + 64) s
      ((padTo 64 [] ++ rest, i :: marks, e), s)

/-- Lines of a chunk with the marked ones zero. -/
def blankLines (marks : List Nat) : Nat → Nat → List Byte → List Byte
  | 0, _, _ => []
  | k + 1, i, bs => (if marks.contains i then padTo 64 [] else padTo 64 bs) ++ blankLines marks k (i + 1) (bs.drop 64)

/-- A chunk of a fold sent to NEXT; without an UP link the fold ends with HW_FAULT (11, corner of a lost member). -/
def foldSend (k : Nat) (p : Packet) (s : State) : State :=
  match Table.find s.chord.folds k with
  | none => s
  | some f =>
    match sendPacket p s with
    | some (l, s) => setFold k { f with waiting := Table.put f.waiting p.chunk p, link := l, busy := f.busy.filter (· ≠ p.chunk) } s
    | none => endFold k f stHwFault s

/-- The packet of a fold chunk (R589): coded again when COMPRESS is set. -/
def foldPacket (s : State) (f : Fold) (c : Nat) (bs : List Byte) (marks : List Nat) : Packet :=
  { typ := 5, flags := chunkFlags f.compress f.bytes c, srcPkg := pkgNumber s, srcSector := f.sector, etype := f.etype,
    dest := f.next * 2 ^ 46, stream := f.stream, chunk := c, decoded := bs.length, poison := marks,
    payload := if f.compress then encodeChunk f.etype bs else bs }

/-- The HEAD's chunks sent (R589). -/
def foldHead (k : Nat) (s : State) : State :=
  match Table.find s.chord.folds k with
  | none => s
  | some f =>
    if f.role ≠ 0 then s
    else
      (List.range (chunkCount f.bytes)).foldl (fun s c =>
        match Table.find s.chord.folds k with
        | none => s
        | some f =>
          let ((bs, marks, st), s) := ownLines [] (chunkLen f.bytes c / 64) 0 (f.localAddr + c * chunkSize) s
          let f := { f with failed := if f.failed ≠ 0 then f.failed else st }
          foldSend k (foldPacket s f c bs marks) (setFold k f s)) s

/-- CHORD_FOLD (R588, R589). -/
def chordFoldBody (c : Cmd) (s : State) : Body := do
  let n := c.ring / 64
  let a := c.param 24 8
  let dest := c.param 32 8
  let bytes := c.param 40 8
  let role := c.param 48 1
  let et := c.param 49 1
  let fl := c.param 50 1
  let next := c.param 51 1
  let prev := c.param 56 1
  need (c.reserved [(57, 64)] && a % 64 = 0 && 64 ≤ bytes && bytes ≤ 2 ^ 36 && bytes % 64 = 0 && role ≤ 2 && et ≤ 4 && fl ≤ 1
    && (fl = 0 || 3 ≤ et) && ownsFree s n a bytes) stBadParam
  need (if role = 2 then dest % 64 = 0 && ownsFree s n dest bytes && next = 0 else dest = 0 && next < 64 && next ≠ pkgNumber s)
    stBadParam
  need (if role = 0 then prev = 0 else prev < 64 && prev ≠ pkgNumber s) stBadParam
  let slot := Table.firstFree s.chord.folds 0 64
  need (!s.chord.folds.any (fun e => e.2.stream = c.param 52 4)) stBadState
  match slot with
  | none => .error { status := stNoResource }
  | some k =>
    need (role = 2 || (routeLink s next (c.param 52 4)).isSome) stBadState
    .ok (.running (setFold k { serial := c.serial, sector := n, role := role, stream := c.param 52 4, etype := et,
                               compress := fl = 1, localAddr := a, dest := dest, bytes := bytes, next := next, prev := prev } s))

/-- A fold that has just begun as HEAD sends its chunks. -/
def execChordFold (ring : Nat) (s : State) : Out :=
  let s' := beginCommand 0x0914 ring chordFoldBody s
  .next ((s'.chord.folds.filter (fun e => (Table.find s.chord.folds e.1).isNone)).foldl (fun s e => foldHead e.1 s) s')

/-- Sum lines written to the TAIL's DEST in full-line writes, the marked ones poisoned (R589, R592). -/
def writeSum (marks : List Nat) : Nat → Nat → Nat → List Byte → State → State
  | 0, _, _, _, s => s
  | k + 1, i, a, bs, s =>
    let s := if marks.contains i then poisonLine (zeroFill s a 64) a else poke (unpoison s a) a (padTo 64 bs)
    writeSum marks k (i + 1) (a + 64) (bs.drop 64) s

/-- FOLD (R589, R590, R592, R593): the chunk is added to the member's own and forwarded, or written by the TAIL. -/
def foldChunk (faults : List LineFault) (p : Packet) (s : State) : State :=
  if wasApplied p s then ackPacket p s
  else
    match s.chord.folds.find? (fun e => e.2.stream = p.stream) with
    | none => refusePacket p stRetryBusy s
    | some (k, f) =>
      if f.role = 0 || f.prev ≠ p.srcPkg || 8 ≤ p.srcSector
          || !windowGrants s f.sector 4 p.srcPkg p.srcSector f.localAddr f.bytes then
        refusePacket p stNotPermitted (bump s .chdAclRefused)
      else
        let n := chunkLen f.bytes p.chunk
        match if p.chunk < chunkCount f.bytes && p.decoded = n && p.etype = f.etype then decodedOf p else none with
        | none => refusePacket p stBadParam s
        | some bs =>
          let ((own, bad, st), s) := ownLines faults (n / 64) 0 (f.localAddr + p.chunk * chunkSize) s
          let marks := (List.range (n / 64)).filter (fun i => p.poison.contains i || bad.contains i)
          let sum := blankLines marks (n / 64) 0 (sumBytes f.etype bs own)
          let f := { f with failed := if f.failed ≠ 0 then f.failed else st, written := insertNat p.chunk f.written,
                            poisoned := if f.role = 2 then f.poisoned + marks.length else f.poisoned }
          let s := ackPacket p (noteApplied p (setFold k f s))
          if f.role = 2 then settleFold k (writeSum marks (n / 64) 0 (f.dest + p.chunk * chunkSize) sum s)
          else foldSend k (foldPacket s f p.chunk sum marks) s

def execFold (link : Nat) (poison : List Nat) (faults : List LineFault) (s : State) : Out :=
  .next (packetRow link 5 poison (foldChunk faults) s)

/-- FOLD_RETRY (R590): chunks refused RETRY_BUSY are sent again. -/
def execFoldRetry (slot : Nat) (s : State) : Out :=
  match Table.find s.chord.folds slot with
  | none => .next s
  | some f => .next (f.busy.foldl (fun s c =>
      match Table.find f.waiting c with
      | none => s
      | some p => foldSend slot p s) s)

/-- FOLD_WAIT_EXPIRY (R590): a fold that still waits for a slot at its next member, or for chunks, completes with
DEADLINE_PASSED. -/
def execFoldWaitExpiry (slot : Nat) (s : State) : Out :=
  match Table.find s.chord.folds slot with
  | none => .next s
  | some f =>
    if f.busy ≠ [] || (f.role ≠ 0 && f.written.length < chunkCount f.bytes) then .next (endFold slot f stDeadlinePassed s)
    else .next s

/-! ### ACK and REFUSE (R584, R587, R590, R591, R596) -/

/-- The fold whose sent chunk a packet answers. -/
def foldAnswered (p : Packet) (s : State) : Option (Nat × Fold) :=
  s.chord.folds.find? (fun e => e.2.stream = p.stream && e.2.role ≠ 2 && e.2.next = p.srcPkg
    && (Table.find e.2.waiting p.chunk).isSome)

/-- ACK: a fold chunk, a tree chunk or a transfer chunk is acknowledged. -/
def ackArrives (p : Packet) (s : State) : State :=
  if p.srcSector = 15 then
    setChord { s.chord with tree := s.chord.tree.filter (fun e =>
      !(e.2.stream = p.stream && e.2.chunk = p.chunk && bitsOf e.2.dest 46 6 = p.srcPkg)) } s
  else
    match foldAnswered p s with
    | some (k, f) =>
      settleFold k (setFold k { f with waiting := Table.drop f.waiting p.chunk, acked := insertNat p.chunk f.acked,
                                       busy := f.busy.filter (· ≠ p.chunk) } s)
    | none =>
      match Table.find s.chord.transfers p.stream with
      | none => s
      | some t =>
        if t.op = 1 || p.srcPkg ≠ bitsOf t.remote 46 6 || !t.open.contains p.chunk then s
        else settleTransfer p.stream (setTransfer p.stream { t with acked := t.acked ++ [p.chunk] } s)

def execAck (link : Nat) (s : State) : Out := .next (packetRow link 6 [] ackArrives s)

/-- REFUSE: a fold chunk refused RETRY_BUSY waits to be sent again, another ends the fold (log entry 51); a transfer chunk is
refused; a refused tree chunk waits to be sent again. -/
def refuseArrives (p : Packet) (s : State) : State :=
  if p.srcSector = 15 then
    setChord { s.chord with tree := s.chord.tree.map (fun e =>
      if e.2.stream = p.stream && e.2.chunk = p.chunk && bitsOf e.2.dest 46 6 = p.srcPkg then (12, e.2) else e) } s
  else
  match foldAnswered p s with
  | some (k, f) =>
    if p.status = stRetryBusy then setFold k { f with busy := insertNat p.chunk f.busy } s
    else endFold k f p.status s
  | none =>
    match Table.find s.chord.transfers p.stream with
    | none => s
    | some t =>
      if p.srcPkg ≠ bitsOf t.remote 46 6 || !t.open.contains p.chunk then s
      else settleTransfer p.stream (setTransfer p.stream { t with refused := t.refused ++ [(p.chunk, p.status)] } s)

def execRefuse (link : Nat) (s : State) : Out := .next (packetRow link 7 [] refuseArrives s)

/-! ### A link that went DOWN (R586, R593, R597) -/

/-- Chunks that a link carried when it went DOWN are sent again on another link of their routes. -/
def resendOver (s : State) : State :=
  let dead := fun (s : State) (c : Nat) => (linkOf s c).state = .down
  let s := (s.chord.transfers.filter (fun e => dead s e.2.link)).foldl (fun s e => sendOpen e.1 s) s
  let s := (s.chord.folds.filter (fun e => e.2.role ≠ 2 && dead s e.2.link)).foldl (fun s e =>
    (e.2.waiting.filter (fun w => !e.2.busy.contains w.1)).foldl (fun s w => foldSend e.1 w.2 s) s) s
  s.chord.tree.foldl (fun s e =>
    if !dead s e.1 then s
    else
      match sendPacket e.2 s with
      | some (c, s) => setChord { s.chord with tree := s.chord.tree.map (fun x => if x = e then (c, x.2) else x) } s
      | none => s) s

/-- An event of a link, and what follows when the link went DOWN in it. -/
def linkEvent (c : Nat) (s s' : State) : State :=
  if (linkOf s c).state ≠ .down && (linkOf s' c).state = .down then resendOver s' else s'

/-- LANE_LOCK_LOSS (R563): a data lane of an UP link loses lock. -/
def execLaneLockLoss (link lane : Nat) (s : State) : Out :=
  if (linkOf s link).state ≠ .up then .next s else .next (linkEvent link s (linkRetrain link (laneError link lane s)))

/-- FEC_ERROR_BURST (R563). -/
def execFecErrorBurst (link lane : Nat) (s : State) : Out :=
  if (linkOf s link).state ≠ .up then .next s else .next (linkEvent link s (linkRetrain link (laneError link lane s)))

/-- RETRAIN_TIMEOUT (R564). -/
def execRetrainTimeout (link : Nat) (s : State) : Out :=
  if (linkOf s link).state ≠ .retrain then .next s
  else
    let (fired, _, s) := firePoint 0x0702 link s
    .next (linkEvent link s (linkDown link 4 fired s))

def execLinkTrainingComplete (link failed : Nat) (s : State) : Out := .next (linkEvent link s (linkTrainingComplete link failed s))
def execNak (link : Nat) (flit : List Byte) (s : State) : Out := .next (linkEvent link s (nakFlit link flit s))
def execIdent (link : Nat) (peer : IdentInfo) (s : State) : Out := .next (linkEvent link s (linkIdent link peer s))

/-- CHORD_LINK: chunks of a link that it takes DOWN are sent again. -/
def execChordLink (ring : Nat) (s : State) : Out :=
  let s' := beginCommand 0x0910 ring chordLinkBody s
  .next ((List.range 12).foldl (fun t c => if (linkOf s c).state ≠ .down && (linkOf t c).state = .down then resendOver t else t) s')

end Sys2Proof.Machine
end

