-- ==== Sys2Proof/Machine/HeatSlot.lean ====
section
/-! DEFINITION. Heat slots: parameters, regions in the pool, bitmap and records, line operations that can make a slot TAINTED,
keys, the neighbourhood graph, and what is known of entrants (chapters 06 and 07 of spec/). -/
namespace Sys2Proof.Machine

/-! ### Slots and parameters (HEAT_OPEN, 06) -/

/-- A slot; and a slot replaced. -/
def slotOf (s : State) (k : Nat) : HeatSlot := Table.getD s.heat.slots k {}
def setSlot (k : Nat) (h : HeatSlot) (s : State) : State := { s with heat := { s.heat with slots := Table.put s.heat.slots k h } }
def changeSlot (k : Nat) (f : HeatSlot → HeatSlot) (s : State) : State :=
  { s with heat := { s.heat with slots := Table.change s.heat.slots k f } }

/-- Fields of the HEAT_OPEN packet. -/
def HeatSlot.p (h : HeatSlot) (off n : Nat) : Nat := fieldLE h.params off n
def HeatSlot.id (h : HeatSlot) : Nat := h.p 24 8
def HeatSlot.tallied (h : HeatSlot) : Bool := h.p 33 1 = 1
def HeatSlot.width (h : HeatSlot) : Nat := h.p 34 1
def HeatSlot.mirror (h : HeatSlot) : Nat := h.p 35 1
def HeatSlot.elements (h : HeatSlot) : Nat := h.p 36 4
def HeatSlot.degree (h : HeatSlot) : Nat := h.p 40 2
def HeatSlot.threshold (h : HeatSlot) : Nat := h.p 42 2
def HeatSlot.fragBytes (h : HeatSlot) : Nat := h.p 44 4
def HeatSlot.totalIndices (h : HeatSlot) : Nat := h.p 48 4
def HeatSlot.first (h : HeatSlot) : Nat := h.p 52 4
def HeatSlot.count (h : HeatSlot) : Nat := h.p 56 4
def HeatSlot.minSurvivors (h : HeatSlot) : Nat := h.p 60 4
def HeatSlot.deadline (h : HeatSlot) (phase : Nat) : Nat := h.p (56 + 8 * phase) 8
def HeatSlot.sigma (h : HeatSlot) : Nat := h.p 112 4
def HeatSlot.lead (h : HeatSlot) : Nat := h.p 116 1
def HeatSlot.handle (h : HeatSlot) : Nat := h.p 120 8
def HeatSlot.kInv (h : HeatSlot) : List Byte := sliceBytes h.params 128 32
def HeatSlot.logN (h : HeatSlot) : Nat := h.p 168 1
def HeatSlot.limbs (h : HeatSlot) : Nat := h.p 169 1
def HeatSlot.outLimbs (h : HeatSlot) : Nat := h.p 170 1
def HeatSlot.keyset (h : HeatSlot) : Nat := h.p 176 8

/-- Vector bytes without and with the fill of the last line: V of R344. -/
def HeatSlot.bytes (h : HeatSlot) : Nat := h.elements * h.width / 8
def HeatSlot.v (h : HeatSlot) : Nat := ceilDiv (h.elements * h.width) 512 * 64

/-- Fragments of a SUBMIT, or blocks of a TALLY; and the bytes of one. -/
def HeatSlot.pieces (h : HeatSlot) : Nat :=
  if h.tallied then ceilDiv h.elements (2 ^ h.logN) else ceilDiv h.bytes h.fragBytes
def HeatSlot.pieceBytes (h : HeatSlot) (f : Nat) : Nat :=
  if h.tallied then 16 * h.limbs * 2 ^ h.logN else min h.fragBytes (h.bytes - f * h.fragBytes)

/-- Whether an index lies in the home range (06 R332, check 3). -/
def HeatSlot.covers (h : HeatSlot) (u : Nat) : Bool := h.first ≤ u && u < h.first + h.count

/-- Whether the slot is a shadow, or acts as the lead of its heat. -/
def HeatSlot.shadow (h : HeatSlot) : Bool := h.role = 2
def HeatSlot.leads (h : HeatSlot) : Bool := h.role = 1

/-- Whether the slot does phase-end work and sends: not a shadow, not TAINTED, stopped, being opened or handed over, and not
ended (06 R332; 18 R888, R897). -/
def HeatSlot.works (h : HeatSlot) : Bool :=
  h.role ≠ 2 && 1 ≤ h.phase && h.phase ≤ 7 && !h.stopped && h.moving.isNone

/-! ### Phases (R9, 19 R927) -/

/-- A phase change with its log record. -/
def heatPhase (k phase : Nat) (s : State) : State :=
  let h := slotOf s k
  if h.phase = phase then s
  else
    let body := leBytes 1 k ++ leBytes 1 h.phase ++ leBytes 1 phase ++ leBytes 1 0 ++ leBytes 4 h.survivors ++ leBytes 8 h.id
      ++ leBytes 8 s.cad.stroke
    logRecord (rfield s .heatConfig 0 56 6) 0x03 body (setSlot k { h with phase := phase } s)

/-- A line operation on a region of the slot was refused: the slot becomes TAINTED (R383). `hsn` is that of a refused add. -/
def taintSlot (k line : Nat) (hsn : Option Nat) (s : State) : State :=
  let h := slotOf s k
  if 8 = h.phase || 10 = h.phase then s
  else
    let low := match h.hMin, hsn with
      | some a, some b => some (min a b)
      | none, b => b
      | a, none => a
    let h' := { h with taintLines := insertNat line h.taintLines, hMin := low, prior := if h.phase = 9 then h.prior else h.phase }
    let s := setSlot k h' s
    if h.phase = 9 then s else bump (heatPhase k 9 s) .heatTaintCount

/-! ### Regions (R344, R352, R974; log entry 36) -/

/-- Address of a byte of a region: its blocks of 256 bytes lie round-robin over its granules (R352). -/
def spreadAddr (ext : Extent) (off : Nat) : Nat :=
  let b := off / 256
  let n := ext.granules.length
  ext.granules.getD (b % n) 0 * 2 ^ 30 + ext.base + b / n * 256 + off % 256

/-- Whether a DPA lies in a region. -/
def Extent.holds (ext : Extent) (a : Nat) : Bool :=
  ext.granules.contains (a / 2 ^ 30) && ext.base ≤ a % 2 ^ 30 && a % 2 ^ 30 < ext.base + ext.share

/-- Address of an entrant's record and of its bitmap byte. -/
def HeatSlot.recordAddr (h : HeatSlot) (u : Nat) : Nat := spreadAddr h.records (128 * (u - h.first))
def HeatSlot.bitAddr (h : HeatSlot) (u : Nat) : Nat := h.bitmap + (u - h.first)

/-- Bytes read from a region: none when a line of them is refused, and the slot is then TAINTED. -/
def slotRead (faults : List LineFault) (k a n : Nat) (s : State) : Option (List Byte) × State :=
  match faultyRead faults a n s with
  | (.ok bs, s) => (some bs, s)
  | (.error _, s) =>
    let bad := ((List.range ((a + n - 1) / 64 - a / 64 + 1)).map (· + a / 64)).find? (s.mem.poison.contains ·)
    (none, taintSlot k (bad.getD (a / 64)) none s)

/-- Bytes written to a region, line by line; a refused line makes the slot TAINTED. -/
def slotWrite (k a : Nat) (bs : List Byte) (s : State) : State :=
  match trustedWrite a bs s with
  | (0, s) => s
  | (_, s) => taintSlot k (a / 64) none s

/-- Bytes added to a spread region from an offset, by line adds of the slot's width: every line is issued, refused ones make
the slot TAINTED (R347, R383). `fuel` bounds the lines. -/
def addSpread (faults : List LineFault) (k : Nat) (hsn : Option Nat) (ext : Extent) (w : Nat) (sub : Bool) :
    Nat → Nat → List Byte → State → State
  | 0, _, _, s => s
  | fuel + 1, off, bs, s =>
    if bs = [] then s
    else
      let a := spreadAddr ext off
      let s := match faultyLineAdd faults a w sub (bs.take 64) s with
        | (0, s) => s
        | (_, s) => taintSlot k (a / 64) hsn s
      addSpread faults k hsn ext w sub fuel (off + 64) (bs.drop 64) s

/-- Bytes of a spread region, read whatever the poison of their lines. -/
def peekSpread (s : State) (ext : Extent) : Nat → Nat → List Byte
  | 0, _ => []
  | n + 1, off => peek s (spreadAddr ext off) 64 ++ peekSpread s ext n (off + 64)

/-- Elements of `w` bytes turned from big-endian to little-endian or back (R353). -/
def swapElements (w : Nat) : Nat → List Byte → List Byte
  | 0, _ => []
  | n + 1, bs => (bs.take w).reverse ++ swapElements w n (bs.drop w)

/-! ### The bitmap (07) -/

/-- Bitmap byte of an entrant of the range. -/
def ownBits (s : State) (h : HeatSlot) (u : Nat) : Nat := (cellAt s.mem.cells (h.bitAddr u)).toNat

/-- A bit of an entrant's byte written (R351). -/
def putBit (k u bit : Nat) (on : Bool) (s : State) : State :=
  let h := slotOf s k
  slotWrite k (h.bitAddr u) (leBytes 1 (setBits (ownBits s h u) bit 1 (bitNat on))) s

/-- Bitmap byte of an entrant of any home, as far as it is known here. -/
def bitsAnywhere (s : State) (h : HeatSlot) (u : Nat) : Nat := if h.covers u then ownBits s h u else Table.getD h.bits u 0

/-- Entrants of the range whose byte has a bit set. -/
def rangeWith (s : State) (h : HeatSlot) (bit : Nat) : List Nat :=
  ((List.range h.count).map (· + h.first)).filter (fun u => (ownBits s h u).testBit bit)

/-- C_pk ‖ M_pk of an entrant. -/
def keysAnywhere (s : State) (h : HeatSlot) (u : Nat) : List Byte :=
  if h.covers u then peek s (h.recordAddr u + 32) 64 else Table.getD h.keys u []

/-! ### Keys (06 R308-R312, R331) -/

/-- HEAT_ID as 8 bytes, and an index as 4. -/
def HeatSlot.idBytes (h : HeatSlot) : List Byte := beBytes 8 h.id
def be4 (n : Nat) : List Byte := beBytes 4 n

/-- A key of the heat: HKDF with SHA-256, salt HEAT_ID, 32 bytes. -/
def HeatSlot.derive (h : HeatSlot) (ikm info : List Byte) : List Byte := hkdf256 h.idBytes ikm info 32

/-- An X25519 exchange as 32 bytes. -/
def exchange (secret point : List Byte) : List Byte := padTo 32 (Config.x25519 secret point)

/-- The public key of a secret: the exchange with the base point 9. -/
def x25519Public (secret : List Byte) : List Byte := exchange secret (leBytes 32 9)

/-- K_ed of an ENROL's E_pk. -/
def HeatSlot.kEd (h : HeatSlot) (ePk : List Byte) : List Byte :=
  h.derive (exchange h.dSk ePk) (ascii "TGH1 ed" ++ ePk ++ h.dPk)

/-- A public key with an all-zero exchange (R312). -/
def HeatSlot.lowOrder (h : HeatSlot) (pk : List Byte) : Bool := (exchange h.dSk pk).all (· = 0)

/-- Pair mask key from one side's secret and the other's M_pk, and self mask key. -/
def HeatSlot.pairKey (h : HeatSlot) (secret mPk : List Byte) (u v : Nat) : List Byte :=
  h.derive (exchange secret mPk) (ascii "TGH1 pair" ++ be4 (min u v) ++ be4 (max u v))
def HeatSlot.selfKey (h : HeatSlot) (b u : Nat) : List Byte := h.derive (beBytes 32 b) (ascii "TGH1 self" ++ be4 u)

/-- Invitation token of an index, and receipt of a contribution. -/
def HeatSlot.token (h : HeatSlot) (u : Nat) : List Byte :=
  (hmac256 h.kInv (ascii "TGH1 invite" ++ h.idBytes ++ be4 u)).take 16
def HeatSlot.receipt (h : HeatSlot) (u typ frag : Nat) : List Byte :=
  (hmac256 h.krc (h.idBytes ++ be4 u ++ beBytes 1 typ ++ be4 frag)).take 16

/-! ### The graph (06 R314-R316) -/

/-- Sort key of an index under the graph seed. -/
def HeatSlot.sortKey (h : HeatSlot) (u : Nat) : Nat :=
  beNat ((aesBlock h.seed (h.idBytes ++ be4 u ++ be4 0)).take 8)

/-- A pair inserted in the order of sort key, then index; and the order of a list. -/
def insertKey (x : Nat × Nat) : List (Nat × Nat) → List (Nat × Nat)
  | [] => [x]
  | y :: t => if x.1 < y.1 || (x.1 = y.1 && x.2 < y.2) then x :: y :: t else y :: insertKey x t
def slotOrderOf (keys : List (Nat × Nat)) : List Nat := (keys.foldr insertKey []).map Prod.snd

/-- Numbers in ascending order, each once. -/
def ascending (l : List Nat) : List Nat := l.foldr insertNat []

/-- The neighbours of an entrant in ascending order; none while the graph is not known. -/
def HeatSlot.neighbours (h : HeatSlot) (u : Nat) : Option (List Nat) :=
  h.order.map (fun e =>
    let n := e.length
    if n ≤ h.degree then ascending (e.filter (· ≠ u))
    else
      let s := e.findIdx (· = u)
      ascending ((List.range (h.degree / 2)).flatMap (fun j =>
        [e.getD ((s + (j + 1)) % n) 0, e.getD ((s + n - (j + 1)) % n) 0])))

/-- Key of a share ciphertext by recipient and sender. -/
def shareKey (recipient sender : Nat) : Nat := recipient * 2 ^ 32 + sender

/-- Neighbours of an entrant in A: those whose share for it is here. -/
def HeatSlot.sharers (h : HeatSlot) (u : Nat) : List Nat :=
  ((h.neighbours u).getD []).filter (fun v => (Table.find h.shares (shareKey u v)).isSome)

/-- Whether an exchange of every other home has arrived: 0 sort keys, 1 keys, 2 shares, 3 reveals, 16 + phase bits. -/
def HeatSlot.haveAll (h : HeatSlot) (kind : Nat) : Bool :=
  h.homes ≠ [] && h.homes.all (fun e => e.1 = h.self || h.got.contains (kind, e.1))

/-! ### Messages between the packages of a heat (07, The phases in detail; 18 R892) -/

/-- A message to the slot that acts for a package: by a system packet, or within this package. -/
def heatSend (h : HeatSlot) (home : Nat) (m : HeatMsg) (s : State) : State :=
  if actingFor s h.id home = pkgNumber s then
    match s.heat.slots.find? (fun e => e.2.id = h.id && e.2.self = home && e.2.role ≠ 2) with
    | some (k, _) => { s with heat := { s.heat with inbox := s.heat.inbox ++ [(k, m)] } }
    | none => s
  else sysSend false (actingFor s h.id home) (.heat h.id home m) s

/-- A message to every other home; before the homes are known, to every other pod member. -/
def heatTell (h : HeatSlot) (m : HeatMsg) (s : State) : State :=
  let others := (if h.homes = [] then bitList 64 (rget s .chdPodMembers) else h.homes.map (fun e => e.1)).filter (· ≠ h.self)
  others.foldl (fun s p => heatSend h p m s) s

/-- Lattice engines that a heat held for its CLOSE are free again (09 R489). -/
def freeEngines (id : Nat) (s : State) : State :=
  (List.range 8).foldl (fun s e =>
    if (latOf s e).heat = some id then latGo e (setLat e { latOf s e with heat := none } s) else s) s

/-- A heat enters FAILED here (R9): its pending phase-end work is dropped, and HEAT_ADVANCE commands that waited for a verdict end
with BAD_STATE. -/
def failSlot (k : Nat) (s : State) : State :=
  let h := slotOf s k
  if h.phase = 8 || h.phase = 10 then s
  else
    let s := freeEngines h.id (heatPhase k 10 s)
    let s := finishAll (h.advance.map Prod.fst) stBadState 0 0 s
    changeSlot k (fun h => { h with endings := [], jobs := [], late := false, advance := [], taintLines := [], hMin := none }) s

/-- A heat made FAILED by its lead on every home it can reach; a home only reports it to its lead (R355, R359, R393). -/
def failHeat (k : Nat) (s : State) : State :=
  let h := slotOf s k
  if h.phase = 8 || h.phase = 10 then s
  else
    let s := failSlot k s
    if h.leads then heatTell h .failed s else if h.role = 2 then s else heatSend h h.lead .failed s

end Sys2Proof.Machine
end

