-- ==== Sys2Proof/Machine/HeatApply.lean ====
section
/-! DEFINITION. Accepted contributions applied to a slot, vectors and their commits, and the mirror stream to the twin (chapter
07 of spec/, R347-R353, R376-R381; 18 R880, R881). -/
namespace Sys2Proof.Machine

/-! ### Vectors (R347, R353; 06 R327, R338; 09 R487) -/

/-- Bytes in staging: fragments, and vectors that are not committed. -/
def HeatSlot.stagedBytes (h : HeatSlot) : Nat :=
  ((h.staged.map (fun e => (e.2.map (fun f => f.2.length)).sum)).sum) + (h.vectors.map (fun v => v.bytes.length)).sum

/-- Whether staging has room for a fragment (06 R332, check 11). -/
def HeatSlot.stagingRoom (h : HeatSlot) (n : Nat) : Bool := h.stagedBytes + n ≤ h.staging.granules.length * h.staging.share

/-- The vector of an entrant from its staged fragments, little-endian and filled to whole lines; the blocks of a tally as words. -/
def HeatSlot.joined (h : HeatSlot) (u : Nat) : List Byte :=
  let raw := (Table.getD h.staged u []).flatMap (fun f => f.2)
  let w := if h.tallied then 8 else h.width / 8
  let le := swapElements w (raw.length / w) raw
  if h.tallied then le else padTo h.v le

/-- Words of one block added to the tally's accumulator modulo the limb's modulus (09 R487). -/
def tallyWords (h : HeatSlot) (old new : List Nat) : List Nat :=
  let n := 2 ^ h.logN
  (List.range (2 * h.limbs * n)).map (fun i =>
    let q := h.moduli.getD (i / n % h.limbs) 1
    (old.getD i 0 + new.getD i 0) % q)

/-- Every block of a vector added to the tally's accumulator. -/
def tallyAdd (h : HeatSlot) (bs : List Byte) : Table (List Nat) :=
  (List.range h.pieces).foldl (fun t c =>
    let n := h.pieceBytes c / 8
    Table.put t c (tallyWords h (Table.getD t c []) (words64 n (bs.drop (8 * n * c))))) h.tally

/-- A vector's line adds issued, all at once (06 R327). -/
def addVector (faults : List LineFault) (k : Nat) (v : HeatVector) (s : State) : State :=
  let h := slotOf s k
  if h.tallied then setSlot k { h with tally := tallyAdd h v.bytes } s
  else addSpread faults k (some v.hsn) h.acc (h.width / 8) false (v.bytes.length / 64 + 1) 0 v.bytes s

/-- The bitmap of an entrant whose vector is complete, and the counts. -/
def markSurvivor (k u : Nat) (s : State) : State :=
  let s := putBit k u 2 false (putBit k u 3 true s)
  let s := if (slotOf s k).tallied then putBit k u 6 true s else s
  changeSlot k (fun h => { h with survivors := h.survivors + 1 }) s

/-- Stage 7: a complete vector gets the next HSN and is added; its staging is kept until its commit (R347, R383). -/
def issueVector (faults : List LineFault) (k u : Nat) (s : State) : State :=
  let h := slotOf s k
  let v : HeatVector := { hsn := h.nextHsn, index := u, bytes := h.joined u }
  let s := setSlot k { h with nextHsn := h.nextHsn + 1, vectors := h.vectors ++ [v], staged := Table.drop h.staged u } s
  addVector faults k v (markSurvivor k u s)

/-! ### Contributions (06, Messages) -/

/-- Entries of `n` bytes of a list with a count, from an offset. -/
def listEntries (n : Nat) : Nat → List Byte → List (List Byte)
  | 0, _ => []
  | m + 1, bs => bs.take n :: listEntries n m (bs.drop n)

/-- Entries of a SHARE request: recipient and ciphertext. -/
def shareEntries (plain : List Byte) : List (Nat × List Byte) :=
  (listEntries 84 (fieldBE plain 0 2) (plain.drop 4)).map (fun e => (fieldBE e 0 4, sliceBytes e 4 80))

/-- Entries of a REVEAL request: owner, kind, share. -/
def revealEntries (plain : List Byte) : List (Nat × Nat × Nat) :=
  (listEntries 40 (fieldBE plain 32 2) (plain.drop 36)).map (fun e => (fieldBE e 0 4, fieldBE e 4 1, fieldBE e 8 32))

/-- An accepted contribution in stage 6, on the stroke side or in a shadow (R351, R378): what is kept of it and its bitmap bit.
`data` is the record of an ENROL, and else the plaintext. -/
def applyContribution (k u typ frag : Nat) (data : List Byte) (s : State) : State :=
  let h := slotOf s k
  if typ = 1 then
    let s := putBit k u 0 true (slotWrite k (h.recordAddr u) (padTo 128 data) s)
    changeSlot k (fun h => { h with enrolled := h.enrolled + 1 }) s
  else if typ = 3 then
    let shares := (shareEntries data).foldl (fun t e => Table.put t (shareKey e.1 u) e.2) h.shares
    putBit k u 1 true (setSlot k { h with shares := shares } s)
  else if typ = 5 || typ = 8 then
    let staged := Table.put h.staged u (Table.put (Table.getD h.staged u []) frag data)
    putBit k u 2 true (setSlot k { h with staged := staged } s)
  else if typ = 6 then putBit k u 4 true s
  else
    let reveals := (revealEntries data).map (fun e => ({ owner := e.1, kind := e.2.1, revealer := u, share := e.2.2 } : Reveal))
    putBit k u 5 true (setSlot k { h with reveals := h.reveals ++ reveals } s)

/-! ### The mirror stream (R377, R378) -/

/-- Whether the slot sends a mirror stream: SHADOW mode with a shadow on the twin. -/
def HeatSlot.streams (h : HeatSlot) : Bool := h.mirrored && h.mirror = 1 && !h.shadow

/-- The next item of the stream: its MSN, or 0 outside SHADOW mode. A slot that the twin does not shadow any more goes on numbering
contributions (18 R894, and its worked example). -/
def mirrorItem (k : Nat) (item : Nat → Nat → SysMsg) (s : State) : Nat × State :=
  let h := slotOf s k
  if h.mirror ≠ 1 || h.shadow then (0, s)
  else
    let n := h.msnSent + 1
    let s := setSlot k { h with msnSent := n } s
    (n, if h.streams then sysSend true s.pair.twin (item h.id n) s else s)

/-- A contribution accepted on the stroke side: applied, mirrored, and its vector added when it is complete. The MSN is that of
its reply (18 R894). -/
def acceptContribution (faults : List LineFault) (k u typ frag : Nat) (data : List Byte) (s : State) : Nat × State :=
  let s := applyContribution k u typ frag data s
  let (msn, s) := mirrorItem k (fun id n => .contribution id n u typ frag data) s
  let h := slotOf s k
  if (typ = 5 || typ = 8) && (Table.getD h.staged u []).length = h.pieces then (msn, issueVector faults k u s) else (msn, s)

/-- VECTOR_COMMIT (R347, R377, R383): every line add of the oldest vector that is kept has completed, so its staging is free and in
SHADOW mode its commit is sent. While the slot is TAINTED, vectors from h_min on stay. -/
def vectorCommit (k : Nat) (s : State) : State :=
  let h := slotOf s k
  match h.vectors with
  | [] => s
  | v :: rest =>
    if h.role = 2 || h.stopped || (h.hMin.map (fun m => decide (m ≤ v.hsn))).getD false then s
    else
      let s := setSlot k { h with vectors := rest, committed := v.hsn } s
      if !h.streams then s
      else
        let (msn, s) := mirrorItem k (fun id n => .commit id n v.hsn v.index) s
        changeSlot k (fun h => { h with commitMsn := msn }) s

/-- The shadow slot of a heat. -/
def shadowOf (s : State) (id : Nat) : Option Nat := (s.heat.slots.find? (fun e => e.2.id = id && e.2.role = 2)).map Prod.fst

/-- A mirror item applied by the twin, and acknowledged (R378). -/
def shadowItem (id msn : Nat) (act : Nat → State → State) (s : State) : State :=
  match shadowOf s id with
  | none => s
  | some k => sysSend true s.pair.twin (.mirrorAck id msn) (changeSlot k (fun h => { h with msnApplied := msn }) (act k s))

/-- A contribution applied by the twin: a vector that it completes waits for its commit. -/
def shadowContribution (u typ frag : Nat) (data : List Byte) (k : Nat) (s : State) : State :=
  let s := applyContribution k u typ frag data s
  let h := slotOf s k
  if (typ = 5 || typ = 8) && (Table.getD h.staged u []).length = h.pieces then setSlot k { h with complete := h.complete ++ [u] } s
  else s

/-- A commit applied by the twin: the vector is added from its staged copy. -/
def shadowCommit (faults : List LineFault) (hsn u k : Nat) (s : State) : State :=
  let h := slotOf s k
  let v : HeatVector := { hsn := hsn, index := u, bytes := h.joined u }
  let s := setSlot k { h with nextHsn := hsn + 1, committed := hsn, staged := Table.drop h.staged u,
                              complete := h.complete.filter (· ≠ u) } s
  addVector faults k v (markSurvivor k u s)

/-! ### Whole slots and checkpoints (R380; 18 R880, R881) -/

/-- Bytes of a region that fills its granules in order. -/
def peekLinear (s : State) (ext : Extent) (n : Nat) : List Byte :=
  (List.range (ceilDiv n 64)).flatMap (fun i => peek s (spreadAddr ext (64 * i)) 64)

/-- The memory of a slot that goes to a twin. -/
def slotImage (s : State) (h : HeatSlot) : SlotImage :=
  { acc := peekSpread s h.acc (h.v / 64) 0, mask := peekSpread s h.mask (h.v / 64) 0,
    bitmap := peek s h.bitmap h.count, records := peekLinear s h.records (128 * h.count) }

/-- Whole lines written to a region at the addresses that a layout gives; poison is cleared (05 R266). -/
def pokeRegion (addr : Nat → Nat) : Nat → Nat → List Byte → State → State
  | 0, _, _, s => s
  | n + 1, off, bs, s => pokeRegion addr n (off + 64) (bs.drop 64) (poke (unpoison s (addr off)) (addr off) (padTo 64 bs))

/-- A slot's memory written from an image. -/
def writeImage (k : Nat) (im : SlotImage) (s : State) : State :=
  let h := slotOf s k
  let s := pokeRegion (spreadAddr h.acc) (h.v / 64) 0 im.acc s
  let s := pokeRegion (spreadAddr h.mask) (h.v / 64) 0 im.mask s
  let s := pokeRegion (fun off => h.bitmap + off) (ceilDiv h.count 64) 0 im.bitmap s
  pokeRegion (spreadAddr h.records) (ceilDiv (128 * h.count) 64) 0 im.records s

/-- What of a slot's state passes to its shadow apart from memory and the mirror stream: the shares and reveals of entrants of the
range are contributions, which the stream carries. -/
def HeatSlot.shared (h : HeatSlot) : HeatSlot :=
  { params := h.params, sector := h.sector, self := h.self, strokeRole := if h.role = 2 then h.strokeRole else h.role,
    phase := if h.phase = 9 then h.prior else h.phase, dSk := h.dSk, dPk := h.dPk, krc := h.krc, moduli := h.moduli,
    keysetHash := h.keysetHash, seed := h.seed, sortKeys := h.sortKeys, order := h.order, keys := h.keys, bits := h.bits,
    shares := h.shares.filter (fun e => !h.covers (e.1 % 2 ^ 32)), reveals := h.reveals.filter (fun r => !h.covers r.revealer),
    got := h.got, homes := h.homes, reports := h.reports, endings := h.endings, closing := h.closing, received := h.received,
    total := h.total, reducing := h.reducing, result := if h.opening.isSome then [] else h.result }

/-- A shadow after the state its stroke side passes. -/
def HeatSlot.adopt (own theirs : HeatSlot) : HeatSlot :=
  { theirs with
    role := 2, records := own.records, acc := own.acc, mask := own.mask, noise := own.noise, recon := own.recon,
    staging := own.staging, bitmap := own.bitmap, staged := own.staged, nextHsn := own.nextHsn, vectors := own.vectors,
    committed := own.committed, tally := own.tally, survivors := own.survivors, enrolled := own.enrolled,
    shares := (own.shares.filter (fun e => own.covers (e.1 % 2 ^ 32))).foldl (fun t e => Table.put t e.1 e.2) theirs.shares,
    reveals := theirs.reveals ++ own.reveals.filter (fun r => own.covers r.revealer),
    checkpoint := own.checkpoint, msnApplied := own.msnApplied, complete := own.complete }

/-- A slot as it is copied whole: with what the mirror stream carries (18 R880, R897). -/
def HeatSlot.whole (h : HeatSlot) : HeatSlot :=
  { h.shared with
    nextHsn := h.nextHsn, committed := h.committed, staged := h.staged, shares := h.shares, reveals := h.reveals, tally := h.tally,
    msnSent := h.msnSent, checkpoint := h.checkpoint }

/-- Changes of slots that their shadows must see are sent after a row (18 R881). -/
def mirrorChanges (s s' : State) : State :=
  s'.heat.slots.foldl (fun t e =>
    let h := e.2
    if h.mirrored && h.role ≠ 2 && (Table.find s.heat.slots e.1).map HeatSlot.shared ≠ some h.shared then
      sysSend true t.pair.twin (.slotState h.shared) t
    else t) s'

end Sys2Proof.Machine
end

