-- ==== Sys2Proof/Machine/HeatNoise.lean ====
section
/-! DEFINITION. The noise sampler: the tail bound, the table of the discrete Gaussian and one sample (chapter 07 of spec/, R366,
R367), and the Shamir field (06 R317-R319). -/
namespace Sys2Proof.Machine

/-- Fraction bits of the fixed-point arithmetic with which the table is computed (log entry 52). -/
abbrev noiseBits : Nat := 640

/-- The series of exp(-r) for a small fixed-point r: `term` is the term of index `i`; alternate terms are subtracted. -/
def expSeries (r : Nat) : Nat → Nat → Nat → Nat → Nat
  | 0, _, _, plus => plus
  | n + 1, i, term, plus =>
    let next := term * r / 2 ^ noiseBits / (i + 1)
    if i % 2 = 0 then expSeries r n (i + 1) next (plus + term) else expSeries r n (i + 1) next (plus - term)

/-- A fixed-point number squared `n` times. -/
def squareTimes : Nat → Nat → Nat
  | 0, v => v
  | n + 1, v => squareTimes n (v * v / 2 ^ noiseBits)

/-- exp(-a / b) in fixed point: the argument is halved 16 times, and the result squared as often. Zero from exp(-400) on. -/
def expNeg (a b : Nat) : Nat :=
  if b = 0 then (if a = 0 then 2 ^ noiseBits else 0)
  else if 400 * b ≤ a then 0
  else squareTimes 16 (expSeries (a * 2 ^ noiseBits / (b * 65536)) 120 0 (2 ^ noiseBits) 0)

/-- rho(x) = exp(-x^2 / (2 sigma^2)) with sigma = S / 256. -/
def rho (sigma x : Nat) : Nat := expNeg (x * x * 32768) (sigma * sigma)

/-- The tail bound B (R366). -/
def tailBound (sigma : Nat) : Nat := max 14 (ceilDiv (14 * sigma) 256)

/-- Sums of rho over |x| ≤ m, for m from 0 to B. -/
def rhoSums (sigma : Nat) : Nat → Nat → Nat → List Nat
  | 0, _, _ => []
  | n + 1, m, acc =>
    let acc := acc + (if m = 0 then rho sigma 0 else 2 * rho sigma m)
    acc :: rhoSums sigma n (m + 1) acc

/-- The table T (R366). -/
def noiseTable (sigma : Nat) : List Nat :=
  let sums := rhoSums sigma (tailBound sigma + 1) 0 0
  let all := sums.getLast?.getD 1
  sums.map (fun x => 2 ^ 127 * x / all)

/-- One sample from 16 bytes (R367). -/
def noiseSample (table : List Nat) (bs : List Byte) : Int :=
  let v := beNat (padTo 16 bs)
  let m := table.findIdx (fun t => decide (v % 2 ^ 127 < t))
  if v.testBit 127 then -(m : Int) else m

/-- Samples of consecutive groups of 16 bytes, as elements of `w` bytes modulo their width, little-endian. -/
def noiseElements (table : List Nat) (w : Nat) : Nat → List Byte → List Byte
  | 0, _ => []
  | n + 1, bs => leBytes w (ofSigned (8 * w) (noiseSample table (bs.take 16))) ++ noiseElements table w n (bs.drop 16)

/-! ### Shamir (06 R317, R319) -/

/-- The field's prime. -/
abbrev shamirP : Nat := 2 ^ 255 - 19

/-- Power and inverse in the field; `fuel` bounds the bits of the exponent. -/
def fieldPow : Nat → Nat → Nat → Nat
  | 0, _, _ => 1
  | fuel + 1, b, e =>
    if e = 0 then 1
    else
      let half := fieldPow fuel (b * b % shamirP) (e / 2)
      if e % 2 = 1 then half * b % shamirP else half
def fieldInv (x : Nat) : Nat := fieldPow 256 (x % shamirP) (shamirP - 2)

/-- Lagrange interpolation at 0 of points (x, y). -/
def interpolate (points : List (Nat × Nat)) : Nat :=
  points.foldl (fun acc a =>
    let num := points.foldl (fun n b => if b.1 = a.1 then n else n * b.1 % shamirP) 1
    let den := points.foldl (fun n b => if b.1 = a.1 then n else n * ((b.1 + shamirP - a.1 % shamirP) % shamirP) % shamirP) 1
    (acc + a.2 % shamirP * num % shamirP * fieldInv den) % shamirP) 0

end Sys2Proof.Machine
end

