-- ==== Sys2Proof/Machine/HeatClose.lean ====
section
/-! DEFINITION. The end of a heat: reconstruction, mask expansion, reduction trees, noise, the tally's last steps, and the sealed
result (chapter 07 of spec/, R356-R375; 06 R319-R323, R340; 09 R488, R489; 14 R742, R743). -/
namespace Sys2Proof.Machine

/-! ### Reconstruction (R356, R361; 06 R319) -/

/-- A secret of an entrant from the eligible revealers of lowest index: none when it is not below 2^254. -/
def secretOf (s : State) (h : HeatSlot) (u kind : Nat) : Option Nat :=
  let nb := ((h.neighbours u).getD []).filter (fun v => (bitsAnywhere s h v).testBit 5)
  let points := nb.filterMap (fun v =>
    (h.reveals.find? (fun r => r.owner = u && r.kind = kind && r.revealer = v)).map (fun r => (v + 1, r.share)))
  if points.length < h.threshold then none
  else
    let x := interpolate (points.take h.threshold)
    if x < 2 ^ 254 then some x else none

/-- Members of S and of D in the range (06, Sets of a heat). -/
def survivorsOf (s : State) (h : HeatSlot) : List Nat := rangeWith s h 3
def droppedOf (s : State) (h : HeatSlot) : List Nat := (rangeWith s h 1).filter (fun u => !(ownBits s h u).testBit 3)

/-- Mask jobs of the range: Q_u of every survivor, and sgn(u, v) P_uv of every dropped v and its surviving neighbours u (R357). -/
def maskJobs (s : State) (h : HeatSlot) (secrets : Table Nat) : List MaskJob :=
  (survivorsOf s h).map (fun u => { key := h.selfKey (Table.getD secrets (2 * u) 0) u, domain := 2, negative := false })
  ++ (droppedOf s h).flatMap (fun v =>
    (((h.neighbours v).getD []).filter (fun u => (bitsAnywhere s h u).testBit 3)).map (fun u =>
      { key := h.pairKey (leBytes 32 (Table.getD secrets (2 * v + 1) 0)) ((keysAnywhere s h u).drop 32) u v, domain := 1,
        negative := decide (v < u) }))

/-- Every secret of the range that R356 allows; none when one of them fails (06 R319). -/
def allSecrets (s : State) (h : HeatSlot) : Option (Table Nat) :=
  let b := (survivorsOf s h).map (fun u => (2 * u, secretOf s h u 1))
  let m := (droppedOf s h).map (fun v => (2 * v + 1, secretOf s h v 2))
  (b ++ m).foldl (fun t e => t.bind (fun t => e.2.map (fun x => Table.put t e.1 x))) (some [])

/-- Reconstruction: the jobs of mask expansion follow, or the heat enters FAILED. -/
def reconstruct (k : Nat) (s : State) : State :=
  let h := slotOf s k
  match allSecrets s h with
  | none => failHeat k s
  | some t =>
    let jobs := maskJobs s h t
    setSlot k { h with secrets := t, rebuilt := true, jobs := jobs, maskDone := decide (jobs = []) } s

/-! ### Mask expansion (06 R320, R321; R362-R364) -/

/-- Bytes of a 64 KiB chunk of the vector, without the fill of the last line. -/
def HeatSlot.chunkBytes (h : HeatSlot) (c : Nat) : Nat := min 65536 (h.bytes - c * 65536)

/-- Chunks of a partial: of the vector, or of the tally's blocks as 8-byte words. -/
def HeatSlot.chunks (h : HeatSlot) : Nat :=
  ceilDiv (if h.tallied then h.pieces * h.pieceBytes 0 else h.v) 65536

/-- Keystream of a job from a block, as little-endian elements of `w` bytes. -/
def keystream (h : HeatSlot) (j : MaskJob) (w first n : Nat) : List Byte :=
  let raw := (List.range n).flatMap (fun i => aesBlock j.key (h.idBytes ++ be4 j.domain ++ be4 (first + i)))
  swapElements w (16 * n / w) raw

/-- The combining buffer's sum of up to 64 keystreams over one chunk (R362). -/
def chunkSum (h : HeatSlot) (jobs : List MaskJob) (c : Nat) : List Byte :=
  let w := h.width / 8
  let n := ceilDiv (h.chunkBytes c) 16
  let sum := jobs.foldl (fun acc j => addElements w j.negative (16 * n / w) acc (keystream h j w (c * 4096) n)) (padTo (16 * n) [])
  padTo (ceilDiv (h.chunkBytes c) 64 * 64) (sum.take (h.chunkBytes c))

/-- Acting on a persistent fault of a mask expander: it leaves service (17 R855, R863; 01, AVAIL_MISC). -/
def actExpander : ActFn := fun r _ s =>
  (10, { s with top := { s.top with misc := setBits s.top.misc (38 + r.index) 1 0, gen := (s.top.gen + 1) % 2 ^ 32 } })

/-- Whether a mask expander may run a chunk: available and not under test (17 R855). -/
def expanderFree (s : State) (n : Nat) : Bool :=
  n < 16 && s.top.misc.testBit (38 + n) && !s.err.running.any (fun t => t.res.kind = 12 && t.res.index = n)

/-- One chunk of the batch at the head of a slot's jobs: a disagreement of the expander's rounds leaves the chunk to another one
(17 R855); otherwise its line adds are issued. -/
def maskChunkEnd (k n : Nat) (fault : Bool) (faults : List LineFault) (s : State) : State :=
  let h := slotOf s k
  if h.jobs = [] || !h.works || !expanderFree s n || (Table.getD s.rings.held h.sector 0).testBit 2 then s
  else
    let (fired, forced, s) := firePoint 0x0501 n s
    if fault || fired then
      detect actExpander { source := 0x0501, severity := 2, res := { kind := 12, index := n }, sector := h.sector,
                           injected := fired, forced := forced } s
    else
      let bs := chunkSum h (h.jobs.take 64) h.chunk
      let s := addSpread faults k none h.mask (h.width / 8) false (bs.length / 64 + 1) (h.chunk * 65536) bs s
      changeSlot k (fun h =>
        if h.chunk + 1 < ceilDiv h.bytes 65536 then { h with chunk := h.chunk + 1 }
        else { h with chunk := 0, jobs := h.jobs.drop 64, maskDone := decide (h.jobs.length ≤ 64) }) s

/-! ### Reduction trees (R372-R375, R379; 11 R596, R597) -/

/-- Place of a package in the tree, its parent, and its children. -/
def HeatSlot.place (h : HeatSlot) (p : Nat) : Nat := h.homes.findIdx (fun e => e.1 = p)
def HeatSlot.parentOf (h : HeatSlot) (p : Nat) : Nat := (h.homes.map (fun e => e.1)).getD ((h.place p - 1) / 4) 0
def HeatSlot.children (h : HeatSlot) : List Nat :=
  let i := h.place h.self
  ((List.range 4).filterMap (fun j => (h.homes.map (fun e => e.1))[4 * i + 1 + j]?))

/-- Whether every chunk of every child has arrived in a tree (R373). -/
def HeatSlot.gathered (h : HeatSlot) (tree : Nat) : Bool :=
  h.homes ≠ [] && h.children.all (fun c => (Table.getD h.received (2 * c + tree) []).length = h.chunks)

/-- The partial of a tree: the accumulator, the mask accumulator, or the tally's words. -/
def partialBytes (s : State) (h : HeatSlot) (tree : Nat) : List Byte :=
  if h.tallied then h.tally.flatMap (fun e => wordBytes e.2)
  else peekSpread s (if tree = 0 then h.acc else h.mask) (h.v / 64) 0

/-- STREAM of a tree chunk (R596; log entry 53). -/
def treeStream (h : HeatSlot) (tree : Nat) : Nat := h.self % 64 + tree * 64 + h.id % 2 ^ 25 * 128

/-- A chunk from a child added into the parent's partial, unless it came before (R374); in SHADOW mode it goes to the twin too
(R379). -/
def treeChunk (faults : List LineFault) (k tree child chunk : Nat) (bs : List Byte) (s : State) : State :=
  let h := slotOf s k
  let got := Table.getD h.received (2 * child + tree) []
  if got.contains chunk || h.chunks ≤ chunk then s
  else
    let s := setSlot k { h with received := Table.put h.received (2 * child + tree) (insertNat chunk got) } s
    let s := if h.tallied then
        let words := words64 (bs.length / 8) bs
        let size := h.pieceBytes 0 / 8
        changeSlot k (fun h => { h with tally := (List.range words.length).foldl (fun t i =>
          let at_ := chunk * 8192 + i
          let c := at_ / size
          let q := h.moduli.getD (at_ % size / 2 ^ h.logN % h.limbs) 1
          let old := Table.getD t c (List.replicate size 0)
          Table.put t c (old.set (at_ % size) ((old.getD (at_ % size) 0 + words.getD i 0) % q))) h.tally }) s
      else addSpread faults k none (if tree = 0 then h.acc else h.mask) (h.width / 8) false (bs.length / 64 + 1) (chunk * 65536) bs s
    if h.streams then sysSend true s.pair.twin (.treeCopy h.id tree child chunk bs) s else s

/-- Whether a region holds a poisoned line; the line. -/
def badLine (s : State) (ext : Extent) (n : Nat) : Option Nat :=
  ((List.range n).map (fun i => spreadAddr ext (64 * i) / 64)).find? (s.mem.poison.contains ·)

/-- A partial sent upward chunk by chunk: as ACCUM packets, or within this package (R373, R596). -/
def sendPartial (k tree : Nat) (s : State) : State :=
  let h := slotOf s k
  match if h.tallied then none else badLine s (if tree = 0 then h.acc else h.mask) (h.v / 64) with
  | some l => taintSlot k l none s
  | none =>
    let bs := partialBytes s h tree
    let up := h.parentOf h.self
    let dest := actingFor s h.id up
    let s := setSlot k { h with sentUp := h.sentUp ||| 2 ^ tree } s
    (List.range h.chunks).foldl (fun s c =>
      let part := (bs.drop (c * 65536)).take 65536
      if dest = pkgNumber s then
        match s.heat.slots.find? (fun e => e.2.id = h.id && e.2.self = up && e.2.role ≠ 2) with
        | some (j, _) => treeChunk [] j tree h.self c part s
        | none => s
      else
        let p : Packet :=
          { typ := 4, flags := 2 * bitNat (c + 1 = h.chunks), srcPkg := pkgNumber s, srcSector := 15,
            etype := if h.tallied then 2 else h.width / 32, dest := dest * 2 ^ 46, stream := treeStream h tree, chunk := c,
            decoded := part.length, payload := part }
        match sendPacket p s with
        | some (l, s) => setChord { s.chord with tree := s.chord.tree ++ [(l, p)] } s
        | none => setChord { s.chord with tree := s.chord.tree ++ [(12, p)] } s) s

/-- Tree chunks that found no link, or were refused, are sent again. -/
def retryTree (s : State) : State :=
  s.chord.tree.foldl (fun s e =>
    if e.1 ≠ 12 then s
    else
      match sendPacket e.2 s with
      | some (c, s) => setChord { s.chord with tree := s.chord.tree.map (fun x => if x = e then (c, x.2) else x) } s
      | none => s) s

/-- Whether a mirrored node may send its masked partial (R380, R381): the twin holds everything sent before SUBMIT_END and every
commit, or the last checkpoint. -/
def HeatSlot.mayReduce (h : HeatSlot) : Bool :=
  if !h.mirrored then true
  else if h.mirror = 1 then h.vectors = [] && !h.copying && max h.submitMsn h.commitMsn ≤ h.msnAcked
  else h.lastCheckpoint && h.checkpointAcked

/-- A checkpoint copied to the twin (R380). -/
def sendCheckpoint (k : Nat) (s : State) : State :=
  let h := slotOf s k
  let s := setSlot k { h with checkpoint := s.cad.stroke, checkpointAcked := false } s
  sysSend true s.pair.twin (.checkpoint h.id s.cad.stroke (slotImage s h)) s

/-- What a node can send upward now (R373). -/
def climb (k : Nat) (s : State) : State :=
  let h := slotOf s k
  let s := if h.mirrored && h.mirror = 2 && h.reducing && !h.lastCheckpoint && h.gathered 0 then
      sendCheckpoint k (changeSlot k (fun h => { h with lastCheckpoint := true }) s)
    else s
  let h := slotOf s k
  let s := if !h.leads && h.reducing && !h.sentUp.testBit 0 && h.gathered 0 && h.mayReduce then sendPartial k 0 s else s
  let h := slotOf s k
  if !h.leads && !h.tallied && h.phase = 7 && h.maskDone && !h.sentUp.testBit 1 && h.gathered 1 then sendPartial k 1 s else s

/-! ### The root (R365, R370, R391, R396) -/

/-- A region subtracted from the accumulator, or the noise buffer added to it, in ascending line order. -/
def combine (k : Nat) (sub : Bool) (bs : List Byte) (s : State) : State :=
  let h := slotOf s k
  addSpread [] k none h.acc (h.width / 8) sub (bs.length / 64 + 1) 0 bs s

/-- The mask total subtracted, once both totals have arrived in full (R365). -/
def subtractMasks (k : Nat) (s : State) : State :=
  let h := slotOf s k
  match badLine s h.mask (h.v / 64), badLine s h.acc (h.v / 64) with
  | none, none =>
    combine k true (peekSpread s h.mask (h.v / 64) 0) (setSlot k { h with subtracted := true } s)
  | a, b => taintSlot k ((a.orElse (fun _ => b)).getD 0) none s

/-- Address of a byte of the noise buffer, and of the noise table behind it (log entry 36). -/
def HeatSlot.noiseAddr (h : HeatSlot) (off : Nat) : Nat := spreadAddr h.noise off
def HeatSlot.tableAddr (h : HeatSlot) (m : Nat) : Nat := spreadAddr h.noise (h.v + 16 * m)

/-- The table as it stands in memory (R366). -/
def readTable (s : State) (h : HeatSlot) : List Nat :=
  (List.range (tailBound h.sigma + 1)).map (fun m => leNat (peek s (h.tableAddr m) 16))

/-- NOISE_DRAW_COMPLETE (R370, R371): every sample drawn into the noise buffer, in requests of 65,536 bytes; where instance 1 waits
for a seed the draw waits at its sample. -/
def noiseDraw (k : Nat) (s : State) : State :=
  let h := slotOf s k
  if !h.leads || !h.works || h.phase ≠ 7 || h.noiseDone || h.sigma = 0 then s
  else draw (16 * h.elements / 65536 + 2) s
where
  /-- Requests until every byte is drawn; `fuel` bounds them. -/
  draw : Nat → State → State
    | 0, s => s
    | fuel + 1, s =>
      let h := slotOf s k
      let left := 16 * h.elements - h.drawn.length
      if left = 0 then
        let bs := padTo h.v (noiseElements (readTable s h) (h.width / 8) h.elements h.drawn)
        pokeRegion h.noiseAddr (h.v / 64) 0 bs (setSlot k { h with noiseDone := true, noiseWaiting := false, drawn := [] } s)
      else
        match internalRequest 1 (min left 65536) s with
        | (some bs, s) => draw fuel (changeSlot k (fun h => { h with drawn := h.drawn ++ bs, noiseWaiting := false }) s)
        | (none, s) =>
          let s := if h.noiseWaiting then s else bump s .heatNoiseWaits
          changeSlot k (fun h => { h with noiseWaiting := true }) s

/-- The noise buffer, little-endian elements. -/
def noiseBuffer (s : State) (h : HeatSlot) : List Byte := (List.range (h.v / 64)).flatMap (fun i => peek s (h.noiseAddr (64 * i)) 64)

/-! ### The tally (06 R340; 09 R486-R489) -/

/-- The key-switch key object of a heat (09, Lattice tally mode): its address, K, DNUM, the roots, and the words of the key. -/
def keyObjectAddr (h : HeatSlot) : Nat := h.keyset + ceilDiv (8 + 8 * h.limbs + 16 * h.limbs * 2 ^ h.logN) 4096 * 4096
def specialCount (s : State) (h : HeatSlot) : Nat := leNat (peek s (keyObjectAddr h) 1)
def digitCount (s : State) (h : HeatSlot) : Nat := leNat (peek s (keyObjectAddr h + 1) 1)

/-- S_T of R486. -/
def tallyStore (h : HeatSlot) (k : Nat) : Nat := 8 * 2 ^ h.logN * (3 * h.limbs + 5 * h.outLimbs + 4 * k + 1) + 4096

/-- Signed samples as e of a block: coefficients without an element are 0 (06 R336, R370). -/
def blockNoise (h : HeatSlot) (noise : List Byte) (c : Nat) : List Int :=
  let w := h.width / 8
  (List.range (2 ^ h.logN)).map (fun j =>
    let i := c * 2 ^ h.logN + j
    if i < h.elements then toSigned h.width (leNat ((noise.drop (i * w)).take w)) else 0)

/-- One block through noise, modulus switch and key switch: the words of c0' and c1' (09 R488). -/
def tallyBlock (s : State) (h : HeatSlot) (noise : List Byte) (c : Nat) : List (List Nat) :=
  let n := 2 ^ h.logN
  let k := specialCount s h
  let base := keyObjectAddr h + 8
  let word := fun i => leNat (peek s (base + 8 * i) 8)
  let qs := h.moduli
  let ms := (List.range h.limbs).map (fun i => (qs.getD i 1, word i))
  let aux := (List.range k).map (fun i => (word (h.limbs + i), word (h.limbs + k + i)))
  let delta := product qs / 2 ^ h.width
  let e := if h.sigma = 0 then List.replicate n (0 : Int) else blockNoise h noise c
  let words := Table.getD h.tally c (List.replicate (2 * h.limbs * n) 0)
  let limb := fun (b i : Nat) => slice words ((b * h.limbs + i) * n) n
  let c0 := (List.range h.limbs).map (fun i =>
    List.zipWith (fun (x : Nat) (y : Int) => (((x : Int) + delta * y) % ((qs.getD i 1 : Nat) : Int)).toNat) (limb 0 i) e)
  let c1 := (List.range h.limbs).map (limb 1)
  let toNtt := fun (a : List (List Nat)) => (List.zip ms a).map (fun x => ntt x.1.1 x.1.2 h.logN x.2)
  let drop := h.limbs - h.outLimbs
  let r0 := rescale h.logN drop ms (toNtt c0)
  let r1 := rescale h.logN drop ms (toNtt c1)
  let low := ms.take h.outLimbs
  let keyBase := keyObjectAddr h + ceilDiv (8 + 8 * (h.limbs + 2 * k)) 4096 * 4096
  let key := fun (b t m : Nat) =>
    words64 n (peek s (keyBase + 8 * n * ((2 * t + b) * (h.outLimbs + k) + m)) (8 * n))
  let (o0, o1) := keyswitch h.logN h.outLimbs (digitCount s h) (low ++ aux) r0 r1 key
  let back := fun (a : List (List Nat)) => (List.zip low a).map (fun x => intt x.1.1 x.1.2 h.logN x.2)
  back o0 ++ back o1

/-- The engine that a tally's CLOSE uses, once it is free of parked contexts in the lowest S_T bytes (09 R488, R489). -/
def tallyEngine (s : State) (h : HeatSlot) : Option Nat :=
  match (List.range 8).find? (fun e => Table.find s.sct.engines e = some h.sector && engineAvail s e) with
  | none => none
  | some e =>
    if meetsParked e (latOf s e) [(storeBase e, tallyStore h (specialCount s h))] || (latOf s e).running.isSome
        || !gateOpen s 2 e then none
    else some e

/-- From the start of CLOSE the engine executes only the heat's operations (09 R489); the moduli go to entries 64 onward. -/
def takeEngine (e : Nat) (h : HeatSlot) (s : State) : State :=
  let base := keyObjectAddr h + 8
  let m := (List.range h.limbs).foldl (fun t i =>
    Table.put t (64 + i) ⟨h.moduli.getD i 0, leNat (peek s (base + 8 * i) 8), h.logN⟩) (latOf s e).moduli
  setLat e { latOf s e with heat := some h.id, moduli := m } s

/-- What the sequence leaves in the lowest S_T bytes of the store is not stated: free bytes (09 R488, R490). -/
def spoilStore (e n : Nat) (s : State) : State :=
  let (v, s) := drawFree s
  poke s (storeBase e) (leBytes n v)

/-! ### The sealed result (R396; 14 R742, R743) -/

/-- The plaintext: header, then the output elements or the ciphertexts, big-endian. -/
def resultPlain (h : HeatSlot) (body : List Byte) : List Byte :=
  h.idBytes ++ be4 h.total ++ be4 h.elements ++ beBytes 1 h.width ++ beBytes 3 0 ++ body

/-- Both signatures of the HeatSign key over bytes, from per-signature values (14 R742; 06 R298). -/
def heatSignatures (s : State) (msg draw : List Byte) : List Byte :=
  padTo 96 (Config.ecdsaSign s.sealing.heatEc msg (beNat (draw.take 48)))
    ++ padTo 3309 (Config.mldsaSign s.sealing.heatMl msg (beNat (draw.drop 48)))

/-- The container, from 160 bytes of instance 0x0005: ephemeral key, encapsulation randomness, signature values. -/
def sealedContainer (s : State) (h : HeatSlot) (plain draw : List Byte) : List Byte :=
  let key := Table.getD s.sealing.opkeys h.handle {}
  let eph := draw.take 48
  let (ct, ss) := Config.mlkemEncaps key.ek (sliceBytes draw 48 32)
  let head := be4 0x54475343 ++ beBytes 1 1 ++ beBytes 3 0 ++ h.idBytes ++ beBytes 8 h.handle ++ padTo 97 (Config.p384Public eph)
    ++ beBytes 7 0 ++ padTo 1088 ct ++ beBytes 8 plain.length
  let km := hkdf384 h.idBytes (Config.p384Ecdh eph key.point ++ ss) (ascii "TGSL seal" ++ Config.sha384 head) 44
  let body := head ++ padTo (plain.length + 16) (Config.gcmSeal (km.take 32) (km.drop 32) head plain)
  body ++ heatSignatures s body (draw.drop 80)

/-- The result sealed and DONE entered; without a seed for instance 0x0005 it waits. -/
def sealResult (k : Nat) (body : List Byte) (s : State) : State :=
  match internalBytes 5 160 s with
  | (none, s) => s
  | (some draw, s) =>
    let h := slotOf s k
    let s := setSlot k { h with result := sealedContainer s h (resultPlain h body) draw } s
    freeEngines h.id (heatPhase k 8 s)

/-- The root's last steps, as far as they can go now: subtraction, noise, sealing (R365, R370, R390; 06 R340). -/
def rootSteps (k : Nat) (s : State) : State :=
  let h := slotOf s k
  if !h.leads || h.phase ≠ 7 || !h.closing then s
  else if h.tallied then
    match tallyEngine s h with
    | none => s
    | some e =>
      let s := if (latOf s e).heat.isNone then takeEngine e h s else s
      if (latOf s e).heat ≠ some h.id || !h.reducing || !h.gathered 0 || !(h.noiseDone || h.sigma = 0) then s
      else
        let noise := noiseBuffer s h
        let body := (List.range h.pieces).flatMap (fun c => (tallyBlock s h noise c).flatMap (fun l => l.flatMap (beBytes 8)))
        sealResult k body (spoilStore e (tallyStore h (specialCount s h)) s)
  else if !h.reducing || !h.gathered 0 || !h.maskDone || !h.gathered 1 then s
  else
    let s := if h.subtracted then s else subtractMasks k s
    let h := slotOf s k
    if !h.subtracted || h.phase ≠ 7 then s
    else
      let s := if h.noiseAdded || !(h.noiseDone || h.sigma = 0) then s
        else if h.sigma = 0 then setSlot k { h with noiseAdded := true } s
        else
          match (List.range (h.v / 64)).map (fun i => h.noiseAddr (64 * i) / 64) |>.find? (s.mem.poison.contains ·) with
          | some l => taintSlot k l none s
          | none => combine k false (noiseBuffer s h) (setSlot k { h with noiseAdded := true } s)
      let h := slotOf s k
      if !h.noiseAdded || h.phase ≠ 7 then s
      else
        match badLine s h.acc (h.v / 64) with
        | some l => taintSlot k l none s
        | none =>
          let w := h.width / 8
          sealResult k (swapElements w h.elements (peekSpread s h.acc (h.v / 64) 0)) s

end Sys2Proof.Machine
end

