-- ==== Sys2Proof/Machine/HeatPhase.lean ====
section
/-! DEFINITION. The phases of heats: deadlines, phase-end work, reports and verdicts, and the exchanges between the packages of a
heat (chapter 07 of spec/, R354-R360; 06 R291-R293, R339). -/
namespace Sys2Proof.Machine

/-! ### The end of a phase (R291, R350, R354; 06 R293, R339) -/

/-- One phase ends: the next begins, and its end's work is noted. At the end of SUBMIT the fragments of D are discarded. -/
def endOne (k : Nat) (s : State) : State :=
  let h := slotOf s k
  let ph := h.phase
  let work := if h.tallied then ph = 1 || ph = 4 else ph ≠ 2
  let s := heatPhase k (ph + 1) s
  let s := if work then changeSlot k (fun h => { h with endings := h.endings ++ [(ph, s.cad.stroke, 0)] }) s else s
  if ph ≠ 4 then s
  else
    let s := h.staged.foldl (fun s e => putBit k e.1 2 false s) s
    changeSlot k (fun h => { h with staged := [], submitMsn := h.msnSent, reducing := true }) s

/-- The phase in force ends; in tally mode ROSTER and SHARE pass with ENROL, and CONFIRM and REVEAL with SUBMIT (R294). -/
def endPhase (k : Nat) (s : State) : State :=
  let s := endOne k s
  if (slotOf s k).tallied && (slotOf s k).phase ≠ 4 && (slotOf s k).phase ≠ 7 then endOne k (endOne k s) else s

/-- The entrant-facing phase whose deadline is pending: that before TAINTED counts. -/
def HeatSlot.timed (h : HeatSlot) : Option Nat :=
  let ph := if h.phase = 9 then h.prior else h.phase
  if h.role ≠ 2 && 1 ≤ ph && ph ≤ 6 then some ph else none

/-- Deadlines of a slot at or before a stroke take effect; a slot that cannot work takes them when it works again (log entry 45). -/
def takeDeadlines (k stroke : Nat) : Nat → State → State
  | 0, s => s
  | fuel + 1, s =>
    let h := slotOf s k
    match h.timed with
    | none => s
    | some ph =>
      if stroke < h.deadline ph && !h.got.contains (48 + ph, h.self) then s
      else if h.works then takeDeadlines k stroke fuel (endPhase k s)
      else changeSlot k (fun h => { h with late := true }) s

/-- A slot that works again takes the deadlines that passed meanwhile. -/
def resumeSlot (k : Nat) (s : State) : State :=
  takeDeadlines k s.cad.stroke 8 (changeSlot k (fun h => { h with late := false }) s)

/-- The deadline mark set for the earliest pending deadline, or cancelled (R358). -/
def setDeadlineMark (s : State) : State :=
  let pending := s.heat.slots.filterMap (fun e => if e.2.late then none else e.2.timed.map e.2.deadline)
  if s.cad.taken.any (fun t => t.slot = 2) then s
  else
    match pending with
    | [] => if (Table.find s.cad.marks 2).isNone then s else cancelMark 2 s
    | d :: ds =>
      let target := ds.foldl min d
      if (Table.find s.cad.marks 2).map (fun m => m.target) = some target then s
      else
        let m : Mark := { target := target, window := rfield s .heatConfig 0 0 32, lockstep := true, work := .heatDeadline }
        let s := setCad { s.cad with marks := Table.put s.cad.marks 2 m } s
        if s.cad.stroke < target then s else takeMark s (2, m)

/-- The repeating mark of checkpoints, while a slot is mirrored in CHECKPOINT mode (R380). -/
def setCheckpointMark (s : State) : State :=
  let wanted := s.heat.slots.any (fun e => e.2.mirrored && e.2.mirror = 2 && e.2.role ≠ 2)
  let have_ := (Table.find s.cad.marks 3).isSome
  if wanted && !have_ then
    let period := rfield s .heatConfig2 0 0 32
    let m : Mark := { target := s.cad.stroke + period, window := 2 ^ 32 - 1, period := period, work := .firmware 3 }
    setCad { s.cad with marks := Table.put s.cad.marks 3 m } s
  else if !wanted && have_ then cancelMark 3 s
  else s

/-- The deadline mark released: every deadline at or before its target takes effect, in ascending slot order (R358). -/
def deadlinesReleased (target : Nat) (s : State) : State :=
  s.heat.slots.foldl (fun s e => takeDeadlines e.1 target 8 s) s

/-- The deadline mark expired: every heat whose deadline it carried enters FAILED (R359). -/
def deadlinesExpired (target : Nat) (s : State) : State :=
  s.heat.slots.foldl (fun s e =>
    let h := slotOf s e.1
    match h.timed with
    | some ph => if h.deadline ph ≤ target then failHeat e.1 s else s
    | none => s) s

/-! ### Work of a home (07, Phase-end work) -/

/-- A home's report to its lead. -/
def sendReport (k ph members : Nat) (ok : Bool) (s : State) : State :=
  let h := slotOf s k
  heatSend h h.lead (.report ph h.self h.first h.count members ok) s

/-- Bitmap bytes of the range sent to one home; share ciphertexts and revealed shares for its entrants. -/
def sendBits (k ph home : Nat) (s : State) : State :=
  let h := slotOf s k
  heatSend h home (.bits ph h.self ((rangeWith s h 0).map (fun u => (u, ownBits s h u)))) s
def inRange (e : Nat × Nat × Nat) (u : Nat) : Bool := e.2.1 ≤ u && u < e.2.1 + e.2.2
def sendShares (k : Nat) (home : Nat × Nat × Nat) (s : State) : State :=
  let h := slotOf s k
  let mine := h.shares.filter (fun e => h.covers (e.1 % 2 ^ 32) && inRange home (e.1 / 2 ^ 32))
  heatSend h home.1 (.shares h.self (mine.map (fun e => (e.1 / 2 ^ 32, e.1 % 2 ^ 32, e.2)))) s
def sendReveals (k : Nat) (home : Nat × Nat × Nat) (s : State) : State :=
  let h := slotOf s k
  heatSend h home.1 (.reveals h.self (h.reveals.filter (fun r => h.covers r.revealer && inRange home r.owner))) s
def sendKeys (k home : Nat) (s : State) : State :=
  let h := slotOf s k
  heatSend h home (.keys h.self ((rangeWith s h 0).map (fun u => (u, keysAnywhere s h u)))) s

/-- Something done for every other home. -/
def forHomes (k : Nat) (f : Nat × Nat × Nat → State → State) (s : State) : State :=
  let h := slotOf s k
  (h.homes.filter (fun e => e.1 ≠ h.self)).foldl (fun s e => f e s) s

/-- The reconstructability condition of R293 over the range, with the set of a bit in place of C. -/
def reconstructable (s : State) (h : HeatSlot) (bit : Nat) : Bool :=
  let enough := fun (u side : Nat) =>
    decide (h.threshold ≤ (((h.neighbours u).getD []).filter (fun v =>
      (bitsAnywhere s h v).testBit side && (bitsAnywhere s h v).testBit bit)).length)
  (survivorsOf s h).all (fun u => enough u 1) && (droppedOf s h).all (fun v => enough v 3)

/-- How far a phase-end work has come. -/
def noteEnding (k ph stage : Nat) (s : State) : State :=
  changeSlot k (fun h => { h with endings := h.endings.map (fun e => if e.1 = ph then (e.1, e.2.1, stage) else e) }) s
def dropEnding (k ph : Nat) (s : State) : State :=
  changeSlot k (fun h => { h with endings := h.endings.filter (fun e => e.1 ≠ ph) }) s

/-- The work of one ended phase as far as it can be done now. -/
def endingWork (k ph stage : Nat) (s : State) : State :=
  let h := slotOf s k
  if ph = 1 then (if stage = 0 then noteEnding k 1 2 (sendReport k 1 h.enrolled true s) else s)
  else if ph = 3 then (if h.homes = [] || h.order.isNone then s else dropEnding k 3 (forHomes k (fun e s => sendShares k e s) s))
  else if ph = 4 then
    if stage ≠ 0 || h.homes = [] then s
    else noteEnding k 4 2 (sendReport k 4 h.survivors true (forHomes k (fun e s => sendBits k 4 e.1 s) s))
  else
    if stage = 0 then
      if h.homes = [] then s
      else
        let s := forHomes k (fun e s => sendBits k ph e.1 s) s
        noteEnding k ph 1 (if ph = 6 then forHomes k (fun e s => sendReveals k e s) s else s)
    else if stage = 1 && h.haveAll 20 && h.haveAll (16 + ph) && h.order.isSome then
      noteEnding k ph 2 (sendReport k ph 0 (reconstructable s h (ph - 1)) s)
    else s

/-! ### The lead (R354, 06 R293) -/

/-- Reports of a phase: package, first index, indices, members, check. -/
def HeatSlot.reportsOf (h : HeatSlot) (ph : Nat) : List (Nat × Nat × Nat × Nat × Bool) :=
  (h.reports.filter (fun e => e.1 / 64 = ph)).map (fun e => (e.1 % 64, e.2))

/-- Whether every home has reported: the ranges make up the heat's indices (06 R297). -/
def HeatSlot.allReported (h : HeatSlot) (ph : Nat) : Bool :=
  ((h.reportsOf ph).map (fun e => e.2.2.1)).sum = h.totalIndices && h.endings.any (fun e => e.1 = ph)

/-- Homes in tree order: the lead, then ascending package numbers (R372). -/
def HeatSlot.treeOrder (h : HeatSlot) : List (Nat × Nat × Nat) :=
  let l := (h.reportsOf 1).map (fun e => (e.1, e.2.1, e.2.2.1))
  l.filter (fun e => e.1 = h.lead) ++ l.filter (fun e => e.1 ≠ h.lead)

/-- The lead's verdict on a phase once every home has reported; at the end of ENROL it draws the graph seed first. HEAT_ADVANCE
commands that wait for it complete (R392). -/
def tryVerdict (k ph : Nat) (s : State) : State :=
  let h := slotOf s k
  if !h.works || !h.leads || !h.allReported ph then s
  else
    let members := ((h.reportsOf ph).map (fun e => e.2.2.2.1)).sum
    let ok := if ph = 1 then h.minSurvivors ≤ members && (h.tallied || h.threshold + 1 ≤ members)
      else if ph = 4 then h.minSurvivors ≤ members
      else (h.reportsOf ph).all (fun e => e.2.2.2.2)
    let homes := if ph = 1 then h.treeOrder else h.homes
    let send := fun (seed : List Byte) (s : State) =>
      let s := changeSlot k (fun h => { h with reports := h.reports.filter (fun e => e.1 / 64 ≠ ph), homes := homes }) s
      let h := slotOf s k
      let m := HeatMsg.verdict ph ok seed homes members
      let s := homes.foldl (fun s e => heatSend h e.1 m s) s
      let s := finishAll ((h.advance.filter (fun e => e.2 = ph)).map Prod.fst) stOk 0 0 s
      changeSlot k (fun h => { h with advance := h.advance.filter (fun e => e.2 ≠ ph) }) s
    if ph = 1 && ok && !h.tallied then
      match internalBytes 2 32 s with
      | (none, s) => s
      | (some seed, s) => send seed s
    else send [] s

/-! ### Progress -/

/-- Sort keys to the lead, the lead's slot order, and keys to the other homes, each once (07, Phase-end work). -/
def graphWork (k : Nat) (s : State) : State :=
  let h := slotOf s k
  let s := if h.seed ≠ [] && !h.got.contains (32, h.self) then
      let keys := (rangeWith s h 0).map (fun u => (h.sortKey u, u))
      heatSend h h.lead (.sortKeys h.self keys) (setSlot k { h with got := (32, h.self) :: h.got } s)
    else s
  let h := slotOf s k
  let s := if h.leads && h.order.isNone && h.homes ≠ [] && h.homes.all (fun e => h.got.contains (0, e.1)) then
      let order := slotOrderOf h.sortKeys
      (h.homes.filter (fun e => e.1 ≠ h.self)).foldl (fun s e => heatSend h e.1 (.slotOrder order) s)
        (setSlot k { h with order := some order } s)
    else s
  let h := slotOf s k
  if h.order.isSome && h.homes ≠ [] && !h.got.contains (33, h.self) then
    forHomes k (fun e s => sendKeys k e.1 s) (setSlot k { h with got := (33, h.self) :: h.got } s)
  else s

/-- Everything a slot can do now. -/
def progress (k : Nat) (s : State) : State :=
  if !(slotOf s k).works then s
  else
    let s := graphWork k s
    let s := (slotOf s k).endings.foldl (fun s e => endingWork k e.1 e.2.2 s) s
    let s := [1, 4, 5, 6].foldl (fun s ph => tryVerdict k ph s) s
    let h := slotOf s k
    let s := if h.closing && !h.rebuilt && !h.tallied && h.phase = 7 && h.haveAll 3 then reconstruct k s else s
    let s := if (slotOf s k).works then climb k s else s
    if (slotOf s k).works then rootSteps k s else s

/-- A verdict taken by a home (06 R293). -/
def takeVerdict (k ph : Nat) (ok : Bool) (seed : List Byte) (homes : List (Nat × Nat × Nat)) (total : Nat) (s : State) : State :=
  let h := slotOf s k
  if h.phase = 8 || h.phase = 10 then s
  else
    let s := setSlot k { h with endings := h.endings.filter (fun e => e.1 ≠ ph)
                                homes := homes
                                seed := if ph = 1 then seed else h.seed
                                total := if ph = 4 then total else h.total
                                closing := h.closing || ph = 6 || (h.tallied && ph = 4) } s
    if ok then s else failSlot k s

/-- A message of a heat taken by a slot. -/
def takeHeatMsg (k : Nat) (m : HeatMsg) (s : State) : State :=
  let h := slotOf s k
  let note := fun (kind pkg : Nat) (h : HeatSlot) => { h with got := if h.got.contains (kind, pkg) then h.got else (kind, pkg) :: h.got }
  match m with
  | .report ph pkg first count members ok =>
    if h.leads && h.phase ≠ 10 then setSlot k { h with reports := Table.put h.reports (ph * 64 + pkg) (first, count, members, ok) } s
    else s
  | .verdict ph ok seed homes total => takeVerdict k ph ok seed homes total s
  | .sortKeys pkg keys => if h.got.contains (0, pkg) then s else setSlot k (note 0 pkg { h with sortKeys := h.sortKeys ++ keys }) s
  | .slotOrder order => setSlot k { h with order := some order } s
  | .keys pkg es => setSlot k (note 1 pkg { h with keys := es.foldl (fun t e => Table.put t e.1 e.2) h.keys }) s
  | .bits ph pkg es => setSlot k (note (16 + ph) pkg { h with bits := es.foldl (fun t e => Table.put t e.1 e.2) h.bits }) s
  | .shares pkg es =>
    setSlot k (note 2 pkg { h with shares := es.foldl (fun t e => Table.put t (shareKey e.1 e.2.1) e.2.2) h.shares }) s
  | .reveals pkg es => if h.got.contains (3, pkg) then s else setSlot k (note 3 pkg { h with reveals := h.reveals ++ es }) s
  | .advance ph =>
    if h.timed ≠ some ph then s
    else if h.works then endPhase k s
    else setSlot k (note (48 + ph) h.self { h with late := true }) s
  | .failed =>
    if h.phase = 8 || h.phase = 10 then s
    else
      let s := failSlot k s
      if h.leads then heatTell h .failed s else s

/-- Messages within the package handled and work done until nothing is left; `fuel` bounds the messages. -/
def heatLoop : Nat → State → State
  | 0, s => s
  | fuel + 1, s =>
    match s.heat.inbox with
    | (k, m) :: rest => heatLoop fuel (takeHeatMsg k m { s with heat := { s.heat with inbox := rest } })
    | [] =>
      let s := (s.heat.slots.map Prod.fst).foldl (fun s k => progress k s) s
      if s.heat.inbox = [] then s else heatLoop fuel s

/-- Steps 2 and 3 of a planned handover (18 R897): a moving slot is sent once the twin has acknowledged everything and no line of it waits for recovery. -/
def handSlots (s : State) : State :=
  s.heat.slots.foldl (fun s e =>
    let h := e.2
    if h.moving.isNone || h.handed || h.copying || h.phase = 9 || (h.mirror = 1 && h.msnAcked < h.msnSent) then s
    else sysSend true s.pair.twin (.handover h.whole (slotImage s h)) (setSlot e.1 { h with handed := true } s)) s

/-- What follows every row that touches heats: work and messages, the deadline and checkpoint marks, and the shadows' state. -/
def heatRow (s s' : State) : State := 
  handSlots (mirrorChanges s (setCheckpointMark (setDeadlineMark (heatLoop 4096 (retryTree s')))))

/-- EXCHANGE_TIMEOUT (R355): EXCHANGE_STROKES after the lead's own release a report is missing, and the heat fails; a home whose
lead has given no verdict that long after its last report fails it too (18, corner of a double failure; log entry 54). -/
def exchangeTimeout (k : Nat) (s : State) : State :=
  let h := slotOf s k
  let wait := rfield s .heatConfig 0 32 24
  if !h.works then s
  else if h.endings.any (fun e => e.1 ≠ 3 && e.2.1 + wait ≤ s.cad.stroke && (h.leads || e.2.2 = 2)) then failHeat k s
  else s

def execExchangeTimeout (slot : Nat) (s : State) : Out := .next (heatRow s (exchangeTimeout slot s))

end Sys2Proof.Machine
end

