-- ==== Sys2Proof/Machine/HeatIngress.lean ====
section
/-! DEFINITION. Heat messages of entrants: framing, the checks in their order, replies, held messages (06 R301-R338; 07 R345-R351;
18 R894). -/
namespace Sys2Proof.Machine

/-! ### Framing (06 R301-R304) -/

/-- Fields of a request header. -/
structure HeatHeader where
  typ : Nat
  id : Nat
  index : Nat
  frag : Nat
  deriving DecidableEq, Repr

def headerOf (msg : List Byte) : HeatHeader :=
  { typ := fieldBE msg 3 1, id := fieldBE msg 4 8, index := fieldBE msg 12 4, frag := fieldBE msg 16 4 }

/-- Check 1: MAGIC, VERSION, TYPE or BODY_LEN malformed. -/
def malformed (msg : List Byte) : Bool :=
  let body := msg.length - 24
  msg.length < 24 || fieldBE msg 0 2 ≠ 0x5447 || fieldBE msg 2 1 ≠ 1 || fieldBE msg 3 1 = 0 || 8 < fieldBE msg 3 1
    || fieldBE msg 20 4 ≠ body || body < (if fieldBE msg 3 1 = 1 then 48 else 16)

/-- IV of a request and of a reply (R304). -/
def requestIv (h : HeatHeader) : List Byte := beBytes 1 h.typ ++ beBytes 3 0 ++ be4 h.frag ++ be4 0
def replyIv (h : HeatHeader) (status : Nat) : List Byte := beBytes 1 (h.typ + 0x80) ++ beBytes 1 1 ++ beBytes 2 status ++ be4 h.frag ++ be4 0

/-- A reply: header, and for OK and DUPLICATE the sealed plaintext (R303). -/
def replyBytes (h : HeatHeader) (status : Nat) (kEd plain : List Byte) : List Byte :=
  let full := status = stOk || status = stDuplicate
  let len := if full then plain.length + 16 else 0
  let head := beBytes 2 0x5447 ++ beBytes 1 1 ++ beBytes 1 (h.typ + 0x80) ++ beBytes 8 h.id ++ be4 h.index ++ be4 h.frag ++ be4 len
    ++ beBytes 2 status ++ beBytes 2 0
  if full then head ++ padTo len (Config.gcmSeal kEd (replyIv h status) head plain) else head

/-- Fetches are ROSTER_GET and INBOX_GET; every other type is a contribution. -/
def isFetch (typ : Nat) : Bool := typ = 2 || typ = 4

/-- First and last phase in which a type is accepted (06, Message types). -/
def phasesOf (typ : Nat) : Nat × Nat :=
  match typ with
  | 1 => (1, 1)
  | 2 => (2, 6)
  | 3 => (3, 3)
  | 4 => (4, 6)
  | 5 => (4, 4)
  | 6 => (5, 5)
  | 7 => (6, 6)
  | _ => (4, 4)

/-! ### Reply plaintexts (06, Plaintext layouts) -/

/-- Neighbours of an entrant in A by their bitmap bytes. -/
def neighboursInA (s : State) (h : HeatSlot) (u : Nat) : List Nat :=
  ((h.neighbours u).getD []).filter (fun v => (bitsAnywhere s h v).testBit 1)

def rosterPlain (s : State) (h : HeatSlot) (u : Nat) : List Byte :=
  let nb := (h.neighbours u).getD []
  h.seed ++ beBytes 2 nb.length ++ beBytes 2 0 ++ nb.flatMap (fun v => be4 v ++ keysAnywhere s h v)
def inboxPlain (h : HeatSlot) (u : Nat) : List Byte :=
  let nb := h.sharers u
  beBytes 2 nb.length ++ beBytes 2 0 ++ nb.flatMap (fun v => be4 v ++ (Table.find h.shares (shareKey u v)).getD [])
def confirmPlain (s : State) (h : HeatSlot) (u : Nat) : List Byte :=
  let nb := neighboursInA s h u
  h.receipt u 6 0 ++ beBytes 2 nb.length ++ beBytes 2 0
    ++ nb.flatMap (fun v => be4 v ++ beBytes 1 (if (bitsAnywhere s h v).testBit 3 then 1 else 2) ++ beBytes 3 0)

/-- Plaintext of the OK reply of a type (R306, R333). -/
def okPlain (s : State) (h : HeatSlot) (u typ frag : Nat) : List Byte :=
  if typ = 2 then rosterPlain s h u
  else if typ = 4 then inboxPlain h u
  else if typ = 6 then confirmPlain s h u
  else h.receipt u typ frag

/-- Whether what a type needs from other homes has been assembled (R348). -/
def dataReady (h : HeatSlot) (typ : Nat) : Bool :=
  if typ = 2 then h.order.isSome && h.haveAll 1
  else if typ = 3 then h.order.isSome
  else if typ = 4 || typ = 5 then h.order.isSome && h.haveAll 2
  else if typ = 6 || typ = 7 then h.order.isSome && h.haveAll 20
  else true

/-! ### The checks (06 R332) -/

/-- What becomes of a message: refused, answered from what is there, accepted as a new contribution, or held in stage 8. -/
inductive Judged where
  | refuse (status : Nat)
  | answer (status : Nat)
  | accept
  | hold
  deriving DecidableEq, Repr

/-- Check 6: whether the same contribution was accepted before (R334, R349). -/
def wasAccepted (h : HeatSlot) (bits u typ frag : Nat) : Bool :=
  if typ = 1 then bits.testBit 0 && frag = 0
  else if typ = 3 then bits.testBit 1 && frag = 0
  else if typ = 6 then bits.testBit 4 && frag = 0
  else if typ = 7 then bits.testBit 5 && frag = 0
  else if typ = 5 || typ = 8 then
    if h.tallied != (typ = 8) then false
    else if bits.testBit 2 then (Table.find (Table.getD h.staged u []) frag).isSome
    else bits.testBit 3 && frag < h.pieces
  else false

/-- Check 9: the sender is in the required set, or its token is good; none where that is not known yet. -/
def memberOk (h : HeatSlot) (bits u typ : Nat) (plain : List Byte) : Option Bool :=
  let inA := bits.testBit 1 || h.tallied
  if typ = 1 then some (plain.length < 16 || plain.take 16 = h.token u)
  else if typ = 4 then some inA
  else if typ = 5 then
    if !inA then some false
    else if h.tallied then some true
    else if dataReady h 5 then some (h.threshold ≤ (h.sharers u).length)
    else none
  else if typ = 6 then some (bits.testBit 3)
  else if typ = 7 then some (bits.testBit 4)
  else some true

/-- The value checks of a TALLY: every coefficient below its limb's modulus (R338). -/
def coefficientsOk (h : HeatSlot) (plain : List Byte) : Bool :=
  let n := 2 ^ h.logN
  (List.range (2 * h.limbs * n)).all (fun i => fieldBE plain (8 * i) 8 < h.moduli.getD (i / n % h.limbs) 0)

/-- The entries of a REVEAL against the list that its sender was told (R328, R329). -/
def revealOk (s : State) (h : HeatSlot) (u : Nat) (plain : List Byte) : Bool :=
  let list := neighboursInA s h u
  let n := fieldBE plain 32 2
  plain.length = 36 + 40 * n && fieldBE plain 34 2 = 0 && plain.take 32 = padTo 32 (Config.sha256 (confirmPlain s h u))
    && (revealEntries plain).map (fun e => e.1) = list
    && (revealEntries plain).map (fun e => e.2.1) = list.map (fun v => if (bitsAnywhere s h v).testBit 3 then 1 else 2)
    && (List.range n).all (fun i => fieldBE plain (36 + 40 * i + 5) 3 = 0)

/-- Check 10: length, layout and values; none where what it needs is not known yet. -/
def layoutOk (s : State) (h : HeatSlot) (u typ frag : Nat) (ePk plain : List Byte) : Option Bool :=
  if typ ≠ 1 && h.tallied != (typ = 8) then some false
  else if !(typ = 5 || typ = 8) && frag ≠ 0 then some false
  else if typ = 1 then
    some (plain.length = 80 && !h.lowOrder ePk && !h.lowOrder (sliceBytes plain 16 32) && !h.lowOrder (sliceBytes plain 48 32))
  else if typ = 3 then
    (h.neighbours u).map (fun nb =>
      plain.length = 4 + 84 * fieldBE plain 0 2 && fieldBE plain 2 2 = 0 && (shareEntries plain).map (fun e => e.1) = nb)
  else if typ = 5 then some (frag < h.pieces && plain.length = h.pieceBytes frag)
  else if typ = 8 then some (frag < h.pieces && plain.length = h.pieceBytes frag && coefficientsOk h plain)
  else if typ = 7 then (if dataReady h 7 then some (revealOk s h u plain) else none)
  else some (plain = [])

/-- Checks 6 to 11 of a message whose tag holds, under a phase. -/
def judge (s : State) (h : HeatSlot) (phase u typ frag : Nat) (ePk plain : List Byte) : Judged :=
  let bits := ownBits s h u
  let (lo, hi) := phasesOf typ
  if wasAccepted h bits u typ frag then
    if typ = 1 && peek s (h.recordAddr u + 96) 16 ≠ (padTo 16 (Config.sha256 ePk)) then .refuse stNotPermitted
    else if typ = 6 && !dataReady h 6 then .hold
    else .answer stDuplicate
  else if phase = 10 || phase < lo then .refuse stBadState
  else if hi < phase then .refuse stDeadlinePassed
  else
    match memberOk h bits u typ plain with
    | none => .hold
    | some false => .refuse stNotPermitted
    | some true =>
      match layoutOk s h u typ frag ePk plain with
      | none => .hold
      | some false => .refuse stBadParam
      | some true =>
        if isFetch typ then (if dataReady h typ then .answer stOk else .hold)
        else if (typ = 5 || typ = 8) && !h.stagingRoom plain.length then .refuse stRetryBusy
        else .accept

/-! ### Replies (06 R303, R332; 18 R894) -/

/-- The one reply to a message, with its counters and its immediate: sent, or kept behind the held messages of its queue pair
(R345). -/
def heatReply (q : Nat) (queue : Bool) (hd : HeatHeader) (status : Nat) (imm : Option Nat) (kEd plain : List Byte) (s : State) : State :=
  let s := if status = stOk then bump s .heatMsgAccepted else bump s .heatMsgRefused
  let s := if status = stDuplicate then bump s .heatDupCount else s
  let bs := replyBytes hd status kEd plain
  if queue then
    let m : HeldMessage := { qp := q, msg := [], phase := 0, answer := some (imm, bs) }
    { s with heat := { s.heat with held := s.heat.held ++ [m] } }
  else heatReplySend q imm bs s

/-- The immediate of an answer to a contribution of a SHADOW heat. -/
def replyImm (h : HeatSlot) (typ status msn : Nat) : Option Nat :=
  if h.mirror ≠ 1 || h.shadow || isFetch typ then none
  else if status = stOk then some (msn % 2 ^ 32)
  else if status = stDuplicate then some (h.msnSent % 2 ^ 32)
  else none

/-- How a message leaves the pipeline: replied to, or held, with the MSN of a CONFIRM that was accepted. -/
inductive Piped where
  | replied (s : State)
  | held (accepted : Option Nat) (s : State)

/-- A message whose tag holds. The phase is the one it was parsed in, which decides for fetches and CONFIRM (R292, R348); another
contribution that was held is judged by the phase in force (log entry 55). -/
def serveMessage (faults : List LineFault) (q : Nat) (queue : Bool) (k : Nat) (hd : HeatHeader) (parsed : Nat)
    (kEd ePk plain : List Byte) (s : State) : Piped :=
  let h := slotOf s k
  let phase := if h.phase = 10 || !(isFetch hd.typ || hd.typ = 6) then h.phase else parsed
  let say := fun (status msn : Nat) (s : State) =>
    let h := slotOf s k
    .replied (heatReply q queue hd status (replyImm h hd.typ status msn) kEd (okPlain s h hd.index hd.typ hd.frag) s)
  match judge s h phase hd.index hd.typ hd.frag ePk plain with
  | .hold => .held none s
  | .refuse st => .replied (heatReply q queue hd st none [] [] s)
  | .answer st => say st 0 s
  | .accept =>
    let data := if hd.typ = 1 then kEd ++ sliceBytes plain 16 64 ++ padTo 16 (Config.sha256 ePk) else plain
    let (msn, s) := acceptContribution faults k hd.index hd.typ hd.frag data s
    if hd.typ = 6 && !dataReady (slotOf s k) 6 then .held (some msn) s else say stOk msn s

/-- The slots in which a message of a sector may find its heat (R332, check 2; 10 R527; 18 R892). -/
def slotsFor (s : State) (n id : Nat) : List (Nat × HeatSlot) :=
  s.heat.slots.filter (fun e => e.2.id = id && e.2.sector = n && e.2.role ≠ 2 && e.2.phase ≠ 0)

/-- A message through the pipeline, in the order of R332; `held` is none for one that arrives, and the held message otherwise. -/
def pipeline (faults : List LineFault) (q n : Nat) (queue : Bool) (msg : List Byte) (parsed : Nat) (accepted : Option Nat) (s : State) :
    Piped :=
  let hd := headerOf msg
  let refuse := fun (st : Nat) (s : State) => .replied (heatReply q queue hd st none [] [] s)
  if malformed msg then refuse stBadParam s
  else
    match slotsFor s n hd.id with
    | [] => refuse stBadState s
    | es =>
      match es.find? (fun e => e.2.covers hd.index) with
      | none => refuse stNotPermitted s
      | some (k, h) =>
        if h.phase = 9 || h.stopped || h.moving.isSome then refuse stRetryBusy s
        else
          match slotRead faults k (h.bitAddr hd.index) 1 s with
          | (none, s) => refuse stRetryBusy s
          | (some _, s) =>
            let enrolled := (ownBits s h hd.index).testBit 0
            if hd.typ ≠ 1 && !enrolled then refuse stKeyInvalid s
            else
              match if enrolled then slotRead faults k (h.recordAddr hd.index) 128 s else (some [], s) with
              | (none, s) => refuse stRetryBusy s
              | (some record, s) =>
                let body := msg.drop 24
                let ePk := if hd.typ = 1 then body.take 32 else []
                let kEd := if hd.typ = 1 then h.kEd ePk else record.take 32
                let ct := if hd.typ = 1 then body.drop 32 else body
                match accepted, Config.gcmOpen kEd (requestIv hd) (msg.take 24 ++ ePk) ct with
                | _, none => refuse stKeyInvalid s
                | none, some plain => serveMessage faults q queue k hd parsed kEd ePk plain s
                | some msn, some _ =>
                  if h.phase = 10 then refuse stBadState s
                  else if !dataReady h 6 then .held (some msn) s
                  else
                    .replied (heatReply q queue hd stOk (replyImm h 6 stOk msn) kEd (confirmPlain s h hd.index) s)

/-- Phase of the heat a message names, as it is parsed. -/
def phaseFor (s : State) (n : Nat) (msg : List Byte) : Nat :=
  let hd := headerOf msg
  (((slotsFor s n hd.id).find? (fun e => e.2.covers hd.index)).map (fun e => e.2.phase)).getD 0

/-- A message row: the message at the head of an ingress queue pair's queue, of the row's type or malformed. Its reply waits behind
the held messages of the queue pair (R345); none leaves the queue while HEAT is held (04 R207). -/
def messageRow (typ qpn : Nat) (faults : List LineFault) (s : State) : State :=
  match qpFind s qpn with
  | none => s
  | some (q, x) =>
    match x.messages with
    | [] => s
    | msg :: rest =>
      let t := fieldBE msg 3 1
      if heldClass s x.sector 2 || !(t = typ || malformed msg) then s
      else
        let s := setQp q { x with messages := rest } s
        let parsed := phaseFor s x.sector msg
        match pipeline faults q x.sector (s.heat.held.any (fun h => h.qp = q)) msg parsed none s with
        | .replied s => s
        | .held a s =>
          let m : HeldMessage := { qp := q, msg := msg, phase := parsed, accepted := a }
          { s with heat := { s.heat with held := s.heat.held ++ [m] } }

/-- Replies that waited only for a held message are sent, up to the next held one; `fuel` bounds them. -/
def sendWaiting (q : Nat) : Nat → State → State
  | 0, s => s
  | fuel + 1, s =>
    match s.heat.held.find? (fun h => h.qp = q) with
    | some { answer := some (imm, bs), .. } =>
      let rest := { s with heat := { s.heat with held := s.heat.held.eraseP (fun h => h.qp = q) } }
      sendWaiting q fuel (heatReplySend q imm bs rest)
    | _ => s

/-- HELD_REPLY (R348): the first held message of a queue pair is answered once its data is assembled, and the replies behind it
leave. While its slot is TAINTED or stopped, or HEAT is held, it stays. -/
def heldReply (qpn : Nat) (faults : List LineFault) (s : State) : State :=
  match qpFind s qpn with
  | none => s
  | some (q, x) =>
    match s.heat.held.find? (fun h => h.qp = q) with
    | none => s
    | some m =>
      let rest := { s with heat := { s.heat with held := s.heat.held.eraseP (fun h => h.qp = q) } }
      let hd := headerOf m.msg
      let busy := ((slotsFor s x.sector hd.id).find? (fun e => e.2.covers hd.index)).any
        (fun e => e.2.phase = 9 || e.2.stopped || e.2.moving.isSome)
      if heldClass s x.sector 2 || busy then s
      else
        match pipeline faults q x.sector false m.msg m.phase m.accepted rest with
        | .replied s => sendWaiting q s.heat.held.length s
        | .held a s =>
          { s with heat := { s.heat with held := { m with accepted := a } :: s.heat.held } }

def execEnrol (qp : Nat) (faults : List LineFault) (s : State) : Out := .next (heatRow s (messageRow 1 qp faults s))
def execRosterGet (qp : Nat) (faults : List LineFault) (s : State) : Out := .next (heatRow s (messageRow 2 qp faults s))
def execShare (qp : Nat) (faults : List LineFault) (s : State) : Out := .next (heatRow s (messageRow 3 qp faults s))
def execInboxGet (qp : Nat) (faults : List LineFault) (s : State) : Out := .next (heatRow s (messageRow 4 qp faults s))
def execSubmit (qp : Nat) (faults : List LineFault) (s : State) : Out := .next (heatRow s (messageRow 5 qp faults s))
def execConfirm (qp : Nat) (faults : List LineFault) (s : State) : Out := .next (heatRow s (messageRow 6 qp faults s))
def execReveal (qp : Nat) (faults : List LineFault) (s : State) : Out := .next (heatRow s (messageRow 7 qp faults s))
def execTally (qp : Nat) (faults : List LineFault) (s : State) : Out := .next (heatRow s (messageRow 8 qp faults s))
def execHeldReply (qp : Nat) (faults : List LineFault) (s : State) : Out := .next (heatRow s (heldReply qp faults s))

end Sys2Proof.Machine
end

