-- ==== Sys2Proof/Machine/HeatTaint.lean ====
section
/-! DEFINITION. TAINTED and its recovery, and what the twin and the other packages send to heats (chapter 07 of spec/, R374-R386; 11
R596; 18 R880, R881). -/
namespace Sys2Proof.Machine

/-! ### The regions of a line (R383, R384) -/

/-- The region of a slot that holds a line. -/
inductive SlotRegion where
  | acc
  | mask
  | noise
  | staging
  | record
  | recon
  | none
  deriving DecidableEq, Repr

def regionOfLine (h : HeatSlot) (line : Nat) : SlotRegion :=
  let a := line * 64
  if h.bitmap / 64 ≤ line && line < ceilDiv (h.bitmap + h.count) 64 then .record
  else if 0x008000000000 ≤ a then .none
  else if h.acc.holds a then .acc
  else if h.mask.holds a then .mask
  else if h.noise.holds a then .noise
  else if h.staging.holds a then .staging
  else if h.records.holds a then .record
  else if h.recon.holds a then .recon
  else .none

/-- Offset of a line in a spread region. -/
def offsetIn (ext : Extent) (v line : Nat) : Option Nat :=
  ((List.range (v / 64)).find? (fun i => spreadAddr ext (64 * i) / 64 = line)).map (· * 64)

/-- TAINT (R383): a line operation on a region of the slot; where it is refused, the slot becomes TAINTED. -/
def taintRow (k a : Nat) (faults : List LineFault) (s : State) : State :=
  let h := slotOf s k
  if (Table.find s.heat.slots k).isNone || regionOfLine h (a / 64) = .none then s
  else (slotRead faults k (a / 64 * 64) 64 s).2

def execTaint (slot addr : Nat) (faults : List LineFault) (s : State) : Out := .next (heatRow s (taintRow slot addr faults s))

/-- A restored line of the accumulator takes again the parts of the vectors from h_min on, and what the root had done to it. -/
def refillLine (k off : Nat) (s : State) : State :=
  let h := slotOf s k
  let w := h.width / 8
  let again := h.vectors.filter (fun v => (h.hMin.map (fun m => decide (m ≤ v.hsn))).getD false)
  let s := again.foldl (fun s v => addSpread [] k (some v.hsn) h.acc w false 1 off ((v.bytes.drop off).take 64) s) s
  let s := if h.subtracted then addSpread [] k none h.acc w true 1 off (peek s (spreadAddr h.mask off) 64) s else s
  if h.noiseAdded then addSpread [] k none h.acc w false 1 off (peek s (h.noiseAddr off) 64) s else s

/-- A line of the mask accumulator recomputed from the secrets: the jobs and chunks that were done (R357, R384). -/
def remask (k off : Nat) (s : State) : State :=
  let h := slotOf s k
  let all := maskJobs s h h.secrets
  let done := all.take (all.length - h.jobs.length)
  let now := if off / 65536 < h.chunk then h.jobs.take 64 else []
  let jobs := if h.rebuilt then done ++ now else []
  let line := ((chunkSum h jobs (off / 65536)).drop (off % 65536)).take 64
  poke (unpoison s (spreadAddr h.mask off)) (spreadAddr h.mask off) (padTo 64 line)

/-- Whether a chunk of a child has been added where a mask line lies, which the secrets here do not give again. -/
def childMask (h : HeatSlot) (off : Nat) : Bool :=
  h.children.any (fun c => (Table.getD h.received (2 * c + 1) []).contains (off / 65536))

/-- Counts of the range from the bitmap. -/
def recount (k : Nat) (s : State) : State :=
  let h := slotOf s k
  setSlot k { h with enrolled := (rangeWith s h 0).length, survivors := (rangeWith s h 3).length } s

/-- The slot returns to its prior phase, and deadlines that passed meanwhile are taken (R384; log entry 45). -/
def untaint (k : Nat) (s : State) : State :=
  let h := slotOf s k
  if h.phase ≠ 9 then s
  else
    let s := heatPhase k h.prior s
    resumeSlot k (changeSlot k (fun h => { h with taintLines := [], hMin := none }) s)

/-- One poisoned line restored in SHADOW mode, or without the twin where the secrets give it again; none where nothing can. `lines`
are the twin's copies of lines by address. -/
def restoreLine (lines : List (Nat × List Byte)) (k line : Nat) (s : State) : Option State :=
  let h := slotOf s k
  let a := line * 64
  let copy := (lines.find? (fun e => e.1 / 64 = line)).map Prod.snd
  let put := fun (bs : List Byte) => poke (unpoison s a) a (padTo 64 bs)
  match regionOfLine h line with
  | .acc =>
    if !h.streams then none
    else copy.map (fun bs => ((offsetIn h.acc h.v line).map (fun off => refillLine k off (put bs))).getD (put bs))
  | .mask =>
    match offsetIn h.mask h.v line with
    | none => some (put [])
    | some off => if childMask h off && !h.subtracted then none else some (remask k off s)
  | .staging => if h.streams then some (put []) else none
  | .record => if h.streams then copy.map put else none
  | _ => none

/-- Whether the checkpoint restores everything that is poisoned (R384). -/
def checkpointRestores (h : HeatSlot) : Bool :=
  h.mirrored && h.mirror = 2 && h.taintLines.all (fun l =>
    match regionOfLine h l with
    | .acc | .record | .mask => true
    | _ => false)
  && h.taintLines.any (fun l => regionOfLine h l = .acc || regionOfLine h l = .record)

/-- Whether a line waits for its copy: the twin must have acknowledged the commit of h_min - 1 (R384), and the copy must be here. -/
def awaits (lines : List (Nat × List Byte)) (h : HeatSlot) : Bool :=
  h.streams && h.taintLines.any (fun l =>
    match regionOfLine h l with
    | .acc => h.msnAcked < h.commitMsn || (h.vectors.any (fun v => (h.hMin.map (fun m => decide (v.hsn < m))).getD true))
        || !lines.any (fun e => e.1 / 64 = l)
    | .record => !lines.any (fun e => e.1 / 64 = l)
    | _ => false)

/-- TAINT_RECOVERY (R384): the poisoned lines restored by the table's rows, or the heat FAILED. `image` is the twin's last
checkpoint. -/
def taintRecovery (k : Nat) (lines : List (Nat × List Byte)) (image : SlotImage) (s : State) : State :=
  let h := slotOf s k
  if h.phase ≠ 9 || h.stopped || awaits lines h then s
  else if checkpointRestores h then
    let s := writeImage k image (setSlot k { h with staged := [], vectors := [] } s)
    let s := (h.taintLines.filter (fun l => regionOfLine h l = .mask)).foldl (fun s l => (restoreLine lines k l s).getD s) s
    untaint k (recount k s)
  else
    match h.taintLines.foldl (fun (r : Option State) l => r.bind (restoreLine lines k l)) (some s) with
    | none => failHeat k s
    | some s => untaint k s

def execTaintRecovery (slot : Nat) (lines : List (Nat × List Byte)) (image : SlotImage) (s : State) : Out :=
  .next (heatRow s (taintRecovery slot lines image s))

def execVectorCommit (slot : Nat) (s : State) : Out := .next (heatRow s (vectorCommit slot s))

def execMaskExpansionChunkEnd (slot expander : Nat) (fault : Bool) (faults : List LineFault) (s : State) : Out :=
  .next (heatRow s (maskChunkEnd slot expander fault faults s))

def execNoiseDrawComplete (slot : Nat) (s : State) : Out := .next (heatRow s (noiseDraw slot s))

/-! ### Opening: regions (R344, R352, R974) -/

/-- The granules of a pool, one from each of its stacks in turn: consecutive granules lie on consecutive stacks (05 R226; R352). -/
def poolGranules (p : HeatPool) : List Nat := (List.range p.hbmCount).map (· + p.hbmFirst)

/-- The regions of a slot in HBM. -/
def HeatSlot.extents (h : HeatSlot) : List Extent := [h.records, h.acc, h.mask, h.recon, h.noise, h.staging]

/-- What the slots of a sector hold of each granule of its pool: offset and bytes (log entry 36). -/
def takenShares (s : State) (n : Nat) : List (Nat × Nat) :=
  (((s.heat.slots.filter (fun e => e.2.sector = n)).flatMap (fun e => e.2.extents)).filter (·.share ≠ 0)).map (fun e => (e.base, e.share))

/-- The free run of a granule from an offset on. -/
def freeRun (taken : List (Nat × Nat)) (base : Nat) : Nat :=
  if taken.any (fun t => t.1 ≤ base && base < t.1 + t.2) then 0
  else (taken.filter (fun t => base ≤ t.1)).foldl (fun m t => min m t.1) (2 ^ 30) - base

/-- Offsets at which a free run of a granule can begin. -/
def runStarts (taken : List (Nat × Nat)) : List Nat := 0 :: taken.map (fun t => t.1 + t.2)

/-- The lowest offset at which a share fits in each granule. -/
def firstFit (taken : List (Nat × Nat)) (share : Nat) : Option Nat :=
  ((runStarts taken).filter (fun b => share ≤ freeRun taken b)).foldl (fun m b => some (min b (m.getD b))) none

/-- The bytes of each of `g` granules that a region of `n` bytes takes: whole blocks of 256 bytes. -/
def shareOf (g n : Nat) : Nat := ceilDiv n (256 * g) * 256

/-- Regions placed one after the other, each at the lowest offset that has room; none when one has none. -/
def placeRegions (granules : List Nat) : List Nat → List (Nat × Nat) → Option (List Extent × List (Nat × Nat))
  | [], taken => some ([], taken)
  | n :: t, taken =>
    let share := shareOf granules.length n
    match firstFit taken share with
    | none => none
    | some b => (placeRegions granules t ((b, share) :: taken)).map (fun r => ({ granules := granules, base := b, share := share } :: r.1, r.2))

/-- The place of a bitmap of `n` bytes: the lowest lake granule with room, at the lowest free multiple of 4 KiB (R974). -/
def bitmapPlace (s : State) (p : HeatPool) (n : Nat) : Option Nat :=
  let taken := s.heat.slots.map (fun e => (e.2.bitmap, e.2.count))
  ((List.range p.lakeCount).flatMap (fun g => (List.range 512).map (fun i =>
    (0x080000000000 + (p.lakeFirst + g) * 2 ^ 21, i * 4096)))).findSome? (fun (base, off) =>
      if off + n ≤ 2 ^ 21 && !taken.any (fun t => t.2 ≠ 0 && overlaps t.1 t.2 (base + off) n) then some (base + off) else none)

/-- A region overwritten with zeros. -/
def zeroExtent (e : Extent) (s : State) : State := e.granules.foldl (fun s g => zeroFill s (g * 2 ^ 30 + e.base) e.share) s

/-- The regions of a slot carved from its sector's pool, zero-filled, with the noise table on the lead (R344, R366; log entry
36). -/
def carve (h : HeatSlot) (lead : Bool) (s : State) : Option (HeatSlot × State) :=
  match Table.find s.heat.pools h.sector with
  | none => none
  | some p =>
    let gs := poolGranules p
    let sizes := [128 * h.count, h.v, h.v, 32 * h.count * (h.degree + 2)] ++ (if lead then [16 * (tailBound h.sigma + 1) + h.v] else [])
    match bitmapPlace s p h.count, if gs = [] then none else placeRegions gs sizes (takenShares s h.sector) with
    | some b, some (es, taken) =>
      let room := (runStarts taken).foldl (fun m o => max m (freeRun taken o)) 0
      let cap := rfield s .heatConfig2 0 32 16 * 2 ^ 30 / (256 * gs.length) * 256
      let share := max (shareOf gs.length (16 * h.v)) (min (room / 256 * 256) cap)
      match firstFit taken share with
      | none => none
      | some o =>
        let h := { h with records := es.getD 0 {}, acc := es.getD 1 {}, mask := es.getD 2 {}, recon := es.getD 3 {}, noise := es.getD 4 {}, staging := { granules := gs, base := o, share := share }, bitmap := b }
        let s := h.extents.foldl (fun s e => zeroExtent e s) s
        let s := zeroFill s b (ceilDiv h.count 64 * 64)
        let s := if lead && h.sigma ≠ 0 then
            ((noiseTable h.sigma).zip (List.range (tailBound h.sigma + 1))).foldl (fun s e => poke s (h.tableAddr e.2) (leBytes 16 e.1)) s
          else s
        some (h, s)
    | _, _ => none

/-- A slot freed: keys and secrets are overwritten with zeros (R389). -/
def freeSlot (k : Nat) (s : State) : State :=
  let h := slotOf s k
  let s := zeroExtent h.recon (zeroExtent h.records s)
  freeEngines h.id { s with heat := { s.heat with slots := Table.drop s.heat.slots k } }

/-! ### System messages of heats (11 R571; 07 R376-R380) -/

/-- A shadow slot opened for a slot of the twin, in the lowest free slot and the pool of the same sector (R376). -/
def openShadow (h : HeatSlot) (s : State) : Option (Nat × State) :=
  match Table.firstFree s.heat.slots 0 64 with
  | none => none
  | some k =>
    (carve h.shared (h.role = 1) s).map (fun (g, s) =>
      (k, setSlot k { g with role := 2, phase := if h.phase = 9 then h.prior else h.phase } s))

/-- HEAT_OPEN completes: the statement is written and ENROL begins (06 R291, R296). -/
def endOpen (k serial : Nat) (s : State) : State :=
  let h := slotOf s k
  match hostWrite h.sector (h.p 160 8) h.result s with
  | .error st => finish serial st 0 0 (freeSlot k s)
  | .ok s => finish serial stOk k 3613 (heatPhase k 1 (changeSlot k (fun h => { h with result := [], opening := none }) s))

/-- A shadow after a whole copy of its stroke side. -/
def takeWhole (k : Nat) (h : HeatSlot) (im : SlotImage) (s : State) : State :=
  let s := setSlot k ((slotOf s k).adopt h) s
  let s := setSlot k { slotOf s k with nextHsn := h.nextHsn, committed := h.committed, staged := h.staged, shares := h.shares,
                                       reveals := h.reveals, tally := h.tally, msnApplied := h.msnSent, complete := [],
                                       checkpoint := h.checkpoint } s
  recount k (writeImage k im s)

/-- A heat message of another package, or an item of the twin. `faults` are met by its line operations. -/
def heatSys (faults : List LineFault) (m : SysMsg) (s : State) : State :=
  let twin := s.pair.twin
  match m with
  | .heat id home m =>
    match s.heat.slots.find? (fun e => e.2.id = id && e.2.self = home && e.2.role ≠ 2) with
    | some (k, _) => takeHeatMsg k m s
    | none => s
  | .shadowOpen h =>
    match (match shadowOf s h.id with | some k => some (k, s) | none => openShadow h s) with
    | some (_, s) => sysSend true twin (.shadowOpened h.id true) s
    | none => sysSend true twin (.shadowOpened h.id false) s
  | .shadowOpened id ok =>
    match s.heat.slots.find? (fun e => e.2.id = id && e.2.opening.isSome) with
    | none => s
    | some (k, h) =>
      let serial := h.opening.getD 0
      if ok then endOpen k serial (changeSlot k (fun h => { h with mirrored := true }) s)
      else finish serial stNoResource 0 0 (freeSlot k s)
  | .slotCopy h im =>
    match (match shadowOf s h.id with | some k => some (k, s) | none => openShadow h s) with
    | none => s
    | some (k, s) =>
      sysSend true twin (.copyDone h.id h.msnSent) (takeWhole k h im s)
  | .copyDone id msn =>
    { s with heat := { s.heat with slots := s.heat.slots.map (fun e =>
        if e.2.id = id && e.2.role ≠ 2 && e.2.mirrored then (e.1, { e.2 with copying := false, msnAcked := max e.2.msnAcked msn })
        else e) } }
  | .contribution id msn u typ frag data => shadowItem id msn (shadowContribution u typ frag data) s
  | .commit id msn hsn u => shadowItem id msn (fun k s => shadowCommit faults hsn u k s) s
  | .mirrorAck id msn =>
    { s with heat := { s.heat with slots := s.heat.slots.map (fun e =>
        if e.2.id = id && e.2.role ≠ 2 && e.2.mirrored then (e.1, { e.2 with msnAcked := max e.2.msnAcked msn }) else e) } }
  | .slotState h =>
    match shadowOf s h.id with
    | none => s
    | some k => setSlot k ((slotOf s k).adopt h) s
  | .treeCopy id tree child chunk bs =>
    match shadowOf s id with
    | none => s
    | some k => treeChunk faults k tree child chunk bs s
  | .checkpoint id stroke im =>
    match shadowOf s id with
    | none => s
    | some k =>
      let s := recount k (writeImage k im s)
      sysSend true twin (.checkpointAck id stroke) (changeSlot k (fun h => { h with checkpoint := stroke, staged := [] }) s)
  | .checkpointAck id stroke =>
    { s with heat := { s.heat with slots := s.heat.slots.map (fun e =>
        if e.2.id = id && e.2.role ≠ 2 && e.2.checkpoint = stroke then (e.1, { e.2 with checkpointAcked := true }) else e) } }
  | _ => s

/-- A heat tree chunk that arrived as a packet (R374; 11 R596): added once and acknowledged; a parent that cannot add now has it
sent again. -/
def heatChunk (faults : List LineFault) (p : Packet) (s : State) : State :=
  let child := p.stream % 64
  let tree := p.stream / 64 % 2
  match s.heat.slots.find? (fun e => e.2.id % 2 ^ 25 = p.stream / 128 && e.2.role ≠ 2 && e.2.children.contains child) with
  | none => ackPacket p s
  | some (k, h) =>
    if (Table.getD h.received (2 * child + tree) []).contains p.chunk || h.phase = 8 || h.phase = 10 then ackPacket p s
    else if !h.works then refusePacket p stRetryBusy s
    else ackPacket p (treeChunk faults k tree child p.chunk p.payload s)

/-- ACCUM (11 R585, R596). -/
def execAccum (link : Nat) (faults : List LineFault) (s : State) : Out :=
  .next (heatRow s (packetRow link 4 [] (fun p s => if p.srcSector = 15 then heatChunk faults p s else accumPacket faults p s) s))

end Sys2Proof.Machine
end

