-- ==== Sys2Proof/Machine/HeatCmd.lean ====
section
/-! DEFINITION. The heat commands, HEAT_POOL_SET and RNG_RAW_MODE (chapter 06 of spec/, R294-R298; 07, R341, R344, R376, R392-R395;
08 R427-R432; 09 R486; 14 R741). -/
namespace Sys2Proof.Machine

/-- HEAT_POOL_SET (R341): the pool of a sector set, or released. Leaves that map it are no longer translatable (R343). -/
def heatPoolSetBody (c : Cmd) (s : State) : Body := do
  let hf := c.param 24 4
  let hc := c.param 28 4
  let lf := c.param 32 4
  let lc := c.param 36 4
  let n := c.param 40 1
  need (c.reserved [(41, 64)] && n < 8 && hc ≤ 512 && lc ≤ 128) stBadParam
  let wholly := fun (t : Table Nat) (lo count : Nat) => (List.range count).all (fun i => Table.find t (lo + i) = some n)
  need (hc = 0 || (hf + hc ≤ 512 && lf + lc ≤ 128 && wholly s.sct.hbm hf hc && wholly s.sct.lake lf lc)) stBadParam
  need (!heatsOpen s n) stBadState
  let pools := if hc = 0 then Table.drop s.heat.pools n
    else Table.put s.heat.pools n { hbmFirst := hf, hbmCount := hc, lakeFirst := lf, lakeCount := lc }
  let s := { s with heat := { s.heat with pools := pools } }
  .ok (.done stOk 0 0 (dropCopies (fun x => leafPooled s (if x.giant then 2 else 3) (pteAddr x.entry)) s))

def execHeatPoolSet (ring : Nat) (s : State) : Out := .next (beginCommand 0x0510 ring heatPoolSetBody s)

/-- Fields of HEAT_OPEN within their ranges (06, HEAT_OPEN parameters). -/
def openFields (c : Cmd) (h : HeatSlot) : Bool :=
  let pow2 := fun (n : Nat) => (List.range 9).any (fun i => n = 4096 * 2 ^ i)
  let common :=
    (c.param 32 1 < 64 || c.param 32 1 = 0xFF) && c.param 33 1 ≤ 1 && (h.width = 16 || h.width = 32 || h.width = 64)
    && h.mirror ≤ 2 && h.id ≠ 0 && 1 ≤ h.elements && h.elements ≤ 2 ^ 26 && h.degree % 2 = 0 && 16 ≤ h.degree && h.degree ≤ 512
    && h.degree / 2 + 1 ≤ h.threshold && h.threshold ≤ h.degree && pow2 h.fragBytes && 2 ≤ h.totalIndices
    && h.totalIndices ≤ 2 ^ 26 && 1 ≤ h.count && h.count ≤ 2 ^ 20 && 2 ≤ h.minSurvivors && h.minSurvivors ≤ h.totalIndices
    && h.sigma ≤ 2 ^ 28 && h.lead < 64 && c.param 160 8 % 4096 = 0 && c.reserved [(117, 120), (171, 176), (184, 256)]
  let mode := if h.tallied then
      12 ≤ h.logN && h.logN ≤ 17 && 1 ≤ h.limbs && h.limbs ≤ 64 && 1 ≤ h.outLimbs && h.outLimbs ≤ h.limbs
    else c.reserved [(168, 184)]
  common && mode

/-- The deadlines in their order (R294). -/
def openDeadlines (h : HeatSlot) (stroke : Nat) : Bool :=
  let d := h.deadline
  stroke < d 1
    && (if h.tallied then d 2 = d 1 && d 3 = d 1 && d 5 = d 4 && d 6 = d 4 && d 1 < d 4
        else d 1 < d 2 && d 2 < d 3 && d 3 < d 4 && d 4 < d 5 && d 5 < d 6)

/-- The committee key object of a tally: its bytes (06 R335). -/
def keyObjectBytes (h : HeatSlot) : Nat := 8 + 8 * h.limbs + 16 * h.limbs * 2 ^ h.logN

/-- Bytes 0 to 143 of the statement (06, Common part). -/
def commonPart (s : State) (h : HeatSlot) : List Byte :=
  be4 0x54474844 ++ beBytes 1 1 ++ beBytes 1 (bitNat h.tallied) ++ beBytes 1 h.width ++ beBytes 1 0 ++ h.idBytes ++ be4 h.elements
    ++ beBytes 2 h.degree ++ beBytes 2 h.threshold ++ be4 h.fragBytes ++ be4 h.totalIndices ++ be4 h.minSurvivors
    ++ be4 s.cad.periodUs ++ beBytes 8 s.cad.origin ++ (List.range 6).flatMap (fun i => beBytes 8 (h.deadline (i + 1)))
    ++ (if h.tallied then beBytes 1 h.logN ++ beBytes 1 h.limbs ++ beBytes 1 h.outLimbs else beBytes 3 0) ++ beBytes 5 0
    ++ (if h.tallied then padTo 32 h.keysetHash else beBytes 32 0) ++ be4 h.sigma ++ be4 0

/-- The home entry (06, Home entry). -/
def homeEntry (s : State) (h : HeatSlot) : List Byte :=
  beBytes 1 (pkgNumber s) ++ beBytes 3 0 ++ be4 h.first ++ be4 h.count ++ beBytes 20 0 ++ padTo 32 h.dPk

/-- The heat key statement, 3,613 bytes (R298), from values for its signatures. -/
def keyStatement (s : State) (h : HeatSlot) (draw : List Byte) : List Byte :=
  let msg := commonPart s h ++ homeEntry s h
  msg ++ heatSignatures s msg draw

/-- HEAT_OPEN (R294-R298, R344, R366, R376; 08 R430; 09 R486; 14 R741). Refusals come in the order BAD_PARAM, BAD_STATE, slot,
engine, key, pool (log entry 56). `faults` are met in reading the committee key object. -/
def heatOpenBody (faults : List LineFault) (c : Cmd) (s : State) : Body := do
  let n := c.ring / 64
  let me := pkgNumber s
  let h : HeatSlot := { params := c.bytes, sector := n, self := me, role := if c.param 116 1 = me then 1 else 0 }
  need (openFields c h && h.first + h.count ≤ h.totalIndices && openDeadlines h s.cad.stroke) stBadParam
  need (!h.tallied || ownsFree s n h.keyset (keyObjectBytes h)) stBadParam
  let object : Except Nat (List Byte) × State := if h.tallied then faultyRead faults h.keyset (keyObjectBytes h) s else (.ok [], s)
  match object with
  | (.error st, s) => .ok (.done st 0 0 s)
  | (.ok obj, s) => do
    let k := if h.tallied then specialCount s h else 0
    need (!h.tallied || (h.limbs + k ≤ 64 && tallyStore h k ≤ 40 * 2 ^ 20)) stBadParam
    need (!s.heat.slots.any (fun e => e.2.id = h.id && e.2.role ≠ 2 && e.2.self = me)) stBadState
    need (h.mirror = 0 || s.pair.state = .formed) stBadState
    need (!s.rng.raw) stBadState
    let want := c.param 32 1
    let slot := if want = 0xFF then Table.firstFree s.heat.slots 0 64
      else if (Table.find s.heat.slots want).isNone then some want else none
    match slot with
    | none => .error { status := stNoResource }
    | some i => do
      need (!h.tallied || (List.range 8).any (fun e => Table.find s.sct.engines e = some n && engineAvail s e)) stNoResource
      let key := Table.find s.sealing.opkeys h.handle
      need ((key.map (fun k => k.sectors.testBit n)).getD false) stKeyInvalid
      match carve h (h.role = 1) s with
      | none => .error { status := stNoResource }
      | some (h, opened) =>
        match internalBytes 0 64 s with
        | (none, w) => .ok (.later w)
        | (some secret, w) =>
          match internalBytes 5 80 w with
          | (none, w) => .ok (.later w)
          | (some draw, w) =>
            let moduli := (List.range h.limbs).map (fun i => fieldLE obj (8 + 8 * i) 8)
            let h := { h with dSk := secret.take 32, dPk := x25519Public (secret.take 32), krc := secret.drop 32 }
            let h := if h.tallied then { h with moduli := moduli, keysetHash := Config.sha256 obj } else h
            let h := { h with result := keyStatement s h draw, opening := some c.serial }
            let s := setSlot i h { opened with rng := w.rng, regs := w.regs }
            if h.mirror = 0 then
              match hostWrite n (h.p 160 8) h.result s with
              | .error st => .ok (.done st 0 0 (freeSlot i s))
              | .ok s => .ok (.done stOk i 3613 (heatPhase i 1 (changeSlot i (fun h => { h with result := [], opening := none }) s)))
            else .ok (.running (sysSend true s.pair.twin (.shadowOpen h) s))

def execHeatOpen (ring : Nat) (faults : List LineFault) (s : State) : Out :=
  .next (heatRow s (beginCommand 0x0501 ring (heatOpenBody faults) s))

/-- The slot that a heat command of a sector names: its own before a shadow (log entry 57). -/
def heatNamed (s : State) (n id : Nat) : Option (Nat × HeatSlot) :=
  let es := s.heat.slots.filter (fun e => e.2.id = id && e.2.sector = n)
  (es.find? (fun e => e.2.role ≠ 2)).orElse (fun _ => es.head?)

/-- Phases whose end has a verdict of the lead (06 R293, R339). -/
def hasVerdict (h : HeatSlot) (ph : Nat) : Bool := if h.tallied then ph = 1 || ph = 4 else ph = 1 || 4 ≤ ph

/-- HEAT_ADVANCE (R392). -/
def heatAdvanceBody (c : Cmd) (s : State) : Body := do
  need (c.reserved [(33, 40), (52, 64)]) stBadParam
  match heatNamed s (c.ring / 64) (c.param 24 8) with
  | none => .error { status := stBadState }
  | some (k, h) =>
    let ph := c.param 32 1
    need (h.leads && h.works && h.phase = ph && 1 ≤ ph && ph ≤ 6) stBadState
    let s := heatTell h (.advance ph) s
    if hasVerdict h ph then
      .ok (.running (endPhase k (setSlot k { h with advance := h.advance ++ [(c.serial, ph)] } s)))
    else .ok (.done stOk 0 0 (endPhase k s))

def execHeatAdvance (ring : Nat) (s : State) : Out := .next (heatRow s (beginCommand 0x0502 ring heatAdvanceBody s))

/-- HEAT_ABORT (R393). -/
def heatAbortBody (c : Cmd) (s : State) : Body := do
  need (c.reserved [(33, 40), (52, 64)]) stBadParam
  match heatNamed s (c.ring / 64) (c.param 24 8) with
  | none => .error { status := stBadState }
  | some (k, _) => .ok (.done stOk 0 0 (failHeat k s))

def execHeatAbort (ring : Nat) (s : State) : Out := .next (heatRow s (beginCommand 0x0503 ring heatAbortBody s))

/-- HEAT_QUERY (R394). -/
def heatQueryBody (c : Cmd) (s : State) : Body := do
  need (c.reserved [(33, 40), (52, 64)]) stBadParam
  match heatNamed s (c.ring / 64) (c.param 24 8) with
  | none => .error { status := stBadState }
  | some (k, h) =>
    .ok (.done stOk (h.phase + k * 2 ^ 4 + h.role * 2 ^ 10 + h.checkpoint % 2 ^ 52 * 2 ^ 12)
      (h.survivors + h.enrolled * 2 ^ 32) s)

def execHeatQuery (ring : Nat) (s : State) : Out := .next (beginCommand 0x0504 ring heatQueryBody s)

/-- HEAT_COLLECT (R395): the sealed result of a DONE heat from its lead; the slot is freed. -/
def heatCollectBody (c : Cmd) (s : State) : Body := do
  need (c.reserved [(33, 40), (52, 64)] && c.param 40 8 % 4096 = 0) stBadParam
  match heatNamed s (c.ring / 64) (c.param 24 8) with
  | none => .error { status := stBadState }
  | some (k, h) =>
    need (h.phase = 8 || h.phase = 10) stBadState
    if h.phase = 8 && h.leads then do
      need (h.result.length ≤ c.param 48 4) stBadParam
      match hostWrite (c.ring / 64) (c.param 40 8) h.result s with
      | .error st => .error { status := st }
      | .ok s => .ok (.done stOk h.result.length 0 (freeSlot k s))
    else .ok (.done stOk 0 0 (freeSlot k s))

/-- RNG_RAW_MODE (08 R427-R432): refused while a heat slot is open. -/
def execRngRawMode (ring : Nat) (s : State) : Out :=
  .next (beginCommand 0x0705 ring (rngRawModeBody (fun s => s.heat.slots ≠ [])) s)

end Sys2Proof.Machine
end

