-- ==== Sys2Proof/Machine/Seal.lean ====
section
/-! DEFINITION. Sealed mode: entering it, measurements, reports, operator keys, bounce windows, and the JTAG port (chapter 14 of
spec/). -/
namespace Sys2Proof.Machine

/-- Sealed mode's state replaced. -/
def setSealing (x : Seal) (s : State) : State := { s with sealing := x }

/-! ### Measurements and certificates (R713, R716) -/

/-- The configuration block, 16 bytes (14, The identity chain). -/
def configBlock (s : State) (sealed : Bool) : List Byte :=
  leBytes 4 (rget s .topPartId) ++ leBytes 4 (rget s .topStepping) ++ leBytes 1 (bitNat sealed)
    ++ leBytes 1 s.rst.straps.bootSel ++ leBytes 2 0 ++ leBytes 4 s.rst.svn

/-- A certificate chain in DER for this boot's keys: DeviceID, Alias, HeatSign (R716). -/
def chainOf (s : State) (ml : Bool) : List Byte :=
  Config.certChain ml (s.sealing.deviceHash ++ s.sealing.aliasEc ++ s.sealing.aliasMl ++ s.sealing.heatEc ++ s.sealing.heatMl
    ++ s.rst.mLoader ++ s.rst.mFw ++ s.sealing.mConfig ++ leBytes 4 s.rst.svn)

/-- Signatures of the Alias key, ECDSA and ML-DSA, with per-signature values drawn from instance 0x0005. -/
def aliasEcSign (s : State) (msg draw : List Byte) : List Byte :=
  padTo 96 (Config.ecdsaSign s.sealing.aliasEc msg (beNat draw))
def aliasMlSign (s : State) (msg draw : List Byte) : List Byte :=
  padTo 3309 (Config.mldsaSign s.sealing.aliasMl msg (beNat draw))

/-! ### The attestation report (R718) -/

/-- Identity of a die in the report. -/
def dieIdentity (s : State) (d : Nat) : List Byte :=
  let lot := s.top.lots.getD d 0
  let pos := s.top.poss.getD d 0
  leBytes 6 lot ++ leBytes 1 (bitsOf lot 48 2) ++ leBytes 1 (bitsOf pos 0 5) ++ leBytes 1 (bitsOf pos 8 8)
    ++ leBytes 1 (bitsOf pos 16 8) ++ leBytes 6 0

/-- The 384 bytes of the report body. -/
def reportBody (s : State) (nonce user : List Byte) : List Byte :=
  leBytes 4 0x52414754 ++ leBytes 2 1 ++ leBytes 2 384 ++ leBytes 4 (rget s .topPartId) ++ leBytes 4 (rget s .topStepping)
    ++ leBytes 8 s.top.serial ++ dieIdentity s 0 ++ dieIdentity s 1 ++ dieIdentity s 2
    ++ leBytes 1 (pkgNumber s) ++ leBytes 1 (bitNat s.sealing.sealed) ++ leBytes 1 (cadCode s.cad.state) ++ leBytes 1 0
    ++ leBytes 4 s.rst.svn ++ padTo 48 s.rst.mLoader ++ padTo 48 s.rst.mFw ++ padTo 48 s.sealing.mConfig
    ++ padTo 48 s.sealing.deviceHash ++ padTo 32 nonce ++ leBytes 8 s.cad.stroke ++ leBytes 4 s.top.gen ++ leBytes 4 0
    ++ padTo 48 user ++ leBytes 16 0

/-- A report of 3,789 bytes; none while instance 0x0005 waits for a seed (08 R421). -/
def makeReport (nonce user : List Byte) (s : State) : Option (List Byte) × State :=
  match internalBytes 5 80 s with
  | (none, s) => (none, s)
  | (some draw, s) =>
    let body := reportBody s nonce user
    (some (body ++ aliasEcSign s body (draw.take 48) ++ aliasMlSign s body (draw.drop 48)), s)

/-- The checks of ATTEST_REPORT; `vendor` when a VD_COMMAND carries it (14, statuses of sealing commands). -/
def attestChecks (vendor : Bool) (c : Cmd) (s : State) : Except Refuse Unit := do
  let dest := c.param 24 8
  need (c.reserved [(112, 128)] && dest % 4096 = 0 && (vendor || dest ≠ 0)) stBadParam
  need (dest = 0 || hostAllowed s (c.ring / 64) true dest 3789) stSealedForbids
  need (s.top.identBad = 0) stAttestFail

/-- ATTEST_REPORT (R718). -/
def attestReportBody (c : Cmd) (s : State) : Body := do
  attestChecks false c s
  match makeReport (sliceBytes c.bytes 32 32) (sliceBytes c.bytes 64 48) s with
  | (none, s) => .ok (.later s)
  | (some r, s) =>
    match hostWrite (c.ring / 64) (c.param 24 8) r s with
    | .error st => .ok (.done st 0 0 s)
    | .ok s => .ok (.done stOk r.length 0 s)

def execAttestReport (ring : Nat) (s : State) : Out := .next (beginCommand 0x0A01 ring attestReportBody s)

/-- CERT_READ (R716). -/
def certReadBody (c : Cmd) (s : State) : Body := do
  let n := c.ring / 64
  let dest := c.param 32 8
  let chain := chainOf s (c.param 24 1 = 1)
  need (c.param 24 1 ≤ 1 && dest % 4096 = 0 && c.reserved [(25, 32), (44, 64)]) stBadParam
  need (hostAllowed s n true dest chain.length) stSealedForbids
  need (chain.length ≤ c.param 40 4) stBadParam
  match hostWrite n dest chain s with
  | .error st => .ok (.done st 0 0 s)
  | .ok s => .ok (.done stOk chain.length 0 s)

def execCertRead (ring : Nat) (s : State) : Out := .next (beginCommand 0x0A14 ring certReadBody s)

/-! ### Bounce windows (R729, R735) -/

/-- The data and tag areas of a window. -/
def Window.areas (w : Window) : List (Nat × Nat) := [(w.dataBase, 4096 * w.slots), (w.tagBase, 32 * w.slots)]

/-- Whether two areas of a list, or an area and one of the other list, overlap. -/
def areasClash (a b : List (Nat × Nat)) : Bool := a.any (fun x => b.any (fun y => overlaps x.1 x.2 y.1 y.2))

/-- BOUNCE_WINDOW_ADD (R735). -/
def bounceAddBody (c : Cmd) (s : State) : Body := do
  let n := c.ring / 64
  let ss := sealOf s n
  let w : Window := { d2h := c.param 44 1 = 1, dataBase := c.param 24 8, tagBase := c.param 32 8, slots := c.param 40 4 }
  need (w.dataBase % 4096 = 0 && w.tagBase % 4096 = 0 && 1 ≤ w.slots && w.slots ≤ 65536 && c.param 44 1 ≤ 1
    && c.reserved [(45, 64)]) stBadParam
  need (!overlaps w.dataBase (4096 * w.slots) w.tagBase (32 * w.slots)
    && !ss.windows.any (fun e => areasClash w.areas e.2.areas)) stBadParam
  need (s.sealing.sealed && ss.h2d.isSome) stBadState
  match Table.firstFree ss.windows 0 16 with
  | none => .error { status := stNoResource }
  | some k =>
    need ((ss.windows.map (fun e => e.2.slots)).sum + w.slots ≤ 65536) stNoResource
    .ok (.done stOk k 0 (setSeal s n { ss with windows := Table.put ss.windows k w }))

def execBounceWindowAdd (ring : Nat) (s : State) : Out := .next (beginCommand 0x0A02 ring bounceAddBody s)

/-- Whether a ring of a sector that is not DISABLED lies in a window (R735). -/
def ringInWindow (s : State) (n : Nat) (w : Window) : Bool :=
  s.rings.table.any (fun e => e.1 / 64 = n && e.2.state ≠ .disabled && !e.2.hub
    && (overlaps w.dataBase (4096 * w.slots) e.2.sqBase (64 * e.2.sqSize)
      || overlaps w.dataBase (4096 * w.slots) e.2.cqBase (32 * e.2.cqSize)))

/-- BOUNCE_WINDOW_REMOVE (R735). -/
def bounceRemoveBody (c : Cmd) (s : State) : Body := do
  let n := c.ring / 64
  let ss := sealOf s n
  let k := c.param 24 1
  need (k ≤ 15 && c.reserved [(25, 64)]) stBadParam
  need (s.sealing.sealed && ss.h2d.isSome) stBadState
  match Table.find ss.windows k with
  | none => .error { status := stBadState }
  | some w =>
    need (!ringInWindow s n w) stBadState
    .ok (.done stOk 0 0 (setSeal s n { ss with windows := Table.drop ss.windows k }))

def execBounceWindowRemove (ring : Nat) (s : State) : Out := .next (beginCommand 0x0A10 ring bounceRemoveBody s)

/-! ### Operator keys (R740, R741) -/

/-- OPKEY_LOAD (R740): a key object of 1,281 bytes read from host memory. A handle that is loaded takes the new key (log
entry 66). -/
def opkeyLoadBody (key : HostRead) (c : Cmd) (s : State) : Body := do
  let n := c.ring / 64
  let handle := c.param 24 8
  need (handle ≠ 0 && c.param 40 8 % 4096 = 0 && c.reserved [(33, 40), (48, 64)]) stBadParam
  need (hostAllowed s n false (c.param 40 8) 1281) stSealedForbids
  match hostRead n (c.param 40 8) 1281 key s with
  | (.error st, s) => .ok (.done st 0 0 s)
  | (.ok bs, s) =>
    let k : OpKey := { sectors := c.param 32 1, point := bs.take 97, ek := bs.drop 97 }
    if !(Config.p384OnCurve k.point && Config.mlkemEkOk k.ek) then .ok (.done stBadParam 0 0 s)
    else if (Table.find s.sealing.opkeys handle).isNone && 64 ≤ s.sealing.opkeys.length then
      .ok (.done stNoResource 0 0 s)
    else .ok (.done stOk 0 0 (setSealing { s.sealing with opkeys := Table.put s.sealing.opkeys handle k } s))

def execOpkeyLoad (ring : Nat) (key : HostRead) (s : State) : Out :=
  .next (beginCommand 0x0A11 ring (opkeyLoadBody key) s)

/-- OPKEY_REMOVE (R741). -/
def opkeyRemoveBody (c : Cmd) (s : State) : Body := do
  let handle := c.param 24 8
  need (handle ≠ 0 && c.reserved [(32, 64)]) stBadParam
  need ((Table.find s.sealing.opkeys handle).isSome && !s.heat.slots.any (fun e => e.2.handle = handle)) stBadState
  .ok (.done stOk 0 0 (setSealing { s.sealing with opkeys := Table.drop s.sealing.opkeys handle } s))

def execOpkeyRemove (ring : Nat) (s : State) : Out := .next (beginCommand 0x0A12 ring opkeyRemoveBody s)

/-! ### SEAL_ARM (R701-R703) -/

/-- Near tier and lake zeroed by full-line writes. -/
def zeroNearLake (s : State) : State := zeroFill (zeroFill s 0 0x008000000000) 0x080000000000 0x10000000

/-- Every far range released, with its page tags. -/
def releaseFar (s : State) : State := { s with mem := { s.mem with far := [], pageTags := [] } }

/-- SEAL_ARM: its conditions (R701) and effects (R702). BAR4 and the performance wake queues stay closed while ARMED is set. -/
def sealArmBody (c : Cmd) (s : State) : Body := do
  need (c.reserved [(24, 64)]) stBadParam
  need (s.sct.sectors.all (fun e => e.1 = 0 || e.2.state = .undefined) && s.heat.slots = [] && !pairFormed s && !s.rng.raw
    && s.mover = [] && !s.sealing.sealed && !s.sealing.armed) stBadState
  need (s.top.identBad = 0) stAttestFail
  let s := { s with err := { s.err with slots := [] } }
  let s := releaseFar (zeroNearLake s)
  .ok (.done stOk 0 0 (setSealing { s.sealing with armed := true } s))

def execSealArm (ring : Nat) (s : State) : Out := .next (beginCommand 0x0A13 ring sealArmBody s)

/-! ### Sessions end (R724) -/

/-- The session of a sector ends: record keys, windows and counters are gone. -/
def endSession (n : Nat) (s : State) : State :=
  setSealing { s.sealing with sectors := Table.drop s.sealing.sectors n } s

/-! ### JTAG (R707) -/

/-- JTAG_ACCESS: IDCODE shifts out 32 bits of identification, BYPASS delays its input by one bit; any other instruction selects
BYPASS in sealed mode, and reads something the manual does not state when unsealed (log entry 67). -/
def execJtagAccess (ir : JtagIr) (dr : Nat) (s : State) : Out :=
  match ir with
  | .idcode => .next (emit (.jtag (Config.jtagIdcode % 2 ^ 32 + dr * 2 ^ 32)) s)
  | .bypass => .next (emit (.jtag (dr * 2)) s)
  | .other _ =>
    if s.sealing.sealed then .next (emit (.jtag (dr * 2)) s)
    else
      let (v, s) := drawFree s
      .next (emit (.jtag v) s)

end Sys2Proof.Machine
end

