-- ==== Sys2Proof/Machine/Spdm.lean ====
section
/-! DEFINITION. SPDM over MCTP and over the mailboxes, the hybrid exchange with ML-KEM, commands carried in vendor messages, and
IDE_KM (chapter 14 of spec/, R720-R728; 15 R772). Message layouts and the key schedule are those of DSP0274 1.3 and DSP0277, which
the manual names and does not repeat (log entry 64). -/
namespace Sys2Proof.Machine

/-! ### The connections -/

/-- A mailbox (0-8), or the MCTP endpoint (9 PCIe, 10 SMBus). -/
def mailboxOf (s : State) (p : Nat) : Mailbox := Table.getD s.sealing.mailboxes p {}

/-- A mailbox replaced. -/
def setMailbox (p : Nat) (m : Mailbox) (s : State) : State :=
  setSealing { s.sealing with mailboxes := Table.put s.sealing.mailboxes p m } s

/-- The sector whose session a mailbox makes (R723). -/
def mailboxSector (p : Nat) : Nat := p - 1

/-- The function that a mailbox serves (R722). -/
def mailboxFn (p : Nat) : Fn := if p = 0 then .pf else .vf (p - 1)

/-- The session made through a mailbox. -/
def sessionAt (s : State) (p : Nat) : Option Session :=
  if 9 ≤ p then none else ((sealOf s (mailboxSector p)).session).filter (fun x => x.mailbox = p)

/-- The session of a mailbox replaced. -/
def setSession (p : Nat) (x : Session) (s : State) : State :=
  let n := mailboxSector p
  setSeal s n { sealOf s n with session := some x }

/-! ### The key schedule -/

/-- BinConcat of the SPDM key schedule. -/
def binConcat (n : Nat) (label : String) (context : List Byte) : List Byte :=
  leBytes 2 n ++ ascii "spdm1.3 " ++ ascii label ++ context

/-- A secret derived under a label. -/
def derive (secret : List Byte) (n : Nat) (label : String) (context : List Byte) : List Byte :=
  hkdfExpand hmac384 secret (binConcat n label context) n

/-- SHA-384 as 48 bytes. -/
def hash384 (m : List Byte) : List Byte := padTo 48 (Config.sha384 m)

/-- Handshake secret of an exchange. -/
def handshakeSecret (z : List Byte) : List Byte := hmac384 (padTo 48 []) z

/-- Master secret of a handshake secret. -/
def masterSecret (hs : List Byte) : List Byte := hmac384 (derive hs 48 "derived" []) (padTo 48 [])

/-- Verify data under a direction's handshake secret. -/
def verifyData (secret th : List Byte) : List Byte := hmac384 (derive secret 48 "finished" []) th

/-- IV of a record with a sequence number. -/
def spdmIv (secret : List Byte) (n : Nat) : List Byte := xorBytes (derive secret 12 "iv" []) (leBytes 12 n)

/-- A message secured in a session's direction: session, length, ciphertext and tag. -/
def secureBytes (x : Session) (plain : List Byte) : List Byte :=
  let body := leBytes 2 plain.length ++ plain
  let head := leBytes 4 x.id ++ leBytes 2 (body.length + 16)
  head ++ padTo (body.length + 16) (Config.gcmSeal (derive x.rspSecret 32 "key" []) (spdmIv x.rspSecret x.rspCount) head body)

/-- A secured message opened: its plain message, or none when its tag fails. -/
def openSecured (x : Session) (raw : List Byte) : Option (List Byte) :=
  let n := fieldLE raw 4 2
  (Config.gcmOpen (derive x.reqSecret 32 "key" []) (spdmIv x.reqSecret x.reqCount) (raw.take 6) (sliceBytes raw 6 n)).map
    (fun b => sliceBytes b 2 (fieldLE b 0 2))

/-! ### Messages -/

/-- An ERROR response. -/
def spdmError (code data : Nat) : List Byte := leBytes 1 0x13 ++ leBytes 1 0x7F ++ leBytes 1 code ++ leBytes 1 data

/-- The start of a response. -/
def spdmHead (code p1 p2 : Nat) : List Byte := leBytes 1 0x13 ++ leBytes 1 code ++ leBytes 1 p1 ++ leBytes 1 p2

/-- Error codes. -/
abbrev errInvalid : Nat := 0x01
abbrev errUnexpected : Nat := 0x04
abbrev errDecrypt : Nat := 0x06
abbrev errUnsupported : Nat := 0x07
abbrev errSessionLimit : Nat := 0x0A
abbrev errSessionRequired : Nat := 0x0B
abbrev errLarge : Nat := 0x0F
abbrev errVersion : Nat := 0x41

/-- Code of a request. -/
def reqCode (m : List Byte) : Nat := fieldLE m 1 1

/-- StandardID, vendor and payload of a vendor-defined message. -/
def vendorOf (m : List Byte) : Nat × Nat × List Byte :=
  let idLen := fieldLE m 6 1
  (fieldLE m 4 2, fieldLE m 7 idLen, (m.drop (9 + idLen)).take (fieldLE m (7 + idLen) 2))

/-- A vendor-defined response of a vendor. -/
def vendorReply (vendor : Nat) (payload : List Byte) : List Byte :=
  spdmHead 0x7E 0 0 ++ leBytes 2 3 ++ leBytes 1 2 ++ leBytes 2 vendor ++ leBytes 2 payload.length ++ payload

/-- Requests that need no session, which MCTP answers too (R720). -/
def openCodes : List Nat := [0x81, 0x82, 0x83, 0x84, 0xE0, 0xE1, 0xE3]

/-- The other supported requests of the standard. -/
def sessionCodes : List Nat := [0xE4, 0xE5, 0xE8, 0xE9, 0xEC, 0x85, 0x86]

/-- Row that a message belongs to: its request code; 0x100 and VD_CODE for the vendor messages of the manual; 0x200 for IDE_KM; none
where it is not supported on its path. -/
def rowOf (p : Nat) (m : List Byte) : Option Nat :=
  let c := reqCode m
  if openCodes.contains c then some c
  else if 9 ≤ p then none
  else if sessionCodes.contains c then some c
  else if c = 0xFE then
    let (std, vendor, payload) := vendorOf m
    let v := fieldLE payload 0 1
    if std = 3 && vendor = 0x1E5B && 1 ≤ v && v ≤ 4 then some (0x100 + v)
    else if std = 3 && vendor = 1 && v = 0 then some 0x200
    else none
  else none

/-! ### Answers without a session -/

/-- What answers a request: its response, or none while the device waits for a seed; and the state. -/
abbrev Answer := Option (List Byte) × State

/-- GET_VERSION: version 1.3 alone; the negotiated state begins anew. -/
def answerVersion (p : Nat) (m : List Byte) (s : State) : Answer :=
  let r := leBytes 1 0x10 ++ leBytes 1 0x04 ++ leBytes 2 0 ++ leBytes 1 0 ++ leBytes 1 1 ++ leBytes 2 0x1300
  (some r, setMailbox p { mailboxOf s p with negotiated := 1, vca := m ++ r, certs := [], meas := [] } s)

/-- Capability flags (14, SPDM 1.3 as supported): CERT, CHAL, MEAS with signature, MEAS_FRESH, ENCRYPT, MAC, KEY_EX, HBEAT, KEY_UPD,
CHUNK. -/
def capabilityFlags : Nat := bitMask [1, 2, 4, 5, 6, 7, 9, 13, 14, 17]

/-- GET_CAPABILITIES. The response time exponent and the greatest message size are not stated: free values. -/
def answerCapabilities (p : Nat) (m : List Byte) (s : State) : Answer :=
  let b := mailboxOf s p
  if b.negotiated = 0 then (some (spdmError errUnexpected 0), s)
  else
    let (ct, s) := drawFree s
    let (size, s) := drawFree s
    let r := spdmHead 0x61 0 0 ++ leBytes 1 0 ++ leBytes 1 ct ++ leBytes 2 0 ++ leBytes 4 capabilityFlags ++ leBytes 4 16384
      ++ leBytes 4 size
    (some r, setMailbox p { b with negotiated := 2, vca := b.vca ++ m ++ r } s)

/-- The algorithm structures of a request answered: secp384r1 among DHE groups, AES-256-GCM among AEADs, the SPDM key schedule. -/
def chosenStructs : Nat → List Byte → List Byte
  | 0, _ => []
  | k + 1, t =>
    let typ := fieldLE t 0 1
    let pick := fieldLE t 2 2 &&& (if typ = 2 then 0x10 else if typ = 3 then 0x02 else if typ = 5 then 0x01 else 0)
    leBytes 1 typ ++ leBytes 1 0x20 ++ leBytes 2 pick ++ chosenStructs k (t.drop 4)

/-- NEGOTIATE_ALGORITHMS: DMTF measurements with SHA-384, ECDSA P-384, SHA-384. -/
def answerAlgorithms (p : Nat) (m : List Byte) (s : State) : Answer :=
  let b := mailboxOf s p
  if b.negotiated < 2 then (some (spdmError errUnexpected 0), s)
  else
    let n := fieldLE m 2 1
    let structs := chosenStructs n (m.drop (32 + 4 * (fieldLE m 28 1 + fieldLE m 29 1)))
    let r := spdmHead 0x63 n 0 ++ leBytes 2 (36 + structs.length) ++ leBytes 1 (fieldLE m 6 1 &&& 1)
      ++ leBytes 1 (fieldLE m 7 1 &&& 2) ++ leBytes 4 4 ++ leBytes 4 (fieldLE m 8 4 &&& 0x80) ++ leBytes 4 (fieldLE m 12 4 &&& 2)
      ++ leBytes 12 0 ++ leBytes 4 0 ++ structs
    (some r, setMailbox p { b with negotiated := 3, vca := b.vca ++ m ++ r } s)

/-- The certificate chain of slot 0, with its header (14, Certificate slots). -/
def slotChain (s : State) : List Byte :=
  let certs := chainOf s false
  leBytes 2 (52 + certs.length) ++ leBytes 2 0 ++ padTo 48 Config.rootHash ++ certs

/-- A message and its answer added to the transcript of certificates. -/
def noteCerts (p : Nat) (m r : List Byte) (s : State) : State :=
  let b := mailboxOf s p
  setMailbox p { b with certs := b.certs ++ m ++ r } s

/-- GET_DIGESTS. -/
def answerDigests (p : Nat) (m : List Byte) (s : State) : Answer :=
  let r := spdmHead 0x01 1 1 ++ hash384 (slotChain s)
  (some r, noteCerts p m r s)

/-- GET_CERTIFICATE of slot 0. -/
def answerCertificate (p : Nat) (m : List Byte) (s : State) : Answer :=
  let chain := slotChain s
  let off := fieldLE m 4 2
  if fieldLE m 2 1 % 16 ≠ 0 || chain.length ≤ off then (some (spdmError errInvalid 0), s)
  else
    let part := (chain.drop off).take (min (fieldLE m 6 2) (16384 - 64))
    let r := spdmHead 0x02 0 0 ++ leBytes 2 part.length ++ leBytes 2 (chain.length - off - part.length) ++ part
    (some r, noteCerts p m r s)

/-- The measurement blocks (R721): index, specification, size, value type, value size, value. -/
def measureBlock (i : Nat) (typ : Nat) (v : List Byte) : List Byte :=
  leBytes 1 i ++ leBytes 1 1 ++ leBytes 2 (3 + v.length) ++ leBytes 1 typ ++ leBytes 2 v.length ++ v
def measureBlocks (s : State) : List (List Byte) :=
  [measureBlock 1 1 (padTo 48 s.rst.mLoader), measureBlock 2 1 (padTo 48 s.rst.mFw), measureBlock 3 3 (padTo 48 s.sealing.mConfig),
   measureBlock 4 0x83 (configBlock s s.sealing.sealed)]

/-- The measurement summary hash of a request: nothing for type 0. -/
def summaryHash (s : State) (typ : Nat) : List Byte := if typ = 0 then [] else hash384 (measureBlocks s).flatten

/-- What is signed for a transcript: the version string four times, the context padded to 36 bytes, the hash. -/
def signedMessage (context : String) (transcript : List Byte) : List Byte :=
  let c := ascii context
  let v := ascii "dmtf-spdm-v1.3.*"
  v ++ v ++ v ++ v ++ List.replicate (36 - c.length) 0 ++ c ++ hash384 transcript

/-- CHALLENGE of slot 0. -/
def answerChallenge (p : Nat) (m : List Byte) (s : State) : Answer :=
  let b := mailboxOf s p
  if b.negotiated < 3 then (some (spdmError errUnexpected 0), s)
  else if fieldLE m 2 1 ≠ 0 then (some (spdmError errInvalid 0), s)
  else
    match internalBytes 5 80 s with
    | (none, s) => (none, s)
    | (some draw, s) =>
      let r := spdmHead 0x03 0 1 ++ hash384 (slotChain s) ++ draw.take 32 ++ summaryHash s (fieldLE m 3 1) ++ leBytes 2 0
        ++ sliceBytes m 36 8
      let sig := aliasEcSign s (signedMessage "responder-challenge_auth signing" (b.vca ++ b.certs ++ m ++ r)) (draw.drop 32)
      (some (r ++ sig), setMailbox p { b with certs := [] } s)

/-- GET_MEASUREMENTS (R721): the number of blocks, one block, or all of them, signed on request. -/
def answerMeasurements (p : Nat) (m : List Byte) (s : State) : Answer :=
  let b := mailboxOf s p
  let op := fieldLE m 3 1
  let sign := (fieldLE m 2 1).testBit 0
  let blocks := measureBlocks s
  if b.negotiated < 3 then (some (spdmError errUnexpected 0), s)
  else if (4 < op && op ≠ 0xFF) || (sign && fieldLE m 36 1 % 16 ≠ 0) then (some (spdmError errInvalid 0), s)
  else
    let chosen := if op = 0 then [] else if op = 0xFF then blocks else (blocks.drop (op - 1)).take 1
    match internalBytes 5 80 s with
    | (none, s) => (none, s)
    | (some draw, s) =>
      let r := spdmHead 0x60 (if op = 0 then 4 else 0) 0 ++ leBytes 1 chosen.length ++ leBytes 3 chosen.flatten.length
        ++ chosen.flatten ++ draw.take 32 ++ leBytes 2 0 ++ sliceBytes m (if sign then 37 else 4) 8
      if sign then
        let sig := aliasEcSign s (signedMessage "responder-measurements signing" (b.vca ++ b.meas ++ m ++ r)) (draw.drop 32)
        (some (r ++ sig), setMailbox p { b with meas := [] } s)
      else (some r, setMailbox p { b with meas := b.meas ++ m ++ r } s)

/-! ### Sessions (R723, R724) -/

/-- KEY_EXCHANGE (R723): a session of the mailbox's sector, unless the sector has one. -/
def answerKeyExchange (p : Nat) (m : List Byte) (s : State) : Answer :=
  let b := mailboxOf s p
  let n := mailboxSector p
  if (sealOf s n).session.isSome then (some (spdmError errSessionLimit 0), s)
  else if b.negotiated < 3 then (some (spdmError errUnexpected 0), s)
  else if fieldLE m 3 1 ≠ 0 || !Config.p384OnCurve (leBytes 1 4 ++ sliceBytes m 40 96) then (some (spdmError errInvalid 0), s)
  else
    match internalBytes 5 128 s with
    | (none, s) => (none, s)
    | (some draw, s) =>
      let eph := draw.take 48
      let (beat, s) := drawFree s
      let (rspId, s) := drawFree s
      let r := spdmHead 0x64 beat 0 ++ leBytes 2 rspId ++ leBytes 1 0 ++ leBytes 1 0 ++ sliceBytes draw 48 32
        ++ (padTo 97 (Config.p384Public eph)).drop 1 ++ summaryHash s (fieldLE m 2 1) ++ leBytes 2 0
      let before := b.vca ++ hash384 (slotChain s) ++ m ++ r
      let r := r ++ aliasEcSign s (signedMessage "responder-key_exchange_rsp signing" before) (draw.drop 80)
      let th1 := hash384 (b.vca ++ hash384 (slotChain s) ++ m ++ r)
      let hs := handshakeSecret (Config.p384Ecdh eph (leBytes 1 4 ++ sliceBytes m 40 96))
      let rsp := derive hs 48 "rsp hs data" th1
      let r := r ++ verifyData rsp th1
      let x : Session := { mailbox := p, id := fieldLE m 4 2 + rspId % 65536 * 65536, handshake := hs,
                           transcript := b.vca ++ hash384 (slotChain s) ++ m ++ r, reqSecret := derive hs 48 "req hs data" th1,
                           rspSecret := rsp }
      (some r, setSession p x s)

/-- FINISH: the application keys follow when the requester's verify data is right. -/
def answerFinish (p : Nat) (x : Session) (m : List Byte) (s : State) : Answer :=
  if x.finished then (some (spdmError errUnexpected 0), s)
  else if sliceBytes m 4 48 ≠ verifyData x.reqSecret (hash384 (x.transcript ++ m.take 4)) then
    (some (spdmError errDecrypt 0), s)
  else
    let r := spdmHead 0x65 0 0
    let th2 := hash384 (x.transcript ++ m ++ r)
    let ms := masterSecret x.handshake
    (some r, setSession p { x with finished := true, th := th2, reqSecret := derive ms 48 "req app data" th2,
                                   rspSecret := derive ms 48 "rsp app data" th2, reqCount := 0, rspCount := 0,
                                   exportMaster := derive ms 48 "exp master" th2 } s)

/-- HEARTBEAT. -/
def answerHeartbeat (s : State) : Answer := (some (spdmHead 0x68 0 0), s)

/-- KEY_UPDATE: the requester's key, or both, move on; VerifyNewKey changes nothing. -/
def answerKeyUpdate (p : Nat) (x : Session) (m : List Byte) (s : State) : Answer :=
  let op := fieldLE m 2 1
  let next := fun (k : List Byte) => derive k 48 "traffic upd" []
  let r := spdmHead 0x69 op (fieldLE m 3 1)
  if op = 1 then (some r, setSession p { x with reqSecret := next x.reqSecret, reqCount := 0 } s)
  else if op = 2 then
    (some r, setSession p { x with reqSecret := next x.reqSecret, reqCount := 0, rspSecret := next x.rspSecret, rspCount := 0 } s)
  else if op = 3 then (some r, s)
  else (some (spdmError errInvalid 0), s)

/-- END_SESSION (R724): refused while a ring of the sector is not DISABLED. -/
def answerEndSession (p : Nat) (s : State) : Answer :=
  let n := mailboxSector p
  if s.rings.table.any (fun e => e.1 / 64 = n && e.2.state ≠ .disabled) then (some (spdmError errUnexpected 0), s)
  else (some (spdmHead 0x6C 0 0), endSession n s)

/-! ### Vendor messages (R725-R728; 15 R772) -/

/-- KEM_KEY_GET (R725): a fresh ML-KEM key, once in a session. -/
def answerKemKey (p : Nat) (x : Session) (s : State) : Answer :=
  if x.kemSeed.isSome then (some (spdmError errUnexpected 0), s)
  else
    match internalBytes 5 96 s with
    | (none, s) => (none, s)
    | (some draw, s) =>
      let ek := padTo 1184 (Config.mlkemKeys (draw.take 64)).1
      let sig := aliasMlSign s (ascii "TGSL kem" ++ x.th ++ ek) (draw.drop 64)
      (some (vendorReply 0x1E5B (leBytes 1 1 ++ ek ++ sig)), setSession p { x with kemSeed := some (draw.take 64) } s)

/-- KEM_CIPHER (R727): the record keys of the session's sector. -/
def answerKemCipher (p : Nat) (x : Session) (body : List Byte) (s : State) : Answer :=
  match x.kemSeed with
  | none => (some (spdmError errUnexpected 0), s)
  | some seed =>
    if x.kemDone then (some (spdmError errUnexpected 0), s)
    else if body.length ≠ 1088 then (some (spdmError errInvalid 0), s)
    else
      let n := mailboxSector p
      let ss := Config.mlkemDecaps (Config.mlkemKeys seed).2 body
      let master := hmac384 ss x.exportMaster
      let key := fun (d : String) => hkdfExpand hmac384 master (ascii "TGSL rec " ++ ascii d ++ leBytes 1 n) 36
      let s := setSeal s n { sealOf s n with session := some { x with kemDone := true }, h2d := some (key "h2d"),
                                             d2h := some (key "d2h"), nextCounter := 1 }
      (some (vendorReply 0x1E5B [2, 0]), s)

/-- The body of a class 0x0A command that a VD_COMMAND carries. -/
def vendorBody (data : HostRead) (c : Cmd) (s : State) : Body :=
  if c.opcode = 0x0A01 then attestReportBody c s
  else if c.opcode = 0x0A02 then bounceAddBody c s
  else if c.opcode = 0x0A10 then bounceRemoveBody c s
  else if c.opcode = 0x0A11 then opkeyLoadBody data c s
  else if c.opcode = 0x0A12 then opkeyRemoveBody c s
  else if c.opcode = 0x0A13 then sealArmBody c s
  else certReadBody c s

/-- The completion of a VD_COMMAND and what follows it. Its PHASE is not stated: a free value. -/
def vendorDone (c : Cmd) (status r0 r1 : Nat) (more : List Byte) (s : State) : Answer :=
  let (ph, s) := drawFree s
  (some (vendorReply 0x1E5B (leBytes 1 3 ++ completionBytes c.tag status r0 r1 s.cad.stroke (ph % 2 = 1) false ++ more)), s)

/-- A VD_COMMAND (R728): as if submitted on a ring of the session's sector. It waits for its not-before stroke, for the cadence
when LOCKSTEP, and for a seed. -/
def answerVendorCommand (p : Nat) (data : HostRead) (body : List Byte) (s : State) : Answer :=
  let n := mailboxSector p
  let len := fieldLE body 3 1
  let c : Cmd := { ring := n * 64, bytes := padTo (64 * min 8 (max 1 len)) body, fn := mailboxFn p }
  if body.length < 64 || 512 < body.length then (some (spdmError errInvalid 0), s)
  else if c.opcode / 256 ≠ 0x0A then vendorDone c stNotPermitted 0 0 [] s
  else if len = 0 || 8 < len || body.length < 64 * len then vendorDone c stBadLength 3 0 [] s
  else
    match headerCheck (n * 64) 2 c s with
    | some (st, off) => vendorDone c st off 0 [] s
    | none =>
      if s.cad.stroke < c.notBefore || (c.lockstep && s.cad.state = .adrift) then (none, s)
      else
        match commandGate s c.opcode with
        | some st => vendorDone c st 0 0 [] s
        | none =>
          if c.opcode = 0x0A01 && c.param 24 8 = 0 then
            match attestChecks true c s with
            | .error e => vendorDone c e.status e.r0 e.r1 [] s
            | .ok _ =>
              match makeReport (sliceBytes c.bytes 32 32) (sliceBytes c.bytes 64 48) s with
              | (none, s) => (none, s)
              | (some r, s) => vendorDone c stOk r.length 0 r s
          else
            match vendorBody data c s with
            | .error e => vendorDone c e.status e.r0 e.r1 [] s
            | .ok (.done st r0 r1 s) => vendorDone c st r0 r1 [] s
            | .ok (.running s) => (none, s)
            | .ok (.later s) => (none, s)

/-- MLDSA_CERT_GET: bytes of the ML-DSA chain. -/
def answerMldsa (body : List Byte) (s : State) : Answer :=
  (some (vendorReply 0x1E5B (leBytes 1 4 ++ ((chainOf s true).drop (fieldLE body 0 4)).take (fieldLE body 4 2))), s)

/-- IDE_KM (15 R772): keys of a stream set, started and stopped, in the session of mailbox 0; a QUERY is answered with free
values. -/
def answerIde (payload : List Byte) (s : State) : Answer :=
  let obj := fieldLE payload 1 1
  let stream := fieldLE payload 4 1 * 256 + fieldLE payload 6 1
  let answer := fun (o : Nat) => vendorReply 1 (leBytes 1 0 ++ leBytes 1 o ++ leBytes 2 0 ++ sliceBytes payload 4 4)
  if obj = 0 then
    let (v, s) := drawFree s
    (some (vendorReply 1 (leBytes 1 0 ++ leBytes 1 1 ++ leBytes 64 v)), s)
  else if obj = 2 then
    (some (answer 3), { s with pci := { s.pci with ide := Table.put s.pci.ide stream (sliceBytes payload 8 40) } })
  else if obj = 4 then (some (answer 6), s)
  else if obj = 5 then (some (answer 6), { s with pci := { s.pci with ide := Table.drop s.pci.ide stream } })
  else (some (spdmError errInvalid 0), s)

/-! ### One request -/

/-- The answer to a request that needs a session that has finished; `f` gives it. -/
def inSession (x : Option Session) (f : Session → Answer) (s : State) : Answer :=
  match x with
  | none => (some (spdmError errSessionRequired 0), s)
  | some x => if x.finished then f x else (some (spdmError errUnexpected 0), s)

/-- The answer to a request of a row, except the chunk messages; `x` is the session that secured it. -/
def answerOne (p row : Nat) (x : Option Session) (data : HostRead) (m : List Byte) (s : State) : Answer :=
  let payload := (vendorOf m).2.2
  if row = 0x84 then (if x.isSome then (some (spdmError errUnexpected 0), s) else answerVersion p m s)
  else if fieldLE m 0 1 ≠ 0x13 then (some (spdmError errVersion 0), s)
  else if (x.map (fun y => !y.finished)).getD false && row ≠ 0xE5 then (some (spdmError errUnexpected 0), s)
  else if x.isSome && [0x83, 0xE1, 0xE3].contains row then (some (spdmError errUnexpected 0), s)
  else if row = 0xE1 then answerCapabilities p m s
  else if row = 0xE3 then answerAlgorithms p m s
  else if row = 0x81 then answerDigests p m s
  else if row = 0x82 then answerCertificate p m s
  else if row = 0x83 then answerChallenge p m s
  else if row = 0xE0 then answerMeasurements p m s
  else if row = 0xE4 then answerKeyExchange p m s
  else if row = 0xE5 then
    match x with
    | none => (some (spdmError errSessionRequired 0), s)
    | some x => answerFinish p x m s
  else if row = 0xE8 then inSession x (fun _ => answerHeartbeat s) s
  else if row = 0xE9 then inSession x (fun x => answerKeyUpdate p x m s) s
  else if row = 0xEC then inSession x (fun _ => answerEndSession p s) s
  else if row = 0x101 then inSession x (fun x => answerKemKey p x s) s
  else if row = 0x102 then inSession x (fun x => answerKemCipher p x (payload.drop 1) s) s
  else if row = 0x103 then
    inSession x (fun x => if x.kemDone then answerVendorCommand p data (payload.drop 1) s
      else (some (spdmError errUnexpected 0), s)) s
  else if row = 0x104 then answerMldsa (payload.drop 1) s
  else if row = 0x200 then
    inSession x (fun _ => if p = 0 then answerIde payload s else (some (spdmError errUnsupported 0xFE), s)) s
  else (some (spdmError errUnsupported (reqCode m)), s)

/-! ### Chunks -/

/-- Bytes of a response that fit the 16 KiB response buffer, secured or not. -/
def room (secured : Bool) : Nat := if secured then 16384 - 24 else 16384

/-- CHUNK_SEND: a piece of a large request; the last one carries the answer to the whole. -/
def answerChunkSend (p : Nat) (x : Option Session) (data : HostRead) (m : List Byte) (s : State) : Answer :=
  let b := mailboxOf s p
  let seq := fieldLE m 4 2
  let off := if seq = 0 then 16 else 12
  let whole := (if seq = 0 then [] else b.chunkIn) ++ sliceBytes m off (fieldLE m 8 4)
  let ack := spdmHead 0x05 0 (fieldLE m 3 1) ++ leBytes 2 seq
  if fieldLE m 0 1 ≠ 0x13 then (some (spdmError errVersion 0), s)
  else if (fieldLE m 2 1).testBit 0 then
    let r := match rowOf p whole with
      | none => (some (spdmError errUnsupported (reqCode whole)), s)
      | some row =>
        if row = 0x85 || row = 0x86 then (some (spdmError errUnexpected 0), s) else answerOne p row x data whole s
    match r with
    | (none, s) => (none, s)
    | (some r, s) => (some (ack ++ r), setMailbox p { mailboxOf s p with chunkIn := [] } s)
  else (some ack, setMailbox p { b with chunkIn := whole } s)

/-- CHUNK_GET: a piece of the large response that is held. -/
def answerChunkGet (p : Nat) (x : Option Session) (m : List Byte) (s : State) : Answer :=
  let b := mailboxOf s p
  let seq := fieldLE m 4 2
  let each := room x.isSome - 12
  let off := if seq = 0 then 0 else seq * each - 4
  let part := (b.chunkOut.drop off).take (if seq = 0 then each - 4 else each)
  let last := b.chunkOut.length ≤ off + part.length
  if fieldLE m 0 1 ≠ 0x13 then (some (spdmError errVersion 0), s)
  else if part = [] || fieldLE m 3 1 ≠ b.handle then (some (spdmError errInvalid 0), s)
  else
    let r := spdmHead 0x06 (bitNat last) b.handle ++ leBytes 2 seq ++ leBytes 2 0 ++ leBytes 4 part.length
      ++ (if seq = 0 then leBytes 4 b.chunkOut.length else []) ++ part
    (some r, if last then setMailbox p { b with chunkOut := [] } s else s)

/-! ### A request handled -/

/-- Whether the endpoint of a path answers: the device is booted, and a mailbox has GO set. -/
def endpointReady (s : State) (p : Nat) : Bool :=
  s.rst.bootDone && !s.rst.halted && p ≤ 10 && (9 ≤ p || (rget s .sealMboxCtrl p).testBit 0)

/-- A response placed: in the mailbox, with RESP_LEN, DONE and GO, or sent over MCTP (R722). -/
def placeResponse (p : Nat) (r : List Byte) (s : State) : State :=
  if 9 ≤ p then emit (.mctp p r) s
  else
    let v := rget s .sealMboxCtrl p
    let v := setBits (setBits (setBits v 0 1 0) 1 1 1) 32 15 r.length
    rput (setMailbox p { mailboxOf s p with resp := r, busy := false } s) .sealMboxCtrl p 0 v

/-- A response secured in a session, and the record counted. -/
def secureResponse (p : Nat) (x : Session) (r : List Byte) (s : State) : List Byte × State :=
  let s := match sessionAt s p with
    | some y => if y.rspSecret = x.rspSecret then setSession p { y with rspCount := y.rspCount + 1 } s else s
    | none => s
  (secureBytes x r, s)

/-- A response too large for the buffer kept for CHUNK_GET. -/
def largeResponse (p : Nat) (secured : Bool) (r : List Byte) (s : State) : List Byte × State :=
  if r.length ≤ room secured || 9 ≤ p then (r, s)
  else
    let b := mailboxOf s p
    let h := (b.handle + 1) % 256
    (spdmError errLarge 0 ++ leBytes 1 h, setMailbox p { b with chunkOut := r, handle := h } s)

/-- The request of a path handled when it is one of the row's, or when it is none that the device supports (R720, R722). A message
that begins with the identifier of the mailbox's session is secured. -/
def spdmRow (row p : Nat) (req : List Byte) (data : HostRead) (s : State) : State :=
  if !endpointReady s p then s
  else
    let raw := if 9 ≤ p then req else padTo (bitsOf (rget s .sealMboxCtrl p) 16 15) (mailboxOf s p).req
    let x := (sessionAt s p).filter (fun y => fieldLE raw 0 4 = y.id && 4 ≤ raw.length)
    match match x with | none => some raw | some y => openSecured y raw with
    | none => placeResponse p (spdmError errDecrypt 0) s
    | some m =>
      if (rowOf p m).getD row ≠ row then s
      else
        let s1 := match x with | none => s | some y => setSession p { y with reqCount := y.reqCount + 1 } s
        let y := x.map (fun y => { y with reqCount := y.reqCount + 1 })
        let a := match rowOf p m with
          | none => (some (spdmError errUnsupported (reqCode m)), s1)
          | some 0x85 => answerChunkSend p y data m s1
          | some 0x86 => answerChunkGet p y m s1
          | some k => answerOne p k y data m s1
        match a with
        | (none, s2) => { s with rng := s2.rng, regs := s2.regs }
        | (some r, s2) =>
          match y with
          | none =>
            let (r, s2) := largeResponse p false r s2
            placeResponse p r s2
          | some y =>
            let (r, s2) := largeResponse p true r s2
            let now := if row = 0xE5 || row = 0xEC then y else (sessionAt s2 p).getD y
            let (r, s2) := secureResponse p now r s2
            placeResponse p r s2

def execGetVersion (path : Nat) (req : List Byte) (s : State) : Out := .next (spdmRow 0x84 path req .error s)
def execGetCapabilities (path : Nat) (req : List Byte) (s : State) : Out := .next (spdmRow 0xE1 path req .error s)
def execNegotiateAlgorithms (path : Nat) (req : List Byte) (s : State) : Out := .next (spdmRow 0xE3 path req .error s)
def execGetDigests (path : Nat) (req : List Byte) (s : State) : Out := .next (spdmRow 0x81 path req .error s)
def execGetCertificate (path : Nat) (req : List Byte) (s : State) : Out := .next (spdmRow 0x82 path req .error s)
def execChallenge (path : Nat) (req : List Byte) (s : State) : Out := .next (spdmRow 0x83 path req .error s)
def execGetMeasurements (path : Nat) (req : List Byte) (s : State) : Out := .next (spdmRow 0xE0 path req .error s)
def execKeyExchange (path : Nat) (req : List Byte) (s : State) : Out := .next (spdmRow 0xE4 path req .error s)
def execFinish (path : Nat) (req : List Byte) (s : State) : Out := .next (spdmRow 0xE5 path req .error s)
def execSpdmHeartbeat (path : Nat) (req : List Byte) (s : State) : Out := .next (spdmRow 0xE8 path req .error s)
def execKeyUpdate (path : Nat) (req : List Byte) (s : State) : Out := .next (spdmRow 0xE9 path req .error s)
def execEndSession (path : Nat) (req : List Byte) (s : State) : Out := .next (spdmRow 0xEC path req .error s)
def execChunkSend (path : Nat) (req : List Byte) (data : HostRead) (s : State) : Out := .next (spdmRow 0x85 path req data s)
def execChunkGet (path : Nat) (req : List Byte) (s : State) : Out := .next (spdmRow 0x86 path req .error s)
def execKemKeyGet (path : Nat) (req : List Byte) (s : State) : Out := .next (spdmRow 0x101 path req .error s)
def execKemCipher (path : Nat) (req : List Byte) (s : State) : Out := .next (spdmRow 0x102 path req .error s)
def execVdCommand (path : Nat) (req : List Byte) (data : HostRead) (s : State) : Out := .next (spdmRow 0x103 path req data s)
def execMldsaCertGet (path : Nat) (req : List Byte) (s : State) : Out := .next (spdmRow 0x104 path req .error s)
def execIdeKm (path : Nat) (req : List Byte) (s : State) : Out := .next (spdmRow 0x200 path req .error s)

end Sys2Proof.Machine
end

