-- ==== Sys2Proof/Machine/Ports.lean ====
section
/-! DEFINITION. The Ethernet ports, MSI-X unmasking, the host link and the CXL expanders' events (chapter 15 of spec/). -/
namespace Sys2Proof.Machine

/-! ### Ethernet ports (R779-R793) -/

/-- An Ethernet port replaced. -/
def setEth (e : Nat) (p : EthPort) (s : State) : State := { s with eth := Table.put s.eth e p }

/-- A PFC frame sent for a class, and counted. -/
def sendPfc (e sub cls quanta : Nat) (s : State) : State := bump (emit (.pfc e sub cls quanta) s) .ethPfcSent e

/-- Fields of ETH.PORT_CFGe, in bytes for the thresholds. -/
def losslessClass (s : State) (e cls : Nat) : Bool := (rget s .ethPortCfg e).testBit (4 + cls)
def limitBytes (s : State) (e : Nat) : Nat := rfield s .ethPortCfg e 12 12 * 1024
def xoffBytes (s : State) (e : Nat) : Nat := rfield s .ethPortCfg e 24 12 * 1024
def xonBytes (s : State) (e : Nat) : Nat := rfield s .ethPortCfg e 36 12 * 1024

/-- Whether a sub-port is up. -/
def subUp (s : State) (e sub : Nat) : Bool := e < 8 && (ethOf s e).up.testBit sub

/-- SUBPORT_LINK_UP (R782): a sub-port of an enabled port comes up, and frames that waited for it leave. -/
def subportUp (e sub : Nat) (s : State) : State :=
  if !(e < 8 && (rget s .ethPortCfg e).testBit 0 && sub < subPorts s e) || subUp s e sub then s
  else
    let p := ethOf s e
    releaseFrames (setEth e { p with up := p.up ||| 2 ^ sub } s)

def execSubportLinkUp (port sub : Nat) (s : State) : Out := .next (subportUp port sub s)

/-- SUBPORT_LINK_DOWN (R783; 17 R843): counted and recorded; what waits stays, and nothing is received. -/
def subportDown (e sub : Nat) (s : State) : State :=
  if !subUp s e sub then s
  else
    let p := ethOf s e
    let mine := fun (k : Nat) => k / 8 = sub
    let p := { p with up := setBits p.up sub 1 0, paused := setBits p.paused (8 * sub) 8 0, fill := p.fill.filter (fun x => !mine x.1),
                      xoff := p.xoff.filter (fun x => !mine x) }
    let (fired, _, s) := firePoint 0x0801 (e * 4 + sub) (bump (setEth e p s) .ethLinkDowns e)
    writeRecord { source := 0x0801, severity := 3, injected := fired, kind := 8, index := e * 4 + sub } s

def execSubportLinkDown (port sub : Nat) (s : State) : Out := .next (subportDown port sub s)

/-- A write of ETH.PORT_CFGe (R781): MODE 3 is stored as 0; MODE and MEDIA stay while ENABLE reads 1; a port that is disabled loses
its sub-ports (log entry 70). -/
def writePortCfg (e v : Nat) (s : State) : State :=
  let old := rget s .ethPortCfg e
  let v := v % 2 ^ 60
  let v := if bitsOf v 1 2 = 3 then setBits v 1 2 0 else v
  let v := if old.testBit 0 then setBits v 1 3 (bitsOf old 1 3) else v
  let s := rput s .ethPortCfg e 0 v
  if old.testBit 0 && !v.testBit 0 then (List.range 4).foldl (fun s k => subportDown e k s) s else s

/-- PFC_FRAME (R787, R790): classes of the frame's vector pause, or go on where their time is zero; `times` holds 16 bits a class. -/
def pfcFrame (e sub classes times : Nat) (s : State) : State :=
  if !subUp s e sub then s
  else
    let p := ethOf s e
    let paused := (bitList 8 classes).foldl (fun m c => setBits m (8 * sub + c) 1 (bitNat (bitsOf times (16 * c) 16 ≠ 0))) p.paused
    releaseFrames (bump (setEth e { p with paused := paused } s) .ethPfcReceived e)

def execPfcFrame (port sub classes times : Nat) (s : State) : Out := .next (pfcFrame port sub classes times s)

/-- A class of a sub-port comes to hold a number of bytes; at XOFF_KIB or more a lossless class sends XOFF (R788). -/
def holdBytes (e sub cls bytes : Nat) (s : State) : State :=
  let p := ethOf s e
  let s := setEth e { p with fill := Table.put p.fill (8 * sub + cls) bytes } s
  if losslessClass s e cls && xoffBytes s e ≤ bytes && !p.xoff.contains (8 * sub + cls) then
    let p := ethOf s e
    sendPfc e sub cls 0xFFFF (setEth e { p with xoff := insertNat (8 * sub + cls) p.xoff } s)
  else s

/-- OTHER_FRAME (R785, R786, R788, R789): a frame that is neither RoCE nor PTP. `bytes` is what its class holds with it: a lossless
class drops it when the whole buffer is full, another when it exceeds LIMIT_KIB. -/
def otherFrame (e sub : Nat) (accepted : Bool) (cls bytes : Nat) (s : State) : State :=
  if !subUp s e sub || 8 ≤ cls then s
  else if !accepted then bump s .ethRxDrops e
  else
    let others := (((ethOf s e).fill.filter (fun x => x.1 / 8 = sub && x.1 ≠ 8 * sub + cls)).map Prod.snd).sum
    let full := 2048 * 1024 / subPorts s e < others + bytes
    if losslessClass s e cls then
      if full then bump s .ethLosslessDrops e else bump (holdBytes e sub cls bytes s) .ethRxOther e
    else if limitBytes s e < bytes || full then s
    else bump (holdBytes e sub cls bytes s) .ethRxOther e

def execOtherFrame (port sub : Nat) (accepted : Bool) (cls bytes : Nat) (s : State) : Out :=
  .next (otherFrame port sub accepted cls bytes s)

/-- PFC_REFRESH (R788): XOFF in force is sent again. -/
def execPfcRefresh (port sub cls : Nat) (s : State) : Out :=
  .next (if subUp s port sub && cls < 8 && (ethOf s port).xoff.contains (8 * sub + cls) then sendPfc port sub cls 0xFFFF s else s)

/-- PFC_XON (R788): the class has drained to XON_KIB. -/
def pfcXon (e sub cls : Nat) (s : State) : State :=
  let p := ethOf s e
  if !(subUp s e sub && cls < 8 && p.xoff.contains (8 * sub + cls)) then s
  else
    let held := min (Table.getD p.fill (8 * sub + cls) 0) (xonBytes s e)
    sendPfc e sub cls 0 (setEth e { p with fill := Table.put p.fill (8 * sub + cls) held,
                                           xoff := p.xoff.filter (· ≠ 8 * sub + cls) } s)

def execPfcXon (port sub cls : Nat) (s : State) : Out := .next (pfcXon port sub cls s)

/-! ### MSI-X and the host link (R749, R762, R770) -/

/-- MSIX_UNMASK (R762): a vector, or the function, is unmasked. -/
def msixUnmask (f : Fn) (vector : Option Nat) (s : State) : State :=
  let c := fnOf s f
  let c := match vector with
    | none => { c with msixMask := false }
    | some v => if msixSize f ≤ v then c else { c with msix := Table.put c.msix v { Table.getD c.msix v {} with masked := false } }
  releaseMsix f (setFn s f c)

def execMsixUnmask (fn : Fn) (vector : Option Nat) (s : State) : Out := .next (msixUnmask fn vector s)

/-- PERST_DEASSERT (R770): the link may train again. -/
def execPerstDeassert (s : State) : Out := .next { s with pci := { s.pci with perst := false } }

/-- HOST_LINK_UP (R749): the link has trained to a rate (1-6) and width, in flit mode always at 64 GT/s. -/
def execHostLinkUp (speed width : Nat) (flit : Bool) (s : State) : Out :=
  if !s.rst.powered || s.pci.perst || s.pci.linkUp || speed = 0 || 6 < speed || width = 0 || 16 < width then .next s
  else .next { s with pci := { s.pci with linkUp := true, speed := speed, width := width, flit := flit || speed = 6 } }

/-! ### Expanders (R777) -/

/-- EXPANDER_ERROR_EVENT (R777): a memory error event of an expander, corrected (0) or not, at a far DPA, read by firmware and
written as a record (log entry 71). -/
def execExpanderErrorEvent (port event detail : Nat) (s : State) : Out :=
  if 2 ≤ port then .next s
  else
    let s := if event = 0 then bump s .cxlErrors port else s
    .next (writeRecord { source := 0x0106, severity := if event = 0 then 1 else 2, kind := 10, index := port, addr := detail } s)

end Sys2Proof.Machine
end

