-- ==== Sys2Proof/Machine/LineCode.lean ====
section
/-! DEFINITION. How a near-tier or far-tier line is stored: the line code, the encryption and the tag (chapter 05 of spec/, R249-R257).
State holds the data of a line and its poison; what the storage holds beside them follows from these functions. -/
namespace Sys2Proof.Machine

/-! ### The line code (R250) -/

/-- Multiplication by α in GF(2^8) modulo x^8 + x^4 + x^3 + x^2 + 1. -/
def gfTwice (a : Nat) : Nat := if 128 ≤ a then (2 * a) ^^^ 0x11D else 2 * a

/-- Multiplication in GF(2^8); `fuel` counts the bits of the second factor. -/
def gfMul : Nat → Nat → Nat → Nat
  | 0, _, _ => 0
  | k + 1, a, b => (if b % 2 = 1 then a else 0) ^^^ gfMul k (gfTwice a) (b / 2)

/-- A power of α. -/
def gfAlpha : Nat → Nat
  | 0 => 1
  | k + 1 => gfTwice (gfAlpha k)

/-- The generator (x - α^0) … (x - α^(n - 1)), highest degree first. -/
def rsGenerator : Nat → List Nat
  | 0 => [1]
  | k + 1 =>
    let g := rsGenerator k
    List.zipWith (fun a b => a ^^^ gfMul 8 b (gfAlpha k)) (g ++ [0]) (0 :: g)

/-- One step of the division: a message symbol enters the remainder. -/
def rsStep (g : List Nat) (r : List Nat) (m : Nat) : List Nat :=
  let f := m ^^^ r.headD 0
  List.zipWith (fun a b => a ^^^ gfMul 8 f b) (r.drop 1 ++ [0]) g

/-- CHECK of 72 message symbols (R250). -/
def rsCheck (msg : List Byte) : List Byte :=
  ((msg.map (·.toNat)).foldl (rsStep (rsGenerator 8).tail) (List.replicate 8 0)).map (BitVec.ofNat 8)

/-! ### Encryption and tag in sealed mode (R253, R254) -/

/-- Multiplication of an XTS tweak by α (IEEE Std 1619). -/
def xtsTwice (t : List Byte) : List Byte :=
  let v := leNat t
  leBytes 16 (if 2 ^ 127 ≤ v then (2 * v) ^^^ 0x87 else 2 * v)

/-- XTS blocks under the data key from a tweak; `fuel` bounds the blocks. -/
def xtsBlocks (key : List Byte) : Nat → List Byte → List Byte → List Byte
  | 0, _, _ => []
  | k + 1, t, p => xorBytes (aesBlock key (xorBytes (p.take 16) t)) t ++ xtsBlocks key k (xtsTwice t) (p.drop 16)

/-- The stored data of a line at a DPA in sealed mode (R253). -/
def lineCipher (s : State) (a : Nat) (plain : List Byte) : List Byte :=
  let k := s.sealing.kEnc
  xtsBlocks (k.take 32) 4 (aesBlock (k.drop 32) (leBytes 16 (a / 64))) plain

/-- The CMAC of a line: address, stored data, FLAGS (R254). -/
def lineMac (s : State) (a : Nat) : Nat :=
  Config.cmac s.sealing.kMac (leBytes 8 a ++ lineCipher s a (peek s a 64) ++ leBytes 1 (bitNat (poisonedAt s a)))

/-- The 16 metadata bytes of the near-tier line at an address (R249). -/
def lineMeta (s : State) (a : Nat) : List Byte :=
  let stored := if s.sealing.sealed then lineCipher s a (peek s a 64) else peek s a 64
  let tag := if s.sealing.sealed then beBytes 7 (lineMac s a / 2 ^ 72) else leBytes 7 0
  let rest := tag ++ leBytes 1 (bitNat (poisonedAt s a))
  rsCheck (stored ++ rest) ++ rest

/-- The page tag of a far page: the exclusive or of the CMACs of its lines (R257). -/
def farPageTag (s : State) (a : Nat) : Nat := (List.range 32768).foldl (fun t i => t ^^^ lineMac s (a + 64 * i)) 0

end Sys2Proof.Machine
end

