-- ==== Sys2Proof/Machine/Mover.lean ====
section
/-! DEFINITION. The tier mover: TIER_MOVE, MEM_ZERO, FAR_ASSIGN, their progress and stops, and CXL ports going OFFLINE (chapter 05 of
spec/, R273-R287, R977; 15 R778). -/
namespace Sys2Proof.Machine

/-- Size of a page. -/
abbrev pageSize : Nat := 2097152

/-! ### The far tier (R234-R238, R258) -/

/-- The CXL ports. -/
def cxlOf (s : State) (p : Nat) : CxlPort := if p = 0 then s.cxl0 else s.cxl1
def setCxl (p : Nat) (x : CxlPort) (s : State) : State := if p = 0 then { s with cxl0 := x } else { s with cxl1 := x }

/-- Capacity of the far tier in GiB. -/
def farGib (s : State) : Nat :=
  if interleaved s then 2 * min s.mem.farCap.1 s.mem.farCap.2 else s.mem.farCap.1 + s.mem.farCap.2

/-- MEM.FAR_CAP.USABLE_PAGES: every page, less the page tags in sealed mode (R258). -/
def usablePages (s : State) : Nat :=
  farGib s * 512 - (if s.sealing.sealed then ceilDiv (farGib s) 256 else 0)

/-- Number of a far page in the far tier; with interleave off, those of port 0 come first. -/
def farPage (s : State) (a : Nat) : Nat :=
  if interleaved s || a < 0x030000000000 then (a - 0x010000000000) / pageSize
  else s.mem.farCap.1 * 512 + (a - 0x030000000000) / pageSize

/-- Whether a range lies in the installed far tier, within one port's part with interleave off. -/
def farRange (s : State) (a n : Nat) : Bool :=
  inFar s a && (n = 0 || inFar s (a + n - 1)) && (interleaved s || (a < 0x030000000000) == (a + n ≤ 0x030000000000))

/-- Whether the ports that a far page needs are ONLINE. -/
def farReady (s : State) (a : Nat) : Bool :=
  if interleaved s then s.mem.farOnline.1 && s.mem.farOnline.2
  else if a < 0x030000000000 then s.mem.farOnline.1 else s.mem.farOnline.2

/-- Whether a range lies in a sector's far range. -/
def inFarRange (s : State) (n a len : Nat) : Bool :=
  match Table.find s.mem.far n with
  | none => false
  | some (base, size) => base ≤ a && a + len ≤ base + size

/-! ### Pages in flight -/

/-- A page to be moved: source, destination, and the DPA of its leaf (0 for none). -/
structure PageMove where
  src : Nat
  dst : Nat
  pte : Nat
  deriving DecidableEq, Repr

/-- The bytes 0 to 7 at an address as a number. -/
def word64 (s : State) (a : Nat) : Nat := leNat (peek s a 8)

/-- Whether COLDEST demotes an entry of its table (R277; R274). -/
def coldLeaf (s : State) (n threshold e : Nat) : Bool :=
  pteOk s n 3 e false && !pteFar e && pteCount e && pteAddr e < 0x008000000000 && bitsOf e 48 16 < threshold
    && !holdsHeat s (pteAddr e) pageSize

/-- The page that a command moves next, and its entry or table index; none when no page is left. -/
def nextPage (s : State) (m : Mover) : Option (Nat × PageMove) :=
  match m.job with
  | .explicit moves => (moves[m.entry]?).map (fun p => (m.entry, ⟨p.1, p.2.1, p.2.2⟩))
  | .coldest table far most threshold =>
    if most ≤ m.pages then none
    else
      ((List.range 512).find? (fun i => m.entry ≤ i && coldLeaf s m.sector threshold (word64 s (table + 8 * i)))).map
        (fun i => (i, ⟨pteAddr (word64 s (table + 8 * i)), far + pageSize * m.pages, table + 8 * i⟩))
  | _ => none

/-- The head of the mover's queue changed. -/
def changeHead (f : Mover → Mover) (s : State) : State :=
  match s.mover with
  | [] => s
  | m :: t => { s with mover := f m :: t }

/-- Whether the head may work: not held by QUIESCE, not yielded (04 R207, R210). -/
def Mover.active (m : Mover) : Bool := !m.held && !m.yielded

/-- The leaf entry of a page written by a change of its low 48 bits; none where its line refuses the write (R975). -/
def writeLeaf (faults : List LineFault) (pte : Nat) (f : Nat → Nat) (s : State) : Nat × State :=
  if pte = 0 then (stOk, s) else faultyWrite faults pte (leBytes 8 (f (word64 s pte))) s

/-- The page in flight abandoned with its leaf restored (R280). -/
def abandonPage (s : State) : State :=
  match s.mover with
  | [] => s
  | m :: _ =>
    match nextPage s m with
    | some (_, p) =>
      if m.moving then changeHead (fun m => { m with moving := false }) (writeLeaf [] p.pte (fun e => setBits e 5 1 0) s).2 else s
    | none => changeHead (fun m => { m with moving := false }) s

/-- Far addresses that a job still needs. -/
def farNeeds (m : Mover) : List Nat :=
  match m.job with
  | .explicit moves => (moves.drop m.entry).map (fun p => if p.1 < 0x008000000000 then p.2.1 else p.1)
  | .coldest _ far most _ => (List.range (most - m.pages)).map (fun i => far + pageSize * (m.pages + i))
  | .zero _ _ => []
  | .farAssign _ base size _ => if size = 0 then [] else [base, base + size - 1]

/-- Whether a job moves pages. -/
def Mover.movesPages (m : Mover) : Bool :=
  match m.job with
  | .explicit _ | .coldest _ _ _ _ => true
  | _ => false

/-! ### Going on -/

/-- The leaves of a table that COLDEST did not move have ACCESS halved (R277). -/
def halveLeaves (table : Nat) (s : State) : State :=
  (List.range 512).foldl (fun s i =>
    let e := word64 s (table + 8 * i)
    if pteValid e && pteLeaf e && !pteFar e then
      (trustedWrite (table + 8 * i) (leBytes 8 (setBits e 48 16 (bitsOf e 48 16 / 2))) s).2
    else s) s

/-- The end of the head command with a status and results. -/
def endHead (status r0 r1 : Nat) (s : State) : State :=
  match s.mover with
  | [] => s
  | m :: t => finish m.serial status r0 r1 { s with mover := t }

/-- The mover takes up its head until a page is in flight, a fill runs, or the queue is empty; `fuel` bounds the commands that end
(R275, step 1; R277, R286). -/
def moverGo : Nat → State → State
  | 0, s => s
  | fuel + 1, s =>
    match s.mover with
    | [] => s
    | m :: _ =>
      if !m.active || m.moving then s
      else
        let s := match m.job, m.begun with
          | .coldest table _ _ _, false => dropCopies (fun d => table ≤ d.entryDpa && d.entryDpa < table + 4096) s
          | .farAssign _ _ _ _, _ => { s with mem := { s.mem with farFixed := true } }
          | _, _ => s
        let s := changeHead (fun m => { m with begun := true }) s
        if !(farNeeds m).all (farReady s) then moverGo fuel (endHead stHwFault 0 0 s)
        else if !m.movesPages then s
        else
          match nextPage s m with
          | none =>
            let s := match m.job with
              | .coldest table _ _ _ => halveLeaves table s
              | _ => s
            moverGo fuel (endHead stOk m.pages m.poisoned s)
          | some (i, p) =>
            match writeLeaf [] p.pte (fun e => setBits e 5 1 1) s with
            | (0, s) => changeHead (fun m => { m with entry := i, moving := true }) s
            | (st, s) => moverGo fuel (endHead st m.pages m.poisoned s)

/-- The mover works on. -/
def moverRun (s : State) : State := moverGo (s.mover.length + 1) s

/-! ### Copies (R275, step 2; R257, R267, R278, R279) -/

/-- Lines of a page whose read meets a fault: those the outside names, and those that armed points name (17 R868). -/
def faultyLines (faults : List LineFault) (base : Nat) (s : State) : List Nat :=
  let within := fun a => decide (base ≤ a) && decide (a < base + pageSize)
  let named := (faults.map (fun f => f.line)).filter within
  let armed := s.err.slots.filterMap (fun e =>
    if e.2.addr ≠ 0 then (if within e.2.addr then some e.2.addr else none)
    else if e.2.point / 256 = 1 && e.2.point ≤ 0x0104 then
      ((List.range 1024).map (fun i => base + 64 * i)).find? (fun a => hbmChannel a = e.2.target)
    else none)
  (named ++ armed).foldl (fun l a => insertNat (a / 64) l) []

/-- The content of a page copied to another, with the poison of its lines (R267). -/
def copyPage (src dst : Nat) (s : State) : State :=
  let here := fun base a => decide (base ≤ a) && decide (a < base + pageSize)
  let moved := (s.mem.cells.filter (fun c => here src c.1)).map (fun c => (c.1 - src + dst, c.2))
  let kept := s.mem.cells.filter (fun c => !here dst c.1)
  let bad := (s.mem.poison.filter (fun l => here src (64 * l))).map (fun l => l - src / 64 + dst / 64)
  let rest := s.mem.poison.filter (fun l => !here dst (64 * l))
  { s with mem := { s.mem with cells := moved.foldl (fun t c => Table.put t c.1 c.2) kept, poison := bad.foldl (fun t l => insertNat l t) rest } }

/-- Poisoned lines of a page. -/
def poisonIn (s : State) (base : Nat) : List Nat := s.mem.poison.filter (fun l => base ≤ 64 * l && 64 * l < base + pageSize)

/-- Lines of a far page that an armed FAR_POISON slot names: its line, or as many as it has firings left of those that its port
serves (17 R868). -/
def farSlotLines (s : State) (base : Nat) (i : Inject) : List Nat :=
  let port := fun (l : Nat) => if interleaved s then l / 64 % 2 else bitNat (0x030000000000 ≤ base)
  let nth := fun (k : Nat) => base / 64 + (if interleaved s then k / 64 * 128 + 64 * i.target + k % 64 else k)
  let ls := if i.addr = 0 then (List.range (min i.left 16384)).map nth else [i.addr / 64]
  ls.filter (fun l => base ≤ 64 * l && 64 * l < base + pageSize && port l = i.target)

/-- Poison that armed FAR_POISON slots make in the read of a far page: each firing counts (17 R868). -/
def injectFar (base : Nat) (s : State) : List Nat × State :=
  (s.err.slots.filter (fun e => e.2.point = 0x0106)).foldl (fun (p : List Nat × State) e =>
    let ls := farSlotLines s base e.2
    (p.1 ++ ls, ls.foldl (fun s _ => fireSlot e.1 s) p.2)) ([], s)

/-- The reads of a page's lines: faults found in a near page; poison that an expander returns, with its records, for a far one
(R267, R777; 17 R843). -/
def readPage (faults : List LineFault) (poisonLines : List Nat) (sector base : Nat) (s : State) : State :=
  if base < 0x008000000000 then
    let s := (faultyLines faults base s).foldl (fun s l => (readLine faults (64 * l) s).2) s
    bumpField s .memPoisonReads 0 0 32 (poisonIn s base).length
  else
    let (injected, s) := injectFar base s
    let named := (poisonLines ++ injected).filter (fun l => base ≤ 64 * l && 64 * l < base + pageSize)
    let s := named.foldl (fun s l => poisonLine s (64 * l)) s
    (poisonIn s base).foldl (fun s l =>
      writeRecord { source := 0x0106, severity := 2, injected := injected.contains l, sector := sector, addr := 64 * l,
                    memAddr := true } s) s

/-- PAGE_MOVE_END (R275-R279): the copy of the page in flight has ended; `tagFail` says that its page tag did not match. -/
def pageMoveEnd (tagFail : Bool) (poisonLines : List Nat) (faults : List LineFault) (s : State) : State :=
  match s.mover with
  | [] => s
  | m :: _ =>
    match nextPage s m, m.active && m.moving with
    | some (i, p), true =>
      let far := if p.src < 0x008000000000 then p.dst else p.src
      let toNear := far = p.src
      if tagFail && toNear && s.sealing.sealed then
        let s := abandonPage s
        let s := writeRecord { source := 0x0105, severity := 2, sector := m.sector, status := stIntegrityFail, addr := far,
                               memAddr := true } s
        moverRun (endHead stIntegrityFail m.pages 0 s)
      else
        let s := readPage faults poisonLines m.sector p.src s
        let lost := (poisonIn s p.src).length
        let s := copyPage p.src p.dst s
        let s := if s.sealing.sealed && !toNear then
            { s with mem := { s.mem with pageTags := Table.put s.mem.pageTags (farPage s p.dst) (farPageTag s p.dst) } }
          else s
        let p0 := m.pages + 1
        match writeLeaf faults p.pte (fun e => setBits (setBits (setBits e 12 34 (p.dst / 4096)) 4 1 (bitNat (!toNear))) 5 1 0) s with
        | (0, s) =>
          let s := dropCopies (fun d => d.entryDpa = p.pte) s
          let s := if s.mem.farOnline.1 then setCxl 0 { cxlOf s 0 with timeouts := 0 } s else s
          let s := if s.mem.farOnline.2 then setCxl 1 { cxlOf s 1 with timeouts := 0 } s else s
          moverRun (changeHead (fun m => { m with moving := false, entry := i + 1, pages := p0, poisoned := m.poisoned + lost }) s)
        | (st, s) => moverRun (endHead st m.pages m.poisoned s)
    | _, _ => s

def execPageMoveEnd (tagFail : Bool) (poisonLines : List Nat) (faults : List LineFault) (s : State) : Out :=
  .next (pageMoveEnd tagFail poisonLines faults s)

/-! ### Fills (R281, R282) -/

/-- Zeros written to the pages of a new far range that the old one did not hold, with their page tags (R282, R257). -/
def fillFar (n base size : Nat) (s : State) : State :=
  (List.range (size / pageSize)).foldl (fun s i =>
    let a := base + pageSize * i
    if inFarRange s n a pageSize then s
    else
      let s := zeroFill s a pageSize
      if s.sealing.sealed then { s with mem := { s.mem with pageTags := Table.put s.mem.pageTags (farPage s a) (farPageTag s a) } } else s) s

/-- TIER_MOVER_FILL_END: a fill ends, or a MEM_ZERO reaches the 64 KiB boundary at which it is held or yielded (R281, 04 R207,
R210). -/
def fillEnd (s : State) : State :=
  match s.mover with
  | [] => s
  | m :: _ =>
    if !m.begun || m.movesPages || m.held then s
    else
      match m.job with
      | .zero base size =>
        let stop := m.yielded || (Table.getD s.rings.held m.sector 0).testBit 3
        if stop && 65536 < size - m.bytes then
          if m.yielded then s
          else changeHead (fun m => { m with bytes := m.bytes + 65536, held := true }) (zeroFill s (base + m.bytes) 65536)
        else moverRun (endHead stOk size 0 (zeroFill s (base + m.bytes) (size - m.bytes)))
      | .farAssign n base size _ =>
        let s := fillFar n base size s
        let far := if size = 0 then Table.drop s.mem.far n else Table.put s.mem.far n (base, size)
        moverRun (endHead stOk 0 0 { s with mem := { s.mem with far := far } })
      | _ => s

def execTierMoverFillEnd (s : State) : Out := .next (fillEnd s)

/-! ### The commands -/

/-- A command enters the mover's queue, and works when it is the head; a sector that is quiesced has its commands held (04 R207). -/
def queueMove (m : Mover) (s : State) : State :=
  let held := (Table.getD s.rings.held m.sector 0).testBit 3
  moverRun { s with mover := s.mover ++ [{ m with held := held }] }

/-- Whether an explicit move is well formed (R273): pages aligned, one near and one far, owned, and a leaf that maps SRC. -/
def moveOk (s : State) (n : Nat) (p : Nat × Nat × Nat) : Bool :=
  let near := if p.1 < 0x008000000000 then p.1 else p.2.1
  let far := if p.1 < 0x008000000000 then p.2.1 else p.1
  let e := word64 s p.2.2
  p.1 % pageSize = 0 && p.2.1 % pageSize = 0 && near < 0x008000000000 && 0x010000000000 ≤ far && ownsRange s n near pageSize
    && inFarRange s n far pageSize
    && (p.2.2 = 0 || (p.2.2 % 8 = 0 && ownsRange s n p.2.2 8 && pteOk s n 3 e false && pteLeaf e && pteAddr e = p.1
        && pteFar e == decide (far = p.1)))

/-- The reads of the entries that a TIER_MOVE checks: the status of the first that is refused. -/
def entryReads (faults : List LineFault) : List Nat → State → Nat × State
  | [], s => (stOk, s)
  | a :: t, s =>
    if a = 0 || a % 8 ≠ 0 || !isMemory s a then entryReads faults t s
    else
      match readLine faults a s with
      | (0, s) => entryReads faults t s
      | r => r

/-- TIER_MOVE (R273, R274). FAR_SLOT is the DPA of a far page (log entry 72). -/
def tierMoveBody (faults : List LineFault) (c : Cmd) (s : State) : Body := do
  let n := c.ring / 64
  let mode := c.param 24 1
  let k := c.param 25 1
  need (mode ≤ 1 && c.reserved [(48, 64)]) stBadParam
  if mode = 0 then
    need (1 ≤ k && k ≤ 18 && 64 + 24 * k ≤ 64 * c.units) stBadParam
    let moves := (List.range k).map (fun i => (c.param (64 + 24 * i) 8, c.param (72 + 24 * i) 8, c.param (80 + 24 * i) 8))
    match entryReads faults (moves.map (fun p => p.2.2)) s with
    | (0, s) =>
      need (moves.all (moveOk s n)) stBadParam
      let near := fun (p : Nat × Nat × Nat) => if p.1 < 0x008000000000 then p.1 else p.2.1
      let far := fun (p : Nat × Nat × Nat) => if p.1 < 0x008000000000 then p.2.1 else p.1
      need (moves.all (fun p => !holdsHeat s (near p) pageSize && farReady s (far p))) stBadState
      .ok (.running (queueMove { serial := c.serial, sector := n, job := .explicit moves } s))
    | (st, s) => .ok (.done st 0 0 s)
  else
    let most := c.param 26 2
    let table := c.param 32 8
    let far := c.param 40 8
    need (k = 0 && 1 ≤ most && most ≤ 512 && table % 4096 = 0 && ownsRange s n table 4096 && far % pageSize = 0
      && inFarRange s n far (pageSize * most)) stBadParam
    match entryReads faults ((List.range 64).map (fun i => table + 64 * i)) s with
    | (0, s) =>
      need ((List.range most).all (fun i => farReady s (far + pageSize * i))) stBadState
      .ok (.running (queueMove { serial := c.serial, sector := n, job := .coldest table far most (c.param 28 4) } s))
    | (st, s) => .ok (.done st 0 0 s)

def execTierMove (ring : Nat) (faults : List LineFault) (s : State) : Out :=
  .next (beginCommand 0x0311 ring (tierMoveBody faults) s)

/-- MEM_ZERO (R281). -/
def memZeroBody (c : Cmd) (s : State) : Body := do
  let n := c.ring / 64
  let base := c.param 24 8
  let size := c.param 32 8
  need (base % 64 = 0 && size % 64 = 0 && size ≤ 2 ^ 30 && c.reserved [(40, 64)] && ownsRange s n base size) stBadParam
  need (size = 0 || !holdsHeat s base size) stBadState
  if size = 0 then .ok (.done stOk 0 0 s)
  else .ok (.running (queueMove { serial := c.serial, sector := n, job := .zero base size } s))

def execMemZero (ring : Nat) (s : State) : Out := .next (beginCommand 0x0312 ring memZeroBody s)

/-- FAR_ASSIGN (R282, R283). -/
def farAssignBody (c : Cmd) (s : State) : Body := do
  let base := c.param 24 8
  let size := c.param 32 8
  let n := c.param 40 1
  need (base % pageSize = 0 && size % pageSize = 0 && n ≤ 7 && c.reserved [(41, 64)]) stBadParam
  need (size = 0 || (farRange s base size && farPage s base + size / pageSize ≤ usablePages s)) stBadParam
  need (size = 0 || !s.mem.far.any (fun e => e.1 ≠ n && overlaps base size e.2.1 e.2.2)) stBadState
  need (!s.mover.any (fun m => m.sector = n && m.movesPages)) stBadState
  .ok (.running (queueMove { serial := c.serial, sector := c.ring / 64, job := .farAssign n base size [] } s))

def execFarAssign (ring : Nat) (s : State) : Out := .next (beginCommand 0x0313 ring farAssignBody s)

/-! ### Stops -/

/-- The near-tier and lake ranges that a TIER_MOVE or MEM_ZERO names (R287). -/
def Mover.nears (m : Mover) : List (Nat × Nat) :=
  match m.job with
  | .explicit moves => moves.flatMap (fun p =>
      [(if p.1 < 0x008000000000 then p.1 else p.2.1, pageSize)] ++ (if p.2.2 = 0 then [] else [(p.2.2, 8)]))
  | .coldest table _ _ _ => [(table, 4096)]
  | .zero base size => [(base, size)]
  | _ => []

/-- Results that a stopped command reports: pages done, or for MEM_ZERO the bytes done. -/
def Mover.result (m : Mover) : Nat :=
  match m.job with
  | .zero _ _ => m.bytes
  | _ => m.pages

/-- Commands that a test names stopped where they are with a status (R287, R977). -/
def stopMoves (p : Mover → Bool) (status : Nat) (s : State) : State :=
  let s := match s.mover with
    | m :: _ => if p m then abandonPage s else s
    | [] => s
  let gone := s.mover.filter p
  let s := { s with mover := s.mover.filter (fun m => !p m) }
  moverRun (gone.foldl (fun s m => finish m.serial status m.result 0 s) s)

/-- QUIESCE and urgent commands stop the head at once: its page is abandoned (R280; 04 R207, R210). -/
def holdMover (n : Nat) (s : State) : State :=
  match s.mover with
  | [] => s
  | m :: _ =>
    let s := if m.movesPages && m.sector = n then abandonPage s else s
    { s with mover := s.mover.map (fun m => if m.sector = n && (m.movesPages || !m.begun) then { m with held := true } else m) }

/-- Held commands of a sector go on (04 R208). -/
def releaseMover (n : Nat) (s : State) : State :=
  moverRun { s with mover := s.mover.map (fun m => if m.sector = n then { m with held := false } else m) }

/-! ### CXL ports go OFFLINE (R285, R286; 15 R778) -/

/-- A port becomes OFFLINE with a cause, and a command that needs it ends with HW_FAULT. -/
def cxlOffline (p cause : Nat) (s : State) : State :=
  if 2 ≤ p || (cxlOf s p).state = 0 then s
  else
    let s := setCxl p { cxlOf s p with state := 0, cause := cause } s
    let online := if p = 0 then (false, s.mem.farOnline.2) else (s.mem.farOnline.1, false)
    let s := { s with mem := { s.mem with farOnline := online } }
    let (fired, _, s) := firePoint 0x0803 p s
    let s := writeRecord { source := 0x0803, severity := 3, injected := fired, kind := 10, index := p } s
    match s.mover with
    | [] => s
    | m :: _ => if m.begun && !(farNeeds m).all (farReady s) then moverRun (endHead stHwFault 0 0 (abandonPage s)) else s

/-- During an unsealing scrub a port that is lost is skipped (14, What if a far expander fails during the scrub?). -/
def notePartial (s : State) : State :=
  if s.sealing.scrub then setSealing { s.sealing with scrubPartial := true } s else s

/-- CXL_PORT_OFFLINE: the link went down, or the expander reported a fatal error. -/
def execCxlPortOffline (port : Nat) (fatal : Bool) (s : State) : Out :=
  .next (if 2 ≤ port || (cxlOf s port).state = 0 then s else notePartial (cxlOffline port (if fatal then 5 else 4) s))

/-- CXL_MEM_TIMEOUT: the third in a row takes the port OFFLINE. -/
def execCxlMemTimeout (port : Nat) (s : State) : Out :=
  if 2 ≤ port || (cxlOf s port).state = 0 then .next s
  else if (cxlOf s port).timeouts + 1 < 3 then .next (setCxl port { cxlOf s port with timeouts := (cxlOf s port).timeouts + 1 } s)
  else .next (notePartial (cxlOffline port 6 (setCxl port { cxlOf s port with timeouts := 0 } s)))

end Sys2Proof.Machine
end

