-- ==== Sys2Proof/Machine/Quiesce.lean ====
section
/-! DEFINITION. QUIESCE, and operations that yielded to an urgent command (chapter 04 of spec/, R206-R210). -/
namespace Sys2Proof.Machine

/-- A sector's held classes: bits 0 CREWS, 1 LATTICE, 2 HEAT, 3 MOVER, 4 RDMA_TX. -/
def setHeld (n mask : Nat) (s : State) : State :=
  { s with rings := { s.rings with held := if mask = 0 then Table.drop s.rings.held n else Table.put s.rings.held n mask } }

/-- Operations of a sector that a hold of some classes stops: launches with groups in execution, lattice operations in progress,
tier-mover commands (log entry 79). -/
def heldCount (n mask : Nat) (s : State) : Nat :=
  let crews := Table.countIf s.scl.launches (fun age l => l.ctx / 64 = n && s.scl.groups.any (fun g => g.2.age = age))
  let lattice := Table.countIf s.lat (fun e x => Table.find s.sct.engines e = some n && x.running.isSome)
  let mover := (s.mover.filter (fun m => m.sector = n)).length
  (if mask.testBit 0 then crews else 0) + (if mask.testBit 1 then lattice else 0) + (if mask.testBit 3 then mover else 0)

/-- The head of the mover's queue yields to an urgent command of another sector: a page move at once, a fill at its next boundary
(R210, 05 R280). -/
def yieldMover (n : Nat) (s : State) : State :=
  match s.mover with
  | [] => s
  | m :: _ =>
    if m.sector = n || !m.begun then s
    else changeHead (fun m => { m with yielded := true }) (if m.movesPages then abandonPage s else s)

/-- A sector's work on the named classes stops at its next boundary (R207). -/
def quiesceSector (n mask : Nat) (s : State) : State :=
  let s := setHeld n (Table.getD s.rings.held n 0 ||| mask) s
  if mask.testBit 3 then holdMover n (yieldMover n s) else s

/-- Held work of the named classes goes on from its saved boundary (R208). -/
def releaseSector (n mask : Nat) (s : State) : State :=
  let old := Table.getD s.rings.held n 0
  let s := setHeld n (old &&& (31 ^^^ mask)) s
  let s := if mask.testBit 1 then
      ((s.sct.engines.filter (fun e => e.2 = n)).foldl (fun s e => latGo e.1 (setLat e.1 { latOf s e.1 with held := false } s)) s)
    else s
  let s := if mask.testBit 3 then releaseMover n s else s
  if mask.testBit 4 then pumpSector n s else s

/-- QUIESCE (R206-R208): the quiesce record names the sector. -/
def quiesceBody (c : Cmd) (s : State) : Body := do
  let mask := c.param 24 8
  let n := c.ring / 64
  let classes := mask % 32
  need (classes ≠ 0 && mask / 32 % 2 ^ 58 = 0 && c.reserved [(32, 64)]) stBadParam
  if mask.testBit 63 then .ok (.done stOk 0 0 (releaseSector n classes s))
  else
    let k := heldCount n classes s
    .ok (.done stOk k 0 (eventRecord 0x0B05 n stOk 0 (quiesceSector n classes s)))

def execQuiesce (ring : Nat) (s : State) : Out := .next (heatRow s (beginCommand 0x0013 ring quiesceBody s))

/-- YIELD_RESUME (R210): operations that yielded to an urgent command resume: the mover's head, and lattice operations on engines that
no test keeps. -/
def yieldResume (s : State) : State :=
  let s := moverRun { s with mover := s.mover.map (fun m => { m with yielded := false }) }
  s.lat.foldl (fun s e =>
    let x := latOf s e.1
    match x.yielded with
    | none => s
    | some o =>
      if x.running.isSome || !gateOpen s 2 e.1 || s.rst.heldEngines.testBit e.1
          || s.err.running.any (fun t => t.res.kind = 5 && t.res.index = e.1) then s
      else setLat e.1 { x with yielded := none, running := some o, held := false } s) s

def execYieldResume (s : State) : Out := .next (yieldResume s)

end Sys2Proof.Machine
end

