-- ==== Sys2Proof/Machine/Pair.lean ====
section
/-! DEFINITION. Pairs and trays: forming, heartbeats, fencing, takeover, handover, detaching (chapter 18 of spec/; 11 R598-R600; 19
R927). -/
namespace Sys2Proof.Machine

/-- The pair replaced. -/
def setPair (p : Pair) (s : State) : State := { s with pair := p }

/-- Code of a pair state. -/
def pairCode : PairState → Nat
  | .none => 0
  | .forming => 1
  | .formed => 2
  | .suspect => 3
  | .fencing => 4
  | .solo => 5
  | .selfFenced => 6
  | .detached => 7

/-- Wake queue of pair records. -/
def pairQueue (s : State) : Nat := rfield s .pairCfg 0 48 6

/-- A change of pair state with its log record (19 R927). -/
def enterPair (st : PairState) (s : State) : State :=
  if s.pair.state = st then s
  else
    logRecord (pairQueue s) 0x06
      (leBytes 1 (pairCode s.pair.state) ++ leBytes 1 (pairCode st) ++ leBytes 1 s.pair.twin ++ leBytes 5 0
        ++ leBytes 8 s.cad.stroke ++ leBytes 8 0) (setPair { s.pair with state := st } s)

/-- Whether heartbeats run. -/
def pairLive (s : State) : Bool := pairFormed s || s.pair.state = .solo

/-- C10 and C11 change mode, and chunks that they carried are sent again (11 R600). -/
def switchLinks (pair : Bool) (s : State) : State := resendOver (switchMode 11 pair (switchMode 10 pair s))

/-- PAIR_FENCE_REQ driven or not. -/
def driveFence (on : Bool) (s : State) : State := { s with pins := { s.pins with fenceReq := on } }

/-- Slots of this package for which it is stroke side. -/
def strokeSlots (s : State) : List Nat := (s.heat.slots.filter (fun e => e.2.role ≠ 2 && e.2.mirrored)).map Prod.fst

/-- Shadow slots of this package. -/
def shadowSlots (s : State) : List Nat := (s.heat.slots.filter (fun e => e.2.role = 2)).map Prod.fst

/-! ### Slots and their mirrors -/

/-- A slot goes on without a mirror (R887, R889, R899). -/
def unmirror (k : Nat) (s : State) : State :=
  resumeSlot k (changeSlot k (fun h => { h with mirrored := false, stopped := false, copying := false, moving := none, handed := false }) s)

/-- A HEAT_OPEN that waits for a shadow of a twin that is gone ends as one whose shadow cannot be opened (07 R376; log entry 80). -/
def dropOpening (s : State) : State :=
  (s.heat.slots.filter (fun e => e.2.opening.isSome)).foldl
    (fun s e => freeSlot e.1 (finish (e.2.opening.getD 0) stNoResource 0 0 s)) s

/-- Handovers and a detach in progress end: their commands complete with BAD_STATE, for the pair is not FORMED any more (R897,
R899). -/
def dropMoves (s : State) : State :=
  let s := finishAll (s.pair.moves.map Prod.fst ++ s.pair.serial.toList) stBadState 0 0 s
  setPair { s.pair with moves := [], asked := [], serial := none } s

/-- Own heats run unmirrored: the state SOLO. Slots stopped under R888 stay as they are. -/
def enterSolo (s : State) : State :=
  let s := dropMoves (dropOpening s)
  let s := ((strokeSlots s).filter (fun k => !(slotOf s k).stopped)).foldl (fun s k => unmirror k s) s
  enterPair .solo s

/-- A slot copied whole to the twin; until the twin acknowledges the copy nothing else counts as acknowledged (R880). -/
def copySlot (k : Nat) (s : State) : State :=
  let h := slotOf s k
  let s := setSlot k { h with mirrored := true, copying := true, msnAcked := 0 } s
  sysSend true s.pair.twin (.slotCopy h.whole (slotImage s h)) s

/-- RESYNC (R880): every slot that this package opened with a mirror and that works is copied. -/
def resync (s : State) : State :=
  (s.heat.slots.filter (fun e => e.2.mirror ≠ 0 && e.2.works && e.2.self = pkgNumber s && e.2.opening.isNone)).foldl
    (fun s e => copySlot e.1 s) s

/-- The pair link is back: what the twin has not acknowledged is sent again, slots as whole copies (R885; log entry 81). -/
def relink (s : State) : State :=
  (s.heat.slots.filter (fun e => e.2.role ≠ 2)).foldl (fun s e =>
    let h := e.2
    let twin := s.pair.twin
    if h.opening.isSome then sysSend true twin (.shadowOpen h) s
    else if !h.mirrored then s
    else if h.handed then sysSend true twin (.handover h.whole (slotImage s h)) s
    else if h.mirror = 2 then (if h.checkpoint ≠ 0 && !h.checkpointAcked then sendCheckpoint e.1 s else s)
    else if h.msnAcked < h.msnSent || h.copying then copySlot e.1 s
    else s) s

/-! ### Successors (R891, step 5; R892) -/

/-- A package takes the place of another, in one heat or in every heat: later messages go to it, those that wait are sent to it,
and tree partials meant for the old parent are sent again. -/
def applySubstitution (failed succ heat : Nat) (s : State) : State :=
  let named := fun (id : Nat) => heat = 0 || id = heat
  let moved := s.chord.successor.map (fun e => if e.2 = failed && (heat = 0 || e.1 / 64 = heat) then (e.1, succ) else e)
  let stale := fun (p : Packet) => p.srcSector = 15 && bitsOf p.dest 46 6 = failed && (heat = 0 || p.stream / 128 = heat % 2 ^ 25)
  let again := s.chord.unsent.filter (fun e => !e.1 && e.2.1 = failed)
  let c := { s.chord with
    successor := Table.put moved (heat * 64 + failed) succ
    tree := s.chord.tree.filter (fun e => !stale e.2)
    unsent := s.chord.unsent.filter (fun e => e.1 || e.2.1 ≠ failed) }
  let s := { setChord c s with heat := { s.heat with slots := s.heat.slots.map (fun e =>
    if e.2.role ≠ 2 && !e.2.leads && e.2.homes ≠ [] && e.2.parentOf e.2.self = failed && named e.2.id then (e.1, { e.2 with sentUp := 0 })
    else e) } }
  again.foldl (fun s e =>
    match e.2.2 with
    | .heat id home m =>
      if named id then heatSend { params := padTo 24 [] ++ leBytes 8 id } home m s else sysSend false failed e.2.2 s
    | m => if heat = 0 then sysSend false succ m s else sysSend false failed m s) s

/-- Step 5: the substitution applied here and sent to every other pod member. -/
def substitute (failed heat : Nat) (s : State) : State :=
  let me := pkgNumber s
  let members := (bitList 64 (rget s .chdPodMembers)).filter (· ≠ me)
  members.foldl (fun s p => sysSend false p (.substitution failed me heat) s) (applySubstitution failed me heat s)

/-! ### Takeover (R887, R891, R893) -/

/-- Steps 2 to 4 for one shadow slot: complete staged vectors are added, and the slot becomes home or lead. -/
def takeSlot (k : Nat) (s : State) : State :=
  let s := (slotOf s k).complete.foldl (fun s u => issueVector [] k u s) s
  let h := slotOf s k
  setSlot k { h with role := h.strokeRole, mirrored := false, msnSent := h.msnApplied, msnAcked := h.msnApplied, complete := [] } s

/-- Takeover record of a slot (19 R927). -/
def takeoverRecord (failed cond k : Nat) (s : State) : State :=
  let h := slotOf s k
  logRecord (pairQueue s) 0x05
    (leBytes 8 h.id ++ leBytes 1 failed ++ leBytes 1 cond ++ leBytes 1 k ++ leBytes 1 0 ++ leBytes 4 h.msnAcked
      ++ leBytes 8 s.cad.stroke) s

/-- A takeover by the bow side: by confirmation (0) or by grace (1). Own slots stopped under R888 resume only after a
confirmation. -/
def takeover (cond : Nat) (s : State) : State :=
  let failed := s.pair.twin
  let ks := shadowSlots s
  let s := ks.foldl (fun s k => takeSlot k s) s
  let s := substitute failed 0 s
  let s := if cond = 0 then (strokeSlots s).foldl (fun s k => unmirror k s) s else s
  let s := enterSolo (setPair { s.pair with byGrace := cond = 1 } s)
  let s := ks.foldl (fun s k => takeoverRecord failed cond k s) s
  ks.foldl (fun s k => resumeSlot k s) (bump s .pairTakeovers)

/-! ### Heartbeats (R882-R890; 11 R599) -/

/-- One heartbeat sent on every UP link of the pair, and over Ethernet once the twin's QPN is known. -/
def sendHeartbeat (st : Nat) (s : State) : State :=
  let payload := leBytes 8 s.cad.stroke ++ leBytes 1 st ++ leBytes 1 (cadCode s.cad.state)
  let s := (pairLinks s).foldl (fun s c => emitFlit c 3 0 payload [] s) s
  match s.pair.qp.bind (fun k => (Table.find s.rdma.qps k).map (fun q => (k, q))) with
  | none => s
  | some (k, q) =>
    if s.pair.twinQpn = 0 then s
    else
      let body := beBytes 8 s.cad.stroke ++ beBytes 1 (pkgNumber s) ++ beBytes 1 st ++ beBytes 6 0
      let f : RoceFrame :=
        { port := q.port, sub := 0, cls := 0, srcIndex := q.srcIndex, udpSource := udpSource (0x10000 + k) s.pair.twinQpn,
          dscp := q.dscp, vlan := q.vlan, destIp := q.destIp, destMac := q.destMac,
          pkt := { dest := s.pair.twinQpn, psn := q.sqPsn, op := .send true true none, payload := body, source := 0x10000 + k,
                   qkey := q.qkey } }
      sendFrame f (setQp k { q with sqPsn := psnAdd q.sqPsn 1 } s)

/-- A stroke boundary of the pair (R882, R883): the counts, then the heartbeats. -/
def pairBoundary (s : State) : State :=
  if !pairLive s then s
  else
    let p := s.pair
    let s := if p.heardLink then s else bump s .pairHbMissed
    let s := setPair { s.pair with
      heardLink := false, heardEth := false
      misses := if p.heardLink then 0 else p.misses + 1
      ethMisses := if p.heardEth then 0 else p.ethMisses + 1 } s
    sendHeartbeat (pairCode s.pair.state) s

/-- STROKE_BOUNDARY (02 R56, R92; 18 R883): the count rises, due marks are taken, and the pair counts its heartbeats. -/
def execStrokeBoundary (now : Nat) (s : State) : Out :=
  let s' := strokeBoundary now s
  .next (if s.cad.stroke < s'.cad.stroke then pairBoundary s' else s')

/-- Limits of the miss counts. -/
def missLimit (s : State) : Nat := rfield s .pairCfg 0 0 8
def graceStrokes (s : State) : Nat := rfield s .pairCfg 0 8 8

/-- Whether a count reaches a limit: at a boundary, before the next heartbeat. -/
def linkSilent (s : State) (n : Nat) : Bool := n ≤ s.pair.misses && !s.pair.heardLink
def ethSilent (s : State) (n : Nat) : Bool := n ≤ s.pair.ethMisses && !s.pair.heardEth

/-- Slots stopped under R888. -/
def stoppedSlots (s : State) : List Nat := (s.heat.slots.filter (fun e => e.2.stopped)).map Prod.fst

/-- MISS_LIMIT_REACHED (R884, R886, R888): SUSPECT once the pair count reaches the limit; with both counts there, the own stroke-side
slots stop and the package fences, or only fences itself when it holds no shadow slot. -/
def missLimitReached (s : State) : State :=
  let n := missLimit s
  let s := if s.pair.state = .formed && linkSilent s n then enterPair .suspect s else s
  if s.pair.state ≠ .suspect || !linkSilent s n || !ethSilent s n then s
  else
    let s := (strokeSlots s).foldl (fun s k => changeSlot k (fun h => { h with stopped := true }) s) s
    let s := bump s .pairSelfFences
    if shadowSlots s = [] then enterPair .selfFenced s
    else
      let s := enterPair .fencing (driveFence true (bump s .pairFences))
      if s.pins.fenceConf then takeover 0 s else s

def execMissLimitReached (s : State) : Out := .next (heatRow s (missLimitReached s))

/-- PAIR_FENCE_CONF (R887): the confirmation from the twin's tray is asserted or released. -/
def fenceConf (on : Bool) (s : State) : State :=
  let s := { s with pins := { s.pins with fenceConf := on } }
  if on && s.pair.state = .fencing then takeover 0 s else s

def execPairFenceConf (asserted : Bool) (s : State) : Out := .next (heatRow s (fenceConf asserted s))

/-- GRACE_EXPIRY (R887): without confirmation, the Ethernet count has reached MISS_LIMIT + GRACE. -/
def graceExpiry (s : State) : State :=
  if s.pair.state = .fencing && ethSilent s (missLimit s + graceStrokes s) then takeover 1 s else s

def execGraceExpiry (s : State) : Out := .next (heatRow s (graceExpiry s))

/-- A stopped slot freed without output, since the twin has taken it over (R889). -/
def freeStopped (k : Nat) (s : State) : State :=
  freeSlot k (finishAll ((slotOf s k).advance.map Prod.fst) stBadState 0 0 s)

/-- What follows a heartbeat of the twin with a pair state (R884, R889, R903). -/
def heardTwin (viaLink : Bool) (st : Nat) (s : State) : State :=
  if !pairLive s then s
  else
    let s := setPair (if viaLink then { s.pair with heardLink := true } else { s.pair with heardEth := true }) s
    let back := fun (s : State) => enterPair (if pairLinks s = [] then .suspect else .formed) s
    if st = 7 && s.pair.state ≠ .solo then takeover 0 s
    else if stoppedSlots s ≠ [] || s.pair.state = .fencing || s.pair.state = .selfFenced then
      if st = 5 then enterSolo ((stoppedSlots s).foldl (fun s k => freeStopped k s) (driveFence false s))
      else if s.pair.state = .solo then (stoppedSlots s).foldl (fun s k => unmirror k s) s
      else
        let s := (stoppedSlots s).foldl (fun s k => resumeSlot k (changeSlot k (fun h => { h with stopped := false }) s)) s
        back (if viaLink then relink (driveFence false s) else driveFence false s)
    else if s.pair.state = .suspect && viaLink then enterPair .formed (relink s)
    else s

/-- HEARTBEAT (11 R599): a flit on a link of the pair. -/
def heartbeatFlit (link : Nat) (flit : List Byte) (s : State) : State :=
  match otherFlit link 3 flit s with
  | none => s
  | some (payload, s) => if (linkOf s link).pairMode then heardTwin true (fieldLE payload 8 1) s else s

def execHeartbeat (link : Nat) (flit : List Byte) (s : State) : Out := .next (heatRow s (heartbeatFlit link flit s))

/-- Q_Key of the Ethernet heartbeat (R878). -/
abbrev heartbeatKey : Nat := 0x54475052

/-- PAIR_HEARTBEAT (R882): a UD SEND to the heartbeat queue pair from the twin. -/
def pairHeartbeat (p : RocePacket) (now : Nat) (s : State) : State :=
  match p.op with
  | .send true true _ =>
    inboundPacket p now (fun k _ s =>
      if s.pair.qp ≠ some k || p.qkey ≠ heartbeatKey || p.payload.length ≠ 16 || fieldBE p.payload 8 1 ≠ s.pair.twin then dropPacketIn s
      else heardTwin false (fieldBE p.payload 9 1) s) s
  | _ => dropPacketIn s

def execPairHeartbeat (pkt : RocePacket) (now : Nat) (s : State) : Out := .next (heatRow s (pairHeartbeat pkt now s))

/-! ### Forming and breaking (R876-R881, R902) -/

/-- The pair ends: the state is NONE, the links return to inter-tray mode, and the heartbeat queue pair is freed (R878). Shadows that
nothing mirrors are freed. -/
def endPair (s : State) : State :=
  let s := dropMoves (dropOpening s)
  let s := (strokeSlots s).foldl (fun s k => unmirror k s) s
  let s := (shadowSlots s).foldl (fun s k => freeSlot k s) s
  let s := enterPair .none s
  let s := match s.pair.qp with
    | some k => setRdma { s.rdma with qps := Table.drop s.rdma.qps k } s
    | none => s
  let s := setChord { s.chord with unsent := s.chord.unsent.filter (fun e => !e.1) } s
  switchLinks false (driveFence false (setPair {} s))

/-- PAIR_FORM (R876-R878). -/
def pairFormBody (c : Cmd) (s : State) : Body := do
  let twin := c.param 24 1
  need (twin < 64 && c.param 25 1 ≤ 7 && c.param 26 1 ≤ 15 && c.param 27 1 ≤ 1 && c.reserved [(36, 40), (56, 64)]) stBadParam
  need (twin / 4 ≠ pkgNumber s / 4 && (rget s .chdPodMembers).testBit twin) stBadParam
  need (s.pair.state = .none && s.cad.configured) stBadState
  need (hasTable s 0) stNoResource
  let q : Qp :=
    { sector := 0, kind := 1, port := c.param 25 1, srcIndex := c.param 26 1, sqRing := 64, rqRing := 64, state := 3,
      qkey := heartbeatKey, vlan := c.param 28 2, destMac := sliceBytes c.bytes 30 6, destIp := sliceBytes c.bytes 40 16 }
  match createQp 0 q s with
  | none => .error { status := stNoResource }
  | some (k, s) =>
    let p : Pair := { s.pair with twin := twin, serial := some c.serial, resync := c.param 27 1 = 1, qp := some k }
    let s := switchLinks true (enterPair .forming (setPair p s))
    .ok (.running (sysSend true twin (.pairHello twin s.rst.straps.pairSide (0x10000 + k)) s))

def execPairForm (ring : Nat) (s : State) : Out := .next (heatRow s (beginCommand 0x0C01 ring pairFormBody s))

/-- PAIR_FORM ends with a status; unless it formed a pair, the state returns to NONE. -/
def endForm (status : Nat) (s : State) : State :=
  let s := match s.pair.serial with
    | some n => finish n status 0 0 s
    | none => s
  if status = stOk then setPair { s.pair with serial := none } s else endPair s

/-- FORM_WAIT_EXPIRY (R878). -/
def formWaitExpiry (s : State) : State := if s.pair.state = .forming then endForm stDeadlinePassed s else s

def execFormWaitExpiry (s : State) : Out := .next (heatRow s (formWaitExpiry s))

/-- The twin's offer (R878-R880): equal sides refuse it, opposite sides form the pair. -/
def takeHello (twin : Nat) (side : Bool) (qpn : Nat) (s : State) : State :=
  if s.pair.state ≠ .forming || twin ≠ pkgNumber s then s
  else if side = s.rst.straps.pairSide then endForm stBadState s
  else
    let s := enterPair .formed (setPair { s.pair with twinQpn := qpn } s)
    let s := endForm stOk s
    if s.pair.resync then resync s else s

/-- PAIR_BREAK (R902). A PAIR_FORM that still waits ends with BAD_STATE (log entry 82). -/
def pairBreakBody (c : Cmd) (s : State) : Body := do
  need (c.reserved [(24, 64)]) stBadParam
  need (strokeSlots s = [] && (shadowSlots s = [] || s.pair.state = .solo)) stBadState
  .ok (.done stOk 0 0 (if s.pair.state = .none then s else if s.pair.state = .forming then endForm stBadState s else endPair s))

def execPairBreak (ring : Nat) (s : State) : Out := .next (heatRow s (beginCommand 0x0C10 ring pairBreakBody s))

/-! ### Planned handover (R897, R898) -/

/-- The stroke-side slots of a heat, or of every heat for 0. -/
def movable (s : State) (id : Nat) : List Nat := (strokeSlots s).filter (fun k => id = 0 || (slotOf s k).id = id)

/-- Slots begin to move for a command, or for the twin (serial 0). -/
def startHandover (ks : List Nat) (serial : Nat) (s : State) : State :=
  ks.foldl (fun s k => changeSlot k (fun h => { h with moving := some (h.moving.getD serial) }) s) s

/-- A slot counted for the commands that wait for it; those that wait for nothing more complete with the slots moved. -/
def countMove (serial : Nat) (s : State) : State :=
  setPair { s.pair with moves := Table.change s.pair.moves serial (· + 1) } s
def endMoves (s : State) : State :=
  let ready := s.pair.moves.filter (fun e =>
    !s.heat.slots.any (fun x => x.2.moving = some e.1) && !s.pair.asked.any (fun a => a.2 = e.1) && s.pair.serial ≠ some e.1)
  let s := ready.foldl (fun s e => finish e.1 stOk e.2 0 s) s
  setPair { s.pair with moves := s.pair.moves.filter (fun e => !ready.contains e) } s

/-- PAIR_TAKEOVER (R897): on the stroke side the slots move; on the bow side the twin is asked. -/
def pairTakeoverBody (c : Cmd) (s : State) : Body := do
  let id := c.param 24 8
  need (c.reserved [(32, 64)]) stBadParam
  need (s.pair.state = .formed) stBadState
  let own := movable s id
  let start := setPair { s.pair with moves := Table.put s.pair.moves c.serial 0 } s
  if own ≠ [] || id = 0 then .ok (.running (startHandover own c.serial start))
  else do
    need (shadowOf s id).isSome stBadState
    .ok (.running (sysSend true s.pair.twin (.handoverAsk id) (setPair { start.pair with asked := s.pair.asked ++ [(id, c.serial)] } start)))

/-- The twin's slot taken over without loss: steps 4 to 6 of a takeover with nothing to discard. The record's condition is not
stated for a handover (log entry 83). -/
def takeHandover (h : HeatSlot) (im : SlotImage) (s : State) : State :=
  match shadowOf s h.id with
  | none =>
    if s.heat.slots.any (fun e => e.2.id = h.id && e.2.role ≠ 2 && e.2.self = h.self) then
      sysSend true s.pair.twin (.handoverDone h.id) s
    else s
  | some k =>
    let s := takeSlot k (takeWhole k h im s)
    let s := substitute s.pair.twin h.id s
    let (v, s) := drawFree s
    let s := bump (takeoverRecord s.pair.twin (v % 256) k s) .pairTakeovers
    let s := resumeSlot k (sysSend true s.pair.twin (.handoverDone h.id) s)
    let s := (s.pair.asked.filter (fun a => a.1 = h.id)).foldl (fun s a => countMove a.2 s) s
    setPair { s.pair with asked := s.pair.asked.filter (fun a => a.1 ≠ h.id) } s

/-- Step 4: the twin has the slot, and the own copy is freed. -/
def handoverDone (id : Nat) (s : State) : State :=
  match s.heat.slots.find? (fun e => e.2.id = id && e.2.handed) with
  | none => s
  | some (k, h) =>
    let s := finishAll (h.advance.map Prod.fst) stBadState 0 0 s
    countMove (h.moving.getD 0) (freeSlot k s)

/-! ### Detaching (R899, R900) -/

/-- Steps 2 to 5 of TRAY_DETACH once no slot is stroke side here. -/
def detach (s : State) : State :=
  let s := if s.pair.state = .formed then sysSend true s.pair.twin .keepUnmirrored s else s
  let actives := (s.sct.sectors.filter (fun e => e.2.state = .active)).map Prod.fst
  let s := actives.foldl (fun s n => eventRecord 0x0B05 n stOk 0 (quiesceSector n 31 s)) s
  let s := enterPair .detached (setPair { s.pair with serial := none } (switchLinks false s))
  { s with pins := { s.pins with trayReady := true } }

/-- TRAY_DETACH goes on when its slots have moved. -/
def detachWork (s : State) : State :=
  match s.pair.serial with
  | none => s
  | some n => if s.pair.state = .formed && strokeSlots s = [] then detach (finish n stOk 0 0 s) else s

/-- TRAY_DETACH (R899). -/
def trayDetachBody (c : Cmd) (s : State) : Body := do
  need (c.reserved [(24, 64)]) stBadParam
  need ((s.pair.state = .formed && s.pair.serial.isNone) || s.pair.state = .solo) stBadState
  need (!s.heat.slots.any (fun e => e.2.role ≠ 2 && !e.2.mirrored)) stBadState
  if s.pair.state = .solo then .ok (.done stOk 0 0 (detach s))
  else .ok (.running (startHandover (movable s 0) c.serial (setPair { s.pair with serial := some c.serial } s)))

/-- Handovers and a detach go on as far as they can, after every row that may end their waits. -/
def pairRow (s s' : State) : State := detachWork (endMoves (heatRow s s'))

def execTrayDetach (ring : Nat) (s : State) : Out := .next (pairRow s (beginCommand 0x0C03 ring trayDetachBody s))
def execPairTakeover (ring : Nat) (s : State) : Out := .next (pairRow s (beginCommand 0x0C02 ring pairTakeoverBody s))

/-- HEAT_COLLECT (07 R395). -/
def execHeatCollect (ring : Nat) (s : State) : Out := .next (pairRow s (beginCommand 0x0505 ring heatCollectBody s))

/-! ### System packets (11 R571, R598) -/

/-- A system message acted on. -/
def takeSys (faults : List LineFault) (m : SysMsg) (s : State) : State :=
  match m with
  | .pairHello twin side qpn => takeHello twin side qpn s
  | .handover h im => takeHandover h im s
  | .handoverAsk id => if s.pair.state = .formed then startHandover (movable s id) 0 s else s
  | .handoverDone id => handoverDone id s
  | .keepUnmirrored => if pairFormed s then enterSolo s else s
  | .substitution failed succ heat => applySubstitution failed succ heat s
  | m => heatSys faults m s

/-- SYSTEM: the system packet at the head of a link's stream, with its content. -/
def execSystem (link : Nat) (msg : SysMsg) (faults : List LineFault) (s : State) : Out :=
  .next (pairRow s (packetRow link 8 [] (fun _ s => takeSys faults msg s) s))

end Sys2Proof.Machine
end

