-- ==== Sys2Proof/Machine/Power.lean ====
section
/-! DEFINITION. Power states of eights and lattice engines: moves, their ends, and POWER_SET (chapter 16 of spec/, R831-R839; 17
R873). -/
namespace Sys2Proof.Machine

/-- The boot, reset and power state replaced; the sector state likewise. -/
def setRst (r : Rst) (s : State) : State := { s with rst := r }
def setSct (c : Sct) (s : State) : State := { s with sct := c }

/-- Whether an eight or an engine is available (01 R40). -/
def powerAvail (s : State) (kind i : Nat) : Bool :=
  if kind = 1 then (availEights s.top).testBit i else engineAvail s i

/-- Whether a test runs on an eight or an engine (R873). -/
def testedNow (s : State) (kind i : Nat) : Bool :=
  s.err.running.any (fun t => if kind = 1 then t.res.kind = 4 && t.res.index / 8 = i else t.res.kind = 5 && t.res.index = i)

/-- Codes of the power states. -/
def powerOfCode : Nat → Power
  | 0 => .on
  | 1 => .idle
  | _ => .off

/-- Whether a move waits for or runs on a resource. -/
def hasMove (s : State) (kind i : Nat) : Bool := s.rst.transitions.any (fun t => t.kind = kind && t.index = i)

/-- A move requested: it waits while another runs (R839), and a power-down waits for a test (R873). A resource that is in the state
already is left as it is (R834). -/
def startMove (kind i : Nat) (goal : Power) (s : State) : State :=
  if hasMove s kind i then
    setRst { s.rst with transitions := s.rst.transitions.map (fun t =>
      if t.kind = kind && t.index = i then { t with later := t.later ++ [goal] } else t) } s
  else if powerOf s kind i = goal then s
  else
    setRst { s.rst with transitions :=
      s.rst.transitions ++ [{ kind := kind, index := i, goal := goal, begun := goal = .on || !testedNow s kind i }] } s

/-- Moves that waited for a test begin once no test runs on their resource (R873). -/
def kickMoves (s : State) : State :=
  setRst { s.rst with transitions := s.rst.transitions.map (fun t =>
    { t with begun := t.begun || !testedNow s t.kind t.index }) } s

/-- What power OFF loses (R831): an engine's store, table and contexts (09 R494); an eight's local memory, whose bytes are unwritten
again, and its translations (log entry 73). -/
def loseOff (kind i : Nat) (s : State) : State :=
  if kind = 2 then latWipe i s
  else setCache i [] (zeroFill s (0x080040000000 + i * 0x200000) 0x200000)

/-- Whether a move restores power or clock: to ON, or out of OFF (R838). -/
def Transition.up (s : State) (t : Transition) : Bool := t.goal = .on || powerOf s t.kind t.index = .off

/-- The end of the move of a resource: its state, and the next move that waits (R834, R839). A resource retired meanwhile stays OFF
(R832). -/
def endMove (kind i : Nat) (s : State) : State :=
  match s.rst.transitions.find? (fun t => t.kind = kind && t.index = i && t.begun) with
  | none => s
  | some t =>
    let s := setRst { s.rst with transitions := s.rst.transitions.filter (fun u => !(u.kind = kind && u.index = i)) } s
    let goal := if powerAvail s kind i then t.goal else .off
    let s := if goal = .off then loseOff kind i s else s
    let s := bump (setPower kind i goal s) .pwrTransitions
    let s := t.later.foldl (fun s g => startMove kind i g s) s
    let s := if kind = 2 then latGo i s else s
    if hasMove s kind i then s
    else
      match s.sct.cmd with
      | none => s
      | some c => setSct { s.sct with cmd := some { c with waits := c.waits.filter (· ≠ (kind, i)) } } s

/-- Whether the move of a resource that has begun goes up, or down; none without a move. -/
def moveUp (s : State) (kind i : Nat) : Option Bool :=
  (s.rst.transitions.find? (fun t => t.kind = kind && t.index = i && t.begun)).map (Transition.up s)

/-- The class 0x01 command in progress ends with a status and results (03 R144; 16 R834). A sector command counts in
SCT.CMD_STATUS. -/
def endSectorCmd (status r0 r1 : Nat) (s : State) : State :=
  match s.sct.cmd with
  | none => s
  | some c =>
    let t := if c.op = .power then { s.sct with cmd := none }
      else { s.sct with cmd := none, lastStatus := status, count := (s.sct.count + 1) % 2 ^ 32 }
    finish c.serial status r0 r1 (setSct t s)

/-- POWER_SET completes when its last move has ended (R834). -/
def powerDone (s : State) : State :=
  match s.sct.cmd with
  | none => s
  | some c => if c.op = .power && c.waits = [] then endSectorCmd stOk c.changed 0 s else s

/-- Whether a resource holds work that IDLE or OFF must not meet (R833, check 4). -/
def powerBusy (s : State) (kind i : Nat) (goal : Power) : Bool :=
  goal ≠ .on && (if kind = 1 then s.scl.groups.any (fun g => g.2.scull / 8 = i)
    else
      let x := latOf s i
      x.running.isSome || x.queue ≠ [] || x.yielded.isSome || (goal = .off && x.slots ≠ []))

/-- POWER_SET (R833, R834). -/
def powerSetBody (c : Cmd) (s : State) : Body := do
  let kind := c.param 24 1
  let st := c.param 25 1
  let pool := c.param 26 1
  let set := c.param 32 8
  let n := c.ring / 64
  let named := bitList 64 set
  let goal := powerOfCode st
  need ((kind = 1 || kind = 2) && st ≤ 2 && pool ≤ 1 && c.reserved [(27, 32), (40, 64)] && set ≠ 0
    && set < (if kind = 1 then 2 ^ 32 else 2 ^ 8)) stBadParam
  let owners := if kind = 1 then s.sct.eights else s.sct.engines
  need ((pool = 0 || c.viaPf) && named.all (fun i => Table.find owners i = (if pool = 0 then some n else none))) stNotPermitted
  need (named.all (powerAvail s kind)) stNoResource
  need (named.all (fun i => !powerBusy s kind i goal)) stBadState
  let moving := named.filter (fun i => hasMove s kind i || powerOf s kind i ≠ goal)
  let cmd : SectorCmd :=
    { serial := c.serial, op := .power, waits := moving.map (fun i => (kind, i)), changed := moving.length }
  if moving = [] then .ok (.done stOk 0 0 s)
  else .ok (.running (moving.foldl (fun s i => startMove kind i goal s) (setSct { s.sct with cmd := some cmd } s)))

def execPowerSet (ring : Nat) (s : State) : Out := .next (beginCommand 0x0110 ring powerSetBody s)

end Sys2Proof.Machine
end

