-- ==== Sys2Proof/Machine/SectorReset.lean ====
section
/-! DEFINITION. The reset of a sector (chapter 16 of spec/, R809, R811-R815; 04 R219 and the rules they name). -/
namespace Sys2Proof.Machine

/-- Every ring of a sector DISABLED and its ring 0 registers at their reset values; no completion is written (04 R219). -/
def disableRings (n : Nat) (s : State) : State :=
  let s := { s with rings := { s.rings with
      table := s.rings.table.filter (fun e => e.1 / 64 ≠ n)
      urgent := s.rings.urgent.filter (fun i => i / 64 ≠ n) } }
  rput (rput (rput s .cmdAdminCfg n 0 Reg.cmdAdminCfg.info.reset) .cmdAdminSqBase n 0 Reg.cmdAdminSqBase.info.reset)
    .cmdAdminCqBase n 0 Reg.cmdAdminCqBase.info.reset

/-- Engines of a sector stop: operations end without completions that count, contexts are discarded, stores and tables stay (09
R493). -/
def stopEngines (n : Nat) (s : State) : State :=
  (bitList 8 (ownedMask s.sct.engines n)).foldl (fun s e => latStop e stHwFault stHwFault s) s

/-- Transfers, folds and a raw capture of a sector end with its rings (04 R219; log entry 74). -/
def dropTraffic (n : Nat) (s : State) : State :=
  let s := { s with chord := { s.chord with
      transfers := s.chord.transfers.filter (fun e => e.2.sector ≠ n)
      folds := s.chord.folds.filter (fun e => e.2.sector ≠ n) } }
  if s.rng.capture.any (·.sector = n) then { s with rng := { s.rng with capture := none } } else s

/-- Every open heat slot of a sector FAILED as HEAT_ABORT makes it (R811). -/
def failHeats (n : Nat) (s : State) : State :=
  heatRow s (((s.heat.slots.filter (fun e => e.2.sector = n)).map Prod.fst).foldl (fun s k => failHeat k s) s)

/-- Whether a tier-mover command is a FAR_ASSIGN, which R977 does not stop. -/
def isFarAssign (m : Mover) : Bool :=
  match m.job with
  | .farAssign _ _ _ _ => true
  | _ => false

/-- The work of a sector ends: what a sector reset (R812, step 2) and SECTOR_STOP (03 R145) share. -/
def endSector (n : Nat) (s : State) : State :=
  let s := cancelSectorMarks n s
  let s := stopMoves (fun m => m.sector = n && !isFarAssign m) stHwFault s
  let s := freeContexts n s
  let s := stopEngines n s
  let s := dropInstances n (freeRdma n s)
  let s := dropTraffic n s
  endSession n s

/-- A sector reset (R812): the sector keeps its state and every resource. -/
def sectorResetNow (n : Nat) (s : State) : State :=
  let s := failHeats n (endSector n s)
  let s := (bitList 64 (ownedMask s.sct.wake n)).foldl (fun s q => emptyWake q s) s
  let s := { s with rings := { s.rings with held := Table.drop s.rings.held n } }
  disableRings n s

end Sys2Proof.Machine
end

