-- ==== Sys2Proof/Machine/Sectors.lean ====
section
/-! DEFINITION. SECTOR_DEFINE, SECTOR_SHIFT and SECTOR_STOP: validation, drain, kill, clear and assignment (chapter 03 of spec/,
R128-R148). -/
namespace Sys2Proof.Machine

/-! ### Validation (R130, R133) -/

/-- A sector replaced. -/
def setSector (n : Nat) (x : Sector) (s : State) : State := setSct { s.sct with sectors := Table.put s.sct.sectors n x } s

/-- Move entry `i` of a command. -/
def moveAt (c : Cmd) (i : Nat) : Move :=
  let o := 64 + 16 * i
  { kind := c.param o 1, src := c.param (o + 1) 1, dst := c.param (o + 2) 1, power := c.param (o + 3) 1, value := c.param (o + 4) 4,
    set := c.param (o + 8) 8 }

/-- Whether a sector number, or the free pool. -/
def sectorOrPool (n : Nat) : Bool := n ≤ 7 || n = 0xFF

/-- Fields of a move entry in their ranges. -/
def Move.fieldsOk (m : Move) : Bool :=
  1 ≤ m.kind && m.kind ≤ 9 && sectorOrPool m.src && sectorOrPool m.dst
    && (if m.kind = 9 then m.src = m.dst && m.src ≤ 7 else m.src ≠ m.dst)
    && (if (m.kind = 1 || m.kind = 2) && m.dst = 0xFF then m.power ≤ 2 else m.power = 0)
    && (match m.kind with
      | 1 => m.value = 0 && m.set ≠ 0 && m.set < 2 ^ 32
      | 2 => m.value = 0 && m.set ≠ 0 && m.set < 2 ^ 8
      | 3 => m.set ≠ 0 && m.set < 2 ^ 32 && m.value + m.set ≤ 512
      | 4 => m.set ≠ 0 && m.set < 2 ^ 32 && m.value + m.set ≤ 128
      | 8 => m.value = 0 && m.set ≠ 0 && !m.set.testBit 63
      | 9 => m.value ≤ 1 && m.set = 0
      | _ => m.value ≠ 0 && m.set = 0)

/-- Whether two entries name one resource. -/
def Move.clash (a b : Move) : Bool :=
  a.kind = b.kind && (match a.kind with
    | 3 | 4 => overlaps a.value a.set b.value b.set
    | 9 => a.src = b.src
    | _ => a.set &&& b.set ≠ 0)

/-- Indices of the resources that an entry names. -/
def Move.names (m : Move) : List Nat :=
  if m.kind = 3 || m.kind = 4 then (List.range m.set).map (· + m.value) else bitList 64 m.set

/-- Owner table of a kind. -/
def ownersOf (s : State) (kind : Nat) : Table Nat :=
  match kind with
  | 1 => s.sct.eights
  | 2 => s.sct.engines
  | 3 => s.sct.hbm
  | 4 => s.sct.lake
  | _ => s.sct.wake

/-- Whether every named resource is available (01 R39): eights, engines, and the stacks of HBM granules. -/
def Move.available (s : State) (m : Move) : Bool :=
  match m.kind with
  | 1 => m.names.all (availEights s.top).testBit
  | 2 => m.names.all (fun e => s.top.misc.testBit e)
  | 3 => m.names.all (fun g => s.top.misc.testBit (8 + g % 8))
  | _ => true

/-- The quota of a kind of a sector, what of it is in use (R118), and the package's total (R150). -/
def quotaOf (x : Sector) (kind : Nat) : Nat :=
  match kind with
  | 5 => x.qps
  | 6 => x.pds
  | _ => x.rng
def quotaUsed (s : State) (n kind : Nat) : Nat :=
  match kind with
  | 5 => Table.countIf s.rdma.qps (fun _ q => q.sector = n)
  | 6 => Table.countIf s.rdma.pds (fun _ x => x = n)
  | _ => Table.countIf s.rng.instances (fun k i => 0x100 ≤ k && i.sector = n)
def quotaTotal (kind : Nat) : Nat := if kind = 5 then 65536 else 4096

/-- The part of a quota that nothing uses: of a sector, or of the free pool. -/
def quotaFree (s : State) (n kind : Nat) : Nat :=
  if n = 0xFF then quotaTotal kind - (s.sct.sectors.map (fun e => quotaOf e.2 kind)).sum
  else quotaOf (sectorOf s n) kind - quotaUsed s n kind

/-- Whether a sector may stand in an entry: not UNDEFINED, but for the TARGET of a SECTOR_DEFINE. -/
def sectorUsable (s : State) (define : Bool) (target n : Nat) : Bool :=
  n = 0xFF || (sectorOf s n).state ≠ .undefined || (define && n = target)

/-- Row 5 of the table of R130 for an entry after the entries before it: ownership, quota, and sectors that exist; and a granule
that is an RDMA table (10 R503). -/
def Move.owned (s : State) (define : Bool) (target : Nat) (before : List Move) (m : Move) : Bool :=
  sectorUsable s define target m.src && sectorUsable s define target m.dst
    && (match m.kind with
      | 9 => true
      | 5 | 6 | 7 =>
        decide (m.value + ((before.filter (fun b => b.kind = m.kind && b.src = m.src)).map (fun b => b.value)).sum
          ≤ quotaFree s m.src m.kind)
      | k => m.names.all (fun i => Table.find (ownersOf s k) i = (if m.src = 0xFF then none else some m.src)))
    && (m.kind ≠ 3 || !s.rdma.tables.any (fun e => m.value ≤ e.2 && e.2 < m.value + m.set))

/-- Whether an entry moves a granule that holds state of a heat slot (R130; 07 R342). -/
def Move.heatGranule (s : State) (m : Move) : Bool :=
  match m.kind with
  | 3 => m.names.any (hbmPooled s (heatsOpen s))
  | 4 => m.names.any (lakePooled s (heatsOpen s))
  | _ => false

/-- Whether an entry takes eights from a sector that the command leaves without any while it holds a slot in REVEAL or CLOSE. -/
def Move.starves (s : State) (all : List Move) (m : Move) : Bool :=
  m.kind = 1 && m.src ≠ 0xFF && s.heat.slots.any (fun e => e.2.sector = m.src && (e.2.phase = 6 || e.2.phase = 7))
    && (let leaving := all.foldl (fun b x => if x.kind = 1 && x.src = m.src then b ||| x.set else b) 0
        let arriving := all.any (fun x => x.kind = 1 && x.dst = m.src)
        !arriving && (ownedMask s.sct.eights m.src) &&& leaving = ownedMask s.sct.eights m.src)

/-- The index of the first entry that a check refuses, given the entries before it. -/
def firstBad (p : List Move → Move → Bool) : List Move → List Move → Nat → Option Nat
  | _, [], _ => none
  | before, m :: t, i => if p before m then firstBad p (before ++ [m]) t (i + 1) else some i

/-- Index that a fault outside the entries reports. -/
abbrev noEntry : Nat := 0xFFFFFFFF

/-- The validation of a sector command: the status and the index of the first failure, row by row (R130, R133, R503, R850; log entry
76). -/
def sectorCheck (op : SectorOp) (c : Cmd) (s : State) : Option (Nat × Nat) :=
  let count := c.param 32 1
  let moves := (List.range count).map (moveAt c)
  let define := op = .define
  let stop := op = .stop
  let target := c.param 34 1
  let drain := c.param 24 8
  let outside := drain ≤ 60000000 && (!define || drain = 0) && (if stop then count = 0 else 1 ≤ count) && c.param 33 1 ≤ 1
    && (if op = .shift then target = 0 else 1 ≤ target && target ≤ 7) && (if stop then c.param 35 1 ≤ 2 else c.param 35 1 = 0)
    && c.reserved [(36, 64)] && !(stop && target = c.ring / 64)
  let defineOk := fun (before : List Move) (m : Move) =>
    !define || (m.kind = 9 && m.src = target && before.all (·.kind ≠ 9)) || (m.kind ≠ 9 && m.src = 0xFF && m.dst = target)
  let row (st : Nat) (p : List Move → Move → Bool) : Option (Nat × Nat) := (firstBad p [] moves 0).map (fun i => (st, i))
  if 64 * c.units < 64 + 16 * count then some (stBadLength, noEntry)
  else if !outside then some (stBadParam, noEntry)
  else
    (row stBadParam (fun before m => m.fieldsOk && defineOk before m && !before.any (Move.clash m))).orElse fun _ =>
    (row stNoResource (fun _ m => m.available s)).orElse fun _ =>
    (if (define && (sectorOf s target).state ≠ .undefined) || (stop && (sectorOf s target).state ≠ .active) then
      some (stBadState, noEntry) else none).orElse fun _ =>
    (row stBadState (fun before m => m.owned s define target before)).orElse fun _ =>
    (row stBadState (fun _ m => !m.heatGranule s)).orElse fun _ =>
    (row stBadState (fun _ m => !m.starves s moves)).orElse fun _ =>
    (if stop && s.heat.slots.any (fun e => e.2.sector = target) then some (stBadState, noEntry) else none)

/-! ### Drain and kill (R135-R139, R146) -/

/-- The sector command in progress changed. -/
def changeCmd (f : SectorCmd → SectorCmd) (s : State) : State := setSct { s.sct with cmd := s.sct.cmd.map f } s

/-- Engines that depart. -/
def departingEngines (s : State) : List Nat := (List.range 8).filter (departing s 2)

/-- Ages of the launches with a crew group on a departing eight (R136). -/
def departingLaunches (s : State) : List Nat :=
  ((s.scl.groups.filter (fun g => departing s 1 (g.2.scull / 8))).map (fun g => g.2.age)).eraseDups

/-- A held or yielded operation of a departing engine is at a boundary: it stops at once; a running one at its next boundary (R138,
R475). -/
def stopDeparting (e : Nat) (s : State) : State :=
  let x := latOf s e
  let s := match x.yielded with
    | none => s
    | some o =>
      match shiftSuspend e o s with
      | none => s
      | some s => setLat e { latOf s e with yielded := none } s
  match (latOf s e).running with
  | none => s
  | some o =>
    if !(latOf s e).held then setLat e { latOf s e with shiftStop := true } s
    else
      match shiftSuspend e o s with
      | none => s
      | some s => dropSuspend e (setLat e { latOf s e with running := none, held := false } s)

/-- The drain ends: departing launches are killed with their contexts, departing lattice operations stop, queued ones end with
BAD_STATE (steps 2 and 3). -/
def drainTimeout (s : State) : State :=
  match s.sct.cmd with
  | none => s
  | some c =>
    if c.op = .power || 3 ≤ c.step then s
    else
      let s := changeCmd (fun c => { c with step := 3 }) s
      let s := c.launches.foldl (fun s a =>
        match Table.find s.scl.launches a with
        | none => s
        | some l => killContext l.ctx { cause := 8 } s) s
      (departingEngines s).foldl (fun s e => stopDeparting e s) s

def execDrainTimeout (s : State) : Out := .next (drainTimeout s)

/-! ### Commit (steps 1 and 2; R287) -/

/-- Whether a range touches a granule that departs. -/
def touchesDeparting (s : State) (a len : Nat) : Bool :=
  if a < 0x008000000000 then
    (List.range ((a + (len - 1)) / 2 ^ 30 - a / 2 ^ 30 + 1)).any (fun i => losing s 3 (a / 2 ^ 30 + i))
  else
    let off := a - 0x080000000000
    (List.range ((off + (len - 1)) / 2 ^ 21 - off / 2 ^ 21 + 1)).any (fun i => losing s 4 (off / 2 ^ 21 + i))

/-- Sectors that a command touches. -/
def touchedBy (op : SectorOp) (target : Nat) (moves : List Move) : List Nat :=
  let l := ((moves.flatMap (fun m => [m.src, m.dst])).filter (· ≤ 7)).eraseDups
  if op = .shift then l else if l.contains target then l else target :: l

/-- The commit point: the sectors change state, the departing launches are noted, and the tier mover drops what names a departing
granule (R287). -/
def commitSector (op : SectorOp) (c : Cmd) (s : State) : State :=
  let moves := (List.range (c.param 32 1)).map (moveAt c)
  let target := c.param 34 1
  let touched := touchedBy op target moves
  let cmd : SectorCmd :=
    { serial := c.serial, op := op, target := target, moves := moves, power := c.param 35 1, touched := touched,
      step := if op = .define then 3 else 2 }
  let s := setSct { s.sct with cmd := some cmd } s
  let s := touched.foldl (fun s n =>
    let st := if op = .stop then SectorState.stopping else .shifting
    setSector n { sectorOf s n with state := st } s) s
  let s := if op = .define then
      let mode := moves.any (fun m => m.kind = 9 && m.value = 1)
      setSector target { state := .shifting, distance := mode } s
    else s
  let s := changeCmd (fun x => { x with launches := departingLaunches s }) s
  let s := stopMoves (fun m => m.nears.any (fun r => touchesDeparting s r.1 r.2)) stBadState s
  if op ≠ .define && c.param 24 8 = 0 then drainTimeout s else s

/-- The three sector commands (R130-R133). -/
def sectorBody (op : SectorOp) (c : Cmd) (s : State) : Body :=
  let ended (st r0 : Nat) : Body :=
    .ok (.done st r0 0 (setSct { s.sct with lastStatus := st, count := (s.sct.count + 1) % 2 ^ 32 } s))
  match sectorCheck op c s with
  | some (st, i) => ended st i
  | none => if (c.param 33 1).testBit 0 then ended stOk 0 else .ok (.running (commitSector op c s))

def execSectorDefine (ring : Nat) (s : State) : Out := .next (beginCommand 0x0101 ring (sectorBody .define) s)
def execSectorShift (ring : Nat) (s : State) : Out := .next (beginCommand 0x0102 ring (sectorBody .shift) s)
def execSectorStop (ring : Nat) (s : State) : Out := .next (beginCommand 0x0103 ring (sectorBody .stop) s)

/-! ### Clear and assign (steps 4 to 7) -/

/-- Every resource of a sector as moves to the free pool with a power state, for SECTOR_STOP (R145). -/
def stopEntries (s : State) (n power : Nat) : List Move :=
  let all := fun (kind : Nat) => ((ownersOf s kind).filter (fun e => e.2 = n)).map Prod.fst
  let one := fun (kind power i : Nat) =>
    ({ kind := kind, src := n, dst := 0xFF, power := power, value := if kind = 3 || kind = 4 then i else 0
       set := if kind = 3 || kind = 4 then 1 else 2 ^ i } : Move)
  (all 1).map (one 1 power) ++ (all 2).map (one 2 power) ++ (all 3).map (one 3 0) ++ (all 4).map (one 4 0) ++ (all 8).map (one 8 0)

/-- Step 4: translations, regions and windows over departing memory are gone. -/
def unmapDeparting (c : SectorCmd) (s : State) : State :=
  c.touched.foldl (fun s n => invalidateRegions n s) (dropCopies (leafLosing s) s)

/-- Step 5: what changes owner is written with zeros by full-line writes (R140); an engine's table and contexts go with its store (log
entry 75). -/
def clearMove (s : State) (m : Move) : State :=
  match m.kind with
  | 1 => m.names.foldl (fun s e => setCache e [] (zeroFill s (0x080040000000 + e * 0x200000) 0x200000)) s
  | 2 => m.names.foldl (fun s e => latWipe e (latStop e stBadState stBadState s)) s
  | 3 =>
    changeCmd (fun c => { c with hbm := c.hbm + m.set }) (zeroFill s (m.value * 2 ^ 30) (m.set * 2 ^ 30))
  | 4 =>
    changeCmd (fun c => { c with lake := c.lake + m.set }) (zeroFill s (0x080000000000 + m.value * 2 ^ 21) (m.set * 2 ^ 21))
  | _ => s

/-- One resource given to a sector or to the free pool; a retired one goes to the free pool (03, corner of a retired scull). -/
def giveOne (kind dst i : Nat) (s : State) : State :=
  let ok := !(kind = 1 || kind = 2) || powerAvail s kind i
  let t := if dst = 0xFF || !ok then Table.drop (ownersOf s kind) i else Table.put (ownersOf s kind) i dst
  match kind with
  | 1 => setSct { s.sct with eights := t } s
  | 2 => setSct { s.sct with engines := t } s
  | 3 => setSct { s.sct with hbm := t } s
  | 4 => setSct { s.sct with lake := t } s
  | _ => emptyWake i (setSct { s.sct with wake := t } s)

/-- A quota of a sector raised or lowered. -/
def addQuota (kind n : Nat) (f : Nat → Nat) (s : State) : State :=
  if 7 < n then s
  else
    let x := sectorOf s n
    let x := match kind with
      | 5 => { x with qps := f x.qps }
      | 6 => { x with pds := f x.pds }
      | _ => { x with rng := f x.rng }
    setSector n x s

/-- Step 6: an entry's assignment, and the power moves that it asks for (R142, R143). -/
def assignMove (s : State) (m : Move) : State :=
  match m.kind with
  | 9 => setSector m.src { sectorOf s m.src with distance := m.value = 1 } s
  | 5 | 6 | 7 => addQuota m.kind m.dst (· + m.value) (addQuota m.kind m.src (· - m.value) s)
  | k =>
    let s := m.names.foldl (fun s i => giveOne k m.dst i s) s
    if k = 1 || k = 2 then
      (m.names.filter (powerAvail s k)).foldl (fun s i =>
        let s := startMove k i (if m.dst = 0xFF then powerOfCode m.power else .on) s
        if hasMove s k i then changeCmd (fun c => { c with waits := c.waits ++ [(k, i)] }) s else s) s
    else s

/-- A heat pool that lost a granule is gone (log entry 75). -/
def trimPools (s : State) : State :=
  { s with heat := { s.heat with pools := s.heat.pools.filter (fun e =>
      ((List.range e.2.hbmCount).all (fun i => Table.find s.sct.hbm (e.2.hbmFirst + i) = some e.1))
        && ((List.range e.2.lakeCount).all (fun i => Table.find s.sct.lake (e.2.lakeFirst + i) = some e.1))) } }

/-- Pending resets of sectors are performed once no shift holds them (R147, 16 R815). -/
def pendingResets (s : State) : State :=
  let due := s.rst.sectorResets.filter (fun n => (sectorOf s n).state = .active)
  due.foldl (fun s n => sectorResetNow n s) (setRst { s.rst with sectorResets := [] } s)

/-- Step 7, once every power move has ended: the sectors are ACTIVE again, a stopped one is UNDEFINED, and the command completes
(R144, R145). -/
def sectorDone (s : State) : State :=
  match s.sct.cmd with
  | none => s
  | some c =>
    if c.op = .power || c.step < 6 || c.waits ≠ [] then s
    else
      let s := c.touched.foldl (fun s n => setSector n { sectorOf s n with state := .active } s) s
      let s := if c.op = .stop then
          let s := setSct { s.sct with sectors := Table.drop s.sct.sectors c.target } s
          { s with heat := { s.heat with pools := Table.drop s.heat.pools c.target }
                   rings := { s.rings with held := Table.drop s.rings.held c.target } }
        else s
      pendingResets (endSectorCmd stOk (c.killed + c.finished * 2 ^ 32) (c.hbm + c.lake * 2 ^ 32) s)

/-- Whether the departing work has ended: launches, lattice operations, and tests (R136, R138, R476; 17 R873). -/
def drained (s : State) (c : SectorCmd) : Bool :=
  c.launches.all (fun a => (Table.find s.scl.launches a).isNone)
    && (departingEngines s).all (fun e => (latOf s e).running.isNone && (latOf s e).yielded.isNone && !testedNow s 2 e)
    && (List.range 32).all (fun e => !(departing s 1 e && testedNow s 1 e))

/-- SHIFT_CLEAR_END: once the drain has ended, what departs is unmapped, cleared and assigned (steps 4 to 6). -/
def shiftClearEnd (s : State) : State :=
  match s.sct.cmd with
  | none => s
  | some c =>
    if c.op = .power || 6 ≤ c.step then s
    else if !drained s c then (if c.step = 3 then (departingEngines s).foldl (fun s e => stopDeparting e s) s else s)
    else
      let moves := if c.op = .stop then stopEntries s c.target c.power else c.moves
      let s := unmapDeparting c s
      let s := if c.op = .stop then endSector c.target s else s
      let s := moves.foldl clearMove s
      let s := changeCmd (fun c => { c with step := 6 }) s
      let s := moves.foldl assignMove s
      let s := if c.op = .stop then disableRings c.target s else s
      sectorDone (latGoAll (trimPools s))

def execShiftClearEnd (s : State) : Out := .next (shiftClearEnd s)

/-! ### Ends of power moves -/

/-- The end of a power move, and of the command that waits for it. -/
def powerEnd (kind i : Nat) (s : State) : State := sectorDone (powerDone (endMove kind i s))

/-- POWER_DRAIN_END (R835): a move down has ended. -/
def execPowerDrainEnd (kind index : Nat) (s : State) : Out :=
  .next (if moveUp s kind index = some false then powerEnd kind index s else s)

/-- POWER_UP_COMPLETE (R838): a move up has ended. -/
def execPowerUpComplete (kind index : Nat) (s : State) : Out :=
  .next (if moveUp s kind index = some true then powerEnd kind index s else s)

/-! ### SECTOR_RESET (16 R813, R815; R147) -/

/-- A reset of a sector asked for: at once, or once the shift that holds the sector has ended, whose drain then ends at once. -/
def resetSector (n : Nat) (s : State) : State :=
  match (sectorOf s n).state with
  | .undefined => s
  | .active => sectorResetNow n s
  | _ => drainTimeout (setRst { s.rst with sectorResets := s.rst.sectorResets ++ [n] } s)

end Sys2Proof.Machine
end

