-- ==== Sys2Proof/Machine/Boot.lean ====
section
/-! DEFINITION. Firmware images, the choice of an image, the boot sequence, and the activation of an image (chapter 16 of spec/,
R821-R830; 01 R37, R43-R45; 08 R412-R414; 14 R699-R716, R745-R747; 15 R775; 17 R854, R866, R874). -/
namespace Sys2Proof.Machine

/-! ### Firmware images (R822, R823) -/

/-- Whether a component of an image of `total` bytes lies behind the header. -/
def componentIn (off len total : Nat) : Bool := 4096 ≤ off && off + len ≤ total

/-- SHA-384 of a component of an image. -/
def componentHash (bs : List Byte) (off len : Nat) : List Byte := padTo 48 (Config.sha384 (sliceBytes bs off len))

/-- The code of the first check that an image fails, or 0 (R823). -/
def imageCheck (f : Fuses) (bs : List Byte) : Nat :=
  let w := fun off => fieldLE bs off 4
  let total := w 136
  let reserved := [(6, 8), (20, 24), (140, 192), (3597, 4096)]
  if w 0 ≠ 0x4E495743 || fieldLE bs 4 2 ≠ 1 || !reserved.all (fun r => zeroRange bs r.1 r.2) then 1
  else if !(4096 ≤ total && total ≤ 16 * 2 ^ 20 && total % 4096 = 0 && total ≤ bs.length && componentIn (w 24) (w 28) total
      && componentIn (w 32) (w 36) total) || overlaps (w 24) (w 28) (w 32) (w 36) then 2
  else if !Config.ecdsaVerify (Config.fwKeyEc f.fwKeyHash) (bs.take 192) (sliceBytes bs 192 96) then 3
  else if !Config.mldsaVerify (Config.fwKeyMl f.fwKeyHash) (bs.take 192) (sliceBytes bs 288 3309) then 4
  else if componentHash bs (w 24) (w 28) ≠ sliceBytes bs 40 48 || componentHash bs (w 32) (w 36) ≠ sliceBytes bs 88 48 then 5
  else if w 16 < f.minSvn then 6
  else 0

/-- Bytes of an image slot: B for true. -/
def Flash.slot (f : Flash) (b : Bool) : List Byte := if b then f.slotB else f.slotA

/-- FW_SVN of a slot, 0 when it is empty or invalid (RST.SLOTS). -/
def slotSvn (s : State) (b : Bool) : Nat :=
  let bs := s.rst.flash.slot b
  if imageCheck s.rst.fuses bs = 0 then fieldLE bs 16 4 else 0

/-! ### The choice of an image (steps 4 and 5; R821, R826, R827, R830) -/

/-- The boot halts with a code. -/
def haltBoot (code : Nat) (s : State) : State := setRst { s.rst with halted := true, bootError := code } s

/-- A verified image runs: its version, security version and measurements. -/
def runImage (bs : List Byte) (s : State) : State :=
  setRst { s.rst with chosen := true, version := fieldLE bs 8 8, svn := fieldLE bs 16 4, mLoader := sliceBytes bs 40 48,
                      mFw := sliceBytes bs 88 48 } s

/-- A slot's image verified and run, or the boot halted. -/
def bootSlot (b : Bool) (s : State) : State :=
  match imageCheck s.rst.fuses (s.rst.flash.slot b) with
  | 0 => setRst { (runImage (s.rst.flash.slot b) s).rst with runningB := b } s
  | code => haltBoot code s

/-- A fallback under R826: FALLBACK and an error record with the code (log entry 90). -/
def fallBack (code : Nat) (s : State) : State :=
  writeRecord { source := 0, severity := 2, d0 := code } (setRst { s.rst with fallback := true, bootError := code } s)

/-- Step 4. -/
def selectImage (s : State) : State :=
  let f := s.rst.flash
  match s.rst.straps.bootSel with
  | 2 => setRst { s.rst with recoveryReady := true } s
  | 3 => haltBoot 7 s
  | 1 => if f.readable then bootSlot (!f.activeB) s else haltBoot 8 s
  | _ =>
    if !f.readable then haltBoot 8 s
    else if f.pending then
      let s := setRst { s.rst with flash := { f with pending := false } } s
      match imageCheck s.rst.fuses (f.slot (!f.activeB)) with
      | 0 => setRst { (bootSlot (!f.activeB) s).rst with trial := true } s
      | code => bootSlot f.activeB (fallBack code s)
    else bootSlot f.activeB s

/-! ### Steps 1 to 4 -/

/-- The identity fuses sensed (01 R43-R45). -/
def senseFuses (s : State) : State :=
  let f := s.rst.fuses
  let good := fun (l : List Nat) => (List.range 3).map (fun d => if f.bad.testBit d then 0 else l.getD d 0)
  let s := { s with top := { s.top with sensed := true, identBad := f.bad % 8, serial := f.serial, lots := good f.lots,
                                        poss := good f.poss } }
  (bitList 3 f.bad).foldl (fun s d => writeRecord { source := 0x0A04, severity := 3, d0 := d } s) s

/-- Whether the boot enters sealed mode: by the strap at a cold reset, unless an identity check failed, or armed at a warm reset
(14 R699, R700, R703). The boot enters it as soon as the strap is known (log entry 91). -/
def sealBoot (cold : Bool) (s : State) : State :=
  let enter := fun (s : State) =>
    setSealing { s.sealing with armed := false, sealed := true, retain := true, kEnc := [], kMac := [] } s
  if !cold then (if s.sealing.armed then enter s else s)
  else if !s.rst.straps.sealReq then s
  else if s.top.identBad = 0 then enter s
  else
    writeRecord { source := 0x0A04, severity := 3, d0 := s.top.identBad } (setSealing { s.sealing with refused := true } s)

/-- 2 MiB units of the unsealing scrub: the stacks of a mask, the lake, and the installed far tier. -/
def scrubUnits (hbm : Nat) (s : State) : Nat := popCount 8 hbm * 32768 + 128 + farGib s * 512

/-- The unsealing scrub begins when RETAIN is set and the boot is not sealed (14 R745). -/
def beginScrub (hbm : Nat) (s : State) : State :=
  if s.sealing.retain && !s.sealing.sealed then
    setSealing { s.sealing with scrub := true, scrubPartial := false, scrubDone := 0, scrubTotal := scrubUnits hbm s } s
  else s

/-- A CXL port brought up with what it finds (15 R775). -/
def bringUp (p : Nat) (x : ExpanderEnv) (s : State) : State :=
  match x with
  | .sld gib speed width =>
    let cap := min gib 2048
    let m := s.mem
    let m := if p = 0 then { m with farCap := (cap, m.farCap.2), farOnline := (true, m.farOnline.2) }
      else { m with farCap := (m.farCap.1, cap), farOnline := (m.farOnline.1, true) }
    setCxl p { state := 2, speed := speed, width := width, capacity := cap } { s with mem := m }
  | .absent => setCxl p { cause := 1 } s
  | .failed => setCxl p { cause := 2 } s
  | .otherDevice => setCxl p { cause := 3 } s

def bringUpBoth (env : BootEnv) (s : State) : State := bringUp 1 env.cxl1 (bringUp 0 env.cxl0 s)

/-- Steps 1 to 4 of a boot. -/
def startBoot (cold : Option BootEnv) (s : State) : State :=
  let s := setSealing { s.sealing with udsLocked := true } s
  match cold with
  | some env =>
    let s := sealBoot true (senseFuses (setRst { s.rst with pll := 0x7FFFF } s))
    let s := if s.sealing.retain && !s.sealing.sealed then beginScrub env.hbm (bringUpBoth env s) else s
    selectImage s
  | none => selectImage (beginScrub (bitsOf s.top.misc 8 8) (sealBoot false (setRst { s.rst with pll := s.rst.pll ||| 0x7FFF0 } s)))

/-! ### COLD_RESET (R808, R809, R821; 20 R943, R953) -/

/-- What a cold reset or the loss of main power leaves: the boot flash and the fuses, the standby domain, the pins that come from
outside, and the model's own fields. -/
def powerCycled (s : State) : State :=
  { pending := s.pending, out := s.out, fresh := s.fresh, pci := { perst := s.pci.perst, reply := s.pci.reply },
    err := { list := s.err.list, listFull := decide (1024 ≤ s.err.list.length) },
    rst := { straps := s.rst.straps, fuses := s.rst.fuses, flash := s.rst.flash },
    sealing := { retain := s.sealing.retain }, pins := { fenceConf := s.pins.fenceConf } }

/-- COLD_RESET: the whole package starts again, up to the choice of an image. While a thermal trip holds the package under power,
nothing happens. -/
def coldReset (env : BootEnv) (s : State) : State :=
  if s.rst.tripped && s.rst.powered then s
  else
    let s := powerCycled s
    let s := setRst { s.rst with straps := env.straps, fuses := env.fuses.getD s.rst.fuses, flash := env.flash.getD s.rst.flash } s
    let list := env.list.getD s.err.list
    startBoot (some env) { s with err := { s.err with list := list, listFull := decide (1024 ≤ list.length) } }

def execColdReset (env : BootEnv) (s : State) : Out := .next (coldReset env s)

/-! ### Steps 5 to 9 -/

/-- One entry of the retirement list in force again (01 R37; 17 R855, R866). -/
def restoreEntry (s : State) (e : Retired) : State :=
  let more := fun (t : Table Nat) (k : Nat) => Table.put t k (Table.getD t k 0 + 1)
  let noMisc := fun (b : Nat) => { s with top := { s.top with misc := setBits s.top.misc b 1 0 } }
  let withErr := fun (x : Err) => { s with err := x }
  match e.action with
  | 0 => withErr { s.err with bridgeUsed := more s.err.bridgeUsed (e.index / 64) }
  | 1 => withErr { s.err with rowsUsed := more s.err.rowsUsed e.index }
  | 2 => withErr { s.err with banksUsed := more s.err.banksUsed (e.index / 512) }
  | 3 => withErr { s.err with linesUsed := more s.err.linesUsed e.index }
  | 4 => withErr { s.err with lanesUsed := more s.err.lanesUsed (e.index * 2 + e.addr / 16) }
  | 5 => { s with top := { s.top with sculls := setBits s.top.sculls e.index 1 0 } }
  | 6 => noMisc e.index
  | 7 =>
    let l := linkOf s (e.index / 16)
    setLink (e.index / 16) { l with retired := setBits l.retired (e.index % 16) 1 1, spareUsed := true } s
  | 8 => noMisc (24 + e.index / 16)
  | 10 => noMisc (38 + e.index)
  | _ => s

/-- Availability and repairs as the list in the flash gives them. -/
def restoreList (hbm : Nat) (s : State) : State :=
  let s := { s with top := { s.top with sculls := 2 ^ 256 - 1, misc := setBits (2 ^ 54 - 1) 8 8 hbm, gen := 0 } }
  let s := s.err.list.foldl restoreEntry s
  { s with err := { s.err with retired := s.err.list } }

/-- Power states after a cold reset (R828). -/
def coldPower (s : State) : State :=
  let states := fun (kind n : Nat) => (List.range n).map (fun i => (i, if powerAvail s kind i then Power.idle else Power.off))
  setRst { s.rst with eightPower := states 1 32, enginePower := states 2 8 } s

/-- Steps 6 and 7 of a cold boot: HBM trained, the list restored, near tier and lake zero (05 R289), expanders brought up. -/
def restoreCold (env : BootEnv) (s : State) : State :=
  if env.hbm % 256 = 0 then haltBoot 10 s
  else
    let s := coldPower (zeroNearLake (restoreList (env.hbm % 256) s))
    let s := if s.sealing.scrub then s else bringUpBoth env s
    setRst { s.rst with restored := true } s

/-- Seeds of 48 free bytes join the queue until it holds `n`. -/
def fillSeeds : Nat → State → State
  | 0, s => s
  | n + 1, s =>
    let (v, s) := drawFree s
    fillSeeds n (setRng { s.rng with queue := s.rng.queue ++ [beBytes 48 v] } s)

/-- The start-up of the source has ended meanwhile: annuli HEALTHY, known-answer tests passed, 64 seeds queued (08 R411-R413). -/
def sourceUp (s : State) : State :=
  let s := (List.range 32).foldl (fun s a =>
    let x := annulusOf s a
    if x.state = .retired then s else setAnnulus a { x with state := .healthy, startup := false, passed := 1024 } s) s
  endStartup (fillSeeds (64 - s.rng.queue.length) (setRng { s.rng with katDone := true } s))

/-- Internal instances that a boot still misses (08 R414). -/
def startInstances (s : State) : State :=
  [5, 0, 1, 2, 3, 4].foldl (fun s i => if (Table.find s.rng.instances i).isNone then startInternal i s else s) s

/-- Order of the curve P-384. -/
abbrev p384Order : Nat :=
  0xFFFFFFFFFFFFFFFFFFFFFFFFFFFFFFFFFFFFFFFFFFFFFFFFC7634D81F4372DDF581A0DB248B0A77AECEC196ACCC52973

/-- Private keys of a layer, ECDSA and ML-DSA, from its secret (14 R714). -/
def layerKeys (label : String) (secret : List Byte) : List Byte × List Byte :=
  (beBytes 48 (beNat (hkdf384 (ascii ("TGSL " ++ label ++ " ec")) secret [] 56) % (p384Order - 1) + 1),
   hkdf384 (ascii ("TGSL " ++ label ++ " ml")) secret [] 32)

/-- Step 5: measurements and keys (14 R712-R716); HeatSign keys are drawn from instance 0x0005. -/
def bootKeys (draw : List Byte) (s : State) : State :=
  let uds := beBytes 48 s.rst.fuses.uds
  let mConfig := padTo 48 (Config.sha384 (configBlock s s.sealing.sealed))
  let own := layerKeys "ALIAS" (hmac384 uds (s.rst.mLoader ++ s.rst.mFw ++ mConfig))
  setSealing { s.sealing with
    mConfig := mConfig, aliasEc := own.1, aliasMl := own.2, heatEc := draw.take 48, heatMl := draw.drop 48
    deviceHash := padTo 48 (Config.sha384 (Config.p384Public (layerKeys "DEVID" uds).1)) } s

/-- Steps 6 and 7 of a boot that enters sealed mode (14 R704). -/
def enterSealed (draw : List Byte) (s : State) : State :=
  releaseFar (zeroNearLake (setSealing { s.sealing with kEnc := draw.take 64, kMac := draw.drop 64 } s))

/-- What a boot draws from instance 0x0005: none while it waits for a seed. -/
def bootDraws (s : State) : Option State :=
  match internalBytes 5 80 s with
  | (none, _) => none
  | (some draw, s) =>
    let s := bootKeys draw s
    if s.sealing.sealed && s.sealing.kEnc = [] then
      match internalBytes 5 96 s with
      | (none, _) => none
      | (some keys, s) => some (enterSealed keys s)
    else some s

/-- The end of the unsealing scrub: every memory that sealed data could have reached is zero (14 R745). -/
def endScrub (s : State) : State :=
  if !s.sealing.scrub then s
  else
    let far := fun (base gib : Nat) (s : State) => zeroFill s base (gib * 2 ^ 30)
    let s := far 0x030000000000 s.mem.farCap.2 (far 0x010000000000 (max s.mem.farCap.1 (farGib s)) (zeroNearLake s))
    setSealing { s.sealing with scrub := false, retain := false, scrubDone := s.sealing.scrubTotal } s

/-- FOLLOW_UP records of tests that a warm reset abandoned, and their reruns (17 R874). -/
def rerunTests (s : State) : State :=
  s.err.abandoned.foldl (fun s t =>
    queueTest t (followUp t 4 0 s))
    { s with err := { s.err with abandoned := [] } }

/-- Record copies that waited for the end of boot (17 R854). -/
def flushCopies (s : State) : State :=
  s.err.heldCopies.foldl (fun s r => wakePush 63 (packetOf (narrowWords r)) s) { s with err := { s.err with heldCopies := [] } }

/-- Step 9: a trial image's slot becomes active (R826), held records are written, and firmware sets its marks again (02 R109). -/
def finishBoot (s : State) : State :=
  let s := if s.rst.trial then
      setRst { s.rst with trial := false, flash := { s.rst.flash with activeB := s.rst.runningB } } s
    else s
  setScrubMark (rerunTests (flushCopies (setRst { s.rst with bootDone := true } (endScrub s))))

/-- BOOT_DONE: steps 5 to 9 of a boot that has chosen an image. -/
def bootDone (env : BootEnv) (s : State) : State :=
  if !s.rst.powered || s.rst.tripped || !s.rst.chosen || s.rst.halted || s.rst.bootDone then s
  else
    let s0 := if s.rst.restored then s else restoreCold env s
    if s0.rst.halted then s0
    else
      let s1 := startInstances (if env.source then sourceUp s0 else s0)
      if (List.range 6).any (fun i => (Table.find s1.rng.instances i).isNone) then s
      else
        match bootDraws s1 with
        | none => s
        | some s2 => finishBoot s2

def execBootDone (env : BootEnv) (s : State) : Out := .next (bootDone env s)

/-! ### Host recovery and FW_ACTIVATE (R825, R830; 04 R205) -/

/-- A write of RST.RECOVERY_CTRL.GO while the boot ROM waits: the image that the host wrote is verified and run, or the boot halts
(log entry 92). -/
def recoveryGo (len : Nat) (s : State) : State :=
  if !s.rst.recoveryReady then s
  else
    let bs := padTo (4096 * min len 4096) s.rst.recoveryImage
    let s := setRst { s.rst with recoveryReady := false, recoveryImage := [] } s
    match imageCheck s.rst.fuses bs with
    | 0 => runImage bs s
    | code => haltBoot code s

/-- FW_ACTIVATE (04 R205; R825): the image is copied, verified and written to the inactive slot, which becomes pending. -/
def fwActivateBody (image : HostRead) (c : Cmd) (s : State) : Body := do
  let src := c.param 24 8
  let size := c.param 32 4
  let n := c.ring / 64
  need (src % 4096 = 0 && size % 4096 = 0 && 4096 ≤ size && size ≤ 16 * 2 ^ 20 && c.reserved [(36, 64)]) stBadParam
  need (hostAllowed s n false src size) stSealedForbids
  match hostRead n src size image s with
  | (.error st, s) => .ok (.done st 0 0 s)
  | (.ok bs, s) =>
    match imageCheck s.rst.fuses bs with
    | 0 =>
      let f := s.rst.flash
      let f := if f.activeB then { f with slotA := bs, pending := true } else { f with slotB := bs, pending := true }
      .ok (.done stOk (fieldLE bs 8 8) 0 (setRst { s.rst with flash := f } s))
    | code => .ok (.done stAttestFail 0 0 (writeRecord { source := 0, severity := 2, status := stAttestFail, d0 := code } s))

def execFwActivate (ring : Nat) (image : HostRead) (s : State) : Out := .next (beginCommand 0x0003 ring (fwActivateBody image) s)

end Sys2Proof.Machine
end

