-- ==== Sys2Proof/Machine/Flags.lean ====
section
/-! DEFINITION. Compare results, predicate operations, carries and float operand modifiers of crew instructions (chapter 13
of spec/, R659-R668). -/
namespace Sys2Proof.Machine

/-- An integer compare of two 32-bit values by its code (ISETP). -/
def compareInt (code : Nat) (signed : Bool) (a b : Nat) : Bool :=
  let lt := if signed then decide (toSigned 32 a < toSigned 32 b) else decide (a < b)
  match code with
  | 0 => a = b
  | 1 => a ≠ b
  | 2 => lt
  | 3 => lt || a = b
  | 4 => !(lt || a = b)
  | _ => !lt

/-- A float compare by its code; with a NaN only NE is true (R668). -/
def compareFloat (code : Nat) (a b : Fp) : Bool :=
  if a.isNan || b.isNan then code = 1
  else
    match code with
    | 0 => !a.lt b && !b.lt a
    | 1 => a.lt b || b.lt a
    | 2 => a.lt b
    | 3 => !b.lt a
    | 4 => b.lt a
    | _ => !a.lt b

/-- A predicate operation by its code (PLOP). -/
def predOp (code : Nat) (a b : Bool) : Bool :=
  match code with
  | 0 => a && b
  | 1 => a || b
  | 2 => a != b
  | _ => a && !b

/-- Sum with carry in: the low 32 bits and the carry out (IADDC). -/
def addCarry (a b : Nat) (carry : Bool) : Nat × Bool :=
  let x := a + b + bitNat carry
  (x % 2 ^ 32, decide (2 ^ 32 ≤ x))

/-- Magnitude, then negation, of an operand (float modifiers). -/
def Fp.modify (abs neg : Bool) (x : Fp) : Fp :=
  let y := if abs then x.abs else x
  if neg then y.neg else y

/-- Operands A, B and C of a float instruction with the modifiers of MOD. -/
def modA (m : Nat) (x : Fp) : Fp := x.modify (m.testBit 1) (m.testBit 0)
def modB (m : Nat) (x : Fp) : Fp := x.modify (m.testBit 3) (m.testBit 2)
def modC (m : Nat) (x : Fp) : Fp := x.modify false (m.testBit 4)

end Sys2Proof.Machine
end

