-- ==== Sys2Proof/Machine/Operands.lean ====
section
/-! DEFINITION. The instruction word of a crew, its registers and its operand forms (chapter 13 of spec/, R651-R662). -/
namespace Sys2Proof.Machine

/-! ### Fields of an instruction word (13, Formats and bit layout) -/

abbrev iOp (w : Nat) : Nat := bitsOf w 0 8
abbrev iPred (w : Nat) : Nat := bitsOf w 8 3
abbrev iNeg (w : Nat) : Bool := w.testBit 11
abbrev iSigned (w : Nat) : Bool := w.testBit 15
abbrev iDst (w : Nat) : Nat := bitsOf w 16 8
abbrev iA (w : Nat) : Nat := bitsOf w 24 8
abbrev iB (w : Nat) : Nat := bitsOf w 32 8
abbrev iC (w : Nat) : Nat := bitsOf w 40 8
abbrev iMod (w : Nat) : Nat := bitsOf w 48 8
abbrev iBs (w : Nat) : Bool := w.testBit 56
abbrev iCs (w : Nat) : Bool := w.testBit 57
abbrev iImm (w : Nat) : Nat := bitsOf w 32 32
abbrev iWidth (w : Nat) : Nat := bitsOf w 48 4
abbrev iOpmod (w : Nat) : Nat := bitsOf w 52 4

/-- Sign-extended immediate modulo `2 ^ 64`. -/
def iSext (w : Nat) : Nat := ofSigned 64 (toSigned 32 (iImm w))

/-- Whether an opcode has format I (R662 and the class tables). -/
def formatI (op : Nat) : Bool :=
  op = 0x01 || op = 0x03 || (0x20 ≤ op && op ≤ 0x2F) || op = 0x98 || op = 0x99 || op = 0x9C

/-- Whether an opcode is assigned (R656, R659, R662). -/
def assigned (op : Nat) : Bool :=
  op ≤ 0x0C || op = 0x0E || (0x10 ≤ op && op ≤ 0x23) || (0x25 ≤ op && op ≤ 0x2B) || op = 0x2F || (0x30 ≤ op && op ≤ 0x35)
    || (0x40 ≤ op && op ≤ 0x46) || (0x48 ≤ op && op ≤ 0x4A) || (0x50 ≤ op && op ≤ 0x52) || (0x60 ≤ op && op ≤ 0x62)
    || (0x70 ≤ op && op ≤ 0x73) || (0x80 ≤ op && op ≤ 0x82) || (0x90 ≤ op && op ≤ 0x9C)

/-- Whether the reserved bits of a word are zero: bits 63:58, or bits 14:13 in format I (R656). -/
def reservedOk (w : Nat) : Bool :=
  if formatI (iOp w) then bitsOf w 13 2 = 0 else bitsOf w 58 6 = 0

/-! ### Registers (R651-R655) -/

/-- v register `n` of thread `t`. -/
def readV (c : Crew) (n t : Nat) : Word32 := Table.getD c.v (n * 64 + t) 0

/-- `k` consecutive v registers of a thread as one number, low word first. -/
def readVs (c : Crew) (n t : Nat) : Nat → Nat
  | 0 => 0
  | k + 1 => (readV c n t).toNat + 2 ^ 32 * readVs c (n + 1) t k

/-- s register `n`. -/
def readS (c : Crew) (n : Nat) : Nat := (Table.getD c.s n 0).toNat

/-- p register `n` of thread `t`; p0 is true. -/
def readP (c : Crew) (n t : Nat) : Bool := n = 0 || (Table.getD c.p n 0).testBit t

/-- A write of a v register of a thread; the register's pending load writes give way to it (R654). -/
def writeKey (key : Nat) (x : Word32) (c : Crew) : Crew :=
  { c with v := Table.put c.v key x
           loads := c.loads.map (fun l => { l with writes := l.writes.filter (fun e => e.1 ≠ key) }) }

/-- The low 32-bit words of a number for `k` consecutive registers of a thread, as keyed writes. -/
def wordsFor (n t : Nat) : Nat → Nat → List (Nat × Word32)
  | 0, _ => []
  | k + 1, x => (n * 64 + t, BitVec.ofNat 32 x) :: wordsFor (n + 1) t k (x / 2 ^ 32)

/-- Keyed writes made in order. -/
def writeKeys (ws : List (Nat × Word32)) (c : Crew) : Crew := ws.foldl (fun c e => writeKey e.1 e.2 c) c

/-- A write of an s register. -/
def writeS (n x : Nat) (c : Crew) : Crew := { c with s := Table.put c.s n (BitVec.ofNat 64 x) }

/-- A write of a p register of the listed threads. -/
def writeP (n : Nat) (ts : List Nat) (f : Nat → Bool) (c : Crew) : Crew :=
  { c with p := Table.put c.p n (ts.foldl (fun m t => setBits m t 1 (bitNat (f t))) (Table.getD c.p n 0)) }

/-- Whether a v register has a write pending from a load or atomic (R654, R683). -/
def pendingV (c : Crew) (n k : Nat) : Bool :=
  c.loads.any (fun l => l.writes.any (fun e => n ≤ e.1 / 64 && e.1 / 64 < n + k))

/-! ### An instruction at issue -/

/-- A crew with the instruction it issues, its group and its launch. -/
structure Issue where
  id : Nat
  c : Crew
  g : Group
  l : Launch
  w : Nat
  deriving DecidableEq, Repr

/-- Threads of the crew: 32 in sprint mode, 64 in distance mode (12). -/
def Issue.threads (i : Issue) : Nat := if i.l.distance then 64 else 32

/-- The predicate of a thread (13, Formats). -/
def Issue.pred (i : Issue) (t : Nat) : Bool := readP i.c (iPred i.w) t != iNeg i.w

/-- Threads on which a thread instruction is performed. -/
def Issue.active (i : Issue) : List Nat := (List.range i.threads).filter i.pred

/-- The crew at its next instruction. -/
def Issue.next (i : Issue) : Crew := { i.c with pc := (i.c.pc + 8) % 2 ^ 64 }

/-- How an instruction ends: its context is killed; it waits, and nothing changes; or it is performed. -/
inductive Issued where
  | kill (cause va : Nat) (s : State)
  | wait
  | go (s : State)

/-- The crew written back. -/
def Issue.put (i : Issue) (c : Crew) (s : State) : State :=
  setScl { s.scl with crews := Table.put s.scl.crews i.id c } s

/-- Whether a v operand of `k` registers is legal: below VREGS, a pair even, a quad a multiple of 4 (R653). -/
def Issue.vOk (i : Issue) (n k : Nat) : Bool := n % k = 0 && n + k ≤ i.l.vregs

/-- Registers an instruction names: v registers written and read through DST, A, B and C (0 for none), and whether B and C
may be s registers. -/
structure Shape where
  dst : Nat := 1
  a : Nat := 1
  b : Nat := 0
  c : Nat := 0
  readsDst : Bool := false
  deriving DecidableEq, Repr

/-- Whether field B is an s register, an immediate, or a v register. -/
def Issue.bIsS (i : Issue) : Bool := iBs i.w && !formatI (iOp i.w)
def Issue.cIsS (i : Issue) : Bool := iCs i.w && !formatI (iOp i.w)

/-- The encoding checks of a thread instruction of a shape (R653, R656, R657). -/
def Issue.legal (i : Issue) (sh : Shape) : Bool :=
  reservedOk i.w && (sh.dst = 0 || i.vOk (iDst i.w) sh.dst) && (sh.a = 0 || i.vOk (iA i.w) sh.a)
    && (sh.b = 0 || formatI (iOp i.w) || (if i.bIsS then iB i.w < 64 else i.vOk (iB i.w) sh.b))
    && (sh.c = 0 || formatI (iOp i.w) || (if i.cIsS then iC i.w < 64 else i.vOk (iC i.w) sh.c))

/-- Whether an operand of a shape waits for a load (R654). -/
def Issue.waits (i : Issue) (sh : Shape) : Bool :=
  pendingV i.c (iA i.w) sh.a || (!i.bIsS && !formatI (iOp i.w) && pendingV i.c (iB i.w) sh.b)
    || (!i.cIsS && !formatI (iOp i.w) && pendingV i.c (iC i.w) sh.c)
    || (sh.readsDst && pendingV i.c (iDst i.w) sh.dst)

/-- Operand A of a thread. -/
def Issue.va (i : Issue) (k t : Nat) : Nat := readVs i.c (iA i.w) t k

/-- Operand B of a thread: the immediate, the low bits of an s register, or v registers (R657, R662). -/
def Issue.vb (i : Issue) (k t : Nat) : Nat :=
  if formatI (iOp i.w) then iImm i.w
  else if i.bIsS then readS i.c (iB i.w) % 2 ^ (32 * k)
  else readVs i.c (iB i.w) t k

/-- Operand C of a thread. -/
def Issue.vc (i : Issue) (k t : Nat) : Nat :=
  if i.cIsS then readS i.c (iC i.w) % 2 ^ (32 * k) else readVs i.c (iC i.w) t k

/-- The kill of an undefined or forbidden encoding (12, cause 4). -/
def illegal (s : State) : Issued := .kill 4 0 s

/-- A crew may issue: it has not ended, it is not at a barrier, its context lives, its sector's crews are not held, and its
scull is not under test (12 R621, R641; 04 R207; 17 R855). -/
def mayIssue (s : State) (c : Crew) (g : Group) (l : Launch) : Bool :=
  !c.ended && !c.atBarrier && ((ctxOf s l.ctx).map (fun x => x.dying.isNone && x.killed.isNone)).getD false
    && !(Table.getD s.rings.held (l.ctx / 64) 0).testBit 0
    && !s.err.running.any (fun t => t.res.kind = 4 && t.res.index = g.scull)

/-- Cause TRANSLATION of a request that met a closed gate: its record names RETRY_POWER (16 R836). -/
abbrev gatedCause : Nat := 0x101

/-- A fault of an issued instruction or a returned access kills the context with the instruction's PC (12 R641-R643, 13
R697). -/
def faultCrew (c : Crew) (g : Group) (l : Launch) (cause va : Nat) (s : State) : State :=
  killContext l.ctx { cause := cause % 256, scull := g.scull, group := g.number, crew := c.number, pc := c.pc, va := va,
                      status := if cause = 2 then stPoisoned else if cause = gatedCause then stRetryPower else stContextKilled } s

/-- The word at a crew's PC: a kill, a stall, or the word (R652, R682; 05 R243). -/
inductive Fetched where
  | kill (cause va : Nat) (s : State)
  | wait
  | word (w : Nat) (s : State)

/-- Instruction fetch (R652, R656, R682). -/
def fetchWord (c : Crew) (g : Group) (l : Launch) (s : State) : Fetched :=
  if c.pc % 8 ≠ 0 then .kill 5 c.pc s
  else
    match translate [] (g.scull / 8) l.ctx .fetch c.pc s with
    | .fault s => .kill 1 c.pc s
    | .gated s => .kill gatedCause c.pc s
    | .stall => .wait
    | .at a s =>
      match faultyRead [] a 8 s with
      | (.ok bs, s) => .word (leNat bs) s
      | (.error _, s) => .kill 2 c.pc s

/-- A detected scull error at issue, from an armed injection point (17 R843, R868). -/
def scullFault (g : Group) (l : Launch) (s : State) : Option (Detect × State) :=
  let mk := fun (source lane unit : Nat) (forced : Bool) (whole : Bool) =>
    ({ source := source, severity := 2, res := { kind := 4, index := g.scull, lane := if whole then none else some lane },
       sector := l.ctx / 64, status := stHwFault, d0 := lane + unit * 2 ^ 8, d1 := l.ctx, injected := true,
       forced := forced } : Detect)
  match firePoint 0x0301 g.scull s with
  | (true, p, s) => some (mk 0x0301 0 0 p false, s)
  | (false, _, _) =>
    match firePoint 0x0303 g.scull s with
    | (true, p, s) => some (mk 0x0303 0 5 p true, s)
    | (false, _, _) => none

/-- Issue of one instruction of a crew: the word at its PC, when its opcode is one of the row's (R651-R656). A word that is
not assigned kills the context under any row; a word of another row does nothing (log entry 6). `act` acts on a scull that
has a persistent fault. -/
def issue (act : ActFn) (ops : List Nat) (crew : Nat) (body : Issue → State → Issued) (s : State) : State :=
  match Table.find s.scl.crews crew with
  | none => s
  | some c =>
    match Table.find s.scl.groups c.group with
    | none => s
    | some g =>
      match Table.find s.scl.launches g.age with
      | none => s
      | some l =>
        if !mayIssue s c g l then s
        else
          match fetchWord c g l s with
          | .wait => s
          | .kill cause va s => faultCrew c g l cause va s
          | .word w s' =>
            if !assigned (iOp w) then faultCrew c g l 4 0 s'
            else if !ops.contains (iOp w) then s
            else
              match scullFault g l s' with
              | some (d, s') => faultCrew c g l 10 0 (detect act d s')
              | none =>
                match body { id := crew, c := c, g := g, l := l, w := w } s' with
                | .wait => s
                | .kill cause va s' => faultCrew c g l cause va s'
                | .go s' => s'

/-- A thread instruction that writes v registers: for each active thread, a function of its operands (R651, R659). -/
def threadBody (sh : Shape) (f : Issue → Nat → Nat → Nat → Nat → Nat) (i : Issue) (s : State) : Issued :=
  if !i.legal sh then illegal s
  else if i.waits sh then .wait
  else
    let ws := i.active.flatMap (fun t => wordsFor (iDst i.w) t sh.dst (f i t (i.va sh.a t) (i.vb sh.b t) (i.vc sh.c t)))
    .go (i.put (writeKeys ws i.next) s)

/-- A crew instruction: performed when the instruction predicate is true, else only the PC advances (R651). -/
def crewBody (ok : Issue → Bool) (f : Issue → State → Issued) (i : Issue) (s : State) : Issued :=
  if !(reservedOk i.w && ok i) then illegal s
  else if i.pred 0 then f i s
  else .go (i.put i.next s)

end Sys2Proof.Machine
end

