-- ==== Sys2Proof/Machine/Scull.lean ====
section
/-! DEFINITION. Control, crew, lane, integer, wide, modular, float, conversion, predicate and scalar instructions of a crew
(chapter 13 of spec/). A row names the crew; its word is fetched at the crew's PC (log entry 24). -/
namespace Sys2Proof.Machine

/-- A crew instruction's issue as a step. -/
def crewStep (ops : List Nat) (crew : Nat) (body : Issue → State → Issued) (s : State) : Out :=
  .next (issue actScull ops crew body s)

/-! ### Control, crew and lane instructions -/

def execCrewNop (crew : Nat) (s : State) : Out :=
  crewStep [0x00] crew (crewBody (fun _ => true) (fun i s => .go (i.put i.next s))) s

/-- PC plus 8 times the immediate. -/
def Issue.target (i : Issue) : Nat := (i.c.pc + 8 * iSext i.w) % 2 ^ 64

/-- Whether a branch condition holds (R659, R661). -/
def Issue.branches (i : Issue) : Bool :=
  match iDst i.w with
  | 0 => i.pred 0
  | 1 => (List.range i.threads).any i.pred
  | _ => (List.range i.threads).all i.pred

def braBody (i : Issue) (s : State) : Issued :=
  if !reservedOk i.w || 2 < iDst i.w then illegal s
  else .go (i.put (if i.branches then { i.c with pc := i.target } else i.next) s)

def execBra (crew : Nat) (s : State) : Out := crewStep [0x01] crew braBody s

def execJmp (crew : Nat) (s : State) : Out :=
  crewStep [0x02] crew (crewBody (fun i => iA i.w < 64) (fun i s => .go (i.put { i.c with pc := readS i.c (iA i.w) } s))) s

def execCall (crew : Nat) (s : State) : Out :=
  crewStep [0x03] crew (crewBody (fun i => iDst i.w < 64)
    (fun i s => .go (i.put (writeS (iDst i.w) i.next.pc { i.c with pc := i.target }) s))) s

/-- EXIT (R651, 12 R612, R620, R639): `elapsed` is the time since the launch's first placement, in ns. -/
def execExit (crew elapsed : Nat) (s : State) : Out :=
  crewStep [0x04] crew (crewBody (fun _ => true)
    (fun i s => .go (settleGroup i.c.group elapsed (releaseBarrier i.c.group (i.put { i.next with ended := true } s))))) s

/-- BAR (R660, 12 R639). -/
def barBody (i : Issue) (s : State) : Issued :=
  if !reservedOk i.w || iPred i.w ≠ 0 || iNeg i.w then illegal s
  else .go (releaseBarrier i.c.group (i.put { i.next with atBarrier := true } s))

def execBar (crew : Nat) (s : State) : Out := crewStep [0x05] crew barBody s

/-- FENCE (R638, R690): every earlier access was performed at its issue, so the fence is complete (log entry 25). -/
def fenceBody (i : Issue) (s : State) : Issued :=
  if !reservedOk i.w || 2 < iMod i.w then illegal s else .go (i.put i.next s)

def execFence (crew : Nat) (s : State) : Out := crewStep [0x06] crew fenceBody s

/-- Descriptors queued on a scull (12 R633). -/
def matrixQueue (s : State) (j : Nat) : List Descriptor := Table.getD s.scl.matrix j []

/-- MISSUE (R689, 12 R632-R633): the descriptor of the cox lane enters the scull's matrix queue. -/
def missue (i : Issue) (s : State) : Issued :=
  let token := iMod i.w % 8
  let q := matrixQueue s i.g.scull
  if iA i.w % 8 ≠ 0 then .kill 5 0 s
  else if !i.vOk (iA i.w) 8 then illegal s
  else if pendingV i.c (iA i.w) 8 || 16 ≤ q.length || i.c.tokens.testBit token then .wait
  else
    let d : Descriptor :=
      { crew := i.id, token := token, pc := i.c.pc,
        bytes := (List.range 8).flatMap (fun k => leBytes 4 (readV i.c (iA i.w + k) 0).toNat) }
    let s := i.put { i.next with tokens := setBits i.c.tokens token 1 1 } s
    .go (setScl { s.scl with matrix := Table.put s.scl.matrix i.g.scull (q ++ [d]) } s)

def execMissue (crew : Nat) (s : State) : Out := crewStep [0x07] crew (crewBody (fun _ => true) missue) s

/-- MWAIT (R689). -/
def execMwait (crew : Nat) (s : State) : Out :=
  crewStep [0x08] crew (crewBody (fun _ => true)
    (fun i s => if i.c.tokens &&& iMod i.w ≠ 0 then .wait else .go (i.put i.next s))) s

/-- A special register (R655); `cycle` is the count of SCL cycles since the eight left reset. -/
def special (i : Issue) (cycle : Nat) (s : State) : Nat → Nat
  | 0 => s.cad.stroke
  | 1 => cycle
  | 2 => i.g.scull
  | 3 => pkgNumber s % 64
  | 4 => i.l.ctx / 64
  | 5 => i.l.ctx
  | 6 => bitNat i.l.distance + i.c.half * 2 ^ 8
  | 7 => i.c.tokens
  | 8 => i.g.age
  | _ => i.l.localBytes

def execSread (crew cycle : Nat) (s : State) : Out :=
  crewStep [0x09] crew (crewBody (fun i => iA i.w ≤ 9 && iDst i.w < 64)
    (fun i s => .go (i.put (writeS (iDst i.w) (special i cycle s (iA i.w)) i.next) s))) s

/-- Words pushed to wake queue MOD[5:0] as one push (R692, R693, 19 R924). -/
def pushWords (i : Issue) (ws : List Word32) (s : State) : Issued :=
  let q := iMod i.w % 64
  if Table.find s.sct.wake q ≠ some (i.l.ctx / 64) then illegal s
  else
    let s := i.put i.next s
    if ws = [] then .go s
    else if (wakeOf s q).kind ≠ 0 then .go (bump s .wakeMisrouted)
    else
      .go (wakePush q (ws.mapIdx (fun k w =>
        (w, k = 0 && (iMod i.w).testBit 6, k + 1 = ws.length && (iMod i.w).testBit 7))) s)

def execTpush (crew : Nat) (s : State) : Out :=
  crewStep [0x0A] crew (crewBody (fun i => iA i.w < 64)
    (fun i s => pushWords i [BitVec.ofNat 32 (readS i.c (iA i.w))] s)) s

/-- TPUSHV: a crew instruction, so it follows the cox lane, over the threads whose predicate is true (R692). -/
def execTpushv (crew : Nat) (s : State) : Out :=
  crewStep [0x0B] crew (crewBody (fun i => i.vOk (iA i.w) 1)
    (fun i s => if pendingV i.c (iA i.w) 1 then .wait
      else pushWords i (i.active.map (fun t => readV i.c (iA i.w) t)) s)) s

def execVote (crew : Nat) (s : State) : Out :=
  crewStep [0x0C] crew (crewBody (fun i => iA i.w < 8 && iDst i.w < 64)
    (fun i s => .go (i.put (writeS (iDst i.w)
      (bitMask ((List.range i.threads).filter (fun t => readP i.c (iA i.w) t))) i.next) s))) s

def execShfl (crew : Nat) (s : State) : Out :=
  crewStep [0x0E] crew (threadBody { b := 1 }
    (fun i _ _ b _ => (readV i.c (iA i.w) (b % i.threads)).toNat)) s

/-! ### Integer instructions -/

/-- An integer instruction with a format-I form (R662). -/
def intStep (op : Nat) (crew : Nat) (f : Bool → Nat → Nat → Nat) (s : State) : Out :=
  crewStep [op, op + 0x10] crew (threadBody { b := 1 } (fun i _ a b _ => f (iSigned i.w) a b)) s

def execIadd (crew : Nat) (s : State) : Out := intStep 0x10 crew (fun _ a b => a + b) s
def execIsub (crew : Nat) (s : State) : Out := intStep 0x11 crew (fun _ a b => a + 2 ^ 32 - b) s
def execImul (crew : Nat) (s : State) : Out := intStep 0x12 crew (fun _ a b => a * b) s

/-- High 32 bits of a product (IMULHI). -/
def mulHigh (signed : Bool) (a b : Nat) : Nat :=
  if signed then ofSigned 64 (toSigned 32 a * toSigned 32 b) / 2 ^ 32 else a * b / 2 ^ 32

def execImulhi (crew : Nat) (s : State) : Out := intStep 0x13 crew mulHigh s
def execImad (crew : Nat) (s : State) : Out :=
  crewStep [0x14] crew (threadBody { b := 1, c := 1 } (fun _ _ a b c => a * b + c)) s
def execAnd (crew : Nat) (s : State) : Out := intStep 0x15 crew (fun _ a b => a &&& b) s
def execOr (crew : Nat) (s : State) : Out := intStep 0x16 crew (fun _ a b => a ||| b) s
def execXor (crew : Nat) (s : State) : Out := intStep 0x17 crew (fun _ a b => a ^^^ b) s
def execShl (crew : Nat) (s : State) : Out := intStep 0x18 crew (fun _ a b => a <<< (b % 32)) s

/-- Right shift of a `w`-bit value, arithmetic when signed. -/
def shiftRight (w : Nat) (signed : Bool) (a n : Nat) : Nat :=
  if signed then ofSigned w (toSigned w a / ((2 ^ n : Nat) : Int)) else a >>> n

def execShr (crew : Nat) (s : State) : Out := intStep 0x19 crew (fun g a b => shiftRight 32 g a (b % 32)) s

/-- Whether one 32-bit value is below another. -/
def below32 (signed : Bool) (a b : Nat) : Bool := compareInt 2 signed a b

def execMin (crew : Nat) (s : State) : Out := intStep 0x1A crew (fun g a b => if below32 g b a then b else a) s
def execMax (crew : Nat) (s : State) : Out := intStep 0x1B crew (fun g a b => if below32 g a b then b else a) s
def execSel (crew : Nat) (s : State) : Out :=
  crewStep [0x1C] crew (threadBody { b := 1 } (fun i t a b _ => if readP i.c (iMod i.w % 8) t then a else b)) s
def execPopc (crew : Nat) (s : State) : Out :=
  crewStep [0x1D] crew (threadBody {} (fun _ _ a _ _ => popCount 32 a)) s
def execClz (crew : Nat) (s : State) : Out :=
  crewStep [0x1E] crew (threadBody {} (fun _ _ a _ _ => if a = 0 then 32 else 31 - Nat.log2 a)) s

/-- MOV of A, or of the immediate (R662). -/
def movBody (i : Issue) (s : State) : Issued :=
  if formatI (iOp i.w) then threadBody { a := 0, b := 1 } (fun _ _ _ b _ => b) i s
  else threadBody {} (fun _ _ a _ _ => a) i s

def execMov (crew : Nat) (s : State) : Out := crewStep [0x1F, 0x2F] crew movBody s

/-! ### Wide and modular instructions -/

def execIadd64 (crew : Nat) (s : State) : Out :=
  crewStep [0x30] crew (threadBody { dst := 2, a := 2, b := 2 } (fun _ _ a b _ => a + b)) s

/-- IADDC: carry in and out in p[MOD[2:0]], which may not be p0 (R653, R659). -/
def iaddcBody (i : Issue) (s : State) : Issued :=
  let p := iMod i.w % 8
  let sh : Shape := { b := 1 }
  if !i.legal sh || p = 0 then illegal s
  else if i.waits sh then .wait
  else
    let r := fun t => addCarry (i.va 1 t) (i.vb 1 t) (readP i.c p t)
    let c := writeKeys (i.active.flatMap (fun t => wordsFor (iDst i.w) t 1 (r t).1)) i.next
    .go (i.put (writeP p i.active (fun t => (r t).2) c) s)

def execIaddc (crew : Nat) (s : State) : Out := crewStep [0x31] crew iaddcBody s

/-- Montgomery product `a b 2^-64 mod q`, for `q'` with `q q' = -1 mod 2^64` (R672). -/
def montgomery (q qinv a b : Nat) : Nat :=
  let t := a * b
  let m := (t % 2 ^ 64) * qinv % 2 ^ 64
  let u := (t + m * q) / 2 ^ 64
  if q ≤ u then u - q else u

/-- A modular instruction: the result where the modulus and inputs are as R673 asks, else a free value (log entry 2). -/
def modularBody (good : Nat → Nat → Nat → Nat → Bool) (f : Nat → Nat → Nat → Nat → Nat) (i : Issue) (s : State) : Issued :=
  let sh : Shape := { dst := 2, a := 2, b := 2 }
  if !i.legal sh || !iCs i.w || 62 < iC i.w then illegal s
  else if i.waits sh then .wait
  else
    let q := readS i.c (iC i.w)
    let qi := readS i.c (iC i.w + 1)
    let value := fun t =>
      let a := i.va 2 t
      let b := i.vb 2 t
      if good q qi a b then f q qi a b else Config.freeNat (s.fresh + t)
    let c := writeKeys (i.active.flatMap (fun t => wordsFor (iDst i.w) t 2 (value t))) i.next
    .go (i.put c { s with fresh := s.fresh + 64 })

def execModmul (crew : Nat) (s : State) : Out :=
  crewStep [0x32] crew (modularBody
    (fun q qi a b => q % 2 = 1 && 3 ≤ q && q < 2 ^ 62 && a < q && b < q && (q * qi + 1) % 2 ^ 64 = 0) montgomery) s

/-- The conditions of MODADD and MODSUB (R673). -/
def addModulusOk (q _qi a b : Nat) : Bool := 2 ≤ q && q < 2 ^ 63 && a < q && b < q

def execModadd (crew : Nat) (s : State) : Out :=
  crewStep [0x33] crew (modularBody addModulusOk (fun q _ a b => (a + b) % q)) s
def execModsub (crew : Nat) (s : State) : Out :=
  crewStep [0x34] crew (modularBody addModulusOk (fun q _ a b => (a + q - b) % q)) s
def execImadw (crew : Nat) (s : State) : Out :=
  crewStep [0x35] crew (fun i s =>
    let product := fun a b => if iSigned i.w then ofSigned 64 (toSigned 32 a * toSigned 32 b) else a * b
    let sh : Shape := { dst := 2, a := 1, b := 1, c := 2 }
    if !i.legal sh then illegal s
    else if i.waits sh then .wait
    else .go (i.put (writeKeys (i.active.flatMap (fun t =>
      wordsFor (iDst i.w) t 2 (product (i.va 1 t) (i.vb 1 t) + i.vc 2 t))) i.next) s)) s

/-! ### Float instructions (R663-R668) -/

/-- A binary32 instruction of two operands with modifiers. -/
def floatStep (op crew : Nat) (f : Fp → Fp → Fp) (s : State) : Out :=
  crewStep [op] crew (threadBody { b := 1 } (fun i _ a b _ =>
    f32.round (f (modA (iMod i.w) (f32.value a)) (modB (iMod i.w) (f32.value b))))) s

def execFadd (crew : Nat) (s : State) : Out := floatStep 0x40 crew Fp.add s
def execFsub (crew : Nat) (s : State) : Out := floatStep 0x41 crew (fun a b => a.add b.neg) s
def execFmul (crew : Nat) (s : State) : Out := floatStep 0x42 crew Fp.mul s
def execFfma (crew : Nat) (s : State) : Out :=
  crewStep [0x43] crew (threadBody { b := 1, c := 1 } (fun i _ a b c =>
    f32.round (((modA (iMod i.w) (f32.value a)).mul (modB (iMod i.w) (f32.value b))).add
      (modC (iMod i.w) (f32.value c))))) s
def execFmin (crew : Nat) (s : State) : Out := floatStep 0x44 crew Fp.min s
def execFmax (crew : Nat) (s : State) : Out := floatStep 0x45 crew Fp.max s

/-- The function that MOD[2:0] of FFUNC names (R665). -/
def fpFunc : Nat → Fp → Fp
  | 0 => Fp.rcp
  | 1 => Fp.sqrt
  | 2 => Fp.rsqrt
  | 3 => Fp.exp2
  | _ => Fp.log2

def execFfunc (crew : Nat) (s : State) : Out :=
  crewStep [0x46] crew (fun i s =>
    if 4 < iMod i.w % 8 then illegal s
    else threadBody {} (fun i _ a _ _ => f32.round (fpFunc (iMod i.w % 8) (f32.value a))) i s) s

/-- A function of two 16-bit lanes (R666). -/
def lanes16 (m : Nat) (f : Fp → Fp → Fp → Fp) (a b c : Nat) : Nat :=
  let fmt := if m.testBit 5 then bf16 else f16
  let lane := fun x y z => fmt.round (f (modA m (fmt.value x)) (modB m (fmt.value y)) (modC m (fmt.value z)))
  lane (a % 2 ^ 16) (b % 2 ^ 16) (c % 2 ^ 16) + 2 ^ 16 * lane (a / 2 ^ 16) (b / 2 ^ 16) (c / 2 ^ 16)

def execHadd2 (crew : Nat) (s : State) : Out :=
  crewStep [0x48] crew (threadBody { b := 1 } (fun i _ a b _ => lanes16 (iMod i.w) (fun x y _ => x.add y) a b 0)) s
def execHmul2 (crew : Nat) (s : State) : Out :=
  crewStep [0x49] crew (threadBody { b := 1 } (fun i _ a b _ => lanes16 (iMod i.w) (fun x y _ => x.mul y) a b 0)) s
def execHfma2 (crew : Nat) (s : State) : Out :=
  crewStep [0x4A] crew (threadBody { b := 1, c := 1 }
    (fun i _ a b c => lanes16 (iMod i.w) (fun x y z => (x.mul y).add z) a b c)) s

/-- The value of a CVT source; types 0 S32, 1 U32, 2 F32, 3 F16, 4 BF16 (R667). -/
def cvtSource (ty a : Nat) : Fp :=
  match ty with
  | 0 => Fp.ofInt (toSigned 32 a)
  | 1 => Fp.ofInt a
  | 2 => f32.value a
  | 3 => f16.value (a % 2 ^ 16)
  | _ => bf16.value (a % 2 ^ 16)

/-- A value converted to a CVT destination type (R667). -/
def cvtResult (ty : Nat) (x : Fp) : Nat :=
  match ty with
  | 0 => ofSigned 32 (x.toInt (-2147483648) 2147483647)
  | 1 => ofSigned 32 (x.toInt 0 4294967295)
  | 2 => f32.round x
  | 3 => f16.round x
  | _ => bf16.round x

/-- Whether a conversion's result is stated: every one but an integer outside the range of the other integer type (R667; log
entry 26). -/
def cvtStated (src dst a : Nat) : Bool := !(src ≤ 1 && dst ≤ 1 && src ≠ dst && 2 ^ 31 ≤ a)

/-- CVT (R667): a conversion between the integer types of a value the other type does not hold gives a free value. -/
def cvtBody (i : Issue) (s : State) : Issued :=
  let src := iMod i.w % 16
  let dst := iMod i.w / 16
  if 4 < src || 4 < dst || !i.legal {} then illegal s
  else
    let free := s.fresh
    threadBody {} (fun _ t a _ _ =>
      if cvtStated src dst a then cvtResult dst (cvtSource src a) else Config.freeNat (free + t)) i
      { s with fresh := s.fresh + 64 }

def execCvt (crew : Nat) (s : State) : Out := crewStep [0x50] crew cvtBody s

/-- F8PACK: bytes 2h and 2h + 1 of the destination; the other bytes stay (R670). -/
def execF8pack (crew : Nat) (s : State) : Out :=
  crewStep [0x51] crew (threadBody { b := 1, readsDst := true } (fun i t a b _ =>
    let m := iMod i.w
    let fmt := if m.testBit 1 then e5m2 else e4m3
    let x := pack8 fmt (m.testBit 2) (f32.value a) + 2 ^ 8 * pack8 fmt (m.testBit 2) (f32.value b)
    setBits (readV i.c (iDst i.w) t).toNat (16 * (m % 2)) 16 x)) s

/-- F8UNPACK (R671). -/
def execF8unpack (crew : Nat) (s : State) : Out :=
  crewStep [0x52] crew (threadBody {} (fun i _ a _ _ =>
    let m := iMod i.w
    f32.round ((if m.testBit 2 then e5m2 else e4m3).value (bitsOf a (8 * (m % 4)) 8)))) s

/-! ### Predicate instructions -/

/-- A compare into pDST, which may not be p0 (R653). -/
def setpBody (f : Issue → Nat → Nat → Bool) (i : Issue) (s : State) : Issued :=
  let sh : Shape := { dst := 0, b := 1 }
  if !i.legal sh || iDst i.w = 0 || 7 < iDst i.w || 5 < iMod i.w then illegal s
  else if i.waits sh then .wait
  else .go (i.put (writeP (iDst i.w) i.active (fun t => f i (i.va 1 t) (i.vb 1 t)) i.next) s)

def execIsetp (crew : Nat) (s : State) : Out :=
  crewStep [0x60] crew (setpBody (fun i a b => compareInt (iMod i.w) (iSigned i.w) a b)) s
def execFsetp (crew : Nat) (s : State) : Out :=
  crewStep [0x61] crew (setpBody (fun i a b => compareFloat (iMod i.w) (f32.value a) (f32.value b))) s

/-- PLOP (R659). -/
def plopBody (i : Issue) (s : State) : Issued :=
  if !reservedOk i.w || iDst i.w = 0 || 7 < iDst i.w || 7 < iA i.w || 7 < iB i.w || 3 < iMod i.w then illegal s
  else .go (i.put (writeP (iDst i.w) i.active
    (fun t => predOp (iMod i.w) (readP i.c (iA i.w) t) (readP i.c (iB i.w) t)) i.next) s)

def execPlop (crew : Nat) (s : State) : Out := crewStep [0x62] crew plopBody s

/-! ### Scalar instructions -/

/-- A scalar instruction of two s registers. -/
def scalarStep (op crew : Nat) (f : Bool → Nat → Nat → Nat) (s : State) : Out :=
  crewStep [op] crew (crewBody (fun i => iDst i.w < 64 && iA i.w < 64 && iB i.w < 64)
    (fun i s => .go (i.put (writeS (iDst i.w)
      (f (iSigned i.w) (readS i.c (iA i.w)) (readS i.c (iB i.w))) i.next) s))) s

def execSadd (crew : Nat) (s : State) : Out := scalarStep 0x90 crew (fun _ a b => a + b) s
def execSsub (crew : Nat) (s : State) : Out := scalarStep 0x91 crew (fun _ a b => a + 2 ^ 64 - b) s
def execSmul (crew : Nat) (s : State) : Out := scalarStep 0x92 crew (fun _ a b => a * b) s
def execSand (crew : Nat) (s : State) : Out := scalarStep 0x93 crew (fun _ a b => a &&& b) s
def execSor (crew : Nat) (s : State) : Out := scalarStep 0x94 crew (fun _ a b => a ||| b) s
def execSxor (crew : Nat) (s : State) : Out := scalarStep 0x95 crew (fun _ a b => a ^^^ b) s
def execSshl (crew : Nat) (s : State) : Out := scalarStep 0x96 crew (fun _ a b => a <<< (b % 64)) s
def execSshr (crew : Nat) (s : State) : Out := scalarStep 0x97 crew (fun g a b => shiftRight 64 g a (b % 64)) s

/-- A scalar instruction with an immediate. -/
def scalarImm (op crew : Nat) (ok : Issue → Bool) (f : Issue → Nat) (s : State) : Out :=
  crewStep [op] crew (crewBody (fun i => iDst i.w < 64 && ok i)
    (fun i s => .go (i.put (writeS (iDst i.w) (f i) i.next) s))) s

def execSmovi (crew : Nat) (s : State) : Out := scalarImm 0x98 crew (fun _ => true) (fun i => iSext i.w) s
def execSsethi (crew : Nat) (s : State) : Out :=
  scalarImm 0x99 crew (fun _ => true) (fun i => setBits (readS i.c (iDst i.w)) 32 32 (iImm i.w)) s
def execSaddi (crew : Nat) (s : State) : Out :=
  scalarImm 0x9C crew (fun i => iA i.w < 64) (fun i => readS i.c (iA i.w) + iSext i.w) s

/-- S2V: half of an s register into each active thread's v register. -/
def s2vBody (i : Issue) (s : State) : Issued :=
  if 64 ≤ iA i.w then illegal s
  else threadBody { a := 0 } (fun i _ _ _ _ => bitsOf (readS i.c (iA i.w)) (if iMod i.w % 2 = 1 then 32 else 0) 32) i s

def execS2v (crew : Nat) (s : State) : Out := crewStep [0x9A] crew s2vBody s

def execV2s (crew : Nat) (s : State) : Out :=
  crewStep [0x9B] crew (crewBody (fun i => iDst i.w < 64 && i.vOk (iA i.w) 1 && iB i.w < 64)
    (fun i s => if pendingV i.c (iA i.w) 1 then .wait
      else .go (i.put (writeS (iDst i.w)
        (readV i.c (iA i.w) (readS i.c (iB i.w) % i.threads)).toNat i.next) s))) s

end Sys2Proof.Machine
end

