-- ==== Sys2Proof/Machine/ScullMem.lean ====
section
/-! DEFINITION. Global and local memory instructions of a crew and the return of their accesses (chapter 13 of spec/,
R675-R683; 12 R627-R631). Accesses are performed when the instruction issues; the registers are written, or the fault is
raised, when the access returns (log entry 25). -/
namespace Sys2Proof.Machine

/-- Bytes that a WIDTH code moves (R675). -/
def widthBytes (w : Nat) : Nat := 2 ^ iWidth w

/-- v registers that hold an access of the width. -/
def widthRegs (w : Nat) : Nat := max 1 (widthBytes w / 4)

/-- Field A is an s register when ADDR_S is 1; a local address is one v register, a global one a pair. -/
def Issue.addrOk (i : Issue) (k : Nat) : Bool := if iCs i.w then iA i.w < 64 else i.vOk (iA i.w) k

/-- The address of a thread (13, Memory access). -/
def Issue.addr (i : Issue) (k t : Nat) : Nat :=
  if iCs i.w then readS i.c (iA i.w) % 2 ^ (32 * k) else readVs i.c (iA i.w) t k

/-- Whether the address registers wait for a load. -/
def Issue.addrWaits (i : Issue) (k : Nat) : Bool := !iCs i.w && pendingV i.c (iA i.w) k

/-- A fault found before an access: cause and virtual address. -/
abbrev Fault1 := Option (Nat × Nat)

/-- Addresses of the active threads translated in ascending order; the first fault ends the list (log entry 27). -/
def resolveGlobal (faults : List LineFault) (i : Issue) (want : Want) (bytes : Nat) :
    List Nat → State → (List (Nat × Nat) × Fault1 × Bool × State)
  | [], s => ([], none, false, s)
  | t :: ts, s =>
    let va := i.addr 2 t
    if va % bytes ≠ 0 then ([], some (5, va), false, s)
    else
      match translate faults (i.g.scull / 8) i.l.ctx want va s with
      | .fault s => ([], some (1, va), false, s)
      | .gated s => ([], some (gatedCause, va), false, s)
      | .stall => ([], none, true, s)
      | .at a s =>
        match resolveGlobal faults i want bytes ts s with
        | (l, f, w, s) => ((t, a) :: l, f, w, s)

/-- DPA of offset 0 of a group's local memory (05 R222, 12). -/
def Issue.localBase (i : Issue) : Nat := 0x080040000000 + i.g.scull * 0x40000 + i.g.localOff

/-- Offsets of the active threads checked in ascending order (12 R630; log entry 27). -/
def resolveLocal (i : Issue) (bytes : Nat) : List Nat → (List (Nat × Nat) × Fault1)
  | [] => ([], none)
  | t :: ts =>
    let off := i.addr 1 t
    if i.l.localBytes < off + bytes then ([], some (3, 0))
    else if off % bytes ≠ 0 then ([], some (5, 0))
    else
      match resolveLocal i bytes ts with
      | (l, f) => ((t, i.localBase + off) :: l, f)

/-- The register value of a load: zero- or sign-extended below 4 bytes (R675). -/
def extendLoad (w : Nat) (bs : List Byte) : Nat :=
  let n := leNat bs
  if bs.length < 4 && (iOpmod w).testBit 0 then ofSigned 32 (toSigned (8 * bs.length) n) else n

/-- The virtual address that a fault of a thread names. -/
def faultVa (i : Issue) (isLocal : Bool) (t : Nat) : Nat := if isLocal then 0 else i.addr 2 t

/-- Loads of the resolved threads: register writes, and the first thread that met a fault (R675, R682). -/
def loadAll (faults : List LineFault) (i : Issue) : List (Nat × Nat) → State →
    (List (Nat × Word32) × Option Nat × State)
  | [], s => ([], none, s)
  | (t, a) :: ts, s =>
    let (r, s) := faultyRead faults a (widthBytes i.w) s
    let (ws, f, s) := loadAll faults i ts s
    match r with
    | .ok bs => (wordsFor (iDst i.w) t (widthRegs i.w) (extendLoad i.w bs) ++ ws, f, s)
    | .error _ => (wordsFor (iDst i.w) t (widthRegs i.w) 0 ++ ws, some t, s)

/-- The kill that a fault of a thread raises. -/
def accessKill (i : Issue) (va : Nat) : Kill :=
  { cause := 2, scull := i.g.scull, group := i.g.number, crew := i.c.number, pc := i.c.pc, va := va, status := stPoisoned }

/-- The crew with an access in flight. -/
def Issue.inFlight (i : Issue) (isLocal : Bool) (ws : List (Nat × Word32)) (fault : Option Nat) (c : Crew) : Crew :=
  { c with loads := c.loads ++ [{ writes := ws, fault := fault.map (fun t => accessKill i (faultVa i isLocal t)) }] }

/-- The end of an access: in flight when global (R683); a local one ends within its passes. -/
def endAccess (i : Issue) (isLocal : Bool) (ws : List (Nat × Word32)) (fault : Option Nat) (s : State) : Issued :=
  if isLocal then
    match fault with
    | some _ => .kill 2 0 s
    | none => .go (i.put (writeKeys ws i.next) s)
  else
    let c := writeKeys (ws.map (fun e => (e.1, readV i.c (e.1 / 64) (e.1 % 64)))) i.next
    .go (i.put (i.inFlight isLocal ws fault c) s)

/-- The threads and DPAs of an access: a kill, a stall, or the list. -/
def resolve (faults : List LineFault) (isLocal : Bool) (want : Want) (bytes : Nat) (ts : List Nat) (i : Issue) (s : State)
    (k : List (Nat × Nat) → State → Issued) : Issued :=
  if isLocal then
    match resolveLocal i bytes ts with
    | (_, some (cause, va)) => .kill cause va s
    | (l, none) => k l s
  else
    match resolveGlobal faults i want bytes ts s with
    | (_, _, true, _) => .wait
    | (_, some (cause, va), _, s) => .kill cause va s
    | (l, none, _, s) => k l s

/-- LD and LLD (R675, R676, R682, R683). -/
def loadBody (isLocal : Bool) (faults : List LineFault) (i : Issue) (s : State) : Issued :=
  let k := if isLocal then 1 else 2
  if !reservedOk i.w || 4 < iWidth i.w || !i.vOk (iDst i.w) (widthRegs i.w) || !i.addrOk k then illegal s
  else if i.addrWaits k then .wait
  else
    resolve faults isLocal .read (widthBytes i.w) i.active i s (fun l s =>
      match loadAll faults i l s with
      | (ws, f, s) => endAccess i isLocal ws f s)

def execLd (crew : Nat) (faults : List LineFault) (s : State) : Out := crewStep [0x70] crew (loadBody false faults) s
def execLld (crew : Nat) (s : State) : Out := crewStep [0x80] crew (loadBody true []) s

/-- The bytes that a store writes, by DPA: the highest thread gives a byte's value (R677). -/
def storeBytes (i : Issue) (l : List (Nat × Nat)) : Table Byte :=
  l.foldl (fun m e =>
    let bs := leBytes (widthBytes i.w) (readVs i.c (iB i.w) e.1 (widthRegs i.w))
    (bs.mapIdx (fun k b => (e.2 + k, b))).foldl (fun m x => Table.put m x.1 x.2) m) []

/-- One line of a store: a full-line write, or a masked write that needs the line's read half (R677, 05 R261, R268). -/
def storeLine (faults : List LineFault) (line : Nat) (bytes : Table Byte) (s : State) : Nat × State :=
  let mine := bytes.filter (fun e => e.1 / 64 = line)
  let put := fun s => mine.foldl (fun s e => poke s e.1 [e.2]) s
  if mine.length = 64 then (stOk, put (unpoison s (line * 64)))
  else
    match readLine faults (line * 64) s with
    | (0, s) => (stOk, put s)
    | r => r

/-- Every line of a store in ascending order, with the lines that were refused. -/
def storeLines (faults : List LineFault) (bytes : Table Byte) : List Nat → State → List Nat × State
  | [], s => ([], s)
  | l :: ls, s =>
    match storeLine faults l bytes s with
    | (0, s) => storeLines faults bytes ls s
    | (_, s) => let (bad, s) := storeLines faults bytes ls s; (l :: bad, s)

/-- ST and LST (R675-R677, R682; 05 R267). -/
def storeBody (isLocal : Bool) (faults : List LineFault) (i : Issue) (s : State) : Issued :=
  let k := if isLocal then 1 else 2
  if !reservedOk i.w || 4 < iWidth i.w || !i.vOk (iB i.w) (widthRegs i.w) || !i.addrOk k then illegal s
  else if i.addrWaits k || pendingV i.c (iB i.w) (widthRegs i.w) then .wait
  else
    resolve faults isLocal .write (widthBytes i.w) i.active i s (fun l s =>
      let bytes := storeBytes i l
      match storeLines faults bytes ((bytes.map (fun e => e.1 / 64)).eraseDups) s with
      | (bad, s) => endAccess i isLocal [] ((l.find? (fun e => bad.contains (e.2 / 64))).map Prod.fst) s)

def execSt (crew : Nat) (faults : List LineFault) (s : State) : Out := crewStep [0x71] crew (storeBody false faults) s
def execLst (crew : Nat) (s : State) : Out := crewStep [0x81] crew (storeBody true []) s

/-- The value an atomic leaves (R678). -/
def atomicOp (op bytes : Nat) (signed : Bool) (old x cmp : Nat) : Nat :=
  let lt := fun a b => if signed then decide (toSigned (8 * bytes) a < toSigned (8 * bytes) b) else decide (a < b)
  match op with
  | 0 => old + x
  | 1 => old &&& x
  | 2 => old ||| x
  | 3 => old ^^^ x
  | 4 => if lt x old then x else old
  | 5 => if lt old x then x else old
  | 6 => x
  | _ => if old = cmp then x else old

/-- Atomics of the resolved threads in ascending order, each on the value the one before left (R679). -/
def atomAll (faults : List LineFault) (i : Issue) : List (Nat × Nat) → State →
    (List (Nat × Word32) × Option Nat × State)
  | [], s => ([], none, s)
  | (t, a) :: ts, s =>
    let n := widthBytes i.w
    let k := widthRegs i.w
    let (r, s) := faultyRead faults a n s
    match r with
    | .ok bs =>
      let new := atomicOp (iOpmod i.w) n (iSigned i.w) (leNat bs) (readVs i.c (iB i.w) t k) (readVs i.c (iC i.w) t k)
      let (ws, f, s) := atomAll faults i ts (poke s a (leBytes n new))
      (wordsFor (iDst i.w) t k (leNat bs) ++ ws, f, s)
    | .error _ =>
      let (ws, _, s) := atomAll faults i ts s
      (wordsFor (iDst i.w) t k 0 ++ ws, some t, s)

/-- ATOM and LATOM (R678, R679). -/
def atomBody (isLocal : Bool) (faults : List LineFault) (i : Issue) (s : State) : Issued :=
  let k := if isLocal then 1 else 2
  let r := widthRegs i.w
  let noret := iBs i.w
  let cas := iOpmod i.w = 7
  if !reservedOk i.w || !(iWidth i.w = 2 || iWidth i.w = 3) || 7 < iOpmod i.w || !i.addrOk k || !i.vOk (iB i.w) r
      || (cas && !i.vOk (iC i.w) r) || !(noret || i.vOk (iDst i.w) r) then illegal s
  else if i.addrWaits k || pendingV i.c (iB i.w) r || (cas && pendingV i.c (iC i.w) r) then .wait
  else
    resolve faults isLocal .write (widthBytes i.w) i.active i s (fun l s =>
      match atomAll faults i l s with
      | (ws, f, s) => endAccess i isLocal (if noret then [] else ws) f s)

def execAtom (crew : Nat) (faults : List LineFault) (s : State) : Out := crewStep [0x72] crew (atomBody false faults) s
def execLatom (crew : Nat) (s : State) : Out := crewStep [0x82] crew (atomBody true []) s

/-- Line adds of the resolved groups, and the first group that met a fault (R680, R682). -/
def laddAll (faults : List LineFault) (i : Issue) : List (Nat × Nat) → State → Option Nat × State
  | [], s => (none, s)
  | (t, a) :: ts, s =>
    let operand := (List.range 16).flatMap (fun j => leBytes 4 (readV i.c (iB i.w) (t + j)).toNat)
    let width := 2 ^ (iOpmod i.w % 4 + 1)
    match faultyLineAdd faults a width ((iOpmod i.w).testBit 2) operand s with
    | (0, s) => laddAll faults i ts s
    | (_, s) => let (_, s) := laddAll faults i ts s; (some t, s)

/-- LADD (R680, R681). -/
def laddBody (faults : List LineFault) (i : Issue) (s : State) : Issued :=
  if !reservedOk i.w || iWidth i.w ≠ 2 || iOpmod i.w % 4 = 3 || 7 < iOpmod i.w || !i.addrOk 2 || !i.vOk (iB i.w) 1 then
    illegal s
  else if i.addrWaits 2 || pendingV i.c (iB i.w) 1 then .wait
  else
    let groups := ((List.range (i.threads / 16)).map (· * 16)).filter i.pred
    resolve faults false .write 64 groups i s (fun l s =>
      match l.find? (fun e => !isNear e.2) with
      | some e => .kill 1 (i.addr 2 e.1) s
      | none =>
        match laddAll faults i l s with
        | (f, s) => endAccess i false [] f s)

def execLadd (crew : Nat) (faults : List LineFault) (s : State) : Out := crewStep [0x73] crew (laddBody faults) s

/-- MEMORY_ACCESS_RETURN (R682, R683, R697): the oldest access of a crew returns; its registers are written, or its fault
kills the context. Loads of held crews return too (12, corner of QUIESCE). -/
def accessReturn (crew : Nat) (s : State) : State :=
  match Table.find s.scl.crews crew with
  | none => s
  | some c =>
    match c.loads with
    | [] => s
    | l :: rest =>
      match launchOfCrew s c, l.fault with
      | some launch, some k => killContext launch.ctx k s
      | _, _ =>
        let c := { c with loads := rest, v := l.writes.foldl (fun v e => Table.put v e.1 e.2) c.v }
        setScl { s.scl with crews := Table.put s.scl.crews crew c } s

/-- A fabric flit of an injected fault is retried: CORRECTED, or FATAL after 16 retries of one flit (17 R843, R868). It is
seen at the next access return (log entry 21). -/
def fabricCheck (s : State) : State :=
  match s.err.slots.find? (fun e => e.2.point = 0x0601) with
  | none => s
  | some (_, i) =>
    let fires := min i.left 16
    let s := (List.range fires).foldl (fun s _ => (firePoint 0x0601 i.target s).2.2) s
    let d : Detect := { source := 0x0601, severity := if fires = 16 then 3 else 1,
                        res := { kind := 15, index := i.target }, injected := true, forced := i.mode = 2 }
    detect actBridge d s

def execMemoryAccessReturn (crew : Nat) (s : State) : Out := .next (accessReturn crew (fabricCheck s))

end Sys2Proof.Machine
end

