-- ==== Sys2Proof/Machine/Matrix.lean ====
section
/-! DEFINITION. Matrix descriptors: checks, operands and the multiply (chapter 13 of spec/, R684-R689; 12 R632-R636). -/
namespace Sys2Proof.Machine

/-- Fields of a descriptor (R684). -/
def Descriptor.field (d : Descriptor) (off n : Nat) : Nat := fieldLE d.bytes off n
def Descriptor.aType (d : Descriptor) : Nat := d.field 1 1
def Descriptor.bType (d : Descriptor) : Nat := d.field 2 1
def Descriptor.flags (d : Descriptor) : Nat := d.field 3 1
def Descriptor.m (d : Descriptor) : Nat := d.field 4 2
def Descriptor.n (d : Descriptor) : Nat := d.field 6 2
def Descriptor.k (d : Descriptor) : Nat := d.field 8 2
def Descriptor.dOff (d : Descriptor) : Nat := d.field 12 4
def Descriptor.aAddr (d : Descriptor) : Nat := d.field 16 8
def Descriptor.bAddr (d : Descriptor) : Nat := d.field 24 8
def Descriptor.accumulate (d : Descriptor) : Bool := d.flags.testBit 0
def Descriptor.aGlobal (d : Descriptor) : Bool := d.flags.testBit 1
def Descriptor.bGlobal (d : Descriptor) : Bool := d.flags.testBit 2

/-- Class of an element type: 0 FP8, 1 integer, 2 BF16, 3 FP16 (R685). -/
def typeClass (t : Nat) : Nat := if t ≤ 1 then 0 else if t ≤ 3 then 1 else t - 2

/-- Bytes of an element. -/
def typeBytes (t : Nat) : Nat := if t ≤ 3 then 1 else 2

/-- Bytes of operand A, B and of D. -/
def Descriptor.aBytes (d : Descriptor) : Nat := d.m * d.k * typeBytes d.aType
def Descriptor.bBytes (d : Descriptor) : Nat := d.n * d.k * typeBytes d.bType
def Descriptor.dBytes (d : Descriptor) : Nat := d.m * d.n * 4

/-- A local operand: offset below 2 ^ 32, inside the allocation, apart from D. -/
def Descriptor.localOk (d : Descriptor) (addr bytes alloc : Nat) : Bool :=
  addr < 2 ^ 32 && addr + bytes ≤ alloc && !overlaps addr bytes d.dOff d.dBytes

/-- The checks when the engine starts a descriptor, but for translation (R688). -/
def Descriptor.ok (d : Descriptor) (alloc : Nat) : Bool :=
  d.field 0 1 = 1 && d.flags < 8 && d.field 10 2 = 0 && d.aType ≤ 5 && d.bType ≤ 5
    && typeClass d.aType = typeClass d.bType
    && 16 ≤ d.m && d.m ≤ 256 && d.m % 16 = 0 && 16 ≤ d.n && d.n ≤ 256 && d.n % 16 = 0
    && 32 ≤ d.k && d.k ≤ 4096 && d.k % 32 = 0 && d.dOff % 256 = 0 && d.aAddr % 64 = 0 && d.bAddr % 64 = 0
    && d.dOff + d.dBytes ≤ alloc
    && (d.aGlobal || d.localOk d.aAddr d.aBytes alloc) && (d.bGlobal || d.localOk d.bAddr d.bBytes alloc)

/-- Why an operand could not be read: a failed translation, or a line that was refused. -/
inductive OperandFault where
  | translation (va : Nat)
  | line (va : Nat)
  deriving DecidableEq, Repr

/-- Lines of a global operand read in ascending order (R688). -/
def readGlobal (faults : List LineFault) (g : Group) (x : Nat) : Nat → Nat → State →
    Except OperandFault (List Byte) × State
  | 0, _, s => (.ok [], s)
  | k + 1, va, s =>
    match translate faults (g.scull / 8) x .read va s with
    | .fault s => (.error (.translation va), s)
    | .gated s => (.error (.translation va), s)
    | .stall => (.error (.translation va), s)
    | .at a s =>
      match faultyRead faults a 64 s with
      | (.error _, s) => (.error (.line va), s)
      | (.ok bs, s) =>
        match readGlobal faults g x k (va + 64) s with
        | (.ok rest, s) => (.ok (bs ++ rest), s)
        | r => r

/-- An operand of a descriptor read: local bytes, or a global range. -/
def readOperand (faults : List LineFault) (g : Group) (x : Nat) (isGlobal : Bool) (addr bytes : Nat) (s : State) :
    Except OperandFault (List Byte) × State :=
  if isGlobal then readGlobal faults g x (bytes / 64) addr s
  else
    match faultyRead faults (0x080040000000 + g.scull * 0x40000 + g.localOff + addr) bytes s with
    | (.ok bs, s) => (.ok bs, s)
    | (.error _, s) => (.error (.line 0), s)

/-- The value of an element of a float type (R671, R685). -/
def elementFp (t bits : Nat) : Fp :=
  match t with
  | 0 => e4m3.value bits
  | 1 => e5m2.value bits
  | 4 => bf16.value bits
  | _ => f16.value bits

/-- The value of an 8-bit integer element: 2 S8, 3 U8. -/
def elementInt (t bits : Nat) : Int := if t = 2 then toSigned 8 bits else bits

/-- Element `i` of an operand of a type. -/
def element (t : Nat) (bs : List Byte) (i : Nat) : Nat := fieldLE bs (i * typeBytes t) (typeBytes t)

/-- One block of 32 products and the running value, summed exactly and rounded once to binary32 (R686). -/
def blockSum (d : Descriptor) (a b : List Byte) (row col blk running : Nat) : Nat :=
  let terms := (List.range 32).map (fun j =>
    (elementFp d.aType (element d.aType a (row * d.k + blk * 32 + j))).mul
      (elementFp d.bType (element d.bType b (col * d.k + blk * 32 + j))))
  f32.round (terms.foldl Fp.add (f32.value running))

/-- One element of D from its old value (R686). -/
def dElement (d : Descriptor) (a b : List Byte) (row col old : Nat) : Nat :=
  let start := if d.accumulate then old else 0
  if typeClass d.aType = 1 then
    ofSigned 32 ((start : Int) + ((List.range d.k).map (fun j =>
      elementInt d.aType (element d.aType a (row * d.k + j)) * elementInt d.bType (element d.bType b (col * d.k + j)))).sum)
  else (List.range (d.k / 32)).foldl (fun r blk => blockSum d a b row col blk r) start

/-- D, row-major (R684). -/
def dResult (d : Descriptor) (a b old : List Byte) : List Byte :=
  (List.range d.m).flatMap (fun row => (List.range d.n).flatMap (fun col =>
    leBytes 4 (dElement d a b row col (fieldLE old ((row * d.n + col) * 4) 4))))

/-- The kill of a descriptor's context, with the PC of its MISSUE. -/
def descriptorKill (d : Descriptor) (g : Group) (l : Launch) (c : Crew) (cause va : Nat) (s : State) : State :=
  faultCrew { c with pc := d.pc } g l cause va s

/-- The descriptor at the head of a scull's queue run to its end (R686-R689, 12 R620). -/
def descriptorComplete (j elapsed : Nat) (faults : List LineFault) (s : State) : State :=
  match matrixQueue s j with
  | [] => s
  | d :: rest =>
    match Table.find s.scl.crews d.crew with
    | none => s
    | some c =>
      match Table.find s.scl.groups c.group with
      | none => s
      | some g =>
        match Table.find s.scl.launches g.age with
        | none => s
        | some l =>
          if s.err.running.any (fun t => t.res.kind = 4 && t.res.index = j) then s
          else
          match firePoint 0x0302 j s with
          | (true, p, s) =>
            let e : Detect :=
              { source := 0x0302, severity := 2, res := { kind := 4, index := j }, sector := l.ctx / 64,
                status := stHwFault, d0 := 4 * 2 ^ 8, d1 := l.ctx, injected := true, forced := p }
            descriptorKill d g l c 10 0 (detect actScull e s)
          | (false, _, s) =>
            if !d.ok l.localBytes then descriptorKill d g l c 6 0 s
            else
              match readOperand faults g l.ctx d.aGlobal d.aAddr d.aBytes s with
              | (.error (.translation va), s) => descriptorKill d g l c 6 va s
              | (.error (.line va), s) => descriptorKill d g l c 2 va s
              | (.ok a, s) =>
                match readOperand faults g l.ctx d.bGlobal d.bAddr d.bBytes s with
                | (.error (.translation va), s) => descriptorKill d g l c 6 va s
                | (.error (.line va), s) => descriptorKill d g l c 2 va s
                | (.ok b, s) =>
                  match (if d.accumulate then readOperand [] g l.ctx false d.dOff d.dBytes s else (.ok [], s)) with
                  | (.error _, s) => descriptorKill d g l c 2 0 s
                  | (.ok old, s) =>
                    let (_, s) := trustedWrite (0x080040000000 + g.scull * 0x40000 + g.localOff + d.dOff)
                      (dResult d a b old) s
                    let c := { c with tokens := setBits c.tokens d.token 1 0 }
                    let s := setScl { s.scl with crews := Table.put s.scl.crews d.crew c
                                                 matrix := Table.put s.scl.matrix j rest } s
                    settleGroup c.group elapsed s

def execDescriptorComplete (scull elapsed : Nat) (faults : List LineFault) (s : State) : Out :=
  .next (descriptorComplete scull elapsed faults s)

end Sys2Proof.Machine
end

