-- ==== Sys2Proof/Machine/Resets.lean ====
section
/-! DEFINITION. Warm, sector, function-level, engine and host-port resets, the watchdog, the PLLs, and configuration requests (chapter
16 of spec/, R808-R820, R841; 15 R749-R771; 02 R106; 03 R148). -/
namespace Sys2Proof.Machine

/-! ### Host port (15 R768-R771) -/

/-- Every function's configuration space at its reset values, and the link down; PCI.PORT_RESETS counts. -/
def dropHost (s : State) : State :=
  bump { s with pci := { s.pci with fns := [], vfEnable := false, numVfs := 0, linkUp := false, speed := 0, width := 0, flit := false,
                                    ide := [] } } .pciPortResets

/-- Host-memory rings DISABLED without completions; ring 0 of every sector is one, so ENABLE and RESET read 0 (log entry 93). -/
def dropHostRings (s : State) : State :=
  let gone := fun (i : Nat) => !(ringOf s i).hub
  let s := { s with rings := { s.rings with table := s.rings.table.filter (fun e => e.2.hub), urgent := s.rings.urgent.filter (fun i => !gone i) } }
  (List.range 8).foldl (fun s n => rput s .cmdAdminCfg n 0 (setBits (rget s .cmdAdminCfg n) 32 2 0)) s

/-- HOST_PORT_RESET (R768, R769). -/
def hostPortReset (cause : PortReset) (s : State) : State :=
  let s := match cause with
    | .perst => { s with pci := { s.pci with perst := true } }
    | _ => s
  if !s.rst.powered || (cause ≠ .perst && !s.pci.linkUp) then s
  else setSealing { s.sealing with sectors := [] } (dropHostRings (dropHost s))

def execHostPortReset (cause : PortReset) (s : State) : Out := .next (hostPortReset cause s)

/-! ### Sector and function-level resets (R812-R815; 15 R757, R758) -/

/-- A reset of every sector. -/
def resetSectors (s : State) : State := (List.range 8).foldl (fun s n => resetSector n s) s

/-- A write of RST.SECTOR_RESET through a function: bits of sectors, taken through the physical function only. -/
def sectorReset (fn : Fn) (value : Nat) (s : State) : State :=
  match fn with
  | .vf _ => filterRefuse fn (Reg.rstSectorReset.offset 0 0) s
  | .pf => (bitList 8 value).foldl (fun s n => resetSector n s) s

def execSectorReset (fn : Fn) (value : Nat) (s : State) : Out := .next (sectorReset fn value s)

/-- VF Enable cleared by host software. -/
def clearVfs (s : State) : State :=
  if !s.pci.vfEnable then s
  else
    resetSectors { s with pci := { s.pci with vfEnable := false, numVfs := 0, fns := s.pci.fns.filter (fun e => e.1 = 0) } }

def execVfEnableClear (s : State) : Out := .next (clearVfs s)

/-- FUNCTION_LEVEL_RESET (R814). -/
def functionReset (fn : Fn) (s : State) : State :=
  if !s.pci.linkUp then s
  else
    match fn with
    | .pf =>
      let s := clearVfs (resetSector 0 s)
      { s with pci := { s.pci with fns := [] } }
    | .vf n => if s.pci.vfEnable && n < s.pci.numVfs then setFn (resetSector n s) (.vf n) {} else s

def execFunctionLevelReset (fn : Fn) (s : State) : Out := .next (functionReset fn s)

/-! ### Engine resets (R816; 12 R648; 09 R492) -/

/-- An engine reset of a resource that is not OFF or retired: of an eight with the cause of the kill, or of an engine. -/
def resetEngine (kind i cause : Nat) (s : State) : State :=
  if kind = 1 then killOnSculls (fun j => j / 8 = i) cause (8 * i) s else latGo i (latStop i stHwFault stRetryBusy s)

/-- ENGINE_RESET: by a register write through a function, or by firmware; a KIND or INDEX that names nothing is discarded. -/
def engineReset (fn : Option Fn) (kind index : Nat) (s : State) : State :=
  let act := fun (s : State) =>
    if !((kind = 1 && index < 32) || (kind = 2 && index < 8)) then s
    else if !powerAvail s kind index || powerOf s kind index = .off then bump s .rstEngineDiscards
    else resetEngine kind index 11 s
  match fn with
  | none => act s
  | some .pf => act (rput s .rstEngineReset 0 0 (index % 64 + kind % 4 * 64))
  | some f => filterRefuse f (Reg.rstEngineReset.offset 0 0) s

def execEngineReset (fn : Option Fn) (kind index : Nat) (s : State) : Out := .next (engineReset fn kind index s)

/-! ### Warm resets (R808, R809, R817, R820) -/

/-- Register blocks that a warm reset returns to their reset values: CMD, SCL, LAT, HEAT, RNG, RDMA, CHD, ETH, SEAL, PAIR, WAKE (log
entry 77). -/
def warmBlocks : List Nat := [3, 7, 8, 9, 0xA, 0xB, 0xC, 0xD, 0xF, 0x15, 0x16]

/-- The sectors after a warm reset that interrupts a sector command (03 R148): from step 6 on its ownership stands as step 7 leaves it;
before, every resource stays where it was. -/
def revertSectors (s : State) : State :=
  match s.sct.cmd with
  | none => s
  | some c =>
    let s := c.touched.foldl (fun s n => setSector n { sectorOf s n with state := .active } s) s
    let gone := (c.op = .stop && 6 ≤ c.step) || (c.op = .define && c.step < 6)
    setSct { s.sct with cmd := none, sectors := if gone then Table.drop s.sct.sectors c.target else s.sct.sectors } s

/-- The source starts again; retired annuli and their counts stay (08 R442). -/
def restartSource (s : State) : State :=
  let annuli := s.rng.annuli.map (fun e => (e.1,
    ({ state := if e.2.state = .retired then .retired else .testing, startup := e.2.state ≠ .retired, failures := e.2.failures,
       blocks := e.2.blocks } : Annulus)))
  setRng { annuli := annuli, instantiations := s.rng.instantiations } s

/-- Links DOWN in a new epoch, with their retired lanes. -/
def restartLinks (s : State) : State :=
  setChord { links := s.chord.links.map (fun e =>
    (e.1, ({ retired := e.2.retired, spareUsed := e.2.spareUsed, epoch := e.2.epoch + 1 } : Link))) } s

/-- Tests in progress and queued are abandoned; injection slots disarm (17 R870, R874; log entry 94). -/
def abandonTests (s : State) : State :=
  let e := s.err
  { s with err := { e with abandoned := e.abandoned ++ (e.running ++ e.queued).map (fun t => { t with joined := [] }), running := [],
                           queued := [], slots := [] } }

/-- The cadence over a warm reset (02 R106). -/
def warmCadence (s : State) : State :=
  let s := setCad { s.cad with marks := [], taken := [] } s
  rput s .cadStatus 0 0 (setBits (rget s .cadStatus) 5 1 1)

/-- Memory over a warm reset: contents and poison stay, but for the lattice stores (05 R288; 09 R494). -/
def warmMemory (s : State) : State :=
  let s := zeroFill (abandonPage s) 0x080020000000 0x20000000
  { s with mover := [], mem := { s.mem with caches := [], scrubActive := false, scrubGranule := 0 } }

/-- A warm reset with a cause: everything that the table of what survives does not keep is at its reset values, and the boot runs up
to the choice of an image. An interrupted trial is a fallback (R826). -/
def warmReset (cause : Nat) (s : State) : State :=
  if !s.rst.powered || s.rst.tripped then s
  else
    let s := if pairLive s then sendHeartbeat 7 s else s
    let fell := s.rst.trial && !s.rst.bootDone
    let s := dropHost (abandonTests (warmMemory (warmCadence (revertSectors s))))
    let s := restartLinks (restartSource s)
    let s := bump s .rstWarmCount
    let s := { s with
      regs := s.regs.filter (fun e => !warmBlocks.contains (e.1 / 2 ^ 20))
      rings := { nextSerial := s.rings.nextSerial }
      wake := [], eth := [], scl := {}, lat := [], rdma := {}, pair := {}
      heat := { pools := s.heat.pools }
      pins := { s.pins with fenceReq := false, trayReady := false }
      sealing := { s.sealing with sectors := [], mailboxes := [] }
      rst := { s.rst with
        bootDone := false, halted := false, lastWarm := true, warmCause := cause, chosen := false, trial := false, fallback := false
        bootError := if fell then s.rst.bootError else 0
        recoveryReady := false, recoveryImage := [], sectorResets := [] } }
    startBoot none (if fell then fallBack s.rst.bootError s else s)

/-- WARM_RESET: the pin, a write of RST.CTRL with WARM and its KEY through the physical function (R817), or sealing while ARMED (14
R703). -/
def warmRow (cause : WarmCause) (s : State) : State :=
  match cause with
  | .pin => warmReset 1 s
  | .register (.vf n) _ => filterRefuse (.vf n) (Reg.rstCtrl.offset 0 0) s
  | .register .pf v => if v.testBit 16 && v % 65536 = 0x5752 then warmReset 2 s else s
  | .sealing => if s.sealing.armed then warmReset 5 s else s

def execWarmReset (cause : WarmCause) (s : State) : Out := .next (warmRow cause s)

/-- Code 9 for a trial image that did not reach BOOT_DONE (R819, R823). -/
def markTrial (s : State) : State := if s.rst.trial && !s.rst.bootDone then setRst { s.rst with bootError := 9 } s else s

/-- WATCHDOG_EXPIRY (R818). -/
def execWatchdogExpiry (s : State) : Out := .next (warmReset 3 (markTrial s))

/-- TRIAL_TIMER_EXPIRY (R819): the timer runs only while a trial image boots and no scrub holds it. -/
def execTrialTimerExpiry (s : State) : Out :=
  .next (if s.rst.trial && !s.rst.bootDone && !s.sealing.scrub then warmReset 3 (markTrial s) else s)

/-! ### Power and PLLs (R841; 20 R943) -/

/-- PWR_GOOD_FALL: the whole package is held in reset; what lies in the standby domain and in the flash stays. -/
def powerFall (s : State) : State :=
  if !s.rst.powered then s
  else
    let p := powerCycled s
    { p with rst := { p.rst with powered := false, tripped := s.rst.tripped },
             pins := { p.pins with thermTrip := s.pins.thermTrip } }

def execPwrGoodFall (s : State) : Out := .next (powerFall s)

/-- Engines or eights of a die, by the PLL that clocks them: SCL of die d is d, LAT of die d is 2 + d. -/
def pllEights (pll : Nat) : List Nat := if pll < 2 then (List.range 16).map (· + 16 * pll) else []
def pllEngines (pll : Nat) : List Nat := if pll = 2 || pll = 3 then (List.range 4).map (· + 4 * (pll - 2)) else []

/-- PLL_LOSS_OF_LOCK (R841): counted and recorded; a die's eights or engines are reset, with cause HARDWARE, and held; the HUB, FAB and
MGT PLLs reset the device. -/
def pllLoss (pll : Nat) (s : State) : State :=
  if 19 ≤ pll || !s.rst.pll.testBit pll then s
  else
    let s := bump (setRst { s.rst with pll := setBits s.rst.pll pll 1 0 } s) .clkPllLosses
    let (fired, _, s) := firePoint 0x0A02 pll s
    let s := writeRecord { source := 0x0A02, severity := 3, injected := fired, kind := 14, index := pll } s
    let live := fun (kind i : Nat) => powerAvail s kind i && powerOf s kind i ≠ .off
    let s := ((pllEights pll).filter (live 1)).foldl (fun s i => resetEngine 1 i 10 s) s
    let s := setRst { s.rst with heldEights := s.rst.heldEights ||| bitMask (pllEights pll),
                                 heldEngines := s.rst.heldEngines ||| bitMask (pllEngines pll) } s
    let s := ((pllEngines pll).filter (live 2)).foldl (fun s i => resetEngine 2 i 10 s) s
    if pll = 4 || pll = 7 || pll = 8 then warmReset 4 s else s

def execPllLossOfLock (pll : Nat) (s : State) : Out := .next (pllLoss pll s)

/-- PLL_RELOCK (R841): what the PLL held is released. -/
def pllRelock (pll : Nat) (s : State) : State :=
  if 19 ≤ pll then s
  else
    let off := fun (m : Nat) (l : List Nat) => l.foldl (fun m i => setBits m i 1 0) m
    let s := setRst { s.rst with pll := s.rst.pll ||| 2 ^ pll, heldEights := off s.rst.heldEights (pllEights pll),
                                 heldEngines := off s.rst.heldEngines (pllEngines pll) } s
    (pllEngines pll).foldl (fun s e => latGo e s) s

def execPllRelock (pll : Nat) (s : State) : Out := .next (pllRelock pll s)

/-! ### Configuration requests (15 R750-R764, R770) -/

/-- Size of a function's BAR pair (R753, R755); 0 where it has none. -/
def barSize (s : State) (f : Fn) (n : Nat) : Nat :=
  if n / 2 = 0 then 64 * 2 ^ 20
  else if n / 2 = 1 then 16 * 2 ^ 20
  else if n / 2 = 2 && f = .pf && !s.sealing.sealed then 4 * 2 ^ 30
  else 0

/-- A BAR register as it reads: the bits above the size as programmed, with the type bits of a 64-bit memory BAR, prefetchable but for
BAR0. -/
def barRead (s : State) (f : Fn) (n : Nat) : Nat :=
  let size := barSize s f n
  let v := Table.getD (fnOf s f).bars n 0
  if size = 0 then 0
  else if n % 2 = 0 then (v - v % min size (2 ^ 32)) % 2 ^ 32 + (if n = 0 then 4 else 12)
  else v % 2 ^ 32

/-- What a configuration read returns: identity and class of the physical function, its BARs; other fields are as the PCIe
specification has them and are free here (log entry 95). -/
def configRead (f : Fn) (off : Nat) (s : State) : State :=
  if f = .pf && off = 0 then reply 0x54331E5B s
  else if f = .pf && off = 8 then reply 0x120000B0 s
  else if f = .pf && 0x10 ≤ off && off < 0x28 && off % 4 = 0 then reply (barRead s f ((off - 0x10) / 4)) s
  else
    let (v, s) := drawFree s
    reply (v % 2 ^ 32) s

/-- A configuration request that is answered normally. -/
def configRequest (f : Fn) (r : ConfigReq) (s : State) : State :=
  match r with
  | .read off => configRead f off s
  | .vfEnable on n =>
    if f ≠ .pf then s
    else if !on then clearVfs s
    else if s.pci.vfEnable || 8 < n then s
    else { s with pci := { s.pci with vfEnable := true, numVfs := n } }
  | .msixControl enable mask => releaseMsix f (setFn s f { fnOf s f with msixEnable := enable, msixMask := mask })
  | .relaxedOrdering on => setFn s f { fnOf s f with relaxed := on }
  | .bar n v =>
    if barSize s f n = 0 then s else setFn s f { fnOf s f with bars := Table.put (fnOf s f).bars n (v % 2 ^ 32) }
  | .completionTimeout v => setFn s f { fnOf s f with cplTimeout := v % 16 }

/-- CONFIGURATION_REQUEST (R770): with the link up, answered with Request Retry Status until TOP is readable. -/
def configRow (f : Fn) (r : ConfigReq) (s : State) : State :=
  let there := match f with
    | .pf => true
    | .vf n => s.pci.vfEnable && n < s.pci.numVfs
  if !s.pci.linkUp || !there then s
  else if !s.top.sensed then { s with pci := { s.pci with retryStatus := true } }
  else configRequest f r { s with pci := { s.pci with retryStatus := false } }

def execConfigurationRequest (fn : Fn) (req : ConfigReq) (s : State) : Out := .next (configRow fn req s)

end Sys2Proof.Machine
end

