-- ==== Sys2Proof/Machine/SelfTest.lean ====
section
/-! DEFINITION. Targeted self-tests, injection commands, the retirement list, management cores, and the board's monitors (chapter 17 of
spec/, R845, R855-R874, R983; 20 R944-R959). -/
namespace Sys2Proof.Machine

/-! ### Resources -/

/-- Acting on a persistent fault of any resource (R855, R863). -/
def actAny : ActFn := fun r injected s =>
  match r.kind with
  | 4 => actScull r injected s
  | 5 => actEngine r injected s
  | 6 => actChordLane r injected s
  | 11 => actAnnulus r injected s
  | 12 => actExpander r injected s
  | 15 => actBridge r injected s
  | _ => actMemory r injected s

/-- Whether a resource is retired. -/
def resRetired (s : State) (kind index : Nat) : Bool :=
  match kind with
  | 4 => !s.top.sculls.testBit index
  | 5 => !engineAvail s index
  | 6 => !linkAvail s (index / 16) || (linkOf s (index / 16)).retired.testBit (index % 16)
  | 7 => !linkAvail s index
  | 11 => (annulusOf s index).state = .retired
  | 12 => !s.top.misc.testBit (38 + index)
  | _ => false

/-- The eight or engine that a scull or an engine belongs to, as a power domain. -/
def resDomain (kind index : Nat) : Option (Nat × Nat) :=
  if kind = 4 then some (1, index / 8) else if kind = 5 then some (2, index) else none

/-- Whether the resource's eight or engine is OFF. -/
def resOff (s : State) (kind index : Nat) : Bool := (resDomain kind index).any (fun d => powerOf s d.1 d.2 = .off)

/-- Owner of a resource, for records. -/
def resOwner (s : State) (r : Res) : Nat :=
  match r.kind with
  | 1 | 3 => ownerAt s r.addr
  | 4 => (Table.find s.sct.eights (r.index / 8)).getD 0xFF
  | 5 => (Table.find s.sct.engines r.index).getD 0xFF
  | _ => 0xFF

/-- Whether an index names a resource of a kind (R846, table of resource kinds). -/
def resExists (kind index : Nat) : Bool :=
  match kind with
  | 0 => index = 0
  | 1 => index < 256
  | 2 => index / 512 < 2 && index % 512 < 260
  | 3 => 2 ≤ index && index ≤ 6
  | 4 => index < 256
  | 5 => index < 8
  | 6 => index / 16 < 12 && index % 16 < 9
  | 7 => index < 12
  | 8 => index < 32
  | 9 => index = 0
  | 10 => index < 2
  | 11 => index < 32
  | 12 => index < 16
  | 13 => index < 6
  | 14 => index < 19 || (0x100 ≤ index && index < 0x10C)
  | 15 => index < 192
  | _ => false

/-- Whether an aligned address is a line of an SRAM array that has DPAs (2 to 4). -/
def arrayHolds (s : State) (array a : Nat) : Bool :=
  a % 64 = 0 && (match array with
    | 2 => regionOf s a = .hub
    | 3 => regionOf s a = .lattice
    | 4 => regionOf s a = .localMem
    | _ => false)

/-! ### Targeted tests (R855-R862, R871-R873) -/

/-- Whether a queued test may start: the gate of its eight or engine is open (R873). -/
def mayStart (s : State) (t : SelfTest) : Bool := (resDomain t.res.kind t.res.index).all (fun d => gateOpen s d.1 d.2)

/-- What a test's start does to its resource: an engine yields at its next boundary, a link retrains, an annulus is TESTING. -/
def holdResource (r : Res) (s : State) : State :=
  match r.kind with
  | 5 => setLat r.index { latOf s r.index with yieldAsked := (latOf s r.index).running.isSome } s
  | 6 => linkRetrain (r.index / 16) s
  | 11 =>
    let x := annulusOf s r.index
    noteSource (setAnnulus r.index { x with state := .testing, startup := false, block := [], passed := 0, lockWindows := 0 } s)
  | _ => s

/-- TARGETED_SELF_TEST_START (R855, R856, R860): the first queued test that may start begins, at most 8 at once; `dead` says that a
detector of the resource did not fire for the self-test engine. -/
def testStart (dead : Bool) (s : State) : State :=
  if 8 ≤ s.err.running.length then s
  else
    match s.err.queued.find? (mayStart s) with
    | none => s
    | some t =>
      let e := { s.err with queued := s.err.queued.filter (fun u => u.res ≠ t.res),
                            running := s.err.running ++ [{ t with forced := t.forced || dead }] }
      holdResource t.res { s with err := e }

def execTargetedSelfTestStart (dead : Bool) (s : State) : Out := .next (testStart dead s)

/-- Whether a test may end: an engine's operation has reached the boundary at which it yields. -/
def mayEnd (s : State) (r : Res) : Bool := !(r.kind = 5 && (latOf s r.index).running.isSome)

/-- What the end of a test does to a resource that stays in service. -/
def releaseResource (r : Res) (s : State) : State :=
  match r.kind with
  | 5 => latGo r.index s
  | 11 =>
    let x := annulusOf s r.index
    if x.state = .testing then noteSource (setAnnulus r.index { x with state := .healthy, startup := false, passed := 1024 } s) else s
  | _ => s

/-- The classifications of a fault counted with a test, and whether they reach the limit (R858): the fault that began the test and each
that joined it. A pass of SELFTEST_RUN alone is no fault (log entry 96). -/
def countTransients (t : SelfTest) (s : State) : Bool × State :=
  let n := t.counted + (if t.ref = 0 then 0 else 1)
  (List.range n).foldl (fun (p : Bool × State) _ =>
    let (k, s) := noteTransient t.res p.2
    (p.1 || repeatLimit s ≤ k, s)) (false, s)

/-- The end of a test: classification, action, records, and the commands that joined it (R857-R863, R871). -/
def endTest (t : SelfTest) (failed : Bool) (s : State) : State :=
  let s := { s with err := { s.err with running := s.err.running.filter (fun u => u.res ≠ t.res) } }
  let s := bump s .errTests
  let bad := failed || t.forced
  let (limit, s) := if bad then (false, s)
    else if t.res.kind = 11 then (3 < (annulusOf s t.res.index).failures, s)
    else countTransients t s
  let persistent := bad || limit
  let s := bump s (if persistent then .errPersistent else .errTransient)
  let acted := persistent && t.acts
  let (action, s) := if acted then actAny t.res t.injected s else (0, s)
  let s := followUp t (if persistent then 3 else 2) action s
  let seq := if t.ref = 0 then s.err.seq else t.ref
  let s := if persistent then s
    else { s with err := { s.err with passed := (t.res, s.cad.timeNs, seq) :: (s.err.passed.filter (fun p => p.1 ≠ t.res)).take 1023 } }
  let s := if acted then retireRecord t.res action t.ref t.sector t.addr t.injected s else s
  let s := finishAll t.joined stOk (bitNat persistent + action * 256) 0 s
  kickMoves (if acted && action ≠ 11 then s else releaseResource t.res s)

/-- TARGETED_SELF_TEST_END (R857): the running test of a resource ends. -/
def testEnd (r : Res) (failed : Bool) (s : State) : State :=
  match s.err.running.find? (fun t => t.res = r) with
  | none => s
  | some t => if mayEnd s r then endTest t failed s else s

def execTargetedSelfTestEnd (res : Res) (failed : Bool) (s : State) : Out := .next (heatRow s (testEnd res failed s))

/-- The resource that SELFTEST_RUN names; none when a field is out of range (R871). -/
def namedRes (s : State) (kind index a : Nat) : Option Res :=
  if !([1, 2, 3, 4, 5, 6, 11, 12, 15].contains kind && resExists kind index) then none
  else
    match kind with
    | 1 => if a % 64 = 0 && isNear a && hbmChannel a = index then some (lineRes s a) else none
    | 3 =>
      let ok := match index with
        | 5 => a % 64 = 0 && a < 256 * 262144
        | 6 => a % 64 = 0 && a < arrayMiB 6 * 2 ^ 20
        | k => arrayHolds s k a
      if ok then some { kind := 3, index := index, addr := a } else none
    | _ => if a = 0 then some { kind := kind, index := index } else none

/-- Whether two resources are one for SELFTEST_RUN: a scull's lane test counts as the scull's. -/
def sameRes (a b : Res) : Bool := a.kind = b.kind && a.index = b.index && a.addr = b.addr

/-- SELFTEST_RUN (R871). -/
def selftestRunBody (c : Cmd) (s : State) : Body := do
  let kind := c.param 24 1
  let index := c.param 26 2
  let retire := (c.param 25 1).testBit 0
  match namedRes s kind index (c.param 28 8) with
  | none => .error { status := stBadParam }
  | some r =>
    need (c.param 25 1 ≤ 1 && c.reserved [(36, 64)]) stBadParam
    need (!resRetired s kind index) stBadState
    need (!resOff s kind index) stRetryPower
    match (s.err.running ++ s.err.queued).find? (fun t => sameRes t.res r) with
    | some t =>
      .ok (.running (changeTest t.res (fun t => { t with acts := t.acts || retire, joined := t.joined ++ [c.serial] }) s))
    | none =>
      need (s.err.queued.length < 256) stRetryBusy
      .ok (.running (queueTest { res := r, sector := resOwner s r, addr := r.addr, acts := retire, joined := [c.serial] } s))

def execSelftestRun (ring : Nat) (s : State) : Out := .next (beginCommand 0x0B01 ring selftestRunBody s)

/-! ### Injection (R867-R870, R983) -/

/-- The kind of resource that a detector's point acts on (R843); none for a code that is no detector. -/
def pointKind (p : Nat) : Option Nat :=
  if 0x0101 ≤ p && p ≤ 0x0104 then some 1
  else if p = 0x0105 || p = 0x0106 then some 10
  else if p = 0x0201 || p = 0x0202 then some 2
  else if 0x0301 ≤ p && p ≤ 0x0303 then some 4
  else (Table.find [(0x0401, 5), (0x0501, 12), (0x0601, 15), (0x0701, 6), (0x0702, 7), (0x0801, 8), (0x0802, 9), (0x0803, 10),
    (0x0901, 11), (0x0902, 0), (0x0A01, 13), (0x0A02, 14), (0x0A03, 14), (0x0A04, 0), (0x0A05, 0)] p)

/-- Whether a point takes an address and a pattern. -/
def memoryPoint (p : Nat) : Bool := p < 0x0300

/-- Whether a target names a resource of the point's kind (R983 for SRAM). -/
def targetOk (p target : Nat) : Bool :=
  if p = 0x0201 || p = 0x0202 then
    if target.testBit 31 then bitsOf target 8 23 = 0 && 2 ≤ target % 256 && target % 256 ≤ 6 else resExists 2 target
  else if p = 0x0A02 then target < 19
  else if p = 0x0A03 then 0x100 ≤ target && target < 0x108
  else (pointKind p).any (fun k => resExists k target)

/-- Whether an address lies in the target: 0 names any line. -/
def addressOk (s : State) (p target a : Nat) : Bool :=
  if a = 0 then true
  else if a % 64 ≠ 0 then false
  else if p ≤ 0x0104 then isNear a && hbmChannel a = target
  else if p ≤ 0x0106 then
    inFar s a && (if interleaved s then a / 4096 % 2 = target else (0x030000000000 ≤ a) == (target = 1))
  else if target.testBit 31 then arrayHolds s (target % 256) a
  else regionOf s a = .lake && lakeBank a = target

/-- INJECT_ARM (R867). -/
def injectArmBody (c : Cmd) (s : State) : Body := do
  let p := c.param 24 2
  let mode := c.param 26 1
  let count := c.param 27 1
  let target := c.param 28 4
  let a := c.param 32 8
  let pattern := c.param 40 1
  let kind := (pointKind p).getD 0
  need ((pointKind p).isSome && mode ≤ 2 && (if mode = 1 then 1 ≤ count else count = 0) && targetOk p target
    && (if memoryPoint p then 1 ≤ pattern && pattern ≤ 8 else pattern = 0 && a = 0) && addressOk s p target a
    && c.reserved [(41, 48), (56, 64)]) stBadParam
  need (!s.sealing.sealed) stSealedForbids
  need (p ≠ 0x0103 && p ≠ 0x0105 && !resRetired s kind target) stBadState
  need (!resOff s kind target) stRetryPower
  match Table.firstFree s.err.slots 0 16 with
  | none => .error { status := stNoResource }
  | some k =>
    let i : Inject := { point := p, mode := mode, left := if mode = 1 then count else 1, target := target, addr := a, pattern := pattern,
                        expire := c.param 48 8 }
    .ok (.done stOk k 0 { s with err := { s.err with slots := Table.put s.err.slots k i } })

def execInjectArm (ring : Nat) (s : State) : Out := .next (beginCommand 0x0B02 ring injectArmBody s)

/-- INJECT_DISARM (R870). -/
def injectDisarmBody (c : Cmd) (s : State) : Body := do
  let k := c.param 24 1
  need (k ≤ 15 && c.reserved [(25, 64)]) stBadParam
  need ((Table.find s.err.slots k).isSome) stBadState
  .ok (.done stOk 0 0 { s with err := { s.err with slots := Table.drop s.err.slots k } })

def execInjectDisarm (ring : Nat) (s : State) : Out := .next (beginCommand 0x0B10 ring injectDisarmBody s)

/-- INJECTION_EXPIRY (R870): slots whose EXPIRE stroke has passed disarm. -/
def execInjectionExpiry (s : State) : Out :=
  .next { s with err := { s.err with slots := s.err.slots.filter (fun e => e.2.expire = 0 || s.cad.stroke ≤ e.2.expire) } }

/-! ### Retirement list and management cores (R845, R863, R866) -/

/-- RETIREMENT_LIST_WRITE: retirements join the list in the boot flash, up to 1,024 entries. -/
def listWrite (s : State) : State :=
  let list := (s.err.list ++ s.err.toList).take 1024
  { s with err := { s.err with list := list, toList := [], listFull := s.err.listFull || decide (1024 ≤ list.length) } }

def execRetirementListWrite (s : State) : Out := .next (listWrite s)

/-- MGT_CORE_STOP (R845): the stop is recorded; the commands that core 1-5 was executing complete with HW_FAULT. When core 0 stops, the
watchdog expires, which is WATCHDOG_EXPIRY. -/
def coreStop (core : Nat) (commands : List Nat) (s : State) : State :=
  if 6 ≤ core then s
  else
    let (fired, _, s) := firePoint 0x0A01 core s
    let s := writeRecord { source := 0x0A01, severity := 3, injected := fired, kind := 13, index := core } s
    if core = 0 then s
    else
      let live := commands.filter (fun n => (cmdOf s n).any (fun c => c.phase = .running))
      finishAll live stHwFault 0 0 s

def execMgtCoreStop (core : Nat) (commands : List Nat) (s : State) : Out := .next (coreStop core commands s)

/-! ### The board's monitors (20 R944-R959) -/

/-- A THERMAL record (17 R843), unless the package is in reset. -/
def thermal (severity d0 : Nat) (s : State) : State :=
  let (fired, _, s) := firePoint 0x0A05 0 s
  writeRecord { source := 0x0A05, severity := severity, injected := fired, d0 := d0 } s

/-- Whether the monitors run: powered and not held by a trip. -/
def awake (s : State) : Bool := s.rst.powered && !s.rst.tripped

/-- TEMPERATURE_WARN (20 R952): a reading of 95 °C or more. -/
def execTemperatureWarn (die reading : Nat) (s : State) : Out :=
  if !awake s || 3 ≤ die || reading < 95 then .next s
  else .next (thermal 1 0 { s with pins := { s.pins with thermAlert := true } })

/-- TEMPERATURE_WARN_CLEAR (20 R952): the highest reading fell below 90 °C. -/
def execTemperatureWarnClear (s : State) : Out := .next { s with pins := { s.pins with thermAlert := false } }

/-- TEMPERATURE_CRITICAL (20 R952): a reading of 105 °C or more. -/
def execTemperatureCritical (die reading : Nat) (s : State) : Out :=
  if !awake s || 3 ≤ die || reading < 105 then .next s else .next (thermal 2 0 s)

/-- THERMAL_TRIP (20 R952): a reading of 115 °C or more drives THERMTRIP_N and holds everything but the standby domain in reset. -/
def execThermalTrip (die reading : Nat) (s : State) : Out :=
  if !awake s || 3 ≤ die || reading < 115 then .next s
  else
    let p := powerCycled s
    .next { p with rst := { p.rst with tripped := true }, pins := { p.pins with thermTrip := true } }

/-- VR_FAULT (20 R954): the regulators answer at 7-bit addresses 0x40 to 0x4B (R947). -/
def execVrFault (regulator : Nat) (s : State) : Out :=
  if !awake s || 12 ≤ regulator then .next s else .next (thermal 3 (0x40 + regulator) s)

/-- STANDBY_POWER_LOSS (14 R744; 20 R950, R953): RETAIN clears and the outputs are released; no main rail is up without it. -/
def execStandbyPowerLoss (s : State) : Out :=
  let p := powerFall s
  .next { p with sealing := { p.sealing with retain := false }, rst := { p.rst with tripped := false },
                 pins := { fenceConf := p.pins.fenceConf } }

/-- STANDBY_POWER_UP (20 R959): TRAY_READY is low whenever VSTBY has just risen. -/
def execStandbyPowerUp (s : State) : Out := .next { s with pins := { s.pins with trayReady := false } }

/-! ### MARK_RELEASE (02 R94; 05 R259, R260) -/

/-- The n-th line of a channel in an HBM granule (05 R226, R227). -/
def channelLine (granule channel n : Nat) : Nat :=
  let b := n / 4
  granule * 2 ^ 24 + b * 128 + ((channel % 32) ^^^ (b % 32)) * 4 + n % 4

/-- Lines of a granule that an armed near-tier slot names in a pass over it: its line, or the first lines of its channel that are not
poisoned, as many as it has firings left. -/
def scrubSlotLines (s : State) (granule : Nat) (i : Inject) : List Nat :=
  if !(0x0101 ≤ i.point && i.point ≤ 0x0104) then []
  else if i.addr ≠ 0 then (if i.addr / 2 ^ 30 = granule then [i.addr / 64] else [])
  else if i.target / 32 ≠ granule % 8 then []
  else (((List.range (s.mem.poison.length + i.left)).map (channelLine granule i.target)).filter
    (fun l => !s.mem.poison.contains l)).take i.left

/-- The patrol scrub reads a granule: lines that are poisoned are skipped; faults are found as any read finds them (R259, R263). -/
def scrubGranule (faults : List LineFault) (s : State) : State :=
  let g := s.mem.scrubGranule
  let named := (faults.map (fun f => f.line / 64)) ++ s.err.slots.flatMap (fun e => scrubSlotLines s g e.2)
  let lines := (named.foldr insertNat []).filter (fun l => l / 2 ^ 24 = g && !s.mem.poison.contains l)
  let s := if s.top.misc.testBit (8 + g % 8) then lines.foldl (fun s l => (readLine faults (64 * l) s).2) s else s
  { s with mem := { s.mem with scrubActive := true, scrubGranule := (g + 1) % 512 } }

/-- What a released or expired mark of Coxswain firmware does: heat deadlines (06 R358), checkpoints (07 R380), the scrub. -/
def firmwareMark (faults : List LineFault) (w : MarkWork) (m : Mark) (released : Bool) (s : State) : State :=
  match w with
  | .heatDeadline => if released then deadlinesReleased m.target s else deadlinesExpired m.target s
  | .firmware 0 => if released then scrubGranule faults s else s
  | .firmware 3 =>
    if released then
      (s.heat.slots.filter (fun e => e.2.mirrored && e.2.mirror = 2 && e.2.role ≠ 2 && e.2.works)).foldl
        (fun s e => sendCheckpoint e.1 s) s
    else s
  | _ => s

/-- MARK_RELEASE (02 R94): the next taken mark is released, or expires. -/
def execMarkRelease (faults : List LineFault) (s : State) : Out := .next (heatRow s (markRelease (firmwareMark faults) s))

end Sys2Proof.Machine
end

