-- ==== Sys2Proof/Machine/RegView.lean ====
section
/-! DEFINITION. What the bits of every register read as: the stored bits of the register file, with the bits that show the state of
the machine (the field tables of R55, R110, R150, R221, R290, R397, R443, R496, R551, R601, R650, R748, R797, R842, R875, R904,
R932). -/
namespace Sys2Proof.Machine

/-- The fields of a register put side by side: position and value. -/
def fieldsAt : List (Nat × Nat) → Nat
  | [] => 0
  | (lo, v) :: t => v * 2 ^ lo + fieldsAt t

/-! ### Codes -/

/-- Code of a sector state (03). -/
def sectorCode : SectorState → Nat
  | .undefined => 0
  | .active => 1
  | .shifting => 2
  | .stopping => 3

/-- Code of a ring state (04). -/
def ringCode : RingState → Nat
  | .disabled => 0
  | .active => 1
  | .halted => 2
  | .resetting => 3

/-- Code of a source state (08). -/
def sourceCode : SourceState → Nat
  | .startup => 0
  | .ok => 1
  | .low => 2
  | .failed => 3

/-- Code of an annulus state (08). -/
def annulusCode : AnnulusState → Nat
  | .healthy => 0
  | .testing => 1
  | .retired => 2

/-- Code that PWR.EIGHT_STATE and PWR.LE_STATE show (16 R831): 3 while a transition is in progress. -/
def powerCode (s : State) (kind i : Nat) : Nat :=
  if inTransition s kind i then 3
  else match powerOf s kind i with
    | .on => 0
    | .idle => 1
    | .off => 2

/-! ### Views with a rule of their own -/

/-- The values of `f` at 0, ..., n - 1 in fields of `w` bits, the first lowest. -/
def packViews (n w : Nat) (f : Nat → Nat) : Nat := fieldsAt ((List.range n).map (fun i => (w * i, f i)))

/-- Resources of a kind in the free pool among `n`, as a bitmap (03). -/
def freeMask (t : Table Nat) (n : Nat) : Nat := bitMask ((List.range n).filter (fun i => (Table.find t i).isNone))

/-- Owners of 16 granules, a nibble each; 0xF for the free pool (03). -/
def ownerNibbles (t : Table Nat) (i : Nat) : Nat := packViews 16 4 (fun j => (Table.find t (16 * i + j)).getD 0xF)

/-- Quota of a kind that no sector holds (03). -/
def quotaLeft (s : State) (kind : Nat) : Nat :=
  quotaTotal kind - ((List.range 8).map (fun n => quotaOf (sectorOf s n) kind)).sum

/-- A mark slot (02 R91). -/
def slotStateView (s : State) (k : Nat) : Nat :=
  match Table.find s.cad.marks k with
  | none => 0
  | some m =>
    if k < 16 then fieldsAt [(0, 1), (1, bitNat m.lockstep), (2, bitNat m.withheld)]
    else fieldsAt [(0, 1), (1, bitNat m.lockstep), (2, bitNat m.withheld), (3, m.sector), (6, m.ring % 64), (32, m.tag)]

/-- CMD.RING_STATEi (04 R221). -/
def ringStateView (r : Ring) : Nat :=
  fieldsAt [(0, ringCode r.state), (2, r.cls), (4, bitNat r.hub), (5, r.haltCause), (16, r.sqHead), (32, r.cqTail),
    (48, bitNat r.phase), (49, r.inflight.length)]

/-- Launches of a sector, by whether a group has been placed (12 R611). -/
def launchesWith (s : State) (n : Nat) (placed : Bool) : Nat :=
  Table.countIf s.scl.launches (fun _ l => l.ctx / 64 = n && (l.next ≠ 0) = placed)

/-- SCL.CTX_STATEx (12 R650). -/
def ctxStateView (s : State) (x : Nat) : Nat :=
  match ctxOf s x with
  | none => 0
  | some c => fieldsAt [(0, 1), (1, bitNat c.killed.isSome), (2, c.killed.getD 0), (10, bitNat c.firmware),
      (32, (launchesOf s x).length)]

/-- SCL.SCULL_LOADj (12 R650). -/
def scullLoadView (s : State) (j : Nat) : Nat :=
  let used := ((residents s j).map (fun g => g.2.localBytes)).sum
  fieldsAt [(0, ((residents s j).map (fun g => g.2.crews)).sum), (8, 131072 - usedRegs s j 0), (26, 131072 - usedRegs s j 1), (44, 262144 - used)]

/-- LAT.ENGINE_STATEn (09 R496). -/
def engineView (x : LatEngine) : Nat :=
  match x.running, x.yielded with
  | some o, _ => fieldsAt [(0, if x.held then 3 else 1), (2, o.op), (32, o.steps)]
  | none, some o => fieldsAt [(0, 2), (2, o.op), (32, o.steps)]
  | none, none => if x.heat.isSome then fieldsAt [(0, 1), (6, 1)] else 0

/-- Modulus table entries loaded, of 64 from `first`. -/
def moduliView (x : LatEngine) (first : Nat) : Nat :=
  bitMask ((List.range 64).filter (fun e => (Table.find x.moduli (first + e)).isSome))

/-- HEAT.SLOT_STATEs (07 R397). -/
def heatStateView (h : HeatSlot) : Nat :=
  fieldsAt [(0, h.phase), (4, 1), (5, bitNat h.tallied), (6, h.mirror), (8, h.role), (10, h.sector), (13, h.prior)]

/-- RNG.STATUS (08 R443). -/
def rngStatusView (s : State) : Nat :=
  fieldsAt [(0, sourceCode (sourceState s)), (2, bitNat s.rng.raw), (3, bitNat s.rng.capture.isSome), (4, healthyCount s)]

/-- RNG.INSTANCEi (08 R443). -/
def instanceView (s : State) (i : Nat) : Nat :=
  match Table.find s.rng.instances i with
  | none => 0
  | some x => fieldsAt [(0, 1), (1, x.sector), (4, bitNat x.pr), (5, bitNat (s.rng.waitList.contains i)), (6, bitNat x.needReseed),
      (7, bitNat (isInternal i)), (32, x.count)]

/-- RDMA.USEDn (10 R551). -/
def rdmaUsedView (s : State) (n : Nat) : Nat :=
  fieldsAt [(0, Table.countIf s.rdma.qps (fun _ q => q.sector = n)), (17, Table.countIf s.rdma.pds (fun _ m => m = n)), (32, keysUsed s n)]

/-- CHD.LINK_STATEc (11 R601; R553-R555 for MODE). -/
def linkView (s : State) (c : Nat) : Nat :=
  let l := linkOf s c
  fieldsAt [(0, linkCode l.state), (3, if l.pairMode then 2 else if c < 6 then 0 else 1), (5, l.cause), (8, l.retired), (17, bitNat l.spareUsed),
    (18, l.peerPkg), (24, l.peerLink), (32, l.epoch)]

/-- CHD.FOLD_SLOTs (11 R601). -/
def foldView (s : State) (k : Nat) : Nat :=
  match Table.find s.chord.folds k with
  | none => 0
  | some f => fieldsAt [(0, 1), (1, f.role), (3, f.sector), (6, if f.role = 2 then f.written.length else f.acked.length), (32, f.stream)]

/-- ETH.PORT_STATUSe (15 R797): a class is shown paused when it is paused on a sub-port. -/
def portView (p : EthPort) : Nat :=
  fieldsAt [(0, p.up), (8, bitMask ((List.range 8).filter (fun c => (List.range 4).any (fun k => p.paused.testBit (8 * k + c)))))]

/-- SEAL.STATUS (14 R748). -/
def sealView (s : State) : Nat :=
  let x := s.sealing
  fieldsAt [(0, bitNat x.sealed), (1, bitNat x.armed), (2, bitNat x.scrub), (3, bitNat x.retain), (4, bitNat x.scrubPartial), (5, bitNat x.refused),
    (8, bitMask ((List.range 8).filter (fun n => (sealOf s n).session.isSome)))]

/-- SEAL.WINDOWSn (14 R748). -/
def windowsView (s : State) (n : Nat) : Nat :=
  fieldsAt [(0, bitMask ((sealOf s n).windows.map Prod.fst)), (16, ((sealOf s n).windows.map (fun e => e.2.slots)).sum)]

/-- RST.STATUS (16 R842). -/
def rstView (r : Rst) : Nat :=
  fieldsAt [(0, bitNat r.bootDone), (1, bitNat r.halted), (2, bitNat r.lastWarm), (5, r.warmCause), (9, bitNat r.flash.activeB),
    (10, bitNat r.flash.pending), (11, bitNat r.fallback)]

/-- Spare rows left on a stack (17 R855). -/
def rowsLeft (s : State) (stack : Nat) : Nat :=
  1024 - ((s.err.rowsUsed.filter (fun e => e.1 / 32 = stack)).map Prod.snd).sum

/-- ERR.STATUS (17 R875). -/
def errView (s : State) : Nat :=
  fieldsAt [(0, s.err.running.length), (4, s.err.queued.length), (13, s.err.list.length), (24, bitNat s.err.listFull)]

/-- INJ.SLOTk (17 R875). -/
def injectView (s : State) (k : Nat) : Nat :=
  match Table.find s.err.slots k with
  | none => 0
  | some i => fieldsAt [(0, i.point), (16, i.mode), (18, i.left), (32, i.target)]

/-- PAIR.STATUS (18 R904; log entry 85). -/
def pairView (s : State) : Nat :=
  let p := s.pair
  let there := p.state ≠ .none
  fieldsAt [(0, pairCode p.state), (3, bitNat s.rst.straps.pairSide), (4, p.twin), (10, bitMask ((pairLinks s).map (· - 10))),
    (12, bitNat (there && p.ethMisses = 0)), (13, bitNat s.pins.fenceReq), (14, bitNat s.pins.fenceConf), (15, bitNat s.pins.trayReady),
    (16, min p.misses 255), (24, min p.ethMisses 255)]

/-- WAKE.COUNTq (19 R932). -/
def wakeCountView (w : WakeQ) : Nat :=
  fieldsAt [(0, w.waiting), (11, bitNat (w.partialWords ≠ [])), (12, bitNat w.dropping), (16, w.nextSeq)]

/-- MEM.MOVER_STATE (05 R290). -/
def moverView (s : State) : Nat :=
  match s.mover with
  | [] => 0
  | m :: _ => fieldsAt [(0, 1), (1, bitNat (m.held || m.yielded)), (2, m.sector), (16, m.entry), (32, m.pages)]

/-! ### Every register -/

/-- The bits of a register instance that show the state of the machine; the others are stored. -/
def regShown (s : State) (fn : Fn) (r : Reg) (i j : Nat) : Nat :=
  match r with
  | .topPkgSerial => s.top.serial
  | .topFuseStatus => fieldsAt [(0, bitNat s.top.sensed), (1, s.top.identBad)]
  | .topDieLot => s.top.lots.getD i 0
  | .topDiePos => s.top.poss.getD i 0
  | .topAvailEights => availEights s.top
  | .topAvailSculls => bitsOf s.top.sculls (64 * i) 64
  | .topAvailMisc => s.top.misc
  | .topAvailGen => s.top.gen
  | .cadStatus => fieldsAt [(0, cadCode s.cad.state), (2, bitNat s.cad.configured), (3, bitNat s.cad.pps), (4, bitNat s.cad.preOrigin),
      (6, bitNat s.cad.refPresent), (7, bitNat s.cad.ref10)]
  | .cadStroke => s.cad.stroke
  | .cadTimeNs => s.cad.timeNs
  | .cadErrEst => errEst s.cad
  | .cadOrigin => s.cad.origin
  | .cadConfig => fieldsAt [(0, s.cad.periodUs), (32, s.cad.ptpPort), (35, s.cad.ptpDomain)]
  | .cadLimits => fieldsAt [(0, s.cad.toleranceNs), (20, s.cad.lockNs), (40, s.cad.holdoverPpb)]
  | .cadLastStepNs => ofSigned 64 s.cad.lastStep
  | .cadMarkWithheld => Table.countIf s.cad.marks (fun _ m => m.withheld)
  | .cadSlotsUsed => s.cad.marks.length
  | .cadSlotState => slotStateView s i
  | .cadSlotTarget => ((Table.find s.cad.marks i).map (fun m => m.target)).getD 0
  | .sctFreeEights => freeMask s.sct.eights 32
  | .sctFreeMisc => freeMask s.sct.engines 8
  | .sctFreeQuotas => fieldsAt [(0, quotaLeft s 5), (32, quotaLeft s 6), (48, quotaLeft s 7)]
  | .sctCmdStatus => fieldsAt [(0, bitNat s.sct.cmd.isSome), (1, (s.sct.cmd.map (fun c => c.step)).getD 0), (16, s.sct.lastStatus), (32, s.sct.count)]
  | .sctHbmOwner => ownerNibbles s.sct.hbm i
  | .sctLakeOwner => ownerNibbles s.sct.lake i
  | .sctState => fieldsAt [(0, sectorCode (sectorOf s i).state), (2, bitNat (sectorOf s i).distance)]
  | .sctEights => ownedMask s.sct.eights i
  | .sctLattice => ownedMask s.sct.engines i
  | .sctWake => ownedMask s.sct.wake i
  | .sctMemory => fieldsAt [(0, Table.countIf s.sct.hbm (fun _ n => n = i)), (32, Table.countIf s.sct.lake (fun _ n => n = i))]
  | .sctQuotas => fieldsAt [(0, (sectorOf s i).qps), (32, (sectorOf s i).pds), (48, (sectorOf s i).rng)]
  | .cmdQuiesce => Table.getD s.rings.held i 0
  | .cmdRingState => ringStateView (ringOf s i)
  | .memStatus => fieldsAt [(0, bitNat s.sealing.sealed), (1, bitNat s.mem.farOnline.1), (2, bitNat s.mem.farOnline.2), (3, bitNat s.mem.scrubActive)]
  | .memFarCap => fieldsAt [(0, s.mem.farCap.1), (16, s.mem.farCap.2), (32, usablePages s)]
  | .memScrubProgress => s.mem.scrubGranule
  | .memFarBase => (Table.getD s.mem.far i (0, 0)).1
  | .memFarSize => (Table.getD s.mem.far i (0, 0)).2
  | .memMoverState => moverView s
  | .cxlPortStatus => fieldsAt [(0, (cxlOf s i).state), (2, (cxlOf s i).speed), (5, (cxlOf s i).width), (32, (cxlOf s i).capacity)]
  | .cxlOfflineCause => (cxlOf s i).cause
  | .sclQueue => fieldsAt [(0, launchesWith s i false), (16, launchesWith s i true)]
  | .sclCtxState => ctxStateView s i
  | .sclCtxRoot => ((ctxOf s i).map (fun c => c.root)).getD 0
  | .sclScullLoad => scullLoadView s i
  | .latEngineState => engineView (latOf s i)
  | .latQueue => (latOf s i).queue.length
  | .latModValid => moduliView (latOf s i) 0
  | .latModValidFw => moduliView (latOf s i) 64
  | .latCtxSlots => fieldsAt [(0, bitMask ((latOf s i).slots.map Prod.fst)), (16, bitNat (latOf s i).yielded.isSome)]
  | .heatSlotState => ((Table.find s.heat.slots i).map heatStateView).getD 0
  | .heatSlotHeatId => ((Table.find s.heat.slots i).map (fun h => h.id)).getD 0
  | .heatSlotCounts => ((Table.find s.heat.slots i).map (fun h => fieldsAt [(0, h.enrolled), (32, h.survivors)])).getD 0
  | .heatSlotMirror => ((Table.find s.heat.slots i).map (fun h => fieldsAt [(0, h.msnSent), (32, h.msnAcked)])).getD 0
  | .rngStatus => rngStatusView s
  | .rngQueueDepth => s.rng.queue.length
  | .rngAnnulusState => packViews 32 2 (fun a => annulusCode (annulusOf s a).state)
  | .rngWaitList => s.rng.waitList.length
  | .rngInstUsed => instancesOf s i
  | .rngInstance => instanceView s i
  | .rdmaTable => ((Table.find s.rdma.tables i).map (fun g => fieldsAt [(0, g), (10, 1)])).getD 0
  | .rdmaUsed => rdmaUsedView s i
  | .chdLinkState => linkView s i
  | .chdFoldSlot => foldView s i
  | .ethPortStatus => portView (ethOf s i)
  | .pciLink => fieldsAt [(0, s.pci.speed), (3, s.pci.width), (8, bitNat s.pci.flit), (9, bitNat (s.pci.vfEnable && s.pci.numVfs = 8))]
  | .sealStatus => sealView s
  | .sealScrubProgress => fieldsAt [(0, s.sealing.scrubDone), (32, s.sealing.scrubTotal)]
  | .sealFwSvn => s.rst.svn
  | .sealMboxCtrl => fieldsAt [(2, bitNat (mailboxOf s i).busy)]
  | .sealWindows => windowsView s i
  | .clkPllStatus => s.rst.pll
  | .rstStatus => rstView s.rst
  | .rstSectorReset => bitMask s.rst.sectorResets
  | .rstStraps => fieldsAt [(0, s.rst.straps.pkgSlot), (6, bitNat s.rst.straps.pairSide), (7, bitNat s.rst.straps.sealReq), (8, s.rst.straps.bootSel)]
  | .rstFusedMinSvn => s.rst.fuses.minSvn
  | .rstBootError => s.rst.bootError
  | .rstSlots => fieldsAt [(0, slotSvn s false), (32, slotSvn s true)]
  | .rstRecoveryCtrl => bitNat s.rst.recoveryReady
  | .pwrEightState => packViews 32 2 (powerCode s 1)
  | .pwrLeState => packViews 8 2 (powerCode s 2)
  | .errStatus => errView s
  | .errSeq => s.err.seq
  | .errLast => fieldLE s.err.last (8 * i) 8
  | .errRepairLeft => rowsLeft s i
  | .errSpares => fieldsAt [(0, 4 - Table.getD s.err.banksUsed 0 0), (3, 4 - Table.getD s.err.banksUsed 1 0)]
  | .errSectorLast => fieldLE (Table.getD s.err.sectorLast i []) (8 * j) 8
  | .injArmed => bitMask (s.err.slots.map Prod.fst)
  | .injSlot => injectView s i
  | .pairStatus => pairView s
  | .wakeData => fieldLE (Table.getD (wakeOf s i).latches (fnKey fn) []) (8 * j) 8
  | .wakeCount => wakeCountView (wakeOf s i)
  | .wakeCfg => fieldsAt [(0, (wakeOf s i).kind), (2, bitNat (wakeOf s i).emptyMode), (8, (wakeOf s i).perfSelect), (16, (wakeOf s i).period)]
  | _ => 0

/-- What a register instance holds for a reader: the bits shown with the stored ones (00 R10, R11). -/
def regValue (s : State) (fn : Fn) (r : Reg) (i j : Nat) : Nat := regShown s fn r i j ||| rget s r i j

end Sys2Proof.Machine
end

