-- ==== Sys2Proof/Machine/Registers.lean ====
section
/-! DEFINITION. Accesses to register space and to the debug window: reach, refusal, alignment, the effect of a read and of a write
(00 R10-R19; 03 R121-R123; 15 R753-R755, R759-R762; 16 R827-R830; 14 R722, R746; 21 R961-R969). -/
namespace Sys2Proof.Machine

/-! ### Where an access lands -/

/-- What an offset of register space holds (21 R962, R964, R965; 14 R748; 15 R759; 16 R830): a byte of a register instance, of a
function's MSI-X table or pending-bit array, of a request or response buffer of a mailbox, of the recovery buffer, or nothing. -/
inductive Place where
  | register (r : Reg) (i j byte : Nat)
  | msix (byte : Nat)
  | pending (byte : Nat)
  | request (box byte : Nat)
  | response (box byte : Nat)
  | recovery (byte : Nat)
  | hole
  deriving DecidableEq, Repr

/-- The place of an offset for an access through a function. -/
def placeOf (fn : Fn) (off : Nat) : Place :=
  match findReg off Reg.list with
  | some (r, i, j, b) => .register r i j b
  | none =>
    if 0xE10000 ≤ off && off < 0xE10000 + 16 * msixSize fn then .msix (off - 0xE10000)
    else if 0xE18000 ≤ off && off < 0xE18000 + msixSize fn / 8 then .pending (off - 0xE18000)
    else if 0xF10000 ≤ off && off < 0xF10000 + 9 * 0x8000 then
      let b := off - 0xF10000
      if b % 0x8000 < 0x4000 then .request (b / 0x8000) (b % 0x4000) else .response (b / 0x8000) (b % 0x4000)
    else if 0x2000000 ≤ off && off < 0x3000000 then .recovery (off - 0x2000000)
    else .hole

/-- Register block of an offset (R962). -/
def blockOf (off : Nat) : Nat := off / 2 ^ 20

/-- Whether boot, halt and scrub let an access reach a block (R746, R827, R829): TOP, SEAL and RST always, and the recovery buffer while
RECOVERY_CTRL.READY is 1. -/
def blockOpen (s : State) (off : Nat) : Bool :=
  (s.rst.bootDone && !s.rst.halted && !s.sealing.scrub) || blockOf off = 0 || blockOf off = 0xF || blockOf off = 0x11
    || (s.rst.recoveryReady && 0x2000000 ≤ off && off < 0x3000000)

/-- Whether the package answers on its bus: powered and not held by a thermal trip. -/
def busAwake (s : State) : Bool := s.rst.powered && !s.rst.tripped

/-- Whether virtual function `n` reads a register instance (03 R122; the VF column of R964). -/
def vfReads (s : State) (n : Nat) (r : Reg) (i : Nat) : Bool :=
  match r.info.reach with
  | .all => true
  | .physical => false
  | .sector => i = n
  | .ring => i / 64 = n
  | .context => i / 64 = n
  | .scull => Table.find s.sct.eights (i / 8) = some n
  | .engine => Table.find s.sct.engines i = some n
  | .slot => (Table.find s.heat.slots i).any (fun h => h.sector = n)
  | .instanceOf => isClient i && (Table.find s.rng.instances i).any (fun x => x.sector = n)
  | .fold => (Table.find s.chord.folds i).any (fun f => f.sector = n)
  | .mailbox => i = n + 1
  | .wake => wakeReaches s i (.vf n)

/-- Whether the ingress filter admits an access of a function to a place (03 R121-R123; 21 R964). -/
def admits (s : State) (fn : Fn) (write : Bool) : Place → Bool
  | .register r i _ _ => match fn with
    | .pf => true
    | .vf n => vfReads s n r i && !(write && r.info.writesP)
  | .msix _ | .pending _ => true
  | .request box _ | .response box _ => match fn with
    | .pf => true
    | .vf n => box = n + 1
  | .recovery _ | .hole => fn = .pf

/-- Blocks whose refused reads return zero (R962): TOP, SCT, MEM, LAK, SCL, LAT, HEAT, RNG, RDMA, CHD, SEAL, ERR, WAKE; CAD, which
refuses no read, answers zero where it holds no register (R965). -/
def zeroBlocks : List Nat := [0, 1, 2, 4, 6, 7, 8, 9, 0xA, 0xB, 0xC, 0xF, 0x13, 0x16]

/-- What a read refused by a block returns (03 R123, 15 R754, 21 R962). -/
def refusedValue (off size : Nat) : Nat := if zeroBlocks.contains (blockOf off) then 0 else allOnes size

/-! ### Reads -/

/-- Registers of 64 bits of which a 32-bit access clears and writes nothing (R967). -/
def wideOnly : Reg → Bool
  | .cmdRingCount | .cmdAdminSqBase | .cmdAdminCqBase | .chdPodMembers | .chdLinkCounts | .chdTxDecoded | .chdTxCoded | .chdAclSrc
  | .chdAclWin | .cadPpsSeconds | .rdmaRateCfg | .ethPortCfg | .ethAddrIpHi | .ethAddrIpLo | .ethAddrMac | .errCfg => true
  | _ => false

/-- A read of `size` bytes of a register instance from `byte`: the value, and the state with RC bits cleared (00 R10, R18; R967, R968),
SMB_ALERT_N released by ERR.LAST0 (20 R946), and an oldest wide word popped at offset 0 of WAKE.DATAq (19 R913, R930). -/
def readReg (fn : Fn) (r : Reg) (i j byte size : Nat) (s : State) : Nat × State :=
  let v := bitsOf (regValue s fn r i j) (8 * byte) (8 * size)
  match r with
  | .wakeData =>
    if s.sealing.sealed && (Table.find s.sct.wake i).isSome then (allOnes size, s)
    else if j = 0 && byte = 0 then
      let s := wakePop fn i size s
      (s.pci.reply, s)
    else (v, s)
  | .errLast => (v, if i = 0 && fn = .pf then { s with pins := { s.pins with smbAlert := false } } else s)
  | _ =>
    if r.info.rc = 0 || size < r.info.bytes then (v, s)
    else
      let old := rget s r i j
      (v, rput s r i j (old - (old &&& r.info.rc)))

/-- The MSI-X table and pending-bit array as bytes (15 R759, R762). -/
def msixView (c : FnConfig) (byte size : Nat) : Nat :=
  let e := Table.getD c.msix (byte / 16) {}
  bitsOf (fieldsAt [(0, e.addr), (64, e.data), (96, bitNat e.masked)]) (8 * (byte % 16)) (8 * size)
def pendingView (c : FnConfig) (byte size : Nat) : Nat :=
  bitMask ((c.pendingBits.filter (fun v => 8 * byte ≤ v && v < 8 * (byte + size))).map (· - 8 * byte))

/-- An admitted read. -/
def readPlace (fn : Fn) (size : Nat) (p : Place) (s : State) : Nat × State :=
  match p with
  | .register r i j b => readReg fn r i j b size s
  | .msix b => (msixView (fnOf s fn) b size, s)
  | .pending b => (pendingView (fnOf s fn) b size, s)
  | .request box b => (fieldLE (mailboxOf s box).req b size, s)
  | .response box b => (fieldLE (mailboxOf s box).resp b size, s)
  | .recovery b => (if s.rst.recoveryReady then fieldLE s.rst.recoveryImage b size else 0, s)
  | .hole => (0, s)

/-- A read of one register, or of one half of a 64-bit access (R966), through a function: closed blocks read all ones, what the filter
refuses reads as its block says, recorded but in CAD (R962, R965). -/
def readUnit (fn : Fn) (off size : Nat) (s : State) : Nat × State :=
  let p := placeOf fn off
  if !blockOpen s off then (allOnes size, s)
  else if admits s fn false p then readPlace fn size p s
  else (refusedValue off size, if blockOf off = 1 then s else filterRefuse fn off s)

/-- Whether a 64-bit access is served as one: within one place, and not over two 32-bit registers (R966). -/
def joint (fn : Fn) (off : Nat) : Bool :=
  match placeOf fn off, placeOf fn (off + 4) with
  | .register r i j _, .register r' i' j' _ => r = r' && i = i' && j = j'
  | .register _ _ _ _, _ => false
  | _, .register _ _ _ _ => false
  | _, _ => true

/-- An aligned access of 32 or 64 bits (00 R14). -/
def alignedAccess (off size : Nat) : Bool := (size = 4 || size = 8) && off % size = 0

/-- An access that breaks R14, recorded and counted (00 R15; 17, source REG_ACCESS; 15 R754). -/
def regAccessRecord (fn : Fn) (off : Nat) (s : State) : State :=
  bump (eventRecord 0x0B01 (match fn with | .pf => 0xFF | .vf n => n) 0 off s) .pciFiltered

/-! ### The doorbell window (04 R165, R166; 15 R753)

The rows of register space take a BAR2 access at offset `o` as an access at 2^26 + `o`, next above BAR0 (log entry 97). -/

/-- Whether an offset of the rows lies in BAR2, 16 MiB. -/
def inDoorbells (off : Nat) : Bool := 2 ^ 26 ≤ off && off < 2 ^ 26 + 2 ^ 24

/-- Whether a function reaches a BAR2 offset: the physical function all, a virtual function the pages of its sector (03 R121, R122). -/
def doorbellWindow (fn : Fn) (o : Nat) : Bool :=
  match fn with
  | .pf => true
  | .vf n => o / 4096 / 64 = n

/-- A reachable read of a doorbell page: SQ_HEAD, STATE, and zero elsewhere. -/
def doorbellValue (s : State) (o size : Nat) : Nat :=
  let i := o / 4096
  if 512 ≤ i then 0
  else if o % 4096 = 0x10 then (ringOf s i).sqHead
  else if o % 4096 = 0x18 then bitsOf (regValue s .pf .cmdRingState i 0) 0 (8 * size)
  else if o % 4096 = 0x1C then bitsOf (regValue s .pf .cmdRingState i 0) 32 (8 * size)
  else 0

/-- A read of the doorbell window (04 R165, R166; 16 R827, R829). -/
def readDoorbell (fn : Fn) (o size : Nat) (s : State) : State :=
  if !alignedAccess o size then reply (allOnes size) (regAccessRecord fn o s)
  else if !s.rst.bootDone || s.rst.halted || s.sealing.scrub then reply (allOnes size) s
  else if !doorbellWindow fn o then reply (allOnes size) (filterRefuse fn o s)
  else reply (doorbellValue s o size) s

/-- A write to the doorbell window (04 R165-R171): SQ_TAIL and CQ_HEAD; what lies elsewhere in a page takes nothing. -/
def writeDoorbell (fn : Fn) (o size v : Nat) (s : State) : State :=
  if !alignedAccess o size then regAccessRecord fn o s
  else if 512 * 4096 ≤ o then (if doorbellWindow fn o then s else filterRefuse fn o s)
  else if o % 4096 = 0 then writeSqTail (.page fn) (o / 4096) (v % 65536) s
  else if o % 4096 = 8 then writeCqHead (.page fn) (o / 4096) (v % 65536) s
  else if s.rst.bootDone && !s.rst.halted && !doorbellWindow fn o then filterRefuse fn o s
  else s

/-- A read of register space, or of the doorbell window above it, through a function. -/
def readRegister (fn : Fn) (off size : Nat) (s : State) : State :=
  if !busAwake s then s
  else if 2 ^ 26 ≤ off then (if inDoorbells off then readDoorbell fn (off - 2 ^ 26) size s else s)
  else if !alignedAccess off size then reply (allOnes size) (regAccessRecord fn off s)
  else if size = 4 || joint fn off then
    let (v, s) := readUnit fn off size s
    reply v s
  else
    let (a, s) := readUnit fn off 4 s
    let (b, s) := readUnit fn (off + 4) 4 s
    reply (a + 2 ^ 32 * b) s

/-! ### Writes -/

/-- A field stored as `x` instead of 0. -/
def notZero (lo w x v : Nat) : Nat := if bitsOf v lo w = 0 then setBits v lo w x else v

/-- The value that a register takes when software writes `v` (the fields whose tables say how a value outside the range is stored;
02 R110; 10 R551). -/
def storedAs (s : State) (r : Reg) (i v : Nat) : Nat :=
  match r with
  | .cadMarkQuota => min v 240
  | .memScrubCfg => if v = 0 then 0 else min (max v 3600) 604800
  | .heatConfig => notZero 32 24 1 v
  | .heatConfig2 => notZero 0 32 1000 v
  | .rngConfig => setBits v 8 6 (min (max (bitsOf v 8 6) 1) 32)
  | .rdmaRateCfg => notZero 31 5 1 (notZero 21 10 1 (notZero 7 4 1 v))
  | .rdmaMrQuota => min v (1048576 - (((List.range 8).filter (· ≠ i)).map (fun n => rget s .rdmaMrQuota n)).sum)
  | .chdCfg => notZero 16 16 1 (notZero 0 16 25 v)
  | .pairCfg => notZero 8 8 1 (notZero 0 8 1 v)
  | .errCfg => notZero 4 20 1 (notZero 0 4 1 v)
  | _ => v

/-- A write of GO, DONE and REQ_LEN of a mailbox (14 R722). -/
def writeMailbox (box v : Nat) (s : State) : State :=
  let m := mailboxOf s box
  if v.testBit 0 && !m.busy then rput (setMailbox box { m with busy := true } s) .sealMboxCtrl box 0 (setBits v 0 1 1)
  else rput s .sealMboxCtrl box 0 (setBits v 0 1 (bitNat m.busy))

/-- A write to a register instance: `mask` names the bits of the access, `w` holds the written bits in their places. -/
def writeBits (fn : Fn) (r : Reg) (i j mask w : Nat) (s : State) : State :=
  let k := r.info
  let old := rget s r i j
  let new := accessWrite k mask old w
  let plain := rput s r i j (storedAs s r i new)
  match r with
  | .cmdAdminSqBase | .cmdAdminCqBase => if (rget s .cmdAdminCfg i).testBit 32 then s else plain
  | .cmdAdminCfg => writeAdminCfg i ((old - (old &&& mask)) ||| (w &&& mask &&& (k.rw ||| k.w1s))) s
  | .cmdDbMirrorSqTail => if mask.testBit 0 then writeSqTail (.mirror fn) i (w % 65536) s else s
  | .cmdDbMirrorCqHead => if mask.testBit 0 then writeCqHead (.mirror fn) i (w % 65536) s else s
  | .memFarCfg => if s.mem.farFixed then s else plain
  | .memDbgBase => if s.sealing.sealed then s else plain
  | .memScrubCfg => setScrubMark plain
  | .rngConfig => seedToWaiting (noteSource plain)
  | .ethPortCfg => writePortCfg i new s
  | .sealMboxCtrl => writeMailbox i new s
  | .rstStatus => if (w &&& mask).testBit 11 then setRst { s.rst with fallback := false } s else s
  | .rstCtrl => warmRow (.register fn w) s
  | .rstSectorReset => sectorReset fn (w % 256) s
  | .rstEngineReset => if w.testBit 8 then engineReset (some fn) (bitsOf w 6 2) (bitsOf w 0 6) s else plain
  | .rstRecoveryCtrl =>
    let s := rput s r i j (bitsOf new 8 24 * 256)
    if w.testBit 1 then recoveryGo (bitsOf w 8 24) s else s
  | _ => if k.rw = 0 && k.w1c = 0 && k.w1s = 0 then s else plain

/-- A write of `size` bytes to a register instance from `byte` (00 R10; R967, R968). -/
def writeReg (fn : Fn) (r : Reg) (i j byte size v : Nat) (s : State) : State :=
  if wideOnly r && size = 4 then s
  else writeBits fn r i j ((2 ^ (8 * size) - 1) * 2 ^ (8 * byte)) (v % 2 ^ (8 * size) * 2 ^ (8 * byte)) s

/-- A write to a function's MSI-X table; an unmasked vector sends what was held for it (15 R759, R762). -/
def writeMsix (fn : Fn) (byte size v : Nat) (s : State) : State :=
  let c := fnOf s fn
  let e := Table.getD c.msix (byte / 16) {}
  let n := setBits (fieldsAt [(0, e.addr), (64, e.data), (96, bitNat e.masked)]) (8 * (byte % 16)) (8 * size) v
  let e : MsixEntry := { addr := bitsOf n 0 64, data := bitsOf n 64 32, masked := n.testBit 96 }
  releaseMsix fn (setFn s fn { c with msix := Table.put c.msix (byte / 16) e })

/-- An admitted write. -/
def writePlace (fn : Fn) (size v : Nat) (p : Place) (s : State) : State :=
  match p with
  | .register r i j b => writeReg fn r i j b size v s
  | .msix b => writeMsix fn b size v s
  | .request box b => setMailbox box { mailboxOf s box with req := overlay (mailboxOf s box).req b (leBytes size v) } s
  | .recovery b =>
    if s.rst.recoveryReady then setRst { s.rst with recoveryImage := overlay s.rst.recoveryImage b (leBytes size v) } s else s
  | .pending _ | .response _ _ | .hole => s

/-- A write of one register, or of one half of a 64-bit access, through a function. -/
def writeUnit (fn : Fn) (off size v : Nat) (s : State) : State :=
  let p := placeOf fn off
  if !blockOpen s off then s
  else if admits s fn true p then writePlace fn size v p s
  else filterRefuse fn off s

/-- A write to register space, or to the doorbell window above it, through a function. -/
def writeRegister (fn : Fn) (off size v : Nat) (s : State) : State :=
  if !busAwake s then s
  else if 2 ^ 26 ≤ off then (if inDoorbells off then writeDoorbell fn (off - 2 ^ 26) size v s else s)
  else if !alignedAccess off size then regAccessRecord fn off s
  else if size = 4 || joint fn off then writeUnit fn off size v s
  else writeUnit fn (off + 4) 4 (v / 2 ^ 32) (writeUnit fn off 4 (v % 2 ^ 32) s)

/-! ### The rows -/

/-- REGISTER_WRITE (R10). -/
def execRegisterWrite (fn : Fn) (off size value : Nat) (s : State) : Out := .next (writeRegister fn off size value s)

/-- RC_READ (R18), and every other read that has no row of its own (log entry 97). -/
def execRcRead (fn : Fn) (off size : Nat) (s : State) : Out := .next (readRegister fn off size s)

/-- MISALIGNED_REGISTER_ACCESS (R15): an aligned access of 32 or 64 bits is none. -/
def execMisalignedRegisterAccess (fn : Fn) (off size : Nat) (write : Bool) (s : State) : Out :=
  .next (if alignedAccess off size then s else if write then writeRegister fn off size 0 s else readRegister fn off size s)

/-- Whether a read through a function meets the filter's refusal in a register or a half of it. -/
def readRefused (s : State) (fn : Fn) (off size : Nat) : Bool :=
  if 2 ^ 26 ≤ off then !doorbellWindow fn (off - 2 ^ 26) else
  let no := fun (o : Nat) => blockOpen s o && !admits s fn false (placeOf fn o)
  no off || (size = 8 && no (off + 4))

/-- REFUSED_REGISTER_READ (R123): a read that the filter admits is none. -/
def execRefusedRegisterRead (fn : Fn) (off size : Nat) (s : State) : Out :=
  .next (if alignedAccess off size && readRefused s fn off size then readRegister fn off size s else s)

/-- ERR_LAST0_READ (R946). -/
def execErrLast0Read (fn : Fn) (size : Nat) (s : State) : Out := .next (readRegister fn (Reg.errLast.offset 0 0) size s)

/-- ADMIN_CFG_ENABLE (R174) and ADMIN_CFG_RESET (R185): a 64-bit write of CMD.ADMIN_CFGn. -/
def execAdminCfgEnable (fn : Fn) (sector value : Nat) (s : State) : Out :=
  .next (if sector < 8 then writeRegister fn (Reg.cmdAdminCfg.offset sector 0) 8 value s else s)

def execAdminCfgReset (fn : Fn) (sector value : Nat) (s : State) : Out :=
  .next (if sector < 8 then writeRegister fn (Reg.cmdAdminCfg.offset sector 0) 8 value s else s)

/-- RECOVERY_GO (R830): a write of RST.RECOVERY_CTRL. -/
def execRecoveryGo (fn : Fn) (value : Nat) (s : State) : Out := .next (writeRegister fn (Reg.rstRecoveryCtrl.offset 0 0) 4 value s)

/-- PORT_CFG (R781): a 64-bit write of ETH.PORT_CFGe. -/
def execPortCfg (fn : Fn) (port value : Nat) (s : State) : Out :=
  .next (if port < 8 then writeRegister fn (Reg.ethPortCfg.offset port 0) 8 value s else s)

/-! ### The debug window (15 R753, R755) -/

/-- Whether BAR4 shows a DPA: in HBM or the lake, outside heat pools (07 R343) and RDMA tables (10 R503). -/
def bar4Shows (s : State) (a size : Nat) : Bool :=
  (regionOf s a = .near || regionOf s a = .lake) && !inPool s a size
    && !(a < 0x008000000000 && s.rdma.tables.any (fun e => e.2 = a / 2 ^ 30))

/-- BAR4_READ: through the physical function only; in sealed mode the window is absent, and while ARMED it reads all ones (R755, 14
R708). A line that is poisoned or fails gives all ones, as any read of it counts and records (05 R265, R267; 17 R844, R868). -/
def bar4Read (fn : Fn) (off size : Nat) (faults : List LineFault) (s : State) : State :=
  if !busAwake s || fn ≠ .pf || 2 ^ 32 ≤ off || size = 0 || 8 < size || s.sealing.sealed then s
  else
    let a := bitsOf (rget s .memDbgBase) 32 14 * 2 ^ 32 + off
    if s.rst.bootDone && !s.rst.halted && !s.sealing.scrub && !s.sealing.armed && bar4Shows s a size then
      match faultyRead faults a size s with
      | (.ok bs, s) => reply (leNat bs) s
      | (.error _, s) => reply (allOnes size) s
    else reply (allOnes size) s

def execBar4Read (fn : Fn) (off size : Nat) (faults : List LineFault) (s : State) : Out := .next (bar4Read fn off size faults s)

end Sys2Proof.Machine
end

