-- ==== Sys2Proof/Machine/Dispatch.lean ====
section
/-! DEFINITION. The dispatch of the commands: one arm per constructor, each a direct call of its meaning. -/
namespace Sys2Proof.Machine

def exec (i : Instr) (s : State) : Host.Outcome State Fault Refusal :=
  match i with
  | .nop ring => Sys2Proof.Machine.execNop ring s
  | .identify ring => Sys2Proof.Machine.execIdentify ring s
  | .fwActivate ring image => Sys2Proof.Machine.execFwActivate ring image s
  | .ringCreate ring => Sys2Proof.Machine.execRingCreate ring s
  | .ringDestroy ring => Sys2Proof.Machine.execRingDestroy ring s
  | .ringReset ring => Sys2Proof.Machine.execRingReset ring s
  | .quiesce ring => Sys2Proof.Machine.execQuiesce ring s
  | .sectorDefine ring => Sys2Proof.Machine.execSectorDefine ring s
  | .sectorShift ring => Sys2Proof.Machine.execSectorShift ring s
  | .sectorStop ring => Sys2Proof.Machine.execSectorStop ring s
  | .powerSet ring => Sys2Proof.Machine.execPowerSet ring s
  | .markSet ring => Sys2Proof.Machine.execMarkSet ring s
  | .markCancel ring => Sys2Proof.Machine.execMarkCancel ring s
  | .cadenceConfig ring => Sys2Proof.Machine.execCadenceConfig ring s
  | .memInvalidate ring => Sys2Proof.Machine.execMemInvalidate ring s
  | .tierMove ring faults => Sys2Proof.Machine.execTierMove ring faults s
  | .memZero ring => Sys2Proof.Machine.execMemZero ring s
  | .farAssign ring => Sys2Proof.Machine.execFarAssign ring s
  | .launch ring => Sys2Proof.Machine.execLaunch ring s
  | .contextCreate ring => Sys2Proof.Machine.execContextCreate ring s
  | .contextDestroy ring => Sys2Proof.Machine.execContextDestroy ring s
  | .contextKill ring => Sys2Proof.Machine.execContextKill ring s
  | .heatOpen ring faults => Sys2Proof.Machine.execHeatOpen ring faults s
  | .heatAdvance ring => Sys2Proof.Machine.execHeatAdvance ring s
  | .heatAbort ring => Sys2Proof.Machine.execHeatAbort ring s
  | .heatQuery ring => Sys2Proof.Machine.execHeatQuery ring s
  | .heatCollect ring => Sys2Proof.Machine.execHeatCollect ring s
  | .heatPoolSet ring => Sys2Proof.Machine.execHeatPoolSet ring s
  | .latExec ring => Sys2Proof.Machine.execLatExec ring s
  | .latSuspend ring => Sys2Proof.Machine.execLatSuspend ring s
  | .latResume ring => Sys2Proof.Machine.execLatResume ring s
  | .latModuli ring => Sys2Proof.Machine.execLatModuli ring s
  | .rngInstantiate ring => Sys2Proof.Machine.execRngInstantiate ring s
  | .rngGenerate ring faults => Sys2Proof.Machine.execRngGenerate ring faults s
  | .rngReseed ring => Sys2Proof.Machine.execRngReseed ring s
  | .rngUninstantiate ring => Sys2Proof.Machine.execRngUninstantiate ring s
  | .rngRawMode ring => Sys2Proof.Machine.execRngRawMode ring s
  | .rdmaTableSet ring => Sys2Proof.Machine.execRdmaTableSet ring s
  | .pdAlloc ring => Sys2Proof.Machine.execPdAlloc ring s
  | .pdFree ring => Sys2Proof.Machine.execPdFree ring s
  | .mrRegister ring => Sys2Proof.Machine.execMrRegister ring s
  | .mrDeregister ring => Sys2Proof.Machine.execMrDeregister ring s
  | .mwAlloc ring => Sys2Proof.Machine.execMwAlloc ring s
  | .mwFree ring => Sys2Proof.Machine.execMwFree ring s
  | .qpCreate ring => Sys2Proof.Machine.execQpCreate ring s
  | .qpModify ring => Sys2Proof.Machine.execQpModify ring s
  | .qpDestroy ring => Sys2Proof.Machine.execQpDestroy ring s
  | .qpQuery ring => Sys2Proof.Machine.execQpQuery ring s
  | .rdmaPost ring host faults => Sys2Proof.Machine.execRdmaPost ring host faults s
  | .rdmaRecv ring => Sys2Proof.Machine.execRdmaRecv ring s
  | .chordLink ring => Sys2Proof.Machine.execChordLink ring s
  | .chordRoute ring => Sys2Proof.Machine.execChordRoute ring s
  | .chordAcl ring => Sys2Proof.Machine.execChordAcl ring s
  | .chordXfer ring => Sys2Proof.Machine.execChordXfer ring s
  | .chordFold ring => Sys2Proof.Machine.execChordFold ring s
  | .attestReport ring => Sys2Proof.Machine.execAttestReport ring s
  | .bounceWindowAdd ring => Sys2Proof.Machine.execBounceWindowAdd ring s
  | .bounceWindowRemove ring => Sys2Proof.Machine.execBounceWindowRemove ring s
  | .opkeyLoad ring key => Sys2Proof.Machine.execOpkeyLoad ring key s
  | .opkeyRemove ring => Sys2Proof.Machine.execOpkeyRemove ring s
  | .sealArm ring => Sys2Proof.Machine.execSealArm ring s
  | .certRead ring => Sys2Proof.Machine.execCertRead ring s
  | .selftestRun ring => Sys2Proof.Machine.execSelftestRun ring s
  | .injectArm ring => Sys2Proof.Machine.execInjectArm ring s
  | .injectDisarm ring => Sys2Proof.Machine.execInjectDisarm ring s
  | .pairForm ring => Sys2Proof.Machine.execPairForm ring s
  | .pairTakeover ring => Sys2Proof.Machine.execPairTakeover ring s
  | .trayDetach ring => Sys2Proof.Machine.execTrayDetach ring s
  | .pairBreak ring => Sys2Proof.Machine.execPairBreak ring s
  | .wakeConfig ring => Sys2Proof.Machine.execWakeConfig ring s
  | .wakeDrain ring faults refused => Sys2Proof.Machine.execWakeDrain ring faults refused s
  | .dropPacket ring => Sys2Proof.Machine.execDropPacket ring s
  | .registerWrite fn off size value => Sys2Proof.Machine.execRegisterWrite fn off size value s
  | .rcRead fn off size => Sys2Proof.Machine.execRcRead fn off size s
  | .misalignedRegisterAccess fn off size write => Sys2Proof.Machine.execMisalignedRegisterAccess fn off size write s
  | .sqTail src ring value => Sys2Proof.Machine.execSqTail src ring value s
  | .cqHead src ring value => Sys2Proof.Machine.execCqHead src ring value s
  | .adminCfgEnable fn sector value => Sys2Proof.Machine.execAdminCfgEnable fn sector value s
  | .adminCfgReset fn sector value => Sys2Proof.Machine.execAdminCfgReset fn sector value s
  | .pop fn queue size => Sys2Proof.Machine.execPop fn queue size s
  | .recoveryGo fn value => Sys2Proof.Machine.execRecoveryGo fn value s
  | .portCfg fn port value => Sys2Proof.Machine.execPortCfg fn port value s
  | .bar4Read fn off size faults => Sys2Proof.Machine.execBar4Read fn off size faults s
  | .msixUnmask fn vector => Sys2Proof.Machine.execMsixUnmask fn vector s
  | .vfEnableClear => Sys2Proof.Machine.execVfEnableClear s
  | .functionLevelReset fn => Sys2Proof.Machine.execFunctionLevelReset fn s
  | .coldReset env => Sys2Proof.Machine.execColdReset env s
  | .pwrGoodFall => Sys2Proof.Machine.execPwrGoodFall s
  | .warmReset cause => Sys2Proof.Machine.execWarmReset cause s
  | .sectorReset fn value => Sys2Proof.Machine.execSectorReset fn value s
  | .engineReset fn kind index => Sys2Proof.Machine.execEngineReset fn kind index s
  | .hostPortReset cause => Sys2Proof.Machine.execHostPortReset cause s
  | .bootDone env => Sys2Proof.Machine.execBootDone env s
  | .watchdogExpiry => Sys2Proof.Machine.execWatchdogExpiry s
  | .trialTimerExpiry => Sys2Proof.Machine.execTrialTimerExpiry s
  | .pllLossOfLock pll => Sys2Proof.Machine.execPllLossOfLock pll s
  | .temperatureWarn die reading => Sys2Proof.Machine.execTemperatureWarn die reading s
  | .temperatureCritical die reading => Sys2Proof.Machine.execTemperatureCritical die reading s
  | .thermalTrip die reading => Sys2Proof.Machine.execThermalTrip die reading s
  | .vrFault regulator => Sys2Proof.Machine.execVrFault regulator s
  | .strokeBoundary now => Sys2Proof.Machine.execStrokeBoundary now s
  | .markRelease faults => Sys2Proof.Machine.execMarkRelease faults s
  | .notBeforeDue ring => Sys2Proof.Machine.execNotBeforeDue ring s
  | .lockstepWaitExpiry ring => Sys2Proof.Machine.execLockstepWaitExpiry ring s
  | .sync port master seq received twoStep => Sys2Proof.Machine.execSync port master seq received twoStep s
  | .followUp port master seq now offset => Sys2Proof.Machine.execFollowUp port master seq now offset s
  | .announce port domain master => Sys2Proof.Machine.execAnnounce port domain master s
  | .delayResp port master seq delay => Sys2Proof.Machine.execDelayResp port master seq delay s
  | .delayReq now => Sys2Proof.Machine.execDelayReq now s
  | .ppsPulse now offset early => Sys2Proof.Machine.execPpsPulse now offset early s
  | .referenceLost now ref10 => Sys2Proof.Machine.execReferenceLost now ref10 s
  | .estimateExceedsTolerance now => Sys2Proof.Machine.execEstimateExceedsTolerance now s
  | .commandFetch data => Sys2Proof.Machine.execCommandFetch data s
  | .completionPost ring failed latency => Sys2Proof.Machine.execCompletionPost ring failed latency s
  | .pcieCompletionTimeout ring => Sys2Proof.Machine.execPcieCompletionTimeout ring s
  | .yieldResume => Sys2Proof.Machine.execYieldResume s
  | .drainTimeout => Sys2Proof.Machine.execDrainTimeout s
  | .shiftClearEnd => Sys2Proof.Machine.execShiftClearEnd s
  | .powerDrainEnd kind index => Sys2Proof.Machine.execPowerDrainEnd kind index s
  | .powerUpComplete kind index => Sys2Proof.Machine.execPowerUpComplete kind index s
  | .pageMoveEnd tagFail poisonLines faults => Sys2Proof.Machine.execPageMoveEnd tagFail poisonLines faults s
  | .groupPlacement sector => Sys2Proof.Machine.execGroupPlacement sector s
  | .launchTimeout age => Sys2Proof.Machine.execLaunchTimeout age s
  | .killComplete ctx => Sys2Proof.Machine.execKillComplete ctx s
  | .memoryAccessReturn crew => Sys2Proof.Machine.execMemoryAccessReturn crew s
  | .descriptorComplete scull elapsed faults => Sys2Proof.Machine.execDescriptorComplete scull elapsed faults s
  | .crewNop crew => Sys2Proof.Machine.execCrewNop crew s
  | .bra crew => Sys2Proof.Machine.execBra crew s
  | .jmp crew => Sys2Proof.Machine.execJmp crew s
  | .call crew => Sys2Proof.Machine.execCall crew s
  | .exit crew elapsed => Sys2Proof.Machine.execExit crew elapsed s
  | .bar crew => Sys2Proof.Machine.execBar crew s
  | .fence crew => Sys2Proof.Machine.execFence crew s
  | .missue crew => Sys2Proof.Machine.execMissue crew s
  | .mwait crew => Sys2Proof.Machine.execMwait crew s
  | .sread crew cycle => Sys2Proof.Machine.execSread crew cycle s
  | .tpush crew => Sys2Proof.Machine.execTpush crew s
  | .tpushv crew => Sys2Proof.Machine.execTpushv crew s
  | .vote crew => Sys2Proof.Machine.execVote crew s
  | .shfl crew => Sys2Proof.Machine.execShfl crew s
  | .iadd crew => Sys2Proof.Machine.execIadd crew s
  | .isub crew => Sys2Proof.Machine.execIsub crew s
  | .imul crew => Sys2Proof.Machine.execImul crew s
  | .imulhi crew => Sys2Proof.Machine.execImulhi crew s
  | .imad crew => Sys2Proof.Machine.execImad crew s
  | .and crew => Sys2Proof.Machine.execAnd crew s
  | .or crew => Sys2Proof.Machine.execOr crew s
  | .xor crew => Sys2Proof.Machine.execXor crew s
  | .shl crew => Sys2Proof.Machine.execShl crew s
  | .shr crew => Sys2Proof.Machine.execShr crew s
  | .min crew => Sys2Proof.Machine.execMin crew s
  | .max crew => Sys2Proof.Machine.execMax crew s
  | .sel crew => Sys2Proof.Machine.execSel crew s
  | .popc crew => Sys2Proof.Machine.execPopc crew s
  | .clz crew => Sys2Proof.Machine.execClz crew s
  | .mov crew => Sys2Proof.Machine.execMov crew s
  | .iadd64 crew => Sys2Proof.Machine.execIadd64 crew s
  | .iaddc crew => Sys2Proof.Machine.execIaddc crew s
  | .modmul crew => Sys2Proof.Machine.execModmul crew s
  | .modadd crew => Sys2Proof.Machine.execModadd crew s
  | .modsub crew => Sys2Proof.Machine.execModsub crew s
  | .imadw crew => Sys2Proof.Machine.execImadw crew s
  | .fadd crew => Sys2Proof.Machine.execFadd crew s
  | .fsub crew => Sys2Proof.Machine.execFsub crew s
  | .fmul crew => Sys2Proof.Machine.execFmul crew s
  | .ffma crew => Sys2Proof.Machine.execFfma crew s
  | .fmin crew => Sys2Proof.Machine.execFmin crew s
  | .fmax crew => Sys2Proof.Machine.execFmax crew s
  | .ffunc crew => Sys2Proof.Machine.execFfunc crew s
  | .hadd2 crew => Sys2Proof.Machine.execHadd2 crew s
  | .hmul2 crew => Sys2Proof.Machine.execHmul2 crew s
  | .hfma2 crew => Sys2Proof.Machine.execHfma2 crew s
  | .cvt crew => Sys2Proof.Machine.execCvt crew s
  | .f8pack crew => Sys2Proof.Machine.execF8pack crew s
  | .f8unpack crew => Sys2Proof.Machine.execF8unpack crew s
  | .isetp crew => Sys2Proof.Machine.execIsetp crew s
  | .fsetp crew => Sys2Proof.Machine.execFsetp crew s
  | .plop crew => Sys2Proof.Machine.execPlop crew s
  | .ld crew faults => Sys2Proof.Machine.execLd crew faults s
  | .st crew faults => Sys2Proof.Machine.execSt crew faults s
  | .atom crew faults => Sys2Proof.Machine.execAtom crew faults s
  | .ladd crew faults => Sys2Proof.Machine.execLadd crew faults s
  | .lld crew => Sys2Proof.Machine.execLld crew s
  | .lst crew => Sys2Proof.Machine.execLst crew s
  | .latom crew => Sys2Proof.Machine.execLatom crew s
  | .sadd crew => Sys2Proof.Machine.execSadd crew s
  | .ssub crew => Sys2Proof.Machine.execSsub crew s
  | .smul crew => Sys2Proof.Machine.execSmul crew s
  | .sand crew => Sys2Proof.Machine.execSand crew s
  | .sor crew => Sys2Proof.Machine.execSor crew s
  | .sxor crew => Sys2Proof.Machine.execSxor crew s
  | .sshl crew => Sys2Proof.Machine.execSshl crew s
  | .sshr crew => Sys2Proof.Machine.execSshr crew s
  | .smovi crew => Sys2Proof.Machine.execSmovi crew s
  | .ssethi crew => Sys2Proof.Machine.execSsethi crew s
  | .s2v crew => Sys2Proof.Machine.execS2v crew s
  | .v2s crew => Sys2Proof.Machine.execV2s crew s
  | .saddi crew => Sys2Proof.Machine.execSaddi crew s
  | .stepBoundary engine stall => Sys2Proof.Machine.execStepBoundary engine stall s
  | .latOperationEnd engine stall faults => Sys2Proof.Machine.execLatOperationEnd engine stall faults s
  | .rawBlockComplete annulus => Sys2Proof.Machine.execRawBlockComplete annulus s
  | .aliveWindowClose edges => Sys2Proof.Machine.execAliveWindowClose edges s
  | .lockBlockClose => Sys2Proof.Machine.execLockBlockClose s
  | .seedLeavesProbation katPass => Sys2Proof.Machine.execSeedLeavesProbation katPass s
  | .seedToWaitingInstance => Sys2Proof.Machine.execSeedToWaitingInstance s
  | .enrol qp faults => Sys2Proof.Machine.execEnrol qp faults s
  | .rosterGet qp faults => Sys2Proof.Machine.execRosterGet qp faults s
  | .share qp faults => Sys2Proof.Machine.execShare qp faults s
  | .inboxGet qp faults => Sys2Proof.Machine.execInboxGet qp faults s
  | .submit qp faults => Sys2Proof.Machine.execSubmit qp faults s
  | .confirm qp faults => Sys2Proof.Machine.execConfirm qp faults s
  | .reveal qp faults => Sys2Proof.Machine.execReveal qp faults s
  | .tally qp faults => Sys2Proof.Machine.execTally qp faults s
  | .heldReply qp faults => Sys2Proof.Machine.execHeldReply qp faults s
  | .vectorCommit slot => Sys2Proof.Machine.execVectorCommit slot s
  | .taint slot addr faults => Sys2Proof.Machine.execTaint slot addr faults s
  | .taintRecovery slot lines image => Sys2Proof.Machine.execTaintRecovery slot lines image s
  | .exchangeTimeout slot => Sys2Proof.Machine.execExchangeTimeout slot s
  | .data link flit => Sys2Proof.Machine.execData link flit s
  | .nak link flit => Sys2Proof.Machine.execNak link flit s
  | .idle link flit => Sys2Proof.Machine.execIdle link flit s
  | .heartbeat link flit => Sys2Proof.Machine.execHeartbeat link flit s
  | .ident link peer => Sys2Proof.Machine.execIdent link peer s
  | .laneLockLoss link lane => Sys2Proof.Machine.execLaneLockLoss link lane s
  | .fecErrorBurst link lane => Sys2Proof.Machine.execFecErrorBurst link lane s
  | .retrainTimeout link => Sys2Proof.Machine.execRetrainTimeout link s
  | .write link => Sys2Proof.Machine.execWrite link s
  | .readReq link faults => Sys2Proof.Machine.execReadReq link faults s
  | .readResp link => Sys2Proof.Machine.execReadResp link s
  | .accum link faults => Sys2Proof.Machine.execAccum link faults s
  | .fold link poison faults => Sys2Proof.Machine.execFold link poison faults s
  | .ack link => Sys2Proof.Machine.execAck link s
  | .refuse link => Sys2Proof.Machine.execRefuse link s
  | .system link msg faults => Sys2Proof.Machine.execSystem link msg faults s
  | .foldRetry slot => Sys2Proof.Machine.execFoldRetry slot s
  | .foldWaitExpiry slot => Sys2Proof.Machine.execFoldWaitExpiry slot s
  | .dedupExpiry pkg stream fold => Sys2Proof.Machine.execDedupExpiry pkg stream fold s
  | .send pkt now faults => Sys2Proof.Machine.execSend pkt now faults s
  | .rdmaWrite pkt now faults => Sys2Proof.Machine.execRdmaWrite pkt now faults s
  | .rdmaRead pkt now host faults => Sys2Proof.Machine.execRdmaRead pkt now host faults s
  | .fetchAdd pkt now faults => Sys2Proof.Machine.execFetchAdd pkt now faults s
  | .cmpSwap pkt now faults => Sys2Proof.Machine.execCmpSwap pkt now faults s
  | .acknowledgement pkt now => Sys2Proof.Machine.execAcknowledgement pkt now s
  | .readResponse pkt now faults => Sys2Proof.Machine.execReadResponse pkt now faults s
  | .atomicResponse pkt now faults => Sys2Proof.Machine.execAtomicResponse pkt now faults s
  | .roceNak pkt now => Sys2Proof.Machine.execRoceNak pkt now s
  | .rnrNak pkt now => Sys2Proof.Machine.execRnrNak pkt now s
  | .cnp pkt now => Sys2Proof.Machine.execCnp pkt now s
  | .ackTimeout qpn now => Sys2Proof.Machine.execAckTimeout qpn now s
  | .rnrTimer qpn => Sys2Proof.Machine.execRnrTimer qpn s
  | .risePeriod qpn now => Sys2Proof.Machine.execRisePeriod qpn now s
  | .pfcFrame port sub classes times => Sys2Proof.Machine.execPfcFrame port sub classes times s
  | .pfcRefresh port sub cls => Sys2Proof.Machine.execPfcRefresh port sub cls s
  | .otherFrame port sub accepted cls bytes => Sys2Proof.Machine.execOtherFrame port sub accepted cls bytes s
  | .subportLinkUp port sub => Sys2Proof.Machine.execSubportLinkUp port sub s
  | .subportLinkDown port sub => Sys2Proof.Machine.execSubportLinkDown port sub s
  | .cxlPortOffline port fatal => Sys2Proof.Machine.execCxlPortOffline port fatal s
  | .cxlMemTimeout port => Sys2Proof.Machine.execCxlMemTimeout port s
  | .getVersion path req => Sys2Proof.Machine.execGetVersion path req s
  | .getCapabilities path req => Sys2Proof.Machine.execGetCapabilities path req s
  | .negotiateAlgorithms path req => Sys2Proof.Machine.execNegotiateAlgorithms path req s
  | .getDigests path req => Sys2Proof.Machine.execGetDigests path req s
  | .getCertificate path req => Sys2Proof.Machine.execGetCertificate path req s
  | .challenge path req => Sys2Proof.Machine.execChallenge path req s
  | .getMeasurements path req => Sys2Proof.Machine.execGetMeasurements path req s
  | .keyExchange path req => Sys2Proof.Machine.execKeyExchange path req s
  | .finish path req => Sys2Proof.Machine.execFinish path req s
  | .spdmHeartbeat path req => Sys2Proof.Machine.execSpdmHeartbeat path req s
  | .keyUpdate path req => Sys2Proof.Machine.execKeyUpdate path req s
  | .endSession path req => Sys2Proof.Machine.execEndSession path req s
  | .chunkSend path req data => Sys2Proof.Machine.execChunkSend path req data s
  | .chunkGet path req => Sys2Proof.Machine.execChunkGet path req s
  | .kemKeyGet path req => Sys2Proof.Machine.execKemKeyGet path req s
  | .kemCipher path req => Sys2Proof.Machine.execKemCipher path req s
  | .vdCommand path req data => Sys2Proof.Machine.execVdCommand path req data s
  | .mldsaCertGet path req => Sys2Proof.Machine.execMldsaCertGet path req s
  | .ideKm path req => Sys2Proof.Machine.execIdeKm path req s
  | .perfSample queue counts => Sys2Proof.Machine.execPerfSample queue counts s
  | .targetedSelfTestStart dead => Sys2Proof.Machine.execTargetedSelfTestStart dead s
  | .targetedSelfTestEnd res failed => Sys2Proof.Machine.execTargetedSelfTestEnd res failed s
  | .retirementListWrite => Sys2Proof.Machine.execRetirementListWrite s
  | .injectionExpiry => Sys2Proof.Machine.execInjectionExpiry s
  | .mgtCoreStop core commands => Sys2Proof.Machine.execMgtCoreStop core commands s
  | .pairHeartbeat pkt now => Sys2Proof.Machine.execPairHeartbeat pkt now s
  | .missLimitReached => Sys2Proof.Machine.execMissLimitReached s
  | .pairFenceConf asserted => Sys2Proof.Machine.execPairFenceConf asserted s
  | .graceExpiry => Sys2Proof.Machine.execGraceExpiry s
  | .formWaitExpiry => Sys2Proof.Machine.execFormWaitExpiry s
  | .pllRelock pll => Sys2Proof.Machine.execPllRelock pll s
  | .temperatureWarnClear => Sys2Proof.Machine.execTemperatureWarnClear s
  | .standbyPowerLoss => Sys2Proof.Machine.execStandbyPowerLoss s
  | .standbyPowerUp => Sys2Proof.Machine.execStandbyPowerUp s
  | .perstDeassert => Sys2Proof.Machine.execPerstDeassert s
  | .hostLinkUp speed width flit => Sys2Proof.Machine.execHostLinkUp speed width flit s
  | .configurationRequest fn req => Sys2Proof.Machine.execConfigurationRequest fn req s
  | .ref10mReturn => Sys2Proof.Machine.execRef10mReturn s
  | .originReached now => Sys2Proof.Machine.execOriginReached now s
  | .errLast0Read fn size => Sys2Proof.Machine.execErrLast0Read fn size s
  | .refusedRegisterRead fn off size => Sys2Proof.Machine.execRefusedRegisterRead fn off size s
  | .linkTrainingComplete link failed => Sys2Proof.Machine.execLinkTrainingComplete link failed s
  | .annulusStrobe a b lost => Sys2Proof.Machine.execAnnulusStrobe a b lost s
  | .tierMoverFillEnd => Sys2Proof.Machine.execTierMoverFillEnd s
  | .maskExpansionChunkEnd slot expander fault faults => Sys2Proof.Machine.execMaskExpansionChunkEnd slot expander fault faults s
  | .noiseDrawComplete slot => Sys2Proof.Machine.execNoiseDrawComplete slot s
  | .expanderErrorEvent port event detail => Sys2Proof.Machine.execExpanderErrorEvent port event detail s
  | .jtagAccess ir dr => Sys2Proof.Machine.execJtagAccess ir dr s
  | .pfcXon port sub cls => Sys2Proof.Machine.execPfcXon port sub cls s

end Sys2Proof.Machine
end

