-- ==== Sys2Proof/Safety.lean ====
section
/-! DEFINITION. What counts as a safe run: every command is answered with a state, and what the invariants below say stays so. -/
namespace Sys2Proof.Machine

/-- Memory in canonical form: the cells (log entry 3), and the poisoned lines strictly rising. -/
def memoryCanonical (s : State) : Bool := s.mem.wf && rising s.mem.poison

/-- No field of the TOP block is stored, so that every TOP.PART_ID, TOP.STEPPING and TOP.CAP_* reads as it is wired (01 R48, 00 R10). -/
def topWired (s : State) : Bool := s.regs.all (fun e => decide (2 ^ 20 ≤ e.1))

/-- A step is safe when it answers a state, which is never a fault or a refusal. -/
def answers (s : State) : Prop := ∃ t, step s = .next t

end Sys2Proof.Machine
end

