-- ==== Sys2Proof/Certificates/Slice0/Obligations.lean ====
section
/-! DEFINITION. The statements for the provers. Each says for commands of one shape what the state after them is; a command row
answers `next` with that state, so what the state leaves out is its frame. -/

namespace Sys2Proof.Machine

/-! ### Premises and results that the statements share -/

/-- The package answers on its bus with every block open: powered, not tripped, booted, and no scrub running (16 R827, R829; 14 R746). -/
abbrev Awake (s : State) : Prop :=
  s.rst.powered = true ∧ s.rst.tripped = false ∧ s.rst.bootDone = true ∧ s.rst.halted = false ∧ s.sealing.scrub = false

/-- The command `c` of a ring begins: it is the next that may begin (04 R195, R196; 02 R79, R81; 03 R132), its opcode is `op`, and the
package is neither ARMED nor DETACHED (14 R703, 18 R900). -/
abbrev Begins (s : State) (ring op : Nat) (c : Cmd) : Prop :=
  nextToBegin s ring = some c ∧ c.opcode = op ∧ commandGate s op = none

/-- The state in which command `c` is done with OK and its results; its completion waits to be posted. -/
abbrev okWith (c : Cmd) (r0 r1 : Nat) (s : State) : State := finish c.serial stOk r0 r1 s

end Sys2Proof.Machine

open Sys2Proof Sys2Proof.Machine

/-- The queue and idling are the model's own (log entry 6). -/
def Obligations.StepTakesFront : Prop :=
  (∀ (c : Instr) (rest : List Instr) (s : State), s.pending = c :: rest → step s = exec c { s with pending := rest })
  ∧ (∀ s : State, s.pending = [] → step s = .next s)

def Obligations.EveryStepAnswers : Prop := ∀ s : State, answers s

/-- The canonical form is the model's (log entry 3). -/
def Obligations.MemoryStaysCanonical : Prop :=
  ∀ s t : State, memoryCanonical s = true → step s = .next t → memoryCanonical t = true

def Obligations.TopStaysWired : Prop :=
  ∀ s t : State, topWired s = true → step s = .next t →
    topWired t = true ∧
    (∀ fn, regValue t fn .topPartId 0 0 = 0x50544733 ∧ regValue t fn .topStepping 0 0 = 0x4200
      ∧ regValue t fn .topCapDies 0 0 = Reg.topCapDies.info.reset ∧ regValue t fn .topCapSystem 0 0 = Reg.topCapSystem.info.reset)

def Obligations.ResetMeetsInvariants : Prop :=
  memoryCanonical State.reset = true ∧ topWired State.reset = true ∧ State.reset.pending = []

def Obligations.ResetCadence : Prop :=
  ∀ fn : Fn, bitsOf (regValue State.reset fn .cadStatus 0 0) 2 1 = 0 ∧ bitsOf (regValue State.reset fn .cadStatus 0 0) 0 2 = 2
    ∧ State.reset.cad.state = .adrift
    ∧ regValue State.reset fn .cadErrEst 0 0 = 0xFFFFFFFF ∧ regValue State.reset fn .cadStroke 0 0 = 0

def Obligations.ResetSectors : Prop :=
  (sectorOf State.reset 0).state = .active ∧ (sectorOf State.reset 0).distance = false
    ∧ (sectorOf State.reset 0).qps = 0 ∧ (sectorOf State.reset 0).pds = 0 ∧ (sectorOf State.reset 0).rng = 0
    ∧ (∀ n, 1 ≤ n → n ≤ 7 → (sectorOf State.reset n).state = .undefined)
    ∧ (∀ i, Table.find State.reset.sct.eights i = none ∧ Table.find State.reset.sct.engines i = none
        ∧ Table.find State.reset.sct.hbm i = none ∧ Table.find State.reset.sct.lake i = none ∧ Table.find State.reset.sct.wake i = none)

def Obligations.RegisterAccess : Prop :=
  ∀ s : State, Awake s →
    (∀ r ∈ [Reg.cadPpsSeconds, .cadLogQueue, .chdPodMembers, .sealCfg], ∀ v : Nat,
      ∃ x, exec (.registerWrite .pf (r.offset 0 0) r.info.bytes v) s = .next (rput s r 0 0 x)
        ∧ ∀ k, k < 8 * r.info.bytes → x.testBit k = if r.info.rw.testBit k then v.testBit k else (rget s r).testBit k)
    ∧ (∀ r ∈ [Reg.cadStroke, .topPkgSerial], ∀ v : Nat, exec (.registerWrite .pf (r.offset 0 0) 8 v) s = .next s)
    ∧ (∀ r ∈ [Reg.cadStateChanges, .memCeCount, .pciFiltered, .errCorrected],
        ∃ x, exec (.rcRead .pf (r.offset 0 0) 4) s = .next (reply (rget s r % 2 ^ 32) (rput s r 0 0 x)) ∧ x % 2 ^ 32 = 0)

def Obligations.MisalignedAccess : Prop :=
  ∀ (s : State) (fn : Fn) (off size : Nat), s.rst.powered = true → s.rst.tripped = false → off < 2 ^ 26 →
    ¬((size = 4 ∨ size = 8) ∧ off % size = 0) →
    let e := bump (eventRecord 0x0B01 (match fn with | .pf => 0xFF | .vf n => n) 0 off s) .pciFiltered
    exec (.misalignedRegisterAccess fn off size true) s = .next e
      ∧ exec (.misalignedRegisterAccess fn off size false) s = .next { e with pci := { e.pci with reply := 2 ^ (8 * size) - 1 } }

def Obligations.RefusedRead : Prop :=
  ∀ (s : State) (n : Nat), Awake s →
    (∀ r ∈ [Reg.topFuseStatus, .memStatus, .errStatus],
      exec (.refusedRegisterRead (.vf n) (r.offset 0 0) 4) s
        = .next (reply 0 (bump (eventRecord 0x0B02 n 0 (r.offset 0 0) s) .pciFiltered)))
    ∧ (∀ r ∈ [Reg.clkPllStatus, .pwrLeState, .injArmed],
      exec (.refusedRegisterRead (.vf n) (r.offset 0 0) 4) s
        = .next (reply 0xFFFFFFFF (bump (eventRecord 0x0B02 n 0 (r.offset 0 0) s) .pciFiltered)))

def Obligations.SpecialRegisters : Prop :=
  (∀ s : State, Awake s →
    exec (.errLast0Read .pf 8) s = .next (reply (bitsOf (regValue s .pf .errLast 0 0) 0 64) { s with pins := { s.pins with smbAlert := false } }))
  ∧ (∀ (s : State) (fn : Fn) (n v : Nat), Awake s → n < 8 → (fn = .pf ∨ fn = .vf n) → (rget s .cmdAdminCfg n).testBit 32 = false →
      s.pci.vfEnable = true → s.pci.numVfs = 8 → (ringOf s (n * 64)).state = .disabled →
      v.testBit 32 = true → v.testBit 33 = false →
      ∃ t, exec (.adminCfgEnable fn n v) s = .next t ∧ ringOf t (n * 64) = { ringOf t (n * 64) with state := .active, cls := 1, hub := false, sqBase := rget s .cmdAdminSqBase n, cqBase := rget s .cmdAdminCqBase n, sqHead := 0, sqTail := 0, cqHead := 0, cqTail := 0, phase := true }
        ∧ (∀ i, i ≠ n * 64 → ringOf t i = ringOf s i) ∧ t.mem = s.mem ∧ t.sct = s.sct)
  ∧ (∀ (s : State) (fn : Fn) (n v : Nat), Awake s → n < 8 → (fn = .pf ∨ fn = .vf n) → (rget s .cmdAdminCfg n).testBit 32 = true →
      (ringOf s (n * 64)).state = .active → (ringOf s (n * 64)).inflight = [] → v.testBit 32 = true → v.testBit 33 = true →
      ∃ t, exec (.adminCfgReset fn n v) s = .next t ∧ ringOf t (n * 64) = freshRing (ringOf s (n * 64))
        ∧ (∀ i, i ≠ n * 64 → ringOf t i = ringOf s i) ∧ t.mem = s.mem ∧ t.sct = s.sct)
  ∧ (∀ (s : State) (e v : Nat), Awake s → e < 8 → (rget s .ethPortCfg e).testBit 0 = false → v < 2 ^ 60 →
      exec (.portCfg .pf e v) s = .next (rput s .ethPortCfg e 0 (if bitsOf v 1 2 = 3 then setBits v 1 2 0 else v)))
  ∧ (∀ (s : State) (off : Nat), Awake s → s.sealing.sealed = false → s.sealing.armed = false → off < 2 ^ 32 →
      let a := bitsOf (rget s .memDbgBase) 32 14 * 2 ^ 32 + off
      (a + 8 ≤ 2 ^ 39 → a % 8 = 0 → inPool s a 8 = false → (∀ e ∈ s.rdma.tables, e.2 ≠ a / 2 ^ 30) → poisonedAt s a = false →
        s.err.slots = [] → exec (.bar4Read .pf off 8 []) s = .next (reply (leNat (peek s a 8)) s))
      ∧ (a + 8 ≤ 2 ^ 39 → a % 8 = 0 → inPool s a 8 = false → (∀ e ∈ s.rdma.tables, e.2 ≠ a / 2 ^ 30) → poisonedAt s a = true →
        exec (.bar4Read .pf off 8 []) s = .next (reply (2 ^ 64 - 1) (bump s .memPoisonReads)))
      ∧ (regionOf s a = .hole → exec (.bar4Read .pf off 8 []) s = .next (reply (2 ^ 64 - 1) s)))
  ∧ (∀ (s : State) (v : Nat), s.rst.powered = true → s.rst.tripped = false → s.rst.recoveryReady = true → v < 2 ^ 32 → v.testBit 1 = true →
      ∃ t, exec (.recoveryGo .pf v) s = .next t ∧ t.rst.recoveryReady = false
        ∧ (if imageCheck s.rst.fuses (padTo (4096 * min (v / 256) 4096) s.rst.recoveryImage) = 0 then t.rst.halted = s.rst.halted
           else t.rst.halted = true ∧ t.rst.bootError = imageCheck s.rst.fuses (padTo (4096 * min (v / 256) 4096) s.rst.recoveryImage))
        ∧ t.rst.flash = s.rst.flash ∧ t.mem = s.mem ∧ t.sct = s.sct)

/-- R203 and R204 whole; R181 to R184 for the forms named. -/
def Obligations.AdminCommands : Prop :=
  ∀ (s : State) (ring : Nat) (c : Cmd),
    (Begins s ring 0x0001 c → exec (.nop ring) s = .next (okWith c 0 0 s))
    ∧ (Begins s ring 0x0002 c →
        exec (.identify ring) s = .next (okWith c (rget s .topPartId + rget s .topStepping * 2 ^ 32) s.rst.version s))
    ∧ (Begins s ring 0x0010 c → s.sealing.sealed = false → c.reserved [(45, 46), (48, 64)] = true →
        ∀ (sq cq k cls sl cl vec : Nat), c.param 24 8 = sq → c.param 32 8 = cq → c.param 40 1 = k → c.param 41 1 = cls →
        c.param 42 1 = sl → c.param 43 1 = cl → c.param 44 1 = 0 → c.param 46 2 = vec →
        1 ≤ k → k ≤ 63 → 1 ≤ cls → cls ≤ 3 → 6 ≤ sl → sl ≤ 16 → 6 ≤ cl → cl ≤ 16 → sq % 4096 = 0 → cq % 4096 = 0 → vec < 256 →
        (ringOf s (c.ring / 64 * 64 + k)).state = .disabled →
        exec (.ringCreate ring) s = .next (okWith c (c.ring / 64 * 64 + k) ((c.ring / 64 * 64 + k) * 0x1000)
          (setRing s (c.ring / 64 * 64 + k)
            { state := .active, cls := cls, hub := false, sqBase := sq, cqBase := cq, sqLog2 := sl, cqLog2 := cl, vector := vec })))
    ∧ (∀ (destroy : Bool) (k : Nat), Begins s ring (if destroy then 0x0011 else 0x0012) c → c.param 32 1 = k →
        c.reserved [(24, 32), (33, 64)] = true → 1 ≤ k → k ≤ 63 →
        ((ringOf s (c.ring / 64 * 64 + k)).state = .active ∨ (ringOf s (c.ring / 64 * 64 + k)).state = .halted) →
        (ringOf s (c.ring / 64 * 64 + k)).inflight = [] →
        ∃ u, exec (if destroy then .ringDestroy ring else .ringReset ring) s
            = .next (okWith c (ringOf s (c.ring / 64 * 64 + k)).sqHead 0 u)
          ∧ ringOf u (c.ring / 64 * 64 + k) = (if destroy then {} else freshRing (ringOf s (c.ring / 64 * 64 + k)))
          ∧ u.mem = s.mem ∧ u.sct = s.sct ∧ u.out = s.out)

def Obligations.Doorbells : Prop :=
  ∀ (s : State) (fn : Fn) (i v : Nat), Awake s → i < 512 → (fn = .pf ∨ fn = .vf (i / 64)) → v < 65536 →
    (ringOf s i).state = .active → (sectorOf s (i / 64)).state ≠ .undefined →
    (v < (ringOf s i).sqSize →
      ∃ t, exec (.sqTail (.page fn) i v) s = .next t ∧ (ringOf t i).sqTail = v
        ∧ (let n := (v + (ringOf s i).sqSize - (ringOf s i).sqTail) % (ringOf s i).sqSize
           (ringOf t i).cover = if n = 0 then (ringOf s i).cover else (ringOf s i).cover ++ [(n, fn)])
        ∧ (∀ j, j ≠ i → ringOf t j = ringOf s j) ∧ t.mem = s.mem ∧ t.regs = s.regs ∧ t.out = s.out)
    ∧ (v < (ringOf s i).cqSize → exec (.cqHead (.page fn) i v) s = .next (setRing s i { ringOf s i with cqHead := v }))
    ∧ (∀ src : Doorbell, doorbellReaches i src = true →
        ((ringOf s i).sqSize ≤ v → ∃ t, exec (.sqTail src i v) s = .next t
          ∧ ringOf t i = { ringOf s i with state := .halted, haltCause := 2 }
          ∧ (∀ j, j ≠ i → ringOf t j = ringOf s j) ∧ t.mem = s.mem ∧ t.regs = s.regs ∧ t.out = s.out)
        ∧ ((ringOf s i).cqSize ≤ v →
          exec (.cqHead src i v) s = .next (setRing s i { ringOf s i with state := .halted, haltCause := 2 })))

def Obligations.FetchAndPost : Prop :=
  (∀ (s : State) (i : Nat) (rs : Rings) (raw : List Byte), pickRing s = some (i, rs) → (ringOf { s with rings := rs } i).hub = false →
    s.sealing.sealed = false →
    let r := ringOf { s with rings := rs } i
    let n := fieldLE raw 3 1
    let c : Cmd := { serial := rs.nextSerial, ring := i, bytes := padTo (64 * n) raw, fn := coverFn r.cover }
    1 ≤ n → n ≤ 8 → n ≤ r.posted →
    ∃ t d, exec (.commandFetch (.data raw)) s = .next t
      ∧ ringOf t i = { r with sqHead := (r.sqHead + n) % r.sqSize, cover := takeCover r.cover n, inflight := r.inflight ++ [d] }
      ∧ d.serial = c.serial ∧ d.bytes = c.bytes ∧ d.fn = c.fn
      ∧ d.phase = (match headerCheck i r.cls c { s with rings := rs } with | none => .waiting | some (st, off) => .done st off 0)
      ∧ t.mem = s.mem ∧ t.regs = s.regs ∧ t.out = s.out)
  ∧ (∀ (s : State) (i lat : Nat) (c : Cmd) (rest : List Cmd) (st r0 r1 : Nat),
      (ringOf s i).inflight = c :: rest → c.phase = .done st r0 r1 → (ringOf s i).haltCause ≠ 5 → (ringOf s i).cqFree = true →
      (ringOf s i).hub = false → (ringOf s i).cls ≠ 0 → (ringOf s i).resetting = none → s.pci.linkUp = true → s.sealing.sealed = false →
      c.notify = false →
      ∃ t, exec (.completionPost i false lat) s = .next t
        ∧ t.out = s.out ++ [.hostWrite (.vf (i / 64)) ((ringOf s i).cqBase + 32 * (ringOf s i).cqTail)
            (completionBytes c.tag st r0 r1 s.cad.stroke (ringOf s i).phase c.mark)]
        ∧ (ringOf t i).inflight = rest
        ∧ (ringOf t i).cqTail = (if (ringOf s i).cqTail + 1 = (ringOf s i).cqSize then 0 else (ringOf s i).cqTail + 1)
        ∧ (ringOf t i).phase = (if (ringOf s i).cqTail + 1 = (ringOf s i).cqSize then !(ringOf s i).phase else (ringOf s i).phase)
        ∧ (∀ j, j ≠ i → ringOf t j = ringOf s j) ∧ t.mem = s.mem)
  ∧ (∀ (s : State) (i : Nat), (ringOf s i).state = .active → (ringOf s i).hub = false →
      ∃ t, exec (.pcieCompletionTimeout (some i)) s = .next t
        ∧ (ringOf t i).state = .halted ∧ (ringOf t i).haltCause = 3 ∧ t.mem = s.mem ∧ (∀ j, j ≠ i → ringOf t j = ringOf s j))

def Obligations.DeferredCommands : Prop :=
  ∀ (s : State) (i : Nat) (c : Cmd) (behind : Bool), firstWaiting (ringOf s i).inflight false = some (c, behind) →
    (c.due = none → c.notBefore ≤ s.cad.stroke →
      exec (.notBeforeDue i) s
        = .next (mapInflight (fun d => if d.serial = c.serial then { d with due := some s.cad.stroke } else d) s))
    ∧ (∀ d, c.due = some d → c.lockstep = true → s.cad.state = .adrift → d + 1000 ≤ s.cad.stroke →
        exec (.lockstepWaitExpiry i) s = .next (finish c.serial 0x0404 0 0 s))

def Obligations.CadenceCommands : Prop :=
  ∀ (s : State) (ring : Nat) (c : Cmd),
    (Begins s ring 0x0203 c → s.cad.configured = false → s.cad.sourced = false → s.cad.state = .adrift →
      100 ≤ c.param 32 4 → c.param 32 4 ≤ 1000000 → c.param 36 1 ≤ 1 → c.param 37 1 ≤ 7 → c.param 38 1 ≤ 127 → c.param 39 1 = 1 →
      1000 ≤ c.param 40 4 → c.param 40 4 ≤ 1000000 → 100 ≤ c.param 44 4 → c.param 44 4 ≤ c.param 40 4 → 1 ≤ c.param 48 4 →
      c.param 48 4 ≤ 10000 → c.param 52 4 ≤ 1000000 → c.param 56 4 ≤ 10000 → c.reserved [(60, 64)] = true →
      ∃ k : Cad, exec (.cadenceConfig ring) s = .next (okWith c 0 0 { s with cad := k })
        ∧ k.configured = true ∧ k.sourced = true ∧ k.state = .adrift ∧ k.origin = c.param 24 8 ∧ k.periodUs = c.param 32 4
        ∧ k.pps = decide (c.param 36 1 = 1) ∧ k.ptpPort = c.param 37 1 ∧ k.ptpDomain = c.param 38 1
        ∧ k.toleranceNs = c.param 40 4 ∧ k.lockNs = c.param 44 4 ∧ k.holdoverPpb = c.param 48 4 ∧ k.slewNs = c.param 52 4
        ∧ k.asymNs = c.param 56 4 ∧ k.timeNs = s.cad.timeNs ∧ (∀ j, j ≠ 0 → Table.find k.marks j = Table.find s.cad.marks j)
        ∧ k.preOrigin = decide (s.cad.timeNs < c.param 24 8)
        ∧ k.stroke = (if s.cad.timeNs < c.param 24 8 then 0 else (s.cad.timeNs - c.param 24 8) / (c.param 32 4 * 1000)))
    ∧ (Begins s ring 0x0201 c → s.cad.configured = true → c.reserved [(46, 64)] = true → c.param 44 1 ≤ 63 →
        ∀ (stored : List Byte) (len k : Nat), c.bytes.drop 64 = stored → fieldLE stored 0 2 ∉ [0x0201, 0x0202, 0x0203] →
        fieldLE stored 3 1 = len → 1 ≤ len → len + 1 ≤ c.units → fieldLE stored 8 1 = c.sector → fieldLE stored 16 8 = 0 →
        Table.countIf s.cad.marks (fun k m => 16 ≤ k && m.sector = c.ring / 64) < rfield s .cadMarkQuota (c.ring / 64) 0 8 →
        ((c.param 45 1 = k ∧ 16 ≤ k ∧ k < 255 ∧ Table.find s.cad.marks k = none)
          ∨ (c.param 45 1 = 255 ∧ Table.firstFree s.cad.marks 16 240 = some k)) →
        s.cad.stroke < c.param 24 8 →
        let m : Mark := { sector := c.ring / 64, ring := c.ring / 64 * 64 + c.param 44 1, target := c.param 24 8, window := c.param 32 4,
                          period := c.param 36 4, limited := c.param 36 4 ≠ 0 && c.param 40 4 ≠ 0, left := c.param 40 4,
                          lockstep := (fieldLE stored 2 1).testBit 2, work := .stored (padTo (64 * len) stored) c.fn }
        exec (.markSet ring) s = .next (okWith c k (c.param 24 8)
          { s with cad := { s.cad with marks := Table.put s.cad.marks k m } }))
    ∧ (Begins s ring 0x0202 c → s.cad.configured = true → c.reserved [(36, 64)] = true →
        ∀ (k : Nat) (m : Mark), c.param 24 8 = k → 16 ≤ k → k ≤ 255 → Table.find s.cad.marks k = some m → m.sector = c.ring / 64 →
        m.tag = c.param 32 4 →
        exec (.markCancel ring) s = .next (okWith c 0 0
          { s with cad := { s.cad with marks := Table.drop s.cad.marks k, taken := s.cad.taken.filter (·.slot ≠ k) } }))

def Obligations.CadencePtp : Prop :=
  ∀ (s : State) (port master seq : Nat), s.cad.sourced = true → s.cad.pps = false → s.cad.ptpPort = port →
    (∀ (m : PtpMaster), exec (.announce port s.cad.ptpDomain m) s
        = .next { s with cad := { s.cad with masters := Table.put s.cad.masters m.identity m } })
    ∧ (∀ rx, exec (.sync port master seq rx false) s = .next (bump s .ethPtpIgnored port))
    ∧ (∀ rx, isMaster s master = true →
        exec (.sync port master seq rx true) s = .next { s with cad := { s.cad with sync := some (master, seq, rx) } })
    ∧ (∀ (rx now : Nat) (offset : Int), isMaster s master = true → s.cad.sync = some (master, seq, rx) →
        ∃ t, exec (.followUp port master seq now offset) s = .next t
          ∧ t.cad.est = offset.natAbs + s.cad.asymNs ∧ t.cad.refPresent = true ∧ t.cad.sync = none
          ∧ t.cad.timeNs = (if s.cad.slewNs < offset.natAbs then ((now : Int) - offset).toNat else now)
          ∧ t.cad.stroke = s.cad.stroke ∧ t.cad.marks = s.cad.marks
          ∧ t.mem = s.mem ∧ t.sct = s.sct ∧ t.rings = s.rings ∧ t.out = s.out)
    ∧ (∀ now, (bestMaster s).isSome = true →
        exec (.delayReq now) s = .next (emit (.delayReq port s.cad.delaySeq) { s with
          cad := { s.cad with delayReq := some (s.cad.delaySeq, now), delaySeq := (s.cad.delaySeq + 1) % 65536 } }))
    ∧ (∀ (t0 : Nat) (d : Int), s.cad.delayReq = some (seq, t0) → isMaster s master = true →
        exec (.delayResp port master seq d) s = .next { s with cad := { s.cad with pathDelay := d, delayReq := none } })

def Obligations.CadenceDrift : Prop :=
  ∀ (s : State) (now : Nat) (offset : Int),
    (s.cad.sourced = true → s.cad.pps = true → s.cad.ref10 = true →
      ∃ t, exec (.ppsPulse now offset false) s = .next t ∧ t.cad.est = offset.natAbs + s.cad.asymNs ∧ t.cad.refPresent = true
        ∧ rget t .cadPpsSeconds = (rget s .cadPpsSeconds + 1) % 2 ^ 64
        ∧ (s.cad.state = .adrift → t.cad.state ≠ .holdover) ∧ t.mem = s.mem ∧ t.sct = s.sct ∧ t.rings = s.rings)
    ∧ (∃ t, exec (.ppsPulse now offset true) s = .next t ∧ t.cad = s.cad
        ∧ rget t .clkLost 5 % 2 ^ 32 = min (rget s .clkLost 5 % 2 ^ 32 + 1) (2 ^ 32 - 1)
        ∧ (rget t .clkOverrun).testBit 5 = true ∧ t.mem = s.mem ∧ t.sct = s.sct ∧ t.rings = s.rings)
    ∧ (s.cad.refPresent = true →
        ∃ t, exec (.referenceLost now false) s = .next t ∧ t.cad.refPresent = false ∧ t.cad.est = s.cad.est ∧ t.cad.estTime = now
          ∧ t.cad.goodUpdates = 0
          ∧ (s.cad.state = .locked → s.cad.est ≤ s.cad.toleranceNs → s.cad.timeNs ≤ now → t.cad.state = .holdover)
          ∧ t.mem = s.mem ∧ t.sct = s.sct ∧ t.rings = s.rings)
    ∧ (s.cad.state = .holdover → s.cad.refPresent = false → s.cad.timeNs ≤ now →
        ∃ t, exec (.estimateExceedsTolerance now) s = .next t
          ∧ t.cad.state = (if s.cad.toleranceNs * 1000000000 < s.cad.est * 1000000000 + s.cad.holdoverPpb * (now - s.cad.estTime) then .adrift
              else .holdover)
          ∧ t.cad.est = s.cad.est ∧ t.cad.timeNs = now ∧ t.mem = s.mem ∧ t.sct = s.sct ∧ t.rings = s.rings)
    ∧ exec .ref10mReturn s = .next { s with cad := { s.cad with ref10 := true } }
    ∧ (s.cad.configured = true → s.cad.origin ≤ now →
        exec (.originReached now) s = .next { s with cad := { s.cad with preOrigin := false, timeNs := max now s.cad.timeNs } })
def Obligations.WakeQueues : Prop :=
  (∀ (s : State) (ring : Nat) (c : Cmd) (q : Nat), c.param 24 1 = q → q < 64 → wakePermitted c q s = true →
    (Begins s ring 0x0D01 c → c.param 25 1 ≤ 2 → c.param 26 1 < 4 → c.reserved [(32, 64)] = true →
      (c.param 25 1 = 1 → 1 ≤ c.param 28 4 ∧ c.param 28 4 ≤ 65536) → (c.param 25 1 = 2 → c.viaPf = true) →
      (q = 63 → c.param 25 1 = 2) → ((c.param 26 1).testBit 1 = true ∨ (wakeOf s q).kind ≠ c.param 25 1) →
      ∃ t, exec (.wakeConfig ring) s = .next (okWith c 0 0 t)
        ∧ wakeOf t q = { kind := c.param 25 1, emptyMode := (c.param 26 1).testBit 0,
                         perfSelect := if c.param 25 1 = 1 then c.param 27 1 else 0,
                         period := if c.param 25 1 = 1 then c.param 28 4 else 0 }
        ∧ rget t .wakeLost q = 0 ∧ (∀ p, p ≠ q → wakeOf t p = wakeOf s p)
        ∧ t.mem = s.mem ∧ t.sct = s.sct ∧ t.rings = s.rings ∧ t.out = s.out)
    ∧ (Begins s ring 0x0D01 c → (wakeOf s q).kind = c.param 25 1 → c.param 26 1 < 2 → c.param 25 1 ≤ 2 → c.reserved [(32, 64)] = true →
      (c.param 25 1 = 1 → 1 ≤ c.param 28 4 ∧ c.param 28 4 ≤ 65536) → (c.param 25 1 = 2 → c.viaPf = true) →
      (q = 63 → c.param 25 1 = 2) →
      exec (.wakeConfig ring) s = .next (okWith c 0 0 (setWake s q
        { wakeOf s q with emptyMode := (c.param 26 1).testBit 0
                          perfSelect := if c.param 25 1 = 1 then c.param 27 1 else 0
                          period := if c.param 25 1 = 1 then c.param 28 4 else 0 })))
    ∧ (Begins s ring 0x0D10 c → c.param 25 1 = 0 → c.reserved [(26, 28), (40, 64)] = true → 1 ≤ c.param 28 4 → c.param 28 4 ≤ 1024 →
        c.param 32 8 % 32 = 0 → s.sealing.sealed = false → s.pci.linkUp = true →
        ∀ (faults : List LineFault) (refused : Option Nat), ∃ t ws offered,
          exec (.wakeDrain ring faults refused) s
            = .next (finish c.serial (if ws.length < offered.length then stHwFault else stOk) ws.length 0 t)
          ∧ offered = ((wakeOf s q).older.words ++ (wakeOf s q).filling.words).take (c.param 28 4)
          ∧ ws = offered.take (refused.getD 1024)
          ∧ t.out = s.out ++ (List.range ws.length).map (fun i =>
              Emit.hostWrite (.vf (c.ring / 64)) (c.param 32 8 + 32 * i) (wideBytes (ws.getD i ⟨[], false, false, 0⟩)))
          ∧ (wakeOf t q).older.words ++ (wakeOf t q).filling.words
              = ((wakeOf s q).older.words ++ (wakeOf s q).filling.words).drop ws.length
          ∧ (∀ p, p ≠ q → wakeOf t p = wakeOf s p) ∧ t.mem = s.mem ∧ t.sct = s.sct ∧ t.rings = s.rings ∧ t.regs = s.regs)
    ∧ (Begins s ring 0x0D11 c → c.reserved [(25, 64)] = true → (wakeOf s q).lastEop = some false →
        ∀ (pre post : List WideWord) (x : WideWord), (∀ y ∈ pre, y.sop = false ∧ y.eop = false) → x.sop = false → x.eop = true →
        (wakeOf s q).older.words ++ (wakeOf s q).filling.words = pre ++ x :: post →
        ∃ w, exec (.dropPacket ring) s = .next (okWith c (pre.length + 1) 0 (setWake s q w))
          ∧ w.older.words ++ w.filling.words = post ∧ w.partialWords = (wakeOf s q).partialWords ∧ w.nextSeq = (wakeOf s q).nextSeq))
  ∧ (∀ (s : State) (q size : Nat), q < 64 → (size = 4 ∨ size = 8) → s.rst.bootDone = true → s.sealing.sealed = false →
      (∀ (x : WideWord) (rest : List WideWord), (wakeOf s q).older.words ++ (wakeOf s q).filling.words = x :: rest →
        ∃ w, exec (.pop .pf q size) s = .next (reply (leNat ((wideBytes x).take size)) (setWake s q w))
          ∧ w.older.words ++ w.filling.words = rest ∧ w.lastEop = some x.eop ∧ Table.find w.latches 0 = some (wideBytes x))
      ∧ ((wakeOf s q).older.words = [] → (wakeOf s q).filling.words = [] → (wakeOf s q).partialWords = [] →
          (wakeOf s q).emptyMode = false →
          exec (.pop .pf q size) s
            = .next (reply 0 (setWake s q { wakeOf s q with
                latches := Table.put (wakeOf s q).latches 0 (padTo 28 [] ++ leBytes 4 ((wakeOf s q).nextSeq * 2 ^ 16)) }))))
  ∧ (∀ (s : State) (q src : Nat) (counts : List Nat), q < 64 → src < 8 → (wakeOf s q).kind = 1 → (wakeOf s q).perfSelect = 2 ^ src →
      s.sealing.sealed = false → s.sealing.armed = false → (wakeOf s q).period ≠ 0 → s.cad.stroke % (wakeOf s q).period = 0 →
      exec (.perfSample q counts) s = .next (wakePush q (packetOf (BitVec.ofNat 32 (0x10 + 256 + pkgNumber s * 2 ^ 16)
        :: narrowWords (padTo 8 (leBytes 1 src) ++ leBytes 8 (counts.getD src 0) ++ leBytes 8 s.cad.stroke))) s))
def Obligations.BootAndImages : Prop :=
  (∀ (s : State) (ring : Nat) (c : Cmd) (raw bs : List Byte) (src size : Nat), Begins s ring 0x0003 c → c.param 24 8 = src →
    c.param 32 4 = size → src % 4096 = 0 → size % 4096 = 0 → 4096 ≤ size → size ≤ 16 * 2 ^ 20 → c.reserved [(36, 64)] = true →
    s.sealing.sealed = false → bs = padTo size raw →
    ∃ t, exec (.fwActivate ring (.data raw)) s = .next t
      ∧ if imageCheck s.rst.fuses bs = 0 then
          t = okWith c (fieldLE bs 8 8) 0 { s with rst := { s.rst with flash :=
            if s.rst.flash.activeB then { s.rst.flash with slotA := bs, pending := true }
            else { s.rst.flash with slotB := bs, pending := true } } }
        else ∃ u, t = finish c.serial 0x0702 0 0 u ∧ u.rst = s.rst ∧ u.mem = s.mem ∧ u.sct = s.sct ∧ u.rings = s.rings)
  ∧ (∀ (s : State) (env : BootEnv) (f : Flash) (u : Fuses), (s.rst.tripped && s.rst.powered) = false → env.flash.getD s.rst.flash = f →
      env.fuses.getD s.rst.fuses = u → f.readable = true → f.pending = false → u.bad = 0 → env.straps.bootSel = 0 →
      env.straps.sealReq = false → s.sealing.retain = false →
      ∃ t, exec (.coldReset env) s = .next t
        ∧ t.rst.powered = true ∧ t.rst.tripped = false ∧ t.rst.bootDone = false ∧ t.rst.restored = false
        ∧ (if imageCheck u (f.slot f.activeB) = 0 then t.rst.chosen = true ∧ t.rst.halted = false ∧ t.rst.runningB = f.activeB
              ∧ t.rst.version = fieldLE (f.slot f.activeB) 8 8
            else t.rst.chosen = false ∧ t.rst.halted = true ∧ t.rst.bootError = imageCheck u (f.slot f.activeB))
        ∧ t.rst.flash = f ∧ t.rst.fuses = u ∧ t.rst.straps = env.straps ∧ t.top.sensed = true ∧ t.top.serial = u.serial
        ∧ t.err.list = env.list.getD s.err.list ∧ t.mem = {} ∧ t.regs = [] ∧ t.cad = {} ∧ t.sct = {} ∧ t.rings = {}
        ∧ t.sealing.sealed = false ∧ t.sealing.scrub = false ∧ t.pending = s.pending ∧ t.out = s.out)
  ∧ (∀ (s : State) (env : BootEnv) (draw : List Byte) (u : State), s.rst.powered = true → s.rst.tripped = false → s.rst.chosen = true →
      s.rst.halted = false → s.rst.bootDone = false → s.rst.restored = true → env.source = false → s.sealing.scrub = false →
      (∀ i, i < 6 → (Table.find s.rng.instances i).isSome = true) → internalBytes 5 80 s = (some draw, u) →
      (s.sealing.sealed = true → s.sealing.kEnc ≠ []) →
      ∃ t, exec (.bootDone env) s = .next t
        ∧ t.rst.bootDone = true ∧ t.rst.trial = false ∧ t.sealing.heatEc = draw.take 48 ∧ t.sealing.heatMl = draw.drop 48
        ∧ t.rst.flash = (if s.rst.trial then { s.rst.flash with activeB := s.rst.runningB } else s.rst.flash)
        ∧ t.err.heldCopies = [] ∧ t.mem = s.mem ∧ t.sct = s.sct ∧ t.top = s.top)

def Obligations.PackageResets : Prop :=
  (∀ (s : State) (cmd : Instr) (cause : Nat),
    ((cmd = .warmReset .pin ∧ cause = 1) ∨ (cmd = .warmReset (.register .pf 0x15752) ∧ cause = 2) ∨ (cmd = .watchdogExpiry ∧ cause = 3)) →
    s.rst.powered = true → s.rst.tripped = false → s.rst.trial = false → s.pair.state = .none → s.sct.cmd = none → s.mover = [] →
    s.sealing.armed = false → s.sealing.sealed = false → s.sealing.retain = false → s.rst.straps.bootSel = 0 →
    s.rst.flash.readable = true → s.rst.flash.pending = false →
    ∃ t, exec cmd s = .next t
      ∧ t.rst.warmCause = cause ∧ t.rst.lastWarm = true ∧ t.rst.bootDone = false ∧ t.rst.restored = s.rst.restored
      ∧ (if imageCheck s.rst.fuses (s.rst.flash.slot s.rst.flash.activeB) = 0 then t.rst.chosen = true
          else t.rst.halted = true ∧ t.rst.bootError = imageCheck s.rst.fuses (s.rst.flash.slot s.rst.flash.activeB))
      ∧ t.rings.table = [] ∧ t.wake = [] ∧ t.scl = {} ∧ t.rdma = {} ∧ t.lat = [] ∧ t.cad.marks = [] ∧ t.cad.stroke = s.cad.stroke
      ∧ t.cad.configured = s.cad.configured ∧ t.sct = s.sct ∧ t.top = s.top ∧ t.rst.straps = s.rst.straps ∧ t.rst.flash = s.rst.flash
      ∧ (∀ a, ¬(0x080020000000 ≤ a ∧ a < 0x080040000000) → cellAt t.mem.cells a = cellAt s.mem.cells a)
      ∧ (∀ a, 0x080020000000 ≤ a → a < 0x080040000000 → cellAt t.mem.cells a = 0)
      ∧ (∀ l, ¬(0x080020000000 ≤ 64 * l ∧ 64 * l < 0x080040000000) → (l ∈ t.mem.poison ↔ l ∈ s.mem.poison)))
  ∧ (∀ s : State, (s.rst.trial && !s.rst.bootDone) = false → exec .trialTimerExpiry s = .next s)
  ∧ (∀ s : State, s.rst.trial = true → s.rst.bootDone = false → s.sealing.scrub = false → s.rst.powered = true → s.rst.tripped = false →
      s.rst.flash.pending = false →
      ∃ t, exec .trialTimerExpiry s = .next t ∧ t.rst.warmCause = 3 ∧ t.rst.fallback = true ∧ t.rst.trial = false ∧ t.rst.bootDone = false)
  ∧ (∀ s : State, s.rst.powered = true →
      ∃ t, exec .pwrGoodFall s = .next t ∧ t.rst.powered = false ∧ t.rst.tripped = s.rst.tripped ∧ t.rst.flash = s.rst.flash
        ∧ t.rst.fuses = s.rst.fuses ∧ t.sealing = { retain := s.sealing.retain } ∧ t.err.list = s.err.list ∧ t.mem = {} ∧ t.regs = []
        ∧ t.cad = {} ∧ t.sct = {} ∧ t.rings = {} ∧ t.out = s.out)

def Obligations.PartResets : Prop :=
  (∀ s : State, s.rst.powered = true → s.pci.linkUp = true →
    ∃ t, exec (.hostPortReset .linkDown) s = .next t ∧ t.pci.linkUp = false ∧ t.pci.fns = [] ∧ t.pci.vfEnable = false ∧ t.pci.ide = []
      ∧ (∀ i, (ringOf t i).state ≠ .disabled → (ringOf t i).hub = true)
      ∧ (∀ i, (ringOf s i).hub = true → ringOf t i = ringOf s i) ∧ t.mem = s.mem ∧ t.sct = s.sct)
  ∧ (∀ (s : State) (n : Nat), n < 8 → (sectorOf s n).state = .active → s.sct.cmd = none →
      ∃ t, exec (.sectorReset .pf (2 ^ n)) s = .next t ∧ (∀ k, k < 64 → (ringOf t (64 * n + k)).state = .disabled)
        ∧ Table.find t.rings.held n = none)
  ∧ (∀ (s : State) (n : Nat), n < 8 → (sectorOf s n).state = .active → s.sct.cmd = none → s.pci.linkUp = true → s.pci.vfEnable = true →
      n < s.pci.numVfs →
      ∃ t, exec (.functionLevelReset (.vf n)) s = .next t ∧ (∀ k, k < 64 → (ringOf t (64 * n + k)).state = .disabled)
        ∧ Table.find t.pci.fns (n + 1) = some {})
  ∧ (∀ s : State, (s.pci.vfEnable = false → exec .vfEnableClear s = .next s)
      ∧ (s.pci.vfEnable = true →
          exec .vfEnableClear s = .next (resetSectors { s with pci := { s.pci with
            vfEnable := false, numVfs := 0, fns := s.pci.fns.filter (fun e => e.1 = 0) } })))
  ∧ (∀ (s : State) (e : Nat), e < 8 → engineAvail s e = true → powerOf s 2 e = .on →
      ∃ t, exec (.engineReset none 2 e) s = .next t ∧ (latOf t e).running = none ∧ (latOf t e).yielded = none ∧ (latOf t e).queue = []
        ∧ (latOf t e).slots = [] ∧ t.mem = s.mem ∧ t.sct = s.sct
        ∧ (∀ i, ∀ c ∈ (ringOf s i).inflight, ∀ x, c.phase = .running → (latOf s e).running = some x → c.serial = x.serial →
            (latOf s e).suspend = none → { c with phase := .done 0x0504 0 0 } ∈ (ringOf t i).inflight)
        ∧ (∀ i, ∀ c ∈ (ringOf s i).inflight, c.phase = .running → c.serial ∈ (latOf s e).queue.map LatItem.serial →
            (latOf s e).running = none → (latOf s e).yielded = none → (latOf s e).suspend = none →
            { c with phase := .done 0x0602 0 0 } ∈ (ringOf t i).inflight))
  ∧ (∀ (s : State) (kind i : Nat), ((kind = 1 ∧ i < 32) ∨ (kind = 2 ∧ i < 8)) → powerOf s kind i = .off →
      exec (.engineReset none kind i) s = .next (bump s .rstEngineDiscards))
  ∧ (∀ (s : State) (p : Nat), p < 19 → p ≠ 4 → p ≠ 7 → p ≠ 8 → s.rst.pll.testBit p = true →
      ∃ t, exec (.pllLossOfLock p) s = .next t ∧ t.rst.pll.testBit p = false ∧ (∀ q, q ≠ p → t.rst.pll.testBit q = s.rst.pll.testBit q)
        ∧ (p < 2 → ∀ i, i < 16 → t.rst.heldEights.testBit (16 * p + i) = true)
        ∧ (p = 2 ∨ p = 3 → ∀ i, i < 4 → t.rst.heldEngines.testBit (4 * (p - 2) + i) = true) ∧ t.sct = s.sct ∧ t.top = s.top)
  ∧ (∀ (s : State) (p : Nat), p < 19 →
      ∃ t, exec (.pllRelock p) s = .next t ∧ t.rst.pll = s.rst.pll ||| 2 ^ p
        ∧ (p < 2 → ∀ i, i < 16 → t.rst.heldEights.testBit (16 * p + i) = false)
        ∧ (p = 2 ∨ p = 3 → ∀ i, i < 4 → t.rst.heldEngines.testBit (4 * (p - 2) + i) = false) ∧ t.sct = s.sct)
  ∧ (∀ s : State, s.pci.linkUp = true →
      (s.top.sensed = true → exec (.configurationRequest .pf (.read 0)) s
        = .next { s with pci := { s.pci with retryStatus := false, reply := 0x54331E5B } })
      ∧ (s.top.sensed = false → ∀ r, exec (.configurationRequest .pf r) s = .next { s with pci := { s.pci with retryStatus := true } }))
namespace Sys2Proof.Machine

/-- A 32-bit event counter after one more event: it saturates (00 R972). -/
abbrev countedOne (t s : State) (r : Reg) (i : Nat := 0) : Prop := rget t r i % 2 ^ 32 = min (rget s r i % 2 ^ 32 + 1) (2 ^ 32 - 1)

/-- Error records are not lost: the boot is done, or fewer than 256 copies are held (17 R854). -/
abbrev recordsKept (s : State) : Prop := s.rst.bootDone = true ∨ s.err.heldCopies.length < 256

end Sys2Proof.Machine

def Obligations.SelfTests : Prop :=
  (∀ (s : State) (ring : Nat) (c : Cmd) (r : Res), Begins s ring 0x0B01 c → namedRes s (c.param 24 1) (c.param 26 2) (c.param 28 8) = some r →
    c.param 25 1 ≤ 1 → c.reserved [(36, 64)] = true → resRetired s (c.param 24 1) (c.param 26 2) = false →
    resOff s (c.param 24 1) (c.param 26 2) = false → (∀ t ∈ s.err.running ++ s.err.queued, sameRes t.res r = false) →
    s.err.queued.length < 256 →
    exec (.selftestRun ring) s = .next (setPhase c.serial .running { s with err := { s.err with queued := s.err.queued ++
      [{ res := r, sector := resOwner s r, addr := r.addr, acts := (c.param 25 1).testBit 0, joined := [c.serial] }] } }))
  ∧ (∀ (s : State) (dead : Bool) (pre post : List SelfTest) (t : SelfTest), s.err.running.length < 8 → s.err.queued = pre ++ t :: post →
      (∀ u ∈ pre, mayStart s u = false) → mayStart s t = true → (∀ u ∈ pre ++ post, u.res ≠ t.res) →
      t.res.kind ≠ 5 → t.res.kind ≠ 6 → t.res.kind ≠ 11 →
      exec (.targetedSelfTestStart dead) s = .next { s with err := { s.err with
        queued := pre ++ post, running := s.err.running ++ [{ t with forced := t.forced || dead }] } })
  ∧ (∀ (s : State) (pre post : List SelfTest) (t : SelfTest), s.err.running = pre ++ t :: post → (∀ u ∈ pre ++ post, u.res ≠ t.res) →
      (t.res.kind = 2 → t.forced = false → t.ref ≠ 0 → t.counted = 0 →
        (noteTransient t.res s).1 < repeatLimit s →
        ∃ u, exec (.targetedSelfTestEnd t.res false) s = .next (heatRow s u) ∧ u.err.running = pre ++ post
          ∧ countedOne u s .errTests ∧ countedOne u s .errTransient ∧ u.err.retired = s.err.retired ∧ u.mem = s.mem ∧ u.sct = s.sct
          ∧ (∀ i, ∀ c ∈ (ringOf s i).inflight, c.phase = .running → c.serial ∈ t.joined →
              { c with phase := .done 0 0 0 } ∈ (ringOf u i).inflight))
      ∧ (t.res.kind = 1 → t.acts = true → t.injected = false → Table.getD s.err.rowsUsed t.res.index 0 < 32 →
        ∃ u, exec (.targetedSelfTestEnd t.res true) s = .next (heatRow s u) ∧ u.err.running = pre ++ post
          ∧ Table.getD u.err.rowsUsed t.res.index 0 = Table.getD s.err.rowsUsed t.res.index 0 + 1
          ∧ countedOne u s .errTests ∧ countedOne u s .errPersistent
          ∧ u.err.retired = s.err.retired ++ [{ kind := 1, index := t.res.index, action := 1,
                                                addr := (match t.res.lane with | some l => l | none => t.res.addr) }]
          ∧ u.err.toList.length = s.err.toList.length + 1 ∧ u.mem = s.mem ∧ u.sct = s.sct
          ∧ (∀ i, ∀ c ∈ (ringOf s i).inflight, c.phase = .running → c.serial ∈ t.joined →
              { c with phase := .done 0 257 0 } ∈ (ringOf u i).inflight)))
  ∧ (∀ s : State, exec .retirementListWrite s = .next { s with err := { s.err with
      list := (s.err.list ++ s.err.toList).take 1024, toList := []
      listFull := s.err.listFull || decide (1024 ≤ ((s.err.list ++ s.err.toList).take 1024).length) } })

def Obligations.InjectionSlots : Prop :=
  (∀ (s : State) (ring : Nat) (c : Cmd) (p mode count target k kind : Nat), Begins s ring 0x0B02 c → c.param 24 2 = p → c.param 26 1 = mode →
    c.param 27 1 = count → c.param 28 4 = target → pointKind p = some kind → mode ≤ 2 → (mode = 1 → 1 ≤ count) → (mode ≠ 1 → count = 0) →
    targetOk p target = true → (p < 0x0300 → 1 ≤ c.param 40 1 ∧ c.param 40 1 ≤ 8) → (¬ p < 0x0300 → c.param 40 1 = 0 ∧ c.param 32 8 = 0) →
    addressOk s p target (c.param 32 8) = true → c.reserved [(41, 48), (56, 64)] = true → s.sealing.sealed = false → p ≠ 0x0103 →
    p ≠ 0x0105 → resRetired s kind target = false → resOff s kind target = false → Table.firstFree s.err.slots 0 16 = some k →
    let slot : Inject := ⟨p, mode, if mode = 1 then count else 1, target, c.param 32 8, c.param 40 1, c.param 48 8⟩
    exec (.injectArm ring) s = .next (okWith c k 0 { s with err := { s.err with slots := Table.put s.err.slots k slot } }))
  ∧ (∀ (s : State) (ring : Nat) (c : Cmd) (k : Nat), Begins s ring 0x0B10 c → c.param 24 1 = k → k ≤ 15 → c.reserved [(25, 64)] = true →
      (Table.find s.err.slots k).isSome = true →
      exec (.injectDisarm ring) s = .next (okWith c 0 0 { s with err := { s.err with slots := Table.drop s.err.slots k } }))
  ∧ (∀ s : State, ∃ t, exec .injectionExpiry s = .next { s with err := { s.err with slots := t } }
      ∧ ∀ e, e ∈ t ↔ e ∈ s.err.slots ∧ (e.2.expire = 0 ∨ s.cad.stroke ≤ e.2.expire))

def Obligations.BoardMonitors : Prop :=
  (∀ (s : State) (die reading : Nat), s.rst.powered = true → s.rst.tripped = false → recordsKept s → die < 3 →
    (95 ≤ reading → ∃ t, exec (.temperatureWarn die reading) s = .next t ∧ t.pins.thermAlert = true ∧ countedOne t s .errCorrected
      ∧ t.rst = s.rst ∧ t.mem = s.mem ∧ t.sct = s.sct ∧ t.rings = s.rings)
    ∧ (reading < 95 → exec (.temperatureWarn die reading) s = .next s)
    ∧ (105 ≤ reading → ∃ t, exec (.temperatureCritical die reading) s = .next t ∧ t.pins.smbAlert = true ∧ countedOne t s .errUncorrected
      ∧ t.rst = s.rst ∧ t.mem = s.mem ∧ t.sct = s.sct ∧ t.rings = s.rings)
    ∧ (reading < 105 → exec (.temperatureCritical die reading) s = .next s)
    ∧ (115 ≤ reading → ∃ t, exec (.thermalTrip die reading) s = .next t ∧ t.pins.thermTrip = true ∧ t.rst.tripped = true
      ∧ t.rst.bootDone = false ∧ t.rst.flash = s.rst.flash ∧ t.rst.fuses = s.rst.fuses ∧ t.sealing = { retain := s.sealing.retain }
      ∧ t.mem = {} ∧ t.rings = {} ∧ t.regs = [])
    ∧ (reading < 115 → exec (.thermalTrip die reading) s = .next s))
  ∧ (∀ (s : State) (r : Nat), s.rst.powered = true → s.rst.tripped = false → recordsKept s → r < 12 →
      ∃ t, exec (.vrFault r) s = .next t ∧ t.pins.smbAlert = true ∧ countedOne t s .errFatal
        ∧ t.rst = s.rst ∧ t.mem = s.mem ∧ t.sct = s.sct ∧ t.rings = s.rings)
  ∧ (∀ s : State, exec .temperatureWarnClear s = .next { s with pins := { s.pins with thermAlert := false } })
  ∧ (∀ s : State, ∃ t, exec .standbyPowerLoss s = .next t ∧ t.sealing.retain = false ∧ t.rst.powered = false ∧ t.rst.tripped = false
      ∧ t.pins.thermTrip = false ∧ t.rst.flash = s.rst.flash ∧ t.rst.fuses = s.rst.fuses ∧ t.err.list = s.err.list)
  ∧ (∀ s : State, exec .standbyPowerUp s = .next { s with pins := { s.pins with trayReady := false } })
  ∧ (∀ (s : State) (core : Nat) (cmds : List Nat), core < 6 → recordsKept s →
      ∃ t, exec (.mgtCoreStop core cmds) s = .next t ∧ countedOne t s .errFatal ∧ t.mem = s.mem ∧ t.sct = s.sct ∧ t.rst = s.rst
        ∧ (core = 0 → t.rings = s.rings)
        ∧ (core ≠ 0 → ∀ i, ∀ c ∈ (ringOf s i).inflight, c.phase = .running → c.serial ∈ cmds → cmdOf s c.serial = some c →
            { c with phase := .done 0x0504 0 0 } ∈ (ringOf t i).inflight))

def Obligations.PowerSets : Prop :=
  ∀ (s : State) (ring : Nat) (c : Cmd) (kind set : Nat), Begins s ring 0x0110 c → c.param 24 1 = kind → c.param 32 8 = set →
    (kind = 1 ∨ kind = 2) → c.param 25 1 ≤ 2 → c.param 26 1 ≤ 1 → c.reserved [(27, 32), (40, 64)] = true → set ≠ 0 →
    set < (if kind = 1 then 2 ^ 32 else 2 ^ 8) → (c.param 26 1 = 1 → c.viaPf = true) →
    (∀ i ∈ bitList 64 set, Table.find (if kind = 1 then s.sct.eights else s.sct.engines) i
        = (if c.param 26 1 = 0 then some (c.ring / 64) else none)
      ∧ powerAvail s kind i = true ∧ powerBusy s kind i (powerOfCode (c.param 25 1)) = false ∧ hasMove s kind i = false) →
    let goal := powerOfCode (c.param 25 1)
    let moving := (bitList 64 set).filter (fun i => powerOf s kind i ≠ goal)
    (moving = [] → exec (.powerSet ring) s = .next (okWith c 0 0 s))
    ∧ (moving ≠ [] →
        exec (.powerSet ring) s = .next (setPhase c.serial .running
          { s with
            sct := { s.sct with cmd := some { serial := c.serial, op := .power, waits := moving.map (fun i => (kind, i)),
                                              changed := moving.length } }
            rst := { s.rst with transitions := s.rst.transitions ++ moving.map (fun i =>
              { kind := kind, index := i, goal := goal, begun := goal = .on || !testedNow s kind i }) } }))
def Obligations.SectorCommands : Prop :=
  (∀ (s : State) (ring code : Nat) (c : Cmd) (op : SectorOp) (row : Instr),
    ((op = .define ∧ row = .sectorDefine ring ∧ code = 0x0101) ∨ (op = .shift ∧ row = .sectorShift ring ∧ code = 0x0102)
      ∨ (op = .stop ∧ row = .sectorStop ring ∧ code = 0x0103)) →
    Begins s ring code c →
    (∀ st i, sectorCheck op c s = some (st, i) →
      exec row s = .next (finish c.serial st i 0 { s with sct := { s.sct with lastStatus := st, count := (s.sct.count + 1) % 2 ^ 32 } }))
    ∧ (sectorCheck op c s = none → (c.param 33 1).testBit 0 = true →
      exec row s = .next (okWith c 0 0 { s with sct := { s.sct with lastStatus := 0, count := (s.sct.count + 1) % 2 ^ 32 } }))
    ∧ (sectorCheck op c s = none → (c.param 33 1).testBit 0 = false → (op = .define ∨ c.param 24 8 ≠ 0) → s.mover = [] →
      let moves := (List.range (c.param 32 1)).map (moveAt c)
      ∃ t x, exec row s = .next (setPhase c.serial .running t)
        ∧ (∀ n ∈ touchedBy op (c.param 34 1) moves, (sectorOf t n).state = (if op = .stop then .stopping else .shifting))
        ∧ (∀ n, n ∉ touchedBy op (c.param 34 1) moves → sectorOf t n = sectorOf s n)
        ∧ t.sct.cmd = some x ∧ x.serial = c.serial ∧ x.op = op ∧ x.moves = moves ∧ x.step = (if op = .define then 3 else 2)
        ∧ t.sct.eights = s.sct.eights ∧ t.sct.engines = s.sct.engines ∧ t.sct.hbm = s.sct.hbm ∧ t.sct.lake = s.sct.lake
        ∧ t.sct.wake = s.sct.wake ∧ t.mem = s.mem ∧ t.out = s.out))
  ∧ (∀ (s : State) (x : SectorCmd), s.sct.cmd = some x → x.op ≠ .power → x.step < 3 → x.launches = [] → departingEngines s = [] →
      exec .drainTimeout s = .next { s with sct := { s.sct with cmd := some { x with step := 3 } } })
  ∧ (∀ s : State, (∀ x, s.sct.cmd = some x → x.op = .power ∨ 3 ≤ x.step) → exec .drainTimeout s = .next s)

def Obligations.SectorOwnership : Prop :=
  (∀ (s : State) (x : SectorCmd) (a b v k : Nat), s.sct.cmd = some x → x.op = .shift → x.step < 6 → x.waits = [] → a ≤ 7 → b ≤ 7 → a ≠ b →
    x.touched = [a, b] → x.moves = [{ kind := 3, src := a, dst := b, value := v, set := k }] → 1 ≤ k → v + k ≤ 512 →
    drained s x = true → s.lat = [] → s.rst.sectorResets = [] →
    ∃ t, exec .shiftClearEnd s = .next t ∧ t.sct.cmd = none ∧ (sectorOf t a).state = .active ∧ (sectorOf t b).state = .active
      ∧ (∀ g, Table.find t.sct.hbm g = if v ≤ g ∧ g < v + k then some b else Table.find s.sct.hbm g)
      ∧ (∀ y, cellAt t.mem.cells y = if v * 2 ^ 30 ≤ y ∧ y < (v + k) * 2 ^ 30 then 0 else cellAt s.mem.cells y)
      ∧ t.sct.eights = s.sct.eights ∧ t.sct.engines = s.sct.engines ∧ t.sct.lake = s.sct.lake ∧ t.sct.wake = s.sct.wake
      ∧ (∀ i, ∀ c ∈ (ringOf s i).inflight, c.phase = .running → c.serial = x.serial →
          { c with phase := .done 0 (x.killed + x.finished * 2 ^ 32) (x.hbm + k + x.lake * 2 ^ 32) } ∈ (ringOf t i).inflight))
  ∧ (∀ (s : State) (kind i : Nat) (pre post : List Transition) (m : Transition) (row : Instr),
      ((kind = 1 ∧ i < 32) ∨ (kind = 2 ∧ i < 8)) → s.rst.transitions = pre ++ m :: post → m.kind = kind → m.index = i → m.begun = true →
      m.later = [] → (∀ u ∈ pre ++ post, ¬(u.kind = kind ∧ u.index = i)) → powerAvail s kind i = true →
      row = (if m.up s then .powerUpComplete kind i else .powerDrainEnd kind i) →
      (∀ x, s.sct.cmd = some x → x.op = .power) →
      ∃ t, exec row s = .next t ∧ powerOf t kind i = m.goal ∧ t.rst.transitions = pre ++ post ∧ countedOne t s .pwrTransitions
        ∧ (∀ j, j ≠ i → powerOf t kind j = powerOf s kind j)
        ∧ (kind = 1 → ∀ y, cellAt t.mem.cells y
            = if m.goal = .off ∧ 0x080040000000 + i * 0x200000 ≤ y ∧ y < 0x080040000000 + (i + 1) * 0x200000 then 0
              else cellAt s.mem.cells y)
        ∧ (∀ x, s.sct.cmd = some x → x.waits = [(kind, i)] → t.sct.cmd = none
            ∧ ∀ j, ∀ c ∈ (ringOf s j).inflight, c.phase = .running → c.serial = x.serial → (latOf s i).queue = [] →
                { c with phase := .done 0 x.changed 0 } ∈ (ringOf t j).inflight))
def Obligations.EthernetPorts : Prop :=
  ∀ (s : State) (e sub : Nat), e < 8 → sub < 4 →
    ((rget s .ethPortCfg e).testBit 0 = true → sub < subPorts s e → (ethOf s e).up.testBit sub = false →
      ∃ t, exec (.subportLinkUp e sub) s = .next t ∧ ethOf t e = { ethOf s e with up := (ethOf s e).up ||| 2 ^ sub }
        ∧ (∀ d, d ≠ e → ethOf t d = ethOf s d) ∧ t.mem = s.mem ∧ t.sct = s.sct ∧ t.rings = s.rings ∧ t.regs = s.regs)
    ∧ ((ethOf s e).up.testBit sub = true →
        (recordsKept s → ∃ t, exec (.subportLinkDown e sub) s = .next t ∧ (ethOf t e).up.testBit sub = false
          ∧ (∀ k, k < 4 → k ≠ sub → (ethOf t e).up.testBit k = (ethOf s e).up.testBit k)
          ∧ (∀ k, k < 8 → (ethOf t e).paused.testBit (8 * sub + k) = false ∧ 8 * sub + k ∉ (ethOf t e).xoff
              ∧ Table.find (ethOf t e).fill (8 * sub + k) = none)
          ∧ countedOne t s .ethLinkDowns e ∧ countedOne t s .errFatal ∧ t.mem = s.mem ∧ t.sct = s.sct ∧ t.rings = s.rings)
        ∧ (∀ classes times, ∃ t, exec (.pfcFrame e sub classes times) s = .next t
            ∧ (∀ k, k < 8 → (ethOf t e).paused.testBit (8 * sub + k)
                = if classes.testBit k then decide (bitsOf times (16 * k) 16 ≠ 0) else (ethOf s e).paused.testBit (8 * sub + k))
            ∧ (∀ k, k < 32 → k / 8 ≠ sub → (ethOf t e).paused.testBit k = (ethOf s e).paused.testBit k)
            ∧ (ethOf t e).up = (ethOf s e).up ∧ countedOne t s .ethPfcReceived e ∧ t.mem = s.mem ∧ t.sct = s.sct ∧ t.rings = s.rings)
        ∧ (∀ cls bytes, cls < 8 →
            let others := (((ethOf s e).fill.filter (fun x => x.1 / 8 = sub && x.1 ≠ 8 * sub + cls)).map Prod.snd).sum
            let room := 2048 * 1024 / subPorts s e
            exec (.otherFrame e sub false cls bytes) s = .next (bump s .ethRxDrops e)
            ∧ (losslessClass s e cls = true → room < others + bytes →
                exec (.otherFrame e sub true cls bytes) s = .next (bump s .ethLosslessDrops e))
            ∧ (losslessClass s e cls = false → limitBytes s e < bytes → exec (.otherFrame e sub true cls bytes) s = .next s)
            ∧ (losslessClass s e cls = false → bytes ≤ limitBytes s e → others + bytes ≤ room →
                exec (.otherFrame e sub true cls bytes) s = .next (bump (setEth e
                  { ethOf s e with fill := Table.put (ethOf s e).fill (8 * sub + cls) bytes } s) .ethRxOther e)))
        ∧ (∀ cls, cls < 8 → (ethOf s e).xoff.contains (8 * sub + cls) = true →
            exec (.pfcRefresh e sub cls) s = .next (bump (emit (.pfc e sub cls 0xFFFF) s) .ethPfcSent e)
            ∧ ∃ t, exec (.pfcXon e sub cls) s = .next t ∧ t.out = s.out ++ [.pfc e sub cls 0] ∧ 8 * sub + cls ∉ (ethOf t e).xoff
                ∧ (∀ k, k ≠ 8 * sub + cls → (k ∈ (ethOf t e).xoff ↔ k ∈ (ethOf s e).xoff)) ∧ countedOne t s .ethPfcSent e
                ∧ t.mem = s.mem ∧ t.sct = s.sct))

def Obligations.HostAndExpanders : Prop :=
  (∀ (s : State) (f : Fn) (v : Nat), v < msixSize f → (fnOf s f).msixEnable = true → (fnOf s f).msixMask = false →
    (∀ u ∈ (fnOf s f).pendingBits, (Table.getD (fnOf s f).msix u {}).masked = true) →
    ∃ t, exec (.msixUnmask f (some v)) s = .next t
      ∧ t.out = s.out ++ ((fnOf s f).pendingBits.filter (· = v)).map (fun _ => Emit.msix f v)
      ∧ (fnOf t f).pendingBits = (fnOf s f).pendingBits.filter (· ≠ v)
      ∧ (Table.getD (fnOf t f).msix v {}).masked = false ∧ t.mem = s.mem ∧ t.sct = s.sct ∧ t.rings = s.rings ∧ t.regs = s.regs)
  ∧ (∀ s : State, exec .perstDeassert s = .next { s with pci := { s.pci with perst := false } })
  ∧ (∀ (s : State) (speed width : Nat) (flit : Bool), s.rst.powered = true → s.pci.perst = false → s.pci.linkUp = false → 1 ≤ speed →
      speed ≤ 6 → 1 ≤ width → width ≤ 16 →
      exec (.hostLinkUp speed width flit) s = .next { s with pci := { s.pci with
        linkUp := true, speed := speed, width := width, flit := flit || speed = 6 } })
  ∧ (∀ (s : State) (p event a : Nat), p < 2 → recordsKept s →
      ∃ t, exec (.expanderErrorEvent p event a) s = .next t ∧ (event = 0 → countedOne t s .cxlErrors p ∧ countedOne t s .errCorrected)
        ∧ (event ≠ 0 → countedOne t s .errUncorrected) ∧ t.mem = s.mem ∧ t.sct = s.sct ∧ t.rings = s.rings ∧ t.cxl0 = s.cxl0)
namespace Sys2Proof.Machine

/-- A heat message arrives that the pipeline can judge (06 R332): the first of an ingress queue pair with none held, well formed, for
slot `k` with contents `h` that is neither TAINTED, stopped nor moving; its bitmap byte and record are read. `s1` is the state with the
message taken. -/
abbrev Arrives (s s1 : State) (typ qpn q : Nat) (x : Qp) (msg : List Byte) (k : Nat) (h : HeatSlot) (faults : List LineFault) : Prop :=
  qpFind s qpn = some (q, x) ∧ (∃ rest, x.messages = msg :: rest ∧ s1 = setQp q { x with messages := rest } s)
  ∧ fieldBE msg 3 1 = typ ∧ malformed msg = false ∧ heldClass s x.sector 2 = false ∧ (∀ m ∈ s.heat.held, m.qp ≠ q)
  ∧ (slotsFor s x.sector (headerOf msg).id).find? (fun e => e.2.covers (headerOf msg).index) = some (k, h)
  ∧ Table.find s.heat.slots k = some h ∧ h.phase ≠ 9 ∧ h.stopped = false ∧ h.moving = none
  ∧ (slotRead faults k (h.bitAddr (headerOf msg).index) 1 s1).2 = s1 ∧ (slotRead faults k (h.bitAddr (headerOf msg).index) 1 s1).1.isSome = true
  ∧ (ownBits s h (headerOf msg).index).testBit 0 = decide (typ ≠ 1)
  ∧ (typ ≠ 1 → (slotRead faults k (h.recordAddr (headerOf msg).index) 128 s1).2 = s1
      ∧ (slotRead faults k (h.recordAddr (headerOf msg).index) 128 s1).1.isSome = true)

/-- The key and the plaintext of a message: from E_pk for an ENROL, and else from the entrant's record (06 R304, R308). -/
abbrev messageKey (s1 : State) (typ k : Nat) (h : HeatSlot) (msg : List Byte) (faults : List LineFault) : List Byte :=
  if typ = 1 then h.kEd ((msg.drop 24).take 32)
  else (((slotRead faults k (h.recordAddr (headerOf msg).index) 128 s1).1.getD []).take 32)

end Sys2Proof.Machine

def Obligations.HeatCommands : Prop :=
  ∀ (s : State) (ring : Nat) (c : Cmd),
    (Begins s ring 0x0510 c → c.reserved [(41, 64)] = true → ∀ hf hc lf lc n : Nat, c.param 24 4 = hf → c.param 28 4 = hc →
      c.param 32 4 = lf → c.param 36 4 = lc → c.param 40 1 = n → n < 8 → heatsOpen s n = false → hc ≤ 512 → lc ≤ 128 →
      (hc ≠ 0 → hf + hc ≤ 512 ∧ lf + lc ≤ 128 ∧ (∀ i, i < hc → Table.find s.sct.hbm (hf + i) = some n)
        ∧ (∀ i, i < lc → Table.find s.sct.lake (lf + i) = some n)) →
      ∃ t, exec (.heatPoolSet ring) s = .next (okWith c 0 0 t)
        ∧ t.heat = { s.heat with pools := if hc = 0 then Table.drop s.heat.pools n else Table.put s.heat.pools n ⟨hf, hc, lf, lc⟩ }
        ∧ t.mem.cells = s.mem.cells ∧ t.mem.poison = s.mem.poison ∧ t.sct = s.sct ∧ t.rings = s.rings ∧ t.out = s.out)
    ∧ (Begins s ring 0x0501 c → ∀ (faults : List LineFault) (h g : HeatSlot) (opened w w' : State) (i : Nat) (secret draw : List Byte),
        h = { params := c.bytes, sector := c.ring / 64, self := pkgNumber s, role := if c.param 116 1 = pkgNumber s then 1 else 0 } →
        openFields c h = true → h.first + h.count ≤ h.totalIndices → openDeadlines h s.cad.stroke = true → c.param 33 1 = 0 →
        (∀ e ∈ s.heat.slots, e.2.id ≠ h.id) → c.param 35 1 = 0 → s.rng.raw = false →
        ((c.param 32 1 = i ∧ i < 64 ∧ Table.find s.heat.slots i = none) ∨ (c.param 32 1 = 255 ∧ Table.firstFree s.heat.slots 0 64 = some i)) →
        ((Table.find s.sealing.opkeys h.handle).map (fun k => k.sectors.testBit (c.ring / 64))) = some true →
        carve h (h.role = 1) s = some (g, opened) → internalBytes 0 64 s = (some secret, w) → internalBytes 5 80 w = (some draw, w') →
        s.sealing.sealed = false → s.pci.linkUp = true →
        ∃ t st, exec (.heatOpen ring faults) s = .next (heatRow s (okWith c i 3613 t))
          ∧ (slotOf t i).phase = 1 ∧ (slotOf t i).params = c.bytes ∧ (slotOf t i).role = h.role ∧ (slotOf t i).sector = c.ring / 64
          ∧ (slotOf t i).dSk = secret.take 32 ∧ (slotOf t i).krc = secret.drop 32 ∧ (slotOf t i).records = g.records
          ∧ (slotOf t i).bitmap = g.bitmap ∧ (∀ j, j ≠ i → slotOf t j = slotOf s j) ∧ t.mem = opened.mem
          ∧ t.out = s.out ++ [.hostWrite (.vf (c.ring / 64)) (c.param 160 8) st]
          ∧ st.take 144 = commonPart s h)
    ∧ (∀ (k : Nat) (h : HeatSlot), c.reserved [(33, 40), (52, 64)] = true → heatNamed s (c.ring / 64) (c.param 24 8) = some (k, h) →
        Table.find s.heat.slots k = some h →
        (Begins s ring 0x0502 c → h.leads = true → h.works = true → h.tallied = false → h.phase = c.param 32 1 → 1 ≤ h.phase → h.phase ≤ 6 →
          (h.phase = 4 → h.staged = []) →
          ∃ t, exec (.heatAdvance ring) s = .next (heatRow s (if h.phase = 1 ∨ 4 ≤ h.phase then setPhase c.serial .running t else okWith c 0 0 t))
            ∧ (slotOf t k).phase = h.phase + 1
            ∧ (slotOf t k).advance = (if h.phase = 1 ∨ 4 ≤ h.phase then h.advance ++ [(c.serial, h.phase)] else h.advance))
        ∧ (Begins s ring 0x0503 c → h.phase ≠ 8 →
          ∃ t, exec (.heatAbort ring) s = .next (heatRow s (okWith c 0 0 t)) ∧ (slotOf t k).phase = 10
            ∧ (∀ j, j ≠ k → slotOf t j = slotOf s j))
        ∧ (Begins s ring 0x0504 c → exec (.heatQuery ring) s = .next (okWith c
            (h.phase + k * 2 ^ 4 + h.role * 2 ^ 10 + h.checkpoint % 2 ^ 52 * 2 ^ 12) (h.survivors + h.enrolled * 2 ^ 32) s))
        ∧ (Begins s ring 0x0505 c → h.phase = 8 → h.leads = true → c.param 40 8 % 4096 = 0 → h.result.length ≤ c.param 48 4 →
            s.sealing.sealed = false → s.pci.linkUp = true →
            ∃ t, exec (.heatCollect ring) s = .next (pairRow s (okWith c h.result.length 0 t)) ∧ Table.find t.heat.slots k = none
              ∧ t.out = s.out ++ [.hostWrite (.vf (c.ring / 64)) (c.param 40 8) h.result]
              ∧ (∀ j, j ≠ k → slotOf t j = slotOf s j)))

def Obligations.HeatMessages : Prop :=
  (∀ (s s1 : State) (row : Instr) (typ qpn q k : Nat) (x : Qp) (msg : List Byte) (h : HeatSlot) (faults : List LineFault),
    (typ, row) ∈ [(1, Instr.enrol qpn faults), (2, .rosterGet qpn faults), (3, .share qpn faults), (4, .inboxGet qpn faults),
      (5, .submit qpn faults), (6, .confirm qpn faults), (7, .reveal qpn faults), (8, .tally qpn faults)] →
    Arrives s s1 typ qpn q x msg k h faults →
    let hd := headerOf msg
    let u := hd.index
    let key := messageKey s1 typ k h msg faults
    let ePk := if typ = 1 then (msg.drop 24).take 32 else []
    match Config.gcmOpen key (requestIv hd) (msg.take 24 ++ ePk) (if typ = 1 then msg.drop 56 else msg.drop 24) with
    | none => exec row s = .next (heatRow s (heatReply q false hd 0x0202 none [] [] s1))
    | some plain =>
      (judge s1 h h.phase u typ hd.frag ePk plain = .accept →
        ∃ t msn, (typ = 6 → dataReady (slotOf t k) 6 = true →
            exec row s = .next (heatRow s (heatReply q false hd 0 (replyImm (slotOf t k) 6 0 msn) key (okPlain t (slotOf t k) u 6 hd.frag) t)))
          ∧ (typ ≠ 6 →
            exec row s = .next (heatRow s (heatReply q false hd 0 (replyImm (slotOf t k) typ 0 msn) key (okPlain t (slotOf t k) u typ hd.frag) t)))
          ∧ (typ = 1 → (slotOf t k).enrolled = h.enrolled + 1)
          ∧ (typ = 3 → (slotOf t k).shares = (shareEntries plain).foldl (fun a e => Table.put a (shareKey e.1 u) e.2) h.shares)
          ∧ (typ = 5 ∨ typ = 8 →
              let staged := Table.put (Table.getD h.staged u []) hd.frag plain
              if staged.length = h.pieces then (slotOf t k).nextHsn = h.nextHsn + 1 ∧ Table.find (slotOf t k).staged u = none
                  ∧ (slotOf t k).survivors = h.survivors + 1
              else Table.find (slotOf t k).staged u = some staged ∧ (slotOf t k).nextHsn = h.nextHsn)
          ∧ (typ = 7 → (slotOf t k).reveals = h.reveals ++ (revealEntries plain).map (fun e => ⟨e.1, e.2.1, u, e.2.2⟩))
          ∧ t.sct = s.sct ∧ t.rings = s.rings)
      ∧ (judge s1 h h.phase u typ hd.frag ePk plain = .answer 0 →
          (typ = 2 ∨ typ = 4) → exec row s = .next (heatRow s (heatReply q false hd 0 none key (okPlain s1 h u typ hd.frag) s1))))
  ∧ (∀ (s s1 : State) (qpn q k : Nat) (x : Qp) (m : HeldMessage) (h : HeatSlot) (faults : List LineFault),
      qpFind s qpn = some (q, x) → s.heat.held.find? (fun e => e.qp = q) = some m → m.accepted = none → m.answer = none →
      (fieldBE m.msg 3 1 = 2 ∨ fieldBE m.msg 3 1 = 4) → malformed m.msg = false → heldClass s x.sector 2 = false →
      s1 = { s with heat := { s.heat with held := s.heat.held.eraseP (fun e => e.qp = q) } } →
      (slotsFor s x.sector (headerOf m.msg).id).find? (fun e => e.2.covers (headerOf m.msg).index) = some (k, h) →
      h.phase ≠ 9 → h.phase ≠ 10 → h.stopped = false → h.moving = none → Table.find s.heat.slots k = some h →
      (slotRead faults k (h.bitAddr (headerOf m.msg).index) 1 s1).2 = s1 →
      (slotRead faults k (h.bitAddr (headerOf m.msg).index) 1 s1).1.isSome = true →
      (ownBits s h (headerOf m.msg).index).testBit 0 = true →
      (slotRead faults k (h.recordAddr (headerOf m.msg).index) 128 s1).2 = s1 →
      (slotRead faults k (h.recordAddr (headerOf m.msg).index) 128 s1).1.isSome = true →
      let hd := headerOf m.msg
      let key := ((slotRead faults k (h.recordAddr hd.index) 128 s1).1.getD []).take 32
      match Config.gcmOpen key (requestIv hd) (m.msg.take 24 ++ []) (m.msg.drop 24) with
      | none => exec (.heldReply qpn faults) s = .next (heatRow s (sendWaiting q s1.heat.held.length
          (heatReply q false hd 0x0202 none [] [] s1)))
      | some plain => judge s1 h m.phase hd.index hd.typ hd.frag [] plain = .answer 0 →
          exec (.heldReply qpn faults) s = .next (heatRow s (sendWaiting q s1.heat.held.length
            (heatReply q false hd 0 none key (okPlain s1 h hd.index hd.typ hd.frag) s1))))

def Obligations.HeatUnderway : Prop :=
  ∀ (s : State) (k : Nat) (h : HeatSlot), Table.find s.heat.slots k = some h →
    (∀ (v : HeatVector) (rest : List HeatVector), h.vectors = v :: rest → h.role ≠ 2 → h.stopped = false → h.hMin = none → h.streams = false →
      exec (.vectorCommit k) s = .next (heatRow s (setSlot k { h with vectors := rest, committed := v.hsn } s)))
    ∧ (∀ (e : Nat) (faults : List LineFault), h.jobs ≠ [] → h.works = true → expanderFree s e = true →
        (Table.getD s.rings.held h.sector 0).testBit 2 = false → (∀ x ∈ s.err.slots, x.2.point ≠ 0x0501) →
        (∃ t, exec (.maskExpansionChunkEnd k e false faults) s = .next (heatRow s t)
          ∧ (slotOf t k).chunk = (if h.chunk + 1 < ceilDiv h.bytes 65536 then h.chunk + 1 else 0)
          ∧ (slotOf t k).jobs = (if h.chunk + 1 < ceilDiv h.bytes 65536 then h.jobs else h.jobs.drop 64)
          ∧ (h.chunk + 1 < ceilDiv h.bytes 65536 ∨ ((slotOf t k).maskDone = true ↔ h.jobs.length ≤ 64)) ∧ t.sct = s.sct ∧ t.rings = s.rings)
        ∧ (∃ t, exec (.maskExpansionChunkEnd k e true faults) s = .next (heatRow s t) ∧ t.heat = s.heat ∧ t.mem = s.mem ∧ t.rings = s.rings))
    ∧ (∀ (bs : List Byte) (u : State), h.leads = true → h.works = true → h.phase = 7 → h.noiseDone = false → h.sigma ≠ 0 → h.drawn = [] →
        1 ≤ h.elements → h.elements ≤ 4096 → internalRequest 1 (16 * h.elements) s = (some bs, u) → bs.length = 16 * h.elements →
        exec (.noiseDrawComplete k) s = .next (heatRow s (pokeRegion h.noiseAddr (h.v / 64) 0
          (padTo h.v (noiseElements (readTable u h) (h.width / 8) h.elements bs))
          (setSlot k { h with noiseDone := true, noiseWaiting := false, drawn := [] }
            (changeSlot k (fun x => { x with drawn := bs, noiseWaiting := false }) u)))))
    ∧ (∀ e ∈ h.endings, h.works = true → h.leads = true → e.1 ≠ 3 → e.2.1 + rfield s .heatConfig 0 32 24 ≤ s.cad.stroke →
        ∃ t, exec (.exchangeTimeout k) s = .next (heatRow s t) ∧ (slotOf t k).phase = 10 ∧ (slotOf t k).endings = []
          ∧ (∀ j, j ≠ k → slotOf t j = slotOf s j))
    ∧ (∀ (a : Nat) (faults : List LineFault), regionOfLine h (a / 64) ≠ .none → isMemory s (a / 64 * 64) = true →
        isMemory s (a / 64 * 64 + 63) = true → 1 ≤ h.phase → h.phase ≤ 7 →
        (poisonedAt s a = true →
          ∃ t, exec (.taint k a faults) s = .next (heatRow s t) ∧ (slotOf t k).phase = 9 ∧ (slotOf t k).prior = h.phase
            ∧ a / 64 ∈ (slotOf t k).taintLines ∧ (∀ l ∈ h.taintLines, l ∈ (slotOf t k).taintLines)
            ∧ (∀ j, j ≠ k → slotOf t j = slotOf s j) ∧ t.mem = s.mem ∧ t.sct = s.sct ∧ t.rings = s.rings)
        ∧ (poisonedAt s a = false → faults = [] → s.err.slots = [] → exec (.taint k a faults) s = .next (heatRow s s)))
    ∧ (∀ (l : Nat) (lines : List (Nat × List Byte)) (image : SlotImage), h.phase = 9 → h.stopped = false → h.taintLines = [l] →
        1 ≤ h.prior → h.prior ≤ 7 → h.role ≠ 2 → h.mirror ≠ 2 →
        (regionOfLine h l = .staging → h.streams = true → h.prior ≤ 6 → s.cad.stroke < h.deadline h.prior →
          (∀ ph, (48 + ph, h.self) ∉ h.got) →
          ∃ t, exec (.taintRecovery k lines image) s = .next (heatRow s t) ∧ (slotOf t k).phase = h.prior ∧ (slotOf t k).taintLines = []
            ∧ l ∉ t.mem.poison ∧ (∀ m, m ≠ l → (m ∈ t.mem.poison ↔ m ∈ s.mem.poison))
            ∧ (∀ y, cellAt t.mem.cells y = if y / 64 = l then 0 else cellAt s.mem.cells y) ∧ t.sct = s.sct ∧ t.rings = s.rings)
        ∧ (regionOfLine h l = .acc → h.mirrored = false →
          ∃ t, exec (.taintRecovery k lines image) s = .next (heatRow s t) ∧ (slotOf t k).phase = 10 ∧ (slotOf t k).taintLines = []))

def Obligations.QuiesceAndMarks : Prop :=
  (∀ (s : State) (ring : Nat) (c : Cmd), Begins s ring 0x0013 c → c.param 24 8 % 32 ≠ 0 → c.param 24 8 / 32 % 2 ^ 58 = 0 →
    c.reserved [(32, 64)] = true →
    let n := c.ring / 64
    let old := Table.getD s.rings.held n 0
    ((c.param 24 8).testBit 63 = false →
      ∃ t, exec (.quiesce ring) s = .next (heatRow s (okWith c (heldCount n (c.param 24 8 % 32) s) 0 t))
        ∧ Table.getD t.rings.held n 0 = old ||| c.param 24 8 % 32 ∧ t.sct = s.sct
        ∧ ((c.param 24 8).testBit 3 = false → t.mem = s.mem ∧ t.mover = s.mover))
    ∧ ((c.param 24 8).testBit 63 = true →
      ∃ t, exec (.quiesce ring) s = .next (heatRow s (okWith c 0 0 t)) ∧ Table.getD t.rings.held n 0 = old &&& (31 ^^^ (c.param 24 8 % 32))
        ∧ t.sct = s.sct))
  ∧ (∀ (s : State) (e : Nat) (x : LatEngine) (o : LatOp), s.mover = [] → s.lat = [(e, x)] → x.yielded = some o → x.running = none →
      gateOpen s 2 e = true → s.rst.heldEngines.testBit e = false → (∀ t ∈ s.err.running, t.res.kind ≠ 5) →
      exec .yieldResume s = .next { s with lat := [(e, { x with yielded := none, running := some o, held := false })] })
  ∧ (∀ (s : State) (faults : List LineFault), s.cad.taken = [] → exec (.markRelease faults) s = .next (heatRow s s))
  ∧ (∀ (s : State) (faults : List LineFault) (a : Taken) (rest : List Taken) (m : Mark) (bytes : List Byte) (fn : Fn),
      s.cad.taken = a :: rest → Table.find s.cad.marks a.slot = some m → m.work = .stored bytes fn → (ringOf s m.ring).state = .active →
      m.period = 0 →
      ∃ t c, exec (.markRelease faults) s = .next (heatRow s t) ∧ t.cad.taken = rest ∧ Table.find t.cad.marks a.slot = none
        ∧ (∀ k, k ≠ a.slot → Table.find t.cad.marks k = Table.find s.cad.marks k)
        ∧ (ringOf t m.ring).inflight = (ringOf s m.ring).inflight ++ [c] ∧ c.bytes = bytes ∧ c.fn = fn ∧ c.mark = true
        ∧ (a.expiry = none → c.phase = (match headerCheck m.ring (ringOf s m.ring).cls
              { serial := 0, bytes := bytes, fn := fn, mark := true } s with
            | some (st, off) => .done st off 0
            | none => .waiting))
        ∧ (∀ st, a.expiry = some st → c.phase = .done st a.slot m.target ∧ countedOne t s .cadMarkExpired)
        ∧ (∀ i, i ≠ m.ring → ringOf t i = ringOf s i) ∧ t.mem = s.mem ∧ t.sct = s.sct)
namespace Sys2Proof.Machine

/-- The crew `i.id` issues the word `i.w` of opcode `op`: it may issue, its PC leads to the word, and its scull shows no error. The fetch
leaves `s'` (13 R651, R652, R656; 12 R621). -/
abbrev Issues (s s' : State) (i : Issue) (op : Nat) : Prop :=
  Table.find s.scl.crews i.id = some i.c ∧ Table.find s.scl.groups i.c.group = some i.g ∧ Table.find s.scl.launches i.g.age = some i.l
  ∧ mayIssue s i.c i.g i.l = true ∧ fetchWord i.c i.g i.l s = .word i.w s' ∧ iOp i.w = op ∧ scullFault i.g i.l s' = none

/-- `c` is the issuing crew at its next instruction, with `k` v registers from DST of each active thread replaced by `f t`, and every
other v register, the s and the p registers as before; loads pending to the written registers give way (13 R651, R654). -/
abbrev WroteV (i : Issue) (k : Nat) (f : Nat → Nat) (c : Crew) : Prop :=
  (∀ t ∈ i.active, readVs c (iDst i.w) t k = f t % 2 ^ (32 * k))
  ∧ (∀ n t, t < 64 → (n < iDst i.w ∨ iDst i.w + k ≤ n ∨ t ∉ i.active) → readV c n t = readV i.c n t)
  ∧ c = { i.c with pc := (i.c.pc + 8) % 2 ^ 64, v := c.v, loads := c.loads }
  ∧ c.loads.map Load.fault = i.c.loads.map Load.fault

/-- `c` is the issuing crew at its next instruction with s register `n` replaced. -/
abbrev WroteS (i : Issue) (n : Nat) (x : Nat) (c : Crew) : Prop :=
  (∀ m, readS c m = if m = n then x % 2 ^ 64 else readS i.c m) ∧ c = { i.c with pc := (i.c.pc + 8) % 2 ^ 64, s := c.s }

/-- `c` is the issuing crew at its next instruction with the p register of DST replaced in the active threads. -/
abbrev WroteP (i : Issue) (n : Nat) (f : Nat → Bool) (c : Crew) : Prop :=
  (∀ m t, readP c m t = if m = n ∧ t ∈ i.active then f t else readP i.c m t)
  ∧ c = { i.c with pc := (i.c.pc + 8) % 2 ^ 64, p := c.p }

/-- A word that its encoding rules out kills the context with ILLEGAL; one that waits for an operand changes nothing. -/
abbrev Guarded (s s' : State) (i : Issue) (row : Instr) (ok waits : Bool) : Prop :=
  (ok = false → exec row s = .next (faultCrew i.c i.g i.l 4 0 s')) ∧ (ok = true → waits = true → exec row s = .next s)

/-- A thread instruction: it writes `k` v registers of each active thread. -/
abbrev ThreadRow (s s' : State) (i : Issue) (row : Instr) (sh : Shape) (f : Nat → Nat) : Prop :=
  Guarded s s' i row (i.legal sh) (i.waits sh)
  ∧ (i.legal sh = true → i.waits sh = false → ∃ c, exec row s = .next (i.put c s') ∧ WroteV i sh.dst f c)

/-- A crew instruction that writes an s register when its predicate holds in the cox lane. -/
abbrev ScalarRow (s s' : State) (i : Issue) (row : Instr) (ok : Bool) (x : Nat) : Prop :=
  Guarded s s' i row (reservedOk i.w && ok) false
  ∧ (reservedOk i.w = true → ok = true → i.pred 0 = false → exec row s = .next (i.put i.next s'))
  ∧ (reservedOk i.w = true → ok = true → i.pred 0 = true → ∃ c, exec row s = .next (i.put c s') ∧ WroteS i (iDst i.w) x c)

/-- 32-bit operands A, B and C of a thread (13 R657, R662). -/
abbrev laneA (i : Issue) (t : Nat) : Word32 := readV i.c (iA i.w) t
abbrev laneB (i : Issue) (t : Nat) : Word32 := BitVec.ofNat 32 (i.vb 1 t)
abbrev laneC (i : Issue) (t : Nat) : Word32 := BitVec.ofNat 32 (i.vc 1 t)

/-- An s register as a word. -/
abbrev scalar (i : Issue) (n : Nat) : Word64 := Table.getD i.c.s n 0

/-- The rows of chapter 13 with their opcodes, for one crew. -/
abbrev crewRows (k x : Nat) (fs : List LineFault) : List (Nat × Instr) :=
  [(0x00, .crewNop k), (0x01, .bra k), (0x02, .jmp k), (0x03, .call k), (0x04, .exit k x), (0x05, .bar k), (0x06, .fence k),
   (0x07, .missue k), (0x08, .mwait k), (0x09, .sread k x), (0x0A, .tpush k), (0x0B, .tpushv k), (0x0C, .vote k), (0x0E, .shfl k),
   (0x10, .iadd k), (0x20, .iadd k), (0x11, .isub k), (0x12, .imul k), (0x13, .imulhi k), (0x14, .imad k), (0x15, .and k),
   (0x16, .or k), (0x17, .xor k), (0x18, .shl k), (0x19, .shr k), (0x1A, .min k), (0x1B, .max k), (0x1C, .sel k), (0x1D, .popc k),
   (0x1E, .clz k), (0x1F, .mov k), (0x2F, .mov k), (0x30, .iadd64 k), (0x31, .iaddc k), (0x32, .modmul k), (0x33, .modadd k),
   (0x34, .modsub k), (0x35, .imadw k), (0x40, .fadd k), (0x41, .fsub k), (0x42, .fmul k), (0x43, .ffma k), (0x44, .fmin k),
   (0x45, .fmax k), (0x46, .ffunc k), (0x48, .hadd2 k), (0x49, .hmul2 k), (0x4A, .hfma2 k), (0x50, .cvt k), (0x51, .f8pack k),
   (0x52, .f8unpack k), (0x60, .isetp k), (0x61, .fsetp k), (0x62, .plop k), (0x70, .ld k fs), (0x71, .st k fs), (0x72, .atom k fs),
   (0x73, .ladd k fs), (0x80, .lld k), (0x81, .lst k), (0x82, .latom k), (0x90, .sadd k), (0x91, .ssub k), (0x92, .smul k),
   (0x93, .sand k), (0x94, .sor k), (0x95, .sxor k), (0x96, .sshl k), (0x97, .sshr k), (0x98, .smovi k), (0x99, .ssethi k),
   (0x9A, .s2v k), (0x9B, .v2s k), (0x9C, .saddi k)]

end Sys2Proof.Machine

def Obligations.CrewIssue : Prop :=
  (∀ (s : State) (k x op : Nat) (fs : List LineFault) (row : Instr), (op, row) ∈ crewRows k x fs →
    (Table.find s.scl.crews k = none → exec row s = .next s)
    ∧ (∀ (c : Crew) (g : Group) (l : Launch), Table.find s.scl.crews k = some c → Table.find s.scl.groups c.group = some g →
        Table.find s.scl.launches g.age = some l →
        (mayIssue s c g l = false → exec row s = .next s)
        ∧ (mayIssue s c g l = true → c.pc % 8 ≠ 0 → exec row s = .next (faultCrew c g l 5 c.pc s))
        ∧ (∀ w s', mayIssue s c g l = true → fetchWord c g l s = .word w s' → assigned (iOp w) = false →
            exec row s = .next (faultCrew c g l 4 0 s')))
    ∧ (∀ (s' : State) (i : Issue), i.id = k → Issues s s' i op → reservedOk i.w = false →
        exec row s = .next (faultCrew i.c i.g i.l 4 0 s')))
  ∧ (∀ (s : State) (c : Crew) (g : Group) (l : Launch) (cause va : Nat) (x : Context), ctxOf s l.ctx = some x → cause < 256 →
      (x.dying = none → x.killed = none →
        ∃ k, ctxOf (faultCrew c g l cause va s) l.ctx = some { x with dying := some k } ∧ k.cause = cause ∧ k.scull = g.scull
          ∧ k.group = g.number ∧ k.crew = c.number ∧ k.pc = c.pc ∧ k.va = va)
      ∧ (x.dying.isSome = true → faultCrew c g l cause va s = s))

def Obligations.CrewIntegers : Prop :=
  ∀ (s s' : State) (i : Issue) (op : Nat), Issues s s' i op →
    (∀ (base : Nat) (row : Instr) (f : Bool → Word32 → Word32 → Word32),
      (base, row, f) ∈ ([(0x10, .iadd i.id, fun _ a b => a + b), (0x11, .isub i.id, fun _ a b => a - b),
        (0x12, .imul i.id, fun _ a b => a * b),
        (0x13, .imulhi i.id, fun g a b =>
          if g then ((a.signExtend 64) * (b.signExtend 64)).extractLsb' 32 32 else ((a.setWidth 64) * (b.setWidth 64)).extractLsb' 32 32),
        (0x15, .and i.id, fun _ a b => a &&& b), (0x16, .or i.id, fun _ a b => a ||| b), (0x17, .xor i.id, fun _ a b => a ^^^ b),
        (0x18, .shl i.id, fun _ a b => a <<< (b.toNat % 32)),
        (0x19, .shr i.id, fun g a b => if g then a.sshiftRight (b.toNat % 32) else a >>> (b.toNat % 32)),
        (0x1A, .min i.id, fun g a b => if (if g then b.slt a else b.ult a) then b else a),
        (0x1B, .max i.id, fun g a b => if (if g then a.slt b else a.ult b) then b else a)]
        : List (Nat × Instr × (Bool → Word32 → Word32 → Word32))) →
      op = base ∨ op = base + 0x10 →
      ThreadRow s s' i row { b := 1 } (fun t => (f (iSigned i.w) (laneA i t) (laneB i t)).toNat))
    ∧ (op = 0x24 ∨ (0x2C ≤ op ∧ op ≤ 0x2E) → exec (.iadd i.id) s = .next (faultCrew i.c i.g i.l 4 0 s'))
    ∧ (op = 0x14 → ThreadRow s s' i (.imad i.id) { b := 1, c := 1 } (fun t => (laneA i t * laneB i t + laneC i t).toNat))
    ∧ (op = 0x1C → ThreadRow s s' i (.sel i.id) { b := 1 }
        (fun t => (if readP i.c (iMod i.w % 8) t then laneA i t else laneB i t).toNat))
    ∧ (op = 0x1D → ThreadRow s s' i (.popc i.id) {} (fun t => (List.range 32).countP (fun k => (laneA i t).getLsbD k)))
    ∧ (op = 0x1E → ThreadRow s s' i (.clz i.id) {} (fun t => if laneA i t = 0 then 32 else 31 - Nat.log2 (laneA i t).toNat))
    ∧ (op = 0x1F → ThreadRow s s' i (.mov i.id) {} (fun t => (laneA i t).toNat))
    ∧ (op = 0x2F → ThreadRow s s' i (.mov i.id) { a := 0, b := 1 } (fun _ => iImm i.w))
    ∧ (op = 0x0E → ThreadRow s s' i (.shfl i.id) { b := 1 } (fun t => (readV i.c (iA i.w) ((laneB i t).toNat % i.threads)).toNat))

def Obligations.CrewWide : Prop :=
  ∀ (s s' : State) (i : Issue) (op : Nat), Issues s s' i op →
    (op = 0x30 → ThreadRow s s' i (.iadd64 i.id) { dst := 2, a := 2, b := 2 } (fun t => i.va 2 t + i.vb 2 t))
    ∧ (op = 0x35 → ThreadRow s s' i (.imadw i.id) { dst := 2, a := 1, b := 1, c := 2 } (fun t =>
        ((if iSigned i.w then (laneA i t).signExtend 64 * (laneB i t).signExtend 64 else (laneA i t).setWidth 64 * (laneB i t).setWidth 64)
          + BitVec.ofNat 64 (i.vc 2 t)).toNat))
    ∧ (op = 0x31 → Guarded s s' i (.iaddc i.id) (i.legal { b := 1 } && iMod i.w % 8 ≠ 0) (i.waits { b := 1 })
        ∧ (i.legal { b := 1 } = true → iMod i.w % 8 ≠ 0 → i.waits { b := 1 } = false →
          let sum := fun t => (laneA i t).toNat + (laneB i t).toNat + bitNat (readP i.c (iMod i.w % 8) t)
          ∃ c, exec (.iaddc i.id) s = .next (i.put c s') ∧ WroteV i 1 sum { c with p := i.c.p }
            ∧ (∀ m t, readP c m t = if m = iMod i.w % 8 ∧ t ∈ i.active then decide (2 ^ 32 ≤ sum t) else readP i.c m t)))
    ∧ (∀ (row : Instr) (ok : Nat → Nat → Nat → Nat → Prop) (result : Nat → Nat → Nat → Nat → Prop),
        (op, row, ok, result) ∈ ([
          (0x32, .modmul i.id, fun q qi a b => q % 2 = 1 ∧ 3 ≤ q ∧ q < 2 ^ 62 ∧ a < q ∧ b < q ∧ (q * qi + 1) % 2 ^ 64 = 0,
            fun q a b x => x < q ∧ x * 2 ^ 64 % q = a * b % q),
          (0x33, .modadd i.id, fun q _ a b => 2 ≤ q ∧ q < 2 ^ 63 ∧ a < q ∧ b < q, fun q a b x => x < q ∧ x % q = (a + b) % q),
          (0x34, .modsub i.id, fun q _ a b => 2 ≤ q ∧ q < 2 ^ 63 ∧ a < q ∧ b < q, fun q a b x => x < q ∧ (x + b) % q = a % q)]
          : List (Nat × Instr × (Nat → Nat → Nat → Nat → Prop) × (Nat → Nat → Nat → Nat → Prop))) →
        let sh : Shape := { dst := 2, a := 2, b := 2 }
        Guarded s s' i row (i.legal sh && iCs i.w && decide (iC i.w ≤ 62)) (i.waits sh)
        ∧ (i.legal sh = true → iCs i.w = true → iC i.w ≤ 62 → i.waits sh = false →
          ∃ c f, exec row s = .next (i.put c { s' with fresh := s'.fresh + 64 }) ∧ WroteV i 2 f c
            ∧ ∀ t ∈ i.active, ok (readS i.c (iC i.w)) (readS i.c (iC i.w + 1)) (i.va 2 t) (i.vb 2 t) →
                result (readS i.c (iC i.w)) (i.va 2 t) (i.vb 2 t) (f t)))

def Obligations.CrewFloats : Prop :=
  ∀ (s s' : State) (i : Issue) (op : Nat), Issues s s' i op →
    let m := iMod i.w
    let a := fun t => modA m (f32.value (laneA i t).toNat)
    let b := fun t => modB m (f32.value (laneB i t).toNat)
    (op = 0x40 → ThreadRow s s' i (.fadd i.id) { b := 1 } (fun t => f32.round ((a t).add (b t))))
    ∧ (op = 0x41 → ThreadRow s s' i (.fsub i.id) { b := 1 } (fun t => f32.round ((a t).add (b t).neg)))
    ∧ (op = 0x42 → ThreadRow s s' i (.fmul i.id) { b := 1 } (fun t => f32.round ((a t).mul (b t))))
    ∧ (op = 0x43 → ThreadRow s s' i (.ffma i.id) { b := 1, c := 1 }
        (fun t => f32.round (((a t).mul (b t)).add (modC m (f32.value (laneC i t).toNat)))))
    ∧ (op = 0x44 → ThreadRow s s' i (.fmin i.id) { b := 1 } (fun t => f32.round ((a t).min (b t))))
    ∧ (op = 0x45 → ThreadRow s s' i (.fmax i.id) { b := 1 } (fun t => f32.round ((a t).max (b t))))
    ∧ (op = 0x46 →
        (4 < m % 8 → exec (.ffunc i.id) s = .next (faultCrew i.c i.g i.l 4 0 s'))
        ∧ (m % 8 ≤ 4 → ThreadRow s s' i (.ffunc i.id) {} (fun t => f32.round (fpFunc (m % 8) (f32.value (laneA i t).toNat)))))
    ∧ (∀ (row : Instr) (f : Fp → Fp → Fp → Fp) (sh : Shape),
        (op, row, f, sh) ∈ ([(0x48, .hadd2 i.id, fun x y _ => x.add y, { b := 1 }), (0x49, .hmul2 i.id, fun x y _ => x.mul y, { b := 1 }),
          (0x4A, .hfma2 i.id, fun x y z => (x.mul y).add z, { b := 1, c := 1 })] : List (Nat × Instr × (Fp → Fp → Fp → Fp) × Shape)) →
        ∃ g, ThreadRow s s' i row sh g ∧ ∀ t ∈ i.active, ∀ h, h < 2 →
          let fmt := if m.testBit 5 then bf16 else f16
          let half := fun (x : Word32) => fmt.value (bitsOf x.toNat (16 * h) 16)
          bitsOf (g t) (16 * h) 16 = fmt.round (f (modA m (half (laneA i t))) (modB m (half (laneB i t)))
            (modC m (half (if op = 0x4A then laneC i t else 0)))))
    ∧ (op = 0x50 →
        (4 < m % 16 ∨ 4 < m / 16 → exec (.cvt i.id) s = .next (faultCrew i.c i.g i.l 4 0 s'))
        ∧ (m % 16 ≤ 4 → m / 16 ≤ 4 → Guarded s s' i (.cvt i.id) (i.legal {}) (i.waits {}))
        ∧ (m % 16 ≤ 4 → m / 16 ≤ 4 → i.legal {} = true → i.waits {} = false →
          ∃ c f, exec (.cvt i.id) s = .next (i.put c { s' with fresh := s'.fresh + 64 }) ∧ WroteV i 1 f c
            ∧ ∀ t ∈ i.active, cvtStated (m % 16) (m / 16) (laneA i t).toNat = true →
                f t = cvtResult (m / 16) (cvtSource (m % 16) (laneA i t).toNat)))
    ∧ (op = 0x51 → ∃ g, ThreadRow s s' i (.f8pack i.id) { b := 1, readsDst := true } g ∧ ∀ t ∈ i.active,
          let fmt := if m.testBit 1 then e5m2 else e4m3
          bitsOf (g t) (16 * (m % 2)) 8 = pack8 fmt (m.testBit 2) (f32.value (laneA i t).toNat)
          ∧ bitsOf (g t) (16 * (m % 2) + 8) 8 = pack8 fmt (m.testBit 2) (f32.value (laneB i t).toNat)
          ∧ bitsOf (g t) (16 * (1 - m % 2)) 16 = bitsOf (readV i.c (iDst i.w) t).toNat (16 * (1 - m % 2)) 16)
    ∧ (op = 0x52 → ThreadRow s s' i (.f8unpack i.id) {}
        (fun t => f32.round ((if m.testBit 2 then e5m2 else e4m3).value (bitsOf (laneA i t).toNat (8 * (m % 4)) 8))))
    ∧ (∀ (row : Instr) (f : Nat → Bool),
        (op, row, f) ∈ ([(0x60, .isetp i.id, fun t =>
            let lt := if iSigned i.w then (laneA i t).slt (laneB i t) else (laneA i t).ult (laneB i t)
            let eq := laneA i t == laneB i t
            match m with | 0 => eq | 1 => !eq | 2 => lt | 3 => lt || eq | 4 => !(lt || eq) | _ => !lt),
          (0x61, .fsetp i.id, fun t => compareFloat m (f32.value (laneA i t).toNat) (f32.value (laneB i t).toNat))]
          : List (Nat × Instr × (Nat → Bool))) →
        let ok := i.legal { dst := 0, b := 1 } && decide (1 ≤ iDst i.w ∧ iDst i.w ≤ 7 ∧ m ≤ 5)
        Guarded s s' i row ok (i.waits { dst := 0, b := 1 })
        ∧ (ok = true → i.waits { dst := 0, b := 1 } = false → ∃ c, exec row s = .next (i.put c s') ∧ WroteP i (iDst i.w) f c))
    ∧ (op = 0x62 →
        let ok := reservedOk i.w && decide (1 ≤ iDst i.w ∧ iDst i.w ≤ 7 ∧ iA i.w ≤ 7 ∧ iB i.w ≤ 7 ∧ m ≤ 3)
        Guarded s s' i (.plop i.id) ok false
        ∧ (ok = true → ∃ c, exec (.plop i.id) s = .next (i.put c s') ∧ WroteP i (iDst i.w) (fun t =>
            let x := readP i.c (iA i.w) t
            let y := readP i.c (iB i.w) t
            match m with | 0 => x && y | 1 => x || y | 2 => x != y | _ => x && !y) c))

def Obligations.CrewScalars : Prop :=
  ∀ (s s' : State) (i : Issue) (op : Nat), Issues s s' i op →
    (∀ (row : Instr) (f : Bool → Word64 → Word64 → Word64),
      (op, row, f) ∈ ([(0x90, .sadd i.id, fun _ a b => a + b), (0x91, .ssub i.id, fun _ a b => a - b), (0x92, .smul i.id, fun _ a b => a * b),
        (0x93, .sand i.id, fun _ a b => a &&& b), (0x94, .sor i.id, fun _ a b => a ||| b), (0x95, .sxor i.id, fun _ a b => a ^^^ b),
        (0x96, .sshl i.id, fun _ a b => a <<< (b.toNat % 64)),
        (0x97, .sshr i.id, fun g a b => if g then a.sshiftRight (b.toNat % 64) else a >>> (b.toNat % 64))]
        : List (Nat × Instr × (Bool → Word64 → Word64 → Word64))) →
      ScalarRow s s' i row (decide (iDst i.w < 64 ∧ iA i.w < 64 ∧ iB i.w < 64))
        (f (iSigned i.w) (scalar i (iA i.w)) (scalar i (iB i.w))).toNat)
    ∧ (op = 0x98 → ScalarRow s s' i (.smovi i.id) (decide (iDst i.w < 64)) ((BitVec.ofNat 32 (iImm i.w)).signExtend 64).toNat)
    ∧ (op = 0x99 → ScalarRow s s' i (.ssethi i.id) (decide (iDst i.w < 64)) (readS i.c (iDst i.w) % 2 ^ 32 + iImm i.w * 2 ^ 32))
    ∧ (op = 0x9C → ScalarRow s s' i (.saddi i.id) (decide (iDst i.w < 64 ∧ iA i.w < 64))
        (scalar i (iA i.w) + (BitVec.ofNat 32 (iImm i.w)).signExtend 64).toNat)
    ∧ (op = 0x0C → ∃ x, ScalarRow s s' i (.vote i.id) (decide (iA i.w < 8 ∧ iDst i.w < 64)) x
        ∧ ∀ t, x.testBit t = (decide (t < i.threads) && readP i.c (iA i.w) t))
    ∧ (op = 0x09 → ∀ cycle, ScalarRow s s' i (.sread i.id cycle) (decide (iA i.w ≤ 9 ∧ iDst i.w < 64))
        (match iA i.w with
          | 0 => s'.cad.stroke | 1 => cycle | 2 => i.g.scull | 3 => pkgNumber s' % 64 | 4 => i.l.ctx / 64 | 5 => i.l.ctx
          | 6 => bitNat i.l.distance + i.c.half * 2 ^ 8 | 7 => i.c.tokens | 8 => i.g.age | _ => i.l.localBytes))
    ∧ (op = 0x9A → Guarded s s' i (.s2v i.id) (i.legal { a := 0 } && decide (iA i.w < 64)) (i.waits { a := 0 })
        ∧ (i.legal { a := 0 } = true → iA i.w < 64 → i.waits { a := 0 } = false →
          ∃ c, exec (.s2v i.id) s = .next (i.put c s')
            ∧ WroteV i 1 (fun _ => readS i.c (iA i.w) / 2 ^ (if iMod i.w % 2 = 1 then 32 else 0)) c))
    ∧ (op = 0x9B → pendingV i.c (iA i.w) 1 = false → ScalarRow s s' i (.v2s i.id)
        (decide (iDst i.w < 64) && i.vOk (iA i.w) 1 && decide (iB i.w < 64))
        (readV i.c (iA i.w) (readS i.c (iB i.w) % i.threads)).toNat)

def Obligations.CrewControl : Prop :=
  ∀ (s s' : State) (i : Issue) (op : Nat), Issues s s' i op →
    let target := (i.c.pc + 8 * ((BitVec.ofNat 32 (iImm i.w)).signExtend 64).toNat) % 2 ^ 64
    (op = 0x00 → reservedOk i.w = true → exec (.crewNop i.id) s = .next (i.put i.next s'))
    ∧ (op = 0x06 → Guarded s s' i (.fence i.id) (reservedOk i.w && decide (iMod i.w ≤ 2)) false
        ∧ (reservedOk i.w = true → iMod i.w ≤ 2 → exec (.fence i.id) s = .next (i.put i.next s')))
    ∧ (op = 0x01 → Guarded s s' i (.bra i.id) (reservedOk i.w && decide (iDst i.w ≤ 2)) false
        ∧ (reservedOk i.w = true →
          (iDst i.w = 0 → exec (.bra i.id) s = .next (i.put (if i.pred 0 then { i.c with pc := target } else i.next) s'))
          ∧ (iDst i.w = 1 → exec (.bra i.id) s = .next (i.put (if i.active = [] then i.next else { i.c with pc := target }) s'))
          ∧ (iDst i.w = 2 →
              exec (.bra i.id) s = .next (i.put (if i.active.length = i.threads then { i.c with pc := target } else i.next) s'))))
    ∧ (op = 0x02 → Guarded s s' i (.jmp i.id) (reservedOk i.w && decide (iA i.w < 64)) false
        ∧ (reservedOk i.w = true → iA i.w < 64 →
          exec (.jmp i.id) s = .next (i.put (if i.pred 0 then { i.c with pc := readS i.c (iA i.w) } else i.next) s')))
    ∧ (op = 0x03 → Guarded s s' i (.call i.id) (reservedOk i.w && decide (iDst i.w < 64)) false
        ∧ (reservedOk i.w = true → iDst i.w < 64 → i.pred 0 = false → exec (.call i.id) s = .next (i.put i.next s'))
        ∧ (reservedOk i.w = true → iDst i.w < 64 → i.pred 0 = true →
          ∃ c, exec (.call i.id) s = .next (i.put c s') ∧ c.pc = target
            ∧ WroteS i (iDst i.w) ((i.c.pc + 8) % 2 ^ 64) { c with pc := (i.c.pc + 8) % 2 ^ 64 }))
    ∧ (op = 0x05 → Guarded s s' i (.bar i.id) (reservedOk i.w && iPred i.w = 0 && !iNeg i.w) false
        ∧ (reservedOk i.w = true → iPred i.w = 0 → iNeg i.w = false →
          let crews := Table.put s.scl.crews i.id { i.next with atBarrier := true }
          ((∃ e ∈ crews, e.2.group = i.c.group ∧ e.2.ended = false ∧ e.2.atBarrier = false) →
            exec (.bar i.id) s = .next (i.put { i.next with atBarrier := true } s'))
          ∧ ((∀ e ∈ crews, e.2.group = i.c.group → e.2.ended = true ∨ e.2.atBarrier = true) →
            ∃ t, exec (.bar i.id) s = .next t
              ∧ (∀ k c, Table.find crews k = some c →
                  Table.find t.scl.crews k = some (if c.group = i.c.group then { c with atBarrier := false } else c))
              ∧ t = { s' with scl := { s'.scl with crews := t.scl.crews } })))
    ∧ (op = 0x04 → reservedOk i.w = true → ∀ elapsed,
        (i.pred 0 = false → exec (.exit i.id elapsed) s = .next (i.put i.next s'))
        ∧ (i.pred 0 = true → s.scl.crews = [(i.id, i.c)] → s.scl.matrix = [] → i.l.groups ≤ i.l.ended + 1 → s.sct.cmd = none →
          ∃ t, exec (.exit i.id elapsed) s = .next t ∧ t.scl.crews = [] ∧ Table.find t.scl.groups i.c.group = none
            ∧ Table.find t.scl.launches i.g.age = none ∧ t.mem = s'.mem ∧ t.sct = s'.sct
            ∧ (∀ r, ∀ c ∈ (ringOf s r).inflight, c.serial = i.l.serial → c.phase = .running →
                { c with phase := .done 0 i.l.groups elapsed } ∈ (ringOf t r).inflight))
        ∧ (i.pred 0 = true → (∃ e ∈ Table.put s.scl.crews i.id { i.next with ended := true },
              e.2.group = i.c.group ∧ e.2.ended = false ∧ e.2.atBarrier = false) →
          exec (.exit i.id elapsed) s = .next (i.put { i.next with ended := true } s')))
    ∧ (op = 0x07 → reservedOk i.w = true →
        (i.pred 0 = false → exec (.missue i.id) s = .next (i.put i.next s'))
        ∧ (i.pred 0 = true → iA i.w % 8 ≠ 0 → exec (.missue i.id) s = .next (faultCrew i.c i.g i.l 5 0 s'))
        ∧ (i.pred 0 = true → iA i.w % 8 = 0 → i.vOk (iA i.w) 8 = true → pendingV i.c (iA i.w) 8 = false →
            (16 ≤ (matrixQueue s' i.g.scull).length ∨ i.c.tokens.testBit (iMod i.w % 8) = true → exec (.missue i.id) s = .next s)
            ∧ ((matrixQueue s' i.g.scull).length < 16 → i.c.tokens.testBit (iMod i.w % 8) = false →
              ∃ t d, exec (.missue i.id) s = .next t ∧ matrixQueue t i.g.scull = matrixQueue s' i.g.scull ++ [d]
                ∧ d.crew = i.id ∧ d.token = iMod i.w % 8 ∧ d.pc = i.c.pc
                ∧ (∀ k, k < 8 → fieldLE d.bytes (4 * k) 4 = (readV i.c (iA i.w + k) 0).toNat)
                ∧ (∀ j, j ≠ i.g.scull → matrixQueue t j = matrixQueue s' j)
                ∧ (∃ c, Table.find t.scl.crews i.id = some c ∧ c = { i.next with tokens := c.tokens }
                    ∧ ∀ k, c.tokens.testBit k = (decide (k = iMod i.w % 8) || i.c.tokens.testBit k))
                ∧ t.mem = s'.mem ∧ t.sct = s'.sct)))
    ∧ (op = 0x08 → reservedOk i.w = true →
        (i.pred 0 = true → (∃ k, (iMod i.w).testBit k = true ∧ i.c.tokens.testBit k = true) → exec (.mwait i.id) s = .next s)
        ∧ (i.pred 0 = false ∨ (∀ k, (iMod i.w).testBit k = true → i.c.tokens.testBit k = false) →
            exec (.mwait i.id) s = .next (i.put i.next s')))
    ∧ (∀ (row : Instr) (ok : Bool) (ws : List Word32),
        (op, row, ok, ws) ∈ ([(0x0A, .tpush i.id, decide (iA i.w < 64), [BitVec.ofNat 32 (readS i.c (iA i.w))]),
          (0x0B, .tpushv i.id, i.vOk (iA i.w) 1, i.active.map (fun t => readV i.c (iA i.w) t))] : List (Nat × Instr × Bool × List Word32)) →
        (op = 0x0B → pendingV i.c (iA i.w) 1 = false) →
        let q := iMod i.w % 64
        Guarded s s' i row (reservedOk i.w && ok) false
        ∧ (reservedOk i.w = true → ok = true → i.pred 0 = false → exec row s = .next (i.put i.next s'))
        ∧ (reservedOk i.w = true → ok = true → i.pred 0 = true →
          (Table.find s'.sct.wake q ≠ some (i.l.ctx / 64) → exec row s = .next (faultCrew i.c i.g i.l 4 0 s'))
          ∧ (Table.find s'.sct.wake q = some (i.l.ctx / 64) → (wakeOf s' q).kind ≠ 0 → ws ≠ [] →
              exec row s = .next (bump (i.put i.next s') .wakeMisrouted))
          ∧ (Table.find s'.sct.wake q = some (i.l.ctx / 64) → (wakeOf s' q).kind = 0 → ws ≠ [] →
              exec row s = .next (wakePush q (ws.mapIdx (fun k w =>
                (w, k = 0 && (iMod i.w).testBit 6, k + 1 = ws.length && (iMod i.w).testBit 7))) (i.put i.next s')))))
namespace Sys2Proof.Machine

/-- The addresses `l` of an access to memory that no fault, poison or armed injection touches. -/
abbrev GoodLines (u : State) (n : Nat) (l : List (Nat × Nat)) : Prop :=
  u.err.slots = [] ∧ ∀ e ∈ l, poisonedAt u e.2 = false ∧ isMemory u e.2 = true ∧ isMemory u (e.2 + n - 1) = true ∧ e.2 % n = 0

/-- The crew with an access in flight: its PC has advanced, its registers are as before, and the access waits behind those before. -/
abbrev InFlight (i : Issue) (ws : List (Nat × Word32)) (c : Crew) : Prop :=
  c = { i.c with pc := (i.c.pc + 8) % 2 ^ 64, v := c.v, loads := c.loads }
  ∧ (∀ n t, t < 64 → readV c n t = readV i.c n t)
  ∧ c.loads.length = i.c.loads.length + 1 ∧ c.loads.getLast? = some { writes := ws, fault := none }

/-- The encoding checks of a load, a store and an atomic (13 R656, R675, R678). -/
abbrev loadOk (i : Issue) (k : Nat) : Prop :=
  reservedOk i.w = true ∧ iWidth i.w ≤ 4 ∧ i.vOk (iDst i.w) (widthRegs i.w) = true ∧ i.addrOk k = true ∧ i.addrWaits k = false
abbrev storeOk (i : Issue) (k : Nat) : Prop :=
  reservedOk i.w = true ∧ iWidth i.w ≤ 4 ∧ i.vOk (iB i.w) (widthRegs i.w) = true ∧ i.addrOk k = true ∧ i.addrWaits k = false
  ∧ pendingV i.c (iB i.w) (widthRegs i.w) = false
abbrev atomOk (i : Issue) (k : Nat) : Prop :=
  reservedOk i.w = true ∧ (iWidth i.w = 2 ∨ iWidth i.w = 3) ∧ iOpmod i.w ≤ 7 ∧ i.addrOk k = true ∧ i.addrWaits k = false
  ∧ i.vOk (iB i.w) (widthRegs i.w) = true ∧ pendingV i.c (iB i.w) (widthRegs i.w) = false
  ∧ (iOpmod i.w = 7 → i.vOk (iC i.w) (widthRegs i.w) = true ∧ pendingV i.c (iC i.w) (widthRegs i.w) = false)
  ∧ (iBs i.w = false → i.vOk (iDst i.w) (widthRegs i.w) = true)

/-- The registers that a load of the listed threads writes: the bytes of memory, extended below four bytes (13 R675). -/
abbrev loadWrites (i : Issue) (u : State) (l : List (Nat × Nat)) : List (Nat × Word32) :=
  l.flatMap (fun e => wordsFor (iDst i.w) e.1 (widthRegs i.w) (extendLoad i.w (peek u e.2 (widthBytes i.w))))

/-- What a store leaves in memory: in each byte of a thread's access that no higher thread writes, that thread's byte; every other byte as
before (13 R677). -/
abbrev Stored (i : Issue) (u t : State) (l : List (Nat × Nat)) : Prop :=
  let n := widthBytes i.w
  (∀ e ∈ l, ∀ k, k < n → (∀ e' ∈ l, e.1 < e'.1 → ¬(e'.2 ≤ e.2 + k ∧ e.2 + k < e'.2 + n)) →
    (cellAt t.mem.cells (e.2 + k)).toNat = bitsOf (readVs i.c (iB i.w) e.1 (widthRegs i.w)) (8 * k) 8)
  ∧ (∀ a, (∀ e ∈ l, ¬(e.2 ≤ a ∧ a < e.2 + n)) → cellAt t.mem.cells a = cellAt u.mem.cells a)

/-- The value that an atomic leaves in memory (13 R678). -/
abbrev atomValue (i : Issue) (old x cmp : Nat) : Nat :=
  let n := 8 * widthBytes i.w
  let lt := fun a b => if iSigned i.w then decide (toSigned n a < toSigned n b) else decide (a < b)
  (match iOpmod i.w with
    | 0 => old + x | 1 => old &&& x | 2 => old ||| x | 3 => old ^^^ x | 4 => if lt x old then x else old
    | 5 => if lt old x then x else old | 6 => x | _ => if old = cmp then x else old) % 2 ^ n

end Sys2Proof.Machine

def Obligations.CrewLocalMemory : Prop :=
  ∀ (s s' : State) (i : Issue) (op : Nat), Issues s s' i op →
    let n := widthBytes i.w
    let at_ := fun t => i.localBase + i.addr 1 t
    let l := i.active.map (fun t => (t, at_ t))
    ((∀ t ∈ i.active, i.addr 1 t + n ≤ i.l.localBytes ∧ i.addr 1 t % n = 0) → GoodLines s' n l →
      (op = 0x80 → loadOk i 1 → ∃ c t, exec (.lld i.id) s = .next (i.put c t) ∧ t.mem = s'.mem ∧ t.sct = s'.sct
        ∧ WroteV i (widthRegs i.w) (fun x => extendLoad i.w (peek s' (at_ x) n)) c)
      ∧ (op = 0x81 → storeOk i 1 →
        ∃ t, exec (.lst i.id) s = .next (i.put i.next t) ∧ Stored i s' t l ∧ t.sct = s'.sct ∧ t.rings = s'.rings)
      ∧ (∀ x, op = 0x82 → atomOk i 1 → i.active = [x] →
        ∃ c t, exec (.latom i.id) s = .next (i.put c t)
          ∧ (iBs i.w = true → c = i.next) ∧ (iBs i.w = false → WroteV i (widthRegs i.w) (fun _ => leNat (peek s' (at_ x) n)) c)
          ∧ leNat (peek t (at_ x) n) = atomValue i (leNat (peek s' (at_ x) n)) (readVs i.c (iB i.w) x (widthRegs i.w))
              (readVs i.c (iC i.w) x (widthRegs i.w))
          ∧ (∀ a, ¬(at_ x ≤ a ∧ a < at_ x + n) → cellAt t.mem.cells a = cellAt s'.mem.cells a) ∧ t.sct = s'.sct))
    ∧ (∀ (x : Nat) (rest : List Nat), i.active = x :: rest →
        ∀ row, ((op = 0x80 ∧ row = .lld i.id ∧ loadOk i 1) ∨ (op = 0x81 ∧ row = .lst i.id ∧ storeOk i 1)
            ∨ (op = 0x82 ∧ row = .latom i.id ∧ atomOk i 1)) →
          (i.l.localBytes < i.addr 1 x + n → exec row s = .next (faultCrew i.c i.g i.l 3 0 s'))
          ∧ (i.addr 1 x + n ≤ i.l.localBytes → i.addr 1 x % n ≠ 0 → exec row s = .next (faultCrew i.c i.g i.l 5 0 s')))

def Obligations.CrewGlobalMemory : Prop :=
  (∀ (s s' : State) (i : Issue) (op : Nat) (faults : List LineFault), Issues s s' i op →
    let n := widthBytes i.w
    (∀ (l : List (Nat × Nat)) (u : State), faults = [] →
      (op = 0x70 → resolveGlobal faults i .read n i.active s' = (l, none, false, u) → GoodLines u n l → loadOk i 2 →
        ∃ c t, exec (.ld i.id faults) s = .next (i.put c t) ∧ InFlight i (loadWrites i u l) c ∧ t.mem = u.mem ∧ t.sct = u.sct)
      ∧ (op = 0x71 → resolveGlobal faults i .write n i.active s' = (l, none, false, u) → GoodLines u n l → storeOk i 2 →
        ∃ c t, exec (.st i.id faults) s = .next (i.put c t) ∧ InFlight i [] c ∧ Stored i u t l ∧ t.sct = u.sct ∧ t.rings = u.rings)
      ∧ (∀ x a, op = 0x72 → resolveGlobal faults i .write n i.active s' = ([(x, a)], none, false, u) → GoodLines u n [(x, a)] →
        atomOk i 2 →
        ∃ c t, exec (.atom i.id faults) s = .next (i.put c t)
          ∧ InFlight i (if iBs i.w then [] else wordsFor (iDst i.w) x (widthRegs i.w) (leNat (peek u a n))) c
          ∧ leNat (peek t a n) = atomValue i (leNat (peek u a n)) (readVs i.c (iB i.w) x (widthRegs i.w))
              (readVs i.c (iC i.w) x (widthRegs i.w))
          ∧ (∀ b, ¬(a ≤ b ∧ b < a + n) → cellAt t.mem.cells b = cellAt u.mem.cells b) ∧ t.sct = u.sct)
      ∧ (∀ x a, op = 0x73 → resolveGlobal faults i .write 64 (((List.range (i.threads / 16)).map (· * 16)).filter i.pred) s'
          = ([(x, a)], none, false, u) → GoodLines u 64 [(x, a)] → isNear a = true → reservedOk i.w = true → iWidth i.w = 2 →
        iOpmod i.w % 4 ≠ 3 → iOpmod i.w ≤ 7 → i.addrOk 2 = true → i.vOk (iB i.w) 1 = true → i.addrWaits 2 = false →
        pendingV i.c (iB i.w) 1 = false →
        ∃ c t, exec (.ladd i.id faults) s = .next (i.put c t) ∧ InFlight i [] c ∧ t.sct = u.sct
          ∧ (∀ b, ¬(a ≤ b ∧ b < a + 64) → cellAt t.mem.cells b = cellAt u.mem.cells b)
          ∧ (let w := 2 ^ (iOpmod i.w % 4 + 1)
             let operand := (List.range 16).flatMap (fun j => leBytes 4 (readV i.c (iB i.w) (x + j)).toNat)
             ∀ k, k < 64 / w →
              let old := leNat (peek u (a + w * k) w)
              let y := leNat ((operand.drop (w * k)).take w)
              leNat (peek t (a + w * k) w) = (if (iOpmod i.w).testBit 2 then old + 2 ^ (8 * w) - y else old + y) % 2 ^ (8 * w))))
    ∧ (∀ (x : Nat) (rest : List Nat), i.active = x :: rest → i.addr 2 x % n ≠ 0 →
        ∀ row, ((op = 0x70 ∧ row = .ld i.id faults ∧ loadOk i 2) ∨ (op = 0x71 ∧ row = .st i.id faults ∧ storeOk i 2)
            ∨ (op = 0x72 ∧ row = .atom i.id faults ∧ atomOk i 2)) →
          exec row s = .next (faultCrew i.c i.g i.l 5 (i.addr 2 x) s')))
  ∧ (∀ (s : State) (k : Nat) (c : Crew) (l : Load) (rest : List Load), s.err.slots = [] → Table.find s.scl.crews k = some c →
      c.loads = l :: rest →
      (l.fault = none →
        ∃ d, exec (.memoryAccessReturn k) s = .next (setScl { s.scl with crews := Table.put s.scl.crews k d } s)
          ∧ d = { c with loads := rest, v := d.v } ∧ (∀ e ∈ l.writes, (∀ e' ∈ l.writes, e'.1 = e.1 → e' = e) → Table.find d.v e.1 = some e.2)
          ∧ (∀ key, (∀ e ∈ l.writes, e.1 ≠ key) → Table.find d.v key = Table.find c.v key))
      ∧ (∀ (f : Kill) (launch : Launch), l.fault = some f → launchOfCrew s c = some launch →
          exec (.memoryAccessReturn k) s = .next (killContext launch.ctx f s)))
namespace Sys2Proof.Machine

/-- No engine is about to take queued work. -/
abbrev Settled (s : State) : Prop := ∀ k, k < 8 → (latOf s k).queue = [] ∨ latFree s k = false

/-- The operation that a LAT_EXEC packet asks for (09, LAT_EXEC). -/
abbrev askedOp (c : Cmd) : LatOp := { serial := c.serial, ring := c.ring, tag := c.tag, params := sliceBytes c.bytes 24 104 }

/-- The engine may take the command: owned by the sector of its ring, available, its gate open, and room in its queue (09 R483). -/
abbrev Takes (s : State) (n e : Nat) : Prop :=
  Table.find s.sct.engines e = some n ∧ engineAvail s e = true ∧ gateOpen s 2 e = true ∧ (latOf s e).queue.length < 64

/-- Word `k` of an operand at an address. -/
abbrev latWord (s : State) (a k : Nat) : Nat := leNat (peek s (a + 8 * k) 8)

/-- Memory of a range without poison. -/
abbrev CleanRange (s : State) (a n : Nat) : Prop :=
  isMemory s a = true ∧ isMemory s (a + n - 1) = true ∧ ∀ b, a ≤ b → b < a + n → poisonedAt s b = false

end Sys2Proof.Machine

def Obligations.LatticeCommands : Prop :=
  ∀ (s : State) (ring : Nat) (c : Cmd), Settled s → ∀ (n e : Nat) (x : LatEngine), n = c.ring / 64 → e < 8 → x = latOf s e →
    (∀ o : LatOp, Begins s ring 0x0601 c → o = askedOp c → o.engine = e → o.fieldsOk = true →
      o.regions.all (regionOk s n e) = true → noOverlap o.op e o.regions = true → saveOk s n o = true →
      (o.op = 0x0E → isClient o.aux = true ∧ s.rng.raw = false ∧ ∃ i, Table.find s.rng.instances o.aux = some i ∧ i.sector = n) →
      entriesOk x o.logN o.entries = true → meetsParked e x (o.storeRegions e) = false → Takes s n e →
      ∃ t, exec (.latExec ring) s = .next t ∧ t = { setPhase c.serial .running s with lat := t.lat }
        ∧ (∀ k, k ≠ e → latOf t k = latOf s k)
        ∧ latOf t e = (if latFree s e then { x with running := some { o with cycles := 200 }, held := false }
            else { x with queue := x.queue ++ [.exec o] }))
    ∧ (∀ first count logN : Nat, Begins s ring 0x0610 c → c.param 24 1 = e → c.param 25 1 = first → c.param 26 1 = count →
        c.param 27 1 = logN → first ≤ 63 → 1 ≤ count → count ≤ 28 → 12 ≤ logN → logN ≤ 17 → first + count ≤ 64 →
        c.reserved [(28, 64)] = true → 64 + 16 * count ≤ 64 * c.units →
        (∀ i, i < count → modulusOk logN (c.param (64 + 16 * i) 8) (c.param (72 + 16 * i) 8) = true) → Takes s n e →
        latFree s e = true → parked x = [] →
        ∃ u, exec (.latModuli ring) s = .next (okWith c 0 0 u) ∧ u = { setPhase c.serial .running s with lat := u.lat }
          ∧ (∀ k, k ≠ e → latOf u k = latOf s k) ∧ latOf u e = { x with moduli := (latOf u e).moduli }
          ∧ ∀ k, Table.find (latOf u e).moduli k = (if first ≤ k ∧ k < first + count
              then some ⟨c.param (64 + 16 * (k - first)) 8, c.param (72 + 16 * (k - first)) 8, logN⟩ else Table.find x.moduli k))
    ∧ (∀ o : LatOp, Begins s ring 0x0602 c → c.param 24 1 = e → c.param 25 1 = 0 → c.reserved [(26, 32), (36, 64)] = true →
        Table.find s.sct.engines e = some n → o.tag = c.param 32 4 → x.slots.length < 16 → x.suspend = none →
        (x.running = some o → x.held = false →
          exec (.latSuspend ring) s = .next (setPhase c.serial .running (setLat e { x with suspend := some (c.serial, false) } s)))
        ∧ (∀ (bs : List Byte) (u : State) (k : Nat), x.running = none → x.yielded = some o → x.queue = [] → o.serial ≠ c.serial →
            internalBytes 3 8 s = (some bs, u) → Table.firstFree x.slots 0 16 = some k →
            let saved : LatOp := { o with check := leNat bs }
            let token := e * 2 + k * 2 ^ 4 + o.steps % 2 ^ 28 * 2 ^ 12
            ∃ t, exec (.latSuspend ring) s = .next (okWith c token (leNat bs) (bump t .latPreempts e))
              ∧ latOf t e = { x with yielded := none, slots := Table.put x.slots k (saved, entriesHash x saved) }
              ∧ t = { finish o.serial stPreempted token (leNat bs) u with lat := t.lat } ∧ (∀ j, j ≠ e → latOf t j = latOf s j)))
    ∧ (∀ (o : LatOp) (t0 k : Nat), Begins s ring 0x0603 c → c.param 24 8 = t0 → t0.testBit 0 = false → bitsOf t0 1 3 = e →
        (c.param 40 1 = 0xFF ∨ c.param 40 1 = e) → c.reserved [(41, 64)] = true → bitsOf t0 4 4 = k → o.check = c.param 32 8 →
        Table.find x.slots k = some (o, entriesHash x o) → Takes s n e → latFree s e = true →
        ∃ t, exec (.latResume ring) s = .next t ∧ t = { setPhase c.serial .running s with lat := t.lat }
          ∧ (∀ j, j ≠ e → latOf t j = latOf s j)
          ∧ latOf t e = { x with slots := Table.drop x.slots k, held := false
                                 running := some { o with serial := c.serial, ring := c.ring, tag := c.tag, cycles := 840, stalls := 0 } })

def Obligations.LatticeSteps : Prop :=
  ∀ (s : State) (e stall : Nat) (faults : List LineFault) (x : LatEngine) (o o' : LatOp), s.err.slots = [] → x = latOf s e →
    x.running = some o → x.held = false → x.suspend = none → x.shiftStop = false →
    o' = { o with steps := o.steps + 1, cycles := o.cycles + o.costs.getD o.steps 0 + stall, stalls := o.stalls + stall } →
    (o.steps + 1 < o.costs.length →
      (x.yieldAsked = false → (∀ n, Table.find s.sct.engines e = some n → (Table.getD s.rings.held n 0).testBit 1 = false) →
        exec (.stepBoundary e stall) s
          = .next (setLat e { x with running := some o' } (bumpField s .latPaceStalls e 0 32 stall)))
      ∧ (x.yieldAsked = true → ∃ t, exec (.stepBoundary e stall) s = .next (bump t .latPreempts e)
          ∧ latOf t e = { x with running := none, yielded := some o', yieldAsked := false }
          ∧ t = { bumpField s .latPaceStalls e 0 32 stall with lat := t.lat }))
    ∧ (o.steps + 1 = o.costs.length → x.queue = [] →
      (∀ st u, latEffect faults e o' (bumpField s .latPaceStalls e 0 32 stall) = (st, u) → (latOf u e).suspend = none →
          (latOf u e).queue = [] →
          exec (.latOperationEnd e stall faults) s = .next (bump
            (finish o.serial st (if st = 0 then o'.cycles else 0) (if st = 0 then o'.stalls % 2 ^ 32 + e * 2 ^ 32 else 0)
              (setLat e { latOf u e with running := none } u)) .latOpsDone e))
      ∧ (faults = [] → o.op ≤ 3 → 12 ≤ o.logN → o.logN ≤ 17 → 1 ≤ o.l → o.l ≤ 64 →
          let a := o.p 40 8
          let b := o.p 48 8
          let out := o.p 56 8
          let size := o.l * o.limb
          CleanRange s a size → (o.op ≠ 0 → CleanRange s b size) → isMemory s out = true → isMemory s (out + size - 1) = true →
          out % 64 = 0 → ∀ q : Nat → Nat,
          (∀ i, i < o.l → ∃ m, Table.find x.moduli (o.modBase + i) = some m ∧ m.q = q i ∧ isPrime (q i) = true) →
          (∀ i j, i < o.l → j < 2 ^ o.logN → latWord s a (i * 2 ^ o.logN + j) < q i
            ∧ (o.op ≠ 0 → latWord s b (i * 2 ^ o.logN + j) < q i)) →
          ∃ t, exec (.latOperationEnd e stall faults) s
              = .next (bump (finish o.serial stOk o'.cycles (o'.stalls % 2 ^ 32 + e * 2 ^ 32) t) .latOpsDone e)
            ∧ (latOf t e).running = none
            ∧ (∀ i j, i < o.l → j < 2 ^ o.logN →
                let w := i * 2 ^ o.logN + j
                let y := latWord s a w
                let z := latWord s b w
                latWord t out w = (match o.op with
                  | 0 => y | 1 => (y + z) % q i | 2 => (y + q i - z) % q i | _ => mont (q i) y z))
            ∧ (∀ d, ¬(out ≤ d ∧ d < out + size) → cellAt t.mem.cells d = cellAt s.mem.cells d)
            ∧ t.sct = s.sct ∧ t.rings = s.rings))
def Obligations.RandomCommands : Prop :=
  ∀ (s : State) (ring : Nat) (c : Cmd) (n i : Nat), n = c.ring / 64 →
    (s.rng.raw = false → 0x100 ≤ i → i ≤ 0x10FF →
      (∀ (seed : List Byte) (rest : List (List Byte)) (plen : Nat), Begins s ring 0x0701 c → c.param 36 2 = plen → plen ≤ 256 →
        1 + (plen + 63) / 64 ≤ c.units → c.param 28 4 = 0 → c.param 32 4 = 0 → c.param 38 1 = 0 → c.reserved [(39, 64)] = true →
        ((c.param 24 4 = i ∧ Table.find s.rng.instances i = none)
          ∨ (c.param 24 4 = 0xFFFFFFFF ∧ Table.find s.rng.instances 0xFFFFFFFF = none ∧ Table.firstFree s.rng.instances 0x100 4096 = some i)) →
        instancesOf s n < (sectorOf s n).rng → (sourceState s = .ok ∨ sourceState s = .low) → clientSeed s = true →
        s.rng.queue = seed :: rest →
        ∃ x, exec (.rngInstantiate ring) s = .next (okWith c i 0 { s with rng := { s.rng with
            queue := rest, instantiations := s.rng.instantiations + 1, instances := Table.put s.rng.instances i x } })
          ∧ x.sector = n ∧ x.interval = 4096 ∧ x.limit = 4096 ∧ x.pr = false ∧ x.count = 0 ∧ x.needReseed = false
          ∧ (x.key, x.v) = drbgNew seed (leBytes 8 s.top.serial ++ leBytes 8 (s.rng.instantiations + 1)) (sliceBytes c.bytes 64 plen))
      ∧ (∀ x : Instance, Table.find s.rng.instances i = some x → x.sector = n → c.param 24 4 = i →
        (∀ len alen dest : Nat, Begins s ring 0x0702 c → c.param 28 4 = len → 1 ≤ len → len ≤ 65536 → c.param 42 2 = alen → alen ≤ 256 →
          1 + (alen + 63) / 64 ≤ c.units → c.param 41 1 = 0 → c.reserved [(44, 64)] = true → c.param 32 8 = dest → x.pr = false →
          x.needReseed = false → x.count < x.interval →
          let drawn := x.generate len (sliceBytes c.bytes 64 alen)
          (c.param 40 1 = 0 → s.sealing.sealed = false → s.pci.linkUp = true →
            ∀ faults : List LineFault, exec (.rngGenerate ring faults) s = .next (okWith c len ((x.count + 1) % 2 ^ 32)
              { s with rng := { s.rng with instances := Table.put s.rng.instances i drawn.2 },
                       out := s.out ++ [.hostWrite (.vf n) dest drawn.1] }))
          ∧ (c.param 40 1 = 1 → ownsRange s n dest len = true → CleanRange s dest len → s.err.slots = [] →
            ∃ t, exec (.rngGenerate ring []) s = .next (okWith c len ((x.count + 1) % 2 ^ 32) t)
              ∧ Table.find t.rng.instances i = some drawn.2 ∧ (∀ k, k < len → cellAt t.mem.cells (dest + k) = drawn.1.getD k 0)
              ∧ (∀ a, ¬(dest ≤ a ∧ a < dest + len) → cellAt t.mem.cells a = cellAt s.mem.cells a)
              ∧ (∀ j, j ≠ i → Table.find t.rng.instances j = Table.find s.rng.instances j) ∧ t.rng.queue = s.rng.queue
              ∧ t.sct = s.sct ∧ t.rings = s.rings))
        ∧ (∀ (seed : List Byte) (rest : List (List Byte)) (alen : Nat), Begins s ring 0x0703 c → c.param 42 2 = alen → alen ≤ 256 →
          1 + (alen + 63) / 64 ≤ c.units → c.reserved [(28, 42), (44, 64)] = true → (sourceState s = .ok ∨ sourceState s = .low) →
          clientSeed s = true → s.rng.queue = seed :: rest →
          exec (.rngReseed ring) s = .next (okWith c 0 0 { s with rng := { s.rng with
            queue := rest, waitList := s.rng.waitList.filter (· ≠ i)
            instances := Table.put s.rng.instances i (x.reseed seed (sliceBytes c.bytes 64 alen)) } })
          ∧ (x.reseed seed (sliceBytes c.bytes 64 alen)).count = 0)
        ∧ (Begins s ring 0x0704 c → c.reserved [(28, 64)] = true →
          exec (.rngUninstantiate ring) s = .next (okWith c 0 0 { s with rng := { s.rng with
            instances := Table.drop s.rng.instances i, waitList := s.rng.waitList.filter (· ≠ i) } }))))
    ∧ (Begins s ring 0x0705 c → s.sealing.sealed = false →
        (c.param 24 1 = 1 → c.reserved [(25, 64)] = true → s.heat.slots = [] → s.rng.internalWaits = [] → s.rng.raw = false →
          exec (.rngRawMode ring) s = .next (okWith c 0 0 { s with rng := { s.rng with
            raw := true, queue := [], annuli := s.rng.annuli.map (fun e => (e.1, { e.2 with block := [] })) } }))
        ∧ (c.param 24 1 = 0 → c.reserved [(25, 64)] = true → s.rng.raw = true → s.rng.capture = none →
          ∃ r : Rng, exec (.rngRawMode ring) s = .next (okWith c 0 0 { s with rng := r })
            ∧ r.raw = false ∧ r.started = false ∧ r.probation = [] ∧ r.queue = s.rng.queue
            ∧ r.instances = s.rng.instances.map (fun e => (e.1, { e.2 with needReseed := true }))
            ∧ ∀ e ∈ r.annuli, e.2.state ≠ .healthy)
        ∧ (∀ a count : Nat, c.param 24 1 = 2 → c.param 25 1 = a → a < 32 → c.param 26 1 ≤ 1 → c.param 28 4 = count → 8 ≤ count →
          count ≤ 2 ^ 25 → count % 8 = 0 → c.param 32 8 % 4096 = 0 → c.reserved [(27, 28), (40, 64)] = true → s.rng.raw = true →
          (annulusOf s a).state = .healthy → s.rng.capture = none →
          let k : Capture := { serial := c.serial, annulus := a, values := decide (c.param 26 1 = 1), count := count, sector := n,
                               dest := c.param 32 8 }
          exec (.rngRawMode ring) s = .next (setPhase c.serial .running { s with rng := { s.rng with capture := some k } })))

def Obligations.RandomSource : Prop :=
  ∀ (s : State),
    (∀ (a b k : Nat) (x y : Annulus), k < 32 → x = annulusOf s k → (∀ j, j < 32 → j ≠ k → (annulusOf s j).state = .retired) →
      s.rng.capture = none → x.state = .healthy → x.sample (a.testBit k != b.testBit k) = (y, false) →
      let z : Annulus := if s.rng.raw then y else { y with block := y.block ++ [a.testBit k != b.testBit k] }
      exec (.annulusStrobe a b 0) s = .next { s with rng := { s.rng with annuli := Table.put s.rng.annuli k z } })
    ∧ (∀ (a : Nat) (x : Annulus), x = annulusOf s a →
        (x.block.length < 1024 ∨ s.rng.raw = true → exec (.rawBlockComplete a) s = .next s)
        ∧ (1024 ≤ x.block.length → s.rng.raw = false →
          let header := leBytes 1 a ++ padTo 7 [] ++ leBytes 8 x.blocks
          let p : Probation := { annulus := a, seed := padTo 48 (Config.sha384 (header ++ packBits 128 (x.block.take 1024))) }
          let y : Annulus := { x with block := x.block.drop 1024, blocks := x.blocks + 1 }
          exec (.rawBlockComplete a) s = .next { s with rng := { s.rng with
            annuli := Table.put s.rng.annuli a y, probation := s.rng.probation ++ [p] } }))
    ∧ (∀ (edges : List (Nat × Nat)) (k ea eb : Nat), k < 32 → (∀ j, j < 32 → j ≠ k → (annulusOf s j).state = .retired) →
        edges[k]? = some (ea, eb) → s.rng.capture = none → s.err.slots = [] → (annulusOf s k).state = .healthy →
        ((600 ≤ ea ∧ ea ≤ 2300) → (600 ≤ eb ∧ eb ≤ 2300) →
          ∃ r : Rng, exec (.aliveWindowClose edges) s = .next { s with rng := r } ∧ r.queue = s.rng.queue ∧ r.instances = s.rng.instances
            ∧ r.probation = s.rng.probation.map (fun p => if p.annulus = k then { p with alive := true } else p)
            ∧ (Table.getD r.annuli k {}).state = .healthy
            ∧ (Table.getD r.annuli k {}).lockWindows = if (annulusOf s k).lockWindows < 1024
                then (annulusOf s k).lockWindows + 1 else (annulusOf s k).lockWindows)
        ∧ (¬((600 ≤ ea ∧ ea ≤ 2300) ∧ (600 ≤ eb ∧ eb ≤ 2300)) →
          ∃ t, exec (.aliveWindowClose edges) s = .next t ∧ (annulusOf t k).state ≠ .healthy
            ∧ (annulusOf t k).failures = (annulusOf s k).failures + 1 ∧ (annulusOf t k).block = []
            ∧ (∀ p, p ∈ t.rng.probation ↔ p ∈ s.rng.probation ∧ p.annulus ≠ k) ∧ t.rng.queue = s.rng.queue ∧ t.mem = s.mem))
    ∧ (∀ (k : Nat) (x : Annulus), k < 32 → x = annulusOf s k → (∀ j, j ≠ k → (annulusOf s j).lockWindows < 1024) →
        1024 ≤ x.lockWindows → x.moved = true → s.rng.started = true →
        ∃ t, exec .lockBlockClose s = .next t ∧ (annulusOf t k).lockWindows = 0
          ∧ (annulusOf t k).state = (if x.state = .testing ∧ x.startup = true then .healthy else x.state)
          ∧ t.rng.probation = s.rng.probation.map (fun p => if p.annulus = k then { p with lock := true } else p)
          ∧ (∀ j, j ≠ k → annulusOf t j = annulusOf s j) ∧ t.rng.queue = s.rng.queue ∧ t.mem = s.mem)
    ∧ (∀ (pass : Bool) (p : Probation), s.rng.katFailed = false → s.rng.raw = false → s.err.slots = [] → s.rng.started = true →
        s.rng.probation.find? (fun p => p.alive && p.lock) = some p →
        (s.rng.katDone = true ∨ pass = true →
          exec (.seedLeavesProbation pass) s = .next (if 256 ≤ s.rng.queue.length then
              { s with rng := { s.rng with katDone := true, probation := s.rng.probation.erase p } }
            else bump { s with rng := { s.rng with katDone := true, probation := s.rng.probation.erase p,
                                                   queue := s.rng.queue ++ [p.seed] } } .rngSeedsMade))
        ∧ (s.rng.katDone = false → pass = false →
          ∃ t, exec (.seedLeavesProbation pass) s = .next t ∧ sourceState t = .failed ∧ t.rng.queue = s.rng.queue))
    ∧ (∀ (i : Nat) (x : Instance) (seed : List Byte) (rest : List (List Byte)) (ws : List Nat), s.rng.raw = false →
        Table.find s.rng.instances i = some x → s.rng.queue = seed :: rest →
        (s.rng.internalWaits = i :: ws →
          exec .seedToWaitingInstance s = .next { s with rng := { s.rng with
            queue := rest, internalWaits := ws, instances := Table.put s.rng.instances i (x.reseed seed []) } })
        ∧ (s.rng.internalWaits = [] → s.rng.waitList = i :: ws → clientSeed s = true →
          exec .seedToWaitingInstance s = .next { s with rng := { s.rng with
            queue := rest, waitList := (i :: ws).filter (· ≠ i), instances := Table.put s.rng.instances i (x.reseed seed []) } })
        ∧ (s.rng.internalWaits = [] → s.rng.waitList = i :: ws → clientSeed s = false → exec .seedToWaitingInstance s = .next s))
def Obligations.PairForming : Prop :=
  (∀ (s : State) (ring : Nat) (c : Cmd) (k : Nat), Begins s ring 0x0C01 c → c.param 24 1 < 64 → c.param 25 1 ≤ 7 → c.param 26 1 ≤ 15 →
    c.param 27 1 ≤ 1 → c.reserved [(36, 40), (56, 64)] = true → c.param 24 1 / 4 ≠ pkgNumber s / 4 →
    (rget s .chdPodMembers).testBit (c.param 24 1) = true → s.pair.state = .none → s.cad.configured = true → hasTable s 0 = true →
    Table.countIf s.rdma.qps (fun _ q => q.sector = 0) < (sectorOf s 0).qps → Table.firstFree s.rdma.qps 0 65536 = some k →
    ∃ t q, exec (.pairForm ring) s = .next (heatRow s (setPhase c.serial .running t))
      ∧ t.pair = { s.pair with state := .forming, twin := c.param 24 1, serial := some c.serial, resync := decide (c.param 27 1 = 1),
                               qp := some k }
      ∧ Table.find t.rdma.qps k = some q ∧ q.kind = 1 ∧ q.state = 3 ∧ q.port = c.param 25 1 ∧ q.qkey = heartbeatKey
      ∧ (∀ j, j ≠ k → Table.find t.rdma.qps j = Table.find s.rdma.qps j)
      ∧ (linkOf t 10).pairMode = true ∧ (linkOf t 11).pairMode = true
      ∧ (s.chord.transfers = [] → s.chord.folds = [] → s.chord.tree = [] → t.mem = s.mem ∧ t.sct = s.sct ∧ t.heat = s.heat))
  ∧ (∀ (s : State) (link : Nat) (msg : SysMsg),
      match takePacket link 8 [] s with
      | none => exec (.system link msg []) s = .next (pairRow s s)
      | some (p, u) =>
        (bitsOf p.dest 46 6 ≠ pkgNumber u → exec (.system link msg []) s = .next (pairRow s (forwardPacket p u)))
        ∧ (bitsOf p.dest 46 6 = pkgNumber u →
          (∀ failed succ heat, msg = .substitution failed succ heat →
            exec (.system link msg []) s = .next (pairRow s (applySubstitution failed succ heat u)))
          ∧ (∀ (side : Bool) (qpn n : Nat), msg = .pairHello (pkgNumber u) side qpn → u.pair.state = .forming → u.pair.serial = some n →
              side ≠ u.rst.straps.pairSide → u.pair.resync = false →
              ∃ t, exec (.system link msg []) s = .next (pairRow s t)
                ∧ t.pair = { u.pair with state := .formed, twinQpn := qpn, serial := none }
                ∧ (∀ r, ∀ c ∈ (ringOf u r).inflight, c.serial = n → c.phase = .running →
                    { c with phase := .done 0 0 0 } ∈ (ringOf t r).inflight) ∧ t.mem = u.mem ∧ t.sct = u.sct)))
  ∧ (∀ (s : State) (n : Nat), s.pair.state = .forming → s.pair.serial = some n → s.heat.slots = [] → s.pair.moves = [] →
      ∃ t, exec .formWaitExpiry s = .next (heatRow s t) ∧ t.pair = {} ∧ (linkOf t 10).pairMode = false ∧ (linkOf t 11).pairMode = false
        ∧ (∀ r, ∀ c ∈ (ringOf s r).inflight, c.serial = n → c.phase = .running →
            { c with phase := .done 0x0403 0 0 } ∈ (ringOf t r).inflight)
        ∧ (s.chord.transfers = [] → s.chord.folds = [] → s.chord.tree = [] → t.mem = s.mem ∧ t.sct = s.sct))
  ∧ (∀ (s : State) (ring : Nat) (c : Cmd), Begins s ring 0x0C10 c → c.reserved [(24, 64)] = true → s.heat.slots = [] →
      (s.pair.state = .none → exec (.pairBreak ring) s = .next (heatRow s (okWith c 0 0 s)))
      ∧ (s.pair.state ≠ .none → s.pair.state ≠ .forming → s.pair.moves = [] → s.pair.serial = none →
        ∃ t, exec (.pairBreak ring) s = .next (heatRow s (okWith c 0 0 t)) ∧ t.pair = {} ∧ t.pins.fenceReq = false
          ∧ (linkOf t 10).pairMode = false ∧ (linkOf t 11).pairMode = false
          ∧ (∀ k, Table.find t.rdma.qps k = if s.pair.qp = some k then none else Table.find s.rdma.qps k)
          ∧ (s.chord.transfers = [] → s.chord.folds = [] → s.chord.tree = [] → t.mem = s.mem ∧ t.sct = s.sct)))
  ∧ (∀ (s : State) (link : Nat) (flit : List Byte), s.heat.slots = [] →
      match otherFlit link 3 flit s with
      | none => exec (.heartbeat link flit) s = .next (heatRow s s)
      | some (payload, u) =>
        ((linkOf u link).pairMode = false ∨ pairLive u = false → exec (.heartbeat link flit) s = .next (heatRow s u))
        ∧ ((linkOf u link).pairMode = true → fieldLE payload 8 1 ≠ 7 →
          (u.pair.state = .formed → exec (.heartbeat link flit) s = .next (heatRow s { u with pair := { u.pair with heardLink := true } }))
          ∧ (u.pair.state = .suspect →
              exec (.heartbeat link flit) s
                = .next (heatRow s (enterPair .formed { u with pair := { u.pair with heardLink := true } }))
              ∧ (enterPair .formed { u with pair := { u.pair with heardLink := true } }).pair.state = .formed)))
  ∧ (∀ (s : State) (p : RocePacket) (now k : Nat) (q : Qp), s.heat.slots = [] → s.pair.state = .formed → s.pair.qp = some k →
      p.op = .send true true none → p.valid = true → qpFind s p.dest = some (k, q) → (q.state = 2 ∨ q.state = 3 ∨ q.state = 4) →
      p.qkey = heartbeatKey → p.payload.length = 16 → fieldBE p.payload 8 1 = s.pair.twin → fieldBE p.payload 9 1 ≠ 7 →
      ∃ t, exec (.pairHeartbeat p now) s = .next (heatRow s t) ∧ t.pair = { s.pair with heardEth := true } ∧ t.mem = s.mem
        ∧ t.sct = s.sct ∧ t.rings = s.rings ∧ t.heat = s.heat)
  ∧ (∀ (s : State) (now : Nat), s.cad.configured = true → s.cad.origin ≤ now → s.cad.stroke < strokeAt s.cad now → s.cad.stepHold = none →
      s.cad.marks = [] →
      ∃ t, exec (.strokeBoundary now) s = .next t ∧ t.cad.stroke = strokeAt s.cad now ∧ t.cad.timeNs = max now s.cad.timeNs
        ∧ t.cad.marks = [] ∧ t.mem = s.mem ∧ t.sct = s.sct
        ∧ (pairLive s = false → t.pair = s.pair)
        ∧ (pairLive s = true → t.pair = { s.pair with
            heardLink := false, heardEth := false, misses := if s.pair.heardLink then 0 else s.pair.misses + 1,
            ethMisses := if s.pair.heardEth then 0 else s.pair.ethMisses + 1 }))

def Obligations.PairLoss : Prop :=
  (∀ s : State, s.pair.state = .formed →
    (linkSilent s (missLimit s) = false → exec .missLimitReached s = .next (heatRow s s))
    ∧ (linkSilent s (missLimit s) = true → ethSilent s (missLimit s) = false →
        exec .missLimitReached s = .next (heatRow s (enterPair .suspect s)) ∧ (enterPair .suspect s).pair = { s.pair with state := .suspect })
    ∧ (linkSilent s (missLimit s) = true → ethSilent s (missLimit s) = true → (shadowSlots s = [] ∨ s.pins.fenceConf = false) →
        ∃ t, exec .missLimitReached s = .next (heatRow s t) ∧ t.mem = s.mem ∧ t.sct = s.sct ∧ t.rings = s.rings
          ∧ countedOne t s .pairSelfFences
          ∧ (shadowSlots s = [] → t.pair = { s.pair with state := .selfFenced } ∧ t.pins.fenceReq = s.pins.fenceReq)
          ∧ (shadowSlots s ≠ [] → t.pair = { s.pair with state := .fencing } ∧ t.pins.fenceReq = true ∧ countedOne t s .pairFences)
          ∧ (∀ e ∈ t.heat.slots, e.2.role ≠ 2 → e.2.mirrored = true → e.2.stopped = true)
          ∧ (∀ k, k ∉ strokeSlots s → Table.find t.heat.slots k = Table.find s.heat.slots k)))
  ∧ (∀ (s : State) (on : Bool), (s.pair.state ≠ .fencing ∨ on = false) →
      exec (.pairFenceConf on) s = .next (heatRow s { s with pins := { s.pins with fenceConf := on } }))
  ∧ (∀ (s : State) (row : Instr) (k : Nat) (h : HeatSlot), s.pair.state = .fencing → s.heat.slots = [(k, h)] → h.role = 2 → h.opening = none →
      h.complete = [] →
      (h.phase = 7 ∨ (1 ≤ h.phase ∧ h.phase ≤ 6 ∧ s.cad.stroke < h.deadline h.phase ∧ h.got = [])) → s.pair.moves = [] → s.pair.serial = none →
      (row = .pairFenceConf true ∨ (row = .graceExpiry ∧ ethSilent s (missLimit s + graceStrokes s) = true)) →
      ∃ t, exec row s = .next (heatRow s t) ∧ t.pair.state = .solo ∧ t.pair.byGrace = decide (row = .graceExpiry)
        ∧ (slotOf t k).role = h.strokeRole ∧ (slotOf t k).mirrored = false ∧ countedOne t s .pairTakeovers 0
        ∧ Table.find t.chord.successor s.pair.twin = some (pkgNumber s) ∧ t.sct = s.sct)
  ∧ (∀ s : State, (s.pair.state ≠ .fencing ∨ ethSilent s (missLimit s + graceStrokes s) = false) →
      exec .graceExpiry s = .next (heatRow s s))
  ∧ (∀ (s : State) (ring : Nat) (c : Cmd) (id : Nat), Begins s ring 0x0C02 c → c.reserved [(32, 64)] = true → c.param 24 8 = id →
      s.pair.state = .formed →
      (movable s id ≠ [] ∨ id = 0 →
        ∃ t, exec (.pairTakeover ring) s = .next (pairRow s (setPhase c.serial .running t))
          ∧ t.pair = { s.pair with moves := Table.put s.pair.moves c.serial 0 }
          ∧ (∀ k ∈ movable s id, (slotOf s k).moving = none → (slotOf t k).moving = some c.serial)
          ∧ (∀ k, k ∉ movable s id → slotOf t k = slotOf s k) ∧ t.mem = s.mem ∧ t.sct = s.sct ∧ t.rings = s.rings)
      ∧ (movable s id = [] → id ≠ 0 → (shadowOf s id).isSome = true →
        ∃ t, exec (.pairTakeover ring) s = .next (pairRow s (setPhase c.serial .running t))
          ∧ t.pair = { s.pair with moves := Table.put s.pair.moves c.serial 0, asked := s.pair.asked ++ [(id, c.serial)] }
          ∧ t.heat = s.heat ∧ t.mem = s.mem ∧ t.sct = s.sct))
  ∧ (∀ (s : State) (ring : Nat) (c : Cmd), Begins s ring 0x0C03 c → c.reserved [(24, 64)] = true →
      (∀ e ∈ s.heat.slots, e.2.role = 2 ∨ e.2.mirrored = true) →
      (s.pair.state = .solo →
        ∃ t, exec (.trayDetach ring) s = .next (pairRow s (okWith c 0 0 t)) ∧ t.pair = { s.pair with state := .detached, serial := none }
          ∧ t.pins = { s.pins with trayReady := true } ∧ (linkOf t 10).pairMode = false ∧ (linkOf t 11).pairMode = false
          ∧ (∀ e ∈ s.sct.sectors, e.2.state = .active → Table.getD t.rings.held e.1 0 &&& 31 = 31)
          ∧ ((∀ e ∈ s.sct.sectors, e.2.state ≠ .active) → s.chord.transfers = [] → s.chord.folds = [] → s.chord.tree = [] →
              t.mem = s.mem ∧ t.heat = s.heat ∧ t.sct = s.sct))
      ∧ (s.pair.state = .formed → s.pair.serial = none →
        ∃ t, exec (.trayDetach ring) s = .next (pairRow s (setPhase c.serial .running t))
          ∧ t.pair = { s.pair with serial := some c.serial }
          ∧ (∀ k ∈ movable s 0, (slotOf s k).moving = none → (slotOf t k).moving = some c.serial)
          ∧ (∀ k, k ∉ movable s 0 → slotOf t k = slotOf s k) ∧ t.mem = s.mem ∧ t.sct = s.sct ∧ t.rings = s.rings))
def Obligations.MemoryMoves : Prop :=
  (∀ (s : State) (ring : Nat) (c : Cmd), Begins s ring 0x0310 c → c.reserved [(36, 64)] = true → c.param 32 4 ≤ 512 →
    (c.param 32 4 = 0 ∨ (c.param 24 8 % 8 = 0 ∧ ownsRange s (c.ring / 64) (c.param 24 8) (8 * c.param 32 4) = true)) →
    let gone := fun (d : Cached) => decide (d.sector = c.ring / 64) && (decide (c.param 32 4 = 0)
      || (decide (c.param 24 8 ≤ d.entryDpa) && decide (d.entryDpa < c.param 24 8 + 8 * c.param 32 4)))
    exec (.memInvalidate ring) s = .next (okWith c 0 0 { s with mem := { s.mem with
      caches := s.mem.caches.map (fun e => (e.1, e.2.filter (fun d => !gone d))) } }))
  ∧ (∀ (s : State) (ring : Nat) (c : Cmd) (n : Nat), n = c.ring / 64 → (Table.getD s.rings.held n 0).testBit 3 = false → s.mover = [] →
      (∀ src dst : Nat, Begins s ring 0x0311 c → c.param 24 1 = 0 → c.param 25 1 = 1 → c.reserved [(48, 64)] = true → 2 ≤ c.units →
        c.param 64 8 = src → c.param 72 8 = dst → c.param 80 8 = 0 → src % pageSize = 0 → dst % pageSize = 0 →
        ((src < 0x008000000000 ∧ 0x010000000000 ≤ dst ∧ ownsRange s n src pageSize = true ∧ inFarRange s n dst pageSize = true
            ∧ holdsHeat s src pageSize = false ∧ farReady s dst = true)
          ∨ (dst < 0x008000000000 ∧ 0x010000000000 ≤ src ∧ ownsRange s n dst pageSize = true ∧ inFarRange s n src pageSize = true
            ∧ holdsHeat s dst pageSize = false ∧ farReady s src = true)) →
        let m : Mover := { serial := c.serial, sector := n, job := .explicit [(src, dst, 0)], begun := true, moving := true }
        exec (.tierMove ring []) s = .next (setPhase c.serial .running { s with mover := [m] }))
      ∧ (∀ base size : Nat, Begins s ring 0x0312 c → c.param 24 8 = base → c.param 32 8 = size → base % 64 = 0 → size % 64 = 0 →
          size ≤ 2 ^ 30 → c.reserved [(40, 64)] = true → ownsRange s n base size = true → (size = 0 ∨ holdsHeat s base size = false) →
          let m : Mover := { serial := c.serial, sector := n, job := .zero base size, begun := true }
          exec (.memZero ring) s = .next (if size = 0 then okWith c 0 0 s else setPhase c.serial .running { s with mover := [m] }))
      ∧ (∀ base size k : Nat, Begins s ring 0x0313 c → c.param 24 8 = base → c.param 32 8 = size → c.param 40 1 = k → k ≤ 7 →
          base % pageSize = 0 → size % pageSize = 0 → c.reserved [(41, 64)] = true →
          (size = 0 ∨ (farRange s base size = true ∧ farPage s base + size / pageSize ≤ usablePages s
            ∧ farReady s base = true ∧ farReady s (base + size - 1) = true)) →
          (size = 0 ∨ ∀ e ∈ s.mem.far, e.1 = k ∨ overlaps base size e.2.1 e.2.2 = false) →
          let m : Mover := { serial := c.serial, sector := n, job := .farAssign k base size [], begun := true }
          exec (.farAssign ring) s = .next (setPhase c.serial .running { s with mem := { s.mem with farFixed := true }, mover := [m] })))
  ∧ (∀ (s : State) (m : Mover) (src dst pte : Nat), s.mover = [m] → m.job = .explicit [(src, dst, pte)] → m.entry = 0 → m.begun = true →
      m.moving = true → m.held = false → m.yielded = false → m.pages = 0 → m.poisoned = 0 → s.err.slots = [] → s.sealing.sealed = false →
      src % pageSize = 0 → dst % pageSize = 0 → ((src < 0x008000000000 ∧ 0x010000000000 ≤ dst) ∨ (dst < 0x008000000000 ∧ 0x010000000000 ≤ src)) →
      memoryCanonical s = true →
      (pte = 0 ∨ (pte % 8 = 0 ∧ isMemory s pte = true ∧ isMemory s (pte + 7) = true ∧ poisonedAt s pte = false
        ∧ ¬(dst ≤ pte ∧ pte < dst + pageSize))) →
      ∃ t, exec (.pageMoveEnd false [] []) s = .next (finish m.serial stOk 1 (poisonIn s src).length t) ∧ t.mover = []
        ∧ (∀ o, o < pageSize → (pte = 0 ∨ (dst + o) / 8 ≠ pte / 8) → cellAt t.mem.cells (dst + o) = cellAt s.mem.cells (src + o))
        ∧ (∀ a, ¬(dst ≤ a ∧ a < dst + pageSize) → (pte = 0 ∨ a / 8 ≠ pte / 8) → cellAt t.mem.cells a = cellAt s.mem.cells a)
        ∧ (∀ l, l ∈ t.mem.poison ↔ (if dst / 64 ≤ l ∧ l < (dst + pageSize) / 64 then l - dst / 64 + src / 64 ∈ s.mem.poison
            else l ∈ s.mem.poison))
        ∧ (pte ≠ 0 → word64 t pte = setBits (setBits (setBits (word64 s pte) 12 34 (dst / 4096)) 4 1
            (bitNat (decide (src < 0x008000000000)))) 5 1 0 ∧ ∀ e ∈ t.mem.caches, ∀ d ∈ e.2, d.entryDpa ≠ pte)
        ∧ t.sct = s.sct)
  ∧ (∀ (s : State) (m : Mover), s.mover = [m] → m.begun = true → m.held = false → m.yielded = false →
      (∀ base size : Nat, m.job = .zero base size → m.bytes = 0 → (Table.getD s.rings.held m.sector 0).testBit 3 = false →
        exec .tierMoverFillEnd s = .next (finish m.serial stOk size 0 (zeroFill { s with mover := [] } base size)))
      ∧ (∀ k base size : Nat, ∀ x, m.job = .farAssign k base size x → s.sealing.sealed = false → size % pageSize = 0 →
          ∃ t, exec .tierMoverFillEnd s = .next (finish m.serial stOk 0 0 t) ∧ t.mover = []
            ∧ (size = 0 → Table.find t.mem.far k = none) ∧ (size ≠ 0 → Table.find t.mem.far k = some (base, size))
            ∧ (∀ j, j ≠ k → Table.find t.mem.far j = Table.find s.mem.far j)
            ∧ (∀ a, base ≤ a → a < base + size → (∀ o z, Table.find s.mem.far k = some (o, z) → ¬(o ≤ a ∧ a < o + z)) →
                ((∀ o z, Table.find s.mem.far k = some (o, z) → o % pageSize = 0 ∧ z % pageSize = 0) → base % pageSize = 0 →
                  cellAt t.mem.cells a = 0 ∧ a / 64 ∉ t.mem.poison))
            ∧ (∀ a, ¬(base ≤ a ∧ a < base + size) → cellAt t.mem.cells a = cellAt s.mem.cells a) ∧ t.sct = s.sct))
  ∧ (∀ (s : State) (p : Nat), p < 2 →
      ((cxlOf s p).state = 0 → exec (.cxlMemTimeout p) s = .next s ∧ ∀ f, exec (.cxlPortOffline p f) s = .next s)
      ∧ ((cxlOf s p).state ≠ 0 →
        ((cxlOf s p).timeouts + 1 < 3 → exec (.cxlMemTimeout p) s
          = .next (setCxl p { cxlOf s p with timeouts := (cxlOf s p).timeouts + 1 } s))
        ∧ (∀ (row : Instr) (cause : Nat), s.mover = [] →
            ((row = .cxlPortOffline p true ∧ cause = 5) ∨ (row = .cxlPortOffline p false ∧ cause = 4)
              ∨ (row = .cxlMemTimeout p ∧ 3 ≤ (cxlOf s p).timeouts + 1 ∧ cause = 6)) →
            ∃ t, exec row s = .next t ∧ (cxlOf t p).state = 0 ∧ (cxlOf t p).cause = cause ∧ cxlOf t (1 - p) = cxlOf s (1 - p)
              ∧ t.mem = { s.mem with farOnline := if p = 0 then (false, s.mem.farOnline.2) else (s.mem.farOnline.1, false) }
              ∧ t.sealing = { s.sealing with scrubPartial := s.sealing.scrub || s.sealing.scrubPartial } ∧ t.sct = s.sct ∧ t.rings = s.rings)))
def Obligations.ContextCommands : Prop :=
  ∀ (s : State) (ring : Nat) (c : Cmd) (n x : Nat), n = c.ring / 64 →
    (Begins s ring 0x0402 c → c.reserved [(32, 64)] = true → c.param 24 8 % 4096 = 0 → ownsRange s n (c.param 24 8) 4096 = true →
      Table.firstFree s.scl.contexts (n * 64) 60 = some x →
      exec (.contextCreate ring) s = .next (okWith c x 0
        { s with scl := { s.scl with contexts := Table.put s.scl.contexts x { root := c.param 24 8 } } })
      ∧ n * 64 ≤ x ∧ x < n * 64 + 60)
    ∧ (∀ k : Context, c.param 24 4 = x → x < 512 → x / 64 = n → x % 64 < 60 → ctxOf s x = some k → c.reserved [(28, 64)] = true →
      (Begins s ring 0x0410 c → launchesOf s x = [] →
        exec (.contextDestroy ring) s = .next (okWith c 0 0 { s with
          scl := { s.scl with contexts := Table.drop s.scl.contexts x },
          mem := { s.mem with caches := s.mem.caches.map (fun e => (e.1, e.2.filter (fun d => d.ctx ≠ x))) } }))
      ∧ (Begins s ring 0x0411 c → k.killed = none →
        ∃ t kill, exec (.contextKill ring) s = .next (setPhase c.serial .running t)
          ∧ ctxOf t x = some { k with dying := some kill, waiters := k.waiters ++ [c.serial] }
          ∧ (k.dying = none → kill.cause = 9) ∧ (∀ d, k.dying = some d → kill = d)
          ∧ (∀ y, y ≠ x → ctxOf t y = ctxOf s y) ∧ t.scl.launches = s.scl.launches ∧ t.scl.crews = s.scl.crews ∧ t.mem = s.mem
          ∧ t.sct = s.sct ∧ t.rings = s.rings))
    ∧ (∀ (k : Context) (crews vregs lb eights : Nat), Begins s ring 0x0401 c → c.param 24 4 = x → x < 512 → x / 64 = n → x % 64 < 60 →
      c.param 28 1 = bitNat (sectorOf s n).distance → c.param 29 1 = crews → 1 ≤ crews → crews ≤ 32 → c.param 30 2 = vregs → 4 ≤ vregs →
      vregs ≤ 256 → vregs % 4 = 0 → c.param 32 8 % 256 = 0 → 1 ≤ c.param 48 4 → c.param 48 4 ≤ 2 ^ 24 → c.param 52 4 = lb → lb ≤ 262144 →
      lb % 256 = 0 → c.param 60 4 ≤ 3600000 → fitsEmpty (sectorOf s n).distance crews vregs lb = true → c.param 56 4 = eights →
      eights &&& ownedMask s.sct.eights n = eights → ctxOf s x = some k → k.killed = none → k.dying = none →
      (ownedMask s.sct.eights n = 0
        ∨ ∃ e ∈ bitList 32 (if eights = 0 then ownedMask s.sct.eights n else eights), gateOpen s 1 e = true) →
      Table.countIf s.scl.launches (fun _ l => l.ctx / 64 = n && l.next = 0) < 1024 →
      let l : Launch := { serial := c.serial, ctx := x, distance := (sectorOf s n).distance, crews := crews, vregs := vregs,
                          entry := c.param 32 8, arg := c.param 40 8, groups := c.param 48 4, localBytes := lb, eights := eights,
                          timeoutMs := c.param 60 4 }
      exec (.launch ring) s = .next (setPhase c.serial .running { s with
        scl := { s.scl with launches := Table.put s.scl.launches s.scl.nextAge l, nextAge := s.scl.nextAge + 1 } }))

def Obligations.ContextEvents : Prop :=
  (∀ (s : State) (n a j : Nat) (l : Launch),
    findPlace s (s.scl.launches.filter (fun e => e.2.ctx / 64 = n && unplaced s e.2)) [] = some (a, l, j) → 1 ≤ l.crews → l.crews ≤ 32 →
    ∃ t off, exec (.groupPlacement n) s = .next t ∧ (freeLocal s j l.localBytes = some off ∨ (freeLocal s j l.localBytes = none ∧ off = 0))
      ∧ Table.find t.scl.groups s.scl.nextGroup = some { age := a, number := l.next, scull := j, localOff := off }
      ∧ t.scl.nextGroup = s.scl.nextGroup + 1 ∧ t.scl.nextCrew = s.scl.nextCrew + l.crews
      ∧ Table.find t.scl.launches a = some { l with next := l.next + 1, lastScull := some j }
      ∧ (∀ k, k < l.crews → ∃ c, Table.find t.scl.crews (s.scl.nextCrew + k) = some c ∧ c.group = s.scl.nextGroup ∧ c.number = k
          ∧ c.pc = l.entry ∧ c.half = (if l.distance then k % 2 else 0) ∧ c.tokens = 0 ∧ c.loads = [] ∧ c.p = []
          ∧ c.ended = false ∧ c.atBarrier = false
          ∧ (∀ t', t' < (if l.distance then 64 else 32) → (readV c 0 t').toNat = k * (if l.distance then 64 else 32) + t')
          ∧ (∀ r t', 1 ≤ r → t' < 64 → readV c r t' = 0) ∧ readS c 0 = l.arg % 2 ^ 64 ∧ readS c 1 = l.next % 2 ^ 64
          ∧ readS c 2 = (k + l.crews * 2 ^ 32) % 2 ^ 64 ∧ readS c 3 = l.groups % 2 ^ 64 ∧ (∀ r, 4 ≤ r → readS c r = 0))
      ∧ (∀ b, b < l.localBytes → cellAt t.mem.cells (0x080040000000 + j * 0x40000 + off + b) = 0)
      ∧ (∀ b, ¬(0x080040000000 + j * 0x40000 + off ≤ b ∧ b < 0x080040000000 + j * 0x40000 + off + l.localBytes) →
          cellAt t.mem.cells b = cellAt s.mem.cells b) ∧ t.sct = s.sct ∧ t.rings = s.rings)
  ∧ (∀ (s : State) (a : Nat) (l : Launch) (x : Context), Table.find s.scl.launches a = some l → ctxOf s l.ctx = some x →
      ((l.timeoutMs = 0 ∨ l.next = 0) → exec (.launchTimeout a) s = .next s)
      ∧ (l.timeoutMs ≠ 0 → l.next ≠ 0 → x.dying = none → x.killed = none →
          ∃ t, exec (.launchTimeout a) s = .next t ∧ ctxOf t l.ctx = some { x with dying := some { cause := 7 } }
            ∧ (∀ y, y ≠ l.ctx → ctxOf t y = ctxOf s y) ∧ t.scl.launches = s.scl.launches ∧ t.mem = s.mem ∧ t.rings = s.rings))
  ∧ (∀ (s : State) (x : Nat) (c : Context) (k : Kill), ctxOf s x = some c → c.dying = some k → s.sct.cmd = none →
      ∃ t, exec (.killComplete x) s = .next t
        ∧ ctxOf t x = some { c with dying := none, killed := some k.cause, waiters := [] } ∧ (∀ y, y ≠ x → ctxOf t y = ctxOf s y)
        ∧ (∀ a, a ∈ launchesOf s x → Table.find t.scl.launches a = none)
        ∧ (∀ i, ∀ e ∈ (ringOf s i).inflight, e.phase = .running →
            ((∃ a l, Table.find s.scl.launches a = some l ∧ l.ctx = x ∧ e.serial = l.serial) →
              { e with phase := .done 0x0503 (k.cause + k.scull * 2 ^ 8 + k.group * 2 ^ 32) k.va } ∈ (ringOf t i).inflight)
            ∧ (e.serial ∈ c.waiters → (∀ a l, Table.find s.scl.launches a = some l → e.serial ≠ l.serial) →
              { e with phase := .done 0 0 0 } ∈ (ringOf t i).inflight))
        ∧ t.mem = s.mem ∧ t.sct = s.sct)
  ∧ (∀ (s : State) (j elapsed : Nat) (d : Descriptor) (rest : List Descriptor) (c : Crew) (g : Group) (l : Launch),
      matrixQueue s j = d :: rest → Table.find s.scl.crews d.crew = some c → Table.find s.scl.groups c.group = some g →
      Table.find s.scl.launches g.age = some l → s.err.slots = [] → s.err.running = [] →
      (d.ok l.localBytes = false → exec (.descriptorComplete j elapsed []) s = .next (descriptorKill d g l c 6 0 s))
      ∧ (∀ base : Nat, d.ok l.localBytes = true → d.aGlobal = false → d.bGlobal = false → c.ended = false →
          base = 0x080040000000 + g.scull * 0x40000 + g.localOff → base % 64 = 0 → CleanRange s (base + d.aAddr) d.aBytes →
          CleanRange s (base + d.bAddr) d.bBytes → CleanRange s (base + d.dOff) d.dBytes →
          let a := fun (r k : Nat) => leNat (peek s (base + d.aAddr + (r * d.k + k) * typeBytes d.aType) (typeBytes d.aType))
          let b := fun (r k : Nat) => leNat (peek s (base + d.bAddr + (r * d.k + k) * typeBytes d.bType) (typeBytes d.bType))
          let old := fun (r q : Nat) => if d.accumulate then leNat (peek s (base + d.dOff + (r * d.n + q) * 4) 4) else 0
          ∃ t, exec (.descriptorComplete j elapsed []) s = .next t
            ∧ (∀ r q, r < d.m → q < d.n →
                let out := leNat (peek t (base + d.dOff + (r * d.n + q) * 4) 4)
                if typeClass d.aType = 1 then
                  (out : Int) = ((old r q : Int) + ((List.range d.k).map (fun k =>
                    elementInt d.aType (a r k) * elementInt d.bType (b q k))).sum) % (2 ^ 32 : Nat)
                else out = (List.range (d.k / 32)).foldl (fun run blk => f32.round (((List.range 32).map (fun k =>
                    (elementFp d.aType (a r (blk * 32 + k))).mul (elementFp d.bType (b q (blk * 32 + k))))).foldl Fp.add
                      (f32.value run))) (old r q))
            ∧ matrixQueue t j = rest ∧ (∀ i, i ≠ j → matrixQueue t i = matrixQueue s i)
            ∧ (∃ y, Table.find t.scl.crews d.crew = some y ∧ y = { c with tokens := y.tokens }
                ∧ ∀ k, y.tokens.testBit k = (decide (k ≠ d.token) && c.tokens.testBit k))
            ∧ (∀ x, ¬(base + d.dOff ≤ x ∧ x < base + d.dOff + d.dBytes) → cellAt t.mem.cells x = cellAt s.mem.cells x)
            ∧ t.sct = s.sct ∧ t.rings = s.rings))
def Obligations.RdmaTables : Prop :=
  ∀ (s : State) (ring : Nat) (c : Cmd) (n : Nat), n = c.ring / 64 →
    (∀ g k : Nat, Begins s ring 0x0810 c → c.reserved [(29, 64)] = true → c.param 24 4 = g → c.param 28 1 = k → k < 8 →
      (g < 512 → Table.find s.sct.hbm g = some k → hbmPooled s (fun _ => true) g = false → Table.find s.rdma.tables k = none →
        exec (.rdmaTableSet ring) s = .next (okWith c 0 0
          { zeroFill s (g * 2 ^ 30) (2 ^ 30) with rdma := { s.rdma with tables := Table.put s.rdma.tables k g } }))
      ∧ (g = 0xFFFFFFFF → (∀ e ∈ s.rdma.qps, e.2.sector ≠ k) → (∀ e ∈ s.rdma.pds, e.2 ≠ k) → (∀ e ∈ s.rdma.keys, e.1 / 2 ^ 20 ≠ k) →
        exec (.rdmaTableSet ring) s = .next (okWith c 0 0 { s with rdma := { s.rdma with tables := Table.drop s.rdma.tables k } })))
    ∧ (∀ pd : Nat, Begins s ring 0x0811 c → c.reserved [(24, 64)] = true → (Table.find s.rdma.tables n).isSome = true →
        Table.countIf s.rdma.pds (fun _ m => m = n) < (sectorOf s n).pds → Table.firstFree s.rdma.pds 0 4096 = some pd →
        exec (.pdAlloc ring) s = .next (okWith c pd 0 { s with rdma := { s.rdma with pds := Table.put s.rdma.pds pd n } }))
    ∧ (∀ pd : Nat, Begins s ring 0x0812 c → c.reserved [(28, 64)] = true → c.param 24 4 = pd → pd < 4096 →
        Table.find s.rdma.pds pd = some n → (∀ e ∈ s.rdma.qps, e.2.pd ≠ pd) → (∀ e ∈ s.rdma.keys, e.2.pd ≠ pd) →
        exec (.pdFree ring) s = .next (okWith c 0 0 { s with rdma := { s.rdma with pds := Table.drop s.rdma.pds pd } }))
    ∧ (∀ (i pd : Nat), (Table.find s.rdma.tables n).isSome = true → pd < 4096 → Table.find s.rdma.pds pd = some n →
        keysUsed s n < rfield s .rdmaMrQuota n 0 21 → Table.firstFree s.rdma.keys (n * 2 ^ 20) (rfield s .rdmaMrQuota n 0 21) = some i →
        (∀ (kind access len : Nat), Begins s ring 0x0813 c → c.reserved [(51, 52), (56, 64)] = true → c.param 52 4 = pd →
          c.param 32 8 = len → 1 ≤ len → len ≤ 2 ^ 40 → c.param 48 1 = kind → c.param 49 1 = access → access < 32 →
          (access.testBit 2 = true → access.testBit 0 = true) →
          ((kind = 1 ∧ access.testBit 3 = false ∧ s.sealing.sealed = false)
            ∨ (kind = 0 ∧ rdmaMemory s n (c.param 40 8) len = true
              ∧ (access.testBit 3 = true → ownsFree s n (c.param 40 8) len = true ∧ access.testBit 0 = true))) →
          let k : RdmaKey := { variant := c.param 50 1, pd := pd, host := decide (kind = 1), iova := c.param 24 8, len := len,
                               target := c.param 40 8, access := access }
          exec (.mrRegister ring) s = .next (okWith c (c.param 50 1 + i % 2 ^ 20 * 2 ^ 8 + n * 2 ^ 28) 0
            { s with rdma := { s.rdma with keys := Table.put s.rdma.keys i k } }))
        ∧ (Begins s ring 0x0815 c → c.reserved [(29, 64)] = true → c.param 24 4 = pd →
          let k : RdmaKey := { variant := c.param 28 1, pd := pd, window := true }
          exec (.mwAlloc ring) s = .next (okWith c (c.param 28 1 + i % 2 ^ 20 * 2 ^ 8 + n * 2 ^ 28) 0
            { s with rdma := { s.rdma with keys := Table.put s.rdma.keys i k } })))
    ∧ (∀ (key i : Nat) (k : RdmaKey), c.param 24 4 = key → c.reserved [(28, 64)] = true → bitsOf key 28 4 = n →
        i = n * 2 ^ 20 + bitsOf key 8 20 → Table.find s.rdma.keys i = some k → k.variant = key % 256 →
        (Begins s ring 0x0814 c → k.window = false → (∀ e ∈ s.rdma.keys, ∀ b, e.2.bound = some b → b.2 ≠ key) →
          exec (.mrDeregister ring) s = .next (okWith c 0 0 { s with rdma := { s.rdma with keys := Table.drop s.rdma.keys i } }))
        ∧ (Begins s ring 0x0816 c → k.window = true →
          exec (.mwFree ring) s = .next (okWith c 0 0 { s with rdma := { s.rdma with keys := Table.drop s.rdma.keys i } })))

def Obligations.RdmaQueuePairs : Prop :=
  (∀ (s : State) (ring : Nat) (c : Cmd) (n : Nat), n = c.ring / 64 →
    (∀ (k kind pd : Nat), Begins s ring 0x0817 c → c.reserved [(36, 64)] = true → c.param 28 1 = kind → kind ≤ 2 → c.param 29 1 ≤ 7 →
      1 ≤ c.param 32 2 → c.param 32 2 ≤ 4096 → 1 ≤ c.param 34 2 → c.param 34 2 ≤ 4096 →
      ((kind = 2 ∧ c.param 30 1 = 0 ∧ c.param 31 1 = 0 ∧ ingressCount s < 1024) ∨ (kind ≠ 2 ∧ 1 ≤ c.param 30 1 ∧ c.param 30 1 ≤ 63
        ∧ 1 ≤ c.param 31 1 ∧ c.param 31 1 ≤ 63 ∧ c.param 30 1 ≠ c.param 31 1)) →
      c.param 24 4 = pd → pd < 4096 → Table.find s.rdma.pds pd = some n → (Table.find s.rdma.tables n).isSome = true →
      Table.countIf s.rdma.qps (fun _ q => q.sector = n) < (sectorOf s n).qps → Table.firstFree s.rdma.qps 0 65536 = some k →
      let q : Qp := { sector := n, pd := pd, kind := kind, port := c.param 29 1, sqRing := c.param 30 1, rqRing := c.param 31 1,
                      sqDepth := c.param 32 2, rqDepth := c.param 34 2 }
      exec (.qpCreate ring) s = .next (okWith c (0x10000 + k) 0 { s with rdma := { s.rdma with qps := Table.put s.rdma.qps k q } }))
    ∧ (∀ (k : Nat) (q : Qp), qpFind s (c.param 24 4) = some (k, q) → q.sector = n →
        (Begins s ring 0x0818 c → c.reserved [(54, 64), (88, 128)] = true →
          (c.param 28 1 = 0 → ∃ t, exec (.qpModify ring) s = .next (okWith c 0 0 t)
              ∧ Table.find t.rdma.qps k = some { sector := q.sector, pd := q.pd, kind := q.kind, port := q.port, sqRing := q.sqRing,
                                                 rqRing := q.rqRing, sqDepth := q.sqDepth, rqDepth := q.rqDepth }
              ∧ (∀ j, j ≠ k → Table.find t.rdma.qps j = Table.find s.rdma.qps j)
              ∧ (∀ r, ∀ x ∈ (ringOf s r).inflight, x.phase = .running →
                  x.serial ∈ q.posts.map Post.serial ++ q.recvs.map Recv.serial → { x with phase := .done 0x0401 0 8 } ∈ (ringOf t r).inflight)
              ∧ t.mem = s.mem ∧ t.sct = s.sct ∧ t.out = s.out)
          ∧ (c.param 28 1 = 6 → ∃ t, exec (.qpModify ring) s = .next (okWith c 0 0 t)
              ∧ Table.find t.rdma.qps k = some { q with state := 6, posts := [], recvs := [], inbound := none, replies := [], rnrWait := false }
              ∧ (∀ j, j ≠ k → Table.find t.rdma.qps j = Table.find s.rdma.qps j)
              ∧ (∀ r, ∀ x ∈ (ringOf s r).inflight, x.phase = .running →
                  x.serial ∈ q.posts.map Post.serial ++ q.recvs.map Recv.serial → { x with phase := .done 0x0401 0 8 } ∈ (ringOf t r).inflight)
              ∧ t.mem = s.mem ∧ t.sct = s.sct ∧ t.out = s.out)
          ∧ (c.param 28 1 = 1 → q.state = 0 → c.param 29 1 &&& 0xF1 = 0 →
              exec (.qpModify ring) s = .next (okWith c 0 0
                (setQp k { q with state := 1, access := c.param 29 1, qkey := if q.kind = 1 then c.param 48 4 else 0 } s)))
          ∧ (c.param 28 1 = 2 → q.state = 1 → q.kind ≠ 1 → c.param 30 1 ≤ 2 → c.param 34 1 ≤ 31 → 1 ≤ c.param 35 1 → c.param 35 1 ≤ 16 →
              c.param 44 4 < 2 ^ 24 → c.param 52 1 ≤ 63 → c.param 53 1 ≤ 15 → c.param 36 4 < 2 ^ 24 →
              exec (.qpModify ring) s = .next (okWith c 0 0 (setQp k { q with
                state := 2, pmtu := c.param 30 1, minRnr := c.param 34 1, maxRd := c.param 35 1, rqPsn := c.param 44 4,
                dscp := c.param 52 1, srcIndex := c.param 53 1, destQpn := c.param 36 4, destIp := sliceBytes c.bytes 64 16,
                destMac := sliceBytes c.bytes 80 6, vlan := c.param 86 2 } s)))
          ∧ (c.param 28 1 = 3 → q.state = 2 → q.posts = [] → c.param 31 1 ≤ 31 → c.param 32 1 ≤ 7 → c.param 33 1 ≤ 7 → c.param 40 4 < 2 ^ 24 →
              exec (.qpModify ring) s = .next (okWith c 0 0 (setQp k { q with
                state := 3, ackTimeout := c.param 31 1, retryCnt := c.param 32 1, rnrRetry := c.param 33 1, sqPsn := c.param 40 4,
                gear := rfield s .rdmaRateCfg 0 0 7, rises := 0, lastCut := none } s)))
          ∧ (c.param 28 1 = 4 → q.state = 3 → exec (.qpModify ring) s = .next (okWith c 0 0 (setQp k { q with state := 4 } s))))
        ∧ (Begins s ring 0x0819 c → c.reserved [(28, 64)] = true → (q.state = 0 ∨ q.state = 6) →
          (∀ e ∈ s.rdma.keys, ∀ b, e.2.bound = some b → b.1 ≠ k) →
          exec (.qpDestroy ring) s = .next (okWith c 0 0 { s with rdma := { s.rdma with qps := Table.drop s.rdma.qps k } }))
        ∧ (Begins s ring 0x081A c → c.reserved [(28, 64)] = true →
          exec (.qpQuery ring) s = .next (okWith c (q.state + q.sqPsn * 2 ^ 8 + q.rqPsn * 2 ^ 32) (q.gear + q.destQpn * 2 ^ 32) s))
        ∧ (Begins s ring 0x0820 c → q.kind = 0 → q.state = 3 → q.sqRing = c.ring % 64 → q.posts = [] → 1 ≤ q.sqDepth → c.param 28 1 = 0 →
          c.param 36 4 = 0 → c.reserved [(29, 32)] = true → c.units = 1 → heldClass s n 4 = false → q.rnrWait = false →
          s.rdma.qps = [(k, q)] → ∀ host faults,
          ∃ x f, exec (.rdmaPost ring host faults) s
              = .next (sendFrame f (setQp k { q with posts := [x], sqPsn := psnAdd q.sqPsn 1 } (setPhase c.serial .running s)))
            ∧ x.serial = c.serial ∧ x.sent = true ∧ x.firstPsn = q.sqPsn ∧ x.psns = 1 ∧ f.port = q.port ∧ f.destIp = q.destIp
            ∧ f.pkt = { dest := q.destQpn, psn := psnAdd q.sqPsn 0, op := .send true true none, ackReq := true, source := 0x10000 + k })
        ∧ (Begins s ring 0x0821 c → q.kind ≠ 2 → q.rqRing = c.ring % 64 → 1 ≤ q.state → q.state ≠ 6 → q.recvs.length < q.rqDepth →
          c.reserved [(28, 32), (48, 64)] = true →
          (c.param 36 4 = 0 ∨ ∃ t, keyCheck s k q (c.param 32 4) (c.param 40 8) (c.param 36 4) (some 0) false = .ok t) →
          let r : Recv := { serial := c.serial, lkey := c.param 32 4, addr := c.param 40 8, len := c.param 36 4 }
          exec (.rdmaRecv ring) s = .next (setPhase c.serial .running (setQp k { q with recvs := q.recvs ++ [r] } s)))))
  ∧ (∀ (s : State) (p : RocePacket) (now k : Nat) (q : Qp),
      (p.valid = false ∨ qpFind s p.dest = none → exec (.cnp p now) s = .next (bump s .rdmaDropped))
      ∧ (p.valid = true → qpFind s p.dest = some (k, q) → q.state ≠ 0 →
          ∃ t, exec (.cnp p now) s = .next t ∧ countedOne t s .rdmaCnpReceived ∧ t.mem = s.mem ∧ t.rings = s.rings
            ∧ (∀ j, j ≠ k → Table.find t.rdma.qps j = Table.find s.rdma.qps j)
            ∧ Table.find t.rdma.qps k = some (
                let recent := match q.lastCut with | none => false | some a => decide (now < a + 1000 * rfield s .rdmaRateCfg 0 11 10)
                if recent then q
                else { q with gear := min 127 (q.gear + rfield s .rdmaRateCfg 0 7 4), lastCut := some now, lastRise := now, rises := 0 })))
  ∧ (∀ (s : State) (qpn now k : Nat) (q : Qp), qpFind s qpn = some (k, q) →
      (heldClass s q.sector 4 = true ∨ now < q.lastRise + 1000 * rfield s .rdmaRateCfg 0 21 10 → exec (.risePeriod qpn now) s = .next s)
      ∧ (heldClass s q.sector 4 = false → q.lastRise + 1000 * rfield s .rdmaRateCfg 0 21 10 ≤ now →
          exec (.risePeriod qpn now) s = .next (setQp k { q with
            gear := q.gear - (if rfield s .rdmaRateCfg 0 31 5 ≤ q.rises then 2 else 1), lastRise := now, rises := q.rises + 1 } s)))

namespace Sys2Proof.Machine

/-- A valid packet without CE comes to queue pair `k` in RTR, RTS or SQD; `s1` has its cache misses counted (10 R498, R504, R513). -/
abbrev Comes (s s1 : State) (p : RocePacket) (k : Nat) (q : Qp) : Prop :=
  p.valid = true ∧ p.ce = false ∧ qpFind s p.dest = some (k, q) ∧ (q.state = 2 ∨ q.state = 3 ∨ q.state = 4)
  ∧ s1 = bumpField s .rdmaCacheMisses 0 0 32 p.misses

/-- The frame that carries a packet of queue pair `k` to its peer (10 R500). -/
abbrev toPeer (k : Nat) (q : Qp) (p : RocePacket) : RoceFrame :=
  { port := q.port, sub := 0, cls := 0, srcIndex := q.srcIndex, udpSource := udpSource (0x10000 + k) q.destQpn, dscp := q.dscp,
    vlan := q.vlan, destIp := q.destIp, destMac := q.destMac, pkt := { p with dest := q.destQpn, source := 0x10000 + k } }

/-- From `s` to `t` one packet of queue pair `k` goes to its peer: out of its port, or held with it. -/
abbrev SentOne (s t : State) (k : Nat) (q : Qp) (psn : Nat) (op : RoceOp) (payload : List Byte) : Prop :=
  let f := toPeer k q { dest := 0, psn := psn, op := op, payload := payload }
  t.out = (sendFrame f s).out ∧ t.rdma.held = (sendFrame f s).rdma.held

/-- Queue pair `k` becomes `q`; every other one, the keys, the domains, the tables and the ownership of memory stay. -/
abbrev OnlyQp (s t : State) (k : Nat) (q : Qp) : Prop :=
  Table.find t.rdma.qps k = some q ∧ (∀ j, j ≠ k → Table.find t.rdma.qps j = Table.find s.rdma.qps j)
  ∧ t.rdma.keys = s.rdma.keys ∧ t.rdma.pds = s.rdma.pds ∧ t.rdma.tables = s.rdma.tables ∧ t.sct = s.sct

/-- The running commands with a serial number are done with a status and results; every other command stays. -/
abbrev DoneNow (s t : State) (serial status r0 r1 : Nat) : Prop :=
  ∀ r, (ringOf t r).inflight = (ringOf s r).inflight.map (fun x => if x.serial = serial then
    (match x.phase with
      | .done _ _ _ => x
      | _ => { x with phase := .done status r0 r1 }) else x)

end Sys2Proof.Machine

def Obligations.RdmaRequests : Prop :=
  (∀ (s : State) (p : RocePacket) (now : Nat) (host : HostRead) (faults : List LineFault),
    (p.valid = false ∨ qpFind s p.dest = none ∨ (∃ e, qpFind s p.dest = some e ∧ e.2.state = 0)) →
    let t := bump s .rdmaDropped
    exec (.send p now faults) s = .next t ∧ exec (.rdmaWrite p now faults) s = .next t ∧ exec (.rdmaRead p now host faults) s = .next t
      ∧ exec (.fetchAdd p now faults) s = .next t ∧ exec (.cmpSwap p now faults) s = .next t
      ∧ exec (.acknowledgement p now) s = .next t ∧ exec (.readResponse p now faults) s = .next t
      ∧ exec (.atomicResponse p now faults) s = .next t ∧ exec (.roceNak p now) s = .next t ∧ exec (.rnrNak p now) s = .next t)
  ∧ (∀ (s s1 : State) (p : RocePacket) (now k : Nat) (q : Qp) (host : HostRead) (faults : List LineFault),
    Comes s s1 p k q →
    -- ahead of the expected PSN
    (q.kind ≠ 1 → q.nakSent = false → psnSub p.psn q.rqPsn ≠ 0 → psnSub p.psn q.rqPsn < 2 ^ 23 →
      ∃ t, OnlyQp s t k { q with nakSent := true } ∧ SentOne s1 t k q q.rqPsn (.nak 0) [] ∧ t.mem = s.mem ∧ t.rings = s.rings
        ∧ countedOne t s .rdmaNakSent
        ∧ (∀ first last imm, p.op = .send first last imm → exec (.send p now faults) s = .next t)
        ∧ (∀ first last imm addr key len, p.op = .write first last imm addr key len → exec (.rdmaWrite p now faults) s = .next t)
        ∧ (∀ addr key len, p.op = .readReq addr key len → exec (.rdmaRead p now host faults) s = .next t)
        ∧ (∀ addr key x, p.op = .fetchAdd addr key x → exec (.fetchAdd p now faults) s = .next t)
        ∧ (∀ addr key x y, p.op = .cmpSwap addr key x y → exec (.cmpSwap p now faults) s = .next t))
    -- a duplicate SEND or WRITE
    ∧ (q.kind ≠ 1 → 2 ^ 23 ≤ psnSub p.psn q.rqPsn →
      ∃ t, OnlyQp s t k q ∧ SentOne s1 t k q (psnSub q.rqPsn 1) .ack [] ∧ t.mem = s.mem ∧ t.rings = s.rings
        ∧ (∀ first last imm, p.op = .send first last imm → exec (.send p now faults) s = .next t)
        ∧ (∀ first last imm addr key len, p.op = .write first last imm addr key len → exec (.rdmaWrite p now faults) s = .next t))
    -- a UD queue pair
    ∧ (q.kind = 1 → ∀ first last imm, p.op = .send first last imm →
      (q.recvs = [] ∨ p.qkey ≠ q.qkey → exec (.send p now faults) s = .next (bump s1 .rdmaDropped))
      ∧ (∀ (r : Recv) (rest : List Recv) (a : Nat), q.recvs = r :: rest → p.qkey = q.qkey →
        let bytes := padTo 40 p.address ++ p.payload
        bytes.length ≤ r.len → keyCheck s k q r.lkey r.addr bytes.length (some 0) false = .ok (.device a) →
        let w := faultyWrite faults a bytes s1
        bytes ≠ [] → w.1 = 0 →
        ∃ t, exec (.send p now faults) s = .next t ∧ OnlyQp w.2 t k { q with recvs := rest, inbound := none } ∧ t.mem = w.2.mem ∧ t.out = w.2.out
          ∧ DoneNow w.2 t r.serial 0 ((40 + p.payload.length) % 2 ^ 32 + (if imm.isSome then 2 ^ 32 else 0) + p.source * 2 ^ 40) (imm.getD 0)))
    -- in order
    ∧ (q.kind ≠ 1 → psnSub p.psn q.rqPsn = 0 →
      let q0 := { q with nakSent := false }
      let s2 := setQp k q0 s1
      (∀ last imm, p.op = .send true last imm → q.kind = 0 → q.recvs = [] →
        ∃ t, exec (.send p now faults) s = .next t ∧ OnlyQp s t k q0 ∧ SentOne s1 t k q p.psn (.rnrNak q.minRnr) []
          ∧ t.mem = s.mem ∧ t.rings = s.rings ∧ countedOne t s .rdmaNakSent)
      ∧ (∀ (imm : Option Nat) (r : Recv) (rest : List Recv) (a : Nat), p.op = .send true true imm → q.kind = 0 → q.recvs = r :: rest →
        p.payload.length ≤ r.len →
        let w := faultyWrite faults a p.payload s2
        (p.payload ≠ [] → keyCheck s k q r.lkey r.addr p.payload.length (some 0) false = .ok (.device a) ∧ w.1 = 0) →
        ∃ t, exec (.send p now faults) s = .next t
          ∧ OnlyQp w.2 t k { q0 with rqPsn := psnAdd p.psn 1, recvs := rest, inbound := none } ∧ SentOne w.2 t k q p.psn .ack []
          ∧ t.mem = w.2.mem
          ∧ DoneNow w.2 t r.serial 0 (p.payload.length % 2 ^ 32 + (if imm.isSome then 2 ^ 32 else 0)) (imm.getD 0))
      ∧ (∀ (imm : Option Nat), p.op = .send true true imm → q.kind = 2 → ingressUsed s k q < 4 → p.payload.length ≤ 268435456 →
        ∃ t, exec (.send p now faults) s = .next t
          ∧ OnlyQp s t k { q0 with rqPsn := psnAdd p.psn 1, inbound := none, messages := q.messages ++ [p.payload] }
          ∧ SentOne s1 t k q p.psn .ack [] ∧ t.mem = s.mem ∧ t.rings = s.rings)
      ∧ (∀ addr key a : Nat, p.op = .write true true none addr key p.payload.length → q.kind = 0 → q.access.testBit 2 = true →
        keyCheck s k q key addr p.payload.length (some 2) false = .ok (.device a) →
        let w := faultyWrite faults a p.payload s2
        w.1 = 0 →
        ∃ t, exec (.rdmaWrite p now faults) s = .next t ∧ OnlyQp w.2 t k { q0 with rqPsn := psnAdd p.psn 1, inbound := none }
          ∧ SentOne w.2 t k q p.psn .ack [] ∧ t.mem = w.2.mem ∧ t.rings = w.2.rings)
      ∧ (∀ addr key len a : Nat, p.op = .readReq addr key len → q.kind = 0 → q.access.testBit 1 = true → len ≤ q.mtu → p.psn < 2 ^ 24 →
        keyCheck s k q key addr len (some 1) false = .ok (.device a) →
        ∀ bs s3, faultyRead faults a len s2 = (.ok bs, s3) → bs.length ≤ q.mtu →
        ∃ t, exec (.rdmaRead p now host faults) s = .next t ∧ OnlyQp s3 t k { q0 with rqPsn := psnAdd p.psn 1 }
          ∧ SentOne s3 t k q p.psn .readResp bs ∧ t.mem = s3.mem ∧ t.rings = s3.rings)
      ∧ (∀ addr key a : Nat, q.kind = 0 → q.access.testBit 3 = true → keyCheck s k q key addr 8 (some 3) true = .ok (.device a) →
        ∀ bs s3, faultyRead faults a 8 s2 = (.ok bs, s3) →
        let v := leNat bs
        let done := fun (t : State) (new : Nat) =>
          let w := poke s3 a (leBytes 8 new)
          OnlyQp w t k { q0 with rqPsn := psnAdd p.psn 1, replay := ((p.psn, v) :: q.replay).take 16 }
            ∧ SentOne w t k q p.psn (.atomicResp v) [] ∧ t.mem = w.mem ∧ t.rings = w.rings
        (∀ x, p.op = .fetchAdd addr key x →
          ∃ t, exec (.fetchAdd p now faults) s = .next t ∧ done t ((v + x) % 2 ^ 64))
        ∧ (∀ x y, p.op = .cmpSwap addr key x y →
          ∃ t, exec (.cmpSwap p now faults) s = .next t ∧ done t (if v = x then y else v)))
      -- a right that the queue pair does not grant
      ∧ (∃ t, OnlyQp s t k { q0 with state := 6, posts := [], recvs := [], inbound := none, replies := [], rnrWait := false }
        ∧ SentOne s1 t k q p.psn (.nak 1) [] ∧ t.mem = s.mem ∧ countedOne t s .rdmaNakSent
        ∧ (∀ last imm addr key len, p.op = .write true last imm addr key len → (q.kind = 2 ∨ q.access.testBit 2 = false) →
            exec (.rdmaWrite p now faults) s = .next t)
        ∧ (∀ addr key len, p.op = .readReq addr key len → (q.kind = 2 ∨ q.access.testBit 1 = false) →
            exec (.rdmaRead p now host faults) s = .next t)
        ∧ (q.kind = 2 ∨ q.access.testBit 3 = false →
            (∀ addr key x, p.op = .fetchAdd addr key x → exec (.fetchAdd p now faults) s = .next t)
            ∧ (∀ addr key x y, p.op = .cmpSwap addr key x y → exec (.cmpSwap p now faults) s = .next t))))
    -- a duplicate atomic
    ∧ (q.kind ≠ 1 → 2 ^ 23 ≤ psnSub p.psn q.rqPsn → (∃ addr key x, p.op = .fetchAdd addr key x) →
      (∀ e, q.replay.find? (fun e => e.1 = p.psn) = some e →
        ∃ t, exec (.fetchAdd p now faults) s = .next t ∧ OnlyQp s t k q ∧ SentOne s1 t k q p.psn (.atomicResp e.2) []
          ∧ t.mem = s.mem ∧ t.rings = s.rings ∧ countedOne t s .rdmaAtomicReplays)
      ∧ (q.replay.find? (fun e => e.1 = p.psn) = none →
        ∃ t, exec (.fetchAdd p now faults) s = .next t
          ∧ OnlyQp s t k { q with state := 6, posts := [], recvs := [], inbound := none, replies := [], rnrWait := false }
          ∧ SentOne s1 t k q p.psn (.nak 1) [] ∧ t.mem = s.mem ∧ countedOne t s .rdmaAtomicAged)))

def Obligations.RdmaResponses : Prop :=
  ∀ (s : State) (k : Nat) (q : Qp) (x : Post), q.posts = [x] → x.sent = true → q.replies = [] → (q.state = 3 ∨ q.state = 4) →
    let failed := { q with state := 6, posts := [], inbound := none, replies := [], rnrWait := false, recvs := [] }
    (∀ (s1 : State) (p : RocePacket) (now : Nat) (faults : List LineFault), Comes s s1 p k q →
      (x.responds = false → psnLe (psnAdd x.firstPsn (x.psns - 1)) p.psn = true →
        ∃ t, exec (.acknowledgement p now) s = .next t ∧ OnlyQp s t k { q with posts := [], retries := 0, rnrs := 0 }
          ∧ DoneNow s t x.serial 0 x.len 0 ∧ t.mem = s.mem ∧ t.regs = s1.regs ∧ t.out = s.out)
      ∧ (∀ a : Nat, x.op = 4 → x.got = 0 → psnAdd x.firstPsn 0 = p.psn → p.payload.length = x.len → p.payload ≠ [] →
        keyCheck s k q (x.p 32 4) (x.p 40 8) x.len (some 0) false = .ok (.device a) →
        let w := faultyWrite faults a p.payload (setQp k q s1)
        w.1 = 0 →
        ∃ t, exec (.readResponse p now faults) s = .next t ∧ OnlyQp w.2 t k { q with posts := [], retries := 0, rnrs := 0 }
          ∧ DoneNow w.2 t x.serial 0 x.len 0 ∧ t.mem = w.2.mem ∧ t.out = w.2.out)
      ∧ (∀ v a : Nat, p.op = .atomicResp v → (x.op = 5 ∨ x.op = 6) → x.firstPsn = p.psn →
        keyCheck s k q (x.p 32 4) (x.p 40 8) 8 (some 0) false = .ok (.device a) →
        let w := faultyWrite faults a (leBytes 8 v) (setQp k q s1)
        w.1 = 0 →
        ∃ t, exec (.atomicResponse p now faults) s = .next t ∧ OnlyQp w.2 t k { q with posts := [], retries := 0, rnrs := 0 }
          ∧ DoneNow w.2 t x.serial 0 v 0 ∧ t.mem = w.2.mem ∧ t.out = w.2.out)
      ∧ (x.firstPsn = p.psn → p.psn < 2 ^ 24 → 1 ≤ x.psns → x.psns ≤ 2 ^ 22 →
        (∀ code : Nat, p.op = .nak code →
          (code = 0 → x.op = 0 → x.data = [] → q.retries < q.retryCnt → heldClass s q.sector 4 = false →
            ∃ t, exec (.roceNak p now) s = .next t ∧ OnlyQp s t k { q with retries := q.retries + 1 }
              ∧ (let f := toPeer k q { dest := 0, psn := x.firstPsn, op := .send true true none, ackReq := true }
                 t.out = (sendFrame f s1).out ∧ t.rdma.held = (sendFrame f s1).rdma.held)
              ∧ countedOne t s .rdmaRetransmits ∧ t.mem = s.mem ∧ t.rings = s.rings)
          ∧ (code ≠ 0 → ∃ t, exec (.roceNak p now) s = .next t ∧ OnlyQp s t k failed ∧ t.mem = s.mem ∧ t.out = s.out
              ∧ (q.recvs = [] → DoneNow s t x.serial (if code = 1 then 0x0103 else if code = 2 then 0x0202 else 0x0504) 0
                  (if code = 1 then 4 else if code = 2 then 3 else 5))))
        ∧ (∀ timer : Nat, p.op = .rnrNak timer → (q.rnrRetry = 7 ∨ q.rnrs < q.rnrRetry) →
          ∃ t, exec (.rnrNak p now) s = .next t ∧ OnlyQp s t k { q with rnrs := q.rnrs + 1, rnrWait := true }
            ∧ t.mem = s.mem ∧ t.out = s.out ∧ t.rings = s.rings)))
    ∧ (∀ qpn now : Nat, qpFind s qpn = some (k, q) → x.op = 0 → x.data = [] → x.firstPsn < 2 ^ 24 →
      let f := toPeer k q { dest := 0, psn := x.firstPsn, op := .send true true none, ackReq := true }
      (q.rnrWait = true → heldClass s q.sector 4 = false →
        ∃ t, exec (.rnrTimer qpn) s = .next t ∧ OnlyQp s t k { q with rnrWait := false }
          ∧ t.out = (sendFrame f s).out ∧ t.rdma.held = (sendFrame f s).rdma.held ∧ countedOne t s .rdmaRetransmits ∧ t.mem = s.mem)
      ∧ (q.ackTimeout ≠ 0 → q.rnrWait = false → heldClass s q.sector 4 = false →
        let cut := if (match q.lastCut with | none => false | some a => decide (now < a + 1000 * rfield s .rdmaRateCfg 0 11 10)) then q
          else { q with gear := min 127 (q.gear + rfield s .rdmaRateCfg 0 7 4), lastCut := some now, lastRise := now, rises := 0 }
        (q.retries < q.retryCnt →
          ∃ t, exec (.ackTimeout qpn now) s = .next t ∧ OnlyQp s t k { cut with retries := q.retries + 1 }
            ∧ t.out = (sendFrame f s).out ∧ t.rdma.held = (sendFrame f s).rdma.held ∧ countedOne t s .rdmaRetransmits ∧ t.mem = s.mem)
        ∧ (q.retryCnt ≤ q.retries → q.recvs = [] →
          ∃ t, exec (.ackTimeout qpn now) s = .next t
            ∧ OnlyQp s t k { cut with state := 6, posts := [], inbound := none, replies := [], rnrWait := false, recvs := [] }
            ∧ DoneNow s t x.serial 0x0504 0 6 ∧ t.mem = s.mem ∧ t.out = s.out)))

/-- What an unsealed JTAG access reads is not stated: a free value (log entry 67). -/
def Obligations.SealingCommands : Prop :=
  ∀ (s : State) (ring : Nat) (c : Cmd) (n : Nat), n = c.ring / 64 →
    (∀ dest : Nat, Begins s ring 0x0A01 c → c.reserved [(112, 128)] = true → c.param 24 8 = dest → dest % 4096 = 0 → dest ≠ 0 →
      s.sealing.sealed = false → s.pci.linkUp = true → s.top.identBad = 0 →
      exec (.attestReport ring) s = .next (match internalBytes 5 80 s with
        | (none, s1) => s1
        | (some draw, s1) =>
          let body := reportBody s1 (sliceBytes c.bytes 32 32) (sliceBytes c.bytes 64 48)
          let report := body ++ aliasEcSign s1 body (draw.take 48) ++ aliasMlSign s1 body (draw.drop 48)
          okWith c report.length 0 (emit (.hostWrite (.vf n) dest report) s1)))
    ∧ (∀ dest : Nat, Begins s ring 0x0A14 c → c.reserved [(25, 32), (44, 64)] = true → c.param 24 1 ≤ 1 → c.param 32 8 = dest →
      dest % 4096 = 0 → s.sealing.sealed = false → s.pci.linkUp = true →
      let chain := chainOf s (c.param 24 1 = 1)
      exec (.certRead ring) s = .next (if chain.length ≤ c.param 40 4 then okWith c chain.length 0 (emit (.hostWrite (.vf n) dest chain) s)
        else finish c.serial 0x0103 0 0 s))
    ∧ (∀ (w : Window) (k : Nat), Begins s ring 0x0A02 c → c.reserved [(45, 64)] = true → c.param 44 1 ≤ 1 →
      w = { d2h := c.param 44 1 = 1, dataBase := c.param 24 8, tagBase := c.param 32 8, slots := c.param 40 4 } →
      w.dataBase % 4096 = 0 → w.tagBase % 4096 = 0 → 1 ≤ w.slots → w.slots ≤ 65536 →
      (w.dataBase + 4096 * w.slots ≤ w.tagBase ∨ w.tagBase + 32 * w.slots ≤ w.dataBase) →
      (∀ e ∈ (sealOf s n).windows, ∀ x ∈ w.areas, ∀ y ∈ e.2.areas, overlaps x.1 x.2 y.1 y.2 = false) →
      s.sealing.sealed = true → (sealOf s n).h2d.isSome = true → Table.firstFree (sealOf s n).windows 0 16 = some k →
      ((sealOf s n).windows.map (fun e => e.2.slots)).sum + w.slots ≤ 65536 →
      exec (.bounceWindowAdd ring) s
        = .next (okWith c k 0 (setSeal s n { sealOf s n with windows := Table.put (sealOf s n).windows k w })))
    ∧ (∀ (w : Window) (k : Nat), Begins s ring 0x0A10 c → c.reserved [(25, 64)] = true → c.param 24 1 = k → k ≤ 15 →
      s.sealing.sealed = true → (sealOf s n).h2d.isSome = true → Table.find (sealOf s n).windows k = some w → ringInWindow s n w = false →
      exec (.bounceWindowRemove ring) s
        = .next (okWith c 0 0 (setSeal s n { sealOf s n with windows := Table.drop (sealOf s n).windows k })))
    ∧ (∀ raw : List Byte, Begins s ring 0x0A11 c → c.reserved [(33, 40), (48, 64)] = true → c.param 24 8 ≠ 0 → c.param 40 8 % 4096 = 0 →
      s.sealing.sealed = false → s.sealing.opkeys.length < 64 →
      let bs := padTo 1281 raw
      let k : OpKey := { sectors := c.param 32 1, point := bs.take 97, ek := bs.drop 97 }
      exec (.opkeyLoad ring (.data raw)) s = .next (
        if Config.p384OnCurve k.point && Config.mlkemEkOk k.ek then
          okWith c 0 0 { s with sealing := { s.sealing with opkeys := Table.put s.sealing.opkeys (c.param 24 8) k } }
        else finish c.serial 0x0103 0 0 s))
    ∧ (Begins s ring 0x0A12 c → c.reserved [(32, 64)] = true → c.param 24 8 ≠ 0 → (Table.find s.sealing.opkeys (c.param 24 8)).isSome = true →
      (∀ e ∈ s.heat.slots, e.2.handle ≠ c.param 24 8) →
      exec (.opkeyRemove ring) s
        = .next (okWith c 0 0 { s with sealing := { s.sealing with opkeys := Table.drop s.sealing.opkeys (c.param 24 8) } }))
    ∧ (Begins s ring 0x0A13 c → c.reserved [(24, 64)] = true → (∀ e ∈ s.sct.sectors, e.1 ≠ 0 → e.2.state = .undefined) →
      s.heat.slots = [] → pairFormed s = false → s.rng.raw = false → s.mover = [] → s.sealing.sealed = false → s.sealing.armed = false →
      s.top.identBad = 0 →
      let z := zeroFill (zeroFill s 0 0x008000000000) 0x080000000000 0x10000000
      exec (.sealArm ring) s = .next (okWith c 0 0 { s with
        err := { s.err with slots := [] }
        mem := { z.mem with far := [], pageTags := [] }
        sealing := { s.sealing with armed := true } }))
    ∧ (∀ (dr code : Nat),
      exec (.jtagAccess .idcode dr) s = .next (emit (.jtag (Config.jtagIdcode % 2 ^ 32 + dr * 2 ^ 32)) s)
      ∧ exec (.jtagAccess .bypass dr) s = .next (emit (.jtag (dr * 2)) s)
      ∧ exec (.jtagAccess (.other code) dr) s = .next (if s.sealing.sealed then emit (.jtag (dr * 2)) s
          else emit (.jtag (Config.freeNat s.fresh)) { s with fresh := s.fresh + 1 }))

namespace Sys2Proof.Machine

/-- A request waits at an endpoint that answers: in a mailbox, or from MCTP (14 R720, R722). -/
abbrev Asked (s : State) (p : Nat) (req raw : List Byte) : Prop :=
  endpointReady s p = true
  ∧ raw = (if 9 ≤ p then req else padTo (bitsOf (rget s .sealMboxCtrl p) 16 15) (mailboxOf s p).req)

/-- A response of any length placed: one that the buffer cannot hold is kept for CHUNK_GET. -/
abbrev replied (p : Nat) (r : List Byte) (s : State) : State :=
  let e := largeResponse p false r s
  placeResponse p e.1 e.2

/-- A response secured in the session `y` and placed. -/
abbrev repliedIn (p : Nat) (y : Session) (r : List Byte) (s : State) : State :=
  let e := largeResponse p true r s
  let f := secureResponse p y e.1 e.2
  placeResponse p f.1 f.2

/-- The session of a mailbox as it now stands, or the one that it was. -/
abbrev nowAt (s : State) (p : Nat) (y : Session) : Session := (sessionAt s p).getD y

end Sys2Proof.Machine

/-- Message layouts are those of the standard that the manual names (log entry 64); CTExponent, the message size, heartbeat and session
identifier are free values. -/
def Obligations.SpdmOpen : Prop :=
  ∀ (s : State) (p : Nat) (req m : List Byte), Asked s p req m → sessionAt s p = none →
    let b := mailboxOf s p
    (∀ r : List Byte, (9 ≤ p → placeResponse p r s = emit (.mctp p r) s)
      ∧ (p < 9 → mailboxOf (placeResponse p r s) p = { b with resp := r, busy := false }
        ∧ bitsOf (rget (placeResponse p r s) .sealMboxCtrl p) 0 2 = 2
        ∧ bitsOf (rget (placeResponse p r s) .sealMboxCtrl p) 32 15 = r.length % 2 ^ 15))
    ∧ (9 ≤ p → openCodes.contains (reqCode m) = false →
      let t := emit (.mctp p (spdmError 0x07 (reqCode m))) s
      exec (.keyExchange p req) s = .next t ∧ exec (.finish p req) s = .next t ∧ exec (.spdmHeartbeat p req) s = .next t
        ∧ exec (.keyUpdate p req) s = .next t ∧ exec (.endSession p req) s = .next t ∧ exec (.kemKeyGet p req) s = .next t
        ∧ exec (.kemCipher p req) s = .next t ∧ (∀ d, exec (.vdCommand p req d) s = .next t) ∧ exec (.mldsaCertGet p req) s = .next t
        ∧ exec (.ideKm p req) s = .next t ∧ (∀ d, exec (.chunkSend p req d) s = .next t) ∧ exec (.chunkGet p req) s = .next t)
    ∧ (reqCode m = 0x84 →
      let r : List Byte := [0x10, 0x04, 0, 0, 0, 1, 0, 0x13]
      exec (.getVersion p req) s
        = .next (placeResponse p r (setMailbox p { b with negotiated := 1, vca := m ++ r, certs := [], meas := [] } s)))
    ∧ (fieldLE m 0 1 = 0x13 →
      (reqCode m = 0xE1 → b.negotiated ≠ 0 →
        let r := spdmHead 0x61 0 0 ++ leBytes 1 0 ++ leBytes 1 (Config.freeNat s.fresh) ++ leBytes 2 0 ++ leBytes 4 0x262F6
          ++ leBytes 4 16384 ++ leBytes 4 (Config.freeNat (s.fresh + 1))
        exec (.getCapabilities p req) s = .next (placeResponse p r
          (setMailbox p { b with negotiated := 2, vca := b.vca ++ m ++ r } { s with fresh := s.fresh + 2 })))
      ∧ (reqCode m = 0xE3 → 2 ≤ b.negotiated → fieldLE m 2 1 = 0 →
        let r := spdmHead 0x63 0 0 ++ leBytes 2 36 ++ leBytes 1 (fieldLE m 6 1 &&& 1) ++ leBytes 1 (fieldLE m 7 1 &&& 2) ++ leBytes 4 4
          ++ leBytes 4 (fieldLE m 8 4 &&& 0x80) ++ leBytes 4 (fieldLE m 12 4 &&& 2) ++ leBytes 16 0
        exec (.negotiateAlgorithms p req) s = .next (placeResponse p r (setMailbox p { b with negotiated := 3, vca := b.vca ++ m ++ r } s)))
      ∧ (reqCode m = 0x81 →
        let r := spdmHead 0x01 1 1 ++ hash384 (slotChain s)
        exec (.getDigests p req) s = .next (placeResponse p r (setMailbox p { b with certs := b.certs ++ m ++ r } s)))
      ∧ (reqCode m = 0x82 → fieldLE m 2 1 % 16 = 0 →
        exec (.getCertificate p req) s = .next (
          let chain := slotChain s
          if chain.length ≤ fieldLE m 4 2 then placeResponse p (spdmError 0x01 0) s
          else
            let part := (chain.drop (fieldLE m 4 2)).take (min (fieldLE m 6 2) 16320)
            let r := spdmHead 0x02 0 0 ++ leBytes 2 part.length ++ leBytes 2 (chain.length - fieldLE m 4 2 - part.length) ++ part
            replied p r (setMailbox p { b with certs := b.certs ++ m ++ r } s)))
      ∧ (reqCode m = 0x83 → 3 ≤ b.negotiated → fieldLE m 2 1 = 0 →
        exec (.challenge p req) s = .next (match internalBytes 5 80 s with
          | (none, s1) => { s with rng := s1.rng, regs := s1.regs }
          | (some draw, s1) =>
            let r := spdmHead 0x03 0 1 ++ hash384 (slotChain s1) ++ draw.take 32 ++ summaryHash s1 (fieldLE m 3 1) ++ leBytes 2 0
              ++ sliceBytes m 36 8
            let sig := aliasEcSign s1 (signedMessage "responder-challenge_auth signing" (b.vca ++ b.certs ++ m ++ r)) (draw.drop 32)
            replied p (r ++ sig) (setMailbox p { b with certs := [] } s1)))
      ∧ (reqCode m = 0xE0 → 3 ≤ b.negotiated → fieldLE m 2 1 = 0 → fieldLE m 3 1 = 0xFF →
        exec (.getMeasurements p req) s = .next (match internalBytes 5 80 s with
          | (none, s1) => { s with rng := s1.rng, regs := s1.regs }
          | (some draw, s1) =>
            let blocks := (measureBlocks s).flatten
            let r := spdmHead 0x60 0 0 ++ leBytes 1 4 ++ leBytes 3 blocks.length ++ blocks ++ draw.take 32 ++ leBytes 2 0 ++ sliceBytes m 4 8
            replied p r (setMailbox p { b with meas := b.meas ++ m ++ r } s1)))
      ∧ (p < 9 →
        (reqCode m = 0x85 → (fieldLE m 2 1).testBit 0 = false → ∀ d,
          let off := if fieldLE m 4 2 = 0 then 16 else 12
          let whole := (if fieldLE m 4 2 = 0 then [] else b.chunkIn) ++ sliceBytes m off (fieldLE m 8 4)
          exec (.chunkSend p req d) s = .next (placeResponse p (spdmHead 0x05 0 (fieldLE m 3 1) ++ leBytes 2 (fieldLE m 4 2))
            (setMailbox p { b with chunkIn := whole } s)))
        ∧ (reqCode m = 0x86 → fieldLE m 4 2 = 0 → fieldLE m 3 1 = b.handle → b.chunkOut ≠ [] → b.chunkOut.length ≤ 16368 →
          let r := spdmHead 0x06 1 b.handle ++ leBytes 2 0 ++ leBytes 2 0 ++ leBytes 4 b.chunkOut.length ++ leBytes 4 b.chunkOut.length ++ b.chunkOut
          exec (.chunkGet p req) s = .next (placeResponse p r (setMailbox p { b with chunkOut := [] } s)))
        ∧ (rowOf p m = some 0x104 →
          let bytes := ((chainOf s true).drop (fieldLE ((vendorOf m).2.2.drop 1) 0 4)).take (fieldLE ((vendorOf m).2.2.drop 1) 4 2)
          exec (.mldsaCertGet p req) s = .next (replied p (vendorReply 0x1E5B (leBytes 1 4 ++ bytes)) s))
        ∧ (reqCode m = 0xE4 →
          ((sealOf s (mailboxSector p)).session.isSome = true → exec (.keyExchange p req) s = .next (placeResponse p (spdmError 0x0A 0) s))
          ∧ ((sealOf s (mailboxSector p)).session = none → 3 ≤ b.negotiated → fieldLE m 3 1 = 0 →
            ∃ t, exec (.keyExchange p req) s = .next t
              ∧ (Config.p384OnCurve (leBytes 1 4 ++ sliceBytes m 40 96) = false → t = placeResponse p (spdmError 0x01 0) s)
              ∧ (Config.p384OnCurve (leBytes 1 4 ++ sliceBytes m 40 96) = true →
                match internalBytes 5 128 s with
                | (none, s1) => t = { s with rng := s1.rng, regs := s1.regs }
                | (some draw, s1) =>
                  (sealOf t (mailboxSector p)).session.isSome = true
                  ∧ ∀ x, (sealOf t (mailboxSector p)).session = some x →
                    x.mailbox = p ∧ x.finished = false ∧ x.kemSeed = none ∧ x.kemDone = false
                    ∧ x.id = fieldLE m 4 2 + Config.freeNat (s1.fresh + 1) % 65536 * 65536
                    ∧ x.handshake = hmac384 (padTo 48 []) (Config.p384Ecdh (draw.take 48) (leBytes 1 4 ++ sliceBytes m 40 96))
                    ∧ t.mem = s1.mem ∧ t.rings = s1.rings ∧ t.fresh = s1.fresh + 2)))))

/-- The key schedule is that of the standard that the manual names (log entry 64). -/
def Obligations.SpdmSession : Prop :=
  ∀ (s : State) (p : Nat) (req raw : List Byte) (x : Session) (d : HostRead), Asked s p req raw → sessionAt s p = some x →
    fieldLE raw 0 4 = x.id → 4 ≤ raw.length →
    let y := { x with reqCount := x.reqCount + 1 }
    let s1 := setSession p y s
    let n := mailboxSector p
    match openSecured x raw with
    | none =>
      let t := placeResponse p (spdmError 0x06 0) s
      exec (.finish p req) s = .next t ∧ exec (.spdmHeartbeat p req) s = .next t ∧ exec (.keyUpdate p req) s = .next t
        ∧ exec (.endSession p req) s = .next t ∧ exec (.kemKeyGet p req) s = .next t ∧ exec (.kemCipher p req) s = .next t
        ∧ exec (.vdCommand p req d) s = .next t ∧ exec (.ideKm p req) s = .next t ∧ exec (.getVersion p req) s = .next t
        ∧ exec (.getCapabilities p req) s = .next t ∧ exec (.getMeasurements p req) s = .next t
    | some m =>
      fieldLE m 0 1 = 0x13 →
      let body := (vendorOf m).2.2.drop 1
      (rowOf p m = some 0xE5 → x.finished = false →
        exec (.finish p req) s = .next (
          if sliceBytes m 4 48 = verifyData x.reqSecret (hash384 (x.transcript ++ m.take 4)) then
            let r := spdmHead 0x65 0 0
            let th2 := hash384 (x.transcript ++ m ++ r)
            let ms := masterSecret x.handshake
            repliedIn p y r (setSession p { y with
              finished := true, th := th2, reqSecret := derive ms 48 "req app data" th2, rspSecret := derive ms 48 "rsp app data" th2,
              reqCount := 0, rspCount := 0, exportMaster := derive ms 48 "exp master" th2 } s1)
          else repliedIn p y (spdmError 0x06 0) s1))
      ∧ (x.finished = true →
        (rowOf p m = some 0xE8 → exec (.spdmHeartbeat p req) s = .next (repliedIn p (nowAt s1 p y) (spdmHead 0x68 0 0) s1))
        ∧ (rowOf p m = some 0xE9 →
          let next := fun (k : List Byte) => derive k 48 "traffic upd" []
          let r := spdmHead 0x69 (fieldLE m 2 1) (fieldLE m 3 1)
          (fieldLE m 2 1 = 1 →
            let t := setSession p { y with reqSecret := next x.reqSecret, reqCount := 0 } s1
            exec (.keyUpdate p req) s = .next (repliedIn p (nowAt t p y) r t))
          ∧ (fieldLE m 2 1 = 2 →
            let t := setSession p { y with reqSecret := next x.reqSecret, reqCount := 0, rspSecret := next x.rspSecret, rspCount := 0 } s1
            exec (.keyUpdate p req) s = .next (repliedIn p (nowAt t p y) r t))
          ∧ (fieldLE m 2 1 = 3 → exec (.keyUpdate p req) s = .next (repliedIn p (nowAt s1 p y) r s1)))
        ∧ (rowOf p m = some 0xEC → (∀ e ∈ s.rings.table, e.1 / 64 = n → e.2.state = .disabled) →
          exec (.endSession p req) s = .next (repliedIn p y (spdmHead 0x6C 0 0)
            { s1 with sealing := { s1.sealing with sectors := Table.drop s1.sealing.sectors n } }))
        ∧ (rowOf p m = some 0x101 → x.kemSeed = none →
          exec (.kemKeyGet p req) s = .next (match internalBytes 5 96 s1 with
            | (none, s2) => { s with rng := s2.rng, regs := s2.regs }
            | (some draw, s2) =>
              let ek := padTo 1184 (Config.mlkemKeys (draw.take 64)).1
              let sig := aliasMlSign s2 (ascii "TGSL kem" ++ x.th ++ ek) (draw.drop 64)
              let t := setSession p { y with kemSeed := some (draw.take 64) } s2
              repliedIn p (nowAt t p y) (vendorReply 0x1E5B (leBytes 1 1 ++ ek ++ sig)) t))
        ∧ (∀ seed, rowOf p m = some 0x102 → x.kemSeed = some seed → x.kemDone = false → body.length = 1088 →
          let master := hmac384 (Config.mlkemDecaps (Config.mlkemKeys seed).2 body) x.exportMaster
          let key := fun (dir : String) => hkdfExpand hmac384 master (ascii "TGSL rec " ++ ascii dir ++ leBytes 1 n) 36
          let t := setSeal s1 n { sealOf s1 n with
            session := some { y with kemDone := true }, h2d := some (key "h2d"), d2h := some (key "d2h"), nextCounter := 1 }
          exec (.kemCipher p req) s = .next (repliedIn p (nowAt t p y) (vendorReply 0x1E5B [2, 0]) t))
        ∧ (rowOf p m = some 0x103 → x.kemDone = true → 64 ≤ body.length → body.length ≤ 512 →
          let len := fieldLE body 3 1
          let c : Cmd := { ring := n * 64, bytes := padTo (64 * min 8 (max 1 len)) body, fn := mailboxFn p }
          let done := fun (st r0 r1 : Nat) (t : State) =>
            let t1 := { t with fresh := t.fresh + 1 }
            repliedIn p (nowAt t1 p y) (vendorReply 0x1E5B (leBytes 1 3
              ++ completionBytes c.tag st r0 r1 t.cad.stroke (Config.freeNat t.fresh % 2 = 1) false ++ [])) t1
          (c.opcode / 256 ≠ 0x0A → exec (.vdCommand p req d) s = .next (done 0x0201 0 0 s1))
          ∧ (c.opcode / 256 = 0x0A → c.opcode ≠ 0x0A01 → 1 ≤ len → len ≤ 8 → 64 * len ≤ body.length → headerCheck (n * 64) 2 c s1 = none →
            c.notBefore ≤ s.cad.stroke → c.lockstep = false → commandGate s1 c.opcode = none →
            match vendorBody d c s1 with
            | .ok (.done st r0 r1 s2) => exec (.vdCommand p req d) s = .next (done st r0 r1 s2)
            | .error e => exec (.vdCommand p req d) s = .next (done e.status e.r0 e.r1 s1)
            | .ok (.running s2) | .ok (.later s2) => exec (.vdCommand p req d) s = .next { s with rng := s2.rng, regs := s2.regs }))
        ∧ (rowOf p m = some 0x200 → p = 0 →
          let payload := (vendorOf m).2.2
          let stream := fieldLE payload 4 1 * 256 + fieldLE payload 6 1
          let answer := fun (o : Nat) => vendorReply 1 (leBytes 1 0 ++ leBytes 1 o ++ leBytes 2 0 ++ sliceBytes payload 4 4)
          (fieldLE payload 1 1 = 2 →
            let t := { s1 with pci := { s1.pci with ide := Table.put s1.pci.ide stream (sliceBytes payload 8 40) } }
            exec (.ideKm p req) s = .next (repliedIn p (nowAt t p y) (answer 3) t))
          ∧ (fieldLE payload 1 1 = 5 →
            let t := { s1 with pci := { s1.pci with ide := Table.drop s1.pci.ide stream } }
            exec (.ideKm p req) s = .next (repliedIn p (nowAt t p y) (answer 6) t))))

def Obligations.ChordLinks : Prop :=
  (∀ (s : State) (ring : Nat) (c : Cmd) (k : Nat), c.param 24 1 = k →
    (Begins s ring 0x0911 c → c.reserved [(25, 26), (28, 64)] = true → k < 64 → c.param 26 2 < 4096 → s.chord.unsent = [] →
      exec (.chordRoute ring) s = .next (okWith c 0 0 (rput s .chdRoute k 0 (c.param 26 2))))
    ∧ (∀ e : Nat, Begins s ring 0x0912 c → c.reserved [(26, 32), (48, 64)] = true → k < 8 → c.param 25 1 = e → e < 16 →
      exec (.chordAcl ring) s
        = .next (okWith c 0 0 (rput (rput s .chdAclSrc k e (c.param 32 8)) .chdAclWin k e (c.param 40 8))))
    ∧ (Begins s ring 0x0910 c → c.reserved [(26, 64)] = true → k < 10 →
      (c.param 25 1 = 0 → (linkOf s k).state ≠ .down → (linkOf s k).bist = none → s.chord.transfers = [] → s.chord.folds = [] →
        s.chord.tree = [] →
        ∃ t, exec (.chordLink ring) s = .next (okWith c 0 0 t) ∧ (linkOf t k).state = .down ∧ (linkOf t k).cause = 6
          ∧ (linkOf t k).epoch = ((linkOf s k).epoch + 1) % 2 ^ 32 ∧ (linkOf t k).replay = [] ∧ (linkOf t k).rx = []
          ∧ (∀ j, j ≠ k → linkOf t j = linkOf s j) ∧ t.mem = s.mem ∧ t.sct = s.sct)
      ∧ (c.param 25 1 = 1 → (linkOf s k).state = .down → linkAvail s k = true →
        ∃ t, exec (.chordLink ring) s = .next (okWith c 0 0 t) ∧ linkOf t k = { linkOf s k with state := .training }
          ∧ (∀ j, j ≠ k → linkOf t j = linkOf s j) ∧ t.mem = s.mem ∧ t.sct = s.sct)
      ∧ (c.param 25 1 = 2 → (linkOf s k).state = .down → linkAvail s k = true →
        ∃ t, exec (.chordLink ring) s = .next (setPhase c.serial .running t)
          ∧ linkOf t k = { linkOf s k with state := .training, bist := some c.serial }
          ∧ (∀ j, j ≠ k → linkOf t j = linkOf s j) ∧ t.mem = s.mem ∧ t.sct = s.sct)))
  ∧ (∀ (s : State) (k lane : Nat) (l : Link), linkOf s k = l →
    (l.state = .up → l.spareUsed = false → lane < 9 → ∃ t, exec (.laneLockLoss k lane) s = .next t ∧ exec (.fecErrorBurst k lane) s = .next t
        ∧ (linkOf t k).state = .retrain ∧ (linkOf t k).trained = false ∧ (linkOf t k).replay = l.replay
        ∧ (∀ j, j ≠ k → linkOf t j = linkOf s j) ∧ t.mem = s.mem)
    ∧ (l.state = .retrain → l.bist = none → s.chord.transfers = [] → s.chord.folds = [] → s.chord.tree = [] →
      ∃ t, exec (.retrainTimeout k) s = .next t ∧ (linkOf t k).state = .down ∧ (linkOf t k).cause = 4
        ∧ (linkOf t k).epoch = (l.epoch + 1) % 2 ^ 32 ∧ (linkOf t k).replay = [] ∧ (∀ j, j ≠ k → linkOf t j = linkOf s j) ∧ t.mem = s.mem)
    ∧ (l.state = .training → s.sealing.sealed = false →
      (l.bist = none → ∃ t, exec (.linkTrainingComplete k 0) s = .next t ∧ linkOf t k = { l with state := .ident, trained := true }
        ∧ (∃ i : IdentInfo, i.pkg = pkgNumber s ∧ i.link = k ∧ i.serial = s.top.serial ∧ i.epoch = l.epoch ∧ i.last = l.rxCount
            ∧ Emit.ident k i ∈ t.out) ∧ (∀ j, j ≠ k → linkOf t j = linkOf s j) ∧ t.mem = s.mem)
      ∧ (∀ serial, l.bist = some serial → s.chord.transfers = [] → s.chord.folds = [] → s.chord.tree = [] →
        ∃ t, exec (.linkTrainingComplete k 0) s = .next t ∧ linkOf t k = { l with state := .down, bist := none }
          ∧ DoneNow s t serial 0 0 0 ∧ (∀ j, j ≠ k → linkOf t j = linkOf s j) ∧ t.mem = s.mem))
    ∧ (∀ i : IdentInfo, l.state = .ident → l.trained = true → s.sealing.sealed = false →
      (identRefused s k i = none → l.txWait = [] → s.chord.unsent = [] →
        ∃ t, exec (.ident k i) s = .next t
          ∧ linkOf t k = { l with state := .up, peerPkg := i.pkg, peerLink := i.link, peerSerial := i.serial, peerEpoch := i.epoch, trained := false, rxCount := 0, txCount := 0, replay := [], credits := 2048, rx := [], due := 0, replayed := 0, txKey := [], rxKey := [], txOther := 0, rxOther := 0, nakSent := false, ephemeral := [] }
          ∧ (∀ j, j ≠ k → linkOf t j = linkOf s j) ∧ t.mem = s.mem)
      ∧ (∀ cause, identRefused s k i = some cause → l.bist = none → s.chord.transfers = [] → s.chord.folds = [] → s.chord.tree = [] →
        ∃ t, exec (.ident k i) s = .next t ∧ (linkOf t k).state = .down ∧ (linkOf t k).cause = cause
          ∧ (∀ j, j ≠ k → linkOf t j = linkOf s j) ∧ t.mem = s.mem))
    ∧ (∀ flit : List Byte, l.state = .up → l.txWait = [] →
      let ack := (fieldLE flit 2 2 + 1 + 65536 - (l.txCount - l.replay.length) % 65536) % 65536
      let drop := if ack ≤ l.replay.length then ack else 0
      (fieldLE flit 4 1 = 1 → fieldLE flit 0 2 = l.rxCount % 65536 →
        ∃ t, exec (.data k flit) s = .next t ∧ (∀ j, j ≠ k → linkOf t j = linkOf s j) ∧ t.mem = s.mem ∧ t.regs = s.regs ∧ t.rings = s.rings
          ∧ match openFlit l.rxKey 0 l.rxCount flit with
            | none => (l.nakSent = true → t = s) ∧ (l.nakSent = false → (linkOf t k).nakSent = true ∧ ∃ bs, t.out = s.out ++ [.flit k bs []])
            | some payload => linkOf t k = { l with rxCount := l.rxCount + 1, nakSent := false, rx := l.rx ++ payload, replay := l.replay.drop drop, credits := l.credits + fieldLE flit 5 1, naks := if drop = 0 then l.naks else 0 } ∧ t.out = s.out)
      ∧ (fieldLE flit 4 1 = 0 →
        ∃ t, exec (.idle k flit) s = .next t
          ∧ match openFlit l.rxKey 1 (otherCount l flit) flit with
            | none => t = s
            | some _ => linkOf t k = { l with rxOther := otherCount l flit + 1, replay := l.replay.drop drop, credits := l.credits + fieldLE flit 5 1, naks := if drop = 0 then l.naks else 0 }
                ∧ (∀ j, j ≠ k → linkOf t j = linkOf s j) ∧ t.mem = s.mem ∧ t.regs = s.regs ∧ t.rings = s.rings ∧ t.out = s.out)
      ∧ (fieldLE flit 4 1 = 2 → l.naks = 0 → ∀ x, l.replay = [x] →
        ∃ t, exec (.nak k flit) s = .next t
          ∧ match openFlit l.rxKey 1 (otherCount l flit) flit with
            | none => t = s
            | some _ => (linkOf t k).naks = 1 ∧ (linkOf t k).nakSeq = (fieldLE flit 2 2 + 1) % 65536 ∧ (linkOf t k).state = .up
                ∧ (drop = 0 → (linkOf t k).replayed = l.replayed + 1 ∧ countedOne t s .chdLinkCounts k ∧ ∃ bs, t.out = s.out ++ [.flit k bs []])
                ∧ (drop = 1 → (linkOf t k).replay = [] ∧ t.out = s.out)
                ∧ (∀ j, j ≠ k → linkOf t j = linkOf s j) ∧ t.mem = s.mem)))

def Obligations.ChordTransfers : Prop :=
  (∀ (s : State) (ring : Nat) (c : Cmd) (n a bytes et : Nat), n = c.ring / 64 → c.param 24 8 = a → c.param 40 8 = bytes → c.param 49 1 = et →
    a % 64 = 0 → 64 ≤ bytes → bytes ≤ 65536 → bytes % 64 = 0 → c.param 50 1 = 0 → ownsFree s n a bytes = true →
    (∀ (r op k l : Nat), Begins s ring 0x0913 c → c.reserved [(51, 64)] = true → c.param 32 8 = r → r % 64 = 0 → r < 2 ^ 52 →
      bitsOf r 46 6 ≠ pkgNumber s → c.param 48 1 = op → op ≤ 2 → et ≤ 7 → (op = 2 → et ≤ 4) → k = (s.chord.lastStream + 1) % 2 ^ 32 →
      Table.find s.chord.transfers k = none →
      let x : Transfer := { serial := c.serial, sector := n, op := op, etype := et, compress := false, localAddr := a, remote := r, bytes := bytes }
      let s1 := setPhase c.serial .running (setTransfer k x { s with chord := { s.chord with lastStream := k } })
      routeLink s (bitsOf r 46 6) k = some l →
      ∀ bs s2, (if op = 1 then (.ok [], s1) else trustedRead a bytes s1) = (.ok bs, s2) → s2.chord = s1.chord → s2.regs = s1.regs →
        let p : Packet := { typ := if op = 0 then 1 else if op = 1 then 2 else 4, flags := 2, srcPkg := pkgNumber s, srcSector := n,
                            etype := et, dest := r, stream := k, chunk := 0, decoded := bytes, payload := bs }
        exec (.chordXfer ring) s = .next (setTransfer k { x with sent := bs.length, link := l } (putPacket l p s2)))
    ∧ (∀ (stream k role : Nat), Begins s ring 0x0914 c → c.reserved [(57, 64)] = true → et ≤ 4 → c.param 52 4 = stream → c.param 48 1 = role →
      (role = 2 ∧ c.param 32 8 % 64 = 0 ∧ ownsFree s n (c.param 32 8) bytes = true ∧ c.param 51 1 = 0
        ∨ role = 1 ∧ c.param 32 8 = 0 ∧ c.param 51 1 < 64 ∧ c.param 51 1 ≠ pkgNumber s ∧ (routeLink s (c.param 51 1) stream).isSome = true) →
      c.param 56 1 < 64 → c.param 56 1 ≠ pkgNumber s → (∀ e ∈ s.chord.folds, e.2.stream ≠ stream) → Table.firstFree s.chord.folds 0 64 = some k →
      let f : Fold := { serial := c.serial, sector := n, role := role, stream := stream, etype := et, compress := false, localAddr := a,
                        dest := c.param 32 8, bytes := bytes, next := c.param 51 1, prev := c.param 56 1 }
      exec (.chordFold ring) s = .next (setPhase c.serial .running (setFold k f s))))
  ∧ (∀ (s s1 : State) (link typ : Nat) (poison : List Nat) (faults : List LineFault) (p : Packet), takePacket link typ poison s = some (p, s1) →
    -- for another package
    (bitsOf p.dest 46 6 ≠ pkgNumber s1 →
      let t := if p.hops = 0 then writeRecord { source := 0, severity := 0, addr := p.dest } (bump s1 .chdHopDrops)
        else match routeLink s1 (bitsOf p.dest 46 6) p.stream with
          | some c => putPacket c { p with hops := p.hops - 1 } s1
          | none => s1
      (typ = 1 → poison = [] → exec (.write link) s = .next t) ∧ (typ = 2 → poison = [] → exec (.readReq link faults) s = .next t)
        ∧ (typ = 3 → poison = [] → exec (.readResp link) s = .next t) ∧ (typ = 4 → poison = [] → exec (.accum link faults) s = .next (heatRow s t))
        ∧ (typ = 5 → exec (.fold link poison faults) s = .next t) ∧ (typ = 6 → poison = [] → exec (.ack link) s = .next t)
        ∧ (typ = 7 → poison = [] → exec (.refuse link) s = .next t))
    -- for this package
    ∧ (bitsOf p.dest 46 6 = pkgNumber s1 → poison = [] →
      (p.srcSector ≠ 15 →
        (typ = 1 → aclAllows s1 p 1 p.decoded = false → exec (.write link) s = .next (refusePacket p 0x0201 (bump s1 .chdAclRefused)))
        ∧ (typ = 1 → aclAllows s1 p 1 p.decoded = true → wasApplied p s1 = false → ∀ bs, decodedOf p = some bs →
          let w := trustedWrite (p.dest % 2 ^ 46) bs s1
          exec (.write link) s = .next (if w.1 = 0 then ackPacket p (noteApplied p w.2) else refusePacket p w.1 w.2))
        ∧ (typ = 4 → aclAllows s1 p 3 p.decoded = true → wasApplied p s1 = false → p.etype ≤ 4 → ∀ bs, decodedOf p = some bs →
          let w := accumLines p.etype faults (bs.length / 64 + 1) (p.dest % 2 ^ 46) bs s1
          exec (.accum link faults) s = .next (heatRow s (if w.1 = 0 then ackPacket p (noteApplied p w.2) else refusePacket p w.1 w.2)))
        ∧ (typ = 2 → aclAllows s1 p 2 p.decoded = true → wasApplied p s1 = false → ∀ bs s2,
          faultyRead faults (p.dest % 2 ^ 46) p.decoded s1 = (.ok bs, s2) → exec (.readReq link faults) s = .next (answerPacket p 3 0 bs s2)))
      ∧ (∀ x : Transfer, Table.find s1.chord.transfers p.stream = some x → p.srcPkg = bitsOf x.remote 46 6 → p.chunk ∈ x.open →
        (typ = 3 → x.op = 1 → p.payload.length = chunkLen x.bytes p.chunk → (trustedWrite (x.localAddr + p.chunk * 65536) p.payload s1).1 = 0 →
          let s2 := setTransfer p.stream { x with acked := x.acked ++ [p.chunk] } (trustedWrite (x.localAddr + p.chunk * 65536) p.payload s1).2
          x.refused = [] →
          exec (.readResp link) s = .next (if x.acked.length + 1 < chunkCount x.bytes then s2
            else finish x.serial 0 (x.acked.length + 1) x.sent { s2 with chord := { s2.chord with transfers := Table.drop s2.chord.transfers p.stream } }))
        ∧ (p.srcSector ≠ 15 → foldAnswered p s1 = none → x.refused = [] →
          (typ = 6 → x.op ≠ 1 →
            let s2 := setTransfer p.stream { x with acked := x.acked ++ [p.chunk] } s1
            exec (.ack link) s = .next (if x.acked.length + 1 < chunkCount x.bytes then s2
              else finish x.serial 0 (x.acked.length + 1) x.sent { s2 with chord := { s2.chord with transfers := Table.drop s2.chord.transfers p.stream } }))
          ∧ (typ = 7 → chunkCount x.bytes = 1 → x.acked = [] →
            let s2 := setTransfer p.stream { x with refused := [(p.chunk, p.status)] } s1
            exec (.refuse link) s
              = .next (finish x.serial p.status 0 x.sent { s2 with chord := { s2.chord with transfers := Table.drop s2.chord.transfers p.stream } }))))
      ∧ (∀ (k : Nat) (f : Fold), typ = 5 → wasApplied p s1 = false → s1.chord.folds.find? (fun e => e.2.stream = p.stream) = some (k, f) →
        f.role = 2 → f.prev = p.srcPkg → p.srcSector < 8 → windowGrants s1 f.sector 4 p.srcPkg p.srcSector f.localAddr f.bytes = true →
        p.chunk < chunkCount f.bytes → p.decoded = chunkLen f.bytes p.chunk → p.etype = f.etype → p.poison = [] → ∀ bs own s2,
        decodedOf p = some bs → ownLines faults (p.decoded / 64) 0 (f.localAddr + p.chunk * 65536) s1 = ((own, [], 0), s2) →
        let n := p.decoded / 64
        let g := { f with written := insertNat p.chunk f.written }
        let sum := blankLines [] n 0 (sumBytes f.etype bs own)
        exec (.fold link poison faults) s = .next
          (settleFold k (writeSum [] n 0 (f.dest + p.chunk * 65536) sum (ackPacket p (noteApplied p (setFold k g s2))))))))
  ∧ (∀ (s : State) (k : Nat) (f : Fold), Table.find s.chord.folds k = some f →
    (f.busy = [] → exec (.foldRetry k) s = .next s)
    ∧ (∀ (c l : Nat) (p : Packet), f.busy = [c] → Table.find f.waiting c = some p → p.chunk = c → routeLink s (bitsOf p.dest 46 6) p.stream = some l →
      exec (.foldRetry k) s
        = .next (setFold k { f with waiting := Table.put f.waiting c p, link := l, busy := [] } (putPacket l p s)))
    ∧ ((f.busy ≠ [] ∨ (f.role ≠ 0 ∧ f.written.length < chunkCount f.bytes)) →
      exec (.foldWaitExpiry k) s = .next (finish f.serial 0x0403 (if f.role = 2 then f.written.length else f.acked.length) f.poisoned
        { s with chord := { s.chord with folds := Table.drop s.chord.folds k } })))
  ∧ (∀ (s : State) (pkg stream : Nat) (fold : Bool),
    exec (.dedupExpiry pkg stream fold) s = .next { s with chord := { s.chord with
      applied := Table.drop s.chord.applied (pkg * 2 ^ 33 + (if fold then 2 ^ 32 else 0) + stream) } })
end

