-- ==== Sys2Proof/Laws/State.lean ====
section
/-! SUPPORT. What each update of the state leaves in each field: one lemma per field per update, all by `rfl`. -/
namespace Sys2Proof.Machine

variable (s : State)

/-! ### rput -/
@[simp] theorem rput_pending (r : Reg) (i j v : Nat) : (rput s r i j v).pending = s.pending := rfl
@[simp] theorem rput_out (r : Reg) (i j v : Nat) : (rput s r i j v).out = s.out := rfl
@[simp] theorem rput_fresh (r : Reg) (i j v : Nat) : (rput s r i j v).fresh = s.fresh := rfl
@[simp] theorem rput_regs (r : Reg) (i j v : Nat) : (rput s r i j v).regs = regPut s.regs r i j v := rfl
@[simp] theorem rput_top (r : Reg) (i j v : Nat) : (rput s r i j v).top = s.top := rfl
@[simp] theorem rput_cad (r : Reg) (i j v : Nat) : (rput s r i j v).cad = s.cad := rfl
@[simp] theorem rput_sct (r : Reg) (i j v : Nat) : (rput s r i j v).sct = s.sct := rfl
@[simp] theorem rput_rings (r : Reg) (i j v : Nat) : (rput s r i j v).rings = s.rings := rfl
@[simp] theorem rput_mem (r : Reg) (i j v : Nat) : (rput s r i j v).mem = s.mem := rfl
@[simp] theorem rput_mover (r : Reg) (i j v : Nat) : (rput s r i j v).mover = s.mover := rfl
@[simp] theorem rput_wake (r : Reg) (i j v : Nat) : (rput s r i j v).wake = s.wake := rfl
@[simp] theorem rput_err (r : Reg) (i j v : Nat) : (rput s r i j v).err = s.err := rfl
@[simp] theorem rput_rst (r : Reg) (i j v : Nat) : (rput s r i j v).rst = s.rst := rfl
@[simp] theorem rput_pci (r : Reg) (i j v : Nat) : (rput s r i j v).pci = s.pci := rfl
@[simp] theorem rput_cxl0 (r : Reg) (i j v : Nat) : (rput s r i j v).cxl0 = s.cxl0 := rfl
@[simp] theorem rput_cxl1 (r : Reg) (i j v : Nat) : (rput s r i j v).cxl1 = s.cxl1 := rfl
@[simp] theorem rput_eth (r : Reg) (i j v : Nat) : (rput s r i j v).eth = s.eth := rfl
@[simp] theorem rput_scl (r : Reg) (i j v : Nat) : (rput s r i j v).scl = s.scl := rfl
@[simp] theorem rput_heat (r : Reg) (i j v : Nat) : (rput s r i j v).heat = s.heat := rfl
@[simp] theorem rput_lat (r : Reg) (i j v : Nat) : (rput s r i j v).lat = s.lat := rfl
@[simp] theorem rput_rng (r : Reg) (i j v : Nat) : (rput s r i j v).rng = s.rng := rfl
@[simp] theorem rput_rdma (r : Reg) (i j v : Nat) : (rput s r i j v).rdma = s.rdma := rfl
@[simp] theorem rput_chord (r : Reg) (i j v : Nat) : (rput s r i j v).chord = s.chord := rfl
@[simp] theorem rput_sealing (r : Reg) (i j v : Nat) : (rput s r i j v).sealing = s.sealing := rfl
@[simp] theorem rput_pair (r : Reg) (i j v : Nat) : (rput s r i j v).pair = s.pair := rfl
@[simp] theorem rput_pins (r : Reg) (i j v : Nat) : (rput s r i j v).pins = s.pins := rfl

/-! ### bumpField -/
@[simp] theorem bumpField_pending (r : Reg) (i lo w n : Nat) : (bumpField s r i lo w n).pending = s.pending := rfl
@[simp] theorem bumpField_out (r : Reg) (i lo w n : Nat) : (bumpField s r i lo w n).out = s.out := rfl
@[simp] theorem bumpField_fresh (r : Reg) (i lo w n : Nat) : (bumpField s r i lo w n).fresh = s.fresh := rfl
@[simp] theorem bumpField_regs (r : Reg) (i lo w n : Nat) : (bumpField s r i lo w n).regs = regPut s.regs r i 0 (setBits (rget s r i) lo w (satAdd w (bitsOf (rget s r i) lo w) n)) := rfl
@[simp] theorem bumpField_top (r : Reg) (i lo w n : Nat) : (bumpField s r i lo w n).top = s.top := rfl
@[simp] theorem bumpField_cad (r : Reg) (i lo w n : Nat) : (bumpField s r i lo w n).cad = s.cad := rfl
@[simp] theorem bumpField_sct (r : Reg) (i lo w n : Nat) : (bumpField s r i lo w n).sct = s.sct := rfl
@[simp] theorem bumpField_rings (r : Reg) (i lo w n : Nat) : (bumpField s r i lo w n).rings = s.rings := rfl
@[simp] theorem bumpField_mem (r : Reg) (i lo w n : Nat) : (bumpField s r i lo w n).mem = s.mem := rfl
@[simp] theorem bumpField_mover (r : Reg) (i lo w n : Nat) : (bumpField s r i lo w n).mover = s.mover := rfl
@[simp] theorem bumpField_wake (r : Reg) (i lo w n : Nat) : (bumpField s r i lo w n).wake = s.wake := rfl
@[simp] theorem bumpField_err (r : Reg) (i lo w n : Nat) : (bumpField s r i lo w n).err = s.err := rfl
@[simp] theorem bumpField_rst (r : Reg) (i lo w n : Nat) : (bumpField s r i lo w n).rst = s.rst := rfl
@[simp] theorem bumpField_pci (r : Reg) (i lo w n : Nat) : (bumpField s r i lo w n).pci = s.pci := rfl
@[simp] theorem bumpField_cxl0 (r : Reg) (i lo w n : Nat) : (bumpField s r i lo w n).cxl0 = s.cxl0 := rfl
@[simp] theorem bumpField_cxl1 (r : Reg) (i lo w n : Nat) : (bumpField s r i lo w n).cxl1 = s.cxl1 := rfl
@[simp] theorem bumpField_eth (r : Reg) (i lo w n : Nat) : (bumpField s r i lo w n).eth = s.eth := rfl
@[simp] theorem bumpField_scl (r : Reg) (i lo w n : Nat) : (bumpField s r i lo w n).scl = s.scl := rfl
@[simp] theorem bumpField_heat (r : Reg) (i lo w n : Nat) : (bumpField s r i lo w n).heat = s.heat := rfl
@[simp] theorem bumpField_lat (r : Reg) (i lo w n : Nat) : (bumpField s r i lo w n).lat = s.lat := rfl
@[simp] theorem bumpField_rng (r : Reg) (i lo w n : Nat) : (bumpField s r i lo w n).rng = s.rng := rfl
@[simp] theorem bumpField_rdma (r : Reg) (i lo w n : Nat) : (bumpField s r i lo w n).rdma = s.rdma := rfl
@[simp] theorem bumpField_chord (r : Reg) (i lo w n : Nat) : (bumpField s r i lo w n).chord = s.chord := rfl
@[simp] theorem bumpField_sealing (r : Reg) (i lo w n : Nat) : (bumpField s r i lo w n).sealing = s.sealing := rfl
@[simp] theorem bumpField_pair (r : Reg) (i lo w n : Nat) : (bumpField s r i lo w n).pair = s.pair := rfl
@[simp] theorem bumpField_pins (r : Reg) (i lo w n : Nat) : (bumpField s r i lo w n).pins = s.pins := rfl

/-! ### bump -/
@[simp] theorem bump_pending (r : Reg) (i : Nat) : (bump s r i).pending = s.pending := rfl
@[simp] theorem bump_out (r : Reg) (i : Nat) : (bump s r i).out = s.out := rfl
@[simp] theorem bump_fresh (r : Reg) (i : Nat) : (bump s r i).fresh = s.fresh := rfl
@[simp] theorem bump_regs (r : Reg) (i : Nat) : (bump s r i).regs = (bumpField s r i 0 32 1).regs := rfl
@[simp] theorem bump_top (r : Reg) (i : Nat) : (bump s r i).top = s.top := rfl
@[simp] theorem bump_cad (r : Reg) (i : Nat) : (bump s r i).cad = s.cad := rfl
@[simp] theorem bump_sct (r : Reg) (i : Nat) : (bump s r i).sct = s.sct := rfl
@[simp] theorem bump_rings (r : Reg) (i : Nat) : (bump s r i).rings = s.rings := rfl
@[simp] theorem bump_mem (r : Reg) (i : Nat) : (bump s r i).mem = s.mem := rfl
@[simp] theorem bump_mover (r : Reg) (i : Nat) : (bump s r i).mover = s.mover := rfl
@[simp] theorem bump_wake (r : Reg) (i : Nat) : (bump s r i).wake = s.wake := rfl
@[simp] theorem bump_err (r : Reg) (i : Nat) : (bump s r i).err = s.err := rfl
@[simp] theorem bump_rst (r : Reg) (i : Nat) : (bump s r i).rst = s.rst := rfl
@[simp] theorem bump_pci (r : Reg) (i : Nat) : (bump s r i).pci = s.pci := rfl
@[simp] theorem bump_cxl0 (r : Reg) (i : Nat) : (bump s r i).cxl0 = s.cxl0 := rfl
@[simp] theorem bump_cxl1 (r : Reg) (i : Nat) : (bump s r i).cxl1 = s.cxl1 := rfl
@[simp] theorem bump_eth (r : Reg) (i : Nat) : (bump s r i).eth = s.eth := rfl
@[simp] theorem bump_scl (r : Reg) (i : Nat) : (bump s r i).scl = s.scl := rfl
@[simp] theorem bump_heat (r : Reg) (i : Nat) : (bump s r i).heat = s.heat := rfl
@[simp] theorem bump_lat (r : Reg) (i : Nat) : (bump s r i).lat = s.lat := rfl
@[simp] theorem bump_rng (r : Reg) (i : Nat) : (bump s r i).rng = s.rng := rfl
@[simp] theorem bump_rdma (r : Reg) (i : Nat) : (bump s r i).rdma = s.rdma := rfl
@[simp] theorem bump_chord (r : Reg) (i : Nat) : (bump s r i).chord = s.chord := rfl
@[simp] theorem bump_sealing (r : Reg) (i : Nat) : (bump s r i).sealing = s.sealing := rfl
@[simp] theorem bump_pair (r : Reg) (i : Nat) : (bump s r i).pair = s.pair := rfl
@[simp] theorem bump_pins (r : Reg) (i : Nat) : (bump s r i).pins = s.pins := rfl

/-! ### emit -/
@[simp] theorem emit_pending (e : Emit) : (emit e s).pending = s.pending := rfl
@[simp] theorem emit_out (e : Emit) : (emit e s).out = s.out ++ [e] := rfl
@[simp] theorem emit_fresh (e : Emit) : (emit e s).fresh = s.fresh := rfl
@[simp] theorem emit_regs (e : Emit) : (emit e s).regs = s.regs := rfl
@[simp] theorem emit_top (e : Emit) : (emit e s).top = s.top := rfl
@[simp] theorem emit_cad (e : Emit) : (emit e s).cad = s.cad := rfl
@[simp] theorem emit_sct (e : Emit) : (emit e s).sct = s.sct := rfl
@[simp] theorem emit_rings (e : Emit) : (emit e s).rings = s.rings := rfl
@[simp] theorem emit_mem (e : Emit) : (emit e s).mem = s.mem := rfl
@[simp] theorem emit_mover (e : Emit) : (emit e s).mover = s.mover := rfl
@[simp] theorem emit_wake (e : Emit) : (emit e s).wake = s.wake := rfl
@[simp] theorem emit_err (e : Emit) : (emit e s).err = s.err := rfl
@[simp] theorem emit_rst (e : Emit) : (emit e s).rst = s.rst := rfl
@[simp] theorem emit_pci (e : Emit) : (emit e s).pci = s.pci := rfl
@[simp] theorem emit_cxl0 (e : Emit) : (emit e s).cxl0 = s.cxl0 := rfl
@[simp] theorem emit_cxl1 (e : Emit) : (emit e s).cxl1 = s.cxl1 := rfl
@[simp] theorem emit_eth (e : Emit) : (emit e s).eth = s.eth := rfl
@[simp] theorem emit_scl (e : Emit) : (emit e s).scl = s.scl := rfl
@[simp] theorem emit_heat (e : Emit) : (emit e s).heat = s.heat := rfl
@[simp] theorem emit_lat (e : Emit) : (emit e s).lat = s.lat := rfl
@[simp] theorem emit_rng (e : Emit) : (emit e s).rng = s.rng := rfl
@[simp] theorem emit_rdma (e : Emit) : (emit e s).rdma = s.rdma := rfl
@[simp] theorem emit_chord (e : Emit) : (emit e s).chord = s.chord := rfl
@[simp] theorem emit_sealing (e : Emit) : (emit e s).sealing = s.sealing := rfl
@[simp] theorem emit_pair (e : Emit) : (emit e s).pair = s.pair := rfl
@[simp] theorem emit_pins (e : Emit) : (emit e s).pins = s.pins := rfl

/-! ### poke -/
@[simp] theorem poke_pending (a : Nat) (bs : List Byte) : (poke s a bs).pending = s.pending := rfl
@[simp] theorem poke_out (a : Nat) (bs : List Byte) : (poke s a bs).out = s.out := rfl
@[simp] theorem poke_fresh (a : Nat) (bs : List Byte) : (poke s a bs).fresh = s.fresh := rfl
@[simp] theorem poke_regs (a : Nat) (bs : List Byte) : (poke s a bs).regs = s.regs := rfl
@[simp] theorem poke_top (a : Nat) (bs : List Byte) : (poke s a bs).top = s.top := rfl
@[simp] theorem poke_cad (a : Nat) (bs : List Byte) : (poke s a bs).cad = s.cad := rfl
@[simp] theorem poke_sct (a : Nat) (bs : List Byte) : (poke s a bs).sct = s.sct := rfl
@[simp] theorem poke_rings (a : Nat) (bs : List Byte) : (poke s a bs).rings = s.rings := rfl
@[simp] theorem poke_mem (a : Nat) (bs : List Byte) : (poke s a bs).mem = { s.mem with cells := cellsPut s.mem.cells a bs } := rfl
@[simp] theorem poke_mover (a : Nat) (bs : List Byte) : (poke s a bs).mover = s.mover := rfl
@[simp] theorem poke_wake (a : Nat) (bs : List Byte) : (poke s a bs).wake = s.wake := rfl
@[simp] theorem poke_err (a : Nat) (bs : List Byte) : (poke s a bs).err = s.err := rfl
@[simp] theorem poke_rst (a : Nat) (bs : List Byte) : (poke s a bs).rst = s.rst := rfl
@[simp] theorem poke_pci (a : Nat) (bs : List Byte) : (poke s a bs).pci = s.pci := rfl
@[simp] theorem poke_cxl0 (a : Nat) (bs : List Byte) : (poke s a bs).cxl0 = s.cxl0 := rfl
@[simp] theorem poke_cxl1 (a : Nat) (bs : List Byte) : (poke s a bs).cxl1 = s.cxl1 := rfl
@[simp] theorem poke_eth (a : Nat) (bs : List Byte) : (poke s a bs).eth = s.eth := rfl
@[simp] theorem poke_scl (a : Nat) (bs : List Byte) : (poke s a bs).scl = s.scl := rfl
@[simp] theorem poke_heat (a : Nat) (bs : List Byte) : (poke s a bs).heat = s.heat := rfl
@[simp] theorem poke_lat (a : Nat) (bs : List Byte) : (poke s a bs).lat = s.lat := rfl
@[simp] theorem poke_rng (a : Nat) (bs : List Byte) : (poke s a bs).rng = s.rng := rfl
@[simp] theorem poke_rdma (a : Nat) (bs : List Byte) : (poke s a bs).rdma = s.rdma := rfl
@[simp] theorem poke_chord (a : Nat) (bs : List Byte) : (poke s a bs).chord = s.chord := rfl
@[simp] theorem poke_sealing (a : Nat) (bs : List Byte) : (poke s a bs).sealing = s.sealing := rfl
@[simp] theorem poke_pair (a : Nat) (bs : List Byte) : (poke s a bs).pair = s.pair := rfl
@[simp] theorem poke_pins (a : Nat) (bs : List Byte) : (poke s a bs).pins = s.pins := rfl

/-! ### poisonLine -/
@[simp] theorem poisonLine_pending (a : Nat) : (poisonLine s a).pending = s.pending := rfl
@[simp] theorem poisonLine_out (a : Nat) : (poisonLine s a).out = s.out := rfl
@[simp] theorem poisonLine_fresh (a : Nat) : (poisonLine s a).fresh = s.fresh := rfl
@[simp] theorem poisonLine_regs (a : Nat) : (poisonLine s a).regs = s.regs := rfl
@[simp] theorem poisonLine_top (a : Nat) : (poisonLine s a).top = s.top := rfl
@[simp] theorem poisonLine_cad (a : Nat) : (poisonLine s a).cad = s.cad := rfl
@[simp] theorem poisonLine_sct (a : Nat) : (poisonLine s a).sct = s.sct := rfl
@[simp] theorem poisonLine_rings (a : Nat) : (poisonLine s a).rings = s.rings := rfl
@[simp] theorem poisonLine_mem (a : Nat) : (poisonLine s a).mem = { s.mem with poison := insertNat (a / 64) s.mem.poison } := rfl
@[simp] theorem poisonLine_mover (a : Nat) : (poisonLine s a).mover = s.mover := rfl
@[simp] theorem poisonLine_wake (a : Nat) : (poisonLine s a).wake = s.wake := rfl
@[simp] theorem poisonLine_err (a : Nat) : (poisonLine s a).err = s.err := rfl
@[simp] theorem poisonLine_rst (a : Nat) : (poisonLine s a).rst = s.rst := rfl
@[simp] theorem poisonLine_pci (a : Nat) : (poisonLine s a).pci = s.pci := rfl
@[simp] theorem poisonLine_cxl0 (a : Nat) : (poisonLine s a).cxl0 = s.cxl0 := rfl
@[simp] theorem poisonLine_cxl1 (a : Nat) : (poisonLine s a).cxl1 = s.cxl1 := rfl
@[simp] theorem poisonLine_eth (a : Nat) : (poisonLine s a).eth = s.eth := rfl
@[simp] theorem poisonLine_scl (a : Nat) : (poisonLine s a).scl = s.scl := rfl
@[simp] theorem poisonLine_heat (a : Nat) : (poisonLine s a).heat = s.heat := rfl
@[simp] theorem poisonLine_lat (a : Nat) : (poisonLine s a).lat = s.lat := rfl
@[simp] theorem poisonLine_rng (a : Nat) : (poisonLine s a).rng = s.rng := rfl
@[simp] theorem poisonLine_rdma (a : Nat) : (poisonLine s a).rdma = s.rdma := rfl
@[simp] theorem poisonLine_chord (a : Nat) : (poisonLine s a).chord = s.chord := rfl
@[simp] theorem poisonLine_sealing (a : Nat) : (poisonLine s a).sealing = s.sealing := rfl
@[simp] theorem poisonLine_pair (a : Nat) : (poisonLine s a).pair = s.pair := rfl
@[simp] theorem poisonLine_pins (a : Nat) : (poisonLine s a).pins = s.pins := rfl

/-! ### unpoison -/
@[simp] theorem unpoison_pending (a : Nat) : (unpoison s a).pending = s.pending := rfl
@[simp] theorem unpoison_out (a : Nat) : (unpoison s a).out = s.out := rfl
@[simp] theorem unpoison_fresh (a : Nat) : (unpoison s a).fresh = s.fresh := rfl
@[simp] theorem unpoison_regs (a : Nat) : (unpoison s a).regs = s.regs := rfl
@[simp] theorem unpoison_top (a : Nat) : (unpoison s a).top = s.top := rfl
@[simp] theorem unpoison_cad (a : Nat) : (unpoison s a).cad = s.cad := rfl
@[simp] theorem unpoison_sct (a : Nat) : (unpoison s a).sct = s.sct := rfl
@[simp] theorem unpoison_rings (a : Nat) : (unpoison s a).rings = s.rings := rfl
@[simp] theorem unpoison_mem (a : Nat) : (unpoison s a).mem = { s.mem with poison := s.mem.poison.filter (· ≠ a / 64) } := rfl
@[simp] theorem unpoison_mover (a : Nat) : (unpoison s a).mover = s.mover := rfl
@[simp] theorem unpoison_wake (a : Nat) : (unpoison s a).wake = s.wake := rfl
@[simp] theorem unpoison_err (a : Nat) : (unpoison s a).err = s.err := rfl
@[simp] theorem unpoison_rst (a : Nat) : (unpoison s a).rst = s.rst := rfl
@[simp] theorem unpoison_pci (a : Nat) : (unpoison s a).pci = s.pci := rfl
@[simp] theorem unpoison_cxl0 (a : Nat) : (unpoison s a).cxl0 = s.cxl0 := rfl
@[simp] theorem unpoison_cxl1 (a : Nat) : (unpoison s a).cxl1 = s.cxl1 := rfl
@[simp] theorem unpoison_eth (a : Nat) : (unpoison s a).eth = s.eth := rfl
@[simp] theorem unpoison_scl (a : Nat) : (unpoison s a).scl = s.scl := rfl
@[simp] theorem unpoison_heat (a : Nat) : (unpoison s a).heat = s.heat := rfl
@[simp] theorem unpoison_lat (a : Nat) : (unpoison s a).lat = s.lat := rfl
@[simp] theorem unpoison_rng (a : Nat) : (unpoison s a).rng = s.rng := rfl
@[simp] theorem unpoison_rdma (a : Nat) : (unpoison s a).rdma = s.rdma := rfl
@[simp] theorem unpoison_chord (a : Nat) : (unpoison s a).chord = s.chord := rfl
@[simp] theorem unpoison_sealing (a : Nat) : (unpoison s a).sealing = s.sealing := rfl
@[simp] theorem unpoison_pair (a : Nat) : (unpoison s a).pair = s.pair := rfl
@[simp] theorem unpoison_pins (a : Nat) : (unpoison s a).pins = s.pins := rfl

/-! ### zeroFill -/
@[simp] theorem zeroFill_pending (base size : Nat) : (zeroFill s base size).pending = s.pending := rfl
@[simp] theorem zeroFill_out (base size : Nat) : (zeroFill s base size).out = s.out := rfl
@[simp] theorem zeroFill_fresh (base size : Nat) : (zeroFill s base size).fresh = s.fresh := rfl
@[simp] theorem zeroFill_regs (base size : Nat) : (zeroFill s base size).regs = s.regs := rfl
@[simp] theorem zeroFill_top (base size : Nat) : (zeroFill s base size).top = s.top := rfl
@[simp] theorem zeroFill_cad (base size : Nat) : (zeroFill s base size).cad = s.cad := rfl
@[simp] theorem zeroFill_sct (base size : Nat) : (zeroFill s base size).sct = s.sct := rfl
@[simp] theorem zeroFill_rings (base size : Nat) : (zeroFill s base size).rings = s.rings := rfl
@[simp] theorem zeroFill_mover (base size : Nat) : (zeroFill s base size).mover = s.mover := rfl
@[simp] theorem zeroFill_wake (base size : Nat) : (zeroFill s base size).wake = s.wake := rfl
@[simp] theorem zeroFill_err (base size : Nat) : (zeroFill s base size).err = s.err := rfl
@[simp] theorem zeroFill_rst (base size : Nat) : (zeroFill s base size).rst = s.rst := rfl
@[simp] theorem zeroFill_pci (base size : Nat) : (zeroFill s base size).pci = s.pci := rfl
@[simp] theorem zeroFill_cxl0 (base size : Nat) : (zeroFill s base size).cxl0 = s.cxl0 := rfl
@[simp] theorem zeroFill_cxl1 (base size : Nat) : (zeroFill s base size).cxl1 = s.cxl1 := rfl
@[simp] theorem zeroFill_eth (base size : Nat) : (zeroFill s base size).eth = s.eth := rfl
@[simp] theorem zeroFill_scl (base size : Nat) : (zeroFill s base size).scl = s.scl := rfl
@[simp] theorem zeroFill_heat (base size : Nat) : (zeroFill s base size).heat = s.heat := rfl
@[simp] theorem zeroFill_lat (base size : Nat) : (zeroFill s base size).lat = s.lat := rfl
@[simp] theorem zeroFill_rng (base size : Nat) : (zeroFill s base size).rng = s.rng := rfl
@[simp] theorem zeroFill_rdma (base size : Nat) : (zeroFill s base size).rdma = s.rdma := rfl
@[simp] theorem zeroFill_chord (base size : Nat) : (zeroFill s base size).chord = s.chord := rfl
@[simp] theorem zeroFill_sealing (base size : Nat) : (zeroFill s base size).sealing = s.sealing := rfl
@[simp] theorem zeroFill_pair (base size : Nat) : (zeroFill s base size).pair = s.pair := rfl
@[simp] theorem zeroFill_pins (base size : Nat) : (zeroFill s base size).pins = s.pins := rfl

/-! ### setWake -/
@[simp] theorem setWake_pending (q : Nat) (w : WakeQ) : (setWake s q w).pending = s.pending := rfl
@[simp] theorem setWake_out (q : Nat) (w : WakeQ) : (setWake s q w).out = s.out := rfl
@[simp] theorem setWake_fresh (q : Nat) (w : WakeQ) : (setWake s q w).fresh = s.fresh := rfl
@[simp] theorem setWake_regs (q : Nat) (w : WakeQ) : (setWake s q w).regs = s.regs := rfl
@[simp] theorem setWake_top (q : Nat) (w : WakeQ) : (setWake s q w).top = s.top := rfl
@[simp] theorem setWake_cad (q : Nat) (w : WakeQ) : (setWake s q w).cad = s.cad := rfl
@[simp] theorem setWake_sct (q : Nat) (w : WakeQ) : (setWake s q w).sct = s.sct := rfl
@[simp] theorem setWake_rings (q : Nat) (w : WakeQ) : (setWake s q w).rings = s.rings := rfl
@[simp] theorem setWake_mem (q : Nat) (w : WakeQ) : (setWake s q w).mem = s.mem := rfl
@[simp] theorem setWake_mover (q : Nat) (w : WakeQ) : (setWake s q w).mover = s.mover := rfl
@[simp] theorem setWake_wake (q : Nat) (w : WakeQ) : (setWake s q w).wake = Table.put s.wake q w := rfl
@[simp] theorem setWake_err (q : Nat) (w : WakeQ) : (setWake s q w).err = s.err := rfl
@[simp] theorem setWake_rst (q : Nat) (w : WakeQ) : (setWake s q w).rst = s.rst := rfl
@[simp] theorem setWake_pci (q : Nat) (w : WakeQ) : (setWake s q w).pci = s.pci := rfl
@[simp] theorem setWake_cxl0 (q : Nat) (w : WakeQ) : (setWake s q w).cxl0 = s.cxl0 := rfl
@[simp] theorem setWake_cxl1 (q : Nat) (w : WakeQ) : (setWake s q w).cxl1 = s.cxl1 := rfl
@[simp] theorem setWake_eth (q : Nat) (w : WakeQ) : (setWake s q w).eth = s.eth := rfl
@[simp] theorem setWake_scl (q : Nat) (w : WakeQ) : (setWake s q w).scl = s.scl := rfl
@[simp] theorem setWake_heat (q : Nat) (w : WakeQ) : (setWake s q w).heat = s.heat := rfl
@[simp] theorem setWake_lat (q : Nat) (w : WakeQ) : (setWake s q w).lat = s.lat := rfl
@[simp] theorem setWake_rng (q : Nat) (w : WakeQ) : (setWake s q w).rng = s.rng := rfl
@[simp] theorem setWake_rdma (q : Nat) (w : WakeQ) : (setWake s q w).rdma = s.rdma := rfl
@[simp] theorem setWake_chord (q : Nat) (w : WakeQ) : (setWake s q w).chord = s.chord := rfl
@[simp] theorem setWake_sealing (q : Nat) (w : WakeQ) : (setWake s q w).sealing = s.sealing := rfl
@[simp] theorem setWake_pair (q : Nat) (w : WakeQ) : (setWake s q w).pair = s.pair := rfl
@[simp] theorem setWake_pins (q : Nat) (w : WakeQ) : (setWake s q w).pins = s.pins := rfl

/-! ### setRing -/
@[simp] theorem setRing_pending (i : Nat) (r : Ring) : (setRing s i r).pending = s.pending := rfl
@[simp] theorem setRing_out (i : Nat) (r : Ring) : (setRing s i r).out = s.out := rfl
@[simp] theorem setRing_fresh (i : Nat) (r : Ring) : (setRing s i r).fresh = s.fresh := rfl
@[simp] theorem setRing_regs (i : Nat) (r : Ring) : (setRing s i r).regs = s.regs := rfl
@[simp] theorem setRing_top (i : Nat) (r : Ring) : (setRing s i r).top = s.top := rfl
@[simp] theorem setRing_cad (i : Nat) (r : Ring) : (setRing s i r).cad = s.cad := rfl
@[simp] theorem setRing_sct (i : Nat) (r : Ring) : (setRing s i r).sct = s.sct := rfl
@[simp] theorem setRing_rings (i : Nat) (r : Ring) : (setRing s i r).rings = { s.rings with table := Table.put s.rings.table i r } := rfl
@[simp] theorem setRing_mem (i : Nat) (r : Ring) : (setRing s i r).mem = s.mem := rfl
@[simp] theorem setRing_mover (i : Nat) (r : Ring) : (setRing s i r).mover = s.mover := rfl
@[simp] theorem setRing_wake (i : Nat) (r : Ring) : (setRing s i r).wake = s.wake := rfl
@[simp] theorem setRing_err (i : Nat) (r : Ring) : (setRing s i r).err = s.err := rfl
@[simp] theorem setRing_rst (i : Nat) (r : Ring) : (setRing s i r).rst = s.rst := rfl
@[simp] theorem setRing_pci (i : Nat) (r : Ring) : (setRing s i r).pci = s.pci := rfl
@[simp] theorem setRing_cxl0 (i : Nat) (r : Ring) : (setRing s i r).cxl0 = s.cxl0 := rfl
@[simp] theorem setRing_cxl1 (i : Nat) (r : Ring) : (setRing s i r).cxl1 = s.cxl1 := rfl
@[simp] theorem setRing_eth (i : Nat) (r : Ring) : (setRing s i r).eth = s.eth := rfl
@[simp] theorem setRing_scl (i : Nat) (r : Ring) : (setRing s i r).scl = s.scl := rfl
@[simp] theorem setRing_heat (i : Nat) (r : Ring) : (setRing s i r).heat = s.heat := rfl
@[simp] theorem setRing_lat (i : Nat) (r : Ring) : (setRing s i r).lat = s.lat := rfl
@[simp] theorem setRing_rng (i : Nat) (r : Ring) : (setRing s i r).rng = s.rng := rfl
@[simp] theorem setRing_rdma (i : Nat) (r : Ring) : (setRing s i r).rdma = s.rdma := rfl
@[simp] theorem setRing_chord (i : Nat) (r : Ring) : (setRing s i r).chord = s.chord := rfl
@[simp] theorem setRing_sealing (i : Nat) (r : Ring) : (setRing s i r).sealing = s.sealing := rfl
@[simp] theorem setRing_pair (i : Nat) (r : Ring) : (setRing s i r).pair = s.pair := rfl
@[simp] theorem setRing_pins (i : Nat) (r : Ring) : (setRing s i r).pins = s.pins := rfl

/-! ### mapInflight -/
@[simp] theorem mapInflight_pending (f : Cmd → Cmd) : (mapInflight f s).pending = s.pending := rfl
@[simp] theorem mapInflight_out (f : Cmd → Cmd) : (mapInflight f s).out = s.out := rfl
@[simp] theorem mapInflight_fresh (f : Cmd → Cmd) : (mapInflight f s).fresh = s.fresh := rfl
@[simp] theorem mapInflight_regs (f : Cmd → Cmd) : (mapInflight f s).regs = s.regs := rfl
@[simp] theorem mapInflight_top (f : Cmd → Cmd) : (mapInflight f s).top = s.top := rfl
@[simp] theorem mapInflight_cad (f : Cmd → Cmd) : (mapInflight f s).cad = s.cad := rfl
@[simp] theorem mapInflight_sct (f : Cmd → Cmd) : (mapInflight f s).sct = s.sct := rfl
@[simp] theorem mapInflight_rings (f : Cmd → Cmd) : (mapInflight f s).rings = { s.rings with table := s.rings.table.map (fun e => (e.1, { e.2 with inflight := e.2.inflight.map f })) } := rfl
@[simp] theorem mapInflight_mem (f : Cmd → Cmd) : (mapInflight f s).mem = s.mem := rfl
@[simp] theorem mapInflight_mover (f : Cmd → Cmd) : (mapInflight f s).mover = s.mover := rfl
@[simp] theorem mapInflight_wake (f : Cmd → Cmd) : (mapInflight f s).wake = s.wake := rfl
@[simp] theorem mapInflight_err (f : Cmd → Cmd) : (mapInflight f s).err = s.err := rfl
@[simp] theorem mapInflight_rst (f : Cmd → Cmd) : (mapInflight f s).rst = s.rst := rfl
@[simp] theorem mapInflight_pci (f : Cmd → Cmd) : (mapInflight f s).pci = s.pci := rfl
@[simp] theorem mapInflight_cxl0 (f : Cmd → Cmd) : (mapInflight f s).cxl0 = s.cxl0 := rfl
@[simp] theorem mapInflight_cxl1 (f : Cmd → Cmd) : (mapInflight f s).cxl1 = s.cxl1 := rfl
@[simp] theorem mapInflight_eth (f : Cmd → Cmd) : (mapInflight f s).eth = s.eth := rfl
@[simp] theorem mapInflight_scl (f : Cmd → Cmd) : (mapInflight f s).scl = s.scl := rfl
@[simp] theorem mapInflight_heat (f : Cmd → Cmd) : (mapInflight f s).heat = s.heat := rfl
@[simp] theorem mapInflight_lat (f : Cmd → Cmd) : (mapInflight f s).lat = s.lat := rfl
@[simp] theorem mapInflight_rng (f : Cmd → Cmd) : (mapInflight f s).rng = s.rng := rfl
@[simp] theorem mapInflight_rdma (f : Cmd → Cmd) : (mapInflight f s).rdma = s.rdma := rfl
@[simp] theorem mapInflight_chord (f : Cmd → Cmd) : (mapInflight f s).chord = s.chord := rfl
@[simp] theorem mapInflight_sealing (f : Cmd → Cmd) : (mapInflight f s).sealing = s.sealing := rfl
@[simp] theorem mapInflight_pair (f : Cmd → Cmd) : (mapInflight f s).pair = s.pair := rfl
@[simp] theorem mapInflight_pins (f : Cmd → Cmd) : (mapInflight f s).pins = s.pins := rfl

/-! ### finish -/
@[simp] theorem finish_pending (n st r0 r1 : Nat) : (finish n st r0 r1 s).pending = s.pending := rfl
@[simp] theorem finish_out (n st r0 r1 : Nat) : (finish n st r0 r1 s).out = s.out := rfl
@[simp] theorem finish_fresh (n st r0 r1 : Nat) : (finish n st r0 r1 s).fresh = s.fresh := rfl
@[simp] theorem finish_regs (n st r0 r1 : Nat) : (finish n st r0 r1 s).regs = s.regs := rfl
@[simp] theorem finish_top (n st r0 r1 : Nat) : (finish n st r0 r1 s).top = s.top := rfl
@[simp] theorem finish_cad (n st r0 r1 : Nat) : (finish n st r0 r1 s).cad = s.cad := rfl
@[simp] theorem finish_sct (n st r0 r1 : Nat) : (finish n st r0 r1 s).sct = s.sct := rfl
@[simp] theorem finish_mem (n st r0 r1 : Nat) : (finish n st r0 r1 s).mem = s.mem := rfl
@[simp] theorem finish_mover (n st r0 r1 : Nat) : (finish n st r0 r1 s).mover = s.mover := rfl
@[simp] theorem finish_wake (n st r0 r1 : Nat) : (finish n st r0 r1 s).wake = s.wake := rfl
@[simp] theorem finish_err (n st r0 r1 : Nat) : (finish n st r0 r1 s).err = s.err := rfl
@[simp] theorem finish_rst (n st r0 r1 : Nat) : (finish n st r0 r1 s).rst = s.rst := rfl
@[simp] theorem finish_pci (n st r0 r1 : Nat) : (finish n st r0 r1 s).pci = s.pci := rfl
@[simp] theorem finish_cxl0 (n st r0 r1 : Nat) : (finish n st r0 r1 s).cxl0 = s.cxl0 := rfl
@[simp] theorem finish_cxl1 (n st r0 r1 : Nat) : (finish n st r0 r1 s).cxl1 = s.cxl1 := rfl
@[simp] theorem finish_eth (n st r0 r1 : Nat) : (finish n st r0 r1 s).eth = s.eth := rfl
@[simp] theorem finish_scl (n st r0 r1 : Nat) : (finish n st r0 r1 s).scl = s.scl := rfl
@[simp] theorem finish_heat (n st r0 r1 : Nat) : (finish n st r0 r1 s).heat = s.heat := rfl
@[simp] theorem finish_lat (n st r0 r1 : Nat) : (finish n st r0 r1 s).lat = s.lat := rfl
@[simp] theorem finish_rng (n st r0 r1 : Nat) : (finish n st r0 r1 s).rng = s.rng := rfl
@[simp] theorem finish_rdma (n st r0 r1 : Nat) : (finish n st r0 r1 s).rdma = s.rdma := rfl
@[simp] theorem finish_chord (n st r0 r1 : Nat) : (finish n st r0 r1 s).chord = s.chord := rfl
@[simp] theorem finish_sealing (n st r0 r1 : Nat) : (finish n st r0 r1 s).sealing = s.sealing := rfl
@[simp] theorem finish_pair (n st r0 r1 : Nat) : (finish n st r0 r1 s).pair = s.pair := rfl
@[simp] theorem finish_pins (n st r0 r1 : Nat) : (finish n st r0 r1 s).pins = s.pins := rfl

/-! ### setPhase -/
@[simp] theorem setPhase_pending (n : Nat) (p : Phase) : (setPhase n p s).pending = s.pending := rfl
@[simp] theorem setPhase_out (n : Nat) (p : Phase) : (setPhase n p s).out = s.out := rfl
@[simp] theorem setPhase_fresh (n : Nat) (p : Phase) : (setPhase n p s).fresh = s.fresh := rfl
@[simp] theorem setPhase_regs (n : Nat) (p : Phase) : (setPhase n p s).regs = s.regs := rfl
@[simp] theorem setPhase_top (n : Nat) (p : Phase) : (setPhase n p s).top = s.top := rfl
@[simp] theorem setPhase_cad (n : Nat) (p : Phase) : (setPhase n p s).cad = s.cad := rfl
@[simp] theorem setPhase_sct (n : Nat) (p : Phase) : (setPhase n p s).sct = s.sct := rfl
@[simp] theorem setPhase_mem (n : Nat) (p : Phase) : (setPhase n p s).mem = s.mem := rfl
@[simp] theorem setPhase_mover (n : Nat) (p : Phase) : (setPhase n p s).mover = s.mover := rfl
@[simp] theorem setPhase_wake (n : Nat) (p : Phase) : (setPhase n p s).wake = s.wake := rfl
@[simp] theorem setPhase_err (n : Nat) (p : Phase) : (setPhase n p s).err = s.err := rfl
@[simp] theorem setPhase_rst (n : Nat) (p : Phase) : (setPhase n p s).rst = s.rst := rfl
@[simp] theorem setPhase_pci (n : Nat) (p : Phase) : (setPhase n p s).pci = s.pci := rfl
@[simp] theorem setPhase_cxl0 (n : Nat) (p : Phase) : (setPhase n p s).cxl0 = s.cxl0 := rfl
@[simp] theorem setPhase_cxl1 (n : Nat) (p : Phase) : (setPhase n p s).cxl1 = s.cxl1 := rfl
@[simp] theorem setPhase_eth (n : Nat) (p : Phase) : (setPhase n p s).eth = s.eth := rfl
@[simp] theorem setPhase_scl (n : Nat) (p : Phase) : (setPhase n p s).scl = s.scl := rfl
@[simp] theorem setPhase_heat (n : Nat) (p : Phase) : (setPhase n p s).heat = s.heat := rfl
@[simp] theorem setPhase_lat (n : Nat) (p : Phase) : (setPhase n p s).lat = s.lat := rfl
@[simp] theorem setPhase_rng (n : Nat) (p : Phase) : (setPhase n p s).rng = s.rng := rfl
@[simp] theorem setPhase_rdma (n : Nat) (p : Phase) : (setPhase n p s).rdma = s.rdma := rfl
@[simp] theorem setPhase_chord (n : Nat) (p : Phase) : (setPhase n p s).chord = s.chord := rfl
@[simp] theorem setPhase_sealing (n : Nat) (p : Phase) : (setPhase n p s).sealing = s.sealing := rfl
@[simp] theorem setPhase_pair (n : Nat) (p : Phase) : (setPhase n p s).pair = s.pair := rfl
@[simp] theorem setPhase_pins (n : Nat) (p : Phase) : (setPhase n p s).pins = s.pins := rfl

/-! ### setSeal -/
@[simp] theorem setSeal_pending (n : Nat) (x : SealSector) : (setSeal s n x).pending = s.pending := rfl
@[simp] theorem setSeal_out (n : Nat) (x : SealSector) : (setSeal s n x).out = s.out := rfl
@[simp] theorem setSeal_fresh (n : Nat) (x : SealSector) : (setSeal s n x).fresh = s.fresh := rfl
@[simp] theorem setSeal_regs (n : Nat) (x : SealSector) : (setSeal s n x).regs = s.regs := rfl
@[simp] theorem setSeal_top (n : Nat) (x : SealSector) : (setSeal s n x).top = s.top := rfl
@[simp] theorem setSeal_cad (n : Nat) (x : SealSector) : (setSeal s n x).cad = s.cad := rfl
@[simp] theorem setSeal_sct (n : Nat) (x : SealSector) : (setSeal s n x).sct = s.sct := rfl
@[simp] theorem setSeal_rings (n : Nat) (x : SealSector) : (setSeal s n x).rings = s.rings := rfl
@[simp] theorem setSeal_mem (n : Nat) (x : SealSector) : (setSeal s n x).mem = s.mem := rfl
@[simp] theorem setSeal_mover (n : Nat) (x : SealSector) : (setSeal s n x).mover = s.mover := rfl
@[simp] theorem setSeal_wake (n : Nat) (x : SealSector) : (setSeal s n x).wake = s.wake := rfl
@[simp] theorem setSeal_err (n : Nat) (x : SealSector) : (setSeal s n x).err = s.err := rfl
@[simp] theorem setSeal_rst (n : Nat) (x : SealSector) : (setSeal s n x).rst = s.rst := rfl
@[simp] theorem setSeal_pci (n : Nat) (x : SealSector) : (setSeal s n x).pci = s.pci := rfl
@[simp] theorem setSeal_cxl0 (n : Nat) (x : SealSector) : (setSeal s n x).cxl0 = s.cxl0 := rfl
@[simp] theorem setSeal_cxl1 (n : Nat) (x : SealSector) : (setSeal s n x).cxl1 = s.cxl1 := rfl
@[simp] theorem setSeal_eth (n : Nat) (x : SealSector) : (setSeal s n x).eth = s.eth := rfl
@[simp] theorem setSeal_scl (n : Nat) (x : SealSector) : (setSeal s n x).scl = s.scl := rfl
@[simp] theorem setSeal_heat (n : Nat) (x : SealSector) : (setSeal s n x).heat = s.heat := rfl
@[simp] theorem setSeal_lat (n : Nat) (x : SealSector) : (setSeal s n x).lat = s.lat := rfl
@[simp] theorem setSeal_rng (n : Nat) (x : SealSector) : (setSeal s n x).rng = s.rng := rfl
@[simp] theorem setSeal_rdma (n : Nat) (x : SealSector) : (setSeal s n x).rdma = s.rdma := rfl
@[simp] theorem setSeal_chord (n : Nat) (x : SealSector) : (setSeal s n x).chord = s.chord := rfl
@[simp] theorem setSeal_sealing (n : Nat) (x : SealSector) : (setSeal s n x).sealing = { s.sealing with sectors := Table.put s.sealing.sectors n x } := rfl
@[simp] theorem setSeal_pair (n : Nat) (x : SealSector) : (setSeal s n x).pair = s.pair := rfl
@[simp] theorem setSeal_pins (n : Nat) (x : SealSector) : (setSeal s n x).pins = s.pins := rfl

/-! ### setCad -/
@[simp] theorem setCad_pending (c : Cad) : (setCad c s).pending = s.pending := rfl
@[simp] theorem setCad_out (c : Cad) : (setCad c s).out = s.out := rfl
@[simp] theorem setCad_fresh (c : Cad) : (setCad c s).fresh = s.fresh := rfl
@[simp] theorem setCad_regs (c : Cad) : (setCad c s).regs = s.regs := rfl
@[simp] theorem setCad_top (c : Cad) : (setCad c s).top = s.top := rfl
@[simp] theorem setCad_cad (c : Cad) : (setCad c s).cad = c := rfl
@[simp] theorem setCad_sct (c : Cad) : (setCad c s).sct = s.sct := rfl
@[simp] theorem setCad_rings (c : Cad) : (setCad c s).rings = s.rings := rfl
@[simp] theorem setCad_mem (c : Cad) : (setCad c s).mem = s.mem := rfl
@[simp] theorem setCad_mover (c : Cad) : (setCad c s).mover = s.mover := rfl
@[simp] theorem setCad_wake (c : Cad) : (setCad c s).wake = s.wake := rfl
@[simp] theorem setCad_err (c : Cad) : (setCad c s).err = s.err := rfl
@[simp] theorem setCad_rst (c : Cad) : (setCad c s).rst = s.rst := rfl
@[simp] theorem setCad_pci (c : Cad) : (setCad c s).pci = s.pci := rfl
@[simp] theorem setCad_cxl0 (c : Cad) : (setCad c s).cxl0 = s.cxl0 := rfl
@[simp] theorem setCad_cxl1 (c : Cad) : (setCad c s).cxl1 = s.cxl1 := rfl
@[simp] theorem setCad_eth (c : Cad) : (setCad c s).eth = s.eth := rfl
@[simp] theorem setCad_scl (c : Cad) : (setCad c s).scl = s.scl := rfl
@[simp] theorem setCad_heat (c : Cad) : (setCad c s).heat = s.heat := rfl
@[simp] theorem setCad_lat (c : Cad) : (setCad c s).lat = s.lat := rfl
@[simp] theorem setCad_rng (c : Cad) : (setCad c s).rng = s.rng := rfl
@[simp] theorem setCad_rdma (c : Cad) : (setCad c s).rdma = s.rdma := rfl
@[simp] theorem setCad_chord (c : Cad) : (setCad c s).chord = s.chord := rfl
@[simp] theorem setCad_sealing (c : Cad) : (setCad c s).sealing = s.sealing := rfl
@[simp] theorem setCad_pair (c : Cad) : (setCad c s).pair = s.pair := rfl
@[simp] theorem setCad_pins (c : Cad) : (setCad c s).pins = s.pins := rfl

/-! ### setChord -/
@[simp] theorem setChord_pending (x : Chord) : (setChord x s).pending = s.pending := rfl
@[simp] theorem setChord_out (x : Chord) : (setChord x s).out = s.out := rfl
@[simp] theorem setChord_fresh (x : Chord) : (setChord x s).fresh = s.fresh := rfl
@[simp] theorem setChord_regs (x : Chord) : (setChord x s).regs = s.regs := rfl
@[simp] theorem setChord_top (x : Chord) : (setChord x s).top = s.top := rfl
@[simp] theorem setChord_cad (x : Chord) : (setChord x s).cad = s.cad := rfl
@[simp] theorem setChord_sct (x : Chord) : (setChord x s).sct = s.sct := rfl
@[simp] theorem setChord_rings (x : Chord) : (setChord x s).rings = s.rings := rfl
@[simp] theorem setChord_mem (x : Chord) : (setChord x s).mem = s.mem := rfl
@[simp] theorem setChord_mover (x : Chord) : (setChord x s).mover = s.mover := rfl
@[simp] theorem setChord_wake (x : Chord) : (setChord x s).wake = s.wake := rfl
@[simp] theorem setChord_err (x : Chord) : (setChord x s).err = s.err := rfl
@[simp] theorem setChord_rst (x : Chord) : (setChord x s).rst = s.rst := rfl
@[simp] theorem setChord_pci (x : Chord) : (setChord x s).pci = s.pci := rfl
@[simp] theorem setChord_cxl0 (x : Chord) : (setChord x s).cxl0 = s.cxl0 := rfl
@[simp] theorem setChord_cxl1 (x : Chord) : (setChord x s).cxl1 = s.cxl1 := rfl
@[simp] theorem setChord_eth (x : Chord) : (setChord x s).eth = s.eth := rfl
@[simp] theorem setChord_scl (x : Chord) : (setChord x s).scl = s.scl := rfl
@[simp] theorem setChord_heat (x : Chord) : (setChord x s).heat = s.heat := rfl
@[simp] theorem setChord_lat (x : Chord) : (setChord x s).lat = s.lat := rfl
@[simp] theorem setChord_rng (x : Chord) : (setChord x s).rng = s.rng := rfl
@[simp] theorem setChord_rdma (x : Chord) : (setChord x s).rdma = s.rdma := rfl
@[simp] theorem setChord_chord (x : Chord) : (setChord x s).chord = x := rfl
@[simp] theorem setChord_sealing (x : Chord) : (setChord x s).sealing = s.sealing := rfl
@[simp] theorem setChord_pair (x : Chord) : (setChord x s).pair = s.pair := rfl
@[simp] theorem setChord_pins (x : Chord) : (setChord x s).pins = s.pins := rfl

/-! ### setLink -/
@[simp] theorem setLink_pending (c : Nat) (l : Link) : (setLink c l s).pending = s.pending := rfl
@[simp] theorem setLink_out (c : Nat) (l : Link) : (setLink c l s).out = s.out := rfl
@[simp] theorem setLink_fresh (c : Nat) (l : Link) : (setLink c l s).fresh = s.fresh := rfl
@[simp] theorem setLink_regs (c : Nat) (l : Link) : (setLink c l s).regs = s.regs := rfl
@[simp] theorem setLink_top (c : Nat) (l : Link) : (setLink c l s).top = s.top := rfl
@[simp] theorem setLink_cad (c : Nat) (l : Link) : (setLink c l s).cad = s.cad := rfl
@[simp] theorem setLink_sct (c : Nat) (l : Link) : (setLink c l s).sct = s.sct := rfl
@[simp] theorem setLink_rings (c : Nat) (l : Link) : (setLink c l s).rings = s.rings := rfl
@[simp] theorem setLink_mem (c : Nat) (l : Link) : (setLink c l s).mem = s.mem := rfl
@[simp] theorem setLink_mover (c : Nat) (l : Link) : (setLink c l s).mover = s.mover := rfl
@[simp] theorem setLink_wake (c : Nat) (l : Link) : (setLink c l s).wake = s.wake := rfl
@[simp] theorem setLink_err (c : Nat) (l : Link) : (setLink c l s).err = s.err := rfl
@[simp] theorem setLink_rst (c : Nat) (l : Link) : (setLink c l s).rst = s.rst := rfl
@[simp] theorem setLink_pci (c : Nat) (l : Link) : (setLink c l s).pci = s.pci := rfl
@[simp] theorem setLink_cxl0 (c : Nat) (l : Link) : (setLink c l s).cxl0 = s.cxl0 := rfl
@[simp] theorem setLink_cxl1 (c : Nat) (l : Link) : (setLink c l s).cxl1 = s.cxl1 := rfl
@[simp] theorem setLink_eth (c : Nat) (l : Link) : (setLink c l s).eth = s.eth := rfl
@[simp] theorem setLink_scl (c : Nat) (l : Link) : (setLink c l s).scl = s.scl := rfl
@[simp] theorem setLink_heat (c : Nat) (l : Link) : (setLink c l s).heat = s.heat := rfl
@[simp] theorem setLink_lat (c : Nat) (l : Link) : (setLink c l s).lat = s.lat := rfl
@[simp] theorem setLink_rng (c : Nat) (l : Link) : (setLink c l s).rng = s.rng := rfl
@[simp] theorem setLink_rdma (c : Nat) (l : Link) : (setLink c l s).rdma = s.rdma := rfl
@[simp] theorem setLink_chord (c : Nat) (l : Link) : (setLink c l s).chord = { s.chord with links := Table.put s.chord.links c l } := rfl
@[simp] theorem setLink_sealing (c : Nat) (l : Link) : (setLink c l s).sealing = s.sealing := rfl
@[simp] theorem setLink_pair (c : Nat) (l : Link) : (setLink c l s).pair = s.pair := rfl
@[simp] theorem setLink_pins (c : Nat) (l : Link) : (setLink c l s).pins = s.pins := rfl

/-! ### setTransfer -/
@[simp] theorem setTransfer_pending (k : Nat) (t : Transfer) : (setTransfer k t s).pending = s.pending := rfl
@[simp] theorem setTransfer_out (k : Nat) (t : Transfer) : (setTransfer k t s).out = s.out := rfl
@[simp] theorem setTransfer_fresh (k : Nat) (t : Transfer) : (setTransfer k t s).fresh = s.fresh := rfl
@[simp] theorem setTransfer_regs (k : Nat) (t : Transfer) : (setTransfer k t s).regs = s.regs := rfl
@[simp] theorem setTransfer_top (k : Nat) (t : Transfer) : (setTransfer k t s).top = s.top := rfl
@[simp] theorem setTransfer_cad (k : Nat) (t : Transfer) : (setTransfer k t s).cad = s.cad := rfl
@[simp] theorem setTransfer_sct (k : Nat) (t : Transfer) : (setTransfer k t s).sct = s.sct := rfl
@[simp] theorem setTransfer_rings (k : Nat) (t : Transfer) : (setTransfer k t s).rings = s.rings := rfl
@[simp] theorem setTransfer_mem (k : Nat) (t : Transfer) : (setTransfer k t s).mem = s.mem := rfl
@[simp] theorem setTransfer_mover (k : Nat) (t : Transfer) : (setTransfer k t s).mover = s.mover := rfl
@[simp] theorem setTransfer_wake (k : Nat) (t : Transfer) : (setTransfer k t s).wake = s.wake := rfl
@[simp] theorem setTransfer_err (k : Nat) (t : Transfer) : (setTransfer k t s).err = s.err := rfl
@[simp] theorem setTransfer_rst (k : Nat) (t : Transfer) : (setTransfer k t s).rst = s.rst := rfl
@[simp] theorem setTransfer_pci (k : Nat) (t : Transfer) : (setTransfer k t s).pci = s.pci := rfl
@[simp] theorem setTransfer_cxl0 (k : Nat) (t : Transfer) : (setTransfer k t s).cxl0 = s.cxl0 := rfl
@[simp] theorem setTransfer_cxl1 (k : Nat) (t : Transfer) : (setTransfer k t s).cxl1 = s.cxl1 := rfl
@[simp] theorem setTransfer_eth (k : Nat) (t : Transfer) : (setTransfer k t s).eth = s.eth := rfl
@[simp] theorem setTransfer_scl (k : Nat) (t : Transfer) : (setTransfer k t s).scl = s.scl := rfl
@[simp] theorem setTransfer_heat (k : Nat) (t : Transfer) : (setTransfer k t s).heat = s.heat := rfl
@[simp] theorem setTransfer_lat (k : Nat) (t : Transfer) : (setTransfer k t s).lat = s.lat := rfl
@[simp] theorem setTransfer_rng (k : Nat) (t : Transfer) : (setTransfer k t s).rng = s.rng := rfl
@[simp] theorem setTransfer_rdma (k : Nat) (t : Transfer) : (setTransfer k t s).rdma = s.rdma := rfl
@[simp] theorem setTransfer_chord (k : Nat) (t : Transfer) : (setTransfer k t s).chord = { s.chord with transfers := Table.put s.chord.transfers k t } := rfl
@[simp] theorem setTransfer_sealing (k : Nat) (t : Transfer) : (setTransfer k t s).sealing = s.sealing := rfl
@[simp] theorem setTransfer_pair (k : Nat) (t : Transfer) : (setTransfer k t s).pair = s.pair := rfl
@[simp] theorem setTransfer_pins (k : Nat) (t : Transfer) : (setTransfer k t s).pins = s.pins := rfl

/-! ### setFold -/
@[simp] theorem setFold_pending (k : Nat) (f : Fold) : (setFold k f s).pending = s.pending := rfl
@[simp] theorem setFold_out (k : Nat) (f : Fold) : (setFold k f s).out = s.out := rfl
@[simp] theorem setFold_fresh (k : Nat) (f : Fold) : (setFold k f s).fresh = s.fresh := rfl
@[simp] theorem setFold_regs (k : Nat) (f : Fold) : (setFold k f s).regs = s.regs := rfl
@[simp] theorem setFold_top (k : Nat) (f : Fold) : (setFold k f s).top = s.top := rfl
@[simp] theorem setFold_cad (k : Nat) (f : Fold) : (setFold k f s).cad = s.cad := rfl
@[simp] theorem setFold_sct (k : Nat) (f : Fold) : (setFold k f s).sct = s.sct := rfl
@[simp] theorem setFold_rings (k : Nat) (f : Fold) : (setFold k f s).rings = s.rings := rfl
@[simp] theorem setFold_mem (k : Nat) (f : Fold) : (setFold k f s).mem = s.mem := rfl
@[simp] theorem setFold_mover (k : Nat) (f : Fold) : (setFold k f s).mover = s.mover := rfl
@[simp] theorem setFold_wake (k : Nat) (f : Fold) : (setFold k f s).wake = s.wake := rfl
@[simp] theorem setFold_err (k : Nat) (f : Fold) : (setFold k f s).err = s.err := rfl
@[simp] theorem setFold_rst (k : Nat) (f : Fold) : (setFold k f s).rst = s.rst := rfl
@[simp] theorem setFold_pci (k : Nat) (f : Fold) : (setFold k f s).pci = s.pci := rfl
@[simp] theorem setFold_cxl0 (k : Nat) (f : Fold) : (setFold k f s).cxl0 = s.cxl0 := rfl
@[simp] theorem setFold_cxl1 (k : Nat) (f : Fold) : (setFold k f s).cxl1 = s.cxl1 := rfl
@[simp] theorem setFold_eth (k : Nat) (f : Fold) : (setFold k f s).eth = s.eth := rfl
@[simp] theorem setFold_scl (k : Nat) (f : Fold) : (setFold k f s).scl = s.scl := rfl
@[simp] theorem setFold_heat (k : Nat) (f : Fold) : (setFold k f s).heat = s.heat := rfl
@[simp] theorem setFold_lat (k : Nat) (f : Fold) : (setFold k f s).lat = s.lat := rfl
@[simp] theorem setFold_rng (k : Nat) (f : Fold) : (setFold k f s).rng = s.rng := rfl
@[simp] theorem setFold_rdma (k : Nat) (f : Fold) : (setFold k f s).rdma = s.rdma := rfl
@[simp] theorem setFold_chord (k : Nat) (f : Fold) : (setFold k f s).chord = { s.chord with folds := Table.put s.chord.folds k f } := rfl
@[simp] theorem setFold_sealing (k : Nat) (f : Fold) : (setFold k f s).sealing = s.sealing := rfl
@[simp] theorem setFold_pair (k : Nat) (f : Fold) : (setFold k f s).pair = s.pair := rfl
@[simp] theorem setFold_pins (k : Nat) (f : Fold) : (setFold k f s).pins = s.pins := rfl

/-! ### setScl -/
@[simp] theorem setScl_pending (x : Sculls) : (setScl x s).pending = s.pending := rfl
@[simp] theorem setScl_out (x : Sculls) : (setScl x s).out = s.out := rfl
@[simp] theorem setScl_fresh (x : Sculls) : (setScl x s).fresh = s.fresh := rfl
@[simp] theorem setScl_regs (x : Sculls) : (setScl x s).regs = s.regs := rfl
@[simp] theorem setScl_top (x : Sculls) : (setScl x s).top = s.top := rfl
@[simp] theorem setScl_cad (x : Sculls) : (setScl x s).cad = s.cad := rfl
@[simp] theorem setScl_sct (x : Sculls) : (setScl x s).sct = s.sct := rfl
@[simp] theorem setScl_rings (x : Sculls) : (setScl x s).rings = s.rings := rfl
@[simp] theorem setScl_mem (x : Sculls) : (setScl x s).mem = s.mem := rfl
@[simp] theorem setScl_mover (x : Sculls) : (setScl x s).mover = s.mover := rfl
@[simp] theorem setScl_wake (x : Sculls) : (setScl x s).wake = s.wake := rfl
@[simp] theorem setScl_err (x : Sculls) : (setScl x s).err = s.err := rfl
@[simp] theorem setScl_rst (x : Sculls) : (setScl x s).rst = s.rst := rfl
@[simp] theorem setScl_pci (x : Sculls) : (setScl x s).pci = s.pci := rfl
@[simp] theorem setScl_cxl0 (x : Sculls) : (setScl x s).cxl0 = s.cxl0 := rfl
@[simp] theorem setScl_cxl1 (x : Sculls) : (setScl x s).cxl1 = s.cxl1 := rfl
@[simp] theorem setScl_eth (x : Sculls) : (setScl x s).eth = s.eth := rfl
@[simp] theorem setScl_scl (x : Sculls) : (setScl x s).scl = x := rfl
@[simp] theorem setScl_heat (x : Sculls) : (setScl x s).heat = s.heat := rfl
@[simp] theorem setScl_lat (x : Sculls) : (setScl x s).lat = s.lat := rfl
@[simp] theorem setScl_rng (x : Sculls) : (setScl x s).rng = s.rng := rfl
@[simp] theorem setScl_rdma (x : Sculls) : (setScl x s).rdma = s.rdma := rfl
@[simp] theorem setScl_chord (x : Sculls) : (setScl x s).chord = s.chord := rfl
@[simp] theorem setScl_sealing (x : Sculls) : (setScl x s).sealing = s.sealing := rfl
@[simp] theorem setScl_pair (x : Sculls) : (setScl x s).pair = s.pair := rfl
@[simp] theorem setScl_pins (x : Sculls) : (setScl x s).pins = s.pins := rfl

/-! ### setSlot -/
@[simp] theorem setSlot_pending (k : Nat) (h : HeatSlot) : (setSlot k h s).pending = s.pending := rfl
@[simp] theorem setSlot_out (k : Nat) (h : HeatSlot) : (setSlot k h s).out = s.out := rfl
@[simp] theorem setSlot_fresh (k : Nat) (h : HeatSlot) : (setSlot k h s).fresh = s.fresh := rfl
@[simp] theorem setSlot_regs (k : Nat) (h : HeatSlot) : (setSlot k h s).regs = s.regs := rfl
@[simp] theorem setSlot_top (k : Nat) (h : HeatSlot) : (setSlot k h s).top = s.top := rfl
@[simp] theorem setSlot_cad (k : Nat) (h : HeatSlot) : (setSlot k h s).cad = s.cad := rfl
@[simp] theorem setSlot_sct (k : Nat) (h : HeatSlot) : (setSlot k h s).sct = s.sct := rfl
@[simp] theorem setSlot_rings (k : Nat) (h : HeatSlot) : (setSlot k h s).rings = s.rings := rfl
@[simp] theorem setSlot_mem (k : Nat) (h : HeatSlot) : (setSlot k h s).mem = s.mem := rfl
@[simp] theorem setSlot_mover (k : Nat) (h : HeatSlot) : (setSlot k h s).mover = s.mover := rfl
@[simp] theorem setSlot_wake (k : Nat) (h : HeatSlot) : (setSlot k h s).wake = s.wake := rfl
@[simp] theorem setSlot_err (k : Nat) (h : HeatSlot) : (setSlot k h s).err = s.err := rfl
@[simp] theorem setSlot_rst (k : Nat) (h : HeatSlot) : (setSlot k h s).rst = s.rst := rfl
@[simp] theorem setSlot_pci (k : Nat) (h : HeatSlot) : (setSlot k h s).pci = s.pci := rfl
@[simp] theorem setSlot_cxl0 (k : Nat) (h : HeatSlot) : (setSlot k h s).cxl0 = s.cxl0 := rfl
@[simp] theorem setSlot_cxl1 (k : Nat) (h : HeatSlot) : (setSlot k h s).cxl1 = s.cxl1 := rfl
@[simp] theorem setSlot_eth (k : Nat) (h : HeatSlot) : (setSlot k h s).eth = s.eth := rfl
@[simp] theorem setSlot_scl (k : Nat) (h : HeatSlot) : (setSlot k h s).scl = s.scl := rfl
@[simp] theorem setSlot_heat (k : Nat) (h : HeatSlot) : (setSlot k h s).heat = { s.heat with slots := Table.put s.heat.slots k h } := rfl
@[simp] theorem setSlot_lat (k : Nat) (h : HeatSlot) : (setSlot k h s).lat = s.lat := rfl
@[simp] theorem setSlot_rng (k : Nat) (h : HeatSlot) : (setSlot k h s).rng = s.rng := rfl
@[simp] theorem setSlot_rdma (k : Nat) (h : HeatSlot) : (setSlot k h s).rdma = s.rdma := rfl
@[simp] theorem setSlot_chord (k : Nat) (h : HeatSlot) : (setSlot k h s).chord = s.chord := rfl
@[simp] theorem setSlot_sealing (k : Nat) (h : HeatSlot) : (setSlot k h s).sealing = s.sealing := rfl
@[simp] theorem setSlot_pair (k : Nat) (h : HeatSlot) : (setSlot k h s).pair = s.pair := rfl
@[simp] theorem setSlot_pins (k : Nat) (h : HeatSlot) : (setSlot k h s).pins = s.pins := rfl

/-! ### changeSlot -/
@[simp] theorem changeSlot_pending (k : Nat) (f : HeatSlot → HeatSlot) : (changeSlot k f s).pending = s.pending := rfl
@[simp] theorem changeSlot_out (k : Nat) (f : HeatSlot → HeatSlot) : (changeSlot k f s).out = s.out := rfl
@[simp] theorem changeSlot_fresh (k : Nat) (f : HeatSlot → HeatSlot) : (changeSlot k f s).fresh = s.fresh := rfl
@[simp] theorem changeSlot_regs (k : Nat) (f : HeatSlot → HeatSlot) : (changeSlot k f s).regs = s.regs := rfl
@[simp] theorem changeSlot_top (k : Nat) (f : HeatSlot → HeatSlot) : (changeSlot k f s).top = s.top := rfl
@[simp] theorem changeSlot_cad (k : Nat) (f : HeatSlot → HeatSlot) : (changeSlot k f s).cad = s.cad := rfl
@[simp] theorem changeSlot_sct (k : Nat) (f : HeatSlot → HeatSlot) : (changeSlot k f s).sct = s.sct := rfl
@[simp] theorem changeSlot_rings (k : Nat) (f : HeatSlot → HeatSlot) : (changeSlot k f s).rings = s.rings := rfl
@[simp] theorem changeSlot_mem (k : Nat) (f : HeatSlot → HeatSlot) : (changeSlot k f s).mem = s.mem := rfl
@[simp] theorem changeSlot_mover (k : Nat) (f : HeatSlot → HeatSlot) : (changeSlot k f s).mover = s.mover := rfl
@[simp] theorem changeSlot_wake (k : Nat) (f : HeatSlot → HeatSlot) : (changeSlot k f s).wake = s.wake := rfl
@[simp] theorem changeSlot_err (k : Nat) (f : HeatSlot → HeatSlot) : (changeSlot k f s).err = s.err := rfl
@[simp] theorem changeSlot_rst (k : Nat) (f : HeatSlot → HeatSlot) : (changeSlot k f s).rst = s.rst := rfl
@[simp] theorem changeSlot_pci (k : Nat) (f : HeatSlot → HeatSlot) : (changeSlot k f s).pci = s.pci := rfl
@[simp] theorem changeSlot_cxl0 (k : Nat) (f : HeatSlot → HeatSlot) : (changeSlot k f s).cxl0 = s.cxl0 := rfl
@[simp] theorem changeSlot_cxl1 (k : Nat) (f : HeatSlot → HeatSlot) : (changeSlot k f s).cxl1 = s.cxl1 := rfl
@[simp] theorem changeSlot_eth (k : Nat) (f : HeatSlot → HeatSlot) : (changeSlot k f s).eth = s.eth := rfl
@[simp] theorem changeSlot_scl (k : Nat) (f : HeatSlot → HeatSlot) : (changeSlot k f s).scl = s.scl := rfl
@[simp] theorem changeSlot_heat (k : Nat) (f : HeatSlot → HeatSlot) : (changeSlot k f s).heat = { s.heat with slots := Table.change s.heat.slots k f } := rfl
@[simp] theorem changeSlot_lat (k : Nat) (f : HeatSlot → HeatSlot) : (changeSlot k f s).lat = s.lat := rfl
@[simp] theorem changeSlot_rng (k : Nat) (f : HeatSlot → HeatSlot) : (changeSlot k f s).rng = s.rng := rfl
@[simp] theorem changeSlot_rdma (k : Nat) (f : HeatSlot → HeatSlot) : (changeSlot k f s).rdma = s.rdma := rfl
@[simp] theorem changeSlot_chord (k : Nat) (f : HeatSlot → HeatSlot) : (changeSlot k f s).chord = s.chord := rfl
@[simp] theorem changeSlot_sealing (k : Nat) (f : HeatSlot → HeatSlot) : (changeSlot k f s).sealing = s.sealing := rfl
@[simp] theorem changeSlot_pair (k : Nat) (f : HeatSlot → HeatSlot) : (changeSlot k f s).pair = s.pair := rfl
@[simp] theorem changeSlot_pins (k : Nat) (f : HeatSlot → HeatSlot) : (changeSlot k f s).pins = s.pins := rfl

/-! ### setLat -/
@[simp] theorem setLat_pending (e : Nat) (x : LatEngine) : (setLat e x s).pending = s.pending := rfl
@[simp] theorem setLat_out (e : Nat) (x : LatEngine) : (setLat e x s).out = s.out := rfl
@[simp] theorem setLat_fresh (e : Nat) (x : LatEngine) : (setLat e x s).fresh = s.fresh := rfl
@[simp] theorem setLat_regs (e : Nat) (x : LatEngine) : (setLat e x s).regs = s.regs := rfl
@[simp] theorem setLat_top (e : Nat) (x : LatEngine) : (setLat e x s).top = s.top := rfl
@[simp] theorem setLat_cad (e : Nat) (x : LatEngine) : (setLat e x s).cad = s.cad := rfl
@[simp] theorem setLat_sct (e : Nat) (x : LatEngine) : (setLat e x s).sct = s.sct := rfl
@[simp] theorem setLat_rings (e : Nat) (x : LatEngine) : (setLat e x s).rings = s.rings := rfl
@[simp] theorem setLat_mem (e : Nat) (x : LatEngine) : (setLat e x s).mem = s.mem := rfl
@[simp] theorem setLat_mover (e : Nat) (x : LatEngine) : (setLat e x s).mover = s.mover := rfl
@[simp] theorem setLat_wake (e : Nat) (x : LatEngine) : (setLat e x s).wake = s.wake := rfl
@[simp] theorem setLat_err (e : Nat) (x : LatEngine) : (setLat e x s).err = s.err := rfl
@[simp] theorem setLat_rst (e : Nat) (x : LatEngine) : (setLat e x s).rst = s.rst := rfl
@[simp] theorem setLat_pci (e : Nat) (x : LatEngine) : (setLat e x s).pci = s.pci := rfl
@[simp] theorem setLat_cxl0 (e : Nat) (x : LatEngine) : (setLat e x s).cxl0 = s.cxl0 := rfl
@[simp] theorem setLat_cxl1 (e : Nat) (x : LatEngine) : (setLat e x s).cxl1 = s.cxl1 := rfl
@[simp] theorem setLat_eth (e : Nat) (x : LatEngine) : (setLat e x s).eth = s.eth := rfl
@[simp] theorem setLat_scl (e : Nat) (x : LatEngine) : (setLat e x s).scl = s.scl := rfl
@[simp] theorem setLat_heat (e : Nat) (x : LatEngine) : (setLat e x s).heat = s.heat := rfl
@[simp] theorem setLat_lat (e : Nat) (x : LatEngine) : (setLat e x s).lat = Table.put s.lat e x := rfl
@[simp] theorem setLat_rng (e : Nat) (x : LatEngine) : (setLat e x s).rng = s.rng := rfl
@[simp] theorem setLat_rdma (e : Nat) (x : LatEngine) : (setLat e x s).rdma = s.rdma := rfl
@[simp] theorem setLat_chord (e : Nat) (x : LatEngine) : (setLat e x s).chord = s.chord := rfl
@[simp] theorem setLat_sealing (e : Nat) (x : LatEngine) : (setLat e x s).sealing = s.sealing := rfl
@[simp] theorem setLat_pair (e : Nat) (x : LatEngine) : (setLat e x s).pair = s.pair := rfl
@[simp] theorem setLat_pins (e : Nat) (x : LatEngine) : (setLat e x s).pins = s.pins := rfl

/-! ### setPair -/
@[simp] theorem setPair_pending (p : Pair) : (setPair p s).pending = s.pending := rfl
@[simp] theorem setPair_out (p : Pair) : (setPair p s).out = s.out := rfl
@[simp] theorem setPair_fresh (p : Pair) : (setPair p s).fresh = s.fresh := rfl
@[simp] theorem setPair_regs (p : Pair) : (setPair p s).regs = s.regs := rfl
@[simp] theorem setPair_top (p : Pair) : (setPair p s).top = s.top := rfl
@[simp] theorem setPair_cad (p : Pair) : (setPair p s).cad = s.cad := rfl
@[simp] theorem setPair_sct (p : Pair) : (setPair p s).sct = s.sct := rfl
@[simp] theorem setPair_rings (p : Pair) : (setPair p s).rings = s.rings := rfl
@[simp] theorem setPair_mem (p : Pair) : (setPair p s).mem = s.mem := rfl
@[simp] theorem setPair_mover (p : Pair) : (setPair p s).mover = s.mover := rfl
@[simp] theorem setPair_wake (p : Pair) : (setPair p s).wake = s.wake := rfl
@[simp] theorem setPair_err (p : Pair) : (setPair p s).err = s.err := rfl
@[simp] theorem setPair_rst (p : Pair) : (setPair p s).rst = s.rst := rfl
@[simp] theorem setPair_pci (p : Pair) : (setPair p s).pci = s.pci := rfl
@[simp] theorem setPair_cxl0 (p : Pair) : (setPair p s).cxl0 = s.cxl0 := rfl
@[simp] theorem setPair_cxl1 (p : Pair) : (setPair p s).cxl1 = s.cxl1 := rfl
@[simp] theorem setPair_eth (p : Pair) : (setPair p s).eth = s.eth := rfl
@[simp] theorem setPair_scl (p : Pair) : (setPair p s).scl = s.scl := rfl
@[simp] theorem setPair_heat (p : Pair) : (setPair p s).heat = s.heat := rfl
@[simp] theorem setPair_lat (p : Pair) : (setPair p s).lat = s.lat := rfl
@[simp] theorem setPair_rng (p : Pair) : (setPair p s).rng = s.rng := rfl
@[simp] theorem setPair_rdma (p : Pair) : (setPair p s).rdma = s.rdma := rfl
@[simp] theorem setPair_chord (p : Pair) : (setPair p s).chord = s.chord := rfl
@[simp] theorem setPair_sealing (p : Pair) : (setPair p s).sealing = s.sealing := rfl
@[simp] theorem setPair_pair (p : Pair) : (setPair p s).pair = p := rfl
@[simp] theorem setPair_pins (p : Pair) : (setPair p s).pins = s.pins := rfl

/-! ### setEth -/
@[simp] theorem setEth_pending (e : Nat) (p : EthPort) : (setEth e p s).pending = s.pending := rfl
@[simp] theorem setEth_out (e : Nat) (p : EthPort) : (setEth e p s).out = s.out := rfl
@[simp] theorem setEth_fresh (e : Nat) (p : EthPort) : (setEth e p s).fresh = s.fresh := rfl
@[simp] theorem setEth_regs (e : Nat) (p : EthPort) : (setEth e p s).regs = s.regs := rfl
@[simp] theorem setEth_top (e : Nat) (p : EthPort) : (setEth e p s).top = s.top := rfl
@[simp] theorem setEth_cad (e : Nat) (p : EthPort) : (setEth e p s).cad = s.cad := rfl
@[simp] theorem setEth_sct (e : Nat) (p : EthPort) : (setEth e p s).sct = s.sct := rfl
@[simp] theorem setEth_rings (e : Nat) (p : EthPort) : (setEth e p s).rings = s.rings := rfl
@[simp] theorem setEth_mem (e : Nat) (p : EthPort) : (setEth e p s).mem = s.mem := rfl
@[simp] theorem setEth_mover (e : Nat) (p : EthPort) : (setEth e p s).mover = s.mover := rfl
@[simp] theorem setEth_wake (e : Nat) (p : EthPort) : (setEth e p s).wake = s.wake := rfl
@[simp] theorem setEth_err (e : Nat) (p : EthPort) : (setEth e p s).err = s.err := rfl
@[simp] theorem setEth_rst (e : Nat) (p : EthPort) : (setEth e p s).rst = s.rst := rfl
@[simp] theorem setEth_pci (e : Nat) (p : EthPort) : (setEth e p s).pci = s.pci := rfl
@[simp] theorem setEth_cxl0 (e : Nat) (p : EthPort) : (setEth e p s).cxl0 = s.cxl0 := rfl
@[simp] theorem setEth_cxl1 (e : Nat) (p : EthPort) : (setEth e p s).cxl1 = s.cxl1 := rfl
@[simp] theorem setEth_eth (e : Nat) (p : EthPort) : (setEth e p s).eth = Table.put s.eth e p := rfl
@[simp] theorem setEth_scl (e : Nat) (p : EthPort) : (setEth e p s).scl = s.scl := rfl
@[simp] theorem setEth_heat (e : Nat) (p : EthPort) : (setEth e p s).heat = s.heat := rfl
@[simp] theorem setEth_lat (e : Nat) (p : EthPort) : (setEth e p s).lat = s.lat := rfl
@[simp] theorem setEth_rng (e : Nat) (p : EthPort) : (setEth e p s).rng = s.rng := rfl
@[simp] theorem setEth_rdma (e : Nat) (p : EthPort) : (setEth e p s).rdma = s.rdma := rfl
@[simp] theorem setEth_chord (e : Nat) (p : EthPort) : (setEth e p s).chord = s.chord := rfl
@[simp] theorem setEth_sealing (e : Nat) (p : EthPort) : (setEth e p s).sealing = s.sealing := rfl
@[simp] theorem setEth_pair (e : Nat) (p : EthPort) : (setEth e p s).pair = s.pair := rfl
@[simp] theorem setEth_pins (e : Nat) (p : EthPort) : (setEth e p s).pins = s.pins := rfl

/-! ### setRst -/
@[simp] theorem setRst_pending (r : Rst) : (setRst r s).pending = s.pending := rfl
@[simp] theorem setRst_out (r : Rst) : (setRst r s).out = s.out := rfl
@[simp] theorem setRst_fresh (r : Rst) : (setRst r s).fresh = s.fresh := rfl
@[simp] theorem setRst_regs (r : Rst) : (setRst r s).regs = s.regs := rfl
@[simp] theorem setRst_top (r : Rst) : (setRst r s).top = s.top := rfl
@[simp] theorem setRst_cad (r : Rst) : (setRst r s).cad = s.cad := rfl
@[simp] theorem setRst_sct (r : Rst) : (setRst r s).sct = s.sct := rfl
@[simp] theorem setRst_rings (r : Rst) : (setRst r s).rings = s.rings := rfl
@[simp] theorem setRst_mem (r : Rst) : (setRst r s).mem = s.mem := rfl
@[simp] theorem setRst_mover (r : Rst) : (setRst r s).mover = s.mover := rfl
@[simp] theorem setRst_wake (r : Rst) : (setRst r s).wake = s.wake := rfl
@[simp] theorem setRst_err (r : Rst) : (setRst r s).err = s.err := rfl
@[simp] theorem setRst_rst (r : Rst) : (setRst r s).rst = r := rfl
@[simp] theorem setRst_pci (r : Rst) : (setRst r s).pci = s.pci := rfl
@[simp] theorem setRst_cxl0 (r : Rst) : (setRst r s).cxl0 = s.cxl0 := rfl
@[simp] theorem setRst_cxl1 (r : Rst) : (setRst r s).cxl1 = s.cxl1 := rfl
@[simp] theorem setRst_eth (r : Rst) : (setRst r s).eth = s.eth := rfl
@[simp] theorem setRst_scl (r : Rst) : (setRst r s).scl = s.scl := rfl
@[simp] theorem setRst_heat (r : Rst) : (setRst r s).heat = s.heat := rfl
@[simp] theorem setRst_lat (r : Rst) : (setRst r s).lat = s.lat := rfl
@[simp] theorem setRst_rng (r : Rst) : (setRst r s).rng = s.rng := rfl
@[simp] theorem setRst_rdma (r : Rst) : (setRst r s).rdma = s.rdma := rfl
@[simp] theorem setRst_chord (r : Rst) : (setRst r s).chord = s.chord := rfl
@[simp] theorem setRst_sealing (r : Rst) : (setRst r s).sealing = s.sealing := rfl
@[simp] theorem setRst_pair (r : Rst) : (setRst r s).pair = s.pair := rfl
@[simp] theorem setRst_pins (r : Rst) : (setRst r s).pins = s.pins := rfl

/-! ### setSct -/
@[simp] theorem setSct_pending (c : Sct) : (setSct c s).pending = s.pending := rfl
@[simp] theorem setSct_out (c : Sct) : (setSct c s).out = s.out := rfl
@[simp] theorem setSct_fresh (c : Sct) : (setSct c s).fresh = s.fresh := rfl
@[simp] theorem setSct_regs (c : Sct) : (setSct c s).regs = s.regs := rfl
@[simp] theorem setSct_top (c : Sct) : (setSct c s).top = s.top := rfl
@[simp] theorem setSct_cad (c : Sct) : (setSct c s).cad = s.cad := rfl
@[simp] theorem setSct_sct (c : Sct) : (setSct c s).sct = c := rfl
@[simp] theorem setSct_rings (c : Sct) : (setSct c s).rings = s.rings := rfl
@[simp] theorem setSct_mem (c : Sct) : (setSct c s).mem = s.mem := rfl
@[simp] theorem setSct_mover (c : Sct) : (setSct c s).mover = s.mover := rfl
@[simp] theorem setSct_wake (c : Sct) : (setSct c s).wake = s.wake := rfl
@[simp] theorem setSct_err (c : Sct) : (setSct c s).err = s.err := rfl
@[simp] theorem setSct_rst (c : Sct) : (setSct c s).rst = s.rst := rfl
@[simp] theorem setSct_pci (c : Sct) : (setSct c s).pci = s.pci := rfl
@[simp] theorem setSct_cxl0 (c : Sct) : (setSct c s).cxl0 = s.cxl0 := rfl
@[simp] theorem setSct_cxl1 (c : Sct) : (setSct c s).cxl1 = s.cxl1 := rfl
@[simp] theorem setSct_eth (c : Sct) : (setSct c s).eth = s.eth := rfl
@[simp] theorem setSct_scl (c : Sct) : (setSct c s).scl = s.scl := rfl
@[simp] theorem setSct_heat (c : Sct) : (setSct c s).heat = s.heat := rfl
@[simp] theorem setSct_lat (c : Sct) : (setSct c s).lat = s.lat := rfl
@[simp] theorem setSct_rng (c : Sct) : (setSct c s).rng = s.rng := rfl
@[simp] theorem setSct_rdma (c : Sct) : (setSct c s).rdma = s.rdma := rfl
@[simp] theorem setSct_chord (c : Sct) : (setSct c s).chord = s.chord := rfl
@[simp] theorem setSct_sealing (c : Sct) : (setSct c s).sealing = s.sealing := rfl
@[simp] theorem setSct_pair (c : Sct) : (setSct c s).pair = s.pair := rfl
@[simp] theorem setSct_pins (c : Sct) : (setSct c s).pins = s.pins := rfl

/-! ### setRng -/
@[simp] theorem setRng_pending (r : Rng) : (setRng r s).pending = s.pending := rfl
@[simp] theorem setRng_out (r : Rng) : (setRng r s).out = s.out := rfl
@[simp] theorem setRng_fresh (r : Rng) : (setRng r s).fresh = s.fresh := rfl
@[simp] theorem setRng_regs (r : Rng) : (setRng r s).regs = s.regs := rfl
@[simp] theorem setRng_top (r : Rng) : (setRng r s).top = s.top := rfl
@[simp] theorem setRng_cad (r : Rng) : (setRng r s).cad = s.cad := rfl
@[simp] theorem setRng_sct (r : Rng) : (setRng r s).sct = s.sct := rfl
@[simp] theorem setRng_rings (r : Rng) : (setRng r s).rings = s.rings := rfl
@[simp] theorem setRng_mem (r : Rng) : (setRng r s).mem = s.mem := rfl
@[simp] theorem setRng_mover (r : Rng) : (setRng r s).mover = s.mover := rfl
@[simp] theorem setRng_wake (r : Rng) : (setRng r s).wake = s.wake := rfl
@[simp] theorem setRng_err (r : Rng) : (setRng r s).err = s.err := rfl
@[simp] theorem setRng_rst (r : Rng) : (setRng r s).rst = s.rst := rfl
@[simp] theorem setRng_pci (r : Rng) : (setRng r s).pci = s.pci := rfl
@[simp] theorem setRng_cxl0 (r : Rng) : (setRng r s).cxl0 = s.cxl0 := rfl
@[simp] theorem setRng_cxl1 (r : Rng) : (setRng r s).cxl1 = s.cxl1 := rfl
@[simp] theorem setRng_eth (r : Rng) : (setRng r s).eth = s.eth := rfl
@[simp] theorem setRng_scl (r : Rng) : (setRng r s).scl = s.scl := rfl
@[simp] theorem setRng_heat (r : Rng) : (setRng r s).heat = s.heat := rfl
@[simp] theorem setRng_lat (r : Rng) : (setRng r s).lat = s.lat := rfl
@[simp] theorem setRng_rng (r : Rng) : (setRng r s).rng = r := rfl
@[simp] theorem setRng_rdma (r : Rng) : (setRng r s).rdma = s.rdma := rfl
@[simp] theorem setRng_chord (r : Rng) : (setRng r s).chord = s.chord := rfl
@[simp] theorem setRng_sealing (r : Rng) : (setRng r s).sealing = s.sealing := rfl
@[simp] theorem setRng_pair (r : Rng) : (setRng r s).pair = s.pair := rfl
@[simp] theorem setRng_pins (r : Rng) : (setRng r s).pins = s.pins := rfl

/-! ### setInstance -/
@[simp] theorem setInstance_pending (i : Nat) (x : Instance) : (setInstance i x s).pending = s.pending := rfl
@[simp] theorem setInstance_out (i : Nat) (x : Instance) : (setInstance i x s).out = s.out := rfl
@[simp] theorem setInstance_fresh (i : Nat) (x : Instance) : (setInstance i x s).fresh = s.fresh := rfl
@[simp] theorem setInstance_regs (i : Nat) (x : Instance) : (setInstance i x s).regs = s.regs := rfl
@[simp] theorem setInstance_top (i : Nat) (x : Instance) : (setInstance i x s).top = s.top := rfl
@[simp] theorem setInstance_cad (i : Nat) (x : Instance) : (setInstance i x s).cad = s.cad := rfl
@[simp] theorem setInstance_sct (i : Nat) (x : Instance) : (setInstance i x s).sct = s.sct := rfl
@[simp] theorem setInstance_rings (i : Nat) (x : Instance) : (setInstance i x s).rings = s.rings := rfl
@[simp] theorem setInstance_mem (i : Nat) (x : Instance) : (setInstance i x s).mem = s.mem := rfl
@[simp] theorem setInstance_mover (i : Nat) (x : Instance) : (setInstance i x s).mover = s.mover := rfl
@[simp] theorem setInstance_wake (i : Nat) (x : Instance) : (setInstance i x s).wake = s.wake := rfl
@[simp] theorem setInstance_err (i : Nat) (x : Instance) : (setInstance i x s).err = s.err := rfl
@[simp] theorem setInstance_rst (i : Nat) (x : Instance) : (setInstance i x s).rst = s.rst := rfl
@[simp] theorem setInstance_pci (i : Nat) (x : Instance) : (setInstance i x s).pci = s.pci := rfl
@[simp] theorem setInstance_cxl0 (i : Nat) (x : Instance) : (setInstance i x s).cxl0 = s.cxl0 := rfl
@[simp] theorem setInstance_cxl1 (i : Nat) (x : Instance) : (setInstance i x s).cxl1 = s.cxl1 := rfl
@[simp] theorem setInstance_eth (i : Nat) (x : Instance) : (setInstance i x s).eth = s.eth := rfl
@[simp] theorem setInstance_scl (i : Nat) (x : Instance) : (setInstance i x s).scl = s.scl := rfl
@[simp] theorem setInstance_heat (i : Nat) (x : Instance) : (setInstance i x s).heat = s.heat := rfl
@[simp] theorem setInstance_lat (i : Nat) (x : Instance) : (setInstance i x s).lat = s.lat := rfl
@[simp] theorem setInstance_rng (i : Nat) (x : Instance) : (setInstance i x s).rng = { s.rng with instances := Table.put s.rng.instances i x } := rfl
@[simp] theorem setInstance_rdma (i : Nat) (x : Instance) : (setInstance i x s).rdma = s.rdma := rfl
@[simp] theorem setInstance_chord (i : Nat) (x : Instance) : (setInstance i x s).chord = s.chord := rfl
@[simp] theorem setInstance_sealing (i : Nat) (x : Instance) : (setInstance i x s).sealing = s.sealing := rfl
@[simp] theorem setInstance_pair (i : Nat) (x : Instance) : (setInstance i x s).pair = s.pair := rfl
@[simp] theorem setInstance_pins (i : Nat) (x : Instance) : (setInstance i x s).pins = s.pins := rfl

/-! ### setRdma -/
@[simp] theorem setRdma_pending (r : Rdma) : (setRdma r s).pending = s.pending := rfl
@[simp] theorem setRdma_out (r : Rdma) : (setRdma r s).out = s.out := rfl
@[simp] theorem setRdma_fresh (r : Rdma) : (setRdma r s).fresh = s.fresh := rfl
@[simp] theorem setRdma_regs (r : Rdma) : (setRdma r s).regs = s.regs := rfl
@[simp] theorem setRdma_top (r : Rdma) : (setRdma r s).top = s.top := rfl
@[simp] theorem setRdma_cad (r : Rdma) : (setRdma r s).cad = s.cad := rfl
@[simp] theorem setRdma_sct (r : Rdma) : (setRdma r s).sct = s.sct := rfl
@[simp] theorem setRdma_rings (r : Rdma) : (setRdma r s).rings = s.rings := rfl
@[simp] theorem setRdma_mem (r : Rdma) : (setRdma r s).mem = s.mem := rfl
@[simp] theorem setRdma_mover (r : Rdma) : (setRdma r s).mover = s.mover := rfl
@[simp] theorem setRdma_wake (r : Rdma) : (setRdma r s).wake = s.wake := rfl
@[simp] theorem setRdma_err (r : Rdma) : (setRdma r s).err = s.err := rfl
@[simp] theorem setRdma_rst (r : Rdma) : (setRdma r s).rst = s.rst := rfl
@[simp] theorem setRdma_pci (r : Rdma) : (setRdma r s).pci = s.pci := rfl
@[simp] theorem setRdma_cxl0 (r : Rdma) : (setRdma r s).cxl0 = s.cxl0 := rfl
@[simp] theorem setRdma_cxl1 (r : Rdma) : (setRdma r s).cxl1 = s.cxl1 := rfl
@[simp] theorem setRdma_eth (r : Rdma) : (setRdma r s).eth = s.eth := rfl
@[simp] theorem setRdma_scl (r : Rdma) : (setRdma r s).scl = s.scl := rfl
@[simp] theorem setRdma_heat (r : Rdma) : (setRdma r s).heat = s.heat := rfl
@[simp] theorem setRdma_lat (r : Rdma) : (setRdma r s).lat = s.lat := rfl
@[simp] theorem setRdma_rng (r : Rdma) : (setRdma r s).rng = s.rng := rfl
@[simp] theorem setRdma_rdma (r : Rdma) : (setRdma r s).rdma = r := rfl
@[simp] theorem setRdma_chord (r : Rdma) : (setRdma r s).chord = s.chord := rfl
@[simp] theorem setRdma_sealing (r : Rdma) : (setRdma r s).sealing = s.sealing := rfl
@[simp] theorem setRdma_pair (r : Rdma) : (setRdma r s).pair = s.pair := rfl
@[simp] theorem setRdma_pins (r : Rdma) : (setRdma r s).pins = s.pins := rfl

/-! ### setQp -/
@[simp] theorem setQp_pending (k : Nat) (q : Qp) : (setQp k q s).pending = s.pending := rfl
@[simp] theorem setQp_out (k : Nat) (q : Qp) : (setQp k q s).out = s.out := rfl
@[simp] theorem setQp_fresh (k : Nat) (q : Qp) : (setQp k q s).fresh = s.fresh := rfl
@[simp] theorem setQp_regs (k : Nat) (q : Qp) : (setQp k q s).regs = s.regs := rfl
@[simp] theorem setQp_top (k : Nat) (q : Qp) : (setQp k q s).top = s.top := rfl
@[simp] theorem setQp_cad (k : Nat) (q : Qp) : (setQp k q s).cad = s.cad := rfl
@[simp] theorem setQp_sct (k : Nat) (q : Qp) : (setQp k q s).sct = s.sct := rfl
@[simp] theorem setQp_rings (k : Nat) (q : Qp) : (setQp k q s).rings = s.rings := rfl
@[simp] theorem setQp_mem (k : Nat) (q : Qp) : (setQp k q s).mem = s.mem := rfl
@[simp] theorem setQp_mover (k : Nat) (q : Qp) : (setQp k q s).mover = s.mover := rfl
@[simp] theorem setQp_wake (k : Nat) (q : Qp) : (setQp k q s).wake = s.wake := rfl
@[simp] theorem setQp_err (k : Nat) (q : Qp) : (setQp k q s).err = s.err := rfl
@[simp] theorem setQp_rst (k : Nat) (q : Qp) : (setQp k q s).rst = s.rst := rfl
@[simp] theorem setQp_pci (k : Nat) (q : Qp) : (setQp k q s).pci = s.pci := rfl
@[simp] theorem setQp_cxl0 (k : Nat) (q : Qp) : (setQp k q s).cxl0 = s.cxl0 := rfl
@[simp] theorem setQp_cxl1 (k : Nat) (q : Qp) : (setQp k q s).cxl1 = s.cxl1 := rfl
@[simp] theorem setQp_eth (k : Nat) (q : Qp) : (setQp k q s).eth = s.eth := rfl
@[simp] theorem setQp_scl (k : Nat) (q : Qp) : (setQp k q s).scl = s.scl := rfl
@[simp] theorem setQp_heat (k : Nat) (q : Qp) : (setQp k q s).heat = s.heat := rfl
@[simp] theorem setQp_lat (k : Nat) (q : Qp) : (setQp k q s).lat = s.lat := rfl
@[simp] theorem setQp_rng (k : Nat) (q : Qp) : (setQp k q s).rng = s.rng := rfl
@[simp] theorem setQp_rdma (k : Nat) (q : Qp) : (setQp k q s).rdma = { s.rdma with qps := Table.put s.rdma.qps k q } := rfl
@[simp] theorem setQp_chord (k : Nat) (q : Qp) : (setQp k q s).chord = s.chord := rfl
@[simp] theorem setQp_sealing (k : Nat) (q : Qp) : (setQp k q s).sealing = s.sealing := rfl
@[simp] theorem setQp_pair (k : Nat) (q : Qp) : (setQp k q s).pair = s.pair := rfl
@[simp] theorem setQp_pins (k : Nat) (q : Qp) : (setQp k q s).pins = s.pins := rfl

/-! ### changeQp -/
@[simp] theorem changeQp_pending (k : Nat) (f : Qp → Qp) : (changeQp k f s).pending = s.pending := rfl
@[simp] theorem changeQp_out (k : Nat) (f : Qp → Qp) : (changeQp k f s).out = s.out := rfl
@[simp] theorem changeQp_fresh (k : Nat) (f : Qp → Qp) : (changeQp k f s).fresh = s.fresh := rfl
@[simp] theorem changeQp_regs (k : Nat) (f : Qp → Qp) : (changeQp k f s).regs = s.regs := rfl
@[simp] theorem changeQp_top (k : Nat) (f : Qp → Qp) : (changeQp k f s).top = s.top := rfl
@[simp] theorem changeQp_cad (k : Nat) (f : Qp → Qp) : (changeQp k f s).cad = s.cad := rfl
@[simp] theorem changeQp_sct (k : Nat) (f : Qp → Qp) : (changeQp k f s).sct = s.sct := rfl
@[simp] theorem changeQp_rings (k : Nat) (f : Qp → Qp) : (changeQp k f s).rings = s.rings := rfl
@[simp] theorem changeQp_mem (k : Nat) (f : Qp → Qp) : (changeQp k f s).mem = s.mem := rfl
@[simp] theorem changeQp_mover (k : Nat) (f : Qp → Qp) : (changeQp k f s).mover = s.mover := rfl
@[simp] theorem changeQp_wake (k : Nat) (f : Qp → Qp) : (changeQp k f s).wake = s.wake := rfl
@[simp] theorem changeQp_err (k : Nat) (f : Qp → Qp) : (changeQp k f s).err = s.err := rfl
@[simp] theorem changeQp_rst (k : Nat) (f : Qp → Qp) : (changeQp k f s).rst = s.rst := rfl
@[simp] theorem changeQp_pci (k : Nat) (f : Qp → Qp) : (changeQp k f s).pci = s.pci := rfl
@[simp] theorem changeQp_cxl0 (k : Nat) (f : Qp → Qp) : (changeQp k f s).cxl0 = s.cxl0 := rfl
@[simp] theorem changeQp_cxl1 (k : Nat) (f : Qp → Qp) : (changeQp k f s).cxl1 = s.cxl1 := rfl
@[simp] theorem changeQp_eth (k : Nat) (f : Qp → Qp) : (changeQp k f s).eth = s.eth := rfl
@[simp] theorem changeQp_scl (k : Nat) (f : Qp → Qp) : (changeQp k f s).scl = s.scl := rfl
@[simp] theorem changeQp_heat (k : Nat) (f : Qp → Qp) : (changeQp k f s).heat = s.heat := rfl
@[simp] theorem changeQp_lat (k : Nat) (f : Qp → Qp) : (changeQp k f s).lat = s.lat := rfl
@[simp] theorem changeQp_rng (k : Nat) (f : Qp → Qp) : (changeQp k f s).rng = s.rng := rfl
@[simp] theorem changeQp_rdma (k : Nat) (f : Qp → Qp) : (changeQp k f s).rdma = { s.rdma with qps := Table.change s.rdma.qps k f } := rfl
@[simp] theorem changeQp_chord (k : Nat) (f : Qp → Qp) : (changeQp k f s).chord = s.chord := rfl
@[simp] theorem changeQp_sealing (k : Nat) (f : Qp → Qp) : (changeQp k f s).sealing = s.sealing := rfl
@[simp] theorem changeQp_pair (k : Nat) (f : Qp → Qp) : (changeQp k f s).pair = s.pair := rfl
@[simp] theorem changeQp_pins (k : Nat) (f : Qp → Qp) : (changeQp k f s).pins = s.pins := rfl

/-! ### setSealing -/
@[simp] theorem setSealing_pending (x : Seal) : (setSealing x s).pending = s.pending := rfl
@[simp] theorem setSealing_out (x : Seal) : (setSealing x s).out = s.out := rfl
@[simp] theorem setSealing_fresh (x : Seal) : (setSealing x s).fresh = s.fresh := rfl
@[simp] theorem setSealing_regs (x : Seal) : (setSealing x s).regs = s.regs := rfl
@[simp] theorem setSealing_top (x : Seal) : (setSealing x s).top = s.top := rfl
@[simp] theorem setSealing_cad (x : Seal) : (setSealing x s).cad = s.cad := rfl
@[simp] theorem setSealing_sct (x : Seal) : (setSealing x s).sct = s.sct := rfl
@[simp] theorem setSealing_rings (x : Seal) : (setSealing x s).rings = s.rings := rfl
@[simp] theorem setSealing_mem (x : Seal) : (setSealing x s).mem = s.mem := rfl
@[simp] theorem setSealing_mover (x : Seal) : (setSealing x s).mover = s.mover := rfl
@[simp] theorem setSealing_wake (x : Seal) : (setSealing x s).wake = s.wake := rfl
@[simp] theorem setSealing_err (x : Seal) : (setSealing x s).err = s.err := rfl
@[simp] theorem setSealing_rst (x : Seal) : (setSealing x s).rst = s.rst := rfl
@[simp] theorem setSealing_pci (x : Seal) : (setSealing x s).pci = s.pci := rfl
@[simp] theorem setSealing_cxl0 (x : Seal) : (setSealing x s).cxl0 = s.cxl0 := rfl
@[simp] theorem setSealing_cxl1 (x : Seal) : (setSealing x s).cxl1 = s.cxl1 := rfl
@[simp] theorem setSealing_eth (x : Seal) : (setSealing x s).eth = s.eth := rfl
@[simp] theorem setSealing_scl (x : Seal) : (setSealing x s).scl = s.scl := rfl
@[simp] theorem setSealing_heat (x : Seal) : (setSealing x s).heat = s.heat := rfl
@[simp] theorem setSealing_lat (x : Seal) : (setSealing x s).lat = s.lat := rfl
@[simp] theorem setSealing_rng (x : Seal) : (setSealing x s).rng = s.rng := rfl
@[simp] theorem setSealing_rdma (x : Seal) : (setSealing x s).rdma = s.rdma := rfl
@[simp] theorem setSealing_chord (x : Seal) : (setSealing x s).chord = s.chord := rfl
@[simp] theorem setSealing_sealing (x : Seal) : (setSealing x s).sealing = x := rfl
@[simp] theorem setSealing_pair (x : Seal) : (setSealing x s).pair = s.pair := rfl
@[simp] theorem setSealing_pins (x : Seal) : (setSealing x s).pins = s.pins := rfl

/-! ### setMailbox -/
@[simp] theorem setMailbox_pending (p : Nat) (m : Mailbox) : (setMailbox p m s).pending = s.pending := rfl
@[simp] theorem setMailbox_out (p : Nat) (m : Mailbox) : (setMailbox p m s).out = s.out := rfl
@[simp] theorem setMailbox_fresh (p : Nat) (m : Mailbox) : (setMailbox p m s).fresh = s.fresh := rfl
@[simp] theorem setMailbox_regs (p : Nat) (m : Mailbox) : (setMailbox p m s).regs = s.regs := rfl
@[simp] theorem setMailbox_top (p : Nat) (m : Mailbox) : (setMailbox p m s).top = s.top := rfl
@[simp] theorem setMailbox_cad (p : Nat) (m : Mailbox) : (setMailbox p m s).cad = s.cad := rfl
@[simp] theorem setMailbox_sct (p : Nat) (m : Mailbox) : (setMailbox p m s).sct = s.sct := rfl
@[simp] theorem setMailbox_rings (p : Nat) (m : Mailbox) : (setMailbox p m s).rings = s.rings := rfl
@[simp] theorem setMailbox_mem (p : Nat) (m : Mailbox) : (setMailbox p m s).mem = s.mem := rfl
@[simp] theorem setMailbox_mover (p : Nat) (m : Mailbox) : (setMailbox p m s).mover = s.mover := rfl
@[simp] theorem setMailbox_wake (p : Nat) (m : Mailbox) : (setMailbox p m s).wake = s.wake := rfl
@[simp] theorem setMailbox_err (p : Nat) (m : Mailbox) : (setMailbox p m s).err = s.err := rfl
@[simp] theorem setMailbox_rst (p : Nat) (m : Mailbox) : (setMailbox p m s).rst = s.rst := rfl
@[simp] theorem setMailbox_pci (p : Nat) (m : Mailbox) : (setMailbox p m s).pci = s.pci := rfl
@[simp] theorem setMailbox_cxl0 (p : Nat) (m : Mailbox) : (setMailbox p m s).cxl0 = s.cxl0 := rfl
@[simp] theorem setMailbox_cxl1 (p : Nat) (m : Mailbox) : (setMailbox p m s).cxl1 = s.cxl1 := rfl
@[simp] theorem setMailbox_eth (p : Nat) (m : Mailbox) : (setMailbox p m s).eth = s.eth := rfl
@[simp] theorem setMailbox_scl (p : Nat) (m : Mailbox) : (setMailbox p m s).scl = s.scl := rfl
@[simp] theorem setMailbox_heat (p : Nat) (m : Mailbox) : (setMailbox p m s).heat = s.heat := rfl
@[simp] theorem setMailbox_lat (p : Nat) (m : Mailbox) : (setMailbox p m s).lat = s.lat := rfl
@[simp] theorem setMailbox_rng (p : Nat) (m : Mailbox) : (setMailbox p m s).rng = s.rng := rfl
@[simp] theorem setMailbox_rdma (p : Nat) (m : Mailbox) : (setMailbox p m s).rdma = s.rdma := rfl
@[simp] theorem setMailbox_chord (p : Nat) (m : Mailbox) : (setMailbox p m s).chord = s.chord := rfl
@[simp] theorem setMailbox_sealing (p : Nat) (m : Mailbox) : (setMailbox p m s).sealing = { s.sealing with mailboxes := Table.put s.sealing.mailboxes p m } := rfl
@[simp] theorem setMailbox_pair (p : Nat) (m : Mailbox) : (setMailbox p m s).pair = s.pair := rfl
@[simp] theorem setMailbox_pins (p : Nat) (m : Mailbox) : (setMailbox p m s).pins = s.pins := rfl

/-! ### setSession -/
@[simp] theorem setSession_pending (p : Nat) (x : Session) : (setSession p x s).pending = s.pending := rfl
@[simp] theorem setSession_out (p : Nat) (x : Session) : (setSession p x s).out = s.out := rfl
@[simp] theorem setSession_fresh (p : Nat) (x : Session) : (setSession p x s).fresh = s.fresh := rfl
@[simp] theorem setSession_regs (p : Nat) (x : Session) : (setSession p x s).regs = s.regs := rfl
@[simp] theorem setSession_top (p : Nat) (x : Session) : (setSession p x s).top = s.top := rfl
@[simp] theorem setSession_cad (p : Nat) (x : Session) : (setSession p x s).cad = s.cad := rfl
@[simp] theorem setSession_sct (p : Nat) (x : Session) : (setSession p x s).sct = s.sct := rfl
@[simp] theorem setSession_rings (p : Nat) (x : Session) : (setSession p x s).rings = s.rings := rfl
@[simp] theorem setSession_mem (p : Nat) (x : Session) : (setSession p x s).mem = s.mem := rfl
@[simp] theorem setSession_mover (p : Nat) (x : Session) : (setSession p x s).mover = s.mover := rfl
@[simp] theorem setSession_wake (p : Nat) (x : Session) : (setSession p x s).wake = s.wake := rfl
@[simp] theorem setSession_err (p : Nat) (x : Session) : (setSession p x s).err = s.err := rfl
@[simp] theorem setSession_rst (p : Nat) (x : Session) : (setSession p x s).rst = s.rst := rfl
@[simp] theorem setSession_pci (p : Nat) (x : Session) : (setSession p x s).pci = s.pci := rfl
@[simp] theorem setSession_cxl0 (p : Nat) (x : Session) : (setSession p x s).cxl0 = s.cxl0 := rfl
@[simp] theorem setSession_cxl1 (p : Nat) (x : Session) : (setSession p x s).cxl1 = s.cxl1 := rfl
@[simp] theorem setSession_eth (p : Nat) (x : Session) : (setSession p x s).eth = s.eth := rfl
@[simp] theorem setSession_scl (p : Nat) (x : Session) : (setSession p x s).scl = s.scl := rfl
@[simp] theorem setSession_heat (p : Nat) (x : Session) : (setSession p x s).heat = s.heat := rfl
@[simp] theorem setSession_lat (p : Nat) (x : Session) : (setSession p x s).lat = s.lat := rfl
@[simp] theorem setSession_rng (p : Nat) (x : Session) : (setSession p x s).rng = s.rng := rfl
@[simp] theorem setSession_rdma (p : Nat) (x : Session) : (setSession p x s).rdma = s.rdma := rfl
@[simp] theorem setSession_chord (p : Nat) (x : Session) : (setSession p x s).chord = s.chord := rfl
@[simp] theorem setSession_pair (p : Nat) (x : Session) : (setSession p x s).pair = s.pair := rfl
@[simp] theorem setSession_pins (p : Nat) (x : Session) : (setSession p x s).pins = s.pins := rfl

/-! ### setHeld -/
@[simp] theorem setHeld_pending (n mask : Nat) : (setHeld n mask s).pending = s.pending := rfl
@[simp] theorem setHeld_out (n mask : Nat) : (setHeld n mask s).out = s.out := rfl
@[simp] theorem setHeld_fresh (n mask : Nat) : (setHeld n mask s).fresh = s.fresh := rfl
@[simp] theorem setHeld_regs (n mask : Nat) : (setHeld n mask s).regs = s.regs := rfl
@[simp] theorem setHeld_top (n mask : Nat) : (setHeld n mask s).top = s.top := rfl
@[simp] theorem setHeld_cad (n mask : Nat) : (setHeld n mask s).cad = s.cad := rfl
@[simp] theorem setHeld_sct (n mask : Nat) : (setHeld n mask s).sct = s.sct := rfl
@[simp] theorem setHeld_mem (n mask : Nat) : (setHeld n mask s).mem = s.mem := rfl
@[simp] theorem setHeld_mover (n mask : Nat) : (setHeld n mask s).mover = s.mover := rfl
@[simp] theorem setHeld_wake (n mask : Nat) : (setHeld n mask s).wake = s.wake := rfl
@[simp] theorem setHeld_err (n mask : Nat) : (setHeld n mask s).err = s.err := rfl
@[simp] theorem setHeld_rst (n mask : Nat) : (setHeld n mask s).rst = s.rst := rfl
@[simp] theorem setHeld_pci (n mask : Nat) : (setHeld n mask s).pci = s.pci := rfl
@[simp] theorem setHeld_cxl0 (n mask : Nat) : (setHeld n mask s).cxl0 = s.cxl0 := rfl
@[simp] theorem setHeld_cxl1 (n mask : Nat) : (setHeld n mask s).cxl1 = s.cxl1 := rfl
@[simp] theorem setHeld_eth (n mask : Nat) : (setHeld n mask s).eth = s.eth := rfl
@[simp] theorem setHeld_scl (n mask : Nat) : (setHeld n mask s).scl = s.scl := rfl
@[simp] theorem setHeld_heat (n mask : Nat) : (setHeld n mask s).heat = s.heat := rfl
@[simp] theorem setHeld_lat (n mask : Nat) : (setHeld n mask s).lat = s.lat := rfl
@[simp] theorem setHeld_rng (n mask : Nat) : (setHeld n mask s).rng = s.rng := rfl
@[simp] theorem setHeld_rdma (n mask : Nat) : (setHeld n mask s).rdma = s.rdma := rfl
@[simp] theorem setHeld_chord (n mask : Nat) : (setHeld n mask s).chord = s.chord := rfl
@[simp] theorem setHeld_sealing (n mask : Nat) : (setHeld n mask s).sealing = s.sealing := rfl
@[simp] theorem setHeld_pair (n mask : Nat) : (setHeld n mask s).pair = s.pair := rfl
@[simp] theorem setHeld_pins (n mask : Nat) : (setHeld n mask s).pins = s.pins := rfl

/-! ### setFn -/
@[simp] theorem setFn_pending (f : Fn) (c : FnConfig) : (setFn s f c).pending = s.pending := rfl
@[simp] theorem setFn_out (f : Fn) (c : FnConfig) : (setFn s f c).out = s.out := rfl
@[simp] theorem setFn_fresh (f : Fn) (c : FnConfig) : (setFn s f c).fresh = s.fresh := rfl
@[simp] theorem setFn_regs (f : Fn) (c : FnConfig) : (setFn s f c).regs = s.regs := rfl
@[simp] theorem setFn_top (f : Fn) (c : FnConfig) : (setFn s f c).top = s.top := rfl
@[simp] theorem setFn_cad (f : Fn) (c : FnConfig) : (setFn s f c).cad = s.cad := rfl
@[simp] theorem setFn_sct (f : Fn) (c : FnConfig) : (setFn s f c).sct = s.sct := rfl
@[simp] theorem setFn_rings (f : Fn) (c : FnConfig) : (setFn s f c).rings = s.rings := rfl
@[simp] theorem setFn_mem (f : Fn) (c : FnConfig) : (setFn s f c).mem = s.mem := rfl
@[simp] theorem setFn_mover (f : Fn) (c : FnConfig) : (setFn s f c).mover = s.mover := rfl
@[simp] theorem setFn_wake (f : Fn) (c : FnConfig) : (setFn s f c).wake = s.wake := rfl
@[simp] theorem setFn_err (f : Fn) (c : FnConfig) : (setFn s f c).err = s.err := rfl
@[simp] theorem setFn_rst (f : Fn) (c : FnConfig) : (setFn s f c).rst = s.rst := rfl
@[simp] theorem setFn_pci (f : Fn) (c : FnConfig) : (setFn s f c).pci = { s.pci with fns := Table.put s.pci.fns (fnKey f) c } := rfl
@[simp] theorem setFn_cxl0 (f : Fn) (c : FnConfig) : (setFn s f c).cxl0 = s.cxl0 := rfl
@[simp] theorem setFn_cxl1 (f : Fn) (c : FnConfig) : (setFn s f c).cxl1 = s.cxl1 := rfl
@[simp] theorem setFn_eth (f : Fn) (c : FnConfig) : (setFn s f c).eth = s.eth := rfl
@[simp] theorem setFn_scl (f : Fn) (c : FnConfig) : (setFn s f c).scl = s.scl := rfl
@[simp] theorem setFn_heat (f : Fn) (c : FnConfig) : (setFn s f c).heat = s.heat := rfl
@[simp] theorem setFn_lat (f : Fn) (c : FnConfig) : (setFn s f c).lat = s.lat := rfl
@[simp] theorem setFn_rng (f : Fn) (c : FnConfig) : (setFn s f c).rng = s.rng := rfl
@[simp] theorem setFn_rdma (f : Fn) (c : FnConfig) : (setFn s f c).rdma = s.rdma := rfl
@[simp] theorem setFn_chord (f : Fn) (c : FnConfig) : (setFn s f c).chord = s.chord := rfl
@[simp] theorem setFn_sealing (f : Fn) (c : FnConfig) : (setFn s f c).sealing = s.sealing := rfl
@[simp] theorem setFn_pair (f : Fn) (c : FnConfig) : (setFn s f c).pair = s.pair := rfl
@[simp] theorem setFn_pins (f : Fn) (c : FnConfig) : (setFn s f c).pins = s.pins := rfl

/-! ### setCache -/
@[simp] theorem setCache_pending (e : Nat) (l : List Cached) : (setCache e l s).pending = s.pending := rfl
@[simp] theorem setCache_out (e : Nat) (l : List Cached) : (setCache e l s).out = s.out := rfl
@[simp] theorem setCache_fresh (e : Nat) (l : List Cached) : (setCache e l s).fresh = s.fresh := rfl
@[simp] theorem setCache_regs (e : Nat) (l : List Cached) : (setCache e l s).regs = s.regs := rfl
@[simp] theorem setCache_top (e : Nat) (l : List Cached) : (setCache e l s).top = s.top := rfl
@[simp] theorem setCache_cad (e : Nat) (l : List Cached) : (setCache e l s).cad = s.cad := rfl
@[simp] theorem setCache_sct (e : Nat) (l : List Cached) : (setCache e l s).sct = s.sct := rfl
@[simp] theorem setCache_rings (e : Nat) (l : List Cached) : (setCache e l s).rings = s.rings := rfl
@[simp] theorem setCache_mem (e : Nat) (l : List Cached) : (setCache e l s).mem = { s.mem with caches := Table.put s.mem.caches e l } := rfl
@[simp] theorem setCache_mover (e : Nat) (l : List Cached) : (setCache e l s).mover = s.mover := rfl
@[simp] theorem setCache_wake (e : Nat) (l : List Cached) : (setCache e l s).wake = s.wake := rfl
@[simp] theorem setCache_err (e : Nat) (l : List Cached) : (setCache e l s).err = s.err := rfl
@[simp] theorem setCache_rst (e : Nat) (l : List Cached) : (setCache e l s).rst = s.rst := rfl
@[simp] theorem setCache_pci (e : Nat) (l : List Cached) : (setCache e l s).pci = s.pci := rfl
@[simp] theorem setCache_cxl0 (e : Nat) (l : List Cached) : (setCache e l s).cxl0 = s.cxl0 := rfl
@[simp] theorem setCache_cxl1 (e : Nat) (l : List Cached) : (setCache e l s).cxl1 = s.cxl1 := rfl
@[simp] theorem setCache_eth (e : Nat) (l : List Cached) : (setCache e l s).eth = s.eth := rfl
@[simp] theorem setCache_scl (e : Nat) (l : List Cached) : (setCache e l s).scl = s.scl := rfl
@[simp] theorem setCache_heat (e : Nat) (l : List Cached) : (setCache e l s).heat = s.heat := rfl
@[simp] theorem setCache_lat (e : Nat) (l : List Cached) : (setCache e l s).lat = s.lat := rfl
@[simp] theorem setCache_rng (e : Nat) (l : List Cached) : (setCache e l s).rng = s.rng := rfl
@[simp] theorem setCache_rdma (e : Nat) (l : List Cached) : (setCache e l s).rdma = s.rdma := rfl
@[simp] theorem setCache_chord (e : Nat) (l : List Cached) : (setCache e l s).chord = s.chord := rfl
@[simp] theorem setCache_sealing (e : Nat) (l : List Cached) : (setCache e l s).sealing = s.sealing := rfl
@[simp] theorem setCache_pair (e : Nat) (l : List Cached) : (setCache e l s).pair = s.pair := rfl
@[simp] theorem setCache_pins (e : Nat) (l : List Cached) : (setCache e l s).pins = s.pins := rfl

/-! ### reply -/
@[simp] theorem reply_pending (v : Nat) : (reply v s).pending = s.pending := rfl
@[simp] theorem reply_out (v : Nat) : (reply v s).out = s.out := rfl
@[simp] theorem reply_fresh (v : Nat) : (reply v s).fresh = s.fresh := rfl
@[simp] theorem reply_regs (v : Nat) : (reply v s).regs = s.regs := rfl
@[simp] theorem reply_top (v : Nat) : (reply v s).top = s.top := rfl
@[simp] theorem reply_cad (v : Nat) : (reply v s).cad = s.cad := rfl
@[simp] theorem reply_sct (v : Nat) : (reply v s).sct = s.sct := rfl
@[simp] theorem reply_rings (v : Nat) : (reply v s).rings = s.rings := rfl
@[simp] theorem reply_mem (v : Nat) : (reply v s).mem = s.mem := rfl
@[simp] theorem reply_mover (v : Nat) : (reply v s).mover = s.mover := rfl
@[simp] theorem reply_wake (v : Nat) : (reply v s).wake = s.wake := rfl
@[simp] theorem reply_err (v : Nat) : (reply v s).err = s.err := rfl
@[simp] theorem reply_rst (v : Nat) : (reply v s).rst = s.rst := rfl
@[simp] theorem reply_pci (v : Nat) : (reply v s).pci = { s.pci with reply := v } := rfl
@[simp] theorem reply_cxl0 (v : Nat) : (reply v s).cxl0 = s.cxl0 := rfl
@[simp] theorem reply_cxl1 (v : Nat) : (reply v s).cxl1 = s.cxl1 := rfl
@[simp] theorem reply_eth (v : Nat) : (reply v s).eth = s.eth := rfl
@[simp] theorem reply_scl (v : Nat) : (reply v s).scl = s.scl := rfl
@[simp] theorem reply_heat (v : Nat) : (reply v s).heat = s.heat := rfl
@[simp] theorem reply_lat (v : Nat) : (reply v s).lat = s.lat := rfl
@[simp] theorem reply_rng (v : Nat) : (reply v s).rng = s.rng := rfl
@[simp] theorem reply_rdma (v : Nat) : (reply v s).rdma = s.rdma := rfl
@[simp] theorem reply_chord (v : Nat) : (reply v s).chord = s.chord := rfl
@[simp] theorem reply_sealing (v : Nat) : (reply v s).sealing = s.sealing := rfl
@[simp] theorem reply_pair (v : Nat) : (reply v s).pair = s.pair := rfl
@[simp] theorem reply_pins (v : Nat) : (reply v s).pins = s.pins := rfl

@[simp] theorem drawFree_value : (drawFree s).1 = Config.freeNat s.fresh := rfl
@[simp] theorem drawFree_pending : (drawFree s).2.pending = s.pending := rfl
@[simp] theorem drawFree_out : (drawFree s).2.out = s.out := rfl
@[simp] theorem drawFree_fresh : (drawFree s).2.fresh = s.fresh + 1 := rfl
@[simp] theorem drawFree_regs : (drawFree s).2.regs = s.regs := rfl
@[simp] theorem drawFree_top : (drawFree s).2.top = s.top := rfl
@[simp] theorem drawFree_cad : (drawFree s).2.cad = s.cad := rfl
@[simp] theorem drawFree_sct : (drawFree s).2.sct = s.sct := rfl
@[simp] theorem drawFree_rings : (drawFree s).2.rings = s.rings := rfl
@[simp] theorem drawFree_mem : (drawFree s).2.mem = s.mem := rfl
@[simp] theorem drawFree_mover : (drawFree s).2.mover = s.mover := rfl
@[simp] theorem drawFree_wake : (drawFree s).2.wake = s.wake := rfl
@[simp] theorem drawFree_err : (drawFree s).2.err = s.err := rfl
@[simp] theorem drawFree_rst : (drawFree s).2.rst = s.rst := rfl
@[simp] theorem drawFree_pci : (drawFree s).2.pci = s.pci := rfl
@[simp] theorem drawFree_cxl0 : (drawFree s).2.cxl0 = s.cxl0 := rfl
@[simp] theorem drawFree_cxl1 : (drawFree s).2.cxl1 = s.cxl1 := rfl
@[simp] theorem drawFree_eth : (drawFree s).2.eth = s.eth := rfl
@[simp] theorem drawFree_scl : (drawFree s).2.scl = s.scl := rfl
@[simp] theorem drawFree_heat : (drawFree s).2.heat = s.heat := rfl
@[simp] theorem drawFree_lat : (drawFree s).2.lat = s.lat := rfl
@[simp] theorem drawFree_rng : (drawFree s).2.rng = s.rng := rfl
@[simp] theorem drawFree_rdma : (drawFree s).2.rdma = s.rdma := rfl
@[simp] theorem drawFree_chord : (drawFree s).2.chord = s.chord := rfl
@[simp] theorem drawFree_sealing : (drawFree s).2.sealing = s.sealing := rfl
@[simp] theorem drawFree_pair : (drawFree s).2.pair = s.pair := rfl
@[simp] theorem drawFree_pins : (drawFree s).2.pins = s.pins := rfl

end Sys2Proof.Machine
end

