-- ==== Sys2Proof/Laws/Table.lean ====
section
/-! SUPPORT. Tables: an entry read after an update. None needs the keys to rise. -/
namespace Sys2Proof.Machine

variable {α : Type}

@[simp] theorem Table.find_nil (k : Nat) : Table.find ([] : Table α) k = none := rfl

@[simp] theorem Table.find_put_same (t : Table α) (k : Nat) (a : α) : Table.find (Table.put t k a) k = some a := by
  induction t with
  | nil => simp [Table.put, Table.find]
  | cons e t ih =>
    obtain ⟨j, b⟩ := e
    simp only [Table.put]
    split
    · simp [Table.find]
    · split
      · simp [Table.find]
      · rename_i h; simp only [Table.find]; rw [if_neg (fun e => h e.symm)]; exact ih

theorem Table.find_put_ne (t : Table α) {k j : Nat} (a : α) (h : j ≠ k) : Table.find (Table.put t k a) j = Table.find t j := by
  induction t with
  | nil => simp [Table.put, Table.find, Ne.symm h]
  | cons e t ih =>
    obtain ⟨i, b⟩ := e
    simp only [Table.put]
    split
    · simp [Table.find, Ne.symm h]
    · split
      · rename_i hk; subst hk; simp [Table.find, Ne.symm h]
      · simp [Table.find, ih]

theorem Table.find_put (t : Table α) (k j : Nat) (a : α) :
    Table.find (Table.put t k a) j = if j = k then some a else Table.find t j := by
  by_cases h : j = k
  · subst h; simp
  · simp [h, Table.find_put_ne t a h]

@[simp] theorem Table.find_drop_same (t : Table α) (k : Nat) : Table.find (Table.drop t k) k = none := by
  induction t with
  | nil => rfl
  | cons e t ih =>
    obtain ⟨j, b⟩ := e
    by_cases h : j = k
    · subst h; simpa [Table.drop] using ih
    · have : Table.drop ((j, b) :: t) k = (j, b) :: Table.drop t k := by simp [Table.drop, h]
      simp [this, Table.find, h, ih]

theorem Table.find_drop_ne (t : Table α) {k j : Nat} (h : j ≠ k) : Table.find (Table.drop t k) j = Table.find t j := by
  induction t with
  | nil => rfl
  | cons e t ih =>
    obtain ⟨i, b⟩ := e
    by_cases hi : i = k
    · subst hi
      have : Table.drop ((i, b) :: t) i = Table.drop t i := by simp [Table.drop]
      simp [this, Table.find, ih, Ne.symm h]
    · have : Table.drop ((i, b) :: t) k = (i, b) :: Table.drop t k := by simp [Table.drop, hi]
      simp [this, Table.find, ih]

theorem Table.find_drop (t : Table α) (k j : Nat) :
    Table.find (Table.drop t k) j = if j = k then none else Table.find t j := by
  by_cases h : j = k
  · subst h; simp
  · simp [h, Table.find_drop_ne t h]

theorem Table.find_change (t : Table α) (k j : Nat) (f : α → α) :
    Table.find (Table.change t k f) j = if j = k then (Table.find t j).map f else Table.find t j := by
  induction t with
  | nil => simp [Table.change]
  | cons e t ih =>
    obtain ⟨i, b⟩ := e
    have hc : Table.change ((i, b) :: t) k f = (if i = k then (k, f b) else (i, b)) :: Table.change t k f := rfl
    rw [hc]
    by_cases hi : i = k
    · subst hi
      by_cases hj : i = j
      · subst hj; simp [Table.find]
      · simp [Table.find, hj, Ne.symm hj] at ih ⊢; exact ih
    · by_cases hj : i = j
      · subst hj; simp [Table.find, hi]
      · simp [Table.find, hi, hj, ih]

/-- What `getD` reads after a `put`. -/
@[simp] theorem Table.getD_put_same (t : Table α) (k : Nat) (a d : α) : Table.getD (Table.put t k a) k d = a := by
  simp [Table.getD]

theorem Table.getD_put_ne (t : Table α) {k j : Nat} (a d : α) (h : j ≠ k) :
    Table.getD (Table.put t k a) j d = Table.getD t j d := by
  simp [Table.getD, Table.find_put_ne t a h]

/-- A key is among those of a `put` only if it is the one written or was there. -/
theorem Table.mem_put (t : Table α) (k : Nat) (a : α) (e : Nat × α) (h : e ∈ Table.put t k a) : e = (k, a) ∨ e ∈ t := by
  induction t with
  | nil => simpa [Table.put] using h
  | cons x t ih =>
    obtain ⟨j, b⟩ := x
    simp only [Table.put] at h
    split at h
    · simpa using h
    · split at h
      · rcases List.mem_cons.mp h with h | h
        · exact .inl h
        · exact .inr (List.mem_cons_of_mem _ h)
      · rcases List.mem_cons.mp h with h | h
        · exact .inr (by simp [h])
        · rcases ih h with h | h
          · exact .inl h
          · exact .inr (List.mem_cons_of_mem _ h)

/-- What `firstFree` finds is free, and in its range. -/
theorem Table.firstFree_spec (t : Table α) (n : Nat) : ∀ (lo k : Nat), Table.firstFree t lo n = some k →
    Table.find t k = none ∧ lo ≤ k ∧ k < lo + n := by
  induction n with
  | zero => intro lo k h; simp [Table.firstFree] at h
  | succ n ih =>
    intro lo k h
    simp only [Table.firstFree] at h
    split at h
    · rename_i hn
      obtain rfl : lo = k := by simpa using h
      exact ⟨by simpa using hn, le_refl _, by omega⟩
    · obtain ⟨h1, h2, h3⟩ := ih (lo + 1) k h
      exact ⟨h1, by omega, by omega⟩

end Sys2Proof.Machine
end

