-- ==== Sys2Proof/Laws/Memory.lean ====
section
/-! SUPPORT. Memory: a byte read after a write, and the canonical form kept by every memory operation (log entry 3). -/
namespace Sys2Proof.Machine

@[simp] theorem cellAt_cellPut_same (cells : List (Nat × Byte)) (a : Nat) (b : Byte) : cellAt (cellPut cells a b) a = b := by
  unfold cellAt cellPut
  split
  · rename_i h; simp [h]
  · simp

theorem cellAt_cellPut_ne (cells : List (Nat × Byte)) {a x : Nat} (b : Byte) (h : x ≠ a) :
    cellAt (cellPut cells a b) x = cellAt cells x := by
  unfold cellAt cellPut
  split
  · simp [Table.find_drop_ne _ h]
  · simp [Table.find_put_ne _ _ h]

/-- Every byte outside the bytes written reads as before. -/
theorem cellAt_cellsPut_outside (bs : List Byte) : ∀ (cells : List (Nat × Byte)) (a x : Nat), (x < a ∨ a + bs.length ≤ x) →
    cellAt (cellsPut cells a bs) x = cellAt cells x := by
  induction bs with
  | nil => intros; rfl
  | cons b bs ih =>
    intro cells a x h
    simp only [cellsPut]
    rw [ih _ _ _ (by simp only [List.length_cons] at h; omega), cellAt_cellPut_ne]
    simp only [List.length_cons] at h; omega

/-- The bytes written read as written. -/
theorem cellAt_cellsPut_inside (bs : List Byte) : ∀ (cells : List (Nat × Byte)) (a i : Nat) (h : i < bs.length),
    cellAt (cellsPut cells a bs) (a + i) = bs[i] := by
  induction bs with
  | nil => intro _ _ i h; simp at h
  | cons b bs ih =>
    intro cells a i h
    simp only [cellsPut]
    cases i with
    | zero =>
      rw [cellAt_cellsPut_outside _ _ _ _ (by omega)]
      simp
    | succ i =>
      have := ih (cellPut cells a b) (a + 1) i (by simpa using h)
      rw [show a + (i + 1) = a + 1 + i by omega, this]
      simp

/-- A poke reads back, and leaves every other byte. -/
theorem cellAt_poke_outside (s : State) (a x : Nat) (bs : List Byte) (h : x < a ∨ a + bs.length ≤ x) :
    cellAt (poke s a bs).mem.cells x = cellAt s.mem.cells x := cellAt_cellsPut_outside bs _ _ _ h

theorem peek_poke_same (s : State) (a : Nat) (bs : List Byte) : peek (poke s a bs) a bs.length = bs := by
  apply List.ext_getElem
  · simp [peek]
  · intro i h1 h2
    simp only [peek, List.getElem_map, List.getElem_range]
    exact cellAt_cellsPut_inside bs _ _ _ h2

/-- Zeros are written to a range, and to nothing else. -/
theorem find_filter_out {α : Type} (p : Nat → Bool) (t : Table α) (x : Nat) :
    Table.find (t.filter (fun c => p c.1)) x = if p x then Table.find t x else none := by
  induction t with
  | nil => simp
  | cons e t ih =>
    obtain ⟨j, b⟩ := e
    by_cases hj : p j = true
    · simp only [List.filter_cons, hj, if_true, Table.find]
      by_cases h : j = x
      · subst h; simp [hj]
      · simp [h, ih]
    · simp only [List.filter_cons, hj, Table.find]
      by_cases h : j = x
      · subst h; simp [ih, hj]
      · simp [h, ih]

theorem cellAt_zeroFill (s : State) (base size x : Nat) :
    cellAt (zeroFill s base size).mem.cells x = if base ≤ x ∧ x < base + size then 0 else cellAt s.mem.cells x := by
  have h := find_filter_out (fun a => decide (a < base) || decide (base + size ≤ a)) s.mem.cells x
  unfold cellAt
  have hz : (zeroFill s base size).mem.cells
      = s.mem.cells.filter (fun c => (fun a => decide (a < base) || decide (base + size ≤ a)) c.1) := by
    simp [zeroFill]
  rw [hz, h]
  by_cases hx : base ≤ x ∧ x < base + size
  · have : ¬ (x < base) ∧ ¬ (base + size ≤ x) := by omega
    simp [hx, this]
  · have : x < base ∨ base + size ≤ x := by omega
    simp [hx, this]

/-! ### The canonical form -/

theorem cellsWf_iff (l : List (Nat × Byte)) :
    cellsWf l = true ↔ l.Pairwise (fun x y => x.1 < y.1) ∧ ∀ e ∈ l, e.2 ≠ 0 := by
  induction l with
  | nil => simp [cellsWf]
  | cons e l ih =>
    obtain ⟨a, b⟩ := e
    cases l with
    | nil => simp [cellsWf]
    | cons e' l =>
      obtain ⟨a', b'⟩ := e'
      simp only [cellsWf, Bool.and_eq_true, bne_iff_ne, ne_eq, decide_eq_true_eq, ih]
      constructor
      · rintro ⟨⟨hb, ha⟩, hp, hz⟩
        refine ⟨List.pairwise_cons.mpr ⟨?_, hp⟩, ?_⟩
        · intro x hx
          rcases List.mem_cons.mp hx with rfl | hx
          · exact ha
          · exact lt_trans ha ((List.pairwise_cons.mp hp).1 x hx)
        · intro x hx
          rcases List.mem_cons.mp hx with rfl | hx
          · exact hb
          · exact hz x hx
      · rintro ⟨hp, hz⟩
        obtain ⟨h1, h2⟩ := List.pairwise_cons.mp hp
        exact ⟨⟨hz (a, b) (by simp), h1 (a', b') (by simp)⟩, h2, fun x hx => hz x (List.mem_cons_of_mem _ hx)⟩

theorem rising_iff (l : List Nat) : rising l = true ↔ l.Pairwise (· < ·) := by
  induction l with
  | nil => simp [rising]
  | cons a l ih =>
    cases l with
    | nil => simp [rising]
    | cons b l =>
      simp only [rising, Bool.and_eq_true, decide_eq_true_eq, ih]
      constructor
      · rintro ⟨h, hp⟩
        refine List.pairwise_cons.mpr ⟨?_, hp⟩
        intro x hx
        rcases List.mem_cons.mp hx with rfl | hx
        · exact h
        · exact lt_trans h ((List.pairwise_cons.mp hp).1 x hx)
      · intro hp
        obtain ⟨h1, h2⟩ := List.pairwise_cons.mp hp
        exact ⟨h1 b (by simp), h2⟩

/-- A `put` keeps the keys rising. -/
theorem Table.put_pairwise {α : Type} (t : Table α) (k : Nat) (a : α) (h : t.Pairwise (fun x y => x.1 < y.1)) :
    (Table.put t k a).Pairwise (fun x y => x.1 < y.1) := by
  induction t with
  | nil => simp [Table.put]
  | cons e t ih =>
    obtain ⟨j, b⟩ := e
    obtain ⟨h1, h2⟩ := List.pairwise_cons.mp h
    simp only [Table.put]
    split
    · rename_i hk
      refine List.pairwise_cons.mpr ⟨?_, h⟩
      intro x hx
      rcases List.mem_cons.mp hx with rfl | hx
      · exact hk
      · exact lt_trans hk (h1 x hx)
    · split
      · rename_i hk; subst hk
        exact List.pairwise_cons.mpr ⟨h1, h2⟩
      · refine List.pairwise_cons.mpr ⟨?_, ih h2⟩
        intro x hx
        rcases Table.mem_put t k a x hx with rfl | hx
        · show j < k; omega
        · exact h1 x hx

theorem cellsWf_cellPut (cells : List (Nat × Byte)) (a : Nat) (b : Byte) (h : cellsWf cells = true) :
    cellsWf (cellPut cells a b) = true := by
  rw [cellsWf_iff] at h ⊢
  unfold cellPut
  split
  · exact ⟨h.1.filter _, fun e he => h.2 e (List.mem_of_mem_filter he)⟩
  · rename_i hb
    refine ⟨Table.put_pairwise _ _ _ h.1, fun e he => ?_⟩
    rcases Table.mem_put _ _ _ _ he with rfl | he
    · exact hb
    · exact h.2 e he

theorem cellsWf_cellsPut (bs : List Byte) : ∀ (cells : List (Nat × Byte)) (a : Nat), cellsWf cells = true →
    cellsWf (cellsPut cells a bs) = true := by
  induction bs with
  | nil => intro _ _ h; exact h
  | cons b bs ih => intro cells a h; exact ih _ _ (cellsWf_cellPut cells a b h)

theorem insertNat_mem (n x : Nat) (l : List Nat) (h : x ∈ insertNat n l) : x = n ∨ x ∈ l := by
  induction l with
  | nil => simpa [insertNat] using h
  | cons m t ih =>
    simp only [insertNat] at h
    split at h
    · simpa using h
    · split at h
      · exact .inr h
      · rcases List.mem_cons.mp h with h | h
        · exact .inr (by simp [h])
        · rcases ih h with h | h
          · exact .inl h
          · exact .inr (List.mem_cons_of_mem _ h)

theorem rising_insertNat (n : Nat) (l : List Nat) (h : rising l = true) : rising (insertNat n l) = true := by
  rw [rising_iff] at h ⊢
  induction l with
  | nil => simp [insertNat]
  | cons m t ih =>
    obtain ⟨h1, h2⟩ := List.pairwise_cons.mp h
    simp only [insertNat]
    split
    · rename_i hn
      refine List.pairwise_cons.mpr ⟨?_, h⟩
      intro x hx
      rcases List.mem_cons.mp hx with rfl | hx
      · exact hn
      · exact lt_trans hn (h1 x hx)
    · split
      · exact h
      · refine List.pairwise_cons.mpr ⟨?_, ih h2⟩
        intro x hx
        rcases insertNat_mem n x t hx with rfl | hx
        · omega
        · exact h1 x hx

theorem rising_filter (p : Nat → Bool) (l : List Nat) (h : rising l = true) : rising (l.filter p) = true := by
  rw [rising_iff] at h ⊢
  exact h.filter p

theorem memoryCanonical_iff (s : State) :
    memoryCanonical s = true ↔ cellsWf s.mem.cells = true ∧ rising s.mem.poison = true := by
  simp [memoryCanonical, Mem.wf]

/-- The canonical form rests on the cells and the poisoned lines alone. -/
theorem memoryCanonical_of_mem {s t : State} (h : memoryCanonical s = true) (hc : t.mem.cells = s.mem.cells)
    (hp : t.mem.poison = s.mem.poison) : memoryCanonical t = true := by
  simpa [memoryCanonical, Mem.wf, hc, hp] using h

theorem memoryCanonical_poke (s : State) (a : Nat) (bs : List Byte) (h : memoryCanonical s = true) :
    memoryCanonical (poke s a bs) = true := by
  rw [memoryCanonical_iff] at h ⊢
  exact ⟨cellsWf_cellsPut bs _ _ h.1, h.2⟩

theorem memoryCanonical_poisonLine (s : State) (a : Nat) (h : memoryCanonical s = true) :
    memoryCanonical (poisonLine s a) = true := by
  rw [memoryCanonical_iff] at h ⊢
  exact ⟨h.1, rising_insertNat _ _ h.2⟩

theorem memoryCanonical_unpoison (s : State) (a : Nat) (h : memoryCanonical s = true) :
    memoryCanonical (unpoison s a) = true := by
  rw [memoryCanonical_iff] at h ⊢
  exact ⟨h.1, rising_filter _ _ h.2⟩

theorem memoryCanonical_zeroFill (s : State) (base size : Nat) (h : memoryCanonical s = true) :
    memoryCanonical (zeroFill s base size) = true := by
  rw [memoryCanonical_iff] at h ⊢
  refine ⟨?_, rising_filter _ _ h.2⟩
  rw [cellsWf_iff] at h ⊢
  exact ⟨h.1.1.filter _, fun e he => h.1.2 e (List.mem_of_mem_filter he)⟩

/-- Memory at reset is in its canonical form. -/
theorem memoryCanonical_reset : memoryCanonical State.reset = true := by decide

end Sys2Proof.Machine
end

