-- ==== Sys2Proof/Laws/Ops.lean ====
section
/-! SUPPORT. What the shared operations do, said once: registers and counters, readers after writers, how a command begins and ends,
and reads and writes by a trusted master where no fault is found. -/
namespace Sys2Proof.Machine

/-! ### Registers and counters -/

@[simp] theorem rget_rput_same (s : State) (r : Reg) (i j v : Nat) : rget (rput s r i j v) r i j = v % 2 ^ 64 := by
  simp [rget, rput, regGet, regPut, BitVec.toNat_ofNat]

theorem rget_rput_ne (s : State) {r q : Reg} {i j i' j' : Nat} (v : Nat) (h : q.offset i' j' ≠ r.offset i j) :
    rget (rput s r i j v) q i' j' = rget s q i' j' := by
  simp [rget, rput, regGet, regPut, Table.find_put_ne _ _ h]

/-- A 32-bit counter in the low bits of its register counts one, and saturates. -/
theorem bump_counts (s : State) (r : Reg) (i : Nat) :
    rget (bump s r i) r i % 2 ^ 32 = min (rget s r i % 2 ^ 32 + 1) (2 ^ 32 - 1) := by
  simp only [bump, bumpField, rget_rput_same, setBits, satAdd, bitsOf, Nat.shiftRight_zero, pow_zero, mul_one]
  omega

theorem rget_bumpField_ne (s : State) {r q : Reg} {i i' j' : Nat} (lo w n : Nat) (h : q.offset i' j' ≠ r.offset i 0) :
    rget (bumpField s r i lo w n) q i' j' = rget s q i' j' := rget_rput_ne s _ h

theorem rget_bump_ne (s : State) {r q : Reg} {i i' j' : Nat} (h : q.offset i' j' ≠ r.offset i 0) :
    rget (bump s r i) q i' j' = rget s q i' j' := rget_rput_ne s _ h

/-! ### Readers after writers -/

@[simp] theorem ringOf_setRing_same (s : State) (i : Nat) (r : Ring) : ringOf (setRing s i r) i = r := by simp [ringOf]
theorem ringOf_setRing_ne (s : State) {i j : Nat} (r : Ring) (h : j ≠ i) : ringOf (setRing s i r) j = ringOf s j := by
  simp [ringOf, Table.getD_put_ne _ _ _ h]

@[simp] theorem linkOf_setLink_same (s : State) (c : Nat) (l : Link) : linkOf (setLink c l s) c = l := by simp [linkOf]
theorem linkOf_setLink_ne (s : State) {c j : Nat} (l : Link) (h : j ≠ c) : linkOf (setLink c l s) j = linkOf s j := by
  simp [linkOf, Table.getD_put_ne _ _ _ h]

@[simp] theorem mailboxOf_setMailbox_same (s : State) (p : Nat) (m : Mailbox) : mailboxOf (setMailbox p m s) p = m := by
  simp [mailboxOf]

@[simp] theorem sealOf_setSeal_same (s : State) (n : Nat) (x : SealSector) : sealOf (setSeal s n x) n = x := by simp [sealOf]
theorem sealOf_setSeal_ne (s : State) {n m : Nat} (x : SealSector) (h : m ≠ n) : sealOf (setSeal s n x) m = sealOf s m := by
  simp [sealOf, Table.getD_put_ne _ _ _ h]

@[simp] theorem qps_setQp_same (s : State) (k : Nat) (q : Qp) : Table.find (setQp k q s).rdma.qps k = some q := by simp
theorem qps_setQp_ne (s : State) {k j : Nat} (q : Qp) (h : j ≠ k) :
    Table.find (setQp k q s).rdma.qps j = Table.find s.rdma.qps j := by
  simp [Table.find_put_ne _ _ h]

theorem qps_changeQp (s : State) (k j : Nat) (f : Qp → Qp) :
    Table.find (changeQp k f s).rdma.qps j
      = if j = k then (Table.find s.rdma.qps j).map f else Table.find s.rdma.qps j := by
  simp [Table.find_change]

/-! ### Commands begin and end -/

/-- Every ring's in-flight commands after a function over them: the rest of the ring stays. -/
theorem ringOf_mapInflight (s : State) (f : Cmd → Cmd) (r : Nat) :
    ringOf (mapInflight f s) r = { ringOf s r with inflight := (ringOf s r).inflight.map f } := by
  have h : ∀ t : Table Ring, Table.find (t.map (fun e => (e.1, { e.2 with inflight := e.2.inflight.map f }))) r
      = (Table.find t r).map (fun x => { x with inflight := x.inflight.map f }) := by
    intro t
    induction t with
    | nil => rfl
    | cons e t ih =>
      simp only [List.map_cons, Table.find]
      split
      · rfl
      · exact ih
  simp only [ringOf, mapInflight, Table.getD, h]
  cases Table.find s.rings.table r <;> rfl

/-- What a command of a ring finds when it does not begin: nothing waits that may begin, or it is not of this opcode. -/
theorem beginCommand_none {s : State} {ring : Nat} (op : Nat) (body : Cmd → State → Body) (h : nextToBegin s ring = none) :
    beginCommand op ring body s = s := by
  simp [beginCommand, h]

theorem beginCommand_other {s : State} {ring : Nat} {c : Cmd} (op : Nat) (body : Cmd → State → Body)
    (h : nextToBegin s ring = some c) (ho : c.opcode ≠ op) : beginCommand op ring body s = s := by
  simp [beginCommand, h, ho]

/-- A gate that is closed ends the command with its status. -/
theorem beginCommand_gated {s : State} {ring st : Nat} {c : Cmd} (op : Nat) (body : Cmd → State → Body)
    (h : nextToBegin s ring = some c) (ho : c.opcode = op) (hg : commandGate s op = some st) :
    beginCommand op ring body s = finish c.serial st 0 0 s := by
  simp [beginCommand, h, ho, hg]

/-- A command that begins is settled by what its body answers. -/
theorem beginCommand_begins {s : State} {ring : Nat} {c : Cmd} (op : Nat) (body : Cmd → State → Body)
    (h : nextToBegin s ring = some c) (ho : c.opcode = op) (hg : commandGate s op = none) :
    beginCommand op ring body s = settle c.serial s (body c s) := by
  simp [beginCommand, h, ho, hg]

@[simp] theorem settle_done (n : Nat) (s t : State) (st r0 r1 : Nat) : settle n s (.ok (.done st r0 r1 t)) = finish n st r0 r1 t := rfl
@[simp] theorem settle_running (n : Nat) (s t : State) : settle n s (.ok (.running t)) = setPhase n .running t := rfl
@[simp] theorem settle_later (n : Nat) (s t : State) : settle n s (.ok (.later t)) = t := rfl

/-- A refusal other than for a closed power gate changes nothing but the command. -/
theorem settle_error (n : Nat) (s : State) (r : Refuse) (h : r.status ≠ stRetryPower) :
    settle n s (.error r) = finish n r.status r.r0 r.r1 s := by
  simp [settle, h]

@[simp] theorem need_true (st r0 : Nat) : need true st r0 = .ok () := rfl
@[simp] theorem need_false (st r0 : Nat) : need false st r0 = .error { status := st, r0 := r0 } := rfl

/-! ### Reads and writes where no fault is found -/

/-- A line that is not poisoned reads without an effect when no slot is armed. -/
theorem readLine_plain {s : State} {a : Nat} (hp : poisonedAt s a = false) (hs : s.err.slots = []) :
    readLine [] a s = (stOk, s) := by
  simp [readLine, hp, injectedFault, hs]

theorem readLines_plain {s : State} (hs : s.err.slots = []) (n : Nat) : ∀ l : Nat,
    (∀ k, k < n → s.mem.poison.contains (l + k) = false) → readLines [] n l s = (stOk, s) := by
  induction n with
  | zero => intros; rfl
  | succ n ih =>
    intro l h
    have h0 := h 0 (by omega)
    have : poisonedAt s (l * 64) = false := by simpa [poisonedAt] using h0
    simp only [readLines, readLine_plain this hs]
    exact ih (l + 1) (fun k hk => by have := h (k + 1) (by omega); rwa [show l + 1 + k = l + (k + 1) by omega])

/-- A trusted read of memory without poison answers the bytes and changes nothing. -/
theorem trustedRead_plain {s : State} {a n : Nat} (hn : n ≠ 0) (hs : s.err.slots = []) (h1 : isMemory s a = true)
    (h2 : isMemory s (a + n - 1) = true) (hp : ∀ k, k < (a + n - 1) / 64 - a / 64 + 1 → s.mem.poison.contains (a / 64 + k) = false) :
    trustedRead a n s = (.ok (peek s a n), s) := by
  simp [trustedRead, faultyRead, hn, h1, h2, readLines_plain hs _ _ hp]

theorem cellsPut_append (xs : List Byte) : ∀ (cells : List (Nat × Byte)) (a : Nat) (ys : List Byte),
    cellsPut cells a (xs ++ ys) = cellsPut (cellsPut cells a xs) (a + xs.length) ys := by
  induction xs with
  | nil => intros; rfl
  | cons x xs ih =>
    intro cells a ys
    simp only [List.cons_append, cellsPut, ih, List.length_cons]
    congr 1
    omega

/-- What a line write leaves when no line is poisoned and no slot is armed: the bytes, and everything else. -/
theorem writeLine_plain {s : State} {a : Nat} {bs : List Byte} (hp : s.mem.poison = []) (hs : s.err.slots = []) :
    writeLine [] a bs s = (stOk, poke s a bs) := by
  have hq : poisonedAt s a = false := by simp [poisonedAt, hp]
  have hu : unpoison s a = s := by
    unfold unpoison
    rw [hp, List.filter_nil, ← hp]
  unfold writeLine
  split
  · simp [hu]
  · split
    · rfl
    · simp [readLine_plain hq hs]

theorem writeLines_plain (n : Nat) : ∀ (a : Nat) (bs : List Byte) (s : State), s.mem.poison = [] → s.err.slots = [] →
    bs.length ≤ 64 * n - a % 64 → writeLines [] n a bs s = (stOk, poke s a bs) := by
  induction n with
  | zero =>
    intro a bs s _ _ h
    obtain rfl : bs = [] := List.length_eq_zero_iff.mp (by omega)
    cases s; rfl
  | succ n ih =>
    intro a bs s hp hs h
    by_cases hb : bs = []
    · subst hb; cases s; simp [writeLines, poke, cellsPut]
    · simp only [writeLines, hb, if_false, writeLine_plain hp hs]
      rw [ih _ _ _ (by simpa using hp) (by simpa using hs) (by simp only [List.length_drop]; omega)]
      have : poke (poke s a (bs.take (64 - a % 64))) (a + (64 - a % 64)) (bs.drop (64 - a % 64)) = poke s a bs := by
        by_cases hl : bs.length ≤ 64 - a % 64
        · have h2 : bs.drop (64 - a % 64) = [] := List.drop_eq_nil_of_le hl
          rw [h2, List.take_of_length_le hl]
          simp [poke, cellsPut]
        · have := cellsPut_append (bs.take (64 - a % 64)) s.mem.cells a (bs.drop (64 - a % 64))
          rw [List.take_append_drop, List.length_take, min_eq_left (by omega)] at this
          simp [poke, this]
      rw [this]

/-- A trusted write to memory without poison writes the bytes and changes nothing else. -/
theorem trustedWrite_plain {s : State} {a : Nat} {bs : List Byte} (hb : bs ≠ []) (hp : s.mem.poison = []) (hs : s.err.slots = [])
    (h1 : isMemory s a = true) (h2 : isMemory s (a + bs.length - 1) = true) : trustedWrite a bs s = (stOk, poke s a bs) := by
  simp only [trustedWrite, faultyWrite, hb, if_false, h1, h2]
  exact writeLines_plain _ a bs s hp hs (by omega)

end Sys2Proof.Machine
end

