-- ==== Sys2Proof/WellFormed.lean ====
section
/-! DEFINITION. When a command is well formed: every operand lies in the range that the hardware gives it. A command outside still has
its effect in the model, which ignores what names nothing. -/
namespace Sys2Proof
open Machine

/-- A number below a bound. -/
def below (n bound : Nat) : Bool := decide (n < bound)

/-- One of the 512 rings: sector × 64 + ring (04). -/
def ringOk (n : Nat) : Bool := below n 512

/-- One of the eight virtual functions, or the physical one (15). -/
def fnOk : Fn → Bool
  | .pf => true
  | .vf n => below n 8

/-- An offset in BAR0 (01). -/
def offOk (n : Nat) : Bool := below n (2 ^ 26 + 2 ^ 24)

/-- Size of a host access in bytes. -/
def sizeOk (n : Nat) : Bool := decide (1 ≤ n) && below n 65

/-- Who writes a doorbell. -/
def doorbellOk : Doorbell → Bool
  | .page fn => fnOk fn
  | .mirror fn => fnOk fn
  | .peer => true
  | .firmware => true

/-- A fault of a line: a line address, and at least one symbol. -/
def faultOk (f : LineFault) : Bool := decide (f.line % 64 = 0) && below f.line (2 ^ 46) && decide (1 ≤ f.symbols)
def faultsOk (fs : List LineFault) : Bool := fs.all faultOk

/-- A queue pair of the device (10 R499). -/
def qpnOk (n : Nat) : Bool := decide (0x10000 ≤ n) && below n 0x20000

/-- A RoCE packet: QPN and PSN of 24 bits, a payload of at most the largest path MTU (10 R497, R516). -/
def packetOk (p : RocePacket) : Bool :=
  below p.dest (2 ^ 24) && below p.psn (2 ^ 24) && below p.source (2 ^ 24) && decide (p.payload.length ≤ 4096)

/-- What a link's peer says in IDENT (11 R561). -/
def identOk (i : IdentInfo) : Bool := below i.pkg 64 && below i.link 12 && below i.serial (2 ^ 64) && below i.epoch (2 ^ 32)

/-- What a boot finds: a slot in the pod, two strap bits, eight stacks. -/
def envOk (e : BootEnv) : Bool := below e.straps.pkgSlot 64 && below e.straps.bootSel 4 && below e.hbm 256

/-- A cause of a warm reset. -/
def causeOk : WarmCause → Bool
  | .pin => true
  | .register fn value => fnOk fn && below value (2 ^ 64)
  | .sealing => true

/-- A configuration request: an aligned offset in configuration space, a BAR. -/
def configOk : ConfigReq → Bool
  | .read off => below off 4096 && decide (off % 4 = 0)
  | .vfEnable _ n => below n 65536
  | .msixControl _ _ => true
  | .relaxedOrdering _ => true
  | .bar n value => below n 6 && below value (2 ^ 32)
  | .completionTimeout value => below value 16

/-- A JTAG instruction. -/
def irOk : JtagIr → Bool
  | .idcode => true
  | .bypass => true
  | .other code => below code 256

/-- A PTP master's dataset (02). -/
def masterOk (m : PtpMaster) : Bool :=
  below m.identity (2 ^ 64) && below m.priority1 256 && below m.clockClass 256 && below m.accuracy 256 && below m.variance 65536
    && below m.priority2 256

/-- Whether a command is well formed. -/
def Instr.wf : Instr → Bool
  | .nop ring => ringOk ring
  | .identify ring => ringOk ring
  | .fwActivate ring _ => ringOk ring
  | .ringCreate ring => ringOk ring
  | .ringDestroy ring => ringOk ring
  | .ringReset ring => ringOk ring
  | .quiesce ring => ringOk ring
  | .sectorDefine ring => ringOk ring
  | .sectorShift ring => ringOk ring
  | .sectorStop ring => ringOk ring
  | .powerSet ring => ringOk ring
  | .markSet ring => ringOk ring
  | .markCancel ring => ringOk ring
  | .cadenceConfig ring => ringOk ring
  | .memInvalidate ring => ringOk ring
  | .tierMove ring faults => ringOk ring && faultsOk faults
  | .memZero ring => ringOk ring
  | .farAssign ring => ringOk ring
  | .launch ring => ringOk ring
  | .contextCreate ring => ringOk ring
  | .contextDestroy ring => ringOk ring
  | .contextKill ring => ringOk ring
  | .heatOpen ring faults => ringOk ring && faultsOk faults
  | .heatAdvance ring => ringOk ring
  | .heatAbort ring => ringOk ring
  | .heatQuery ring => ringOk ring
  | .heatCollect ring => ringOk ring
  | .heatPoolSet ring => ringOk ring
  | .latExec ring => ringOk ring
  | .latSuspend ring => ringOk ring
  | .latResume ring => ringOk ring
  | .latModuli ring => ringOk ring
  | .rngInstantiate ring => ringOk ring
  | .rngGenerate ring faults => ringOk ring && faultsOk faults
  | .rngReseed ring => ringOk ring
  | .rngUninstantiate ring => ringOk ring
  | .rngRawMode ring => ringOk ring
  | .rdmaTableSet ring => ringOk ring
  | .pdAlloc ring => ringOk ring
  | .pdFree ring => ringOk ring
  | .mrRegister ring => ringOk ring
  | .mrDeregister ring => ringOk ring
  | .mwAlloc ring => ringOk ring
  | .mwFree ring => ringOk ring
  | .qpCreate ring => ringOk ring
  | .qpModify ring => ringOk ring
  | .qpDestroy ring => ringOk ring
  | .qpQuery ring => ringOk ring
  | .rdmaPost ring _ faults => ringOk ring && faultsOk faults
  | .rdmaRecv ring => ringOk ring
  | .chordLink ring => ringOk ring
  | .chordRoute ring => ringOk ring
  | .chordAcl ring => ringOk ring
  | .chordXfer ring => ringOk ring
  | .chordFold ring => ringOk ring
  | .attestReport ring => ringOk ring
  | .bounceWindowAdd ring => ringOk ring
  | .bounceWindowRemove ring => ringOk ring
  | .opkeyLoad ring _ => ringOk ring
  | .opkeyRemove ring => ringOk ring
  | .sealArm ring => ringOk ring
  | .certRead ring => ringOk ring
  | .selftestRun ring => ringOk ring
  | .injectArm ring => ringOk ring
  | .injectDisarm ring => ringOk ring
  | .pairForm ring => ringOk ring
  | .pairTakeover ring => ringOk ring
  | .trayDetach ring => ringOk ring
  | .pairBreak ring => ringOk ring
  | .wakeConfig ring => ringOk ring
  | .wakeDrain ring faults _ => ringOk ring && faultsOk faults
  | .dropPacket ring => ringOk ring
  | .registerWrite fn off size value => fnOk fn && offOk off && sizeOk size && below value (2 ^ (8 * size))
  | .rcRead fn off size => fnOk fn && offOk off && sizeOk size
  | .misalignedRegisterAccess fn off size _ => fnOk fn && offOk off && sizeOk size
  | .sqTail src ring value => doorbellOk src && ringOk ring && below value (2 ^ 64)
  | .cqHead src ring value => doorbellOk src && ringOk ring && below value (2 ^ 64)
  | .adminCfgEnable fn sector value => fnOk fn && below sector 8 && below value (2 ^ 64)
  | .adminCfgReset fn sector value => fnOk fn && below sector 8 && below value (2 ^ 64)
  | .pop fn queue size => fnOk fn && below queue 64 && sizeOk size
  | .recoveryGo fn value => fnOk fn && below value (2 ^ 64)
  | .portCfg fn port value => fnOk fn && below port 8 && below value (2 ^ 64)
  | .bar4Read fn off size faults => fnOk fn && below off (2 ^ 32) && sizeOk size && faultsOk faults
  | .msixUnmask fn vector => fnOk fn && vector.all (below · 2048)
  | .vfEnableClear => true
  | .functionLevelReset fn => fnOk fn
  | .coldReset env => envOk env
  | .pwrGoodFall => true
  | .warmReset cause => causeOk cause
  | .sectorReset fn value => fnOk fn && below value (2 ^ 64)
  | .engineReset fn kind index => fn.all fnOk && (decide (kind = 1) || decide (kind = 2)) && below index 32
  | .hostPortReset _ => true
  | .bootDone env => envOk env
  | .watchdogExpiry => true
  | .trialTimerExpiry => true
  | .pllLossOfLock pll => below pll 19
  | .temperatureWarn die _ => below die 3
  | .temperatureCritical die _ => below die 3
  | .thermalTrip die _ => below die 3
  | .vrFault regulator => below regulator 12
  | .strokeBoundary now => below now (2 ^ 64)
  | .markRelease faults => faultsOk faults
  | .notBeforeDue ring => ringOk ring
  | .lockstepWaitExpiry ring => ringOk ring
  | .sync port _ seq received _ => below port 8 && below seq (2 ^ 16) && below received (2 ^ 64)
  | .followUp port _ seq now _ => below port 8 && below seq (2 ^ 16) && below now (2 ^ 64)
  | .announce port domain master => below port 8 && below domain 256 && masterOk master
  | .delayResp port _ seq _ => below port 8 && below seq (2 ^ 16)
  | .delayReq now => below now (2 ^ 64)
  | .ppsPulse now _ _ => below now (2 ^ 64)
  | .referenceLost now _ => below now (2 ^ 64)
  | .estimateExceedsTolerance now => below now (2 ^ 64)
  | .commandFetch _ => true
  | .completionPost ring _ _ => ringOk ring
  | .pcieCompletionTimeout ring => ring.all ringOk
  | .yieldResume => true
  | .drainTimeout => true
  | .shiftClearEnd => true
  | .powerDrainEnd kind index => (decide (kind = 1) || decide (kind = 2)) && below index 32
  | .powerUpComplete kind index => (decide (kind = 1) || decide (kind = 2)) && below index 32
  | .pageMoveEnd _ _ faults => faultsOk faults
  | .groupPlacement sector => below sector 8
  | .launchTimeout _ => true
  | .killComplete ctx => below ctx 512
  | .memoryAccessReturn _ => true
  | .descriptorComplete scull _ faults => below scull 256 && faultsOk faults
  | .crewNop _ => true
  | .bra _ => true
  | .jmp _ => true
  | .call _ => true
  | .exit _ _ => true
  | .bar _ => true
  | .fence _ => true
  | .missue _ => true
  | .mwait _ => true
  | .sread _ _ => true
  | .tpush _ => true
  | .tpushv _ => true
  | .vote _ => true
  | .shfl _ => true
  | .iadd _ => true
  | .isub _ => true
  | .imul _ => true
  | .imulhi _ => true
  | .imad _ => true
  | .and _ => true
  | .or _ => true
  | .xor _ => true
  | .shl _ => true
  | .shr _ => true
  | .min _ => true
  | .max _ => true
  | .sel _ => true
  | .popc _ => true
  | .clz _ => true
  | .mov _ => true
  | .iadd64 _ => true
  | .iaddc _ => true
  | .modmul _ => true
  | .modadd _ => true
  | .modsub _ => true
  | .imadw _ => true
  | .fadd _ => true
  | .fsub _ => true
  | .fmul _ => true
  | .ffma _ => true
  | .fmin _ => true
  | .fmax _ => true
  | .ffunc _ => true
  | .hadd2 _ => true
  | .hmul2 _ => true
  | .hfma2 _ => true
  | .cvt _ => true
  | .f8pack _ => true
  | .f8unpack _ => true
  | .isetp _ => true
  | .fsetp _ => true
  | .plop _ => true
  | .ld _ faults => faultsOk faults
  | .st _ faults => faultsOk faults
  | .atom _ faults => faultsOk faults
  | .ladd _ faults => faultsOk faults
  | .lld _ => true
  | .lst _ => true
  | .latom _ => true
  | .sadd _ => true
  | .ssub _ => true
  | .smul _ => true
  | .sand _ => true
  | .sor _ => true
  | .sxor _ => true
  | .sshl _ => true
  | .sshr _ => true
  | .smovi _ => true
  | .ssethi _ => true
  | .s2v _ => true
  | .v2s _ => true
  | .saddi _ => true
  | .stepBoundary engine _ => below engine 8
  | .latOperationEnd engine _ faults => below engine 8 && faultsOk faults
  | .rawBlockComplete annulus => below annulus 32
  | .aliveWindowClose _ => true
  | .lockBlockClose => true
  | .seedLeavesProbation _ => true
  | .seedToWaitingInstance => true
  | .enrol qp faults => qpnOk qp && faultsOk faults
  | .rosterGet qp faults => qpnOk qp && faultsOk faults
  | .share qp faults => qpnOk qp && faultsOk faults
  | .inboxGet qp faults => qpnOk qp && faultsOk faults
  | .submit qp faults => qpnOk qp && faultsOk faults
  | .confirm qp faults => qpnOk qp && faultsOk faults
  | .reveal qp faults => qpnOk qp && faultsOk faults
  | .tally qp faults => qpnOk qp && faultsOk faults
  | .heldReply qp faults => qpnOk qp && faultsOk faults
  | .vectorCommit slot => below slot 64
  | .taint slot addr faults => below slot 64 && below addr (2 ^ 52) && faultsOk faults
  | .taintRecovery slot _ _ => below slot 64
  | .exchangeTimeout slot => below slot 64
  | .data link flit => below link 12 && decide (flit.length = 256)
  | .nak link flit => below link 12 && decide (flit.length = 256)
  | .idle link flit => below link 12 && decide (flit.length = 256)
  | .heartbeat link flit => below link 12 && decide (flit.length = 256)
  | .ident link peer => below link 12 && identOk peer
  | .laneLockLoss link lane => below link 12 && below lane 9
  | .fecErrorBurst link lane => below link 12 && below lane 9
  | .retrainTimeout link => below link 12
  | .write link => below link 12
  | .readReq link faults => below link 12 && faultsOk faults
  | .readResp link => below link 12
  | .accum link faults => below link 12 && faultsOk faults
  | .fold link _ faults => below link 12 && faultsOk faults
  | .ack link => below link 12
  | .refuse link => below link 12
  | .system link _ faults => below link 12 && faultsOk faults
  | .foldRetry slot => below slot 64
  | .foldWaitExpiry slot => below slot 64
  | .dedupExpiry pkg stream _ => below pkg 64 && below stream (2 ^ 32)
  | .send pkt now faults => packetOk pkt && below now (2 ^ 64) && faultsOk faults
  | .rdmaWrite pkt now faults => packetOk pkt && below now (2 ^ 64) && faultsOk faults
  | .rdmaRead pkt now _ faults => packetOk pkt && below now (2 ^ 64) && faultsOk faults
  | .fetchAdd pkt now faults => packetOk pkt && below now (2 ^ 64) && faultsOk faults
  | .cmpSwap pkt now faults => packetOk pkt && below now (2 ^ 64) && faultsOk faults
  | .acknowledgement pkt now => packetOk pkt && below now (2 ^ 64)
  | .readResponse pkt now faults => packetOk pkt && below now (2 ^ 64) && faultsOk faults
  | .atomicResponse pkt now faults => packetOk pkt && below now (2 ^ 64) && faultsOk faults
  | .roceNak pkt now => packetOk pkt && below now (2 ^ 64)
  | .rnrNak pkt now => packetOk pkt && below now (2 ^ 64)
  | .cnp pkt now => packetOk pkt && below now (2 ^ 64)
  | .ackTimeout qpn now => qpnOk qpn && below now (2 ^ 64)
  | .rnrTimer qpn => qpnOk qpn
  | .risePeriod qpn now => qpnOk qpn && below now (2 ^ 64)
  | .pfcFrame port sub classes _ => below port 8 && below sub 4 && below classes 256
  | .pfcRefresh port sub cls => below port 8 && below sub 4 && below cls 8
  | .otherFrame port sub _ cls _ => below port 8 && below sub 4 && below cls 8
  | .subportLinkUp port sub => below port 8 && below sub 4
  | .subportLinkDown port sub => below port 8 && below sub 4
  | .cxlPortOffline port _ => below port 2
  | .cxlMemTimeout port => below port 2
  | .getVersion path req => below path 11 && decide (req.length ≤ 16384)
  | .getCapabilities path req => below path 11 && decide (req.length ≤ 16384)
  | .negotiateAlgorithms path req => below path 11 && decide (req.length ≤ 16384)
  | .getDigests path req => below path 11 && decide (req.length ≤ 16384)
  | .getCertificate path req => below path 11 && decide (req.length ≤ 16384)
  | .challenge path req => below path 11 && decide (req.length ≤ 16384)
  | .getMeasurements path req => below path 11 && decide (req.length ≤ 16384)
  | .keyExchange path req => below path 11 && decide (req.length ≤ 16384)
  | .finish path req => below path 11 && decide (req.length ≤ 16384)
  | .spdmHeartbeat path req => below path 11 && decide (req.length ≤ 16384)
  | .keyUpdate path req => below path 11 && decide (req.length ≤ 16384)
  | .endSession path req => below path 11 && decide (req.length ≤ 16384)
  | .chunkSend path req _ => below path 11 && decide (req.length ≤ 16384)
  | .chunkGet path req => below path 11 && decide (req.length ≤ 16384)
  | .kemKeyGet path req => below path 11 && decide (req.length ≤ 16384)
  | .kemCipher path req => below path 11 && decide (req.length ≤ 16384)
  | .vdCommand path req _ => below path 11 && decide (req.length ≤ 16384)
  | .mldsaCertGet path req => below path 11 && decide (req.length ≤ 16384)
  | .ideKm path req => below path 11 && decide (req.length ≤ 16384)
  | .perfSample queue _ => below queue 64
  | .targetedSelfTestStart _ => true
  | .targetedSelfTestEnd _ _ => true
  | .retirementListWrite => true
  | .injectionExpiry => true
  | .mgtCoreStop _ _ => true
  | .pairHeartbeat pkt now => packetOk pkt && below now (2 ^ 64)
  | .missLimitReached => true
  | .pairFenceConf _ => true
  | .graceExpiry => true
  | .formWaitExpiry => true
  | .pllRelock pll => below pll 19
  | .temperatureWarnClear => true
  | .standbyPowerLoss => true
  | .standbyPowerUp => true
  | .perstDeassert => true
  | .hostLinkUp speed width _ => below speed 16 && below width 64
  | .configurationRequest fn req => fnOk fn && configOk req
  | .ref10mReturn => true
  | .originReached now => below now (2 ^ 64)
  | .errLast0Read fn size => fnOk fn && sizeOk size
  | .refusedRegisterRead fn off size => fnOk fn && offOk off && sizeOk size
  | .linkTrainingComplete link failed => below link 12 && below failed 512
  | .annulusStrobe a b _ => below a 32 && below b 32
  | .tierMoverFillEnd => true
  | .maskExpansionChunkEnd slot expander _ faults => below slot 64 && below expander 9 && faultsOk faults
  | .noiseDrawComplete slot => below slot 64
  | .expanderErrorEvent port _ _ => below port 2
  | .jtagAccess ir _ => irOk ir
  | .pfcXon port sub cls => below port 8 && below sub 4 && below cls 8

end Sys2Proof
end

