-- ==== Sys2Proof/Tests/Slice0.lean ====
section
/-! SUPPORT. The model's own tests: well-formedness, a witness for the premises of every statement and clause, and single steps whose
expected values come from the manual. -/
namespace Sys2Proof.Tests
open Sys2Proof Sys2Proof.Machine
set_option Elab.async false

/-! ### Helpers -/

/-- A booted package with its blocks open, as reset leaves the rest. -/
def awake : State := { State.reset with rst := { State.reset.rst with powered := true, bootDone := true } }

/-- A command packet of some units with fields (offset, bytes, value). -/
def packet (op units : Nat) (fields : List (Nat × Nat × Nat)) : List Byte :=
  fields.foldl (fun bs f => overlay bs f.1 (leBytes f.2.1 f.2.2)) (padTo (64 * units) (leBytes 2 op ++ leBytes 1 0 ++ leBytes 1 units))

/-- A command of a ring that is due. -/
def cmd (op : Nat) (fields : List (Nat × Nat × Nat)) (units : Nat := 1) (ring : Nat := 0) : Cmd :=
  { serial := 1, ring := ring, bytes := packet op units fields, due := some 0 }

/-- A state in which a command is the next of its ring. -/
def ready (c : Cmd) (s : State) : State := setRing s c.ring { state := .active, inflight := [c] }

/-- The state that a command answers. -/
def after (i : Instr) (s : State) : State :=
  match exec i s with
  | .next t => t
  | .fault _ => s
  | .refused _ => s

/-- A command answers the given state. -/
def same (i : Instr) (s t : State) : Bool :=
  match exec i s with
  | .next u => decide (u = t)
  | .fault _ => false
  | .refused _ => false

/-- Everything available, as after a boot without failures. -/
def whole : State := { awake with top := { awake.top with sensed := true, sculls := 0xFFFF, misc := 2 ^ 64 - 1 } }

/-- The phase of the first command in flight of a ring. -/
def firstPhase (s : State) (ring : Nat) : Option Phase := ((ringOf s ring).inflight.head?).map (·.phase)

/-- A state at a stroke. -/
def strokes (n : Nat) (s : State) : State := { s with cad := { s.cad with stroke := n } }

/-! ### Well-formedness: an ill-formed term for each check -/

theorem test_wf_ring : (Instr.nop 511).wf = true ∧ (Instr.nop 512).wf = false := by decide +kernel
theorem test_wf_fn : (Instr.functionLevelReset (.vf 7)).wf = true ∧ (Instr.functionLevelReset (.vf 8)).wf = false
    ∧ (Instr.engineReset (some (.vf 8)) 1 0).wf = false := by decide +kernel
theorem test_wf_offset : (Instr.registerWrite .pf (2 ^ 26 + 2 ^ 24) 4 0).wf = false ∧ (Instr.bar4Read .pf (2 ^ 32) 8 []).wf = false
    ∧ (Instr.registerWrite .pf 0 4 (2 ^ 32)).wf = false ∧ (Instr.registerWrite .pf 0 4 1).wf = true := by decide +kernel
theorem test_wf_size : (Instr.rcRead .pf 0 0).wf = false ∧ (Instr.rcRead .pf 0 65).wf = false := by decide +kernel
theorem test_wf_doorbell : (Instr.sqTail (.page (.vf 8)) 0 0).wf = false ∧ (Instr.cqHead .peer 512 0).wf = false
    ∧ (Instr.sqTail .firmware 0 0).wf = true ∧ (Instr.sqTail .peer 0 (2 ^ 64)).wf = false := by decide +kernel
theorem test_wf_sector : (Instr.adminCfgEnable .pf 8 0).wf = false ∧ (Instr.groupPlacement 8).wf = false := by decide +kernel
theorem test_wf_port : (Instr.portCfg .pf 8 0).wf = false ∧ (Instr.cxlMemTimeout 2).wf = false ∧ (Instr.cxlMemTimeout 1).wf = true
    ∧ (Instr.subportLinkUp 0 4).wf = false ∧ (Instr.pfcRefresh 0 0 8).wf = false ∧ (Instr.pfcFrame 0 0 256 0).wf = false := by decide +kernel
theorem test_wf_link : (Instr.idle 12 (List.replicate 256 0)).wf = false ∧ (Instr.idle 0 []).wf = false
    ∧ (Instr.idle 11 (List.replicate 256 0)).wf = true ∧ (Instr.laneLockLoss 0 9).wf = false
    ∧ (Instr.linkTrainingComplete 0 512).wf = false := by decide +kernel
theorem test_wf_slot : (Instr.foldRetry 64).wf = false ∧ (Instr.pop .pf 64 4).wf = false ∧ (Instr.rawBlockComplete 32).wf = false
    ∧ (Instr.annulusStrobe 0 32 0).wf = false ∧ (Instr.pllLossOfLock 19).wf = false ∧ (Instr.killComplete 512).wf = false
    ∧ (Instr.descriptorComplete 256 0 []).wf = false ∧ (Instr.stepBoundary 8 0).wf = false := by decide +kernel
theorem test_wf_board : (Instr.thermalTrip 3 0).wf = false ∧ (Instr.vrFault 12).wf = false ∧ (Instr.powerDrainEnd 3 0).wf = false
    ∧ (Instr.powerUpComplete 1 32).wf = false ∧ (Instr.hostLinkUp 16 4 false).wf = false ∧ (Instr.hostLinkUp 5 64 false).wf = false := by
  decide +kernel
theorem test_wf_path : (Instr.getVersion 11 []).wf = false ∧ (Instr.getVersion 10 []).wf = true
    ∧ (Instr.getVersion 0 (List.replicate 16385 0)).wf = false := by decide +kernel
theorem test_wf_rdma : (Instr.ackTimeout 0xFFFF 0).wf = false ∧ (Instr.ackTimeout 0x10000 0).wf = true
    ∧ (Instr.acknowledgement { dest := 2 ^ 24, op := .ack } 0).wf = false ∧ (Instr.acknowledgement { dest := 0, psn := 2 ^ 24, op := .ack } 0).wf = false
    ∧ (Instr.send { dest := 0, op := .send true true none, payload := List.replicate 4097 0 } 0 []).wf = false
    ∧ (Instr.risePeriod 0x10000 (2 ^ 64)).wf = false := by decide +kernel
theorem test_wf_faults : (Instr.memoryAccessReturn 0).wf = true ∧ (Instr.ld 0 [{ line := 32, kind := .corrected }]).wf = false
    ∧ (Instr.ld 0 [{ line := 64, kind := .corrected, symbols := 0 }]).wf = false
    ∧ (Instr.ld 0 [{ line := 2 ^ 46, kind := .tagFail }]).wf = false := by decide +kernel
theorem test_wf_ident : (Instr.ident 0 { pkg := 64, link := 0 }).wf = false ∧ (Instr.ident 0 { pkg := 0, link := 12 }).wf = false
    ∧ (Instr.ident 0 { pkg := 0, link := 0, epoch := 2 ^ 32 }).wf = false ∧ (Instr.ident 0 { pkg := 0, link := 0, serial := 2 ^ 64 }).wf = false
    ∧ (Instr.dedupExpiry 64 0 false).wf = false ∧ (Instr.dedupExpiry 0 (2 ^ 32) false).wf = false := by decide +kernel
theorem test_wf_env : (Instr.coldReset { straps := { pkgSlot := 64 } }).wf = false ∧ (Instr.coldReset { straps := { bootSel := 4 } }).wf = false
    ∧ (Instr.bootDone { hbm := 256 }).wf = false ∧ (Instr.coldReset {}).wf = true
    ∧ (Instr.warmReset (.register (.vf 8) 0)).wf = false ∧ (Instr.warmReset (.register .pf (2 ^ 64))).wf = false := by decide +kernel
theorem test_wf_configuration : (Instr.configurationRequest .pf (.read 2)).wf = false ∧ (Instr.configurationRequest .pf (.read 4096)).wf = false
    ∧ (Instr.configurationRequest .pf (.vfEnable true 65536)).wf = false ∧ (Instr.configurationRequest .pf (.bar 6 0)).wf = false
    ∧ (Instr.configurationRequest .pf (.completionTimeout 16)).wf = false ∧ (Instr.configurationRequest .pf (.read 0)).wf = true := by
  decide +kernel
theorem test_wf_others : (Instr.jtagAccess (.other 256) 0).wf = false ∧ (Instr.msixUnmask .pf (some 2048)).wf = false
    ∧ (Instr.pcieCompletionTimeout (some 512)).wf = false ∧ (Instr.announce 0 256 {}).wf = false
    ∧ (Instr.announce 0 0 { priority1 := 256 }).wf = false ∧ (Instr.sync 0 0 65536 0 false).wf = false
    ∧ (Instr.taint 0 (2 ^ 52) []).wf = false ∧ (Instr.maskExpansionChunkEnd 0 9 false []).wf = false := by decide +kernel

/-- No word spells a command: the table gives no row any bits. -/
theorem test_decode_none : decodeTableWord 64 0 = none ∧ State.reset.withFetchWord 64 0 = State.reset := by decide +kernel

/-! ### Witnesses: the queue, registers, rings -/

/-- Premises of StepTakesFront and of the invariants. -/
theorem test_meets_queue : State.reset.pending = [] ∧ ({ State.reset with pending := [Instr.pwrGoodFall] } : State).pending = [.pwrGoodFall]
    ∧ memoryCanonical (poke awake 64 [1, 0, 2]) = true ∧ topWired (bump awake .cmdDoorbellDropped) = true := by decide +kernel

theorem test_meets_awake : Awake awake := by decide +kernel
theorem test_meets_misaligned : awake.rst.powered = true ∧ awake.rst.tripped = false ∧ ¬((3 = 4 ∨ 3 = 8) ∧ 6 % 3 = 0)
    ∧ ¬((4 = 4 ∨ 4 = 8) ∧ 2 % 4 = 0) := by decide +kernel

/-- An admin ring that is to be enabled, one that is enabled and idle. -/
def vfs : State := { awake with pci := { awake.pci with vfEnable := true, numVfs := 8 } }
def adminOn : State := rput (setRing vfs 64 { state := .active, sqTail := 3, sqHead := 3 }) .cmdAdminCfg 1 0 (2 ^ 32)

theorem test_meets_adminEnable : Awake vfs ∧ (rget vfs .cmdAdminCfg 7).testBit 32 = false ∧ vfs.pci.vfEnable = true ∧ vfs.pci.numVfs = 8
    ∧ (ringOf vfs 448).state = .disabled ∧ (2 ^ 32).testBit 32 = true ∧ (2 ^ 32).testBit 33 = false := by decide +kernel
theorem test_meets_adminReset : Awake adminOn ∧ (rget adminOn .cmdAdminCfg 1).testBit 32 = true ∧ (ringOf adminOn 64).state = .active
    ∧ (ringOf adminOn 64).inflight = [] ∧ (2 ^ 32 + 2 ^ 33).testBit 32 = true ∧ (2 ^ 32 + 2 ^ 33).testBit 33 = true := by decide +kernel
theorem test_meets_portCfg : Awake awake ∧ (rget awake .ethPortCfg 7).testBit 0 = false ∧ bitsOf 6 1 2 = 3 := by decide +kernel
theorem test_meets_bar4 : Awake awake ∧ awake.sealing.sealed = false ∧ awake.sealing.armed = false
    ∧ bitsOf (rget awake .memDbgBase) 32 14 * 2 ^ 32 + 8 + 8 ≤ 2 ^ 39 ∧ (bitsOf (rget awake .memDbgBase) 32 14 * 2 ^ 32 + 8) % 8 = 0
    ∧ inPool awake 8 8 = false ∧ (∀ e ∈ awake.rdma.tables, e.2 ≠ 0) ∧ poisonedAt awake 8 = false ∧ awake.err.slots = []
    ∧ poisonedAt { awake with mem := { awake.mem with poison := [0] } } 8 = true ∧ Awake { awake with mem := { awake.mem with poison := [0] } }
    ∧ (let s := rput awake .memDbgBase 0 0 (0x3000 * 2 ^ 32)
       Awake s ∧ regionOf s (bitsOf (rget s .memDbgBase) 32 14 * 2 ^ 32 + 8) = .hole) := by decide +kernel
/-- A package that waits for a recovery image. -/
def recovering : State := { awake with rst := { awake.rst with bootDone := false, recoveryReady := true } }
theorem test_meets_recovery : recovering.rst.powered = true ∧ recovering.rst.tripped = false ∧ recovering.rst.recoveryReady = true
    ∧ (2 : Nat).testBit 1 = true := by decide +kernel

theorem test_meets_nop : Begins (ready (cmd 0x0001 []) awake) 0 0x0001 (cmd 0x0001 []) := by decide +kernel
theorem test_meets_identify : Begins (ready (cmd 0x0002 []) awake) 0 0x0002 (cmd 0x0002 []) := by decide +kernel
/-- RING_CREATE of ring 63 with the greatest sizes. -/
def createRing : Cmd := cmd 0x0010 [(24, 8, 0x10000), (32, 8, 0x20000), (40, 1, 63), (41, 1, 3), (42, 1, 16), (43, 1, 16), (46, 2, 255)]
theorem test_meets_ringCreate : Begins (ready createRing awake) 0 0x0010 createRing ∧ awake.sealing.sealed = false
    ∧ createRing.reserved [(45, 46), (48, 64)] = true ∧ createRing.param 24 8 = 0x10000 ∧ createRing.param 32 8 = 0x20000
    ∧ createRing.param 40 1 = 63 ∧ createRing.param 41 1 = 3 ∧ createRing.param 42 1 = 16 ∧ createRing.param 43 1 = 16
    ∧ createRing.param 44 1 = 0 ∧ createRing.param 46 2 = 255 ∧ (ringOf (ready createRing awake) 63).state = .disabled := by decide +kernel
def endRing (op k : Nat) : Cmd := cmd op [(32, 1, k)]
def ringHalted (op k : Nat) : State := setRing (ready (endRing op k) awake) k { state := .halted, sqHead := 5 }
theorem test_meets_ringEnd : Begins (ringHalted 0x0011 1) 0 0x0011 (endRing 0x0011 1) ∧ Begins (ringHalted 0x0012 63) 0 0x0012 (endRing 0x0012 63)
    ∧ (endRing 0x0011 1).param 32 1 = 1 ∧ (endRing 0x0012 63).param 32 1 = 63 ∧ (endRing 0x0011 1).reserved [(24, 32), (33, 64)] = true
    ∧ (ringOf (ringHalted 0x0011 1) 1).state = .halted ∧ (ringOf (ringHalted 0x0011 1) 1).inflight = []
    ∧ (endRing 0x0012 63).reserved [(24, 32), (33, 64)] = true ∧ (ringOf (ringHalted 0x0012 63) 63).state = .halted
    ∧ (ringOf (ringHalted 0x0012 63) 63).inflight = [] := by decide +kernel

/-- Ring 1 of sector 0 active: the smallest size, 64. -/
def ringOn : State := setRing awake 1 { state := .active, sqTail := 2, sqHead := 2 }
theorem test_meets_doorbell : Awake ringOn ∧ (ringOf ringOn 1).state = .active ∧ (sectorOf ringOn (1 / 64)).state ≠ .undefined
    ∧ 63 < (ringOf ringOn 1).sqSize ∧ 63 < (ringOf ringOn 1).cqSize ∧ doorbellReaches 1 (.mirror (.vf 0)) = true
    ∧ (ringOf ringOn 1).sqSize ≤ 64 ∧ (ringOf ringOn 1).cqSize ≤ 64 ∧ doorbellReaches 1 .firmware = true := by decide +kernel

/-- A ring with one unit posted, and the command that it holds. -/
def posted : State := setRing awake 1 { state := .active, cls := 1, sqTail := 1, cover := [(1, .pf)] }
theorem test_meets_fetch : (pickRing posted).map Prod.fst = some 1 ∧ posted.sealing.sealed = false
    ∧ (∀ p, pickRing posted = some p → (ringOf { posted with rings := p.2 } p.1).hub = false
        ∧ fieldLE (packet 0x0001 1 []) 3 1 = 1 ∧ 1 ≤ (ringOf { posted with rings := p.2 } p.1).posted) := by
  refine ⟨by decide +kernel, by decide +kernel, ?_⟩
  intro p hp
  have : pickRing posted = some ((pickRing posted).get (by decide +kernel)) := by simp
  rw [this] at hp
  obtain rfl := Option.some.inj hp
  decide +kernel
/-- A command done with OK at the head of ring 1. -/
def doneAtHead : State :=
  let s := setRing awake 1 { state := .active, cls := 1, inflight := [{ cmd 0x0001 [] 1 1 with phase := .done 0 7 9 }] }
  { s with pci := { s.pci with linkUp := true } }
theorem test_meets_post : (ringOf doneAtHead 1).inflight = [{ cmd 0x0001 [] 1 1 with phase := .done 0 7 9 }]
    ∧ (ringOf doneAtHead 1).haltCause ≠ 5 ∧ (ringOf doneAtHead 1).cqFree = true ∧ (ringOf doneAtHead 1).hub = false
    ∧ (ringOf doneAtHead 1).cls ≠ 0 ∧ (ringOf doneAtHead 1).resetting = none ∧ doneAtHead.pci.linkUp = true
    ∧ doneAtHead.sealing.sealed = false ∧ (cmd 0x0001 [] 1 1).notify = false := by decide +kernel
theorem test_meets_timeout : (ringOf ringOn 1).state = .active ∧ (ringOf ringOn 1).hub = false := by decide +kernel

/-- A command held for its stroke, and a LOCKSTEP one that has waited 1,000 strokes. -/
def held : Cmd := { cmd 0x0001 [(16, 8, 5)] with due := none }
def locked : Cmd := cmd 0x0001 [(2, 1, 4)]
theorem test_meets_deferred : firstWaiting (ringOf (ready held (strokes 5 awake)) 0).inflight false = some (held, false) ∧ held.due = none
    ∧ held.notBefore ≤ (ready held (strokes 5 awake)).cad.stroke
    ∧ firstWaiting (ringOf (ready locked (strokes 1000 awake)) 0).inflight false = some (locked, false) ∧ locked.due = some 0
    ∧ locked.lockstep = true ∧ awake.cad.state = .adrift ∧ 0 + 1000 ≤ (ready locked (strokes 1000 awake)).cad.stroke := by decide +kernel

/-! ### Steps: the queue, registers, rings -/

/-- NOP completes with OK and zero results (R203). -/
theorem test_step_nop : firstPhase (after (.nop 0) (ready (cmd 0x0001 []) awake)) 0 = some (.done 0 0 0) := by decide +kernel
/-- IDENTIFY gives PART_ID "PTG3" and STEPPING 0x4200 (R204, R48). -/
theorem test_step_identify : firstPhase (after (.identify 0) (ready (cmd 0x0002 []) awake)) 0
    = some (.done 0 (0x50544733 + 0x4200 * 2 ^ 32) 0) := by decide +kernel
/-- RING_CREATE of ring 0 is BAD_PARAM (R181). -/
theorem test_step_ringCreate : firstPhase (after (.ringCreate 0)
    (ready (cmd 0x0010 [(24, 8, 0x10000), (32, 8, 0x20000), (41, 1, 3), (42, 1, 16), (43, 1, 16)]) awake)) 0 = some (.done 0x0103 0 0) := by
  decide +kernel
/-- A misaligned read reads all ones (R15). -/
theorem test_step_misaligned : (after (.misalignedRegisterAccess .pf 2 4 false) awake).pci.reply = 0xFFFFFFFF := by decide +kernel
/-- An SQ_TAIL of 64 on a ring of 64 entries halts it with BAD_DOORBELL, code 2 (R170). -/
theorem test_step_doorbell : (ringOf (after (.sqTail .firmware 1 64) ringOn) 1).haltCause = 2 ∧ (ringOf (after (.sqTail .firmware 1 63) ringOn) 1).sqTail = 63 := by
  decide +kernel

/-! ### Witnesses: cadence and wake queues -/

/-- A CADENCE_CONFIG with SET_TIMEBASE at the least and greatest values of its fields. -/
def cadCmd : Cmd := cmd 0x0203 [(24, 8, 5), (32, 4, 100), (36, 1, 1), (37, 1, 7), (38, 1, 127), (39, 1, 1), (40, 4, 1000), (44, 4, 1000),
  (48, 4, 10000), (52, 4, 1000000), (56, 4, 10000)]
theorem test_meets_cadenceConfig : Begins (ready cadCmd awake) 0 0x0203 cadCmd ∧ awake.cad.configured = false ∧ awake.cad.sourced = false
    ∧ awake.cad.state = .adrift
    ∧ 100 ≤ cadCmd.param 32 4 ∧ cadCmd.param 32 4 ≤ 1000000 ∧ cadCmd.param 36 1 ≤ 1 ∧ cadCmd.param 37 1 ≤ 7 ∧ cadCmd.param 38 1 ≤ 127
    ∧ cadCmd.param 39 1 = 1 ∧ 1000 ≤ cadCmd.param 40 4 ∧ cadCmd.param 40 4 ≤ 1000000 ∧ 100 ≤ cadCmd.param 44 4
    ∧ cadCmd.param 44 4 ≤ cadCmd.param 40 4 ∧ 1 ≤ cadCmd.param 48 4 ∧ cadCmd.param 48 4 ≤ 10000 ∧ cadCmd.param 52 4 ≤ 1000000
    ∧ cadCmd.param 56 4 ≤ 10000 ∧ cadCmd.reserved [(60, 64)] = true := by decide +kernel

/-- A configured cadence. -/
def configured (s : State) : State := { s with cad := { s.cad with configured := true, sourced := true, periodUs := 1000 } }
/-- MARK_SET of a NOP for stroke 9, in slot 254 or in any slot. -/
def markCmd (slot : Nat) : Cmd := cmd 0x0201 [(24, 8, 9), (44, 1, 63), (45, 1, slot), (64, 2, 1), (67, 1, 1)] 2
def markState (slot : Nat) : State := rput (ready (markCmd slot) (configured awake)) .cadMarkQuota 0 0 1
theorem test_meets_markSet : Begins (markState 254) 0 0x0201 (markCmd 254) ∧ Begins (markState 255) 0 0x0201 (markCmd 255)
    ∧ (markState 254).cad.configured = true ∧ (markCmd 254).reserved [(46, 64)] = true ∧ (markCmd 254).param 44 1 ≤ 63
    ∧ fieldLE ((markCmd 254).bytes.drop 64) 0 2 ∉ [0x0201, 0x0202, 0x0203] ∧ fieldLE ((markCmd 254).bytes.drop 64) 3 1 = 1
    ∧ 1 + 1 ≤ (markCmd 254).units ∧ fieldLE ((markCmd 254).bytes.drop 64) 8 1 = (markCmd 254).sector
    ∧ fieldLE ((markCmd 254).bytes.drop 64) 16 8 = 0
    ∧ Table.countIf (markState 254).cad.marks (fun k m => 16 ≤ k && m.sector = 0) < rfield (markState 254) .cadMarkQuota 0 0 8
    ∧ (markCmd 254).param 45 1 = 254 ∧ Table.find (markState 254).cad.marks 254 = none
    ∧ (markCmd 255).param 45 1 = 255 ∧ Table.firstFree (markState 255).cad.marks 16 240 = some 16
    ∧ (markState 254).cad.stroke < (markCmd 254).param 24 8 := by decide +kernel
/-- A mark in slot 255 and its cancellation. -/
def oneMark : Mark := { ring := 63, target := 9, work := .stored (packet 1 1 [(4, 4, 77)]) .pf }
def cancelCmd : Cmd := cmd 0x0202 [(24, 8, 255), (32, 4, 77)]
def marked : State := ready cancelCmd { configured awake with cad := { (configured awake).cad with marks := [(255, oneMark)] } }
theorem test_meets_markCancel : Begins marked 0 0x0202 cancelCmd ∧ marked.cad.configured = true ∧ cancelCmd.reserved [(36, 64)] = true
    ∧ cancelCmd.param 24 8 = 255 ∧ Table.find marked.cad.marks 255 = some oneMark ∧ oneMark.sector = 0
    ∧ oneMark.tag = cancelCmd.param 32 4 := by decide +kernel

/-- A cadence that follows PTP on port 3 and waits for the Follow_Up of Sync 8 and the answer to Delay_Req 4. -/
def ptp : State := { awake with cad := { awake.cad with
  sourced := true, ptpPort := 3, masters := [(6, { identity := 6 })], sync := some (6, 8, 100), delayReq := some (4, 50) } }
theorem test_meets_ptp : ptp.cad.sourced = true ∧ ptp.cad.pps = false ∧ ptp.cad.ptpPort = 3 ∧ isMaster ptp 6 = true
    ∧ ptp.cad.sync = some (6, 8, 100) ∧ (bestMaster ptp).isSome = true ∧ ptp.cad.delayReq = some (4, 50) := by decide +kernel

/-- A cadence on PPS that is LOCKED, and one in HOLDOVER. -/
def onPps (st : CadState) (ref : Bool) : State := { awake with cad := { awake.cad with
  sourced := true, pps := true, ref10 := true, refPresent := ref, state := st, configured := true, est := 5, toleranceNs := 1000 } }
theorem test_meets_drift : (onPps .locked true).cad.sourced = true ∧ (onPps .locked true).cad.pps = true ∧ (onPps .locked true).cad.ref10 = true
    ∧ (onPps .locked true).cad.refPresent = true ∧ (onPps .locked true).cad.state = .locked
    ∧ (onPps .locked true).cad.est ≤ (onPps .locked true).cad.toleranceNs ∧ (onPps .locked true).cad.timeNs ≤ 10
    ∧ (onPps .adrift true).cad.state = .adrift
    ∧ (onPps .holdover false).cad.state = .holdover ∧ (onPps .holdover false).cad.refPresent = false
    ∧ (onPps .holdover false).cad.timeNs ≤ 10 ∧ (onPps .locked true).cad.configured = true ∧ (onPps .locked true).cad.origin ≤ 10 := by
  decide +kernel

def wide (sop eop : Bool) : WideWord := { payload := [], sop := sop, eop := eop, seq := 0 }
def queueCmd (op q : Nat) (fields : List (Nat × Nat × Nat)) : Cmd := cmd op ((24, 1, q) :: fields)
def wakeKeep : State := setWake (ready (queueCmd 0x0D01 63 [(25, 1, 2), (26, 1, 1)]) awake) 63 { kind := 2 }
theorem test_meets_wakeConfig :
    wakePermitted (queueCmd 0x0D01 63 [(25, 1, 2), (26, 1, 3)]) 63 awake = true
    ∧ Begins (ready (queueCmd 0x0D01 63 [(25, 1, 2), (26, 1, 3)]) awake) 0 0x0D01 (queueCmd 0x0D01 63 [(25, 1, 2), (26, 1, 3)])
    ∧ (queueCmd 0x0D01 63 [(25, 1, 2), (26, 1, 3)]).param 24 1 = 63 ∧ (queueCmd 0x0D01 63 [(25, 1, 2), (26, 1, 3)]).param 25 1 = 2
    ∧ (queueCmd 0x0D01 63 [(25, 1, 2), (26, 1, 3)]).viaPf = true ∧ ((queueCmd 0x0D01 63 [(25, 1, 2), (26, 1, 3)]).param 26 1).testBit 1 = true
    ∧ (queueCmd 0x0D01 63 [(25, 1, 2), (26, 1, 3)]).param 26 1 < 4 ∧ (queueCmd 0x0D01 63 [(25, 1, 2), (26, 1, 3)]).reserved [(32, 64)] = true
    ∧ wakePermitted (queueCmd 0x0D01 63 [(25, 1, 2), (26, 1, 1)]) 63 wakeKeep = true
    ∧ Begins wakeKeep 0 0x0D01 (queueCmd 0x0D01 63 [(25, 1, 2), (26, 1, 1)])
    ∧ (wakeOf wakeKeep 63).kind = (queueCmd 0x0D01 63 [(25, 1, 2), (26, 1, 1)]).param 25 1
    ∧ (queueCmd 0x0D01 63 [(25, 1, 2), (26, 1, 1)]).param 26 1 < 2 := by decide +kernel
/-- A PERF queue, with the greatest period. -/
def perfCmd : Cmd := queueCmd 0x0D01 0 [(25, 1, 1), (28, 4, 65536)]
theorem test_meets_wakePerf : wakePermitted perfCmd 0 awake = true ∧ Begins (ready perfCmd awake) 0 0x0D01 perfCmd ∧ perfCmd.param 25 1 = 1
    ∧ 1 ≤ perfCmd.param 28 4 ∧ perfCmd.param 28 4 ≤ 65536 ∧ (wakeOf (ready perfCmd awake) 0).kind ≠ perfCmd.param 25 1 := by decide +kernel
/-- A queue with three words, the last of a packet second. -/
def words3 (last : Option Bool) (s : State) : State :=
  setWake s 5 { older := { words := [wide false false] }, filling := { words := [wide false true, wide true true] }, lastEop := last }
def drainCmd : Cmd := queueCmd 0x0D10 5 [(28, 4, 2), (32, 8, 64)]
def dropCmd : Cmd := queueCmd 0x0D11 5 []
def drainState : State := let s := words3 none (ready drainCmd awake); { s with pci := { s.pci with linkUp := true } }
theorem test_meets_wakeDrain : wakePermitted drainCmd 5 drainState = true ∧ Begins drainState 0 0x0D10 drainCmd ∧ drainCmd.param 24 1 = 5
    ∧ drainCmd.param 25 1 = 0 ∧ drainCmd.reserved [(26, 28), (40, 64)] = true ∧ 1 ≤ drainCmd.param 28 4 ∧ drainCmd.param 28 4 ≤ 1024
    ∧ drainCmd.param 32 8 % 32 = 0 ∧ drainState.sealing.sealed = false ∧ drainState.pci.linkUp = true := by decide +kernel
/-- Two words are offered; the write of the second fails: one is taken, and the status is HW_FAULT (R921). -/
theorem test_drain_refused : ((cmdOf (after (.wakeDrain 0 [] (some 1)) drainState) 1).map (·.phase)) = some (.done 0x0504 1 0)
    ∧ (wakeOf (after (.wakeDrain 0 [] (some 1)) drainState) 5).older.words.length
        + (wakeOf (after (.wakeDrain 0 [] (some 1)) drainState) 5).filling.words.length = 2 := by decide +kernel
theorem test_meets_dropPacket : wakePermitted dropCmd 5 (words3 (some false) (ready dropCmd awake)) = true
    ∧ Begins (words3 (some false) (ready dropCmd awake)) 0 0x0D11 dropCmd ∧ dropCmd.param 24 1 = 5 ∧ dropCmd.reserved [(25, 64)] = true
    ∧ (wakeOf (words3 (some false) (ready dropCmd awake)) 5).lastEop = some false
    ∧ (wakeOf (words3 (some false) (ready dropCmd awake)) 5).older.words ++ (wakeOf (words3 (some false) (ready dropCmd awake)) 5).filling.words
        = [wide false false] ++ wide false true :: [wide true true] := by decide +kernel
theorem test_meets_pop : (words3 none awake).rst.bootDone = true ∧ (words3 none awake).sealing.sealed = false
    ∧ (wakeOf (words3 none awake) 5).older.words ++ (wakeOf (words3 none awake) 5).filling.words
        = wide false false :: [wide false true, wide true true]
    ∧ (wakeOf awake 6).older.words = [] ∧ (wakeOf awake 6).filling.words = [] ∧ (wakeOf awake 6).partialWords = []
    ∧ (wakeOf awake 6).emptyMode = false := by decide +kernel
/-- Queue 63 samples source 7. -/
def sampling : State := setWake (strokes 20 awake) 63 { kind := 1, perfSelect := 128, period := 10 }
theorem test_meets_perf : (wakeOf sampling 63).kind = 1 ∧ (wakeOf sampling 63).perfSelect = 2 ^ 7 ∧ sampling.sealing.sealed = false
    ∧ sampling.sealing.armed = false ∧ (wakeOf sampling 63).period ≠ 0 ∧ sampling.cad.stroke % (wakeOf sampling 63).period = 0 := by
  decide +kernel

/-! ### Steps: cadence and wake queues -/

/-- The stroke count after SET_TIMEBASE is (local time − origin) / period (R56): 1,000,005 ns from origin 5 with 100 µs is 10. -/
theorem test_step_cadence : (after (.cadenceConfig 0) (ready cadCmd { awake with cad := { awake.cad with timeNs := 1000005 } })).cad.stroke = 10 := by
  decide +kernel
/-- A Follow_Up 30 ns off leaves an estimate of 30 ns and ASYM_NS, here 20 (R66). -/
theorem test_step_followUp : (after (.followUp 3 6 8 100 (-30)) { ptp with cad := { ptp.cad with asymNs := 20 } }).cad.est = 50 := by decide +kernel
/-- A POP of 4 bytes returns the low bytes of the oldest word and leaves two (R913). -/
theorem test_step_pop : (wakeOf (after (.pop .pf 5 4) (words3 none awake)) 5).older.words = []
    ∧ (wakeOf (after (.pop .pf 5 4) (words3 none awake)) 5).lastEop = some false := by decide +kernel

/-! ### Witnesses: boot and resets -/

/-- FW_ACTIVATE of an image of 4,096 bytes, the least size. -/
def fwCmd : Cmd := cmd 0x0003 [(24, 8, 0x1000), (32, 4, 4096)]
theorem test_meets_fwActivate : Begins (ready fwCmd awake) 0 0x0003 fwCmd ∧ fwCmd.param 24 8 % 4096 = 0 ∧ fwCmd.param 32 4 % 4096 = 0
    ∧ 4096 ≤ fwCmd.param 32 4 ∧ fwCmd.param 32 4 ≤ 16 * 2 ^ 20 ∧ fwCmd.reserved [(36, 64)] = true ∧ awake.sealing.sealed = false := by
  decide +kernel
theorem test_meets_coldReset : (State.reset.rst.tripped && State.reset.rst.powered) = false ∧ State.reset.rst.flash.readable = true
    ∧ State.reset.rst.flash.pending = false ∧ State.reset.rst.fuses.bad = 0 ∧ State.reset.sealing.retain = false := by decide +kernel
/-- A warm boot that has chosen an image, with the internal instances 0 to 5. -/
def warmBoot : State := { awake with
  rst := { awake.rst with bootDone := false, chosen := true, restored := true }
  rng := { awake.rng with instances := (List.range 6).map (fun i => (i, ({} : Instance))) } }
theorem test_meets_bootDone : warmBoot.rst.powered = true ∧ warmBoot.rst.tripped = false ∧ warmBoot.rst.chosen = true
    ∧ warmBoot.rst.halted = false ∧ warmBoot.rst.bootDone = false ∧ warmBoot.rst.restored = true ∧ warmBoot.sealing.scrub = false
    ∧ (∀ i, i < 6 → (Table.find warmBoot.rng.instances i).isSome = true) ∧ warmBoot.sealing.sealed = false := by decide +kernel
theorem test_meets_bootDraw : ∃ draw u, internalBytes 5 80 warmBoot = (some draw, u) := ⟨_, _, rfl⟩
theorem test_meets_warmReset : awake.rst.powered = true ∧ awake.rst.tripped = false ∧ awake.rst.trial = false ∧ awake.pair.state = .none
    ∧ awake.sct.cmd = none ∧ awake.mover = [] ∧ awake.sealing.armed = false ∧ awake.sealing.sealed = false ∧ awake.sealing.retain = false
    ∧ awake.rst.straps.bootSel = 0 ∧ awake.rst.flash.readable = true ∧ awake.rst.flash.pending = false := by decide +kernel
/-- A package that boots a trial image. -/
def trying : State := { warmBoot with rst := { warmBoot.rst with trial := true } }
theorem test_meets_trial : (awake.rst.trial && !awake.rst.bootDone) = false ∧ trying.rst.trial = true ∧ trying.rst.bootDone = false
    ∧ trying.sealing.scrub = false ∧ trying.rst.powered = true ∧ trying.rst.tripped = false ∧ trying.rst.flash.pending = false := by
  decide +kernel
/-- The host link is up; sector 7 is ACTIVE with virtual functions on. -/
def hostUp : State := { setSector 7 { state := .active } awake with
  pci := { awake.pci with linkUp := true, vfEnable := true, numVfs := 8 } }
theorem test_meets_partResets : hostUp.rst.powered = true ∧ hostUp.pci.linkUp = true ∧ (sectorOf hostUp 7).state = .active
    ∧ hostUp.sct.cmd = none ∧ hostUp.pci.vfEnable = true ∧ 7 < hostUp.pci.numVfs ∧ awake.pci.vfEnable = false
    ∧ hostUp.top.sensed = false ∧ ({ hostUp with top := { hostUp.top with sensed := true } } : State).pci.linkUp = true := by decide +kernel
/-- Engine 7 works on the command of serial 1, with another queued on engine 6. -/
def latBusy : State :=
  let c : Cmd := { cmd 0x0810 [] with phase := .running }
  { ready c whole with lat := [(6, { queue := [.exec { serial := 1 }] }), (7, { running := some { serial := 1 } })] }
theorem test_meets_engineReset : engineAvail latBusy 7 = true ∧ powerOf latBusy 2 7 = .on ∧ engineAvail latBusy 6 = true
    ∧ (∃ c ∈ (ringOf latBusy 0).inflight, c.phase = .running ∧ (latOf latBusy 7).running.map LatOp.serial = some c.serial
        ∧ c.serial ∈ (latOf latBusy 6).queue.map LatItem.serial) ∧ (latOf latBusy 7).suspend = none
    ∧ (latOf latBusy 6).running = none ∧ (latOf latBusy 6).yielded = none ∧ (latOf latBusy 6).suspend = none := by decide +kernel
def engineOff : State := { whole with rst := { awake.rst with eightPower := [(31, .off)], enginePower := [(7, .off)], pll := 2 ^ 19 - 1 } }
theorem test_meets_engineOff : powerOf engineOff 1 31 = .off ∧ powerOf engineOff 2 7 = .off ∧ engineOff.rst.pll.testBit 18 = true
    ∧ engineOff.rst.pll.testBit 3 = true ∧ engineOff.rst.pll.testBit 1 = true ∧ engineOff.rst.pll.testBit 0 = true := by decide +kernel

/-! ### Steps: boot and resets -/

/-- A read of register 0 of configuration space while TOP is readable returns 0x5433_1E5B (R750). -/
theorem test_step_config : same (.configurationRequest .pf (.read 0)) { hostUp with top := { hostUp.top with sensed := true } }
    { hostUp with top := { hostUp.top with sensed := true }, pci := { hostUp.pci with reply := 0x54331E5B } } = true := by decide +kernel
/-- An engine reset ends the running operation with HW_FAULT, 0x0504 (R814, R492). -/
theorem test_step_engineReset : firstPhase (after (.engineReset none 2 7) latBusy) 0 = some (.done 0x0504 0 0) := by decide +kernel
/-- PLL 1 holds eights 16 to 31 (R841). -/
theorem test_step_pll : (after (.pllLossOfLock 1) engineOff).rst.heldEights = 0xFFFF0000 := by decide +kernel

/-! ### Witnesses: self-tests, injection, monitors, power -/

def testCmd (kind index addr : Nat) : Cmd := cmd 0x0B01 [(24, 1, kind), (25, 1, 1), (26, 2, index), (28, 8, addr)]
/-- Lake bank 255, the greatest index; scull 15. -/
theorem test_meets_selftestRun : Begins (ready (testCmd 2 255 0) whole) 0 0x0B01 (testCmd 2 255 0)
    ∧ (namedRes (ready (testCmd 2 255 0) whole) 2 255 0).isSome = true ∧ (testCmd 2 255 0).param 25 1 ≤ 1
    ∧ (testCmd 2 255 0).reserved [(36, 64)] = true ∧ resRetired whole 2 255 = false ∧ resOff whole 2 255 = false
    ∧ whole.err.queued.length < 256 ∧ whole.err.running = [] ∧ whole.err.queued = [] := by decide +kernel
def bankTest : SelfTest := { res := { kind := 2, index := 255 }, ref := 9, joined := [1] }
def rowTest : SelfTest := { res := { kind := 1, index := 7, addr := 0x40 }, acts := true, joined := [1] }
def queuedTests : State := { whole with err := { whole.err with queued := [bankTest, rowTest] } }
theorem test_meets_testStart : queuedTests.err.running.length < 8 ∧ queuedTests.err.queued = [] ++ bankTest :: [rowTest]
    ∧ mayStart queuedTests bankTest = true ∧ (∀ u ∈ ([] ++ [rowTest] : List SelfTest), u.res ≠ bankTest.res)
    ∧ bankTest.res.kind ≠ 5 ∧ bankTest.res.kind ≠ 6 ∧ bankTest.res.kind ≠ 11 := by decide +kernel
def runningTests : State :=
  { ready { testCmd 2 255 0 with phase := .running } whole with err := { whole.err with running := [bankTest, rowTest] } }
theorem test_meets_testEnd : runningTests.err.running = [] ++ bankTest :: [rowTest] ∧ runningTests.err.running = [bankTest] ++ rowTest :: []
    ∧ (∀ u ∈ ([] ++ [rowTest] : List SelfTest), u.res ≠ bankTest.res) ∧ (∀ u ∈ ([bankTest] ++ [] : List SelfTest), u.res ≠ rowTest.res)
    ∧ bankTest.res.kind = 2 ∧ bankTest.forced = false ∧ bankTest.ref ≠ 0 ∧ bankTest.counted = 0
    ∧ (noteTransient bankTest.res runningTests).1 < repeatLimit runningTests ∧ rowTest.res.kind = 1 ∧ rowTest.acts = true
    ∧ rowTest.injected = false ∧ Table.getD runningTests.err.rowsUsed 7 0 < 32
    ∧ (∃ c ∈ (ringOf runningTests 0).inflight, c.phase = .running ∧ c.serial ∈ bankTest.joined ∧ c.serial ∈ rowTest.joined) := by
  decide +kernel
/-- An injection at one of memory, one firing of the most. -/
def armCmd (point mode count target pattern : Nat) : Cmd :=
  cmd 0x0B02 [(24, 2, point), (26, 1, mode), (27, 1, count), (28, 4, target), (40, 1, pattern)]
theorem test_meets_injectArm : ∃ c kind, c = armCmd 0x0101 1 255 0 8 ∧ Begins (ready c whole) 0 0x0B02 c ∧ pointKind 0x0101 = some kind
    ∧ targetOk 0x0101 0 = true ∧ addressOk (ready c whole) 0x0101 0 (c.param 32 8) = true ∧ c.param 40 1 ≤ 8 ∧ 1 ≤ c.param 40 1
    ∧ c.reserved [(41, 48), (56, 64)] = true ∧ resRetired whole kind 0 = false ∧ resOff whole kind 0 = false
    ∧ Table.firstFree whole.err.slots 0 16 = some 0 :=
  ⟨_, (pointKind 0x0101).getD 0, rfl, by decide +kernel⟩
def armed15 : Inject := ⟨0x0101, 0, 1, 0, 0, 1, 9⟩
def disarmCmd : Cmd := cmd 0x0B10 [(24, 1, 15)]
def armedState : State := ready disarmCmd { whole with err := { whole.err with slots := [(15, armed15)] } }
theorem test_meets_injectDisarm : Begins armedState 0 0x0B10 disarmCmd ∧ disarmCmd.param 24 1 = 15
    ∧ disarmCmd.reserved [(25, 64)] = true ∧ (Table.find armedState.err.slots 15).isSome = true := by decide +kernel
theorem test_meets_monitors : whole.rst.powered = true ∧ whole.rst.tripped = false ∧ recordsKept whole ∧ (95 ≤ 95) ∧ (94 < 95)
    ∧ (105 ≤ 105) ∧ (104 < 105) ∧ (115 ≤ 115) ∧ (114 < 115) := by decide +kernel
def runCmd : Cmd := { cmd 0x0001 [] with phase := .running }
theorem test_meets_mgtCoreStop : recordsKept (ready runCmd whole) ∧ cmdOf (ready runCmd whole) 1 = some runCmd ∧ runCmd.phase = .running
    ∧ runCmd.serial ∈ [1] ∧ runCmd ∈ (ringOf (ready runCmd whole) 0).inflight := by decide +kernel
/-- POWER_SET of eight 1 and of engine 7 to OFF, with the resources owned by sector 0. -/
def powerCmd (kind state set : Nat) : Cmd := cmd 0x0110 [(24, 1, kind), (25, 1, state), (32, 8, set)]
def powerState (c : Cmd) : State :=
  ready c { whole with sct := { whole.sct with eights := [(1, 0)], engines := [(7, 0)] } }
theorem test_meets_powerSet : ∀ g ∈ [(1, 1), (2, 7)], ∀ st ∈ [0, 2],
    let c := powerCmd g.1 st (2 ^ g.2); let s := powerState c
    Begins s 0 0x0110 c ∧ c.param 24 1 = g.1 ∧ c.param 25 1 ≤ 2 ∧ c.param 26 1 = 0 ∧ c.reserved [(27, 32), (40, 64)] = true
    ∧ bitList 64 (2 ^ g.2) = [g.2] ∧ Table.find (if g.1 = 1 then s.sct.eights else s.sct.engines) g.2 = some (c.ring / 64)
    ∧ powerAvail s g.1 g.2 = true ∧ powerBusy s g.1 g.2 (powerOfCode st) = false ∧ hasMove s g.1 g.2 = false := by decide +kernel
theorem test_meets_powerMoves : (bitList 64 (2 ^ 1)).filter (fun i => powerOf (powerState (powerCmd 1 0 (2 ^ 1))) 1 i ≠ powerOfCode 0) ≠ []
    ∨ (bitList 64 (2 ^ 1)).filter (fun i => powerOf (powerState (powerCmd 1 2 (2 ^ 1))) 1 i ≠ powerOfCode 2) ≠ [] := by decide +kernel

/-! ### Steps: self-tests, injection, monitors, power -/

/-- A passed test completes its joined SELFTEST_RUN with OK and result0 0 (R866). -/
theorem test_step_testPassed : firstPhase (after (.targetedSelfTestEnd bankTest.res false) runningTests) 0 = some (.done 0 0 0) := by decide +kernel
/-- A failed acting test of an HBM row takes a spare row and is FAIL with action 1 (R860, R862, R866). -/
theorem test_step_testFailed : firstPhase (after (.targetedSelfTestEnd rowTest.res true) runningTests) 0 = some (.done 0 257 0)
    ∧ Table.getD (after (.targetedSelfTestEnd rowTest.res true) runningTests).err.rowsUsed 7 0 = 1 := by decide +kernel
/-- 105 degrees is critical and 104 is not (R952). -/
theorem test_step_critical : (after (.temperatureCritical 2 105) whole).pins.smbAlert = true ∧ same (.temperatureCritical 2 104) whole whole = true := by
  decide +kernel
/-- POWER_SET to OFF of an eight that is ON moves it (R834). -/
theorem test_step_powerSet : ((after (.powerSet 0) (powerState (powerCmd 1 2 2))).rst.transitions.map (·.goal)) = [.off]
    ∧ firstPhase (after (.powerSet 0) (powerState (powerCmd 1 2 2))) 0 = some .running := by decide +kernel
/-- A management core that stops ends its commands with HW_FAULT (R845). -/
theorem test_step_mgtCoreStop : firstPhase (after (.mgtCoreStop 5 [1]) (ready runCmd whole)) 0 = some (.done 0x0504 0 0) := by decide +kernel

/-! ### Witnesses: sectors, power moves, ports, the host link -/

/-- A sector command with one move: HBM granule 511 from sector `src` to sector `dst`. -/
def sectorCmd (op drain flags target src dst : Nat) (count : Nat := 1) : Cmd :=
  cmd op [(24, 8, drain), (32, 1, count), (33, 1, flags), (34, 1, target), (64, 1, 3), (65, 1, src), (66, 1, dst), (68, 4, 511), (72, 8, 1)] 2
/-- Sectors 0 and 1 are ACTIVE; granule 511 belongs to sector 1. -/
def twoSectors (c : Cmd) : State :=
  let s := setSector 1 { state := .active } (ready c whole)
  { s with sct := { s.sct with hbm := [(511, 1)], eights := [(1, 1)] } }
def defCmd (flags : Nat) : Cmd := sectorCmd 0x0101 0 flags 2 0xFF 2
def defState (flags : Nat) : State := let s := twoSectors (defCmd flags); { s with sct := { s.sct with hbm := [] } }
theorem test_meets_sectorCheckPasses : (∀ f, f < 2 → sectorCheck .define (defCmd f) (defState f) = none ∧ Begins (defState f) 0 0x0101 (defCmd f)
      ∧ ((defCmd f).param 33 1).testBit 0 = decide (f = 1) ∧ (defState f).mover = [])
    ∧ (∀ f, f < 2 → let c := sectorCmd 0x0102 60000000 f 0 1 0
        sectorCheck .shift c (twoSectors c) = none ∧ Begins (twoSectors c) 0 0x0102 c ∧ c.param 24 8 ≠ 0 ∧ (twoSectors c).mover = [])
    ∧ (∀ f, f < 2 → let c := sectorCmd 0x0103 1 f 1 1 0 0
        sectorCheck .stop c (twoSectors c) = none ∧ Begins (twoSectors c) 0 0x0103 c ∧ c.param 24 8 ≠ 0) := by decide +kernel
/-- Refused: 60 s and 1 µs of drain, and a granule that another sector owns. -/
theorem test_meets_sectorCheckFails : (let c := sectorCmd 0x0102 60000001 0 0 1 0
      Begins (twoSectors c) 0 0x0102 c ∧ sectorCheck .shift c (twoSectors c) = some (stBadParam, noEntry))
    ∧ (let c := sectorCmd 0x0102 1 0 0 0 1
      Begins (twoSectors c) 0 0x0102 c ∧ sectorCheck .shift c (twoSectors c) = some (stBadState, 0)) := by decide +kernel
/-- A SECTOR_SHIFT in its drain. -/
def shiftCmd : Cmd := { sectorCmd 0x0102 1 0 0 1 0 with phase := .running }
def shifting (step : Nat) : State :=
  let s := twoSectors shiftCmd
  { s with sct := { s.sct with cmd := some { serial := 1, op := .shift, touched := [1, 0], step := step, moves := [moveAt shiftCmd 0] } } }
theorem test_meets_drainTimeout : (∃ x, (shifting 2).sct.cmd = some x ∧ x.op ≠ .power ∧ x.step < 3 ∧ x.launches = [] ∧ x.serial = 1)
    ∧ departingEngines (shifting 2) = [] ∧ (∀ x, (shifting 3).sct.cmd = some x → x.op = .power ∨ 3 ≤ x.step) := by
  refine ⟨⟨_, rfl, by decide +kernel⟩, by decide +kernel, ?_⟩
  intro x hx
  cases hx
  decide
theorem test_meets_clearEnd : ∃ x, (shifting 3).sct.cmd = some x ∧ x.op = .shift ∧ x.step < 6 ∧ x.waits = [] ∧ x.touched = [1, 0]
    ∧ x.moves = [{ kind := 3, src := 1, dst := 0, value := 511, set := 1 }] ∧ drained (shifting 3) x = true ∧ (shifting 3).lat = []
    ∧ (shifting 3).rst.sectorResets = [] ∧ ∃ c ∈ (ringOf (shifting 3) 0).inflight, c.phase = .running ∧ c.serial = x.serial :=
  ⟨_, rfl, by decide +kernel⟩
/-- Eight 1 goes OFF and engine 7 comes up, each for a POWER_SET that waits for it. -/
def powerMove (kind i : Nat) (goal : Power) : State :=
  let s := ready runCmd { whole with rst := { whole.rst with
    enginePower := [(7, .off)], transitions := [{ kind := kind, index := i, goal := goal }] } }
  { s with sct := { s.sct with cmd := some { serial := 1, op := .power, waits := [(kind, i)], changed := 1 } } }
theorem test_meets_powerMove : ∀ g ∈ [(1, 1, Power.off), (2, 7, Power.on)],
    let s := powerMove g.1 g.2.1 g.2.2; let m : Transition := { kind := g.1, index := g.2.1, goal := g.2.2 }
    s.rst.transitions = [] ++ m :: [] ∧ m.begun = true ∧ m.later = [] ∧ powerAvail s g.1 g.2.1 = true
    ∧ m.up s = decide (g.1 = 2) ∧ (∃ c ∈ (ringOf s 0).inflight, c.phase = .running ∧ c.serial = 1) ∧ (latOf s g.2.1).queue = [] := by
  decide +kernel

/-- Port 7 enabled with four sub-ports, class 3 lossless; its sub-port 3 is up. -/
def eth7 (up : Nat) : State :=
  setEth 7 { up := up, paused := 2 ^ 27, fill := [(27, 4096)], xoff := [27] } (rput whole .ethPortCfg 7 0 (1 + 2 * 2 + 2 ^ 7 + 64 * 2 ^ 12 + 128 * 2 ^ 24))
theorem test_meets_ports : (rget (eth7 0) .ethPortCfg 7).testBit 0 = true ∧ 3 < subPorts (eth7 0) 7 ∧ (ethOf (eth7 0) 7).up.testBit 3 = false
    ∧ (ethOf (eth7 8) 7).up.testBit 3 = true ∧ recordsKept (eth7 8) ∧ losslessClass (eth7 8) 7 3 = true ∧ losslessClass (eth7 8) 7 4 = false
    ∧ limitBytes (eth7 8) 7 = 65536 ∧ 4096 + 65536 ≤ 2048 * 1024 / subPorts (eth7 8) 7 ∧ (ethOf (eth7 8) 7).xoff.contains (8 * 3 + 3) = true := by
  decide +kernel
/-- Vector 2047 of the physical function is pending and masked. -/
def msixOn : State :=
  setFn whole .pf { msixEnable := true, msix := [(2047, { masked := true }), (5, { masked := true })], pendingBits := [5, 2047] }
theorem test_meets_msix : 2047 < msixSize .pf ∧ (fnOf msixOn .pf).msixEnable = true ∧ (fnOf msixOn .pf).msixMask = false
    ∧ (∀ u ∈ (fnOf msixOn .pf).pendingBits, (Table.getD (fnOf msixOn .pf).msix u {}).masked = true) := by decide +kernel
theorem test_meets_hostLink : whole.rst.powered = true ∧ ({ whole.pci with perst := false } : Pci).perst = false
    ∧ whole.pci.linkUp = false ∧ recordsKept whole := by decide +kernel

/-! ### Steps: sectors, ports -/

/-- A shift of one granule ends with result1 1 granule of HBM, the granule with its new owner (R142, R144). -/
theorem test_step_clearEnd : firstPhase (after .shiftClearEnd (shifting 3)) 0 = some (.done 0 0 1)
    ∧ (after .shiftClearEnd (shifting 3)).sct.hbm = [(511, 0)] := by decide +kernel
/-- A PFC frame pauses class 4 and lets class 3 go on (R787). -/
theorem test_step_pfc : (ethOf (after (.pfcFrame 7 3 0x18 (5 * 2 ^ 64)) (eth7 8)) 7).paused = 2 ^ 28 := by decide +kernel
/-- A lossless frame over 512 KiB of one of four sub-ports finds the buffer full (R789). -/
theorem test_step_lossless : same (.otherFrame 7 3 true 3 (512 * 1024 + 1)) (eth7 8) (bump (eth7 8) .ethLosslessDrops 7) = true := by decide +kernel
/-- An unmasked vector with its message held sends it (R762). -/
theorem test_step_msix : (after (.msixUnmask .pf (some 2047)) msixOn).out = [.msix .pf 2047] := by decide +kernel

/-! ### Witnesses: heats, QUIESCE, marks -/

/-- Heat 9 of two entrants, 16 elements of 32 bits, led by package 0, fragments of 4,096 bytes. -/
def heatOpen : Cmd := cmd 0x0501 [(24, 8, 9), (32, 1, 255), (34, 1, 32), (36, 4, 16), (40, 2, 16), (42, 2, 9), (44, 4, 4096), (48, 4, 2), (56, 4, 2),
  (60, 4, 2), (64, 8, 10), (72, 8, 20), (80, 8, 30), (88, 8, 40), (96, 8, 50), (104, 8, 60), (120, 8, 77), (160, 8, 4096)] 4
/-- Sector 0 owns 64 granules of each kind, has a pool and an operator key. -/
def pooled (c : Cmd) (pool : Bool) : State :=
  let s := ready c whole
  { s with
    pci := { s.pci with linkUp := true }
    sct := { s.sct with hbm := (List.range 64).map (fun g => (g, 0)), lake := (List.range 8).map (fun g => (g, 0)) }
    heat := { s.heat with pools := if pool then [(0, ⟨0, 64, 0, 8⟩)] else [] }
    sealing := { s.sealing with opkeys := [(77, { sectors := 1 })] }
    rng := { s.rng with instances := (List.range 6).map (fun i => (i, ({} : Instance))) } }
def poolCmd (n : Nat) : Cmd := cmd 0x0510 [(28, 4, n), (36, 4, if n = 0 then 0 else 8)]
theorem test_meets_heatPoolSet : ∀ n ∈ [0, 64], Begins (pooled (poolCmd n) false) 0 0x0510 (poolCmd n)
    ∧ (poolCmd n).reserved [(41, 64)] = true ∧ (poolCmd n).param 24 4 = 0 ∧ (poolCmd n).param 28 4 = n ∧ (poolCmd n).param 40 1 = 0
    ∧ heatsOpen (pooled (poolCmd n) false) 0 = false ∧ (poolCmd n).param 36 4 ≤ 8
    ∧ (∀ i, i < 64 → Table.find (pooled (poolCmd n) false).sct.hbm (0 + i) = some 0)
    ∧ (∀ i, i < 8 → Table.find (pooled (poolCmd n) false).sct.lake (0 + i) = some 0) := by decide +kernel
/-- The slot that the packet describes. -/
def openedSlot : HeatSlot := { params := heatOpen.bytes, role := 1 }
theorem test_meets_heatOpen : Begins (pooled heatOpen true) 0 0x0501 heatOpen ∧ heatOpen.param 116 1 = pkgNumber (pooled heatOpen true)
    ∧ pkgNumber (pooled heatOpen true) = openedSlot.self ∧ openFields heatOpen openedSlot = true
    ∧ openedSlot.first + openedSlot.count ≤ openedSlot.totalIndices ∧ openDeadlines openedSlot (pooled heatOpen true).cad.stroke = true
    ∧ heatOpen.param 33 1 = 0 ∧ heatOpen.param 35 1 = 0 ∧ (pooled heatOpen true).rng.raw = false ∧ heatOpen.param 32 1 = 255
    ∧ Table.firstFree (pooled heatOpen true).heat.slots 0 64 = some 0
    ∧ ((Table.find (pooled heatOpen true).sealing.opkeys openedSlot.handle).map (fun k => k.sectors.testBit 0)) = some true
    ∧ (carve openedSlot true (pooled heatOpen true)).isSome = true ∧ (pooled heatOpen true).sealing.sealed = false
    ∧ (pooled heatOpen true).pci.linkUp = true := by decide +kernel
theorem test_meets_heatOpenDraws : ∃ secret w draw w', internalBytes 0 64 (pooled heatOpen true) = (some secret, w)
    ∧ internalBytes 5 80 w = (some draw, w') := ⟨_, _, _, _, rfl, rfl⟩
/-- A region that takes a whole granule. -/
def wholeGranule (g : Nat) : Extent := { granules := [g], share := 2 ^ 30 }
/-- An open heat as it stands in a phase: two entrants of this home, which are neighbours and have shared. -/
def slotIn (phase : Nat) : HeatSlot := { openedSlot with
  params := overlay heatOpen.bytes 42 (leBytes 2 1), phase := phase, records := wholeGranule 1, acc := wholeGranule 2, mask := wholeGranule 3, recon := wholeGranule 4, staging := wholeGranule 5, noise := wholeGranule 6
  bitmap := 0x080000000000, order := some [0, 1], homes := [(0, 0, 2)], seed := [1], shares := [(shareKey 0 1, [7])] }
def heatIn (c : Cmd) (h : HeatSlot) : State := let s := pooled c true; { s with heat := { s.heat with slots := [(3, h)] } }
def heatCmd (op : Nat) (extra : List (Nat × Nat × Nat)) : Cmd := cmd op ((24, 8, 9) :: extra)
theorem test_meets_heatAdvance : ∀ ph ∈ [1, 2, 3, 4, 5, 6], let c := heatCmd 0x0502 [(32, 1, ph)]; let s := heatIn c (slotIn ph)
    Begins s 0 0x0502 c ∧ c.reserved [(33, 40), (52, 64)] = true ∧ heatNamed s 0 (c.param 24 8) = some (3, slotIn ph)
    ∧ Table.find s.heat.slots 3 = some (slotIn ph) ∧ (slotIn ph).leads = true ∧ (slotIn ph).works = true ∧ (slotIn ph).tallied = false
    ∧ (slotIn ph).phase = c.param 32 1 ∧ (slotIn ph).staged = [] := by decide +kernel
theorem test_meets_heatAbort : ∀ ph ∈ [1, 7, 9, 10], let c := heatCmd 0x0503 []; let s := heatIn c (slotIn ph)
    Begins s 0 0x0503 c ∧ c.reserved [(33, 40), (52, 64)] = true ∧ heatNamed s 0 (c.param 24 8) = some (3, slotIn ph) ∧ (slotIn ph).phase ≠ 8 := by
  decide +kernel
theorem test_meets_heatQuery : let c := heatCmd 0x0504 []; let s := heatIn c (slotIn 1)
    Begins s 0 0x0504 c ∧ c.reserved [(33, 40), (52, 64)] = true ∧ heatNamed s 0 (c.param 24 8) = some (3, slotIn 1) := by decide +kernel
def doneSlot : HeatSlot := { slotIn 8 with result := [1, 2, 3] }
theorem test_meets_heatCollect : let c := heatCmd 0x0505 [(40, 8, 4096), (48, 4, 3)]; let s := heatIn c doneSlot
    Begins s 0 0x0505 c ∧ c.reserved [(33, 40), (52, 64)] = true ∧ heatNamed s 0 (c.param 24 8) = some (3, doneSlot) ∧ doneSlot.leads = true
    ∧ c.param 40 8 % 4096 = 0 ∧ doneSlot.result.length ≤ c.param 48 4 ∧ s.sealing.sealed = false ∧ s.pci.linkUp = true := by decide +kernel

/-- A message of a type from entrant 0, with a body of 48 bytes. -/
def heatMsg (typ : Nat) : List Byte :=
  beBytes 2 0x5447 ++ beBytes 1 1 ++ beBytes 1 typ ++ beBytes 8 9 ++ beBytes 4 0 ++ beBytes 4 0 ++ beBytes 4 48 ++ List.replicate 48 0
def phaseFor (typ : Nat) : Nat := (phasesOf typ).1
/-- The message at the head of queue pair 0x10000, the entrant's bitmap byte as it is when the type may come. -/
def arriving (typ : Nat) : State :=
  let s := heatIn (heatCmd 0x0504 []) (slotIn (phaseFor typ))
  let s := if typ = 1 then s else poke s 0x080000000000 [if typ = 2 then 1 else if typ = 3 then 1 else if typ ≤ 5 then 3 else if typ = 6 then 0x0B else 0x1B]
  setQp 0 { kind := 2, state := 3, messages := [heatMsg typ] } s
theorem test_meets_heatMessages : ∀ typ ∈ [1, 2, 3, 4, 5, 6, 7, 8],
    let s := arriving typ; let h := slotIn (phaseFor typ); let m := heatMsg typ
    qpFind s 0x10000 = some (0, { kind := 2, state := 3, messages := [m] }) ∧ fieldBE m 3 1 = typ ∧ malformed m = false
    ∧ heldClass s 0 2 = false ∧ s.heat.held = [] ∧ (slotsFor s 0 (headerOf m).id).find? (fun e => e.2.covers (headerOf m).index) = some (3, h)
    ∧ Table.find s.heat.slots 3 = some h ∧ h.phase ≠ 9 ∧ h.stopped = false ∧ h.moving = none
    ∧ (let s1 := setQp 0 { kind := 2, state := 3 } s
       (slotRead [] 3 (h.bitAddr 0) 1 s1).2 = s1 ∧ (slotRead [] 3 (h.bitAddr 0) 1 s1).1.isSome = true
       ∧ (ownBits s h 0).testBit 0 = decide (typ ≠ 1) ∧ (slotRead [] 3 (h.recordAddr 0) 128 s1).2 = s1
       ∧ (slotRead [] 3 (h.recordAddr 0) 128 s1).1.isSome = true) := by decide +kernel
/-- Plaintexts that later checks accept: one share, one fragment, an empty CONFIRM; and fetches that can be answered. -/
def sharePlain : List Byte := beBytes 2 1 ++ beBytes 2 0 ++ beBytes 4 1 ++ List.replicate 80 5
theorem test_meets_heatJudged : judge (arriving 3) (slotIn 3) 3 0 3 0 [] sharePlain = .accept
    ∧ judge (arriving 5) (slotIn 4) 4 0 5 0 [] (List.replicate 64 1) = .accept ∧ judge (arriving 6) (slotIn 5) 5 0 6 0 [] [] = .accept
    ∧ judge (arriving 2) (slotIn 2) 2 0 2 0 [] [] = .answer 0
    ∧ judge (arriving 4) (slotIn 4) 4 0 4 0 [] [] = .answer 0 := by decide +kernel
/-- A ROSTER_GET held on queue pair 0x10000. -/
def heldGet : State :=
  let s := setQp 0 { kind := 2, state := 3 } (arriving 2)
  { s with heat := { s.heat with held := [{ qp := 0, msg := heatMsg 2, phase := 2 }] } }
theorem test_meets_heldReply : qpFind heldGet 0x10000 = some (0, { kind := 2, state := 3 })
    ∧ heldGet.heat.held.find? (fun e => e.qp = 0) = some { qp := 0, msg := heatMsg 2, phase := 2 } ∧ malformed (heatMsg 2) = false
    ∧ (slotsFor heldGet 0 (headerOf (heatMsg 2)).id).find? (fun e => e.2.covers (headerOf (heatMsg 2)).index) = some (3, slotIn 2)
    ∧ (ownBits heldGet (slotIn 2) 0).testBit 0 = true
    ∧ (let s1 : State := { heldGet with heat := { heldGet.heat with held := [] } }
       (slotRead [] 3 ((slotIn 2).bitAddr 0) 1 s1).2 = s1 ∧ (slotRead [] 3 ((slotIn 2).recordAddr 0) 128 s1).2 = s1
       ∧ (slotRead [] 3 ((slotIn 2).recordAddr 0) 128 s1).1.isSome = true
       ∧ judge s1 (slotIn 2) 2 0 2 0 [] [] = .answer 0) := by decide +kernel

/-- A shadowless slot with an oldest vector kept. -/
theorem test_meets_vectorCommit : ∃ v, ({ slotIn 4 with vectors := [v] } : HeatSlot).vectors = v :: [] ∧ (slotIn 4).role ≠ 2 ∧ (slotIn 4).stopped = false
    ∧ (slotIn 4).hMin = none ∧ (slotIn 4).streams = false := ⟨{ hsn := 1, index := 0, bytes := [] }, by decide +kernel⟩
/-- Mask expansion with 65 jobs left on engine 7. -/
def masking : HeatSlot := { slotIn 7 with jobs := List.replicate 65 { key := [], domain := 0, negative := false } }
theorem test_meets_maskChunk : masking.jobs ≠ [] ∧ masking.works = true ∧ expanderFree (heatIn runCmd masking) 7 = true
    ∧ (Table.getD (heatIn runCmd masking).rings.held masking.sector 0).testBit 2 = false ∧ (heatIn runCmd masking).err.slots = [] := by decide +kernel
/-- A lead with noise of parameter 1 to draw. -/
def noisy : HeatSlot := { slotIn 7 with params := overlay (slotIn 7).params 112 (leBytes 4 1) }
theorem test_meets_noise : noisy.leads = true ∧ noisy.works = true ∧ noisy.phase = 7 ∧ noisy.noiseDone = false ∧ noisy.sigma ≠ 0 ∧ noisy.drawn = []
    ∧ 1 ≤ noisy.elements ∧ noisy.elements ≤ 4096 := by decide +kernel
theorem test_meets_noiseDraw : ∃ bs u, internalRequest 1 (16 * noisy.elements) (heatIn runCmd noisy) = (some bs, u) := ⟨_, _, rfl⟩
/-- A lead that has waited for reports since stroke 0. -/
def waiting : HeatSlot := { slotIn 2 with endings := [(1, 0, 2)] }
def waitingState : State := strokes (rfield whole .heatConfig 0 32 24) (heatIn runCmd waiting)
theorem test_meets_exchange : (1, 0, 2) ∈ waiting.endings ∧ waiting.works = true ∧ waiting.leads = true
    ∧ 0 + rfield waitingState .heatConfig 0 32 24 ≤ waitingState.cad.stroke := by decide +kernel
/-- Lines of the accumulator and of staging. -/
theorem test_meets_taint : (∀ ph ∈ [1, 7], let s := heatIn runCmd (slotIn ph); let a := 3 * 2 ^ 30 - 64
      regionOfLine (slotIn ph) (a / 64) ≠ .none ∧ isMemory s (a / 64 * 64) = true ∧ isMemory s (a / 64 * 64 + 63) = true ∧ 1 ≤ (slotIn ph).phase
      ∧ (slotIn ph).phase ≤ 7 ∧ poisonedAt s a = false ∧ s.err.slots = []
      ∧ poisonedAt { s with mem := { s.mem with poison := [a / 64] } } a = true) := by decide +kernel
def tainted (line mirror : Nat) : HeatSlot := { slotIn 9 with
  params := overlay (slotIn 9).params 35 (leBytes 1 mirror), prior := 4, taintLines := [line], mirrored := mirror = 1 }
theorem test_meets_taintRecovery : (let h := tainted (5 * 2 ^ 24) 1
      h.phase = 9 ∧ h.stopped = false ∧ h.taintLines = [5 * 2 ^ 24] ∧ 1 ≤ h.prior ∧ h.prior ≤ 6 ∧ h.role ≠ 2 ∧ h.mirror ≠ 2
      ∧ regionOfLine h (5 * 2 ^ 24) = .staging ∧ h.streams = true ∧ (heatIn runCmd h).cad.stroke < h.deadline h.prior ∧ h.got = [])
    ∧ (let h := tainted (2 * 2 ^ 24) 0
      h.phase = 9 ∧ h.taintLines = [2 * 2 ^ 24] ∧ h.mirror ≠ 2 ∧ regionOfLine h (2 * 2 ^ 24) = .acc ∧ h.mirrored = false) := by decide +kernel
def quietCmd (release : Bool) : Cmd := cmd 0x0013 [(24, 8, 31 + if release then 2 ^ 63 else 0)]
theorem test_meets_quiesce : ∀ r : Bool, Begins (ready (quietCmd r) whole) 0 0x0013 (quietCmd r) ∧ (quietCmd r).param 24 8 % 32 ≠ 0
    ∧ (quietCmd r).param 24 8 / 32 % 2 ^ 58 = 0 ∧ (quietCmd r).reserved [(32, 64)] = true ∧ ((quietCmd r).param 24 8).testBit 63 = r := by
  decide +kernel
def yielded : State := { whole with lat := [(7, { yielded := some { serial := 1 } })] }
theorem test_meets_yield : yielded.mover = [] ∧ (latOf yielded 7).running = none ∧ gateOpen yielded 2 7 = true
    ∧ yielded.rst.heldEngines.testBit 7 = false ∧ yielded.err.running = [] := by decide +kernel
/-- A mark in slot 16 taken at its stroke, in time or expired. -/
def takenMark (e : Option Nat) : State :=
  let s := configured (setRing whole 1 { state := .active })
  { s with cad := { s.cad with marks := [(16, { ring := 1, target := 9, work := .stored (packet 1 1 []) .pf })], taken := [⟨16, 9, e⟩] } }
theorem test_meets_markRelease : ∀ e ∈ [none, some 0x0402], ∃ a m, (takenMark e).cad.taken = [a] ∧ Table.find (takenMark e).cad.marks a.slot = some m
    ∧ m.work = .stored (packet 1 1 []) .pf ∧ (ringOf (takenMark e) m.ring).state = .active ∧ m.period = 0 ∧ a.expiry = e := by
  intro e he
  fin_cases he
  · exact ⟨_, _, rfl, rfl, by decide +kernel⟩
  · exact ⟨_, _, rfl, rfl, by decide +kernel⟩

/-! ### Steps: heats, QUIESCE, marks -/

/-- HEAT_ADVANCE of phase 2 completes at once and begins phase 3; of phase 1 it waits for the verdict (R392). -/
theorem test_step_heatAdvance : let c := heatCmd 0x0502 [(32, 1, 2)]
    (slotOf (after (.heatAdvance 0) (heatIn c (slotIn 2))) 3).phase = 3
    ∧ firstPhase (after (.heatAdvance 0) (heatIn c (slotIn 2))) 0 = some (.done 0 0 0) := by decide +kernel
/-- HEAT_ABORT leaves the heat FAILED, phase 10 (R393). -/
theorem test_step_heatAbort : (slotOf (after (.heatAbort 0) (heatIn (heatCmd 0x0503 []) (slotIn 7))) 3).phase = 10 := by decide +kernel
/-- HEAT_QUERY of slot 3, phase 4, on the lead (R395). -/
theorem test_step_heatQuery : firstPhase (after (.heatQuery 0) (heatIn (heatCmd 0x0504 []) (slotIn 4))) 0
    = some (.done 0 (4 + 3 * 16 + 1024) 0) := by decide +kernel
/-- A poisoned line of the accumulator makes the slot TAINTED (R383). -/
theorem test_step_taint : let s := heatIn runCmd (slotIn 4)
    (slotOf (after (.taint 3 (2 * 2 ^ 30) []) { s with mem := { s.mem with poison := [2 ^ 25] } }) 3).phase = 9 := by decide +kernel
/-- A released mark's NOP is the last in its ring's order (R97). -/
theorem test_step_markRelease : firstPhase (after (.markRelease []) (takenMark none)) 1 = some .waiting
    ∧ (after (.markRelease []) (takenMark none)).cad.marks.length = 0 := by decide +kernel

/-! ### Witnesses: crews -/

/-- An instruction word from its fields (R651-R657): opcode, predicate, DST, A, B, C, MOD, and bits 56 and above. -/
def word (op : Nat) (dst a b c m top pred : Nat := 0) : Nat :=
  op + pred * 2 ^ 8 + dst * 2 ^ 16 + a * 2 ^ 24 + b * 2 ^ 32 + c * 2 ^ 40 + m * 2 ^ 48 + top * 2 ^ 56
def launch0 : Launch := { serial := 1, vregs := 32, localBytes := 256 }
/-- Crew 0 of a group of a live context of sector 0, with a word at its PC, 0, which its eight has translated to DPA 0. -/
def crewAt (w : Nat) (c : Crew) : State :=
  let s := poke (ready runCmd whole) 0 (leBytes 8 w)
  { s with
    sct := { s.sct with hbm := [(0, 0)], wake := [(5, 0)] }
    mem := { s.mem with caches := [(0, [{ ctx := 0, page := 0, giant := true, entry := 15, entryDpa := 2 ^ 29 }])] }
    scl := { contexts := [(0, {})], launches := [(0, launch0)], groups := [(0, {})], crews := [(0, c)] } }
def issueOf (w : Nat) (c : Crew) : Issue := ⟨0, c, {}, launch0, w⟩
def fetched (w : Nat) (c : Crew) : State :=
  match fetchWord c {} launch0 (crewAt w c) with
  | .word _ u => u
  | _ => crewAt w c
def issuesWell (w op : Nat) (c : Crew) : Bool :=
  decide (Table.find (crewAt w c).scl.groups c.group = some {}) && mayIssue (crewAt w c) c {} launch0 && (match fetchWord c {} launch0 (crewAt w c) with | .word v _ => v = w | _ => false) && iOp w = op
    && (scullFault {} launch0 (fetched w c)).isNone
theorem issues_of {w op : Nat} {c : Crew} (h : issuesWell w op c = true) : Issues (crewAt w c) (fetched w c) (issueOf w c) op := by
  simp only [issuesWell, Bool.and_eq_true, decide_eq_true_eq, Option.isNone_iff_eq_none] at h
  obtain ⟨⟨⟨⟨h0, h1⟩, h2⟩, h3⟩, h4⟩ := h
  refine ⟨rfl, h0, rfl, h1, ?_, h3, h4⟩
  simp only [issueOf, fetched]
  split at h2
  · next e => rw [e]; simpa using h2
  · cases h2

/-- Crew words that are well formed, with the shape of their operands: formats R and I, an s register for B, a predicate. -/
def threadWords : List (Nat × Shape) :=
  [(word 0x10 4 2 3, { b := 1 }), (word 0x20 4 2 9, { b := 1 }), (word 0x11 31 2 63 0 0 1, { b := 1 }), (word 0x12 4 2 3, { b := 1 }),
   (word 0x13 4 2 3, { b := 1 }), (word 0x15 4 2 3, { b := 1 }), (word 0x16 4 2 3, { b := 1 }), (word 0x17 4 2 3, { b := 1 }),
   (word 0x18 4 2 3, { b := 1 }), (word 0x19 4 2 3, { b := 1 }), (word 0x1A 4 2 3, { b := 1 }), (word 0x1B 4 2 3, { b := 1 }),
   (word 0x14 4 2 3 5, { b := 1, c := 1 }), (word 0x1C 4 2 3 0 1, { b := 1 }), (word 0x1D 4 2, {}), (word 0x1E 4 2, {}), (word 0x1F 4 2, {}),
   (word 0x2F 4 0 7, { a := 0, b := 1 }), (word 0x0E 4 2 3, { b := 1 }), (word 0x30 30 2 4, { dst := 2, a := 2, b := 2 }),
   (word 0x35 4 2 3 6, { dst := 2, a := 1, b := 1, c := 2 }), (word 0x31 4 2 3 0 7, { b := 1 }),
   (word 0x32 4 2 6 62 0 2, { dst := 2, a := 2, b := 2 }), (word 0x33 4 2 6 0 0 2, { dst := 2, a := 2, b := 2 }),
   (word 0x34 4 2 6 0 0 2, { dst := 2, a := 2, b := 2 }), (word 0x40 4 2 3, { b := 1 }), (word 0x41 4 2 3, { b := 1 }),
   (word 0x42 4 2 3, { b := 1 }), (word 0x43 4 2 3 5, { b := 1, c := 1 }), (word 0x44 4 2 3, { b := 1 }), (word 0x45 4 2 3, { b := 1 }),
   (word 0x46 4 2 0 0 4, {}), (word 0x48 4 2 3, { b := 1 }), (word 0x49 4 2 3, { b := 1 }), (word 0x4A 4 2 3 5, { b := 1, c := 1 }),
   (word 0x50 4 2 0 0 0x44, {}), (word 0x51 4 2 3, { b := 1, readsDst := true }), (word 0x52 4 2 0 0 7, {}),
   (word 0x60 7 2 3 0 5, { dst := 0, b := 1 }), (word 0x61 1 2 3 0 5, { dst := 0, b := 1 }), (word 0x9A 4 63, { a := 0 })]
theorem threadWords_well : ∀ e ∈ threadWords, issuesWell e.1 (iOp e.1) {} = true ∧ (issueOf e.1 {}).legal e.2 = true
    ∧ (issueOf e.1 {}).waits e.2 = false := by decide +kernel
theorem test_meets_threadRows : ∀ e ∈ threadWords, Issues (crewAt e.1 {}) (fetched e.1 {}) (issueOf e.1 {}) (iOp e.1)
    ∧ (issueOf e.1 {}).legal e.2 = true ∧ (issueOf e.1 {}).waits e.2 = false :=
  fun e h => ⟨issues_of (threadWords_well e h).1, (threadWords_well e h).2⟩
/-- An odd pair is illegal; a register with a load pending waits; opcodes 0x24 and 0x2E are not assigned. -/
def loading : Crew := { loads := [{ writes := [(2 * 64, 1)] }] }
theorem guardWords_well : issuesWell (word 0x30 5 2 4) 0x30 {} = true ∧ issuesWell (word 0x10 4 2 3) 0x10 loading = true
    ∧ issuesWell (word 0x24) 0x24 {} = true ∧ issuesWell (word 0x2E) 0x2E {} = true
    ∧ (issueOf (word 0x30 5 2 4) {}).legal { dst := 2, a := 2, b := 2 } = false
    ∧ (issueOf (word 0x10 4 2 3) loading).waits { b := 1 } = true ∧ (issueOf (word 0x10 4 2 3) loading).legal { b := 1 } = true := by decide +kernel
theorem test_meets_guarded : Issues (crewAt (word 0x30 5 2 4) {}) (fetched (word 0x30 5 2 4) {}) (issueOf (word 0x30 5 2 4) {}) 0x30
    ∧ Issues (crewAt (word 0x10 4 2 3) loading) (fetched (word 0x10 4 2 3) loading) (issueOf (word 0x10 4 2 3) loading) 0x10
    ∧ Issues (crewAt (word 0x24) {}) (fetched (word 0x24) {}) (issueOf (word 0x24) {}) 0x24 :=
  ⟨issues_of guardWords_well.1, issues_of guardWords_well.2.1, issues_of guardWords_well.2.2.1⟩
/-- A reserved bit is set; the crew is at a barrier; its PC is odd; its context is dying. -/
theorem reservedWord_well : issuesWell (word 0x10 4 2 3 0 0 4) 0x10 {} = true := by decide +kernel
theorem test_meets_crewIssue : Issues (crewAt (word 0x10 4 2 3 0 0 4) {}) (fetched (word 0x10 4 2 3 0 0 4) {}) (issueOf (word 0x10 4 2 3 0 0 4) {}) 0x10
    ∧ reservedOk (word 0x10 4 2 3 0 0 4) = false ∧ mayIssue (crewAt 0 { atBarrier := true }) { atBarrier := true } {} launch0 = false
    ∧ mayIssue (crewAt 0 { pc := 4 }) { pc := 4 } {} launch0 = true ∧ assigned 0x2D = false
    ∧ ctxOf (crewAt 0 {}) 0 = some {} ∧ Table.find (crewAt 0 {}).scl.crews 1 = none
    ∧ ctxOf { crewAt 0 {} with scl := { (crewAt 0 {}).scl with contexts := [(0, { dying := some { cause := 4 } })] } } 0
        = some { dying := some { cause := 4 } } :=
  ⟨issues_of reservedWord_well, by decide +kernel⟩

/-- Scalar, predicate and control words. -/
def crewWords : List Nat :=
  [word 0x90 63 1 2, word 0x91 63 1 2, word 0x92 63 1 2, word 0x93 63 1 2, word 0x94 63 1 2, word 0x95 63 1 2, word 0x96 63 1 2, word 0x97 63 1 2,
   word 0x98 63, word 0x99 63, word 0x9C 63 1, word 0x0C 63 7, word 0x09 63 9, word 0x9B 63 31 63, word 0x62 7 7 7 0 3, word 0x00, word 0x06 0 0 0 0 2,
   word 0x01, word 0x01 1, word 0x01 2, word 0x02 0 63, word 0x03 63, word 0x05, word 0x04, word 0x07 0 8 0 0 7, word 0x08 0 0 0 0 255,
   word 0x0A 0 63 0 0 5, word 0x0B 0 31 0 0 (5 + 192)]
theorem crewWords_well : ∀ w ∈ crewWords, issuesWell w (iOp w) {} = true ∧ reservedOk w = true ∧ (issueOf w {}).pred 0 = true
    ∧ issuesWell (w + 2 ^ 8) (iOp w) {} = true ∧ (issueOf (w + 2 ^ 8) {}).pred 0 = false ∧ reservedOk (w + 2 ^ 8) = true := by decide +kernel
theorem test_meets_crewRows : ∀ w ∈ crewWords, Issues (crewAt w {}) (fetched w {}) (issueOf w {}) (iOp w)
    ∧ Issues (crewAt (w + 2 ^ 8) {}) (fetched (w + 2 ^ 8) {}) (issueOf (w + 2 ^ 8) {}) (iOp w)
    ∧ reservedOk w = true ∧ (issueOf w {}).pred 0 = true ∧ (issueOf (w + 2 ^ 8) {}).pred 0 = false :=
  fun w h => have g := crewWords_well w h
    ⟨issues_of g.1, issues_of g.2.2.2.1, g.2.1, g.2.2.1, g.2.2.2.2.1⟩
/-- A barrier or an EXIT of the only crew; MISSUE from aligned registers; MWAIT for no pending and for a pending token; a wake queue of
the sector and one of another. -/
theorem test_meets_control : (crewAt (word 0x04) {}).scl.crews = [(0, {})] ∧ (crewAt (word 0x04) {}).scl.matrix = [] ∧ launch0.groups ≤ launch0.ended + 1
    ∧ (crewAt (word 0x04) {}).sct.cmd = none ∧ (∃ c ∈ (ringOf (crewAt (word 0x04) {}) 0).inflight, c.serial = launch0.serial ∧ c.phase = .running)
    ∧ (issueOf (word 0x07 0 8 0 0 7) {}).vOk 8 8 = true ∧ matrixQueue (fetched (word 0x07 0 8 0 0 7) {}) 0 = []
    ∧ (∃ k, (255 : Nat).testBit k = true ∧ ({ tokens := 128 } : Crew).tokens.testBit k = true)
    ∧ Table.find (fetched (word 0x0A 0 63 0 0 5) {}).sct.wake 5 = some (launch0.ctx / 64) ∧ (wakeOf (fetched (word 0x0A 0 63 0 0 5) {}) 5).kind = 0
    ∧ Table.find (fetched (word 0x0A 0 63 0 0 5) {}).sct.wake 6 ≠ some (launch0.ctx / 64) := by
  refine ⟨rfl, rfl, by decide +kernel, rfl, by decide +kernel, by decide +kernel, by decide +kernel, ⟨7, by decide +kernel⟩, by decide +kernel⟩
/-- Inputs of the modular operations that R673 states a result for. -/
theorem test_meets_modular : (3 % 2 = 1 ∧ 3 ≤ 3 ∧ 3 < 2 ^ 62 ∧ 2 < 3 ∧ (3 * 0x5555555555555555 + 1) % 2 ^ 64 = 0)
    ∧ (2 ≤ 2 ∧ 2 < 2 ^ 63 ∧ 1 < 2) := by decide +kernel

/-- Memory words: widths of 4 and 8 bytes, addresses from the pair of registers 2 and 3, data from 4, at 0x1000 in thread 0 and after. -/
def atLine : Crew := { v := (List.range 32).map (fun t => (2 * 64 + t, BitVec.ofNat 32 (0x1000 + 8 * t))), p := [(1, 1)] }
def localAt : Crew := { v := (List.range 32).map (fun t => (2 * 64 + t, BitVec.ofNat 32 (8 * t))), p := [(1, 1)] }
/-- A memory word: opcode, DST, A, B, C, width, operation, and predicate. -/
def memWord (op w x pred : Nat) : Nat := word op 6 2 4 8 (w + 16 * x) 0 pred
theorem memWords_well : (∀ w ∈ [memWord 0x70 2 0 0, memWord 0x71 3 0 0, memWord 0x72 3 7 1, memWord 0x73 2 6 1], issuesWell w (iOp w) atLine = true)
    ∧ (∀ w ∈ [memWord 0x80 2 0 0, memWord 0x81 3 0 0, memWord 0x82 2 7 1], issuesWell w (iOp w) localAt = true) := by decide +kernel
theorem test_meets_memIssues : (∀ w ∈ [memWord 0x70 2 0 0, memWord 0x71 3 0 0, memWord 0x72 3 7 1, memWord 0x73 2 6 1],
      Issues (crewAt w atLine) (fetched w atLine) (issueOf w atLine) (iOp w))
    ∧ (∀ w ∈ [memWord 0x80 2 0 0, memWord 0x81 3 0 0, memWord 0x82 2 7 1], Issues (crewAt w localAt) (fetched w localAt) (issueOf w localAt) (iOp w)) :=
  ⟨fun w h => issues_of (memWords_well.1 w h), fun w h => issues_of (memWords_well.2 w h)⟩
theorem test_meets_memOk : loadOk (issueOf (memWord 0x70 2 0 0) atLine) 2 ∧ storeOk (issueOf (memWord 0x71 3 0 0) atLine) 2
    ∧ atomOk (issueOf (memWord 0x72 3 7 1) atLine) 2 ∧ loadOk (issueOf (memWord 0x80 2 0 0) localAt) 1
    ∧ storeOk (issueOf (memWord 0x81 3 0 0) localAt) 1 ∧ atomOk (issueOf (memWord 0x82 2 7 1) localAt) 1
    ∧ (issueOf (memWord 0x72 3 7 1) atLine).active = [0] ∧ (issueOf (memWord 0x82 2 7 1) localAt).active = [0] := by decide +kernel
def resolved (w : Nat) (want : Want) (n : Nat) (ts : List Nat) : List (Nat × Nat) × State :=
  let r := resolveGlobal [] (issueOf w atLine) want n ts (fetched w atLine); (r.1, r.2.2.2)
theorem test_meets_memLines : (let w := memWord 0x70 2 0 0; GoodLines (resolved w .read 4 (List.range 32)).2 4 (resolved w .read 4 (List.range 32)).1
      ∧ (resolveGlobal [] (issueOf w atLine) .read 4 (List.range 32) (fetched w atLine)).2.1 = none
      ∧ (resolveGlobal [] (issueOf w atLine) .read 4 (List.range 32) (fetched w atLine)).2.2.1 = false)
    ∧ (let w := memWord 0x71 3 0 0; GoodLines (resolved w .write 8 (List.range 32)).2 8 (resolved w .write 8 (List.range 32)).1
      ∧ (resolved w .write 8 (List.range 32)).1.length = 32)
    ∧ (let w := memWord 0x72 3 7 1; GoodLines (resolved w .write 8 [0]).2 8 [(0, 0x1000)] ∧ (resolved w .write 8 [0]).1 = [(0, 0x1000)])
    ∧ (let w := memWord 0x73 2 6 1; GoodLines (resolved w .write 64 [0]).2 64 [(0, 0x1000)] ∧ (resolved w .write 64 [0]).1 = [(0, 0x1000)]
      ∧ isNear 0x1000 = true ∧ ((List.range ((issueOf w atLine).threads / 16)).map (· * 16)).filter (issueOf w atLine).pred = [0]) := by decide +kernel
theorem test_meets_localLines : (let w := memWord 0x81 3 0 0; let i := issueOf w localAt
      (∀ t ∈ i.active, i.addr 1 t + 8 ≤ i.l.localBytes ∧ i.addr 1 t % 8 = 0)
      ∧ GoodLines (fetched w localAt) 8 (i.active.map (fun t => (t, i.localBase + i.addr 1 t))))
    ∧ (let i := issueOf (memWord 0x80 2 0 0) { v := [(128, 253)] }; i.l.localBytes < i.addr 1 0 + 4)
    ∧ (let i := issueOf (memWord 0x80 2 0 0) { v := [(128, 250)] }; i.addr 1 0 + 4 ≤ i.l.localBytes ∧ i.addr 1 0 % 4 ≠ 0) := by decide +kernel
def returning (f : Option Kill) : State := crewAt 0 { loads := [{ writes := [(64, 7)], fault := f }] }
theorem test_meets_memReturn : (returning none).err.slots = [] ∧ (∃ c, Table.find (returning none).scl.crews 0 = some c ∧ c.loads ≠ [])
    ∧ (launchOfCrew (returning (some { cause := 2 })) { loads := [{ writes := [(64, 7)], fault := some { cause := 2 } }] }) = some launch0 := by
  refine ⟨rfl, ⟨_, rfl, by decide +kernel⟩, by decide +kernel⟩

/-! ### Steps: crews -/

/-- The crew after an instruction. -/
def crewAfter (i : Instr) (w : Nat) (c : Crew) : Crew := Table.getD (after i (crewAt w c)).scl.crews 0 {}
/-- IADD of 3 and 0xFFFF_FFFF in the immediate form wraps to 2 (R662). -/
theorem test_step_iadd : readV (crewAfter (.iadd 0) (word 0x20 4 2 0 + 0xFFFFFFFF * 2 ^ 32) { v := [(128, 3)] }) 4 0 = 2 := by decide +kernel
/-- SHR with SIGNED keeps the sign. -/
theorem test_step_shr : readV (crewAfter (.shr 0) (word 0x29 4 2 4 + 2 ^ 15) { v := [(128, 0x80000000)] }) 4 0 = 0xF8000000 := by decide +kernel
/-- FADD of 1.0 and 2.0 is 3.0; of 1.0 and 2^-24 it rounds to even, 1.0 (R664). -/
theorem test_step_fadd : readV (crewAfter (.fadd 0) (word 0x40 4 2 3) { v := [(128, 0x3F800000), (192, 0x40000000)] }) 4 0 = 0x40400000
    ∧ readV (crewAfter (.fadd 0) (word 0x40 4 2 3) { v := [(128, 0x3F800000), (192, 0x33800000)] }) 4 0 = 0x3F800000 := by decide +kernel
/-- MODMUL modulo 3 with q' of R673: the product 2 times 2 leaves 1 times the inverse of 2^64, which is 1 modulo 3. -/
theorem test_step_modmul : readVs (crewAfter (.modmul 0) (word 0x32 4 2 2 0 0 2)
    { v := [(128, 2)], s := [(0, 3), (1, 0x5555555555555555)] }) 4 0 2 = 1 := by decide +kernel
/-- BRA by -1 goes to PC - 8 (R660). -/
theorem test_step_bra : (crewAfter (.bra 0) (word 0x01 + 0xFFFFFFFF * 2 ^ 32) {}).pc = 2 ^ 64 - 8 := by decide +kernel
/-- LST of the thread with the highest number stays (R677). -/
theorem test_step_lst : (let w := word 0x81 6 2 4 8 2; peek (after (.lst 0) (crewAt w { v := [(4 * 64, 1), (4 * 64 + 31, 9)] })) 0x080040000000 4)
    = [9, 0, 0, 0] := by decide +kernel

/-! ### Witnesses: lattice engines -/

/-- 1,073,153 = 131 * 2 ^ 13 + 1 is prime, and 869,188 has order 2 ^ 13 modulo it. -/
def prime0 : Nat := 1073153
def root0 : Nat := 869188
/-- LAT_EXEC of ADD on engine 7: A, B and OUT0 of one limb of 4,096 words in its store. -/
def latExec (op : Nat) (l : Nat := 1) : Cmd :=
  cmd 0x0601 [(24, 1, 7), (25, 1, op), (26, 1, 12), (27, 1, l), (40, 8, storeBase 7), (48, 8, if op = 0 then 0 else storeBase 7 + 32768), (56, 8, storeBase 7 + 65536)] 2
def engineWith (x : LatEngine) (c : Cmd) : State :=
  let s := ready c whole
  { s with sct := { s.sct with engines := [(7, 0)] }, lat := [(7, x)] }
def loaded : LatEngine := { moduli := [(0, ⟨prime0, root0, 12⟩)] }
theorem test_meets_latExec : ∀ x ∈ [loaded, { loaded with running := some {} }], let c := latExec 1; let s := engineWith x c; let o := askedOp c
    Begins s 0 0x0601 c ∧ o.engine = 7 ∧ o.fieldsOk = true ∧ o.regions.all (regionOk s 0 7) = true ∧ noOverlap o.op 7 o.regions = true
    ∧ saveOk s 0 o = true ∧ entriesOk x o.logN o.entries = true ∧ meetsParked 7 x (o.storeRegions 7) = false ∧ Takes s 0 7
    ∧ latOf s 7 = x ∧ (∀ k, k < 8 → (latOf s k).queue = [] ∨ latFree s k = false) := by decide +kernel
/-- PRNG_CBD of a client instance, entry 0x1000. -/
def latNoise : Cmd := cmd 0x0601 [(24, 1, 7), (25, 1, 0x0E), (26, 1, 12), (27, 1, 1), (29, 1, 1), (32, 4, 0x1000), (40, 8, storeBase 7), (56, 8, storeBase 7 + 65536),
  (64, 8, storeBase 7 + 131072), (80, 8, storeBase 7 + 262144)] 2
theorem test_meets_latNoise : let s := { engineWith loaded latNoise with rng := { whole.rng with instances := [(0x1000, {})] } }; let o := askedOp latNoise
    o.op = 0x0E ∧ isClient o.aux = true ∧ s.rng.raw = false ∧ Table.find s.rng.instances o.aux = some {} ∧ o.fieldsOk = true
    ∧ o.regions.all (regionOk s 0 7) = true ∧ noOverlap o.op 7 o.regions = true ∧ Takes s 0 7 := by decide +kernel
def latLoad : Cmd := cmd 0x0610 [(24, 1, 7), (25, 1, 63), (26, 1, 1), (27, 1, 12), (64, 8, prime0), (72, 8, root0)] 2
theorem test_meets_latModuli : Begins (engineWith loaded latLoad) 0 0x0610 latLoad ∧ latLoad.param 24 1 = 7 ∧ latLoad.param 25 1 = 63
    ∧ latLoad.param 26 1 = 1 ∧ latLoad.param 27 1 = 12 ∧ latLoad.reserved [(28, 64)] = true ∧ 64 + 16 * 1 ≤ 64 * latLoad.units
    ∧ (∀ i, i < 1 → modulusOk 12 (latLoad.param (64 + 16 * i) 8) (latLoad.param (72 + 16 * i) 8) = true) ∧ Takes (engineWith loaded latLoad) 0 7
    ∧ latFree (engineWith loaded latLoad) 7 = true ∧ parked loaded = [] := by decide +kernel
def latHalt : Cmd := cmd 0x0602 [(24, 1, 7), (32, 4, 5)]
def tagged : LatOp := { serial := 9, tag := 5, params := (askedOp (latExec 1)).params }
theorem test_meets_latSuspend : Begins (engineWith { loaded with running := some tagged } latHalt) 0 0x0602 latHalt ∧ latHalt.param 24 1 = 7
    ∧ latHalt.param 25 1 = 0 ∧ latHalt.reserved [(26, 32), (36, 64)] = true ∧ tagged.tag = latHalt.param 32 4
    ∧ Table.find (engineWith loaded latHalt).sct.engines 7 = some 0 ∧ tagged.serial ≠ latHalt.serial
    ∧ Table.firstFree loaded.slots 0 16 = some 0 := by decide +kernel
def saving : State := { engineWith { loaded with yielded := some tagged } latHalt with
  rng := { whole.rng with instances := (List.range 6).map (fun i => (i, ({} : Instance))) } }
theorem test_meets_latSave : (∃ bs u, internalBytes 3 8 saving = (some bs, u)) ∧ Begins saving 0 0x0602 latHalt
    ∧ (latOf saving 7).yielded = some tagged ∧ (latOf saving 7).running = none ∧ (latOf saving 7).queue = [] :=
  ⟨⟨_, _, rfl⟩, by decide +kernel⟩
def latBack : Cmd := cmd 0x0603 [(24, 8, 7 * 2 + 15 * 2 ^ 4), (40, 1, 255)]
def parkedAt : LatEngine := { loaded with slots := [(15, (tagged, entriesHash loaded tagged))] }
theorem test_meets_latResume : Begins (engineWith parkedAt latBack) 0 0x0603 latBack ∧ (latBack.param 24 8).testBit 0 = false
    ∧ bitsOf (latBack.param 24 8) 1 3 = 7 ∧ latBack.param 40 1 = 0xFF ∧ latBack.reserved [(41, 64)] = true ∧ bitsOf (latBack.param 24 8) 4 4 = 15
    ∧ tagged.check = latBack.param 32 8 ∧ Takes (engineWith parkedAt latBack) 0 7 ∧ latFree (engineWith parkedAt latBack) 7 = true :=
  ⟨by decide +kernel, by decide +kernel, by decide +kernel, by decide +kernel, by decide +kernel, by decide +kernel, by decide +kernel,
   by decide +kernel, by decide +kernel⟩
theorem test_meets_latResumeSlot : Table.find parkedAt.slots 15 = some (tagged, entriesHash parkedAt tagged) := rfl

/-- A forward NTT of two limbs, at its first boundary; and an ADD at its last. -/
def stepping (yield : Bool) : LatEngine :=
  { loaded with running := some { tagged with params := (askedOp (latExec 8 2)).params }, yieldAsked := yield }
theorem test_meets_stepBoundary : ∀ y : Bool, ∃ o, (stepping y).running = some o ∧ o.steps + 1 < o.costs.length ∧ (stepping y).held = false
    ∧ (stepping y).suspend = none ∧ (stepping y).shiftStop = false ∧ (stepping y).yieldAsked = y
    ∧ (engineWith (stepping y) runCmd).err.slots = []
    ∧ (Table.getD (engineWith (stepping y) runCmd).rings.held 0 0).testBit 1 = false := fun y => ⟨_, rfl, by cases y <;> decide +kernel⟩
def lastOp (op : Nat) : LatOp := let o : LatOp := { tagged with params := (askedOp (latExec op)).params }; { o with steps := o.costs.length - 1 }
def ending (op : Nat) : State := engineWith { loaded with running := some (lastOp op) } runCmd
theorem test_meets_latEnd : (∀ op ∈ [0, 1, 2, 3], (lastOp op).steps + 1 = (lastOp op).costs.length ∧ (lastOp op).op = op ∧ (lastOp op).op ≤ 3
      ∧ 12 ≤ (lastOp op).logN ∧ (lastOp op).logN ≤ 17 ∧ (lastOp op).l = 1 ∧ (latOf (ending op) 7).queue = [] ∧ (ending op).err.slots = []
      ∧ isMemory (ending op) ((lastOp op).p 56 8) = true ∧ isMemory (ending op) ((lastOp op).p 56 8 + 32768 - 1) = true ∧ (lastOp op).p 56 8 % 64 = 0
      ∧ isMemory (ending op) ((lastOp op).p 40 8) = true ∧ isMemory (ending op) ((lastOp op).p 40 8 + 32768 - 1) = true)
    ∧ (∀ op ∈ [1, 2, 3], isMemory (ending op) ((lastOp op).p 48 8) = true ∧ isMemory (ending op) ((lastOp op).p 48 8 + 32768 - 1) = true)
    ∧ Table.find loaded.moduli ((lastOp 1).modBase + 0) = some ⟨prime0, root0, 12⟩ ∧ isPrime prime0 = true := by decide +kernel
theorem test_meets_latWords (op : Nat) : (ending op).mem.poison = [] ∧ (∀ a j, latWord (ending op) a j < prime0) := by
  have hc : (ending op).mem.cells = [] := rfl
  refine ⟨rfl, fun a j => ?_⟩
  simp only [latWord, peek, hc, cellAt, Table.find, Option.getD_none, List.map_const', List.length_range]
  decide

/-! ### Steps: lattice engines -/

/-- A free engine starts a LAT_EXEC with 200 cycles (R484). -/
theorem test_step_latExec : ((latOf (after (.latExec 0) (engineWith loaded (latExec 1))) 7).running.map (·.cycles)) = some 200 := by decide +kernel
/-- An operation resumed from its slot has 840 cycles and leaves the slot empty (R478, R484): here the check does not match, so
LAT_RESUME is refused (R480). -/
theorem test_step_latResume : (match firstPhase (after (.latResume 0) (engineWith parkedAt { latBack with bytes := overlay latBack.bytes 32 [1] })) 0 with
    | some (.done 0 _ _) => false
    | some (.done _ _ _) => true
    | _ => false) = true := by decide +kernel

/-! ### Witnesses: random numbers -/

/-- A healthy source of one annulus, with seeds, a client instance 0x10FF of sector 0, and HBM granule 0. -/
def source (c : Cmd) (seeds : Nat) : State :=
  let s := rput (ready c whole) .rngConfig 0 0 (64 + 1 * 2 ^ 8)
  let s := setSector 0 { sectorOf s 0 with rng := 2 } s
  { s with
    pci := { s.pci with linkUp := true }
    sct := { s.sct with hbm := [(0, 0)] }
    rng := { s.rng with
      started := true, annuli := (List.range 32).map (fun k => (k, { state := if k = 31 then .healthy else .retired, run := 0 }))
      queue := List.replicate seeds [1], instances := [(0x10FF, { interval := 4096, limit := 4096 })] } }
def rngNew (want plen : Nat) : Cmd := cmd 0x0701 [(24, 4, want), (36, 2, plen)] 5
theorem test_meets_rngInstantiate : ∀ w ∈ [0x100, 0xFFFFFFFF], let c := rngNew w 256; let s := source c 66
    Begins s 0 0x0701 c ∧ s.rng.raw = false ∧ c.param 36 2 = 256 ∧ 1 + (256 + 63) / 64 ≤ c.units ∧ c.param 28 4 = 0 ∧ c.param 32 4 = 0
    ∧ c.param 38 1 = 0 ∧ c.reserved [(39, 64)] = true ∧ c.param 24 4 = w ∧ Table.find s.rng.instances w = none
    ∧ Table.firstFree s.rng.instances 0x100 4096 = some 0x100 ∧ instancesOf s 0 < (sectorOf s 0).rng ∧ sourceState s = .ok
    ∧ clientSeed s = true ∧ s.rng.queue = [1] :: List.replicate 65 [1] := by decide +kernel
def rngGet (len dest kind : Nat) : Cmd := cmd 0x0702 [(24, 4, 0x10FF), (28, 4, len), (32, 8, dest), (40, 1, kind)]
theorem test_meets_rngGenerate : ∀ g ∈ [(1, 0), (65536, 0), (1, 1), (16, 1)], let c := rngGet g.1 4096 g.2; let s := source c 1
    Begins s 0 0x0702 c ∧ c.param 28 4 = g.1 ∧ c.param 42 2 = 0 ∧ c.param 41 1 = 0 ∧ c.reserved [(44, 64)] = true ∧ c.param 32 8 = 4096
    ∧ c.param 40 1 = g.2 ∧ s.sealing.sealed = false ∧ s.pci.linkUp = true ∧ ownsRange s 0 4096 g.1 = true ∧ s.err.slots = []
    ∧ isMemory s 4096 = true ∧ isMemory s (4096 + g.1 - 1) = true ∧ s.mem.poison = []
    ∧ (∃ x, Table.find s.rng.instances 0x10FF = some x ∧ x.sector = 0 ∧ x.pr = false ∧ x.needReseed = false ∧ x.count < x.interval) := by
  intro g hg
  fin_cases hg <;> (refine ⟨?_, ?_, ?_, ?_, ?_, ?_, ?_, ?_, ?_, ?_, ?_, ?_, ?_, ?_, ⟨_, rfl, by decide +kernel⟩⟩ <;> decide +kernel)
def rngSeed : Cmd := cmd 0x0703 [(24, 4, 0x10FF), (42, 2, 64)] 2
def rngDrop : Cmd := cmd 0x0704 [(24, 4, 0x10FF)]
theorem test_meets_rngReseed : Begins (source rngSeed 65) 0 0x0703 rngSeed ∧ rngSeed.param 42 2 = 64 ∧ 1 + (64 + 63) / 64 ≤ rngSeed.units
    ∧ rngSeed.reserved [(28, 42), (44, 64)] = true ∧ sourceState (source rngSeed 65) = .ok ∧ clientSeed (source rngSeed 65) = true
    ∧ (source rngSeed 65).rng.queue = [1] :: List.replicate 64 [1] ∧ Begins (source rngDrop 0) 0 0x0704 rngDrop ∧ rngDrop.param 24 4 = 0x10FF
    ∧ rngDrop.reserved [(28, 64)] = true := by decide +kernel
def rngRaw (what count : Nat) : Cmd := cmd 0x0705 [(24, 1, what), (25, 1, if what = 2 then 31 else 0), (28, 4, count)]
def rawMode (c : Cmd) : State := let s := source c 0; { s with rng := { s.rng with raw := true } }
theorem test_meets_rngRawMode : Begins (source (rngRaw 1 0) 3) 0 0x0705 (rngRaw 1 0) ∧ (rngRaw 1 0).param 24 1 = 1 ∧ (rngRaw 1 0).reserved [(25, 64)] = true
    ∧ (source (rngRaw 1 0) 3).heat.slots = [] ∧ (source (rngRaw 1 0) 3).rng.internalWaits = []
    ∧ Begins (rawMode (rngRaw 0 0)) 0 0x0705 (rngRaw 0 0) ∧ (rngRaw 0 0).reserved [(25, 64)] = true ∧ (rawMode (rngRaw 0 0)).rng.capture = none
    ∧ (∀ n ∈ [8, 2 ^ 25], Begins (rawMode (rngRaw 2 n)) 0 0x0705 (rngRaw 2 n) ∧ (rngRaw 2 n).param 25 1 = 31 ∧ (rngRaw 2 n).param 28 4 = n
      ∧ (rngRaw 2 n).param 32 8 % 4096 = 0 ∧ (rngRaw 2 n).reserved [(27, 28), (40, 64)] = true ∧ (annulusOf (rawMode (rngRaw 2 n)) 31).state = .healthy) := by
  decide +kernel
/-- The source with annulus 31 changed. -/
def annulus31 (x : Annulus) : State := let s := source runCmd 1; { s with rng := { s.rng with annuli := Table.put s.rng.annuli 31 x } }
theorem test_meets_strobe : (annulusOf (source runCmd 1) 31).state = .healthy ∧ (∀ j, j < 32 → j ≠ 31 → (annulusOf (source runCmd 1) j).state = .retired)
    ∧ (source runCmd 1).rng.capture = none ∧ ((annulusOf (source runCmd 1) 31).sample true).2 = false
    ∧ (annulusOf (annulus31 { block := List.replicate 1024 true }) 31).block.length = 1024
    ∧ (annulusOf (annulus31 { block := List.replicate 1023 true }) 31).block.length < 1024 := by decide +kernel
theorem test_meets_windows : (List.replicate 32 (600, 2300))[31]? = some (600, 2300) ∧ (List.replicate 32 (599, 2300))[31]? = some (599, 2300)
    ∧ (source runCmd 1).err.slots = [] ∧ (source runCmd 1).rng.started = true := by decide +kernel
/-- A lock block of annulus 31 that has moved and is full. -/
def lockBlock : State := { whole with rng := { whole.rng with started := true, annuli := [(31, { lockWindows := 1024, moved := true })] } }
theorem test_meets_lockBlock : lockBlock.rng.started = true ∧ 1024 ≤ (annulusOf lockBlock 31).lockWindows ∧ (annulusOf lockBlock 31).moved = true
    ∧ ∀ j, j ≠ 31 → (annulusOf lockBlock j).lockWindows < 1024 :=
  ⟨rfl, by decide, rfl, fun j h => by simp [lockBlock, annulusOf, Table.getD, Table.find, Ne.symm h]⟩
/-- A seed with both marks in probation. -/
def ripe : Probation := { annulus := 31, seed := [2], alive := true, lock := true }
def probation (kat : Bool) (queued : Nat) : State :=
  let s := source runCmd queued; { s with rng := { s.rng with katDone := kat, probation := [{ ripe with lock := false }, ripe] } }
theorem test_meets_probation : ∀ n ∈ [0, 256], ∀ k : Bool, (probation k n).rng.katFailed = false ∧ (probation k n).rng.raw = false
    ∧ (probation k n).err.slots = [] ∧ (probation k n).rng.started = true ∧ (probation k n).rng.katDone = k
    ∧ (probation k n).rng.probation.find? (fun p => p.alive && p.lock) = some ripe ∧ (probation k n).rng.queue.length = n := by decide +kernel
def waitingRng (inner : Bool) (seeds : Nat) : State :=
  let s := source runCmd seeds
  { s with rng := { s.rng with internalWaits := if inner then [0x10FF] else [], waitList := if inner then [] else [0x10FF] } }
theorem test_meets_seedWaits : (waitingRng true 1).rng.raw = false ∧ (Table.find (waitingRng true 1).rng.instances 0x10FF).isSome = true
    ∧ (waitingRng true 1).rng.queue = [1] :: [] ∧ (waitingRng true 1).rng.internalWaits = 0x10FF :: [] ∧ clientSeed (waitingRng false 65) = true
    ∧ clientSeed (waitingRng false 64) = false ∧ (waitingRng false 64).rng.internalWaits = [] ∧ (waitingRng false 64).rng.waitList = 0x10FF :: [] := by
  decide +kernel

/-! ### Steps: random numbers -/

/-- An alive window of 600 and 2,300 edges passes; of 599 it fails the annulus (R408, R409). -/
theorem test_step_alive : (annulusOf (after (.aliveWindowClose (List.replicate 32 (600, 2300))) (source runCmd 1)) 31).state = .healthy
    ∧ (annulusOf (after (.aliveWindowClose (List.replicate 32 (599, 2300))) (source runCmd 1)) 31).failures = 1 := by decide +kernel
/-- A strobe adds the bit A xor B (R398). -/
theorem test_step_strobe : (annulusOf (after (.annulusStrobe (2 ^ 31) 0 0) (source runCmd 1)) 31).block = [true] := by decide +kernel
/-- A lost sample ends the block and is counted; the annulus stays HEALTHY (R399). -/
theorem test_step_lost : (let t := after (.annulusStrobe 0 0 (2 ^ 31)) (source runCmd 1)
    (annulusOf t 31).state = .healthy ∧ (annulusOf t 31).block = [] ∧ rget t .rngHealthFails = 1) := by decide +kernel
/-- A seed enters the queue after known-answer tests that pass, and the source fails on ones that do not (R406, R412). -/
theorem test_step_kat : (after (.seedLeavesProbation true) (probation false 0)).rng.queue = [[2]]
    ∧ sourceState (after (.seedLeavesProbation false) (probation false 0)) = .failed := by decide +kernel

/-! ### Witnesses: pairs -/

/-- PAIR_FORM with package 63, on a cadence, with a table and a queue pair of quota for sector 0. -/
def formCmd : Cmd := cmd 0x0C01 [(24, 1, 63), (25, 1, 7), (26, 1, 15), (27, 1, 1)]
def canForm (c : Cmd) : State :=
  let s := configured (setSector 0 { sectorOf whole 0 with qps := 1 } (rput (ready c whole) .chdPodMembers 0 0 (2 ^ 63 + 1)))
  { s with rdma := { s.rdma with tables := [(0, 0)] } }
theorem test_meets_pairForm : Begins (canForm formCmd) 0 0x0C01 formCmd ∧ formCmd.param 24 1 < 64 ∧ formCmd.param 25 1 ≤ 7 ∧ formCmd.param 26 1 ≤ 15
    ∧ formCmd.param 27 1 ≤ 1 ∧ formCmd.reserved [(36, 40), (56, 64)] = true ∧ formCmd.param 24 1 / 4 ≠ pkgNumber (canForm formCmd) / 4
    ∧ (rget (canForm formCmd) .chdPodMembers).testBit (formCmd.param 24 1) = true ∧ (canForm formCmd).pair.state = .none
    ∧ (canForm formCmd).cad.configured = true ∧ hasTable (canForm formCmd) 0 = true ∧ (canForm formCmd).rdma.qps = []
    ∧ 0 < (sectorOf (canForm formCmd) 0).qps ∧ Table.firstFree (canForm formCmd).rdma.qps 0 65536 = some 0 := by decide +kernel
/-- A pair in a state, with a command in progress. -/
def paired (st : PairState) (p : Pair → Pair := id) : State := { ready runCmd whole with pair := p { twin := 63, state := st } }
/-- A SYSTEM packet at the head of link 10, for package 0 or for package 5. -/
def systemAt (dest : Nat) (s : State) : State :=
  let p : Packet := { typ := 8, srcPkg := 63, dest := dest * 2 ^ 46 }
  setLink 10 { state := .up, pairMode := true, rx := padTo 240 p.header } s
theorem test_meets_system : (∀ d ∈ [0, 5], ((takePacket 10 8 [] (systemAt d (paired .forming (fun p => { p with serial := some 1 })))).map
      (fun x => (bitsOf x.1.dest 46 6, pkgNumber x.2, x.2.pair.state, x.2.pair.serial, x.2.pair.resync))) = some (d, 0, .forming, some 1, false))
    ∧ (true ≠ whole.rst.straps.pairSide) ∧ takePacket 10 8 [] whole = none := by decide +kernel
theorem test_meets_formWait : (paired .forming (fun p => { p with serial := some 1 })).pair.state = .forming
    ∧ (paired .forming (fun p => { p with serial := some 1 })).pair.serial = some 1 ∧ (paired .forming).heat.slots = []
    ∧ (paired .forming (fun p => { p with serial := some 1 })).pair.moves = [] ∧ runCmd.serial = 1 ∧ runCmd.phase = .running
    ∧ (paired .forming).chord.transfers = [] ∧ (paired .forming).chord.folds = [] ∧ (paired .forming).chord.tree = [] := by decide +kernel
def breakCmd : Cmd := cmd 0x0C10 []
theorem test_meets_pairBreak : Begins (ready breakCmd whole) 0 0x0C10 breakCmd ∧ breakCmd.reserved [(24, 64)] = true ∧ whole.heat.slots = []
    ∧ whole.pair.state = .none ∧ (∀ st ∈ [PairState.formed, .suspect, .solo], Begins (ready breakCmd (paired st)) 0 0x0C10 breakCmd
      ∧ (paired st).pair.state ≠ .none ∧ (paired st).pair.state ≠ .forming ∧ (paired st).pair.moves = [] ∧ (paired st).pair.serial = none) := by
  decide +kernel
/-- A heartbeat flit of the twin on link 10, of a pair that is formed or suspects. -/
def beatFlit : List Byte := sealFlit [] 1 0 (leBytes 2 0 ++ leBytes 2 65535 ++ leBytes 1 3 ++ leBytes 3 0) (padTo 240 (leBytes 8 9))
set_option maxRecDepth 20000 in
theorem test_meets_heartbeat : ∀ st ∈ [PairState.formed, .suspect], ∀ mode : Bool,
    ((otherFlit 10 3 beatFlit (setLink 10 { state := .up, pairMode := mode } (paired st))).map (fun x =>
      (fieldLE x.1 8 1, x.2.pair.state, (linkOf x.2 10).pairMode))) = some (0, st, mode) := by decide +kernel
/-- A heartbeat over Ethernet. -/
def beat : RocePacket := { dest := 0x10000, op := .send true true none, qkey := heartbeatKey, payload := beBytes 8 9 ++ beBytes 1 63 ++ padTo 7 [] }
def beating : State := setQp 0 { kind := 1, state := 3 } (paired .formed (fun p => { p with qp := some 0 }))
theorem test_meets_pairHeartbeat : beating.heat.slots = [] ∧ beating.pair.state = .formed ∧ beating.pair.qp = some 0 ∧ beat.valid = true
    ∧ qpFind beating beat.dest = some (0, { kind := 1, state := 3 }) ∧ beat.payload.length = 16 ∧ fieldBE beat.payload 8 1 = beating.pair.twin
    ∧ fieldBE beat.payload 9 1 ≠ 7 := by decide +kernel
theorem test_meets_strokeBoundary : ∀ st ∈ [PairState.none, .formed], let s := configured (paired st)
    s.cad.configured = true ∧ s.cad.origin ≤ 1000000 ∧ s.cad.stroke < strokeAt s.cad 1000000 ∧ s.cad.stepHold = none ∧ s.cad.marks = []
    ∧ pairLive s = decide (st = .formed) := by decide +kernel
/-- Silence of the link alone, and of both paths, with a shadow slot and without. -/
def silent (m e : Nat) (shadow : Bool) : State :=
  let s := paired .formed (fun p => { p with misses := m, ethMisses := e })
  { s with heat := { s.heat with slots := if shadow then [(2, { role := 2, phase := 4 }), (3, { role := 1, mirrored := true, phase := 4 })] else [] } }
theorem test_meets_silence : (∀ b : Bool, let n := missLimit whole
      linkSilent (silent (n - 1) 0 b) n = false ∧ linkSilent (silent n 0 b) n = true ∧ ethSilent (silent n (n - 1) b) n = false
      ∧ ethSilent (silent n n b) n = true ∧ (silent n n b).pins.fenceConf = false ∧ (shadowSlots (silent n n b) = [] ↔ b = false)
      ∧ missLimit (silent n n b) = n) := by decide +kernel
/-- A package that fences its twin, with a shadow slot in CLOSE or REVEAL. -/
def fencing (phase : Nat) : State :=
  let s := paired .fencing (fun p => { p with ethMisses := 300 })
  { s with heat := { s.heat with slots := [(2, { (slotIn phase) with role := 2, strokeRole := 1 })] } }
theorem test_meets_takeover : (∀ ph ∈ [6, 7], ∃ h, (fencing ph).heat.slots = [(2, h)] ∧ h.role = 2 ∧ h.opening = none ∧ h.complete = [] ∧ h.phase = ph
      ∧ (fencing ph).cad.stroke < h.deadline 6 ∧ h.got = [])
    ∧ (fencing 7).pair.state = .fencing ∧ (fencing 7).pair.moves = [] ∧ (fencing 7).pair.serial = none
    ∧ ethSilent (fencing 7) (missLimit (fencing 7) + graceStrokes (fencing 7)) = true
    ∧ ethSilent (paired .fencing) (missLimit whole + graceStrokes whole) = false := by
  refine ⟨fun ph h => ?_, by decide +kernel⟩
  fin_cases h <;> exact ⟨_, rfl, by decide +kernel⟩
def takeCmd (id : Nat) : Cmd := cmd 0x0C02 [(24, 8, id)]
/-- A formed pair with a mirrored slot of heat 9 here, or with its shadow. -/
def formedWith (c : Cmd) (role : Nat) : State :=
  let s := ready c (paired .formed); { s with heat := { s.heat with slots := [(3, { slotIn 4 with role := role, mirrored := true })] } }
theorem test_meets_pairTakeover : (∀ id ∈ [0, 9], Begins (formedWith (takeCmd id) 1) 0 0x0C02 (takeCmd id) ∧ (takeCmd id).reserved [(32, 64)] = true
      ∧ (takeCmd id).param 24 8 = id ∧ movable (formedWith (takeCmd id) 1) id = [3])
    ∧ movable (formedWith (takeCmd 9) 2) 9 = [] ∧ (shadowOf (formedWith (takeCmd 9) 2) 9).isSome = true := by decide +kernel
def detachCmd : Cmd := cmd 0x0C03 []
theorem test_meets_trayDetach : detachCmd.reserved [(24, 64)] = true ∧ Begins (formedWith detachCmd 1) 0 0x0C03 detachCmd
    ∧ (∀ e ∈ (formedWith detachCmd 1).heat.slots, e.2.role = 2 ∨ e.2.mirrored = true) ∧ (formedWith detachCmd 1).pair.serial = none
    ∧ Begins (ready detachCmd (paired .solo)) 0 0x0C03 detachCmd ∧ (ready detachCmd (paired .solo)).pair.state = .solo := by decide +kernel

/-! ### Steps: pairs -/

/-- The link silent alone makes the pair SUSPECT (R884). -/
theorem test_step_suspect : (after .missLimitReached (silent (missLimit whole) 0 false)).pair.state = .suspect := by decide +kernel
/-- Both paths silent without a shadow slot: the package fences itself (R886). -/
theorem test_step_selfFence : (after .missLimitReached (silent (missLimit whole) (missLimit whole) false)).pair.state = .selfFenced := by decide +kernel
/-- The confirmed fence lets the package take over: SOLO (R887). -/
theorem test_step_takeover : (after (.pairFenceConf true) (fencing 7)).pair.state = .solo
    ∧ (slotOf (after (.pairFenceConf true) (fencing 7)) 2).role = 1 := by decide +kernel
/-- A stroke boundary counts a miss on each path that was not heard (R883). -/
theorem test_step_misses : (after (.strokeBoundary 1000000) (configured (paired .formed))).pair.misses = 1 := by decide +kernel

/-! ### Witnesses: memory moves -/

def invalidateCmd (count : Nat) : Cmd := cmd 0x0310 [(24, 8, 8), (32, 4, count)]
/-- Sector 0 owns granules 0 and 1 and the first far page; both ports are ONLINE. -/
def farOwner (c : Cmd) : State :=
  let s := ready c whole
  { s with
    sct := { s.sct with hbm := [(0, 0), (1, 0)] }
    mem := { s.mem with farCap := (1, 1), farOnline := (true, true), far := [(0, (0x010000000000, 2 ^ 21))] } }
theorem test_meets_memInvalidate : ∀ n ∈ [0, 512], Begins (farOwner (invalidateCmd n)) 0 0x0310 (invalidateCmd n)
    ∧ (invalidateCmd n).reserved [(36, 64)] = true ∧ (invalidateCmd n).param 32 4 ≤ 512 ∧ (invalidateCmd n).param 24 8 % 8 = 0
    ∧ ownsRange (farOwner (invalidateCmd n)) 0 8 (8 * n) = true := by decide +kernel
/-- One explicit pair of pages, outward or inward. -/
def moveCmd (out : Bool) : Cmd :=
  cmd 0x0311 [(25, 1, 1), (64, 8, if out then 2 ^ 21 else 0x010000000000), (72, 8, if out then 0x010000000000 else 2 ^ 21)] 2
theorem test_meets_tierMove : ∀ b : Bool, let c := moveCmd b; let s := farOwner c
    Begins s 0 0x0311 c ∧ (Table.getD s.rings.held 0 0).testBit 3 = false ∧ s.mover = [] ∧ c.param 24 1 = 0 ∧ c.param 25 1 = 1
    ∧ c.reserved [(48, 64)] = true ∧ 2 ≤ c.units ∧ c.param 80 8 = 0 ∧ c.param 64 8 % pageSize = 0 ∧ c.param 72 8 % pageSize = 0
    ∧ ownsRange s 0 (2 ^ 21) pageSize = true ∧ inFarRange s 0 0x010000000000 pageSize = true ∧ holdsHeat s (2 ^ 21) pageSize = false
    ∧ farReady s 0x010000000000 = true := by decide +kernel
def zeroCmd (size : Nat) : Cmd := cmd 0x0312 [(24, 8, 64), (32, 8, size)]
theorem test_meets_memZero : ∀ n ∈ [0, 64, 2 ^ 30], let c := zeroCmd n; let s := farOwner c
    Begins s 0 0x0312 c ∧ c.param 24 8 = 64 ∧ c.param 32 8 = n ∧ n % 64 = 0 ∧ c.reserved [(40, 64)] = true ∧ ownsRange s 0 64 n = true
    ∧ holdsHeat s 64 n = false := by decide +kernel
def assignCmd (size k : Nat) : Cmd := cmd 0x0313 [(24, 8, 0x010000000000), (32, 8, size), (40, 1, k)]
theorem test_meets_farAssign : ∀ g ∈ [(0, 7), (2 ^ 21, 0), (512 * 2 ^ 21, 0)], let c := assignCmd g.1 g.2; let s := farOwner c
    Begins s 0 0x0313 c ∧ c.param 40 1 = g.2 ∧ c.param 24 8 % pageSize = 0 ∧ c.param 32 8 % pageSize = 0 ∧ c.reserved [(41, 64)] = true
    ∧ (g.1 = 0 ∨ (farRange s 0x010000000000 g.1 = true ∧ farPage s 0x010000000000 + g.1 / pageSize ≤ usablePages s
      ∧ farReady s (0x010000000000 + g.1 - 1) = true ∧ ∀ e ∈ s.mem.far, e.1 = g.2)) := by decide +kernel
/-- A page in flight, mapped by the entry at 0x3000 or not; and fills. -/
def moving (pte : Nat) : State :=
  { farOwner runCmd with mover := [{ serial := 1, sector := 0, job := .explicit [(2 ^ 21, 0x010000000000, pte)], begun := true, moving := true }] }
theorem test_meets_pageMoveEnd : ∀ pte ∈ [0, 0x3000], ∃ m, (moving pte).mover = [m] ∧ m.job = .explicit [(2 ^ 21, 0x010000000000, pte)] ∧ m.entry = 0
    ∧ m.begun = true ∧ m.moving = true ∧ m.held = false ∧ m.yielded = false ∧ m.pages = 0 ∧ m.poisoned = 0 ∧ (moving pte).err.slots = []
    ∧ (moving pte).sealing.sealed = false ∧ memoryCanonical (moving pte) = true
    ∧ (pte = 0 ∨ (isMemory (moving pte) pte = true ∧ isMemory (moving pte) (pte + 7) = true ∧ poisonedAt (moving pte) pte = false)) := by
  intro pte h
  fin_cases h <;> exact ⟨_, rfl, rfl, by decide +kernel⟩
def filling (job : MoverJob) : State := { farOwner runCmd with mover := [{ serial := 1, sector := 0, job := job, begun := true }] }
theorem test_meets_fillEnd : (∀ j ∈ [MoverJob.zero 64 64, .farAssign 0 0x010000000000 (2 ^ 21) [], .farAssign 0 0x010000000000 0 []],
    ∃ m, (filling j).mover = [m] ∧ m.job = j ∧ m.begun = true ∧ m.held = false ∧ m.yielded = false ∧ m.bytes = 0
      ∧ (Table.getD (filling j).rings.held m.sector 0).testBit 3 = false ∧ (filling j).sealing.sealed = false) := by
  intro j h
  fin_cases h <;> exact ⟨_, rfl, rfl, by decide +kernel⟩
def cxlOn (t : Nat) : State := setCxl 1 { state := 2, timeouts := t } whole
theorem test_meets_cxl : (cxlOf whole 1).state = 0 ∧ (cxlOf (cxlOn 1) 1).state ≠ 0 ∧ (cxlOf (cxlOn 1) 1).timeouts + 1 < 3
    ∧ 3 ≤ (cxlOf (cxlOn 2) 1).timeouts + 1 ∧ (cxlOn 2).mover = [] := by decide +kernel

/-! ### Steps: memory moves -/

/-- MEM_ZERO of 64 bytes ends with 64 bytes zeroed (R278), poison gone. -/
theorem test_step_memZero : let s := { filling (.zero 64 64) with mem := { (filling (.zero 64 64)).mem with poison := [1], cells := [(64, 5)] } }
    (after .tierMoverFillEnd s).mem.cells = [] ∧ (after .tierMoverFillEnd s).mem.poison = []
    ∧ firstPhase (after .tierMoverFillEnd s) 0 = some (.done 0 64 0) := by decide +kernel
/-- A page moves with its bytes and its poison (R267, R275). -/
theorem test_step_pageMove : let s := { moving 0 with mem := { (moving 0).mem with poison := [2 ^ 15], cells := [(2 ^ 21 + 70, 5)] } }
    cellAt (after (.pageMoveEnd false [] []) s).mem.cells (0x010000000000 + 70) = 5
    ∧ (after (.pageMoveEnd false [] []) s).mem.poison.contains (0x010000000000 / 64) = true
    ∧ firstPhase (after (.pageMoveEnd false [] []) s) 0 = some (.done 0 1 1) := by decide +kernel
/-- The third Mem timeout takes the port OFFLINE with cause 6 (R778). -/
theorem test_step_cxl : (cxlOf (after (.cxlMemTimeout 1) (cxlOn 2)) 1).cause = 6 ∧ (cxlOf (after (.cxlMemTimeout 1) (cxlOn 1)) 1).state = 2 := by
  decide +kernel

/-! ### Witnesses: contexts, launches, descriptors -/

/-- Sector 0 owns granule 0 and eight 1; context 59 lives. -/
def ctxState (c : Cmd) (k : Context := {}) : State :=
  let s := ready c whole
  { s with sct := { s.sct with hbm := [(0, 0)], eights := [(1, 0)] }, scl := { s.scl with contexts := [(59, k)] } }
def createCtx : Cmd := cmd 0x0402 [(24, 8, 4096)]
theorem test_meets_contextCreate : Begins (ctxState createCtx) 0 0x0402 createCtx ∧ createCtx.reserved [(32, 64)] = true
    ∧ createCtx.param 24 8 % 4096 = 0 ∧ ownsRange (ctxState createCtx) 0 4096 4096 = true
    ∧ Table.firstFree (ctxState createCtx).scl.contexts 0 60 = some 0 := by decide +kernel
def ctxCmd (op : Nat) : Cmd := cmd op [(24, 4, 59)]
theorem test_meets_contextEnd : (∀ op ∈ [0x0410, 0x0411], (ctxCmd op).param 24 4 = 59 ∧ Begins (ctxState (ctxCmd op)) 0 op (ctxCmd op)
      ∧ ctxOf (ctxState (ctxCmd op)) 59 = some {} ∧ (ctxCmd op).reserved [(28, 64)] = true ∧ launchesOf (ctxState (ctxCmd op)) 59 = [])
    ∧ (let k : Context := { dying := some { cause := 4 } }; Begins (ctxState (ctxCmd 0x0411) k) 0 0x0411 (ctxCmd 0x0411) ∧ k.killed = none
      ∧ ctxOf (ctxState (ctxCmd 0x0411) k) 59 = some k) := by decide +kernel
/-- LAUNCH at the greatest and least sizes that fit an empty scull. -/
def launchCmd (crews vregs eights : Nat) : Cmd :=
  cmd 0x0401 [(24, 4, 59), (29, 1, crews), (30, 2, vregs), (32, 8, 256), (48, 4, 2 ^ 24), (52, 4, 262144), (56, 4, eights), (60, 4, 3600000)]
theorem test_meets_launch : ∀ g ∈ [(1, 4, 0), (1, 256, 2), (32, 4, 2)], let c := launchCmd g.1 g.2.1 g.2.2; let s := ctxState c
    Begins s 0 0x0401 c ∧ c.param 28 1 = bitNat (sectorOf s 0).distance ∧ c.param 29 1 = g.1 ∧ c.param 30 2 = g.2.1 ∧ c.param 32 8 % 256 = 0
    ∧ c.param 48 4 = 2 ^ 24 ∧ c.param 52 4 = 262144 ∧ c.param 60 4 = 3600000 ∧ c.param 56 4 = g.2.2
    ∧ fitsEmpty (sectorOf s 0).distance g.1 g.2.1 262144 = true ∧ g.2.2 &&& ownedMask s.sct.eights 0 = g.2.2 ∧ ctxOf s 59 = some {}
    ∧ (∃ e ∈ bitList 32 (if g.2.2 = 0 then ownedMask s.sct.eights 0 else g.2.2), gateOpen s 1 e = true) ∧ s.scl.launches = [] := by decide +kernel
theorem test_meets_launchNoEight : let c := launchCmd 1 4 0; let s := ctxState c
    ownedMask { s with sct := { s.sct with eights := [] } }.sct.eights 0 = 0 := by decide +kernel
def queuedLaunch : Launch := { serial := 1, ctx := 59, crews := 32, vregs := 4, entry := 256, arg := 7, groups := 2, localBytes := 256, timeoutMs := 5 }
def launched (l : Launch) (k : Context := {}) : State :=
  let s := ctxState runCmd k; { s with scl := { s.scl with launches := [(0, l)], nextAge := 1 } }
theorem test_meets_placement : findPlace (launched queuedLaunch) ((launched queuedLaunch).scl.launches.filter (fun e => e.2.ctx / 64 = 0 && unplaced (launched queuedLaunch) e.2)) []
      = some (0, queuedLaunch, 8) ∧ freeLocal (launched queuedLaunch) 8 queuedLaunch.localBytes = some 0 := by decide +kernel
theorem test_meets_launchTimeout : Table.find (launched queuedLaunch).scl.launches 0 = some queuedLaunch ∧ queuedLaunch.next = 0
    ∧ ctxOf (launched queuedLaunch) 59 = some {} ∧ ({ queuedLaunch with next := 1 } : Launch).timeoutMs ≠ 0 := by decide +kernel
def dying59 : State := launched queuedLaunch { dying := some { cause := 7, scull := 15 } }
theorem test_meets_killComplete : ctxOf dying59 59 = some { dying := some { cause := 7, scull := 15 } } ∧ dying59.sct.cmd = none
    ∧ launchesOf dying59 59 = [0] ∧ (∃ e ∈ (ringOf dying59 0).inflight, e.phase = .running ∧ e.serial = queuedLaunch.serial) := by decide +kernel
/-- A descriptor of 16 x 16 x 32 elements of an integer type in local memory, and one with M 0. -/
def descriptor (m : Nat) (t : Nat := 2) : Descriptor :=
  { token := 7, bytes := leBytes 1 1 ++ leBytes 1 t ++ leBytes 1 t ++ leBytes 1 1 ++ leBytes 2 m ++ leBytes 2 16 ++ leBytes 2 32 ++ leBytes 2 0
      ++ leBytes 4 2048 ++ leBytes 8 0 ++ leBytes 8 1024 }
def matrixState (d : Descriptor) : State :=
  let s := crewAt 0 { tokens := 128 }
  { s with scl := { s.scl with launches := [(0, { launch0 with localBytes := 4096 })], matrix := [(0, [d])] } }
theorem test_meets_descriptor : (descriptor 0).ok 4096 = false ∧ (∀ t ∈ [2, 3, 4, 5], (descriptor 16 t).ok 4096 = true)
    ∧ matrixQueue (matrixState (descriptor 16)) 0 = [descriptor 16] ∧ (descriptor 16).aGlobal = false ∧ (descriptor 16).bGlobal = false
    ∧ (0x080040000000 + 0 * 0x40000 + 0) % 64 = 0 ∧ isMemory (matrixState (descriptor 16)) 0x080040000000 = true
    ∧ isMemory (matrixState (descriptor 16)) (0x080040000000 + 2048 + 1023) = true ∧ (matrixState (descriptor 16)).mem.poison = []
    ∧ (matrixState (descriptor 16)).err.slots = [] ∧ (matrixState (descriptor 16)).err.running = [] := by decide +kernel

/-! ### Steps: contexts -/

/-- CONTEXT_CREATE gives the lowest free context (R604). -/
theorem test_step_contextCreate : firstPhase (after (.contextCreate 0) (ctxState createCtx)) 0 = some (.done 0 0 0) := by decide +kernel
/-- KILL_COMPLETE: the launch ends with CONTEXT_KILLED, cause 7 and its scull (R643). -/
theorem test_step_killComplete : firstPhase (after (.killComplete 59) dying59) 0 = some (.done 0x0503 (7 + 15 * 256) 0) := by decide +kernel
/-- The first crew starts at ENTRY with the argument in s0 and the crew's thread numbers in v0 (R618). -/
theorem test_step_placement : let c := Table.getD (after (.groupPlacement 0) (launched queuedLaunch)).scl.crews 31 {}
    c.pc = 256 ∧ readS c 0 = 7 ∧ readV c 0 31 = 31 * 32 + 31 ∧ readS c 2 = 31 + 32 * 2 ^ 32 := by decide +kernel
/-- An invalid descriptor kills the context with cause 6 (R688). -/
theorem test_step_descriptor : ((ctxOf (after (.descriptorComplete 0 0 []) (matrixState (descriptor 0))) 0).bind (·.dying)).map (·.cause) = some 6 := by
  decide +kernel

/-! ### Witnesses: RDMA tables and queue pairs -/

/-- Sector 0 with a table, a domain, quotas and a queue pair 0xFFFF of a kind in a state. -/
def rdmaState (c : Cmd) (q : Qp := {}) : State :=
  let s := setSector 0 { sectorOf whole 0 with qps := 8, pds := 8 } (rput (ready c whole) .rdmaMrQuota 0 0 4)
  { s with
    sct := { s.sct with hbm := [(0, 0), (511, 7)] }
    rdma := { s.rdma with tables := [(0, 3)], pds := [(4095, 0)], qps := [(0xFFFF, q)],
                          keys := [(0, { pd := 4095, len := 64, access := 1 }), (1, { variant := 9, window := true })] } }
def tableCmd (g k : Nat) : Cmd := cmd 0x0810 [(24, 4, g), (28, 1, k)]
theorem test_meets_tableSet : Begins (rdmaState (tableCmd 511 7)) 0 0x0810 (tableCmd 511 7) ∧ (tableCmd 511 7).reserved [(29, 64)] = true
    ∧ Table.find (rdmaState (tableCmd 511 7)).sct.hbm 511 = some 7 ∧ hbmPooled (rdmaState (tableCmd 511 7)) (fun _ => true) 511 = false
    ∧ Table.find (rdmaState (tableCmd 511 7)).rdma.tables 7 = none
    ∧ (let c := tableCmd 0xFFFFFFFF 7; let s := rdmaState c
       Begins s 0 0x0810 c ∧ c.param 24 4 = 0xFFFFFFFF ∧ (∀ e ∈ s.rdma.qps, e.2.sector ≠ 7) ∧ (∀ e ∈ s.rdma.pds, e.2 ≠ 7)
       ∧ ∀ e ∈ s.rdma.keys, e.1 / 2 ^ 20 ≠ 7) := by decide +kernel
theorem test_meets_pd : (let c := cmd 0x0811 []; let s := rdmaState c
      Begins s 0 0x0811 c ∧ c.reserved [(24, 64)] = true ∧ hasTable s 0 = true
      ∧ Table.countIf s.rdma.pds (fun _ m => m = 0) < (sectorOf s 0).pds ∧ Table.firstFree s.rdma.pds 0 4096 = some 0)
    ∧ (let c := cmd 0x0812 [(24, 4, 4095)]; let s := { rdmaState c with rdma := { (rdmaState c).rdma with keys := [] } }
      Begins s 0 0x0812 c ∧ c.reserved [(28, 64)] = true ∧ c.param 24 4 = 4095 ∧ Table.find s.rdma.pds 4095 = some 0
      ∧ (∀ e ∈ s.rdma.qps, e.2.pd ≠ 4095) ∧ s.rdma.keys = []) := by decide +kernel
/-- MR_REGISTER of owned DPA with remote atomics, the greatest length in host memory, and least in device memory; MW_ALLOC. -/
def registerCmd (kind access len : Nat) : Cmd := cmd 0x0813 [(32, 8, len), (48, 1, kind), (49, 1, access), (50, 1, 255), (52, 4, 4095)]
theorem test_meets_mrRegister : ∀ g ∈ [(0, 8 + 1, 2 ^ 30), (0, 0, 1), (1, 5, 2 ^ 40)], let c := registerCmd g.1 g.2.1 g.2.2; let s := rdmaState c
    Begins s 0 0x0813 c ∧ c.reserved [(51, 52), (56, 64)] = true ∧ hasTable s 0 = true ∧ Table.find s.rdma.pds 4095 = some 0
    ∧ keysUsed s 0 < rfield s .rdmaMrQuota 0 0 21 ∧ Table.firstFree s.rdma.keys (0 * 2 ^ 20) (rfield s .rdmaMrQuota 0 0 21) = some 2
    ∧ c.param 52 4 = 4095 ∧ c.param 32 8 = g.2.2 ∧ c.param 48 1 = g.1 ∧ c.param 49 1 = g.2.1 ∧ g.2.1 < 32
    ∧ ((g.2.1).testBit 2 = true → (g.2.1).testBit 0 = true)
    ∧ (g.1 = 1 ∧ (g.2.1).testBit 3 = false ∧ s.sealing.sealed = false
      ∨ g.1 = 0 ∧ rdmaMemory s 0 (c.param 40 8) g.2.2 = true ∧ ((g.2.1).testBit 3 = true → ownsFree s 0 (c.param 40 8) g.2.2 = true ∧ (g.2.1).testBit 0 = true)) := by
  decide +kernel
theorem test_meets_windows2 : (let c := cmd 0x0815 [(24, 4, 4095), (28, 1, 7)]; Begins (rdmaState c) 0 0x0815 c ∧ c.reserved [(29, 64)] = true
      ∧ c.param 24 4 = 4095)
    ∧ (let c := cmd 0x0814 [(24, 4, 0)]; let s := rdmaState c
      Begins s 0 0x0814 c ∧ c.reserved [(28, 64)] = true ∧ bitsOf (c.param 24 4) 28 4 = 0
      ∧ ((Table.find s.rdma.keys (bitsOf (c.param 24 4) 8 20)).map (fun k => (k.variant, k.window))) = some (c.param 24 4 % 256, false)
      ∧ (∀ e ∈ s.rdma.keys, e.2.bound = none))
    ∧ (let c := cmd 0x0816 [(24, 4, 256 + 9)]; let s := rdmaState c
      Begins s 0 0x0816 c ∧ c.reserved [(28, 64)] = true
      ∧ ((Table.find s.rdma.keys (bitsOf (c.param 24 4) 8 20)).map (fun k => (k.variant, k.window))) = some (c.param 24 4 % 256, true)) := by
  decide +kernel
def qpNew (kind sq rq : Nat) : Cmd := cmd 0x0817 [(24, 4, 4095), (28, 1, kind), (29, 1, 7), (30, 1, sq), (31, 1, rq), (32, 2, 4096), (34, 2, 1)]
theorem test_meets_qpCreate : ∀ g ∈ [(0, 1, 63), (1, 2, 1), (2, 0, 0)], let c := qpNew g.1 g.2.1 g.2.2; let s := rdmaState c
    Begins s 0 0x0817 c ∧ c.reserved [(36, 64)] = true ∧ c.param 28 1 = g.1 ∧ c.param 29 1 ≤ 7 ∧ c.param 32 2 = 4096 ∧ c.param 34 2 = 1
    ∧ ((g.1 = 2 ∧ c.param 30 1 = 0 ∧ c.param 31 1 = 0 ∧ ingressCount s < 1024) ∨ (g.1 ≠ 2 ∧ 1 ≤ c.param 30 1 ∧ c.param 30 1 ≤ 63
        ∧ 1 ≤ c.param 31 1 ∧ c.param 31 1 ≤ 63 ∧ c.param 30 1 ≠ c.param 31 1))
    ∧ c.param 24 4 = 4095 ∧ Table.find s.rdma.pds 4095 = some 0 ∧ hasTable s 0 = true
    ∧ Table.countIf s.rdma.qps (fun _ q => q.sector = 0) < (sectorOf s 0).qps ∧ Table.firstFree s.rdma.qps 0 65536 = some 0 := by decide +kernel
/-- QP_MODIFY to a state from the one before it. -/
def modifyCmd (goal : Nat) : Cmd :=
  cmd 0x0818 [(24, 4, 0x1FFFF), (28, 1, goal), (29, 1, if goal = 1 then 14 else 0), (30, 1, 2), (31, 1, 31), (32, 1, 7), (33, 1, 7), (34, 1, 31), (35, 1, 16),
    (36, 4, 2 ^ 24 - 1), (40, 4, 2 ^ 24 - 1), (44, 4, 2 ^ 24 - 1), (52, 1, 63), (53, 1, 15)] 2
theorem test_meets_qpModify : ∀ st ∈ [0, 1, 2, 3, 4, 6], let c := modifyCmd st; let q : Qp := { state := if st = 0 ∨ st = 6 then 3 else st - 1 }
    let s := rdmaState c q
    Begins s 0 0x0818 c ∧ c.reserved [(54, 64), (88, 128)] = true ∧ qpFind s (c.param 24 4) = some (0xFFFF, q) ∧ q.sector = 0 ∧ c.param 28 1 = st
    ∧ c.param 29 1 &&& 0xF1 = 0 ∧ c.param 30 1 ≤ 2 ∧ c.param 34 1 ≤ 31 ∧ c.param 35 1 = 16 ∧ c.param 44 4 < 2 ^ 24 ∧ c.param 52 1 ≤ 63
    ∧ c.param 53 1 ≤ 15 ∧ c.param 36 4 < 2 ^ 24 ∧ c.param 31 1 ≤ 31 ∧ c.param 32 1 ≤ 7 ∧ c.param 33 1 ≤ 7 ∧ c.param 40 4 < 2 ^ 24 := by
  decide +kernel
def qpCmd (op : Nat) : Cmd := cmd op [(24, 4, 0x1FFFF)]
theorem test_meets_qpEnds : (∀ st ∈ [0, 6], let s := rdmaState (qpCmd 0x0819) { state := st }; Begins s 0 0x0819 (qpCmd 0x0819)
      ∧ (qpCmd 0x0819).reserved [(28, 64)] = true ∧ qpFind s 0x1FFFF = some (0xFFFF, { state := st }) ∧ ∀ e ∈ s.rdma.keys, e.2.bound = none)
    ∧ Begins (rdmaState (qpCmd 0x081A)) 0 0x081A (qpCmd 0x081A) ∧ (qpCmd 0x081A).reserved [(28, 64)] = true := by decide +kernel
/-- An empty SEND posted on ring 1, and a receive with and without memory. -/
def postCmd : Cmd := cmd 0x0820 [(24, 4, 0x1FFFF)] 1 1
def recvCmd (len : Nat) : Cmd := cmd 0x0821 [(24, 4, 0x1FFFF), (36, 4, len)] 1 1
def rtsQp : Qp := { pd := 4095, sqRing := 1, rqRing := 1, state := 3 }
theorem test_meets_rdmaPost : Begins (rdmaState postCmd rtsQp) 1 0x0820 postCmd ∧ qpFind (rdmaState postCmd rtsQp) 0x1FFFF = some (0xFFFF, rtsQp)
    ∧ rtsQp.sqRing = postCmd.ring % 64 ∧ postCmd.param 28 1 = 0 ∧ postCmd.param 36 4 = 0 ∧ postCmd.reserved [(29, 32)] = true ∧ postCmd.units = 1
    ∧ heldClass (rdmaState postCmd rtsQp) 0 4 = false := by decide +kernel
theorem test_meets_recv : ∀ n ∈ [0, 64], Begins (rdmaState (recvCmd n) rtsQp) 1 0x0821 (recvCmd n) ∧ rtsQp.rqRing = (recvCmd n).ring % 64
    ∧ rtsQp.recvs.length < rtsQp.rqDepth ∧ (recvCmd n).reserved [(28, 32), (48, 64)] = true
    ∧ ((recvCmd n).param 36 4 = 0 ∨ (match keyCheck (rdmaState (recvCmd n) rtsQp) 0xFFFF rtsQp ((recvCmd n).param 32 4) ((recvCmd n).param 40 8)
        ((recvCmd n).param 36 4) (some 0) false with | .ok _ => true | .error _ => false) = true) := by decide +kernel
def cnpPacket (dest : Nat) : RocePacket := { dest := dest, op := .cnp }
theorem test_meets_cnp : (cnpPacket 0x1FFFF).valid = true ∧ qpFind (rdmaState runCmd rtsQp) 0x1FFFF = some (0xFFFF, rtsQp)
    ∧ qpFind (rdmaState runCmd rtsQp) 5 = none ∧ rtsQp.state ≠ 0
    ∧ 999 < rtsQp.lastRise + 1000 * rfield (rdmaState runCmd rtsQp) .rdmaRateCfg 0 21 10
    ∧ rtsQp.lastRise + 1000 * rfield (rdmaState runCmd rtsQp) .rdmaRateCfg 0 21 10 ≤ 10 ^ 9 := by decide +kernel

/-! ### Steps: RDMA tables and queue pairs -/

/-- MR_REGISTER gives the key of sector 0, index 2 and variant 255 (R508). -/
theorem test_step_mrRegister : firstPhase (after (.mrRegister 0) (rdmaState (registerCmd 0 0 1))) 0 = some (.done 0 (255 + 2 * 256) 0) := by
  decide +kernel
/-- QP_CREATE gives the lowest QPN, 0x10000 (R499). -/
theorem test_step_qpCreate : firstPhase (after (.qpCreate 0) (rdmaState (qpNew 0 1 63))) 0 = some (.done 0 0x10000 0) := by decide +kernel
/-- QP_QUERY reads the state (R520). -/
theorem test_step_qpQuery : firstPhase (after (.qpQuery 0) (rdmaState (qpCmd 0x081A) { rtsQp with sqPsn := 2, rqPsn := 3, gear := 4, destQpn := 5 })) 0
    = some (.done 0 (3 + 2 * 256 + 3 * 2 ^ 32) (4 + 5 * 2 ^ 32)) := by decide +kernel

/-! ### Witnesses: RDMA packets -/

/-- A state with queue pair 0xFFFF, its port up and its address valid, and a region of 64 bytes with every right. -/
def wireState (q : Qp) : State :=
  let s := setEth 0 { up := 1 } (rput (rdmaState runCmd q) .ethAddrMac 0 0 (2 ^ 48))
  { s with rdma := { s.rdma with keys := [(0, { pd := 4095, len := 64, access := 31, iova := 8 })] } }
/-- A queue pair with every right, one receive, and the greatest expected PSN. -/
def rcQp : Qp := { pd := 4095, kind := 0, state := 2, access := 15, rqPsn := 2 ^ 24 - 1, destQpn := 0x10002, recvs := [{ serial := 1, lkey := 0, addr := 8, len := 64 }] }
def wirePacket (op : RoceOp) (psn : Nat := 2 ^ 24 - 1) (payload : List Byte := []) : RocePacket :=
  { dest := 0x1FFFF, psn := psn, op := op, payload := payload, misses := 2 }
def wired (s : State) (p : RocePacket) : State := bumpField s .rdmaCacheMisses 0 0 32 p.misses
theorem test_meets_dropped : (cnpPacket 0).valid = true ∧ qpFind (wireState rcQp) 0 = none
    ∧ qpFind (wireState { rcQp with state := 0 }) 0x1FFFF = some (0xFFFF, { rcQp with state := 0 })
    ∧ { wirePacket .ack with valid := false }.valid = false := by decide +kernel
theorem test_meets_comes : ∀ st ∈ [2, 3, 4], ∀ op ∈ [.send true true none, .write true true none 8 0 64, .readReq 8 0 64, .fetchAdd 8 0 1, .cmpSwap 64 0 1 2],
    Comes (wireState { rcQp with state := st }) (wired (wireState { rcQp with state := st }) (wirePacket op)) (wirePacket op) 0xFFFF { rcQp with state := st } := by
  decide +kernel
/-- Ahead of the expected PSN by least and most, and behind it by most and least. -/
theorem test_meets_psnAhead : rcQp.kind ≠ 1 ∧ rcQp.nakSent = false ∧ (∀ psn ∈ [0, 2 ^ 23 - 2], psnSub psn rcQp.rqPsn ≠ 0 ∧ psnSub psn rcQp.rqPsn < 2 ^ 23)
    ∧ (∀ psn ∈ [2 ^ 23 - 1, 2 ^ 24 - 2], 2 ^ 23 ≤ psnSub psn rcQp.rqPsn) ∧ psnSub (2 ^ 24 - 1) rcQp.rqPsn = 0 := by decide +kernel
/-- A UD queue pair: without a receive, and with a receive of 64 bytes that the packet fills with its header. -/
def udQp : Qp := { rcQp with kind := 1, qkey := 5 }
theorem test_meets_ud : (let p := { wirePacket (.send true true (some 7)) 0 (leBytes 24 9) with qkey := 5, source := 0xFFFFFF }
      let w := trustedWrite 0 (padTo 40 p.address ++ p.payload) (wired (wireState udQp) p)
      Comes (wireState udQp) (wired (wireState udQp) p) p 0xFFFF udQp ∧ udQp.kind = 1 ∧ udQp.recvs = { serial := 1, lkey := 0, addr := 8, len := 64 } :: []
      ∧ p.qkey = udQp.qkey ∧ (padTo 40 p.address ++ p.payload).length = 64
      ∧ keyCheck (wireState udQp) 0xFFFF udQp 0 8 64 (some 0) false = .ok (.device 0) ∧ w.1 = 0)
    ∧ (wirePacket (.send true true none)).qkey ≠ udQp.qkey := by decide +kernel
/-- In order: without a receive; one that fills its receive; a message of heat with three slots used. -/
theorem test_meets_sends : (let p := wirePacket (.send true true (some 7)) (2 ^ 24 - 1) (leBytes 64 9)
      let s1 := wired (wireState rcQp) p
      Comes (wireState rcQp) s1 p 0xFFFF rcQp ∧ rcQp.kind = 0 ∧ p.payload ≠ [] ∧ p.payload.length = 64
      ∧ keyCheck (wireState rcQp) 0xFFFF rcQp 0 8 64 (some 0) false = .ok (.device 0)
      ∧ (trustedWrite 0 p.payload (setQp 0xFFFF { rcQp with nakSent := false } s1)).1 = 0)
    ∧ (let q := { rcQp with recvs := [] }; Comes (wireState q) (wired (wireState q) (wirePacket .ack)) (wirePacket .ack) 0xFFFF q ∧ q.recvs = [])
    ∧ (let q := { rcQp with kind := 2, messages := [[], [], []] }
      Comes (wireState q) (wired (wireState q) (wirePacket .ack)) (wirePacket .ack) 0xFFFF q ∧ ingressUsed (wireState q) 0xFFFF q = 3) := by
  decide +kernel
/-- A WRITE and a READ of the whole region, and atomics at its last 8 bytes. -/
theorem test_meets_oneSided : (let p := wirePacket (.write true true none 8 0 64) (2 ^ 24 - 1) (leBytes 64 9)
      let s2 := setQp 0xFFFF { rcQp with nakSent := false } (wired (wireState rcQp) p)
      p.op = .write true true none 8 0 p.payload.length ∧ rcQp.access.testBit 2 = true
      ∧ keyCheck (wireState rcQp) 0xFFFF rcQp 0 8 64 (some 2) false = .ok (.device 0) ∧ (trustedWrite 0 p.payload s2).1 = 0)
    ∧ (let s2 := setQp 0xFFFF { rcQp with nakSent := false } (wired (wireState rcQp) (wirePacket .ack))
      rcQp.access.testBit 1 = true ∧ keyCheck (wireState rcQp) 0xFFFF rcQp 0 8 64 (some 1) false = .ok (.device 0)
      ∧ (∃ bs s3, faultyRead [] 0 64 s2 = (.ok bs, s3) ∧ bs.length ≤ rcQp.mtu)
      ∧ rcQp.access.testBit 3 = true ∧ keyCheck (wireState rcQp) 0xFFFF rcQp 0 64 8 (some 3) true = .ok (.device 56)
      ∧ (∃ bs s3, faultyRead [] 56 8 s2 = (.ok bs, s3) ∧ ∀ x ∈ [0, 2 ^ 64 - 1], (trustedWrite 56 (leBytes 8 x) s3).1 = 0)) := by
  refine ⟨by decide +kernel, by decide +kernel, by decide +kernel, ⟨_, _, rfl, by decide +kernel⟩, by decide +kernel, by decide +kernel, ⟨_, _, rfl, by decide +kernel⟩⟩
/-- A right that the queue pair does not grant, and a duplicate atomic that is saved or not. -/
theorem test_meets_denied : (∀ q ∈ [{ rcQp with kind := 2 }, { rcQp with access := 0 }], Comes (wireState q) (wired (wireState q) (wirePacket .ack)) (wirePacket .ack) 0xFFFF q
      ∧ q.kind ≠ 1 ∧ (q.kind = 2 ∨ q.access.testBit 2 = false) ∧ (q.kind = 2 ∨ q.access.testBit 1 = false) ∧ (q.kind = 2 ∨ q.access.testBit 3 = false))
    ∧ (let q := { rcQp with replay := [(5, 77)] }; let p := wirePacket (.fetchAdd 8 0 1) 5
      2 ^ 23 ≤ psnSub p.psn (2 ^ 23 + 5) ∧ Comes (wireState q) (wired (wireState q) p) p 0xFFFF q
      ∧ q.replay.find? (fun e => e.1 = p.psn) = some (5, 77) ∧ rcQp.replay.find? (fun e => e.1 = p.psn) = none) := by decide +kernel
/-- A queue pair with one post outstanding. -/
def postOf (op len : Nat) (addr : Nat := 8) : Post :=
  { serial := 1, params := overlay (overlay (overlay (padTo 128 []) 28 (leBytes 1 op)) 36 (leBytes 4 len)) 40 (leBytes 8 addr), sent := true, firstPsn := 2 ^ 24 - 1 }
def postQp (op len st : Nat) : Qp := { pd := 4095, state := st, destQpn := 0x10002, posts := [postOf op len], retryCnt := 1, rnrRetry := 1, ackTimeout := 31 }
theorem test_meets_responses : (∀ st ∈ [3, 4], ∀ op ∈ [0, 4, 5, 6], let q := postQp op 8 st; let s := wireState q; let p := wirePacket .ack (2 ^ 24 - 1) (leBytes 8 9)
      Comes s (wired s p) p 0xFFFF q ∧ q.posts = [postOf op 8] ∧ (postOf op 8).sent = true ∧ q.replies = [] ∧ (postOf op 8).op = op
      ∧ (postOf op 8).responds = decide (op ≠ 0) ∧ psnLe (psnAdd (postOf op 8).firstPsn ((postOf op 8).psns - 1)) p.psn = true
      ∧ (postOf op 8).got = 0 ∧ psnAdd (postOf op 8).firstPsn 0 = p.psn ∧ p.payload.length = (postOf op 8).len ∧ p.payload ≠ []
      ∧ keyCheck s 0xFFFF q ((postOf op 8).p 32 4) ((postOf op 8).p 40 8) (postOf op 8).len (some 0) false = .ok (.device 0)
      ∧ (trustedWrite 0 p.payload (setQp 0xFFFF q (wired s p))).1 = 0
      ∧ (postOf op 8).firstPsn = p.psn ∧ p.psn < 2 ^ 24 ∧ 1 ≤ (postOf op 8).psns ∧ (postOf op 8).psns ≤ 2 ^ 22 ∧ (postOf op 8).data = []
      ∧ q.retries < q.retryCnt ∧ q.rnrs < q.rnrRetry ∧ heldClass s q.sector 4 = false ∧ q.recvs = [] ∧ q.ackTimeout ≠ 0 ∧ q.rnrWait = false
      ∧ qpFind s 0x1FFFF = some (0xFFFF, q))
    ∧ (let q := { postQp 0 8 3 with rnrWait := true }; q.rnrWait = true ∧ heldClass (wireState q) q.sector 4 = false)
    ∧ (let q := { postQp 0 8 3 with retries := 1 }; q.retryCnt ≤ q.retries) := by decide +kernel

/-! ### Witnesses: sealed mode -/

/-- A package in or out of sealed mode, its link up, sector 0 with keys or without, and windows. -/
def sealState (c : Cmd) (on : Bool) (ws : Table Window) : State :=
  let s := ready c { whole with pci := { whole.pci with linkUp := true }, sealing := { whole.sealing with sealed := on } }
  setSeal s 0 { sealOf s 0 with h2d := some (leBytes 36 1), d2h := some (leBytes 36 2), windows := ws }
/-- Fifteen windows of one slot each, and their areas apart. -/
def fifteen : Table Window := (List.range 15).map (fun i => (i, { dataBase := 8192 * i, tagBase := 8192 * i + 4096, slots := 1 }))
def windowCmd (slots : Nat) : Cmd := cmd 0x0A02 [(24, 8, 2 ^ 40), (32, 8, 2 ^ 41), (40, 4, slots), (44, 1, 1)]
theorem test_meets_windowAdd : ∀ slots ∈ [1, 65521], let c := windowCmd slots; let s := sealState c true fifteen
    let w : Window := { d2h := c.param 44 1 = 1, dataBase := c.param 24 8, tagBase := c.param 32 8, slots := c.param 40 4 }
    Begins s 0 0x0A02 c ∧ c.reserved [(45, 64)] = true ∧ c.param 44 1 ≤ 1 ∧ w.dataBase % 4096 = 0 ∧ w.tagBase % 4096 = 0 ∧ w.slots = slots
      ∧ (w.dataBase + 4096 * w.slots ≤ w.tagBase ∨ w.tagBase + 32 * w.slots ≤ w.dataBase)
      ∧ (∀ e ∈ (sealOf s 0).windows, ∀ x ∈ w.areas, ∀ y ∈ e.2.areas, overlaps x.1 x.2 y.1 y.2 = false)
      ∧ s.sealing.sealed = true ∧ (sealOf s 0).h2d.isSome = true ∧ Table.firstFree (sealOf s 0).windows 0 16 = some 15
      ∧ ((sealOf s 0).windows.map (fun e => e.2.slots)).sum + w.slots ≤ 65536 := by decide +kernel
def removeCmd (k : Nat) : Cmd := cmd 0x0A10 [(24, 1, k)]
theorem test_meets_windowRemove : ∀ k ∈ [0, 15], let w : Window := { dataBase := 2 ^ 40, tagBase := 2 ^ 41, slots := 65536 }
    let c := removeCmd k; let s := sealState c true [(k, w)]
    Begins s 0 0x0A10 c ∧ c.reserved [(25, 64)] = true ∧ c.param 24 1 = k ∧ s.sealing.sealed = true ∧ (sealOf s 0).h2d.isSome = true
      ∧ Table.find (sealOf s 0).windows k = some w ∧ ringInWindow s 0 w = false := by decide +kernel
def reportCmd : Cmd := cmd 0x0A01 [(24, 8, 4096), (32, 8, 7)] 2
def certCmd (slot n : Nat) : Cmd := cmd 0x0A14 [(24, 1, slot), (40, 4, n)]
theorem test_meets_attest : (let s := sealState reportCmd false []
      Begins s 0 0x0A01 reportCmd ∧ reportCmd.reserved [(112, 128)] = true ∧ reportCmd.param 24 8 = 4096 ∧ s.sealing.sealed = false
      ∧ s.pci.linkUp = true ∧ s.top.identBad = 0)
    ∧ ∀ g ∈ [(0, 0), (1, 65536)], let c := certCmd g.1 g.2; let s := sealState c false []
      Begins s 0 0x0A14 c ∧ c.reserved [(25, 32), (44, 64)] = true ∧ c.param 24 1 = g.1 ∧ c.param 32 8 % 4096 = 0 ∧ c.param 40 4 = g.2
        ∧ s.sealing.sealed = false ∧ s.pci.linkUp = true := by decide +kernel
def opkeyCmd (op h : Nat) : Cmd := cmd op [(24, 8, h), (32, 1, if op = 0x0A11 then 255 else 0)]
theorem test_meets_opkeys : (∀ h ∈ [1, 2 ^ 64 - 1], let c := opkeyCmd 0x0A11 h; let s := sealState c false []
      Begins s 0 0x0A11 c ∧ c.reserved [(33, 40), (48, 64)] = true ∧ c.param 24 8 = h ∧ c.param 40 8 % 4096 = 0 ∧ s.sealing.sealed = false
        ∧ s.sealing.opkeys.length < 64)
    ∧ (let c := opkeyCmd 0x0A12 9; let t := sealState c false []
      let s := { t with sealing := { t.sealing with opkeys := [(9, {})] } }
      Begins s 0 0x0A12 c ∧ c.reserved [(32, 64)] = true ∧ c.param 24 8 = 9 ∧ (Table.find s.sealing.opkeys 9).isSome = true
        ∧ s.heat.slots = []) := by decide +kernel
def sealArmCmd : Cmd := cmd 0x0A13 []
def sealArmState : State := { ready sealArmCmd whole with sct := { whole.sct with sectors := [(0, { state := .active })] } }
theorem test_meets_sealArm : Begins sealArmState 0 0x0A13 sealArmCmd ∧ sealArmCmd.reserved [(24, 64)] = true
    ∧ (∀ e ∈ sealArmState.sct.sectors, e.1 ≠ 0 → e.2.state = .undefined) ∧ sealArmState.heat.slots = [] ∧ pairFormed sealArmState = false
    ∧ sealArmState.rng.raw = false ∧ sealArmState.mover = [] ∧ sealArmState.sealing.sealed = false ∧ sealArmState.sealing.armed = false
    ∧ sealArmState.top.identBad = 0 := by decide +kernel

/-! ### Steps: sealed mode -/

/-- BOUNCE_WINDOW_ADD gives the lowest free window (R735). -/
theorem test_step_windowAdd : firstPhase (after (.bounceWindowAdd 0) (sealState (windowCmd 1) true (Table.drop fifteen 1))) 0 = some (.done 0 1 0) := by
  decide +kernel
/-- SEAL_ARM sets ARMED (R702). -/
theorem test_step_sealArm : (after (.sealArm 0) sealArmState).sealing.armed = true := by decide +kernel
/-- JTAG in sealed mode shifts as BYPASS: one bit late (R707). -/
theorem test_step_jtag : same (.jtagAccess (.other 3) 5) (sealState sealArmCmd true []) (emit (.jtag 10) (sealState sealArmCmd true [])) = true := by
  decide +kernel

/-! ### Witnesses: SPDM -/

/-- A package whose mailbox `p` holds a request, after some of the negotiation; sector 0 has the session, if any. -/
def boxState (p : Nat) (m : List Byte) (neg : Nat := 3) (x : Option Session := none) : State :=
  let s := rput whole .sealMboxCtrl p 0 (1 + m.length * 2 ^ 16)
  setSeal (setMailbox p { req := m, negotiated := neg, handle := 255, chunkOut := if p = 8 then [] else leBytes 16368 5 } s) 0
    { session := x, h2d := some [], windows := [(0, {})] }
/-- A message of version 1.3: its code, two parameters, and more. -/
def spdmMsg (code p1 p2 : Nat) (more : List Byte := []) : List Byte := leBytes 1 0x13 ++ leBytes 1 code ++ leBytes 1 p1 ++ leBytes 1 p2 ++ more
theorem test_meets_asked : (∀ p ∈ [0, 8], ∀ neg ∈ [0, 1, 2, 3], ∀ m ∈ [spdmMsg 0x84 0 0, spdmMsg 0xE1 0 0, spdmMsg 0xE3 0 0 (leBytes 28 0), spdmMsg 0x81 0 0,
        spdmMsg 0x82 240 0 (leBytes 4 0xFFFFFFFF), spdmMsg 0x83 0 255 (leBytes 40 7), spdmMsg 0xE0 0 255 (leBytes 8 1)],
      Asked (boxState p m neg) p [] m ∧ sessionAt (boxState p m neg) p = none ∧ (mailboxOf (boxState p m neg) p).negotiated = neg
        ∧ fieldLE m 0 1 = 0x13 ∧ rowOf p m = some (reqCode m))
    ∧ (∀ p ∈ [9, 10], ∀ m ∈ [spdmMsg 0xE4 0 0, spdmMsg 0xFE 0 0, spdmMsg 0x84 0 0], Asked whole p m m ∧ sessionAt whole p = none
        ∧ openCodes.contains (reqCode m) = decide (reqCode m = 0x84)) := by decide +kernel
theorem test_meets_chunks : (∀ seq ∈ [0, 65535], let m := spdmMsg 0x85 0 0xFF (leBytes 2 seq ++ leBytes 2 0 ++ leBytes 4 4 ++ leBytes 8 9)
      Asked (boxState 0 m) 0 [] m ∧ fieldLE m 0 1 = 0x13 ∧ reqCode m = 0x85 ∧ (fieldLE m 2 1).testBit 0 = false ∧ fieldLE m 4 2 = seq)
    ∧ (let m := spdmMsg 0x86 0 255 (leBytes 2 0); let b := mailboxOf (boxState 0 m) 0
      Asked (boxState 0 m) 0 [] m ∧ reqCode m = 0x86 ∧ fieldLE m 4 2 = 0 ∧ fieldLE m 3 1 = b.handle ∧ b.chunkOut ≠ []
      ∧ b.chunkOut.length = 16368)
    ∧ (let m := spdmMsg 0xFE 0 0 (leBytes 2 3 ++ leBytes 1 2 ++ leBytes 2 0x1E5B ++ leBytes 2 7 ++ leBytes 1 4 ++ leBytes 4 1 ++ leBytes 2 65535)
      Asked (boxState 0 m) 0 [] m ∧ fieldLE m 0 1 = 0x13 ∧ rowOf 0 m = some 0x104) := by decide +kernel
/-- KEY_EXCHANGE in mailbox 1, whose sector has no session, and in mailbox 1 after mailbox 0 has made it. -/
def exchangeMsg : List Byte := spdmMsg 0xE4 0 0 (leBytes 2 7 ++ leBytes 34 0 ++ leBytes 96 1)
theorem test_meets_keyExchange : (let s := boxState 1 exchangeMsg
      Asked s 1 [] exchangeMsg ∧ sessionAt s 1 = none ∧ reqCode exchangeMsg = 0xE4 ∧ fieldLE exchangeMsg 0 1 = 0x13
      ∧ (sealOf s (mailboxSector 1)).session = none ∧ 3 ≤ (mailboxOf s 1).negotiated ∧ fieldLE exchangeMsg 3 1 = 0)
    ∧ (let s := boxState 1 exchangeMsg 3 (some { mailbox := 0, id := 1 })
      Asked s 1 [] exchangeMsg ∧ sessionAt s 1 = none ∧ (sealOf s (mailboxSector 1)).session.isSome = true) := by decide +kernel
/-- A session of mailbox 0 and a record that begins with its identifier. Whether it opens is the cipher's: the messages below stand for
what it opens to. -/
def openSession (done : Bool) (kem : Option (List Byte)) (kemDone : Bool := false) : Session :=
  { mailbox := 0, id := 0x12345678, finished := done, kemSeed := kem, kemDone := kemDone, reqSecret := leBytes 48 5 }
def record : List Byte := leBytes 4 0x12345678 ++ leBytes 2 40 ++ leBytes 40 9
theorem test_meets_session : ∀ done ∈ [false, true], ∀ kem ∈ [none, some [1]], ∀ kd ∈ [false, true], let x := openSession done kem kd
    let s := boxState 0 record 3 (some x)
    Asked s 0 [] record ∧ sessionAt s 0 = some x ∧ fieldLE record 0 4 = x.id ∧ 4 ≤ record.length ∧ x.finished = done ∧ x.kemSeed = kem
      ∧ x.kemDone = kd ∧ (∀ e ∈ s.rings.table, e.1 / 64 = mailboxSector 0 → e.2.state = .disabled) := by decide +kernel
/-- A vendor message of the manual, and of IDE_KM. -/
def vendorMsg (vendor : Nat) (payload : List Byte) : List Byte :=
  spdmMsg 0xFE 0 0 (leBytes 2 3 ++ leBytes 1 2 ++ leBytes 2 vendor ++ leBytes 2 payload.length ++ payload)
theorem test_meets_sessionRows : (∀ e ∈ [(spdmMsg 0xE5 0 0 (leBytes 48 1), 0xE5), (spdmMsg 0xE8 0 0, 0xE8), (spdmMsg 0xE9 1 9, 0xE9), (spdmMsg 0xE9 2 9, 0xE9),
      (spdmMsg 0xE9 3 9, 0xE9), (spdmMsg 0xEC 0 0, 0xEC), (vendorMsg 0x1E5B [1], 0x101)],
      rowOf 0 e.1 = some e.2 ∧ fieldLE e.1 0 1 = 0x13)
    ∧ (let m := vendorMsg 0x1E5B (leBytes 1 2 ++ leBytes 1088 3); rowOf 0 m = some 0x102 ∧ ((vendorOf m).2.2.drop 1).length = 1088)
    ∧ (∀ obj ∈ [2, 5], let m := vendorMsg 1 (leBytes 1 0 ++ leBytes 1 obj ++ leBytes 46 1); rowOf 0 m = some 0x200 ∧ fieldLE (vendorOf m).2.2 1 1 = obj) := by
  decide +kernel
/-- A VD_COMMAND of one unit of CERT_READ, of eight units, and of another class. -/
def vdMsg (op units : Nat) : List Byte := vendorMsg 0x1E5B (leBytes 1 3 ++ packet op units [])
theorem test_meets_vdCommand : (∀ e ∈ [(0x0A14, 1), (0x0A01, 8), (0x0001, 1)], let m := vdMsg e.1 e.2; let body := (vendorOf m).2.2.drop 1
      rowOf 0 m = some 0x103 ∧ fieldLE m 0 1 = 0x13 ∧ 64 ≤ body.length ∧ body.length ≤ 512 ∧ fieldLE body 3 1 = e.2 ∧ body.length = 64 * e.2)
    ∧ (∀ on ∈ [false, true], let m := vdMsg 0x0A10 1; let body := (vendorOf m).2.2.drop 1
      let s := { boxState 0 record 3 (some (openSession true (some []) true)) with sealing :=
        { (boxState 0 record 3 (some (openSession true (some []) true))).sealing with sealed := on } }
      let c : Cmd := { ring := 0, bytes := padTo (64 * min 8 (max 1 1)) body, fn := mailboxFn 0 }
      c.opcode = 0x0A10 ∧ headerCheck 0 2 c s = none ∧ c.notBefore ≤ s.cad.stroke ∧ c.lockstep = false ∧ commandGate s c.opcode = none
      ∧ (match vendorBody .error c s with | .error e => e.status | _ => 0) = (if on then 0 else 0x0401))
    ∧ (let m := vdMsg 0x0001 1; (Cmd.opcode { ring := 0, bytes := padTo 64 ((vendorOf m).2.2.drop 1), fn := mailboxFn 0 }) / 256 ≠ 0x0A) := by
  decide +kernel

/-! ### Steps: SPDM -/

/-- GET_VERSION: DONE is set, GO is clear, the response is 8 bytes. -/
theorem test_step_getVersion : rget (after (.getVersion 0 []) (boxState 0 (spdmMsg 0x84 0 0))) .sealMboxCtrl 0 = 2 + 4 * 2 ^ 16 + 8 * 2 ^ 32 := by
  decide +kernel
/-- A request of a session outside of it is unsupported over MCTP (R720). -/
theorem test_step_mctp : (after (.finish 9 (spdmMsg 0xE5 0 0)) whole).out.length = whole.out.length + 1 := by decide +kernel

/-! ### Witnesses: chord -/

def linkCmd (k act : Nat) : Cmd := cmd 0x0910 [(24, 1, k), (25, 1, act)]
/-- A command that begins, and link `k`. -/
def chordState (c : Cmd) (k : Nat) (l : Link) : State := setLink k l (ready c whole)
theorem test_meets_chordRegs : (let c := cmd 0x0911 [(24, 1, 63), (26, 2, 4095)]
      Begins (ready c whole) 0 0x0911 c ∧ c.reserved [(25, 26), (28, 64)] = true ∧ c.param 24 1 = 63 ∧ c.param 26 2 = 4095 ∧ whole.chord.unsent = [])
    ∧ (let c := cmd 0x0912 [(24, 1, 7), (25, 1, 15), (32, 8, 2 ^ 64 - 1), (40, 8, 2 ^ 64 - 1)]
      Begins (ready c whole) 0 0x0912 c ∧ c.reserved [(26, 32), (48, 64)] = true ∧ c.param 24 1 = 7 ∧ c.param 25 1 = 15) := by decide +kernel
theorem test_meets_chordLink : ∀ k ∈ [0, 9], (∀ st ∈ [LinkState.up, .ident, .retrain, .training], let c := linkCmd k 0
      let s := chordState c k { state := st, epoch := 2 ^ 32 - 1 }
      Begins s 0 0x0910 c ∧ c.reserved [(26, 64)] = true ∧ c.param 24 1 = k ∧ c.param 25 1 = 0 ∧ (linkOf s k).state = st ∧ st ≠ .down
        ∧ (linkOf s k).bist = none ∧ s.chord.transfers = [] ∧ s.chord.folds = [] ∧ s.chord.tree = [])
    ∧ ∀ act ∈ [1, 2], let c := linkCmd k act; let s := chordState c k {}
      Begins s 0 0x0910 c ∧ c.reserved [(26, 64)] = true ∧ c.param 25 1 = act ∧ (linkOf s k).state = .down ∧ linkAvail s k = true := by
  decide +kernel
def linked (k : Nat) (l : Link) : State := setLink k l (rput (ready runCmd whole) .chdPodMembers 0 0 (2 ^ 63))
def peerIdent (pkg : Nat) : IdentInfo := { pkg := pkg, link := 9 }
theorem test_meets_linkStates : (∀ l ∈ ([{ state := .up }, { state := .retrain }, { state := .training }, { state := .training, bist := some 1 },
        { state := .ident, trained := true }] : List Link), linkOf (linked 9 l) 9 = l ∧ l.spareUsed = false ∧ l.txWait = []
          ∧ (linked 9 l).chord.transfers = [] ∧ (linked 9 l).chord.folds = [] ∧ (linked 9 l).chord.tree = [] ∧ (linked 9 l).chord.unsent = []
          ∧ (linked 9 l).sealing.sealed = false)
    ∧ identRefused (linked 9 { state := .ident, trained := true }) 9 (peerIdent 63) = none
    ∧ identRefused (linked 9 { state := .ident, trained := true }) 9 (peerIdent 62) = some 2 := by decide +kernel
/-- A flit of a kind that acknowledges, or does not acknowledge, the one outstanding; good, or with its check broken. -/
def flitOf (kind seq ack : Nat) (bad : Bool) : List Byte :=
  let f := sealFlit [] 1 0 (leBytes 2 seq ++ leBytes 2 ack ++ leBytes 1 kind ++ leBytes 1 255 ++ leBytes 2 0) (leBytes 240 9)
  if bad then 255 :: f.drop 1 else f
def upLink (nak : Bool) : Link := { state := .up, rxCount := 65536 + 7, txCount := 5, replay := [leBytes 240 3], nakSent := nak }
set_option maxRecDepth 20000 in
theorem test_meets_flits : (∀ nak : Bool, let l := upLink nak
      linkOf (linked 9 l) 9 = l ∧ l.state = .up ∧ l.txWait = [] ∧ l.naks = 0 ∧ l.replay = [leBytes 240 3])
    ∧ (∀ kind ∈ [0, 1, 2], fieldLE (flitOf kind 7 4 false) 4 1 = kind) ∧ fieldLE (flitOf 1 7 4 false) 0 2 = (upLink false).rxCount % 65536
    ∧ (openFlit [] 0 65543 (flitOf 1 7 4 false)).isSome = true ∧ openFlit [] 0 65543 (7 :: flitOf 1 7 4 true) = none
    ∧ (∀ kind ∈ [0, 2], (openFlit [] 1 0 (flitOf kind 0 3 false)).isSome = true) := by decide +kernel
/-- CHORD_XFER of 64 bytes of an operation to package 63, and of its state: link 9 is UP and routes to it. -/
def xferCmd (op et : Nat) : Cmd := cmd 0x0913 [(24, 8, 64), (32, 8, 63 * 2 ^ 46 + 128), (40, 8, 64), (48, 1, op), (49, 1, et)]
def routed (c : Cmd) (l : Link := {}) : State :=
  let s := linked 9 { l with state := .up, credits := 2048 }
  rput { setRing s 0 { state := .active, inflight := [c] } with sct := { s.sct with hbm := [(0, 0)] } } .chdRoute 63 0 512
theorem test_meets_chordXfer : ∀ e ∈ [(0, 7), (1, 0), (2, 4)], let c := xferCmd e.1 e.2; let s := routed c
    Begins s 0 0x0913 c ∧ c.reserved [(51, 64)] = true ∧ c.param 24 8 = 64 ∧ c.param 40 8 = 64 ∧ c.param 50 1 = 0 ∧ ownsFree s 0 64 64 = true
      ∧ c.param 32 8 = 63 * 2 ^ 46 + 128 ∧ c.param 48 1 = e.1 ∧ c.param 49 1 = e.2 ∧ bitsOf (63 * 2 ^ 46 + 128) 46 6 ≠ pkgNumber s
      ∧ s.chord.lastStream = 0 ∧ Table.find s.chord.transfers 1 = none ∧ routeLink s 63 1 = some 9
      ∧ (let x : Transfer := { serial := 1, sector := 0, op := e.1, etype := e.2, compress := false, localAddr := 64, remote := 63 * 2 ^ 46 + 128, bytes := 64 }
         let s1 := setPhase 1 .running (setTransfer 1 x { s with chord := { s.chord with lastStream := 1 } })
         (match (if e.1 = 1 then (.ok [], s1) else trustedRead 64 64 s1) with
          | (.ok _, s2) => decide (s2.chord = s1.chord) && decide (s2.regs = s1.regs)
          | _ => false) = true) := by decide +kernel
def foldCmd (role : Nat) : Cmd :=
  cmd 0x0914 [(24, 8, 64), (32, 8, if role = 2 then 128 else 0), (40, 8, 64), (48, 1, role), (49, 1, 4), (51, 1, if role = 1 then 63 else 0),
    (52, 4, 2 ^ 32 - 1), (56, 1, 63)]
theorem test_meets_chordFold : ∀ role ∈ [1, 2], let c := foldCmd role; let s := routed c
    Begins s 0 0x0914 c ∧ c.reserved [(57, 64)] = true ∧ c.param 24 8 = 64 ∧ c.param 40 8 = 64 ∧ c.param 50 1 = 0 ∧ ownsFree s 0 64 64 = true
      ∧ c.param 49 1 = 4 ∧ c.param 52 4 = 2 ^ 32 - 1 ∧ c.param 48 1 = role ∧ c.param 56 1 = 63 ∧ 63 ≠ pkgNumber s ∧ s.chord.folds = []
      ∧ Table.firstFree s.chord.folds 0 64 = some 0
      ∧ (role = 2 ∧ c.param 32 8 = 128 ∧ ownsFree s 0 128 64 = true ∧ c.param 51 1 = 0
        ∨ role = 1 ∧ c.param 32 8 = 0 ∧ c.param 51 1 = 63 ∧ (routeLink s 63 (2 ^ 32 - 1)).isSome = true) := by decide +kernel
/-- A packet of 64 bytes from package 63 at the head of link 9, and a state that allows it and waits for its answer. -/
def pkt (typ : Nat) (dest : Nat := 64) (f : Packet → Packet := id) : Packet :=
  f { typ := typ, srcPkg := 63, etype := 0, dest := dest, stream := 1, decoded := 64, payload := if typ = 1 ∨ 3 ≤ typ ∧ typ ≤ 5 then leBytes 64 9 else [] }
def waitingFor (op : Nat) : Transfer :=
  { serial := 1, sector := 0, op := op, etype := 0, compress := false, localAddr := 64, remote := 63 * 2 ^ 46, bytes := 64 }
def tailFold : Fold :=
  { serial := 1, sector := 0, role := 2, stream := 1, etype := 0, compress := false, localAddr := 64, dest := 128, bytes := 64, next := 0, prev := 63 }
/-- A window of sector 0 that begins at 0, with the rights given, for sector 0 of package 63. -/
def arrived (p : Packet) (op : Nat) (rights : Nat := 0x1F) : State :=
  let s := routed runCmd { rx := p.header ++ p.payload }
  let s := rput (rput s .chdAclSrc 0 15 (2 ^ 63)) .chdAclWin 0 15 (rights + 2 ^ 5 + 2 ^ 38)
  { s with chord := { s.chord with transfers := [(1, waitingFor op)], folds := [(63, tailFold)] } }
set_option maxRecDepth 20000 in
theorem test_meets_packets : ∀ typ ∈ [1, 2, 3, 4, 5, 6, 7], ∀ dest ∈ [64, 63 * 2 ^ 46], ∀ hops ∈ [0, 255],
    ((takePacket 9 typ [] (arrived (pkt typ dest (fun p => { p with hops := hops })) 0)).map (fun x =>
      (x.1.hops, bitsOf x.1.dest 46 6, pkgNumber x.2, routeLink x.2 63 1, x.1.srcSector))) = some (hops, dest / 2 ^ 46, 0, some 9, 0) := by
  decide +kernel
set_option maxRecDepth 20000 in
theorem test_meets_memoryPackets : (∀ e ∈ [(1, 1), (2, 2), (4, 3)], ∀ ok : Bool,
      ((takePacket 9 e.1 [] (arrived (pkt e.1) 0 (if ok then 0x1F else 1))).map (fun x =>
        (aclAllows x.2 x.1 e.2 x.1.decoded, wasApplied x.1 x.2, x.1.etype, e.1 == 2 || decodedOf x.1 == some (leBytes 64 9)))) = some (ok, false, 0, true))
    ∧ ((takePacket 9 2 [] (arrived (pkt 2) 0)).map (fun x => (faultyRead [] (x.1.dest % 2 ^ 46) x.1.decoded x.2).1.toOption)) = some (some (leBytes 64 0)) := by
  decide +kernel
set_option maxRecDepth 20000 in
theorem test_meets_answers : ∀ e ∈ [(3, 1), (6, 0), (6, 2), (7, 0)], ((takePacket 9 e.1 [] (arrived (pkt e.1) e.2)).map (fun x =>
      let w := waitingFor e.2
      (Table.find x.2.chord.transfers x.1.stream == some w && x.1.srcPkg == bitsOf w.remote 46 6 && w.open.contains x.1.chunk
        && (e.1 != 3 || x.1.payload.length == chunkLen w.bytes x.1.chunk && (trustedWrite w.localAddr x.1.payload x.2).1 == 0)
        && (foldAnswered x.1 x.2).isNone && w.refused == [] && chunkCount w.bytes == 1 && w.acked == []))) = some true := by decide +kernel
set_option maxRecDepth 20000 in
theorem test_meets_tail : ((takePacket 9 5 [] (arrived (pkt 5) 0)).map (fun x => let p := x.1; let f := tailFold
      (wasApplied p x.2 == false && x.2.chord.folds.find? (fun e => e.2.stream = p.stream) == some (63, f)
        && windowGrants x.2 f.sector 4 p.srcPkg p.srcSector f.localAddr f.bytes && decide (p.chunk < chunkCount f.bytes)
        && p.decoded == chunkLen f.bytes p.chunk && p.etype == f.etype && p.poison == [] && decodedOf p == some (leBytes 64 9)
        && (ownLines [] (p.decoded / 64) 0 (f.localAddr + p.chunk * 65536) x.2).1 == (leBytes 64 0, [], 0)))) = some true := by decide +kernel
/-- A member of a fold with one chunk refused RETRY_BUSY, or with chunks that have not come. -/
def memberFold (busy : List Nat) : Fold :=
  { tailFold with role := 1, dest := 0, next := 63, busy := busy, waiting := [(0, pkt 5 (63 * 2 ^ 46))], written := if busy = [] then [] else [0] }
theorem test_meets_foldWait : ∀ busy ∈ [[], [0]], let s := { routed runCmd with chord := { (routed runCmd).chord with folds := [(63, memberFold busy)] } }
    Table.find s.chord.folds 63 = some (memberFold busy) ∧ (memberFold busy).busy = busy ∧ Table.find (memberFold busy).waiting 0 = some (pkt 5 (63 * 2 ^ 46))
      ∧ (pkt 5 (63 * 2 ^ 46)).chunk = 0 ∧ routeLink s (bitsOf (63 * 2 ^ 46) 46 6) (pkt 5).stream = some 9
      ∧ (busy ≠ [] ∨ ((memberFold busy).role ≠ 0 ∧ (memberFold busy).written.length < chunkCount (memberFold busy).bytes)) := by decide +kernel

/-! ### Steps: chord -/

/-- CHORD_XFER sends one chunk and counts its 96 bytes (R584, 19 R925). -/
theorem test_step_xfer : rget (after (.chordXfer 0) (routed (xferCmd 0 7))) .chdTxDecoded 9 = 96 := by decide +kernel
/-- A WRITE that the access list refuses is counted (R572). -/
theorem test_step_acl : rget (after (.write 9) (arrived (pkt 1) 0 1)) .chdAclRefused % 2 ^ 32 = 1 := by decide +kernel
/-- An ACK of the last chunk completes the transfer with the chunks acknowledged (R587). -/
theorem test_step_ack : firstPhase (after (.ack 9) (arrived (pkt 6) 0)) 0 = some (.done 0 1 0) := by decide +kernel
/-- RETRAIN_TIMEOUT takes a link DOWN, which ends its epoch (R565). -/
theorem test_step_retrainTimeout : (linkOf (after (.retrainTimeout 9) (linked 9 { state := .retrain, epoch := 2 ^ 32 - 1 })) 9)
    = { cause := 4 } := by decide +kernel

end Sys2Proof.Tests
end

/-! # Register accesses

The bus serves an aligned access of an awake package by one register, whose access codes say what is stored and returned; any other access
below the doorbell window is recorded (O8, O9). -/
namespace Sys2Proof.Machine

/-! ### Bits of a software write (00 R10) -/

theorem and_mod_two (a m : Nat) : (a &&& m) % 2 = a % 2 * (m % 2) := by
  rw [← pow_one 2, Nat.and_mod_two_pow, pow_one]
  rcases Nat.mod_two_eq_zero_or_one a with h | h <;> rcases Nat.mod_two_eq_zero_or_one m with h' | h' <;> rw [h, h'] <;> rfl

/-- Taking a number's bits under a mask away clears those bits and no other. -/
theorem testBit_sub_and (k : Nat) : ∀ a m : Nat, (a - (a &&& m)).testBit k = (a.testBit k && !m.testBit k) := by
  induction k with
  | zero =>
    intro a m
    have hle : a &&& m ≤ a := Nat.and_le_left
    have hm := and_mod_two a m
    rcases Nat.mod_two_eq_zero_or_one a with h | h <;> rcases Nat.mod_two_eq_zero_or_one m with h' | h' <;>
      simp only [h, h'] at hm <;> simp [Nat.testBit_zero, h, h'] <;> omega
  | succ k ih =>
    intro a m
    have hhalf : (a - (a &&& m)) / 2 = a / 2 - (a / 2 &&& m / 2) := by
      have hle : a &&& m ≤ a := Nat.and_le_left
      have hpar : (a &&& m) % 2 ≤ a % 2 := by
        rw [and_mod_two]
        exact mul_le_of_le_one_right (Nat.zero_le _) (Nat.lt_succ_iff.mp (Nat.mod_lt m two_pos))
      rw [← Nat.and_div_two]
      omega
    simp only [Nat.testBit_succ, hhalf, ih]

/-- A software write of a register without W1C and W1S bits: the RW bits of the access take the written value, and the others stay. -/
theorem accessWrite_testBit {k : RegInfo} (h1 : k.w1c = 0) (h2 : k.w1s = 0) (mask old v b : Nat) :
    (accessWrite k mask old v).testBit b = if (k.rw &&& mask).testBit b then v.testBit b else old.testBit b := by
  simp only [accessWrite, h1, h2, Nat.and_zero, Nat.zero_and, Nat.sub_zero, Nat.or_zero, Nat.testBit_or, testBit_sub_and, Nat.testBit_and]
  cases k.rw.testBit b <;> cases mask.testBit b <;> simp

/-! ### One access of one register through the physical function -/

variable {s : State}

theorem busAwake_of_awake (h : Awake s) : busAwake s = true := by
  obtain ⟨hp, ht, -⟩ := h
  simp [busAwake, hp, ht]

theorem blockOpen_of_awake (h : Awake s) (off : Nat) : blockOpen s off = true := by
  obtain ⟨-, -, hb, hh, hs⟩ := h
  simp [blockOpen, hb, hh, hs]

/-- An access that one register serves: aligned, below the doorbell window, in the register's first byte, and not half of a wider one. -/
def serves (r : Reg) (size : Nat) : Bool :=
  alignedAccess (r.offset 0 0) size && decide (r.offset 0 0 < 2 ^ 26) && decide (placeOf .pf (r.offset 0 0) = .register r 0 0 0)
    && (decide (size = 4) || joint .pf (r.offset 0 0))

/-- A write of the physical function that one register serves is that register's. -/
theorem writeRegister_serves (ha : Awake s) {r : Reg} {size : Nat} (hr : serves r size = true) (v : Nat) :
    writeRegister .pf (r.offset 0 0) size v s = writeReg .pf r 0 0 0 size v s := by
  simp only [serves, Bool.and_eq_true, Bool.or_eq_true, decide_eq_true_eq] at hr
  obtain ⟨⟨⟨hal, hlt⟩, hpl⟩, hone⟩ := hr
  have hj : (size = 4 || joint .pf (r.offset 0 0)) = true := by simpa using hone
  simp only [writeRegister, busAwake_of_awake ha, Bool.not_true, Bool.false_eq_true, if_false, if_neg (Nat.not_le.mpr hlt), hal, hj, if_true,
    writeUnit, blockOpen_of_awake ha, hpl, admits, writePlace]

/-- A read of the physical function that one register serves is that register's. -/
theorem readRegister_serves (ha : Awake s) {r : Reg} {size : Nat} (hr : serves r size = true) :
    readRegister .pf (r.offset 0 0) size s = reply (readReg .pf r 0 0 0 size s).1 (readReg .pf r 0 0 0 size s).2 := by
  simp only [serves, Bool.and_eq_true, Bool.or_eq_true, decide_eq_true_eq] at hr
  obtain ⟨⟨⟨hal, hlt⟩, hpl⟩, hone⟩ := hr
  have hj : (size = 4 || joint .pf (r.offset 0 0)) = true := by simpa using hone
  simp only [readRegister, busAwake_of_awake ha, Bool.not_true, Bool.false_eq_true, if_false, if_neg (Nat.not_le.mpr hlt), hal, hj, if_true,
    readUnit, blockOpen_of_awake ha, hpl, admits, readPlace]

theorem rw_registers_serve : ∀ r ∈ [Reg.cadPpsSeconds, .cadLogQueue, .chdPodMembers, .sealCfg], serves r r.info.bytes = true := by decide +kernel
theorem ro_registers_serve : ∀ r ∈ [Reg.cadStroke, .topPkgSerial], serves r 8 = true := by decide +kernel
theorem rc_registers_serve : ∀ r ∈ [Reg.cadStateChanges, .memCeCount, .pciFiltered, .errCorrected], serves r 4 = true := by decide +kernel

/-- A full write of a register with no rule of its own stores what its access codes make of the written bits. -/
theorem writeReg_plain {r : Reg} (hr : r ∈ [Reg.cadPpsSeconds, .cadLogQueue, .chdPodMembers, .sealCfg]) (v : Nat) :
    writeReg .pf r 0 0 0 r.info.bytes v s
      = rput s r 0 0 (accessWrite r.info (2 ^ (8 * r.info.bytes) - 1) (rget s r) (v % 2 ^ (8 * r.info.bytes) * 1)) := by
  simp only [List.mem_cons, List.not_mem_nil, or_false] at hr
  rcases hr with rfl | rfl | rfl | rfl <;> rfl

/-- A write of a register whose bits are all RO takes nothing. -/
theorem writeReg_readOnly {r : Reg} (hr : r ∈ [Reg.cadStroke, .topPkgSerial]) (v : Nat) : writeReg .pf r 0 0 0 8 v s = s := by
  simp only [List.mem_cons, List.not_mem_nil, or_false] at hr
  rcases hr with rfl | rfl <;> rfl

/-- A read of a 32-bit event counter: its count, and the register with the count cleared. -/
theorem readReg_counter {r : Reg} (hr : r ∈ [Reg.cadStateChanges, .memCeCount, .pciFiltered, .errCorrected]) :
    readReg .pf r 0 0 0 4 s = (rget s r % 2 ^ 32, rput s r 0 0 (rget s r - (rget s r &&& 2 ^ 32 - 1))) := by
  have hv : bitsOf (0 ||| rget s r) 0 32 = rget s r % 2 ^ 32 := by simp [bitsOf]
  rw [← hv]
  simp only [List.mem_cons, List.not_mem_nil, or_false] at hr
  rcases hr with rfl | rfl | rfl | rfl <;> rfl

/-- Settles O8: the bus serves each of these accesses by one register, whose access codes say the rest. -/
theorem registerAccess : Obligations.RegisterAccess := by
  intro s ha
  refine ⟨?_, ?_, ?_⟩
  · intro r hr v
    refine ⟨_, congrArg _ ((writeRegister_serves ha (rw_registers_serve r hr) v).trans (writeReg_plain hr v)), fun k hk => ?_⟩
    have hw : ∀ r ∈ [Reg.cadPpsSeconds, .cadLogQueue, .chdPodMembers, .sealCfg], r.info.w1c = 0 ∧ r.info.w1s = 0 := by decide
    rw [accessWrite_testBit (hw r hr).1 (hw r hr).2]
    simp [Nat.testBit_mod_two_pow, hk]
  · intro r hr v
    exact congrArg _ ((writeRegister_serves ha (ro_registers_serve r hr) v).trans (writeReg_readOnly hr v))
  · intro r hr
    refine ⟨_, congrArg _ ((readRegister_serves ha (rc_registers_serve r hr)).trans (by rw [readReg_counter hr])), ?_⟩
    rw [Nat.and_two_pow_sub_one_eq_mod]
    omega

/-! ### A misaligned access -/

/-- Below the doorbell window, a write that is not aligned or not of 32 or 64 bits is recorded and nothing else. -/
theorem writeRegister_misaligned (hb : busAwake s = true) {off size : Nat} (fn : Fn) (v : Nat) (ho : off < 2 ^ 26)
    (ha : alignedAccess off size = false) : writeRegister fn off size v s = regAccessRecord fn off s := by
  rw [writeRegister, if_neg (by simp [hb]), if_neg (Nat.not_le.mpr ho), if_pos (by simp [ha])]

/-- Such a read is recorded too, and returns all ones. -/
theorem readRegister_misaligned (hb : busAwake s = true) {off size : Nat} (fn : Fn) (ho : off < 2 ^ 26)
    (ha : alignedAccess off size = false) : readRegister fn off size s = reply (allOnes size) (regAccessRecord fn off s) := by
  rw [readRegister, if_neg (by simp [hb]), if_neg (Nat.not_le.mpr ho), if_pos (by simp [ha])]

/-- Settles O9: the row passes what is not an aligned access on to the bus, which records it. -/
theorem misalignedAccess : Obligations.MisalignedAccess := by
  intro s fn off size hp ht ho hm
  have hb : busAwake s = true := by simp [busAwake, hp, ht]
  have ha : alignedAccess off size = false := by simpa [alignedAccess] using hm
  have hrow (w : Bool) : exec (.misalignedRegisterAccess fn off size w) s
      = .next (if w then writeRegister fn off size 0 s else readRegister fn off size s) := by
    change Host.Outcome.next _ = _
    rw [ha, if_neg Bool.false_ne_true]
  rw [hrow, hrow, writeRegister_misaligned hb fn 0 ho ha, readRegister_misaligned hb fn ho ha]
  exact ⟨rfl, rfl⟩

end Sys2Proof.Machine

/-! # No effect stores a register of the TOP block (O4)

The register file is written by `rput` and by what is built on it, thinned by a warm reset, and copied from one state to another; no
call names a TOP register, and a write or a read that chooses its register by an offset stores only where the access code of the register
lets it, which it does for no TOP register. So each function of the model keeps `TopFree`: below, one rule for each, in the order of the
model, each proved from the rules of the functions it calls, which its pattern hands to `grind`. `exec_topFree` puts them together by the
dispatch. -/
namespace Sys2Proof.Machine

/-! ### The register file and the shapes of results -/

/-- The register file stores no field of the TOP block. -/
def TopFree (f : Table Word64) : Prop := f.all (fun e => decide (2 ^ 20 ≤ e.1)) = true

theorem topWired_iff (s : State) : topWired s = true ↔ TopFree s.regs := Iff.rfl

/-- The registers of the TOP block stand first in the table. -/
def Reg.isTop (r : Reg) : Prop := r.ctorIdx < 22

theorem Reg.off_of_not_isTop {r : Reg} : ¬ r.isTop → 2 ^ 20 ≤ r.info.off := by
  unfold Reg.isTop; cases r <;> decide

/-- No access writes or clears a field of the TOP block. -/
theorem Reg.fixed_of_isTop {r : Reg} : r.isTop → r.info.rc = 0 ∧ r.info.rw = 0 ∧ r.info.w1c = 0 ∧ r.info.w1s = 0 := by
  unfold Reg.isTop; cases r <;> decide

theorem topFree_iff (f : Table Word64) : TopFree f ↔ ∀ e ∈ f, 2 ^ 20 ≤ e.1 := by simp [TopFree]

theorem topFree_regPut {f : Table Word64} {r : Reg} (h : TopFree f) (hr : ¬ r.isTop) (i j v : Nat) : TopFree (regPut f r i j v) := by
  rw [topFree_iff] at *
  intro e he
  rcases Table.mem_put _ _ _ _ he with rfl | he
  · have : 2 ^ 20 ≤ r.info.off := Reg.off_of_not_isTop hr
    exact this.trans (by simp only [Reg.offset]; omega)
  · exact h e he

theorem rput_topFree {s : State} {r : Reg} (h : TopFree s.regs) (hr : ¬ r.isTop) (i j v : Nat) : TopFree (rput s r i j v).regs :=
  topFree_regPut h hr i j v

theorem bumpField_topFree {s : State} {r : Reg} (h : TopFree s.regs) (hr : ¬ r.isTop) (i lo w n : Nat) :
    TopFree (bumpField s r i lo w n).regs := rput_topFree h hr ..

theorem bump_topFree {s : State} {r : Reg} (h : TopFree s.regs) (hr : ¬ r.isTop) (i : Nat) : TopFree (bump s r i).regs :=
  bumpField_topFree h hr ..

/-- What a body leaves behind stores no field of the TOP block. -/
def BodyFree : Body → Prop
  | .error _ => True
  | .ok (.done _ _ _ t) | .ok (.later t) | .ok (.running t) => TopFree t.regs

/-- What an effect answers stores no field of the TOP block. -/
def OutFree : Out → Prop
  | .next t => TopFree t.regs
  | _ => True

/-- The same of what a translation leaves. -/
def XlatFree : Xlat → Prop
  | .at _ t | .fault t | .gated t => TopFree t.regs
  | .stall => True

/-- The same of what a request over RoCE leaves. -/
def ServedFree : Served → Prop
  | .done _ t | .nak _ t | .rnr t | .drop t => TopFree t.regs

/-- The same of what a piped message leaves. -/
def PipedFree : Piped → Prop
  | .replied t | .held _ t => TopFree t.regs

/-- The same of a crew's fetch. -/
def FetchedFree : Fetched → Prop
  | .kill _ _ t | .word _ t => TopFree t.regs
  | .wait => True

/-- The same of an instruction's issue. -/
def IssuedFree : Issued → Prop
  | .kill _ _ t | .go t => TopFree t.regs
  | .wait => True

grind_pattern rput_topFree => rput s r i j v
grind_pattern bumpField_topFree => bumpField s r i lo w n
grind_pattern bump_topFree => bump s r i

/-- A fold of steps that each keep `TopFree` keeps it. -/
theorem foldl_topFree {α : Type} {f : State → α → State} (hf : ∀ s a, TopFree s.regs → TopFree (f s a).regs) (l : List α) {s : State}
    (hs : TopFree s.regs) : TopFree (l.foldl f s).regs := by
  induction l generalizing s with
  | nil => exact hs
  | cons a l ih => exact ih (hf s a hs)

theorem bodyFree_bind {α : Type} {x : Except Refuse α} {f : α → Body} (h : ∀ a, x = .ok a → BodyFree (f a)) : BodyFree (x >>= f) := by
  cases x with
  | error e => trivial
  | ok a => exact h a rfl
grind_pattern bodyFree_bind => BodyFree (x >>= f)

theorem settle_topFree (serial : Nat) {s : State} {b : Body} (hs : TopFree s.regs) (hb : BodyFree b) : TopFree (settle serial s b).regs := by
  match b, hb with
  | .error e, _ =>
    change TopFree (finish _ _ _ _ (if _ then _ else _)).regs
    change TopFree (State.regs (if _ then _ else _))
    split
    · exact bump_topFree hs (by simp [Reg.isTop, Reg.ctorIdx]) 0
    · exact hs
  | .ok (.done _ _ _ _), hb | .ok (.later _), hb | .ok (.running _), hb => exact hb
grind_pattern settle_topFree => settle serial s b
grind_pattern foldl_topFree => List.foldl f s l

/-- The same for a fold that carries a value beside the state. -/
theorem foldl_snd_topFree {α β : Type} {f : β × State → α → β × State} (hf : ∀ p a, TopFree p.2.regs → TopFree (f p a).2.regs)
    (l : List α) {p : β × State} (hp : TopFree p.2.regs) : TopFree (l.foldl f p).2.regs := by
  induction l generalizing p with
  | nil => exact hp
  | cons a l ih => exact ih (hf p a hp)

/-- The same for a fold that can fail. -/
theorem foldl_bind_topFree {α : Type} {f : α → State → Option State} (hf : ∀ s a t, TopFree s.regs → f a s = some t → TopFree t.regs)
    (l : List α) {s t : State} (hs : TopFree s.regs)
    (h : l.foldl (fun (r : Option State) a => r.bind (f a)) (some s) = some t) : TopFree t.regs := by
  induction l generalizing s with
  | nil => cases h; exact hs
  | cons a l ih =>
    rw [List.foldl_cons, Option.bind_some] at h
    cases hc : f a s with
    | none =>
      have hn : l.foldl (fun (r : Option State) a => r.bind (f a)) none = none := by
        clear h ih
        induction l with
        | nil => rfl
        | cons a l ih => exact ih
      rw [hc, hn] at h; cases h
    | some u => exact ih (hf s a u hs hc) (hc ▸ h)

theorem topFree_filter {f : Table Word64} (h : TopFree f) (p : Nat × Word64 → Bool) : TopFree (f.filter p) := by
  rw [topFree_iff] at *
  exact fun e he => h e (List.mem_of_mem_filter he)

theorem xlatFree_of_eq {x y : Xlat} (h : x = y) (hx : XlatFree x) : XlatFree y := h ▸ hx

theorem topFree_of_eq {α : Type} {p : α × State} {a : α} {t : State} (h : p = (a, t)) (hp : TopFree p.2.regs) : TopFree t.regs := by
  rw [h] at hp; exact hp

section
variable {s : State} (hs : TopFree s.regs)
include hs

/-! ### Ops -/

theorem emit_topFree (e : Emit) : TopFree (emit e s).regs := hs
grind_pattern emit_topFree => emit e s

theorem drawFree_topFree : TopFree (drawFree s).2.regs := hs
grind_pattern drawFree_topFree => drawFree s

theorem poke_topFree (a : Nat) (bs : List Byte) : TopFree (poke s a bs).regs := hs
grind_pattern poke_topFree => poke s a bs

theorem poisonLine_topFree (a : Nat) : TopFree (poisonLine s a).regs := hs
grind_pattern poisonLine_topFree => poisonLine s a

theorem unpoison_topFree (a : Nat) : TopFree (unpoison s a).regs := hs
grind_pattern unpoison_topFree => unpoison s a

theorem zeroFill_topFree (base size : Nat) : TopFree (zeroFill s base size).regs := hs
grind_pattern zeroFill_topFree => zeroFill s base size

theorem setWake_topFree (q : Nat) (w : WakeQ) : TopFree (setWake s q w).regs := hs
grind_pattern setWake_topFree => setWake s q w

theorem wakePush_topFree (q : Nat) (ws : List (Word32 × Bool × Bool)) : TopFree (wakePush q ws s).regs := by grind [wakePush, Reg.isTop]
grind_pattern wakePush_topFree => wakePush q ws s

theorem logRecord_topFree (queue typ : Nat) (body : List Byte) : TopFree (logRecord queue typ body s).regs := by grind [logRecord, Reg.isTop]
grind_pattern logRecord_topFree => logRecord queue typ body s

theorem emptyWake_topFree (q : Nat) : TopFree (emptyWake q s).regs := by grind [emptyWake, Reg.isTop]
grind_pattern emptyWake_topFree => emptyWake q s

theorem writeRecord_topFree (r : Rec) : TopFree (writeRecord r s).regs := by grind [writeRecord, Reg.isTop]
grind_pattern writeRecord_topFree => writeRecord r s

theorem eventRecord_topFree (source sector status addr : Nat) : TopFree (eventRecord source sector status addr s).regs := by grind [eventRecord]
grind_pattern eventRecord_topFree => eventRecord source sector status addr s

theorem setRing_topFree (i : Nat) (r : Ring) : TopFree (setRing s i r).regs := hs
grind_pattern setRing_topFree => setRing s i r

theorem mapInflight_topFree (f : Cmd → Cmd) : TopFree (mapInflight f s).regs := hs
grind_pattern mapInflight_topFree => mapInflight f s

theorem setPhase_topFree (serial : Nat) (p : Phase) : TopFree (setPhase serial p s).regs := hs
grind_pattern setPhase_topFree => setPhase serial p s

theorem finish_topFree (serial status r0 r1 : Nat) : TopFree (finish serial status r0 r1 s).regs := hs
grind_pattern finish_topFree => finish serial status r0 r1 s

theorem finishAll_topFree (serials : List Nat) (status r0 r1 : Nat) : TopFree (finishAll serials status r0 r1 s).regs := by grind [finishAll]
grind_pattern finishAll_topFree => finishAll serials status r0 r1 s

theorem beginCommand_topFree (opcode ring : Nat) (body : Cmd → State → Body) (hbody : ∀ x t, TopFree t.regs → BodyFree (body x t)) :
    TopFree (beginCommand opcode ring body s).regs := by
  unfold beginCommand; grind [BodyFree]
grind_pattern beginCommand_topFree => beginCommand opcode ring body s

theorem fireSlot_topFree (k : Nat) : TopFree (fireSlot k s).regs := by grind [fireSlot, Reg.isTop]
grind_pattern fireSlot_topFree => fireSlot k s

theorem firePoint_topFree (point target : Nat) : TopFree (firePoint point target s).2.2.regs := by grind [firePoint]
grind_pattern firePoint_topFree => firePoint point target s

theorem setSeal_topFree (n : Nat) (x : SealSector) : TopFree (setSeal s n x).regs := hs
grind_pattern setSeal_topFree => setSeal s n x

theorem writeRecordSlot_topFree (n window slot : Nat) (w : Window) (plain : List Byte) : TopFree (writeRecordSlot n window slot w plain s).regs := hs
grind_pattern writeRecordSlot_topFree => writeRecordSlot n window slot w plain s

theorem writeRecords_topFree (n window : Nat) (w : Window) (a k : Nat) (bs : List Byte) : TopFree (writeRecords n window w a k bs s).regs := by
  fun_induction writeRecords n window w a k bs s <;> grind
grind_pattern writeRecords_topFree => writeRecords n window w a k bs s

theorem hostWrite_topFree (n addr : Nat) (bs : List Byte) {t : State} (he : hostWrite n addr bs s = .ok t) : TopFree t.regs := by grind [hostWrite]
grind_pattern hostWrite_topFree => hostWrite n addr bs s, Except.ok t

theorem openRecord_topFree (n window slot : Nat) (raw : List Byte) : TopFree (openRecord n window slot raw s).2.regs := by
  grind [openRecord, Reg.isTop]
grind_pattern openRecord_topFree => openRecord n window slot raw s

theorem openRecords_topFree (n window a k : Nat) (bs : List Byte) : TopFree (openRecords n window a k bs s).2.regs := by
  fun_induction openRecords n window a k bs s <;> grind
grind_pattern openRecords_topFree => openRecords n window a k bs s

theorem hostReadFail_topFree (h : HostRead) : TopFree (hostReadFail h s).regs := by unfold hostReadFail; grind [Reg.isTop]
grind_pattern hostReadFail_topFree => hostReadFail h s

theorem hostRead_topFree (n addr len : Nat) (h : HostRead) : TopFree (hostRead n addr len h s).2.regs := by
  fun_cases hostRead n addr len h s <;> grind
grind_pattern hostRead_topFree => hostRead n addr len h s

/-! ### Rings -/

theorem setFn_topFree (f : Fn) (c : FnConfig) : TopFree (setFn s f c).regs := hs
grind_pattern setFn_topFree => setFn s f c

theorem raiseMsix_topFree (f : Fn) (vec : Nat) : TopFree (raiseMsix f vec s).regs := by grind [raiseMsix]
grind_pattern raiseMsix_topFree => raiseMsix f vec s

theorem releaseMsix_topFree (f : Fn) : TopFree (releaseMsix f s).regs := by grind [releaseMsix]
grind_pattern releaseMsix_topFree => releaseMsix f s

theorem finishReset_topFree (i : Nat) : TopFree (finishReset i s).regs := by grind [finishReset, Reg.isTop]
grind_pattern finishReset_topFree => finishReset i s

theorem startReset_topFree (i : Nat) (destroy : Bool) (serial : Nat) : TopFree (startReset i destroy serial s).regs := by grind [startReset]
grind_pattern startReset_topFree => startReset i destroy serial s

theorem filterRefuse_topFree (fn : Fn) (off : Nat) : TopFree (filterRefuse fn off s).regs := by unfold filterRefuse; grind [Reg.isTop]
grind_pattern filterRefuse_topFree => filterRefuse fn off s

theorem doorbell_topFree (src : Doorbell) (i value limit : Nat) (act : Ring → Ring) : TopFree (doorbell src i value limit act s).regs := by
  grind [doorbell, Reg.isTop]
grind_pattern doorbell_topFree => doorbell src i value limit act s

theorem writeSqTail_topFree (src : Doorbell) (i value : Nat) : TopFree (writeSqTail src i value s).regs := by grind [writeSqTail]
grind_pattern writeSqTail_topFree => writeSqTail src i value s

theorem writeCqHead_topFree (src : Doorbell) (i value : Nat) : TopFree (writeCqHead src i value s).regs := by grind [writeCqHead]
grind_pattern writeCqHead_topFree => writeCqHead src i value s

theorem haltRing_topFree (i cause : Nat) : TopFree (haltRing i cause s).regs := hs
grind_pattern haltRing_topFree => haltRing i cause s

theorem sealedUnits_topFree (i : Nat) (r : Ring) (raw : List Byte) : TopFree (sealedUnits i r raw s).2.regs := by
  fun_cases sealedUnits i r raw s <;> grind
grind_pattern sealedUnits_topFree => sealedUnits i r raw s

theorem takeCommand_topFree (i : Nat) (bytes : List Byte) : TopFree (takeCommand i bytes s).regs := by grind [takeCommand]
grind_pattern takeCommand_topFree => takeCommand i bytes s

theorem commandFetch_topFree (data : HostRead) : TopFree (commandFetch data s).regs := by
  fun_cases commandFetch data s <;> grind [Reg.isTop]
grind_pattern commandFetch_topFree => commandFetch data s

theorem putEntry_topFree (i : Nat) (r : Ring) (entry : List Byte) {t : State} (he : putEntry i r entry s = some t) : TopFree t.regs := by
  grind [putEntry]
grind_pattern putEntry_topFree => putEntry i r entry s, some t

theorem posted_topFree (i : Nat) (c : Cmd) (status latency : Nat) : TopFree (posted i c status latency s).regs := by grind [posted, Reg.isTop]
grind_pattern posted_topFree => posted i c status latency s

theorem completionPost_topFree (i : Nat) (failed : Bool) (latency : Nat) : TopFree (completionPost i failed latency s).regs := by
  fun_cases completionPost i failed latency s <;> grind
grind_pattern completionPost_topFree => completionPost i failed latency s

theorem notBeforeDue_topFree (i : Nat) : TopFree (notBeforeDue i s).regs := by grind [notBeforeDue]
grind_pattern notBeforeDue_topFree => notBeforeDue i s

theorem lockstepExpiry_topFree (i : Nat) : TopFree (lockstepExpiry i s).regs := by
  unfold lockstepExpiry; grind
grind_pattern lockstepExpiry_topFree => lockstepExpiry i s

theorem nopBody_topFree (c : Cmd) : BodyFree (nopBody c s) := hs
grind_pattern nopBody_topFree => nopBody c s

theorem identifyBody_topFree (c : Cmd) : BodyFree (identifyBody c s) := hs
grind_pattern identifyBody_topFree => identifyBody c s

theorem ringCreateBody_topFree (c : Cmd) : BodyFree (ringCreateBody c s) := by
  unfold ringCreateBody
  repeat refine bodyFree_bind fun _ _ => ?_
  grind [BodyFree]
grind_pattern ringCreateBody_topFree => ringCreateBody c s

theorem ringStopBody_topFree (destroy : Bool) (c : Cmd) : BodyFree (ringStopBody destroy c s) := by grind [ringStopBody, BodyFree]
grind_pattern ringStopBody_topFree => ringStopBody destroy c s

theorem writeAdminCfg_topFree (n v : Nat) : TopFree (writeAdminCfg n v s).regs := by grind [writeAdminCfg, Reg.isTop]
grind_pattern writeAdminCfg_topFree => writeAdminCfg n v s

/-! ### Errors -/

theorem noteTransient_topFree (r : Res) : TopFree (noteTransient r s).2.regs := hs
grind_pattern noteTransient_topFree => noteTransient r s

theorem retireRecord_topFree (r : Res) (action ref sector addr : Nat) (injected : Bool) :
    TopFree (retireRecord r action ref sector addr injected s).regs := by
  grind [retireRecord]
grind_pattern retireRecord_topFree => retireRecord r action ref sector addr injected s

theorem actMemory_topFree (r : Res) (b : Bool) : TopFree (actMemory r b s).2.regs := by grind [actMemory]
grind_pattern actMemory_topFree => actMemory r b s

theorem actBridge_topFree (r : Res) (b : Bool) : TopFree (actBridge r b s).2.regs := by grind [actBridge]
grind_pattern actBridge_topFree => actBridge r b s

theorem followUp_topFree (t : SelfTest) (test action : Nat) : TopFree (followUp t test action s).regs := by grind [followUp]
grind_pattern followUp_topFree => followUp t test action s

theorem queueTest_topFree (t : SelfTest) : TopFree (queueTest t s).regs := by grind [queueTest]
grind_pattern queueTest_topFree => queueTest t s

theorem changeTest_topFree (r : Res) (f : SelfTest → SelfTest) : TopFree (changeTest r f s).regs := hs
grind_pattern changeTest_topFree => changeTest r f s

theorem detect_topFree (act : ActFn) (d : Detect) (hact : ∀ r b t, TopFree t.regs → TopFree (act r b t).2.regs) : TopFree (detect act d s).regs := by
  unfold detect; grind [Reg.isTop]
grind_pattern detect_topFree => detect act d s

theorem spoilLine_topFree (a : Nat) : TopFree (spoilLine a s).regs := hs
grind_pattern spoilLine_topFree => spoilLine a s

theorem faultAt_topFree (a : Nat) (kind : FaultKind) (n : Nat) (injected forced : Bool) : TopFree (faultAt a kind n injected forced s).2.regs := by
  unfold faultAt; grind [Reg.isTop]
grind_pattern faultAt_topFree => faultAt a kind n injected forced s

theorem patternKind_topFree (a n : Nat) : TopFree (patternKind a n s).2.regs := by grind [patternKind]
grind_pattern patternKind_topFree => patternKind a n s

theorem injectedFault_topFree (a : Nat) : TopFree (injectedFault a s).2.regs := by grind [injectedFault]
grind_pattern injectedFault_topFree => injectedFault a s

theorem readLine_topFree (faults : List LineFault) (a : Nat) : TopFree (readLine faults a s).2.regs := by
  unfold readLine; grind [Reg.isTop]
grind_pattern readLine_topFree => readLine faults a s

theorem readLines_topFree (faults : List LineFault) (n a : Nat) : TopFree (readLines faults n a s).2.regs := by
  fun_induction readLines faults n a s <;> grind
grind_pattern readLines_topFree => readLines faults n a s

/-! ### MemAccess -/

theorem holeRequest_topFree (sector a : Nat) : TopFree (holeRequest sector a s).regs := by grind [holeRequest]
grind_pattern holeRequest_topFree => holeRequest sector a s

theorem faultyRead_topFree (faults : List LineFault) (a n : Nat) : TopFree (faultyRead faults a n s).2.regs := by grind [faultyRead]
grind_pattern faultyRead_topFree => faultyRead faults a n s

theorem trustedRead_topFree (a n : Nat) : TopFree (trustedRead a n s).2.regs := by grind [trustedRead]
grind_pattern trustedRead_topFree => trustedRead a n s

theorem writeLine_topFree (faults : List LineFault) (a : Nat) (bs : List Byte) : TopFree (writeLine faults a bs s).2.regs := by grind [writeLine]
grind_pattern writeLine_topFree => writeLine faults a bs s

theorem writeLines_topFree (faults : List LineFault) (n a : Nat) (bs : List Byte) : TopFree (writeLines faults n a bs s).2.regs := by
  fun_induction writeLines faults n a bs s <;> grind
grind_pattern writeLines_topFree => writeLines faults n a bs s

theorem faultyWrite_topFree (faults : List LineFault) (a : Nat) (bs : List Byte) : TopFree (faultyWrite faults a bs s).2.regs := by
  grind [faultyWrite]
grind_pattern faultyWrite_topFree => faultyWrite faults a bs s

theorem trustedWrite_topFree (a : Nat) (bs : List Byte) : TopFree (trustedWrite a bs s).2.regs := by grind [trustedWrite]
grind_pattern trustedWrite_topFree => trustedWrite a bs s

theorem faultyLineAdd_topFree (faults : List LineFault) (a w : Nat) (sub : Bool) (operand : List Byte) :
    TopFree (faultyLineAdd faults a w sub operand s).2.regs := by
  grind [faultyLineAdd]
grind_pattern faultyLineAdd_topFree => faultyLineAdd faults a w sub operand s

/-! ### Wake -/

theorem reply_topFree (v : Nat) : TopFree (reply v s).regs := hs
grind_pattern reply_topFree => reply v s

theorem wakePop_topFree (fn : Fn) (q size : Nat) : TopFree (wakePop fn q size s).regs := by grind [wakePop]
grind_pattern wakePop_topFree => wakePop fn q size s

theorem wakeConfigBody_topFree (c : Cmd) : BodyFree (wakeConfigBody c s) := by
  unfold wakeConfigBody; grind [BodyFree]
grind_pattern wakeConfigBody_topFree => wakeConfigBody c s

theorem drainWords_topFree (faults : List LineFault) (refused : Option Nat) (n : Nat) (dpa : Bool) (q : Nat) (flush : Bool) (a k m : Nat) :
    TopFree (drainWords faults refused n dpa q flush a k m s).2.2.regs := by
  fun_induction drainWords faults refused n dpa q flush a k m s <;> grind
grind_pattern drainWords_topFree => drainWords faults refused n dpa q flush a k m s

theorem wakeDrainBody_topFree (faults : List LineFault) (refused : Option Nat) (c : Cmd) : BodyFree (wakeDrainBody faults refused c s) := by
  unfold wakeDrainBody
  repeat refine bodyFree_bind fun _ _ => ?_
  grind [BodyFree]
grind_pattern wakeDrainBody_topFree => wakeDrainBody faults refused c s

theorem dropPacketBody_topFree (c : Cmd) : BodyFree (dropPacketBody c s) := by grind [dropPacketBody, BodyFree]
grind_pattern dropPacketBody_topFree => dropPacketBody c s

theorem perfSample_topFree (q : Nat) (counts : List Nat) : TopFree (perfSample q counts s).regs := by grind [perfSample]
grind_pattern perfSample_topFree => perfSample q counts s

/-! ### Cadence -/

theorem setCad_topFree (c : Cad) : TopFree (setCad c s).regs := hs
grind_pattern setCad_topFree => setCad c s

theorem enterCad_topFree (st : CadState) : TopFree (enterCad st s).regs := by grind [enterCad, Reg.isTop]
grind_pattern enterCad_topFree => enterCad st s

theorem judgeCad_topFree : TopFree (judgeCad s).regs := by grind [judgeCad]
grind_pattern judgeCad_topFree => judgeCad s

theorem referenceUpdate_topFree (now : Nat) (offset : Int) : TopFree (referenceUpdate now offset s).regs := by grind [referenceUpdate]
grind_pattern referenceUpdate_topFree => referenceUpdate now offset s

theorem referenceLost_topFree (now : Nat) : TopFree (referenceLost now s).regs := by grind [referenceLost]
grind_pattern referenceLost_topFree => referenceLost now s

theorem overrun_topFree (cls n : Nat) : TopFree (overrun cls n s).regs := by grind [overrun, Reg.isTop]
grind_pattern overrun_topFree => overrun cls n s

theorem otherPtp_topFree (port : Nat) : TopFree (otherPtp port s).regs := by grind [otherPtp, Reg.isTop]
grind_pattern otherPtp_topFree => otherPtp port s

theorem takeMark_topFree (e : Nat × Mark) : TopFree (takeMark s e).regs := by grind [takeMark]
grind_pattern takeMark_topFree => takeMark s e

theorem takeMarks_topFree : TopFree (takeMarks s).regs := by grind [takeMarks]
grind_pattern takeMarks_topFree => takeMarks s

theorem strokeBoundary_topFree (now : Nat) : TopFree (strokeBoundary now s).regs := by grind [strokeBoundary]
grind_pattern strokeBoundary_topFree => strokeBoundary now s

theorem advanceMark_topFree (slot : Nat) (m : Mark) : TopFree (advanceMark slot m s).regs := by grind [advanceMark, Reg.isTop]
grind_pattern advanceMark_topFree => advanceMark slot m s

theorem markRecord_topFree (slot status target : Nat) : TopFree (markRecord slot status target s).regs := by grind [markRecord]
grind_pattern markRecord_topFree => markRecord slot status target s

theorem placeCommand_topFree (i : Nat) (c : Cmd) : TopFree (placeCommand i c s).regs := hs
grind_pattern placeCommand_topFree => placeCommand i c s

theorem deliver_topFree (m : Mark) (bytes : List Byte) (fn : Fn) : TopFree (deliver m bytes fn s).2.regs := by grind [deliver]
grind_pattern deliver_topFree => deliver m bytes fn s

theorem markRelease_topFree (fw : MarkWork → Mark → Bool → State → State) (hfw : ∀ x y z t, TopFree t.regs → TopFree (fw x y z t).regs) :
    TopFree (markRelease fw s).regs := by
  fun_cases markRelease fw s <;> grind [Reg.isTop]
grind_pattern markRelease_topFree => markRelease fw s

theorem markSetBody_topFree (c : Cmd) : BodyFree (markSetBody c s) := by
  unfold markSetBody
  repeat refine bodyFree_bind fun _ _ => ?_
  grind [BodyFree]
grind_pattern markSetBody_topFree => markSetBody c s

theorem cancelMark_topFree (slot : Nat) : TopFree (cancelMark slot s).regs := hs
grind_pattern cancelMark_topFree => cancelMark slot s

theorem cancelSectorMarks_topFree (n : Nat) : TopFree (cancelSectorMarks n s).regs := by grind [cancelSectorMarks]
grind_pattern cancelSectorMarks_topFree => cancelSectorMarks n s

theorem markCancelBody_topFree (c : Cmd) : BodyFree (markCancelBody c s) := by
  unfold markCancelBody
  repeat refine bodyFree_bind fun _ _ => ?_
  grind [BodyFree]
grind_pattern markCancelBody_topFree => markCancelBody c s

theorem cadenceConfigBody_topFree (c : Cmd) : BodyFree (cadenceConfigBody c s) := by
  unfold cadenceConfigBody; grind [BodyFree]
grind_pattern cadenceConfigBody_topFree => cadenceConfigBody c s

theorem setScrubMark_topFree : TopFree (setScrubMark s).regs := by grind [setScrubMark]
grind_pattern setScrubMark_topFree => setScrubMark s

/-! ### Random -/

theorem setRng_topFree (r : Rng) : TopFree (setRng r s).regs := hs
grind_pattern setRng_topFree => setRng r s

theorem setAnnulus_topFree (a : Nat) (x : Annulus) : TopFree (setAnnulus a x s).regs := hs
grind_pattern setAnnulus_topFree => setAnnulus a x s

theorem noteSource_topFree : TopFree (noteSource s).regs := by grind [noteSource]
grind_pattern noteSource_topFree => noteSource s

theorem setInstance_topFree (i : Nat) (x : Instance) : TopFree (setInstance i x s).regs := hs
grind_pattern setInstance_topFree => setInstance i x s

theorem newInstance_topFree (i : Nat) (x : Instance) (seed pers : List Byte) : TopFree (newInstance i x seed pers s).regs := hs
grind_pattern newInstance_topFree => newInstance i x seed pers s

theorem takeSeed_topFree  {x} {t : State} (he : takeSeed s = some (x, t)) : TopFree t.regs := by grind [takeSeed]
grind_pattern takeSeed_topFree => takeSeed s, some (x, t)

theorem startInternal_topFree (i : Nat) : TopFree (startInternal i s).regs := by grind [startInternal]
grind_pattern startInternal_topFree => startInternal i s

theorem internalRequest_topFree (i n : Nat) : TopFree (internalRequest i n s).2.regs := by
  unfold internalRequest; grind [Reg.isTop]
grind_pattern internalRequest_topFree => internalRequest i n s

theorem internalDraw_topFree (i n a : Nat) : TopFree (internalDraw i n a s).2.regs := by
  fun_induction internalDraw i n a s <;> grind
grind_pattern internalDraw_topFree => internalDraw i n a s

theorem internalBytes_topFree (i n : Nat) : TopFree (internalBytes i n s).2.regs := by grind [internalBytes]
grind_pattern internalBytes_topFree => internalBytes i n s

theorem joinWait_topFree (i : Nat) : TopFree (joinWait i s).regs := by grind [joinWait]
grind_pattern joinWait_topFree => joinWait i s

theorem leaveWait_topFree (i : Nat) : TopFree (leaveWait i s).regs := hs
grind_pattern leaveWait_topFree => leaveWait i s

theorem clientReseed_topFree (i : Nat) (x : Instance) (add : List Byte) : TopFree (clientReseed i x add s).2.regs := by grind [clientReseed]
grind_pattern clientReseed_topFree => clientReseed i x add s

theorem clientGenerate_topFree (i n : Nat) (first : Bool) (add : List Byte) : TopFree (clientGenerate i n first add s).2.regs := by
  grind [clientGenerate, Reg.isTop]
grind_pattern clientGenerate_topFree => clientGenerate i n first add s

theorem seedToWaiting_topFree : TopFree (seedToWaiting s).regs := by
  fun_cases seedToWaiting s <;> grind
grind_pattern seedToWaiting_topFree => seedToWaiting s

theorem dropInstances_topFree (n : Nat) : TopFree (dropInstances n s).regs := hs
grind_pattern dropInstances_topFree => dropInstances n s

theorem failCapture_topFree (a : Nat) : TopFree (failCapture a s).regs := by grind [failCapture]
grind_pattern failCapture_topFree => failCapture a s

theorem actAnnulus_topFree (r : Res) (b : Bool) : TopFree (actAnnulus r b s).2.regs := by grind [actAnnulus]
grind_pattern actAnnulus_topFree => actAnnulus r b s

theorem sampleLost_topFree (a : Nat) : TopFree (sampleLost a s).regs := by grind [sampleLost, Reg.isTop]
grind_pattern sampleLost_topFree => sampleLost a s

theorem annulusFail_topFree (a : Nat) (injected forced : Bool) : TopFree (annulusFail a injected forced s).regs := by grind [annulusFail, Reg.isTop]
grind_pattern annulusFail_topFree => annulusFail a injected forced s

theorem strobeBit_topFree (a : Nat) (b : Bool) : TopFree (strobeBit a b s).regs := by grind [strobeBit]
grind_pattern strobeBit_topFree => strobeBit a b s

theorem captureBit_topFree (a : Nat) (b : Bool) : TopFree (captureBit a b s).regs := by grind [captureBit]
grind_pattern captureBit_topFree => captureBit a b s

theorem endCapture_topFree : TopFree (endCapture s).regs := by
  unfold endCapture; grind
grind_pattern endCapture_topFree => endCapture s

theorem annulusStrobe_topFree (a b lost : Nat) : TopFree (annulusStrobe a b lost s).regs := by grind [annulusStrobe]
grind_pattern annulusStrobe_topFree => annulusStrobe a b lost s

theorem rawBlockComplete_topFree (a : Nat) : TopFree (rawBlockComplete a s).regs := by grind [rawBlockComplete]
grind_pattern rawBlockComplete_topFree => rawBlockComplete a s

theorem markProbation_topFree (a : Nat) (f : Probation → Probation) : TopFree (markProbation a f s).regs := hs
grind_pattern markProbation_topFree => markProbation a f s

theorem aliveClose_topFree (a : Nat) (e : Nat × Nat) : TopFree (aliveClose a e s).regs := by
  unfold aliveClose; grind
grind_pattern aliveClose_topFree => aliveClose a e s

theorem endStartup_topFree : TopFree (endStartup s).regs := by grind [endStartup]
grind_pattern endStartup_topFree => endStartup s

theorem lockClose_topFree (a : Nat) : TopFree (lockClose a s).regs := by grind [lockClose]
grind_pattern lockClose_topFree => lockClose a s

theorem seedLeaves_topFree (katPass : Bool) : TopFree (seedLeaves katPass s).regs := by grind [seedLeaves, Reg.isTop]
grind_pattern seedLeaves_topFree => seedLeaves katPass s

theorem rngInstantiateBody_topFree (c : Cmd) : BodyFree (rngInstantiateBody c s) := by
  unfold rngInstantiateBody
  repeat refine bodyFree_bind fun _ _ => ?_
  dsimp only
  split
  · trivial
  · repeat refine bodyFree_bind fun _ _ => ?_
    grind [BodyFree]
grind_pattern rngInstantiateBody_topFree => rngInstantiateBody c s

theorem rngGenerateBody_topFree (faults : List LineFault) (c : Cmd) : BodyFree (rngGenerateBody faults c s) := by
  unfold rngGenerateBody
  repeat refine bodyFree_bind fun _ _ => ?_
  grind [BodyFree]
grind_pattern rngGenerateBody_topFree => rngGenerateBody faults c s

theorem rngReseedBody_topFree (c : Cmd) : BodyFree (rngReseedBody c s) := by
  unfold rngReseedBody
  repeat refine bodyFree_bind fun _ _ => ?_
  grind [BodyFree]
grind_pattern rngReseedBody_topFree => rngReseedBody c s

theorem rngUninstantiateBody_topFree (c : Cmd) : BodyFree (rngUninstantiateBody c s) := by grind [rngUninstantiateBody, BodyFree]
grind_pattern rngUninstantiateBody_topFree => rngUninstantiateBody c s

theorem leaveRaw_topFree : TopFree (leaveRaw s).regs := hs
grind_pattern leaveRaw_topFree => leaveRaw s

theorem rngRawModeBody_topFree (heatOpen : State → Bool) (c : Cmd) : BodyFree (rngRawModeBody heatOpen c s) := by
  unfold rngRawModeBody; grind [BodyFree]
grind_pattern rngRawModeBody_topFree => rngRawModeBody heatOpen c s

/-! ### Contexts -/

theorem setScl_topFree (x : Sculls) : TopFree (setScl x s).regs := hs
grind_pattern setScl_topFree => setScl x s

theorem setCtx_topFree (x : Nat) (c : Context) : TopFree (setCtx x c s).regs := hs
grind_pattern setCtx_topFree => setCtx x c s

theorem discardDescriptors_topFree (p : Nat → Bool) : TopFree (discardDescriptors p s).regs := hs
grind_pattern discardDescriptors_topFree => discardDescriptors p s

theorem killContext_topFree (x : Nat) (k : Kill) : TopFree (killContext x k s).regs := by grind [killContext]
grind_pattern killContext_topFree => killContext x k s

theorem noteLaunchEnd_topFree (age : Nat) (killed : Bool) : TopFree (noteLaunchEnd age killed s).regs := by grind [noteLaunchEnd]
grind_pattern noteLaunchEnd_topFree => noteLaunchEnd age killed s

theorem removeLaunch_topFree (age : Nat) : TopFree (removeLaunch age s).regs := hs
grind_pattern removeLaunch_topFree => removeLaunch age s

theorem killRecord_topFree (x : Nat) (k : Kill) : TopFree (killRecord x k s).regs := by grind [killRecord]
grind_pattern killRecord_topFree => killRecord x k s

theorem killComplete_topFree (x : Nat) : TopFree (killComplete x s).regs := by
  fun_cases killComplete x s <;> grind [Reg.isTop]
grind_pattern killComplete_topFree => killComplete x s

theorem dropContext_topFree (x : Nat) : TopFree (dropContext x s).regs := by grind [dropContext]
grind_pattern dropContext_topFree => dropContext x s

theorem freeContexts_topFree (n : Nat) : TopFree (freeContexts n s).regs := by grind [freeContexts]
grind_pattern freeContexts_topFree => freeContexts n s

theorem killOnSculls_topFree (p : Nat → Bool) (cause scull : Nat) : TopFree (killOnSculls p cause scull s).regs := by grind [killOnSculls]
grind_pattern killOnSculls_topFree => killOnSculls p cause scull s

theorem contextCreateBody_topFree (c : Cmd) : BodyFree (contextCreateBody c s) := by grind [contextCreateBody, BodyFree]
grind_pattern contextCreateBody_topFree => contextCreateBody c s

theorem contextDestroyBody_topFree (c : Cmd) : BodyFree (contextDestroyBody c s) := by grind [contextDestroyBody, BodyFree]
grind_pattern contextDestroyBody_topFree => contextDestroyBody c s

theorem contextKillBody_topFree (c : Cmd) : BodyFree (contextKillBody c s) := by
  unfold contextKillBody
  repeat refine bodyFree_bind fun _ _ => ?_
  grind [BodyFree]
grind_pattern contextKillBody_topFree => contextKillBody c s

theorem launchBody_topFree (c : Cmd) : BodyFree (launchBody c s) := by
  unfold launchBody
  repeat refine bodyFree_bind fun _ _ => ?_
  grind [BodyFree]
grind_pattern launchBody_topFree => launchBody c s

theorem groupPlacement_topFree (n : Nat) : TopFree (groupPlacement n s).regs := by grind [groupPlacement]
grind_pattern groupPlacement_topFree => groupPlacement n s

theorem launchTimeout_topFree (age : Nat) : TopFree (launchTimeout age s).regs := by grind [launchTimeout]
grind_pattern launchTimeout_topFree => launchTimeout age s

theorem releaseBarrier_topFree (g : Nat) : TopFree (releaseBarrier g s).regs := by grind [releaseBarrier]
grind_pattern releaseBarrier_topFree => releaseBarrier g s

theorem settleGroup_topFree (g elapsed : Nat) : TopFree (settleGroup g elapsed s).regs := by
  fun_cases settleGroup g elapsed s <;> grind [Reg.isTop]
grind_pattern settleGroup_topFree => settleGroup g elapsed s

/-! ### Translate -/

theorem walkEntry_topFree (faults : List LineFault) (a : Nat) : TopFree (walkEntry faults a s).2.regs := by grind [walkEntry]
grind_pattern walkEntry_topFree => walkEntry faults a s

theorem walk_topFree (faults : List LineFault) (x n va a k m : Nat) : TopFree (walk faults x n va a k m s).2.regs := by
  fun_induction walk faults x n va a k m s <;> grind
grind_pattern walk_topFree => walk faults x n va a k m s

theorem setCache_topFree (eight : Nat) (l : List Cached) : TopFree (setCache eight l s).regs := hs
grind_pattern setCache_topFree => setCache eight l s

theorem useCopy_topFree (faults : List LineFault) (eight : Nat) (c : Cached) : TopFree (useCopy faults eight c s).regs := by grind [useCopy]
grind_pattern useCopy_topFree => useCopy faults eight c s

theorem enterCopy_topFree (eight : Nat) (c : Cached) : TopFree (enterCopy eight c s).regs := hs
grind_pattern enterCopy_topFree => enterCopy eight c s

theorem xlatFault_topFree : XlatFree (xlatFault s) := by grind [xlatFault, XlatFree, Reg.isTop]
grind_pattern xlatFault_topFree => xlatFault s

theorem useLeaf_topFree (faults : List LineFault) (eight : Nat) (want : Want) (va : Nat) (c : Cached) :
    XlatFree (useLeaf faults eight want va c s) := by
  grind [useLeaf, XlatFree, Reg.isTop]
grind_pattern useLeaf_topFree => useLeaf faults eight want va c s

theorem translate_topFree (faults : List LineFault) (eight x : Nat) (want : Want) (va : Nat) : XlatFree (translate faults eight x want va s) := by
  grind [translate, XlatFree]
grind_pattern translate_topFree => translate faults eight x want va s

theorem dropCopies_topFree (p : Cached → Bool) : TopFree (dropCopies p s).regs := hs
grind_pattern dropCopies_topFree => dropCopies p s

theorem memInvalidateBody_topFree (c : Cmd) : BodyFree (memInvalidateBody c s) := by grind [memInvalidateBody, BodyFree]
grind_pattern memInvalidateBody_topFree => memInvalidateBody c s

/-! ### Retire -/

theorem setPower_topFree (kind i : Nat) (p : Power) : TopFree (setPower kind i p s).regs := by grind [setPower]
grind_pattern setPower_topFree => setPower kind i p s

theorem scullOffline_topFree (j : Nat) : TopFree (scullOffline j s).regs := by grind [scullOffline]
grind_pattern scullOffline_topFree => scullOffline j s

theorem actScull_topFree (r : Res) (b : Bool) : TopFree (actScull r b s).2.regs := by grind [actScull]
grind_pattern actScull_topFree => actScull r b s

/-! ### Lattice -/

theorem setLat_topFree (e : Nat) (x : LatEngine) : TopFree (setLat e x s).regs := hs
grind_pattern setLat_topFree => setLat e x s

theorem latEnqueue_topFree (e : Nat) (i : LatItem) : TopFree (latEnqueue e i s).regs := hs
grind_pattern latEnqueue_topFree => latEnqueue e i s

theorem readLimbs_topFree (faults : List LineFault) (o : LatOp) (tag : Nat) : TopFree (readLimbs faults o tag s).2.regs := by grind [readLimbs]
grind_pattern readLimbs_topFree => readLimbs faults o tag s

theorem writeLimbs_topFree (o : LatOp) (tag : Nat) (ls : List (List Nat)) : TopFree (writeLimbs o tag ls s).2.regs := by grind [writeLimbs]
grind_pattern writeLimbs_topFree => writeLimbs o tag ls s

theorem freeLimbs_topFree (o : LatOp) (tag : Nat) : TopFree (freeLimbs o tag s).regs := by grind [freeLimbs]
grind_pattern freeLimbs_topFree => freeLimbs o tag s

theorem freeOutputs_topFree (o : LatOp) : TopFree (freeOutputs o s).regs := by grind [freeOutputs]
grind_pattern freeOutputs_topFree => freeOutputs o s

theorem domainOf_topFree (x : LatEngine) (a : Nat) : TopFree (domainOf x a s).2.regs := by grind [domainOf]
grind_pattern domainOf_topFree => domainOf x a s

theorem floodDraw_topFree (inst n : Nat) : TopFree (floodDraw inst n s).2.regs := by
  fun_induction floodDraw inst n s <;> grind
grind_pattern floodDraw_topFree => floodDraw inst n s

theorem latEffect_topFree (faults : List LineFault) (e : Nat) (o : LatOp) : TopFree (latEffect faults e o s).2.regs := by
  unfold latEffect
  dsimp only
  split
  next h0 => exact freeOutputs_topFree (topFree_of_eq h0 (readLimbs_topFree hs ..)) o
  next a s0 h0 =>
  replace h0 := topFree_of_eq h0 (readLimbs_topFree hs ..)
  split
  next h1 => exact freeOutputs_topFree (topFree_of_eq h1 (readLimbs_topFree h0 ..)) o
  next b s1 h1 =>
  replace h1 := topFree_of_eq h1 (readLimbs_topFree h0 ..)
  split
  next h2 => exact freeOutputs_topFree (topFree_of_eq h2 (by grind)) o
  next old s2 h2 =>
  replace h2 := topFree_of_eq h2 (by grind)
  split
  next h3 => exact freeOutputs_topFree (topFree_of_eq h3 (readLimbs_topFree h2 ..)) o
  next key s3 h3 =>
  replace h3 := topFree_of_eq h3 (readLimbs_topFree h2 ..)
  have h4 := domainOf_topFree h3 (latOf s e) (o.region 0).addr
  generalize hd : setLat e _ _ = s4
  replace h4 : TopFree s4.regs := hd ▸ h4
  clear hd h0 h1 h2 h3 hs
  generalize (!(_ && _)) = bad
  split
  · split
    next h5 => exact topFree_of_eq h5 (floodDraw_topFree h4 ..)
    next bs s5 h5 =>
    have h6 := trustedWrite_topFree (topFree_of_eq h5 (floodDraw_topFree h4 ..)) (o.region 4).addr bs
    split
    · exact freeLimbs_topFree h6 o 2
    · split
      next h7 => exact writeLimbs_topFree (topFree_of_eq h7 (writeLimbs_topFree h6 ..)) ..
      · exact writeLimbs_topFree h6 ..
  · split
    · exact freeOutputs_topFree h4 o
    · generalize (if o.op = 0x0A then _ else _ : List (List Nat) × List (List Nat)) = outs
      split
      next h7 =>
        have h8 := topFree_of_eq h7 (writeLimbs_topFree h4 ..)
        split
        · exact h8
        · exact writeLimbs_topFree h8 ..
      · exact writeLimbs_topFree h4 ..
grind_pattern latEffect_topFree => latEffect faults e o s

theorem spillRegions_topFree (n : Nat) (l : List (Nat × Nat)) : TopFree (spillRegions n l s).regs := by
  fun_induction spillRegions n l s <;> grind
grind_pattern spillRegions_topFree => spillRegions n l s

theorem spill_topFree (e : Nat) (o : LatOp) (hash : List Byte) : TopFree (spill e o hash s).regs := by grind [spill]
grind_pattern spill_topFree => spill e o hash s

theorem suspendOp_topFree (e : Nat) (o : LatOp) (spilled : Bool) {x} {y} {t : State} (he : suspendOp e o spilled s = some (x, y, t)) :
    TopFree t.regs := by
  unfold suspendOp at he
  split at he
  · cases he
  next h =>
    have h0 := topFree_of_eq h (internalBytes_topFree hs ..)
    grind
grind_pattern suspendOp_topFree => suspendOp e o spilled s, some (x, y, t)

theorem shiftSuspend_topFree (e : Nat) (o : LatOp) {t : State} (he : shiftSuspend e o s = some t) : TopFree t.regs := by
  grind [shiftSuspend, Option.map_eq_some_iff]
grind_pattern shiftSuspend_topFree => shiftSuspend e o s, some t

theorem loadRegions_topFree (n : Nat) (l : List (Nat × Nat)) : TopFree (loadRegions n l s).regs := by
  fun_induction loadRegions n l s <;> grind
grind_pattern loadRegions_topFree => loadRegions n l s

theorem startOp_topFree (e : Nat) (o : LatOp) : TopFree (startOp e o s).regs := hs
grind_pattern startOp_topFree => startOp e o s

theorem resumeItem_topFree (e serial ring tag t0 t1 : Nat) : TopFree (resumeItem e serial ring tag t0 t1 s).regs := by grind [resumeItem]
grind_pattern resumeItem_topFree => resumeItem e serial ring tag t0 t1 s

theorem moduliItem_topFree (e serial first logN : Nat) (entries : List (Nat × Nat)) : TopFree (moduliItem e serial first logN entries s).regs := by
  grind [moduliItem]
grind_pattern moduliItem_topFree => moduliItem e serial first logN entries s

theorem latNext_topFree (e n : Nat) : TopFree (latNext e n s).regs := by
  fun_induction latNext e n s <;> grind
grind_pattern latNext_topFree => latNext e n s

theorem latGo_topFree (e : Nat) : TopFree (latGo e s).regs := by grind [latGo]
grind_pattern latGo_topFree => latGo e s

theorem dropSuspend_topFree (e : Nat) : TopFree (dropSuspend e s).regs := by grind [dropSuspend]
grind_pattern dropSuspend_topFree => dropSuspend e s

theorem latStop_topFree (e run queued : Nat) : TopFree (latStop e run queued s).regs := by grind [latStop]
grind_pattern latStop_topFree => latStop e run queued s

theorem latWipe_topFree (e : Nat) : TopFree (latWipe e s).regs := hs
grind_pattern latWipe_topFree => latWipe e s

theorem actEngine_topFree (r : Res) (b : Bool) : TopFree (actEngine r b s).2.regs := by grind [actEngine]
grind_pattern actEngine_topFree => actEngine r b s

theorem laneFault_topFree (e : Nat) (forced : Bool) : TopFree (laneFault e forced s).regs := by grind [laneFault]
grind_pattern laneFault_topFree => laneFault e forced s

theorem addStep_topFree (e stall : Nat) (o : LatOp) : TopFree (addStep e stall o s).2.regs := by grind [addStep, Reg.isTop]
grind_pattern addStep_topFree => addStep e stall o s

theorem boundaryStop_topFree (e : Nat) (o : LatOp) : TopFree (boundaryStop e o s).regs := by
  fun_cases boundaryStop e o s <;> grind [Reg.isTop]
grind_pattern boundaryStop_topFree => boundaryStop e o s

theorem stepBoundary_topFree (e stall : Nat) : TopFree (stepBoundary e stall s).regs := by
  unfold stepBoundary; grind
grind_pattern stepBoundary_topFree => stepBoundary e stall s

theorem latOperationEnd_topFree (e stall : Nat) (faults : List LineFault) : TopFree (latOperationEnd e stall faults s).regs := by
  fun_cases latOperationEnd e stall faults s <;> grind [Reg.isTop]
grind_pattern latOperationEnd_topFree => latOperationEnd e stall faults s

theorem latExecBody_topFree (c : Cmd) : BodyFree (latExecBody c s) := by
  unfold latExecBody
  repeat refine bodyFree_bind fun _ _ => ?_
  grind [BodyFree]
grind_pattern latExecBody_topFree => latExecBody c s

theorem latGoAll_topFree : TopFree (latGoAll s).regs := by grind [latGoAll]
grind_pattern latGoAll_topFree => latGoAll s

theorem latSuspendBody_topFree (c : Cmd) : BodyFree (latSuspendBody c s) := by
  unfold latSuspendBody
  repeat refine bodyFree_bind fun _ _ => ?_
  dsimp only
  split
  · trivial
  · repeat refine bodyFree_bind fun _ _ => ?_
    grind [BodyFree, Reg.isTop]
grind_pattern latSuspendBody_topFree => latSuspendBody c s

theorem latResumeBody_topFree (c : Cmd) : BodyFree (latResumeBody c s) := by grind [latResumeBody, BodyFree]
grind_pattern latResumeBody_topFree => latResumeBody c s

theorem latModuliBody_topFree (c : Cmd) : BodyFree (latModuliBody c s) := by
  unfold latModuliBody
  repeat refine bodyFree_bind fun _ _ => ?_
  grind [BodyFree]
grind_pattern latModuliBody_topFree => latModuliBody c s

/-! ### Rdma -/

theorem setRdma_topFree (r : Rdma) : TopFree (setRdma r s).regs := hs
grind_pattern setRdma_topFree => setRdma r s

theorem setQp_topFree (k : Nat) (q : Qp) : TopFree (setQp k q s).regs := hs
grind_pattern setQp_topFree => setQp k q s

theorem changeQp_topFree (k : Nat) (f : Qp → Qp) : TopFree (changeQp k f s).regs := hs
grind_pattern changeQp_topFree => changeQp k f s

theorem mirrorWrites_topFree (n a k : Nat) (bs : List Byte) : TopFree (mirrorWrites n a k bs s).regs := by
  fun_induction mirrorWrites n a k bs s <;> grind
grind_pattern mirrorWrites_topFree => mirrorWrites n a k bs s

theorem writeTarget_topFree (faults : List LineFault) (n : Nat) (t : Target) (bs : List Byte) : TopFree (writeTarget faults n t bs s).2.regs := by
  unfold writeTarget; grind
grind_pattern writeTarget_topFree => writeTarget faults n t bs s

theorem readTarget_topFree (t : Target) (len : Nat) (host : HostRead) (faults : List LineFault) :
    TopFree (readTarget t len host faults s).2.regs := by
  unfold readTarget; grind
grind_pattern readTarget_topFree => readTarget t len host faults s

theorem sendFrame_topFree (f : RoceFrame) : TopFree (sendFrame f s).regs := by grind [sendFrame]
grind_pattern sendFrame_topFree => sendFrame f s

theorem releaseFrames_topFree : TopFree (releaseFrames s).regs := by grind [releaseFrames]
grind_pattern releaseFrames_topFree => releaseFrames s

theorem sendOn_topFree (k : Nat) (q : Qp) (p : RocePacket) : TopFree (sendOn k q p s).regs := by grind [sendOn]
grind_pattern sendOn_topFree => sendOn k q p s

theorem flushQp_topFree (k : Nat) : TopFree (flushQp k s).regs := by grind [flushQp]
grind_pattern flushQp_topFree => flushQp k s

theorem qpError_topFree (k : Nat) : TopFree (qpError k s).regs := by grind [qpError]
grind_pattern qpError_topFree => qpError k s

theorem qpLocalError_topFree (k : Nat) : TopFree (qpLocalError k s).regs := by grind [qpLocalError]
grind_pattern qpLocalError_topFree => qpLocalError k s

theorem windowPost_topFree (k : Nat) (q : Qp) (x : Post) : TopFree (windowPost k q x s).2.regs := by
  unfold windowPost; grind
grind_pattern windowPost_topFree => windowPost k q x s

theorem pump_topFree (k n : Nat) : TopFree (pump k n s).regs := by
  fun_induction pump k n s <;> grind
grind_pattern pump_topFree => pump k n s

theorem pumpQp_topFree (k : Nat) : TopFree (pumpQp k s).regs := by grind [pumpQp]
grind_pattern pumpQp_topFree => pumpQp k s

theorem pumpSector_topFree (n : Nat) : TopFree (pumpSector n s).regs := by grind [pumpSector]
grind_pattern pumpSector_topFree => pumpSector n s

theorem cutRate_topFree (k now : Nat) : TopFree (cutRate k now s).regs := hs
grind_pattern cutRate_topFree => cutRate k now s

theorem risePeriod_topFree (qpn now : Nat) : TopFree (risePeriod qpn now s).regs := by grind [risePeriod]
grind_pattern risePeriod_topFree => risePeriod qpn now s

theorem rdmaTableSetBody_topFree (c : Cmd) : BodyFree (rdmaTableSetBody c s) := by grind [rdmaTableSetBody, BodyFree]
grind_pattern rdmaTableSetBody_topFree => rdmaTableSetBody c s

theorem pdAllocBody_topFree (c : Cmd) : BodyFree (pdAllocBody c s) := by
  unfold pdAllocBody
  repeat refine bodyFree_bind fun _ _ => ?_
  grind [BodyFree]
grind_pattern pdAllocBody_topFree => pdAllocBody c s

theorem pdFreeBody_topFree (c : Cmd) : BodyFree (pdFreeBody c s) := by grind [pdFreeBody, BodyFree]
grind_pattern pdFreeBody_topFree => pdFreeBody c s

theorem addKey_topFree (n : Nat) (k : RdmaKey) {x} {t : State} (he : addKey n k s = some (x, t)) : TopFree t.regs := by
  grind [addKey, Option.map_eq_some_iff]
grind_pattern addKey_topFree => addKey n k s, some (x, t)

theorem mrRegisterBody_topFree (c : Cmd) : BodyFree (mrRegisterBody c s) := by
  unfold mrRegisterBody
  repeat refine bodyFree_bind fun _ _ => ?_
  grind [BodyFree]
grind_pattern mrRegisterBody_topFree => mrRegisterBody c s

theorem mrDeregisterBody_topFree (c : Cmd) : BodyFree (mrDeregisterBody c s) := by grind [mrDeregisterBody, BodyFree]
grind_pattern mrDeregisterBody_topFree => mrDeregisterBody c s

theorem mwAllocBody_topFree (c : Cmd) : BodyFree (mwAllocBody c s) := by
  unfold mwAllocBody
  repeat refine bodyFree_bind fun _ _ => ?_
  grind [BodyFree]
grind_pattern mwAllocBody_topFree => mwAllocBody c s

theorem mwFreeBody_topFree (c : Cmd) : BodyFree (mwFreeBody c s) := by grind [mwFreeBody, BodyFree]
grind_pattern mwFreeBody_topFree => mwFreeBody c s

theorem createQp_topFree (n : Nat) (q : Qp) {x} {t : State} (he : createQp n q s = some (x, t)) : TopFree t.regs := by
  grind [createQp, Option.map_eq_some_iff]
grind_pattern createQp_topFree => createQp n q s, some (x, t)

theorem qpCreateBody_topFree (c : Cmd) : BodyFree (qpCreateBody c s) := by
  unfold qpCreateBody
  repeat refine bodyFree_bind fun _ _ => ?_
  grind [BodyFree]
grind_pattern qpCreateBody_topFree => qpCreateBody c s

theorem qpModifyBody_topFree (c : Cmd) : BodyFree (qpModifyBody c s) := by
  unfold qpModifyBody; grind [BodyFree]
grind_pattern qpModifyBody_topFree => qpModifyBody c s

theorem qpDestroyBody_topFree (c : Cmd) : BodyFree (qpDestroyBody c s) := by grind [qpDestroyBody, BodyFree]
grind_pattern qpDestroyBody_topFree => qpDestroyBody c s

theorem qpQueryBody_topFree (c : Cmd) : BodyFree (qpQueryBody c s) := by grind [qpQueryBody, BodyFree]
grind_pattern qpQueryBody_topFree => qpQueryBody c s

theorem postData_topFree (k : Nat) (q : Qp) (x : Post) (host : HostRead) (faults : List LineFault) :
    TopFree (postData k q x host faults s).2.regs := by
  grind [postData]
grind_pattern postData_topFree => postData k q x host faults s

theorem rdmaPostBody_topFree (host : HostRead) (faults : List LineFault) (c : Cmd) : BodyFree (rdmaPostBody host faults c s) := by
  unfold rdmaPostBody
  repeat refine bodyFree_bind fun _ _ => ?_
  grind [BodyFree]
grind_pattern rdmaPostBody_topFree => rdmaPostBody host faults c s

theorem pumpAll_topFree : TopFree (pumpAll s).regs := by grind [pumpAll]
grind_pattern pumpAll_topFree => pumpAll s

theorem rdmaRecvBody_topFree (c : Cmd) : BodyFree (rdmaRecvBody c s) := by
  unfold rdmaRecvBody
  repeat refine bodyFree_bind fun _ _ => ?_
  grind [BodyFree]
grind_pattern rdmaRecvBody_topFree => rdmaRecvBody c s

theorem freeRdma_topFree (n : Nat) : TopFree (freeRdma n s).regs := hs
grind_pattern freeRdma_topFree => freeRdma n s

theorem invalidateRegions_topFree (n : Nat) : TopFree (invalidateRegions n s).regs := hs
grind_pattern invalidateRegions_topFree => invalidateRegions n s

/-! ### RdmaPackets -/

theorem answer_topFree (k psn : Nat) (op : RoceOp) : TopFree (answer k psn op s).regs := by grind [answer]
grind_pattern answer_topFree => answer k psn op s

theorem sendNak_topFree (k psn code : Nat) : TopFree (sendNak k psn code s).regs := by grind [sendNak, Reg.isTop]
grind_pattern sendNak_topFree => sendNak k psn code s

theorem sendRnr_topFree (k psn : Nat) : TopFree (sendRnr k psn s).regs := by grind [sendRnr, Reg.isTop]
grind_pattern sendRnr_topFree => sendRnr k psn s

theorem noteCe_topFree (k : Nat) (p : RocePacket) (now : Nat) : TopFree (noteCe k p now s).regs := by grind [noteCe, Reg.isTop]
grind_pattern noteCe_topFree => noteCe k p now s

theorem dropPacketIn_topFree : TopFree (dropPacketIn s).regs := by grind [dropPacketIn, Reg.isTop]
grind_pattern dropPacketIn_topFree => dropPacketIn s

theorem inboundPacket_topFree (p : RocePacket) (now : Nat) (act : Nat → Qp → State → State)
    (hact : ∀ x y t, TopFree t.regs → TopFree (act x y t).regs) :
    TopFree (inboundPacket p now act s).regs := by
  grind [inboundPacket, Reg.isTop]
grind_pattern inboundPacket_topFree => inboundPacket p now act s

theorem rcRequest_topFree (p : RocePacket) (run dup : Nat → Qp → State → State) (k : Nat) (q : Qp)
    (hrun : ∀ x y t, TopFree t.regs → TopFree (run x y t).regs) (hdup : ∀ x y t, TopFree t.regs → TopFree (dup x y t).regs) :
    TopFree (rcRequest p run dup k q s).regs := by
  fun_cases rcRequest p run dup k q s <;> grind
grind_pattern rcRequest_topFree => rcRequest p run dup k q s

omit hs in
theorem settleRequest_topFree (k psn : Nat) (ackReq : Bool) (o : Served) (ho : ServedFree o) : TopFree (settleRequest k psn ackReq o).regs := by
  unfold settleRequest; grind [ServedFree]
grind_pattern settleRequest_topFree => settleRequest k psn ackReq o

theorem dupAck_topFree (k : Nat) (q : Qp) : TopFree (dupAck k q s).regs := by grind [dupAck]
grind_pattern dupAck_topFree => dupAck k q s

theorem endReceive_topFree (k status r0 r1 : Nat) : TopFree (endReceive k status r0 r1 s).regs := by grind [endReceive]
grind_pattern endReceive_topFree => endReceive k status r0 r1 s

theorem placeBytes_topFree (k : Nat) (q : Qp) (r : Recv) (off : Nat) (bs : List Byte) (faults : List LineFault) :
    TopFree (placeBytes k q r off bs faults s).2.regs := by
  grind [placeBytes]
grind_pattern placeBytes_topFree => placeBytes k q r off bs faults s

theorem sendRun_topFree (faults : List LineFault) (p : RocePacket) (first last : Bool) (imm : Option Nat) (k : Nat) (q : Qp) :
    ServedFree (sendRun faults p first last imm k q s) := by
  unfold sendRun; grind [ServedFree]
grind_pattern sendRun_topFree => sendRun faults p first last imm k q s

theorem ingressRun_topFree (p : RocePacket) (first last : Bool) (k : Nat) (q : Qp) : ServedFree (ingressRun p first last k q s) := by
  grind [ingressRun, ServedFree]
grind_pattern ingressRun_topFree => ingressRun p first last k q s

theorem udSend_topFree (faults : List LineFault) (p : RocePacket) (imm : Option Nat) (k : Nat) (q : Qp) :
    TopFree (udSend faults p imm k q s).regs := by
  unfold udSend; grind
grind_pattern udSend_topFree => udSend faults p imm k q s

theorem roceSend_topFree (faults : List LineFault) (p : RocePacket) (now : Nat) : TopFree (roceSend faults p now s).regs := by
  fun_cases roceSend faults p now s <;> grind [ServedFree]
grind_pattern roceSend_topFree => roceSend faults p now s

theorem keyNak_topFree (check : Nat) : ServedFree (keyNak check s) := by grind [keyNak, ServedFree, Reg.isTop]
grind_pattern keyNak_topFree => keyNak check s

theorem writeRun_topFree (faults : List LineFault) (p : RocePacket) (last : Bool) (imm : Option Nat) (i : Inbound) (k : Nat) (q : Qp) :
    ServedFree (writeRun faults p last imm i k q s) := by
  fun_cases writeRun faults p last imm i k q s <;> grind [ServedFree]
grind_pattern writeRun_topFree => writeRun faults p last imm i k q s

theorem roceWrite_topFree (faults : List LineFault) (p : RocePacket) (now : Nat) : TopFree (roceWrite faults p now s).regs := by
  unfold roceWrite
  split
  · refine inboundPacket_topFree hs p now _ fun k q t ht => ?_
    split
    · exact dropPacketIn_topFree ht
    · refine rcRequest_topFree ht p _ _ k q (fun k q u hu => ?_) fun k q u hu => dupAck_topFree hu k q
      grind [ServedFree]
  · exact dropPacketIn_topFree hs
grind_pattern roceWrite_topFree => roceWrite faults p now s

theorem readRun_topFree (addr key len : Nat) (host : HostRead) (faults : List LineFault) (k : Nat) (q : Qp) :
    TopFree (readRun addr key len host faults k q s).2.regs := by
  grind [readRun, ServedFree]
grind_pattern readRun_topFree => readRun addr key len host faults k q s

theorem readResponses_topFree (k psn mtu : Nat) (bs : List Byte) : TopFree (readResponses k psn mtu bs s).regs := by grind [readResponses]
grind_pattern readResponses_topFree => readResponses k psn mtu bs s

theorem readRun_error_topFree (addr key len : Nat) (host : HostRead) (faults : List LineFault) (k : Nat) (q : Qp) {o : Served} {t : State}
    (he : readRun addr key len host faults k q s = (.error o, t)) : ServedFree o := by
  unfold readRun at he
  grind [ServedFree, keyNak, Reg.isTop]
grind_pattern readRun_error_topFree => readRun addr key len host faults k q s, Prod.mk (Except.error o) t

theorem roceRead_topFree (p : RocePacket) (now : Nat) (host : HostRead) (faults : List LineFault) :
    TopFree (roceRead p now host faults s).regs := by
  unfold roceRead
  split
  · refine inboundPacket_topFree hs p now _ fun k q t ht => ?_
    grind
  · exact dropPacketIn_topFree hs
grind_pattern roceRead_topFree => roceRead p now host faults s

theorem updateTarget_topFree (n : Nat) (t : Target) (bs : List Byte) : TopFree (updateTarget n t bs s).2.regs := by unfold updateTarget; grind
grind_pattern updateTarget_topFree => updateTarget n t bs s

theorem atomicRun_topFree (p : RocePacket) (addr key : Nat) (f : Nat → Nat) (faults : List LineFault) (k : Nat) (q : Qp) :
    TopFree (atomicRun p addr key f faults k q s).regs := by
  fun_cases atomicRun p addr key f faults k q s <;> grind [ServedFree]
grind_pattern atomicRun_topFree => atomicRun p addr key f faults k q s

theorem atomicDup_topFree (p : RocePacket) (k : Nat) (q : Qp) : TopFree (atomicDup p k q s).regs := by grind [atomicDup, Reg.isTop]
grind_pattern atomicDup_topFree => atomicDup p k q s

theorem roceAtomic_topFree (p : RocePacket) (now addr key : Nat) (f : Nat → Nat) (faults : List LineFault) :
    TopFree (roceAtomic p now addr key f faults s).regs := by
  grind [roceAtomic]
grind_pattern roceAtomic_topFree => roceAtomic p now addr key f faults s

theorem requesterPacket_topFree (p : RocePacket) (now : Nat) (act : Nat → Qp → State → State)
    (hact : ∀ x y t, TopFree t.regs → TopFree (act x y t).regs) :
    TopFree (requesterPacket p now act s).regs := by
  grind [requesterPacket]
grind_pattern requesterPacket_topFree => requesterPacket p now act s

theorem ackUpTo_topFree (k psn : Nat) : TopFree (ackUpTo k psn s).regs := by grind [ackUpTo]
grind_pattern ackUpTo_topFree => ackUpTo k psn s

theorem failOldest_topFree (k status syn : Nat) : TopFree (failOldest k status syn s).regs := by grind [failOldest]
grind_pattern failOldest_topFree => failOldest k status syn s

theorem endPost_topFree (k : Nat) (x : Post) (status r0 r1 : Nat) : TopFree (endPost k x status r0 r1 s).regs := by grind [endPost]
grind_pattern endPost_topFree => endPost k x status r0 r1 s

theorem readResponse_topFree (faults : List LineFault) (p : RocePacket) (k : Nat) (q : Qp) : TopFree (readResponse faults p k q s).regs := by
  fun_cases readResponse faults p k q s <;> grind
grind_pattern readResponse_topFree => readResponse faults p k q s

theorem atomicResponse_topFree (faults : List LineFault) (p : RocePacket) (value k : Nat) (q : Qp) :
    TopFree (atomicResponse faults p value k q s).regs := by
  fun_cases atomicResponse faults p value k q s <;> grind
grind_pattern atomicResponse_topFree => atomicResponse faults p value k q s

theorem resendFrom_topFree (k psn : Nat) : TopFree (resendFrom k psn s).regs := by
  unfold resendFrom; grind [Reg.isTop]
grind_pattern resendFrom_topFree => resendFrom k psn s

theorem retry_topFree (k psn : Nat) : TopFree (retry k psn s).regs := by grind [retry]
grind_pattern retry_topFree => retry k psn s

theorem roceNak_topFree (p : RocePacket) (code k : Nat) : TopFree (roceNak p code k s).regs := by grind [roceNak]
grind_pattern roceNak_topFree => roceNak p code k s

theorem rnrNak_topFree (p : RocePacket) (k : Nat) : TopFree (rnrNak p k s).regs := by grind [rnrNak]
grind_pattern rnrNak_topFree => rnrNak p k s

theorem rnrTimer_topFree (qpn : Nat) : TopFree (rnrTimer qpn s).regs := by
  unfold rnrTimer; grind
grind_pattern rnrTimer_topFree => rnrTimer qpn s

theorem ackTimeout_topFree (qpn now : Nat) : TopFree (ackTimeout qpn now s).regs := by
  unfold ackTimeout; grind
grind_pattern ackTimeout_topFree => ackTimeout qpn now s

theorem heatReplySend_topFree (k : Nat) (imm : Option Nat) (bs : List Byte) : TopFree (heatReplySend k imm bs s).regs := by grind [heatReplySend]
grind_pattern heatReplySend_topFree => heatReplySend k imm bs s

/-! ### Chord -/

theorem setChord_topFree (x : Chord) : TopFree (setChord x s).regs := hs
grind_pattern setChord_topFree => setChord x s

theorem setLink_topFree (c : Nat) (l : Link) : TopFree (setLink c l s).regs := hs
grind_pattern setLink_topFree => setLink c l s

theorem enterLink_topFree (c : Nat) (st : LinkState) : TopFree (enterLink c st s).regs := by grind [enterLink]
grind_pattern enterLink_topFree => enterLink c st s

theorem emitFlit_topFree (c kind number : Nat) (payload : List Byte) (marks : List Nat) : TopFree (emitFlit c kind number payload marks s).regs := hs
grind_pattern emitFlit_topFree => emitFlit c kind number payload marks s

theorem pushData_topFree (c n : Nat) : TopFree (pushData c n s).regs := by
  fun_induction pushData c n s <;> grind
grind_pattern pushData_topFree => pushData c n s

theorem pushLink_topFree (c : Nat) : TopFree (pushLink c s).regs := by grind [pushLink]
grind_pattern pushLink_topFree => pushLink c s

theorem resendLink_topFree (c : Nat) : TopFree (resendLink c s).regs := by grind [resendLink, Reg.isTop]
grind_pattern resendLink_topFree => resendLink c s

theorem putPacket_topFree (c : Nat) (p : Packet) : TopFree (putPacket c p s).regs := by grind [putPacket, Reg.isTop]
grind_pattern putPacket_topFree => putPacket c p s

theorem sendPacket_topFree (p : Packet) {x} {t : State} (he : sendPacket p s = some (x, t)) : TopFree t.regs := by
  grind [sendPacket, Option.map_eq_some_iff]
grind_pattern sendPacket_topFree => sendPacket p s, some (x, t)

theorem sysSend_topFree (viaPair : Bool) (dest : Nat) (m : SysMsg) : TopFree (sysSend viaPair dest m s).regs := by grind [sysSend]
grind_pattern sysSend_topFree => sysSend viaPair dest m s

theorem retrySys_topFree : TopFree (retrySys s).regs := by grind [retrySys]
grind_pattern retrySys_topFree => retrySys s

theorem linkDown_topFree (c cause : Nat) (injected : Bool) : TopFree (linkDown c cause injected s).regs := by grind [linkDown, Reg.isTop]
grind_pattern linkDown_topFree => linkDown c cause injected s

theorem linkTrain_topFree (c : Nat) : TopFree (linkTrain c s).regs := by grind [linkTrain]
grind_pattern linkTrain_topFree => linkTrain c s

theorem switchMode_topFree (c : Nat) (pair : Bool) : TopFree (switchMode c pair s).regs := by grind [switchMode]
grind_pattern switchMode_topFree => switchMode c pair s

theorem linkRetrain_topFree (c : Nat) : TopFree (linkRetrain c s).regs := by grind [linkRetrain, Reg.isTop]
grind_pattern linkRetrain_topFree => linkRetrain c s

theorem actChordLane_topFree (r : Res) (b : Bool) : TopFree (actChordLane r b s).2.regs := by grind [actChordLane]
grind_pattern actChordLane_topFree => actChordLane r b s

theorem laneError_topFree (c lane : Nat) : TopFree (laneError c lane s).regs := by grind [laneError]
grind_pattern laneError_topFree => laneError c lane s

theorem reachIdent_topFree (c : Nat) : TopFree (reachIdent c s).regs := by grind [reachIdent]
grind_pattern reachIdent_topFree => reachIdent c s

theorem linkTrainingComplete_topFree (c failed : Nat) : TopFree (linkTrainingComplete c failed s).regs := by grind [linkTrainingComplete]
grind_pattern linkTrainingComplete_topFree => linkTrainingComplete c failed s

theorem linkIdent_topFree (c : Nat) (i : IdentInfo) : TopFree (linkIdent c i s).regs := by grind [linkIdent]
grind_pattern linkIdent_topFree => linkIdent c i s

theorem noteAck_topFree (c : Nat) (flit : List Byte) : TopFree (noteAck c flit s).regs := by grind [noteAck]
grind_pattern noteAck_topFree => noteAck c flit s

theorem sendFlitNak_topFree (c : Nat) : TopFree (sendFlitNak c s).regs := by grind [sendFlitNak]
grind_pattern sendFlitNak_topFree => sendFlitNak c s

theorem dataFlit_topFree (c : Nat) (flit : List Byte) : TopFree (dataFlit c flit s).regs := by grind [dataFlit]
grind_pattern dataFlit_topFree => dataFlit c flit s

theorem otherFlit_topFree (c kind : Nat) (flit : List Byte) {x} {t : State} (he : otherFlit c kind flit s = some (x, t)) : TopFree t.regs := by
  grind [otherFlit, Option.map_eq_some_iff]
grind_pattern otherFlit_topFree => otherFlit c kind flit s, some (x, t)

theorem nakFlit_topFree (c : Nat) (flit : List Byte) : TopFree (nakFlit c flit s).regs := by grind [nakFlit]
grind_pattern nakFlit_topFree => nakFlit c flit s

theorem takePacket_topFree (c typ : Nat) (poison : List Nat) {x} {t : State} (he : takePacket c typ poison s = some (x, t)) : TopFree t.regs := by
  grind [takePacket]
grind_pattern takePacket_topFree => takePacket c typ poison s, some (x, t)

theorem forwardPacket_topFree (p : Packet) : TopFree (forwardPacket p s).regs := by grind [forwardPacket, Reg.isTop]
grind_pattern forwardPacket_topFree => forwardPacket p s

theorem packetRow_topFree (c typ : Nat) (poison : List Nat) (act : Packet → State → State) (hact : ∀ x t, TopFree t.regs → TopFree (act x t).regs) :
    TopFree (packetRow c typ poison act s).regs := by
  grind [packetRow]
grind_pattern packetRow_topFree => packetRow c typ poison act s

theorem chordLinkBody_topFree (c : Cmd) : BodyFree (chordLinkBody c s) := by grind [chordLinkBody, BodyFree]
grind_pattern chordLinkBody_topFree => chordLinkBody c s

theorem chordRouteBody_topFree (c : Cmd) : BodyFree (chordRouteBody c s) := by grind [chordRouteBody, BodyFree, Reg.isTop]
grind_pattern chordRouteBody_topFree => chordRouteBody c s

theorem chordAclBody_topFree (c : Cmd) : BodyFree (chordAclBody c s) := by grind [chordAclBody, BodyFree, Reg.isTop]
grind_pattern chordAclBody_topFree => chordAclBody c s

/-! ### Transfers -/

theorem setTransfer_topFree (k : Nat) (t : Transfer) : TopFree (setTransfer k t s).regs := hs
grind_pattern setTransfer_topFree => setTransfer k t s

theorem setFold_topFree (k : Nat) (f : Fold) : TopFree (setFold k f s).regs := hs
grind_pattern setFold_topFree => setFold k f s

theorem settleTransfer_topFree (k : Nat) : TopFree (settleTransfer k s).regs := by grind [settleTransfer]
grind_pattern settleTransfer_topFree => settleTransfer k s

theorem sendChunk_topFree (k c : Nat) : TopFree (sendChunk k c s).regs := by
  fun_cases sendChunk k c s <;> grind
grind_pattern sendChunk_topFree => sendChunk k c s

theorem sendOpen_topFree (k : Nat) : TopFree (sendOpen k s).regs := by grind [sendOpen]
grind_pattern sendOpen_topFree => sendOpen k s

theorem chordXferBody_topFree (c : Cmd) : BodyFree (chordXferBody c s) := by grind [chordXferBody, BodyFree]
grind_pattern chordXferBody_topFree => chordXferBody c s

theorem answerPacket_topFree (p : Packet) (typ status : Nat) (payload : List Byte) : TopFree (answerPacket p typ status payload s).regs := by
  grind [answerPacket]
grind_pattern answerPacket_topFree => answerPacket p typ status payload s

theorem ackPacket_topFree (p : Packet) : TopFree (ackPacket p s).regs := by grind [ackPacket]
grind_pattern ackPacket_topFree => ackPacket p s

theorem refusePacket_topFree (p : Packet) (status : Nat) : TopFree (refusePacket p status s).regs := by grind [refusePacket]
grind_pattern refusePacket_topFree => refusePacket p status s

theorem noteApplied_topFree (p : Packet) : TopFree (noteApplied p s).regs := hs
grind_pattern noteApplied_topFree => noteApplied p s

theorem memoryPacket_topFree (p : Packet) (right : Nat) (act : State → State) (hact : ∀ t, TopFree t.regs → TopFree (act t).regs) :
    TopFree (memoryPacket p right act s).regs := by
  grind [memoryPacket, Reg.isTop]
grind_pattern memoryPacket_topFree => memoryPacket p right act s

omit hs in
theorem settlePacket_topFree (p : Packet) (r : Nat × State) (hr : TopFree r.2.regs) : TopFree (settlePacket p r).regs := by grind [settlePacket]
grind_pattern settlePacket_topFree => settlePacket p r

theorem writePacket_topFree (p : Packet) : TopFree (writePacket p s).regs := by grind [writePacket]
grind_pattern writePacket_topFree => writePacket p s

theorem readPacket_topFree (faults : List LineFault) (p : Packet) : TopFree (readPacket faults p s).regs := by grind [readPacket]
grind_pattern readPacket_topFree => readPacket faults p s

theorem readRespPacket_topFree (p : Packet) : TopFree (readRespPacket p s).regs := by
  unfold readRespPacket; grind
grind_pattern readRespPacket_topFree => readRespPacket p s

theorem accumLines_topFree (etype : Nat) (faults : List LineFault) (n a : Nat) (bs : List Byte) :
    TopFree (accumLines etype faults n a bs s).2.regs := by
  fun_induction accumLines etype faults n a bs s <;> grind
grind_pattern accumLines_topFree => accumLines etype faults n a bs s

theorem accumPacket_topFree (faults : List LineFault) (p : Packet) : TopFree (accumPacket faults p s).regs := by grind [accumPacket]
grind_pattern accumPacket_topFree => accumPacket faults p s

theorem endFold_topFree (k : Nat) (f : Fold) (status : Nat) : TopFree (endFold k f status s).regs := hs
grind_pattern endFold_topFree => endFold k f status s

theorem settleFold_topFree (k : Nat) : TopFree (settleFold k s).regs := by grind [settleFold]
grind_pattern settleFold_topFree => settleFold k s

theorem ownLines_topFree (faults : List LineFault) (n a k : Nat) : TopFree (ownLines faults n a k s).2.regs := by
  fun_induction ownLines faults n a k s <;> grind
grind_pattern ownLines_topFree => ownLines faults n a k s

theorem foldSend_topFree (k : Nat) (p : Packet) : TopFree (foldSend k p s).regs := by
  unfold foldSend; grind
grind_pattern foldSend_topFree => foldSend k p s

theorem foldHead_topFree (k : Nat) : TopFree (foldHead k s).regs := by
  fun_cases foldHead k s <;> grind
grind_pattern foldHead_topFree => foldHead k s

theorem chordFoldBody_topFree (c : Cmd) : BodyFree (chordFoldBody c s) := by
  unfold chordFoldBody
  repeat refine bodyFree_bind fun _ _ => ?_
  grind [BodyFree]
grind_pattern chordFoldBody_topFree => chordFoldBody c s

theorem writeSum_topFree (marks : List Nat) (n a k : Nat) (bs : List Byte) : TopFree (writeSum marks n a k bs s).regs := by
  fun_induction writeSum marks n a k bs s <;> grind
grind_pattern writeSum_topFree => writeSum marks n a k bs s

theorem foldChunk_topFree (faults : List LineFault) (p : Packet) : TopFree (foldChunk faults p s).regs := by
  unfold foldChunk; grind [Reg.isTop]
grind_pattern foldChunk_topFree => foldChunk faults p s

theorem ackArrives_topFree (p : Packet) : TopFree (ackArrives p s).regs := by grind [ackArrives]
grind_pattern ackArrives_topFree => ackArrives p s

theorem refuseArrives_topFree (p : Packet) : TopFree (refuseArrives p s).regs := by grind [refuseArrives]
grind_pattern refuseArrives_topFree => refuseArrives p s

theorem resendOver_topFree : TopFree (resendOver s).regs := by grind [resendOver]
grind_pattern resendOver_topFree => resendOver s

omit hs in
theorem linkEvent_topFree (c : Nat) (s' : State) (hs' : TopFree s'.regs) : TopFree (linkEvent c s s').regs := by grind [linkEvent]
grind_pattern linkEvent_topFree => linkEvent c s s'

/-! ### HeatSlot -/

theorem setSlot_topFree (k : Nat) (h : HeatSlot) : TopFree (setSlot k h s).regs := hs
grind_pattern setSlot_topFree => setSlot k h s

theorem changeSlot_topFree (k : Nat) (f : HeatSlot → HeatSlot) : TopFree (changeSlot k f s).regs := hs
grind_pattern changeSlot_topFree => changeSlot k f s

theorem heatPhase_topFree (k phase : Nat) : TopFree (heatPhase k phase s).regs := by grind [heatPhase]
grind_pattern heatPhase_topFree => heatPhase k phase s

theorem taintSlot_topFree (k line : Nat) (hsn : Option Nat) : TopFree (taintSlot k line hsn s).regs := by unfold taintSlot; grind [Reg.isTop]
grind_pattern taintSlot_topFree => taintSlot k line hsn s

theorem slotRead_topFree (faults : List LineFault) (k a n : Nat) : TopFree (slotRead faults k a n s).2.regs := by grind [slotRead]
grind_pattern slotRead_topFree => slotRead faults k a n s

theorem slotWrite_topFree (k a : Nat) (bs : List Byte) : TopFree (slotWrite k a bs s).regs := by grind [slotWrite]
grind_pattern slotWrite_topFree => slotWrite k a bs s

theorem addSpread_topFree (faults : List LineFault) (k : Nat) (hsn : Option Nat) (ext : Extent) (w : Nat) (sub : Bool) (n a : Nat) (bs : List Byte) :
    TopFree (addSpread faults k hsn ext w sub n a bs s).regs := by
  induction n generalizing s a bs with
  | zero => exact hs
  | succ n ih =>
    unfold addSpread
    split
    · exact hs
    · refine ih ?_ _ _
      split <;> grind
grind_pattern addSpread_topFree => addSpread faults k hsn ext w sub n a bs s

theorem putBit_topFree (k u bit : Nat) (on : Bool) : TopFree (putBit k u bit on s).regs := by grind [putBit]
grind_pattern putBit_topFree => putBit k u bit on s

theorem heatSend_topFree (h : HeatSlot) (home : Nat) (m : HeatMsg) : TopFree (heatSend h home m s).regs := by grind [heatSend]
grind_pattern heatSend_topFree => heatSend h home m s

theorem heatTell_topFree (h : HeatSlot) (m : HeatMsg) : TopFree (heatTell h m s).regs := by grind [heatTell]
grind_pattern heatTell_topFree => heatTell h m s

theorem freeEngines_topFree (id : Nat) : TopFree (freeEngines id s).regs := by grind [freeEngines]
grind_pattern freeEngines_topFree => freeEngines id s

theorem failSlot_topFree (k : Nat) : TopFree (failSlot k s).regs := by grind [failSlot]
grind_pattern failSlot_topFree => failSlot k s

theorem failHeat_topFree (k : Nat) : TopFree (failHeat k s).regs := by grind [failHeat]
grind_pattern failHeat_topFree => failHeat k s

/-! ### HeatApply -/

theorem addVector_topFree (faults : List LineFault) (k : Nat) (v : HeatVector) : TopFree (addVector faults k v s).regs := by grind [addVector]
grind_pattern addVector_topFree => addVector faults k v s

theorem markSurvivor_topFree (k u : Nat) : TopFree (markSurvivor k u s).regs := by grind [markSurvivor]
grind_pattern markSurvivor_topFree => markSurvivor k u s

theorem issueVector_topFree (faults : List LineFault) (k u : Nat) : TopFree (issueVector faults k u s).regs := by grind [issueVector]
grind_pattern issueVector_topFree => issueVector faults k u s

theorem applyContribution_topFree (k u typ frag : Nat) (data : List Byte) : TopFree (applyContribution k u typ frag data s).regs := by
  grind [applyContribution]
grind_pattern applyContribution_topFree => applyContribution k u typ frag data s

theorem mirrorItem_topFree (k : Nat) (item : Nat → Nat → SysMsg) : TopFree (mirrorItem k item s).2.regs := by grind [mirrorItem]
grind_pattern mirrorItem_topFree => mirrorItem k item s

theorem acceptContribution_topFree (faults : List LineFault) (k u typ frag : Nat) (data : List Byte) :
    TopFree (acceptContribution faults k u typ frag data s).2.regs := by
  grind [acceptContribution]
grind_pattern acceptContribution_topFree => acceptContribution faults k u typ frag data s

theorem vectorCommit_topFree (k : Nat) : TopFree (vectorCommit k s).regs := by grind [vectorCommit]
grind_pattern vectorCommit_topFree => vectorCommit k s

theorem shadowItem_topFree (id msn : Nat) (act : Nat → State → State) (hact : ∀ x t, TopFree t.regs → TopFree (act x t).regs) :
    TopFree (shadowItem id msn act s).regs := by
  grind [shadowItem]
grind_pattern shadowItem_topFree => shadowItem id msn act s

theorem shadowContribution_topFree (u typ frag : Nat) (data : List Byte) (k : Nat) : TopFree (shadowContribution u typ frag data k s).regs := by
  grind [shadowContribution]
grind_pattern shadowContribution_topFree => shadowContribution u typ frag data k s

theorem shadowCommit_topFree (faults : List LineFault) (hsn u k : Nat) : TopFree (shadowCommit faults hsn u k s).regs := by grind [shadowCommit]
grind_pattern shadowCommit_topFree => shadowCommit faults hsn u k s

theorem pokeRegion_topFree (addr : Nat → Nat) (n a : Nat) (bs : List Byte) : TopFree (pokeRegion addr n a bs s).regs := by
  fun_induction pokeRegion addr n a bs s <;> grind
grind_pattern pokeRegion_topFree => pokeRegion addr n a bs s

theorem writeImage_topFree (k : Nat) (im : SlotImage) : TopFree (writeImage k im s).regs := by grind [writeImage]
grind_pattern writeImage_topFree => writeImage k im s

omit hs in
theorem mirrorChanges_topFree (s' : State) (hs' : TopFree s'.regs) : TopFree (mirrorChanges s s').regs := by grind [mirrorChanges]
grind_pattern mirrorChanges_topFree => mirrorChanges s s'

/-! ### HeatClose -/

theorem reconstruct_topFree (k : Nat) : TopFree (reconstruct k s).regs := by grind [reconstruct]
grind_pattern reconstruct_topFree => reconstruct k s

theorem actExpander_topFree (r : Res) (b : Bool) : TopFree (actExpander r b s).2.regs := hs
grind_pattern actExpander_topFree => actExpander r b s

theorem maskChunkEnd_topFree (k n : Nat) (fault : Bool) (faults : List LineFault) : TopFree (maskChunkEnd k n fault faults s).regs := by
  grind [maskChunkEnd]
grind_pattern maskChunkEnd_topFree => maskChunkEnd k n fault faults s

theorem treeChunk_topFree (faults : List LineFault) (k tree child chunk : Nat) (bs : List Byte) :
    TopFree (treeChunk faults k tree child chunk bs s).regs := by
  grind [treeChunk]
grind_pattern treeChunk_topFree => treeChunk faults k tree child chunk bs s

theorem sendPartial_topFree (k tree : Nat) : TopFree (sendPartial k tree s).regs := by
  unfold sendPartial; grind
grind_pattern sendPartial_topFree => sendPartial k tree s

theorem retryTree_topFree : TopFree (retryTree s).regs := by grind [retryTree]
grind_pattern retryTree_topFree => retryTree s

theorem sendCheckpoint_topFree (k : Nat) : TopFree (sendCheckpoint k s).regs := by grind [sendCheckpoint]
grind_pattern sendCheckpoint_topFree => sendCheckpoint k s

theorem climb_topFree (k : Nat) : TopFree (climb k s).regs := by grind [climb]
grind_pattern climb_topFree => climb k s

theorem combine_topFree (k : Nat) (sub : Bool) (bs : List Byte) : TopFree (combine k sub bs s).regs := by grind [combine]
grind_pattern combine_topFree => combine k sub bs s

theorem subtractMasks_topFree (k : Nat) : TopFree (subtractMasks k s).regs := by grind [subtractMasks]
grind_pattern subtractMasks_topFree => subtractMasks k s

theorem noiseDraw_draw_topFree (k n : Nat) : TopFree (noiseDraw.draw k n s).regs := by
  fun_induction noiseDraw.draw k n s <;> grind [Reg.isTop]
grind_pattern noiseDraw_draw_topFree => noiseDraw.draw k n s

theorem noiseDraw_topFree (k : Nat) : TopFree (noiseDraw k s).regs := by grind [noiseDraw]
grind_pattern noiseDraw_topFree => noiseDraw k s

theorem takeEngine_topFree (e : Nat) (h : HeatSlot) : TopFree (takeEngine e h s).regs := hs
grind_pattern takeEngine_topFree => takeEngine e h s

theorem spoilStore_topFree (e n : Nat) : TopFree (spoilStore e n s).regs := hs
grind_pattern spoilStore_topFree => spoilStore e n s

theorem sealResult_topFree (k : Nat) (body : List Byte) : TopFree (sealResult k body s).regs := by grind [sealResult]
grind_pattern sealResult_topFree => sealResult k body s

theorem rootSteps_topFree (k : Nat) : TopFree (rootSteps k s).regs := by
  fun_cases rootSteps k s <;> grind
grind_pattern rootSteps_topFree => rootSteps k s

/-! ### HeatPhase -/

theorem endOne_topFree (k : Nat) : TopFree (endOne k s).regs := by grind [endOne]
grind_pattern endOne_topFree => endOne k s

theorem endPhase_topFree (k : Nat) : TopFree (endPhase k s).regs := by grind [endPhase]
grind_pattern endPhase_topFree => endPhase k s

theorem takeDeadlines_topFree (k stroke n : Nat) : TopFree (takeDeadlines k stroke n s).regs := by
  fun_induction takeDeadlines k stroke n s <;> grind
grind_pattern takeDeadlines_topFree => takeDeadlines k stroke n s

theorem resumeSlot_topFree (k : Nat) : TopFree (resumeSlot k s).regs := by grind [resumeSlot]
grind_pattern resumeSlot_topFree => resumeSlot k s

theorem setDeadlineMark_topFree : TopFree (setDeadlineMark s).regs := by grind [setDeadlineMark]
grind_pattern setDeadlineMark_topFree => setDeadlineMark s

theorem setCheckpointMark_topFree : TopFree (setCheckpointMark s).regs := by grind [setCheckpointMark]
grind_pattern setCheckpointMark_topFree => setCheckpointMark s

theorem deadlinesReleased_topFree (target : Nat) : TopFree (deadlinesReleased target s).regs := by grind [deadlinesReleased]
grind_pattern deadlinesReleased_topFree => deadlinesReleased target s

theorem deadlinesExpired_topFree (target : Nat) : TopFree (deadlinesExpired target s).regs := by grind [deadlinesExpired]
grind_pattern deadlinesExpired_topFree => deadlinesExpired target s

theorem sendReport_topFree (k ph members : Nat) (ok : Bool) : TopFree (sendReport k ph members ok s).regs := by grind [sendReport]
grind_pattern sendReport_topFree => sendReport k ph members ok s

theorem sendBits_topFree (k ph home : Nat) : TopFree (sendBits k ph home s).regs := by grind [sendBits]
grind_pattern sendBits_topFree => sendBits k ph home s

theorem sendShares_topFree (k : Nat) (home : Nat × Nat × Nat) : TopFree (sendShares k home s).regs := by grind [sendShares]
grind_pattern sendShares_topFree => sendShares k home s

theorem sendReveals_topFree (k : Nat) (home : Nat × Nat × Nat) : TopFree (sendReveals k home s).regs := by grind [sendReveals]
grind_pattern sendReveals_topFree => sendReveals k home s

theorem sendKeys_topFree (k home : Nat) : TopFree (sendKeys k home s).regs := by grind [sendKeys]
grind_pattern sendKeys_topFree => sendKeys k home s

theorem forHomes_topFree (k : Nat) (f : Nat × Nat × Nat → State → State) (hf : ∀ x t, TopFree t.regs → TopFree (f x t).regs) :
    TopFree (forHomes k f s).regs := by
  grind [forHomes]
grind_pattern forHomes_topFree => forHomes k f s

theorem noteEnding_topFree (k ph stage : Nat) : TopFree (noteEnding k ph stage s).regs := hs
grind_pattern noteEnding_topFree => noteEnding k ph stage s

theorem dropEnding_topFree (k ph : Nat) : TopFree (dropEnding k ph s).regs := hs
grind_pattern dropEnding_topFree => dropEnding k ph s

theorem endingWork_topFree (k ph stage : Nat) : TopFree (endingWork k ph stage s).regs := by grind [endingWork]
grind_pattern endingWork_topFree => endingWork k ph stage s

theorem tryVerdict_topFree (k ph : Nat) : TopFree (tryVerdict k ph s).regs := by grind [tryVerdict]
grind_pattern tryVerdict_topFree => tryVerdict k ph s

theorem graphWork_topFree (k : Nat) : TopFree (graphWork k s).regs := by grind [graphWork]
grind_pattern graphWork_topFree => graphWork k s

theorem progress_topFree (k : Nat) : TopFree (progress k s).regs := by grind [progress]
grind_pattern progress_topFree => progress k s

theorem takeVerdict_topFree (k ph : Nat) (ok : Bool) (seed : List Byte) (homes : List (Nat × Nat × Nat)) (total : Nat) :
    TopFree (takeVerdict k ph ok seed homes total s).regs := by
  grind [takeVerdict]
grind_pattern takeVerdict_topFree => takeVerdict k ph ok seed homes total s

theorem takeHeatMsg_topFree (k : Nat) (m : HeatMsg) : TopFree (takeHeatMsg k m s).regs := by unfold takeHeatMsg; grind
grind_pattern takeHeatMsg_topFree => takeHeatMsg k m s

theorem heatLoop_topFree (n : Nat) : TopFree (heatLoop n s).regs := by
  fun_induction heatLoop n s <;> grind
grind_pattern heatLoop_topFree => heatLoop n s

theorem handSlots_topFree : TopFree (handSlots s).regs := by grind [handSlots]
grind_pattern handSlots_topFree => handSlots s

omit hs in
theorem heatRow_topFree (s' : State) (hs' : TopFree s'.regs) : TopFree (heatRow s s').regs := by grind [heatRow]
grind_pattern heatRow_topFree => heatRow s s'

theorem exchangeTimeout_topFree (k : Nat) : TopFree (exchangeTimeout k s).regs := by grind [exchangeTimeout]
grind_pattern exchangeTimeout_topFree => exchangeTimeout k s

/-! ### HeatIngress -/

theorem heatReply_topFree (q : Nat) (queue : Bool) (hd : HeatHeader) (status : Nat) (imm : Option Nat) (kEd plain : List Byte) :
    TopFree (heatReply q queue hd status imm kEd plain s).regs := by
  grind [heatReply, Reg.isTop]
grind_pattern heatReply_topFree => heatReply q queue hd status imm kEd plain s

theorem serveMessage_topFree (faults : List LineFault) (q : Nat) (queue : Bool) (k : Nat) (hd : HeatHeader) (parsed : Nat)
    (kEd ePk plain : List Byte) :
    PipedFree (serveMessage faults q queue k hd parsed kEd ePk plain s) := by
  grind [serveMessage, PipedFree]
grind_pattern serveMessage_topFree => serveMessage faults q queue k hd parsed kEd ePk plain s

theorem pipeline_topFree (faults : List LineFault) (q n : Nat) (queue : Bool) (msg : List Byte) (parsed : Nat) (accepted : Option Nat) :
    PipedFree (pipeline faults q n queue msg parsed accepted s) := by
  fun_cases pipeline faults q n queue msg parsed accepted s <;> grind [PipedFree]
grind_pattern pipeline_topFree => pipeline faults q n queue msg parsed accepted s

theorem messageRow_topFree (typ qpn : Nat) (faults : List LineFault) : TopFree (messageRow typ qpn faults s).regs := by
  fun_cases messageRow typ qpn faults s <;> grind [PipedFree]
grind_pattern messageRow_topFree => messageRow typ qpn faults s

theorem sendWaiting_topFree (q n : Nat) : TopFree (sendWaiting q n s).regs := by
  fun_induction sendWaiting q n s <;> grind
grind_pattern sendWaiting_topFree => sendWaiting q n s

theorem heldReply_topFree (qpn : Nat) (faults : List LineFault) : TopFree (heldReply qpn faults s).regs := by
  fun_cases heldReply qpn faults s <;> grind [PipedFree]
grind_pattern heldReply_topFree => heldReply qpn faults s

/-! ### HeatTaint -/

theorem taintRow_topFree (k a : Nat) (faults : List LineFault) : TopFree (taintRow k a faults s).regs := by grind [taintRow]
grind_pattern taintRow_topFree => taintRow k a faults s

theorem refillLine_topFree (k off : Nat) : TopFree (refillLine k off s).regs := by grind [refillLine]
grind_pattern refillLine_topFree => refillLine k off s

theorem remask_topFree (k off : Nat) : TopFree (remask k off s).regs := hs
grind_pattern remask_topFree => remask k off s

theorem recount_topFree (k : Nat) : TopFree (recount k s).regs := hs
grind_pattern recount_topFree => recount k s

theorem untaint_topFree (k : Nat) : TopFree (untaint k s).regs := by grind [untaint]
grind_pattern untaint_topFree => untaint k s

theorem restoreLine_topFree (lines : List (Nat × List Byte)) (k line : Nat) {t : State} (he : restoreLine lines k line s = some t) :
    TopFree t.regs := by
  have hput (bs : List Byte) : TopFree (poke (unpoison s (line * 64)) (line * 64) (padTo 64 bs)).regs := hs
  unfold restoreLine at he
  dsimp only at he
  split at he
  · split at he
    · cases he
    · obtain ⟨bs, -, rfl⟩ := Option.map_eq_some_iff.mp he
      cases offsetIn (slotOf s k).acc (slotOf s k).v line with
      | none => exact hput bs
      | some off => exact refillLine_topFree (hput bs) k off
  · grind
  · grind
  · split at he
    · obtain ⟨bs, -, rfl⟩ := Option.map_eq_some_iff.mp he
      exact hput bs
    · cases he
  · cases he
grind_pattern restoreLine_topFree => restoreLine lines k line s, some t

theorem taintRecovery_topFree (k : Nat) (lines : List (Nat × List Byte)) (image : SlotImage) : TopFree (taintRecovery k lines image s).regs := by
  unfold taintRecovery
  dsimp only
  split
  · exact hs
  split
  · refine untaint_topFree (recount_topFree (foldl_topFree (fun s l hs => ?_) _ (writeImage_topFree (setSlot_topFree hs _ _) _ _)) k) k
    cases h : restoreLine lines k l s with
    | none => exact hs
    | some t => exact restoreLine_topFree hs lines k l h
  · split
    · exact failHeat_topFree hs k
    next t ht => exact untaint_topFree (foldl_bind_topFree (fun s l t hs => restoreLine_topFree hs lines k l) _ hs ht) k
grind_pattern taintRecovery_topFree => taintRecovery k lines image s

theorem zeroExtent_topFree (e : Extent) : TopFree (zeroExtent e s).regs := by grind [zeroExtent]
grind_pattern zeroExtent_topFree => zeroExtent e s

theorem carve_topFree (h : HeatSlot) (lead : Bool) {x} {t : State} (he : carve h lead s = some (x, t)) : TopFree t.regs := by
  unfold carve at he
  dsimp only at he
  split at he
  · cases he
  split at he
  · split at he
    · cases he
    · cases he
      have hz {l : List Extent} : TopFree (l.foldl (fun s e => zeroExtent e s) s).regs :=
        foldl_topFree (fun s e hs => zeroExtent_topFree hs e) l hs
      split
      · exact foldl_topFree (fun s e hs => poke_topFree hs ..) _ hz
      · exact hz
  · cases he
grind_pattern carve_topFree => carve h lead s, some (x, t)

theorem freeSlot_topFree (k : Nat) : TopFree (freeSlot k s).regs := by grind [freeSlot]
grind_pattern freeSlot_topFree => freeSlot k s

theorem openShadow_topFree (h : HeatSlot) {x} {t : State} (he : openShadow h s = some (x, t)) : TopFree t.regs := by
  grind [openShadow, Option.map_eq_some_iff]
grind_pattern openShadow_topFree => openShadow h s, some (x, t)

theorem endOpen_topFree (k serial : Nat) : TopFree (endOpen k serial s).regs := by grind [endOpen]
grind_pattern endOpen_topFree => endOpen k serial s

theorem takeWhole_topFree (k : Nat) (h : HeatSlot) (im : SlotImage) : TopFree (takeWhole k h im s).regs := by grind [takeWhole]
grind_pattern takeWhole_topFree => takeWhole k h im s

theorem heatSys_topFree (faults : List LineFault) (m : SysMsg) : TopFree (heatSys faults m s).regs := by
  fun_cases heatSys faults m s <;> grind
grind_pattern heatSys_topFree => heatSys faults m s

theorem heatChunk_topFree (faults : List LineFault) (p : Packet) : TopFree (heatChunk faults p s).regs := by grind [heatChunk]
grind_pattern heatChunk_topFree => heatChunk faults p s

/-! ### HeatCmd -/

theorem heatPoolSetBody_topFree (c : Cmd) : BodyFree (heatPoolSetBody c s) := by
  unfold heatPoolSetBody
  repeat refine bodyFree_bind fun _ _ => ?_
  grind [BodyFree]
grind_pattern heatPoolSetBody_topFree => heatPoolSetBody c s

theorem heatOpenBody_topFree (faults : List LineFault) (c : Cmd) : BodyFree (heatOpenBody faults c s) := by
  unfold heatOpenBody
  repeat refine bodyFree_bind fun _ _ => ?_
  dsimp only
  split
  next h0 =>
    exact topFree_of_eq h0 (by grind)
  next obj s0 h0 =>
  replace h0 := topFree_of_eq h0 (by grind)
  repeat refine bodyFree_bind fun _ _ => ?_
  split
  · trivial
  repeat refine bodyFree_bind fun _ _ => ?_
  split
  · trivial
  next h opened hc =>
  have h1 := carve_topFree h0 _ _ hc
  clear hc
  split
  next hw => exact topFree_of_eq hw (internalBytes_topFree h0 ..)
  next secret w hw =>
  replace hw := topFree_of_eq hw (internalBytes_topFree h0 ..)
  split
  next hv => exact topFree_of_eq hv (internalBytes_topFree hw ..)
  next draw v hv =>
  replace hv := topFree_of_eq hv (internalBytes_topFree hw ..)
  have h2 (h : HeatSlot) (i : Nat) : TopFree (setSlot i h { opened with rng := v.rng, regs := v.regs }).regs :=
    setSlot_topFree (s := { opened with rng := v.rng, regs := v.regs }) hv i h
  grind [BodyFree]
grind_pattern heatOpenBody_topFree => heatOpenBody faults c s

theorem heatAdvanceBody_topFree (c : Cmd) : BodyFree (heatAdvanceBody c s) := by
  unfold heatAdvanceBody; grind [BodyFree]
grind_pattern heatAdvanceBody_topFree => heatAdvanceBody c s

theorem heatAbortBody_topFree (c : Cmd) : BodyFree (heatAbortBody c s) := by grind [heatAbortBody, BodyFree]
grind_pattern heatAbortBody_topFree => heatAbortBody c s

theorem heatQueryBody_topFree (c : Cmd) : BodyFree (heatQueryBody c s) := by grind [heatQueryBody, BodyFree]
grind_pattern heatQueryBody_topFree => heatQueryBody c s

theorem heatCollectBody_topFree (c : Cmd) : BodyFree (heatCollectBody c s) := by
  unfold heatCollectBody
  repeat refine bodyFree_bind fun _ _ => ?_
  split <;> repeat refine bodyFree_bind fun _ _ => ?_
  all_goals grind [BodyFree]
grind_pattern heatCollectBody_topFree => heatCollectBody c s

/-! ### Seal -/

theorem setSealing_topFree (x : Seal) : TopFree (setSealing x s).regs := hs
grind_pattern setSealing_topFree => setSealing x s

theorem makeReport_topFree (nonce user : List Byte) : TopFree (makeReport nonce user s).2.regs := by grind [makeReport]
grind_pattern makeReport_topFree => makeReport nonce user s

theorem attestReportBody_topFree (c : Cmd) : BodyFree (attestReportBody c s) := by
  unfold attestReportBody
  repeat refine bodyFree_bind fun _ _ => ?_
  grind [BodyFree]
grind_pattern attestReportBody_topFree => attestReportBody c s

theorem certReadBody_topFree (c : Cmd) : BodyFree (certReadBody c s) := by
  unfold certReadBody
  repeat refine bodyFree_bind fun _ _ => ?_
  grind [BodyFree]
grind_pattern certReadBody_topFree => certReadBody c s

theorem bounceAddBody_topFree (c : Cmd) : BodyFree (bounceAddBody c s) := by
  unfold bounceAddBody
  repeat refine bodyFree_bind fun _ _ => ?_
  grind [BodyFree]
grind_pattern bounceAddBody_topFree => bounceAddBody c s

theorem bounceRemoveBody_topFree (c : Cmd) : BodyFree (bounceRemoveBody c s) := by
  unfold bounceRemoveBody
  repeat refine bodyFree_bind fun _ _ => ?_
  grind [BodyFree]
grind_pattern bounceRemoveBody_topFree => bounceRemoveBody c s

theorem opkeyLoadBody_topFree (key : HostRead) (c : Cmd) : BodyFree (opkeyLoadBody key c s) := by
  unfold opkeyLoadBody; grind [BodyFree]
grind_pattern opkeyLoadBody_topFree => opkeyLoadBody key c s

theorem opkeyRemoveBody_topFree (c : Cmd) : BodyFree (opkeyRemoveBody c s) := by grind [opkeyRemoveBody, BodyFree]
grind_pattern opkeyRemoveBody_topFree => opkeyRemoveBody c s

theorem zeroNearLake_topFree : TopFree (zeroNearLake s).regs := hs
grind_pattern zeroNearLake_topFree => zeroNearLake s

theorem releaseFar_topFree : TopFree (releaseFar s).regs := hs
grind_pattern releaseFar_topFree => releaseFar s

theorem sealArmBody_topFree (c : Cmd) : BodyFree (sealArmBody c s) := by grind [sealArmBody, BodyFree]
grind_pattern sealArmBody_topFree => sealArmBody c s

theorem endSession_topFree (n : Nat) : TopFree (endSession n s).regs := hs
grind_pattern endSession_topFree => endSession n s

/-! ### Spdm -/

theorem setMailbox_topFree (p : Nat) (m : Mailbox) : TopFree (setMailbox p m s).regs := hs
grind_pattern setMailbox_topFree => setMailbox p m s

theorem setSession_topFree (p : Nat) (x : Session) : TopFree (setSession p x s).regs := hs
grind_pattern setSession_topFree => setSession p x s

theorem answerVersion_topFree (p : Nat) (m : List Byte) : TopFree (answerVersion p m s).2.regs := hs
grind_pattern answerVersion_topFree => answerVersion p m s

theorem answerCapabilities_topFree (p : Nat) (m : List Byte) : TopFree (answerCapabilities p m s).2.regs := by grind [answerCapabilities]
grind_pattern answerCapabilities_topFree => answerCapabilities p m s

theorem answerAlgorithms_topFree (p : Nat) (m : List Byte) : TopFree (answerAlgorithms p m s).2.regs := by grind [answerAlgorithms]
grind_pattern answerAlgorithms_topFree => answerAlgorithms p m s

theorem noteCerts_topFree (p : Nat) (m r : List Byte) : TopFree (noteCerts p m r s).regs := hs
grind_pattern noteCerts_topFree => noteCerts p m r s

theorem answerDigests_topFree (p : Nat) (m : List Byte) : TopFree (answerDigests p m s).2.regs := hs
grind_pattern answerDigests_topFree => answerDigests p m s

theorem answerCertificate_topFree (p : Nat) (m : List Byte) : TopFree (answerCertificate p m s).2.regs := by grind [answerCertificate]
grind_pattern answerCertificate_topFree => answerCertificate p m s

theorem answerChallenge_topFree (p : Nat) (m : List Byte) : TopFree (answerChallenge p m s).2.regs := by grind [answerChallenge]
grind_pattern answerChallenge_topFree => answerChallenge p m s

theorem answerMeasurements_topFree (p : Nat) (m : List Byte) : TopFree (answerMeasurements p m s).2.regs := by grind [answerMeasurements]
grind_pattern answerMeasurements_topFree => answerMeasurements p m s

theorem answerKeyExchange_topFree (p : Nat) (m : List Byte) : TopFree (answerKeyExchange p m s).2.regs := by grind [answerKeyExchange]
grind_pattern answerKeyExchange_topFree => answerKeyExchange p m s

theorem answerFinish_topFree (p : Nat) (x : Session) (m : List Byte) : TopFree (answerFinish p x m s).2.regs := by grind [answerFinish]
grind_pattern answerFinish_topFree => answerFinish p x m s

theorem answerHeartbeat_topFree : TopFree (answerHeartbeat s).2.regs := hs
grind_pattern answerHeartbeat_topFree => answerHeartbeat s

theorem answerKeyUpdate_topFree (p : Nat) (x : Session) (m : List Byte) : TopFree (answerKeyUpdate p x m s).2.regs := by grind [answerKeyUpdate]
grind_pattern answerKeyUpdate_topFree => answerKeyUpdate p x m s

theorem answerEndSession_topFree (p : Nat) : TopFree (answerEndSession p s).2.regs := by grind [answerEndSession]
grind_pattern answerEndSession_topFree => answerEndSession p s

theorem answerKemKey_topFree (p : Nat) (x : Session) : TopFree (answerKemKey p x s).2.regs := by grind [answerKemKey]
grind_pattern answerKemKey_topFree => answerKemKey p x s

theorem answerKemCipher_topFree (p : Nat) (x : Session) (body : List Byte) : TopFree (answerKemCipher p x body s).2.regs := by grind [answerKemCipher]
grind_pattern answerKemCipher_topFree => answerKemCipher p x body s

theorem vendorBody_topFree (data : HostRead) (c : Cmd) : BodyFree (vendorBody data c s) := by grind [vendorBody, BodyFree]
grind_pattern vendorBody_topFree => vendorBody data c s

theorem vendorDone_topFree (c : Cmd) (status r0 r1 : Nat) (more : List Byte) : TopFree (vendorDone c status r0 r1 more s).2.regs := hs
grind_pattern vendorDone_topFree => vendorDone c status r0 r1 more s

theorem answerVendorCommand_topFree (p : Nat) (data : HostRead) (body : List Byte) : TopFree (answerVendorCommand p data body s).2.regs := by
  fun_cases answerVendorCommand p data body s <;> grind [BodyFree]
grind_pattern answerVendorCommand_topFree => answerVendorCommand p data body s

theorem answerMldsa_topFree (body : List Byte) : TopFree (answerMldsa body s).2.regs := hs
grind_pattern answerMldsa_topFree => answerMldsa body s

theorem answerIde_topFree (payload : List Byte) : TopFree (answerIde payload s).2.regs := by grind [answerIde]
grind_pattern answerIde_topFree => answerIde payload s

theorem inSession_topFree (x : Option Session) (f : Session → Answer) (hf : ∀ x, TopFree (f x).2.regs) : TopFree (inSession x f s).2.regs := by
  unfold inSession; grind
grind_pattern inSession_topFree => inSession x f s

theorem answerOne_topFree (p row : Nat) (x : Option Session) (data : HostRead) (m : List Byte) : TopFree (answerOne p row x data m s).2.regs := by
  fun_cases answerOne p row x data m s <;> grind
grind_pattern answerOne_topFree => answerOne p row x data m s

theorem answerChunkSend_topFree (p : Nat) (x : Option Session) (data : HostRead) (m : List Byte) : TopFree (answerChunkSend p x data m s).2.regs := by
  grind [answerChunkSend]
grind_pattern answerChunkSend_topFree => answerChunkSend p x data m s

theorem answerChunkGet_topFree (p : Nat) (x : Option Session) (m : List Byte) : TopFree (answerChunkGet p x m s).2.regs := by grind [answerChunkGet]
grind_pattern answerChunkGet_topFree => answerChunkGet p x m s

theorem placeResponse_topFree (p : Nat) (r : List Byte) : TopFree (placeResponse p r s).regs := by grind [placeResponse, Reg.isTop]
grind_pattern placeResponse_topFree => placeResponse p r s

theorem secureResponse_topFree (p : Nat) (x : Session) (r : List Byte) : TopFree (secureResponse p x r s).2.regs := by grind [secureResponse]
grind_pattern secureResponse_topFree => secureResponse p x r s

theorem largeResponse_topFree (p : Nat) (secured : Bool) (r : List Byte) : TopFree (largeResponse p secured r s).2.regs := by grind [largeResponse]
grind_pattern largeResponse_topFree => largeResponse p secured r s

theorem spdmRow_topFree (row p : Nat) (req : List Byte) (data : HostRead) : TopFree (spdmRow row p req data s).regs := by
  fun_cases spdmRow row p req data s <;> grind
grind_pattern spdmRow_topFree => spdmRow row p req data s

/-! ### Ports -/

theorem setEth_topFree (e : Nat) (p : EthPort) : TopFree (setEth e p s).regs := hs
grind_pattern setEth_topFree => setEth e p s

theorem sendPfc_topFree (e sub cls quanta : Nat) : TopFree (sendPfc e sub cls quanta s).regs := by grind [sendPfc, Reg.isTop]
grind_pattern sendPfc_topFree => sendPfc e sub cls quanta s

theorem subportUp_topFree (e sub : Nat) : TopFree (subportUp e sub s).regs := by grind [subportUp]
grind_pattern subportUp_topFree => subportUp e sub s

theorem subportDown_topFree (e sub : Nat) : TopFree (subportDown e sub s).regs := by grind [subportDown, Reg.isTop]
grind_pattern subportDown_topFree => subportDown e sub s

theorem writePortCfg_topFree (e v : Nat) : TopFree (writePortCfg e v s).regs := by grind [writePortCfg, Reg.isTop]
grind_pattern writePortCfg_topFree => writePortCfg e v s

theorem pfcFrame_topFree (e sub classes times : Nat) : TopFree (pfcFrame e sub classes times s).regs := by grind [pfcFrame, Reg.isTop]
grind_pattern pfcFrame_topFree => pfcFrame e sub classes times s

theorem holdBytes_topFree (e sub cls bytes : Nat) : TopFree (holdBytes e sub cls bytes s).regs := by grind [holdBytes]
grind_pattern holdBytes_topFree => holdBytes e sub cls bytes s

theorem otherFrame_topFree (e sub : Nat) (accepted : Bool) (cls bytes : Nat) : TopFree (otherFrame e sub accepted cls bytes s).regs := by
  grind [otherFrame, Reg.isTop]
grind_pattern otherFrame_topFree => otherFrame e sub accepted cls bytes s

theorem pfcXon_topFree (e sub cls : Nat) : TopFree (pfcXon e sub cls s).regs := by grind [pfcXon]
grind_pattern pfcXon_topFree => pfcXon e sub cls s

theorem msixUnmask_topFree (f : Fn) (vector : Option Nat) : TopFree (msixUnmask f vector s).regs := by unfold msixUnmask; grind
grind_pattern msixUnmask_topFree => msixUnmask f vector s

/-! ### Mover -/

theorem setCxl_topFree (p : Nat) (x : CxlPort) : TopFree (setCxl p x s).regs := by grind [setCxl]
grind_pattern setCxl_topFree => setCxl p x s

theorem changeHead_topFree (f : Mover → Mover) : TopFree (changeHead f s).regs := by grind [changeHead]
grind_pattern changeHead_topFree => changeHead f s

theorem writeLeaf_topFree (faults : List LineFault) (pte : Nat) (f : Nat → Nat) : TopFree (writeLeaf faults pte f s).2.regs := by grind [writeLeaf]
grind_pattern writeLeaf_topFree => writeLeaf faults pte f s

theorem abandonPage_topFree : TopFree (abandonPage s).regs := by
  unfold abandonPage; grind
grind_pattern abandonPage_topFree => abandonPage s

theorem halveLeaves_topFree (table : Nat) : TopFree (halveLeaves table s).regs := by grind [halveLeaves]
grind_pattern halveLeaves_topFree => halveLeaves table s

theorem endHead_topFree (status r0 r1 : Nat) : TopFree (endHead status r0 r1 s).regs := by grind [endHead]
grind_pattern endHead_topFree => endHead status r0 r1 s

theorem moverGo_topFree (n : Nat) : TopFree (moverGo n s).regs := by
  fun_induction moverGo n s <;> grind
grind_pattern moverGo_topFree => moverGo n s

theorem moverRun_topFree : TopFree (moverRun s).regs := by grind [moverRun]
grind_pattern moverRun_topFree => moverRun s

theorem copyPage_topFree (src dst : Nat) : TopFree (copyPage src dst s).regs := hs
grind_pattern copyPage_topFree => copyPage src dst s

theorem injectFar_topFree (base : Nat) : TopFree (injectFar base s).2.regs :=
  foldl_snd_topFree (fun _ e hp => foldl_topFree (fun _ _ hs => fireSlot_topFree hs e.1) _ hp) _ hs
grind_pattern injectFar_topFree => injectFar base s

theorem readPage_topFree (faults : List LineFault) (poisonLines : List Nat) (sector base : Nat) :
    TopFree (readPage faults poisonLines sector base s).regs := by
  grind [readPage, Reg.isTop]
grind_pattern readPage_topFree => readPage faults poisonLines sector base s

theorem pageMoveEnd_topFree (tagFail : Bool) (poisonLines : List Nat) (faults : List LineFault) :
    TopFree (pageMoveEnd tagFail poisonLines faults s).regs := by
  fun_cases pageMoveEnd tagFail poisonLines faults s <;> grind
grind_pattern pageMoveEnd_topFree => pageMoveEnd tagFail poisonLines faults s

theorem fillFar_topFree (n base size : Nat) : TopFree (fillFar n base size s).regs := by grind [fillFar]
grind_pattern fillFar_topFree => fillFar n base size s

theorem fillEnd_topFree : TopFree (fillEnd s).regs := by
  unfold fillEnd; grind
grind_pattern fillEnd_topFree => fillEnd s

theorem queueMove_topFree (m : Mover) : TopFree (queueMove m s).regs := by grind [queueMove]
grind_pattern queueMove_topFree => queueMove m s

theorem entryReads_topFree (faults : List LineFault) (l : List Nat) : TopFree (entryReads faults l s).2.regs := by
  fun_induction entryReads faults l s <;> grind
grind_pattern entryReads_topFree => entryReads faults l s

theorem tierMoveBody_topFree (faults : List LineFault) (c : Cmd) : BodyFree (tierMoveBody faults c s) := by
  unfold tierMoveBody
  refine bodyFree_bind fun _ _ => ?_
  split
  · refine bodyFree_bind fun _ _ => ?_
    dsimp only
    split
    · repeat refine bodyFree_bind fun _ _ => ?_
      grind [BodyFree]
    · grind [BodyFree]
  · refine bodyFree_bind fun _ _ => ?_
    split
    · repeat refine bodyFree_bind fun _ _ => ?_
      grind [BodyFree]
    · grind [BodyFree]
grind_pattern tierMoveBody_topFree => tierMoveBody faults c s

theorem memZeroBody_topFree (c : Cmd) : BodyFree (memZeroBody c s) := by grind [memZeroBody, BodyFree]
grind_pattern memZeroBody_topFree => memZeroBody c s

theorem farAssignBody_topFree (c : Cmd) : BodyFree (farAssignBody c s) := by
  unfold farAssignBody; grind [BodyFree]
grind_pattern farAssignBody_topFree => farAssignBody c s

theorem stopMoves_topFree (p : Mover → Bool) (status : Nat) : TopFree (stopMoves p status s).regs := by grind [stopMoves]
grind_pattern stopMoves_topFree => stopMoves p status s

theorem holdMover_topFree (n : Nat) : TopFree (holdMover n s).regs := by grind [holdMover]
grind_pattern holdMover_topFree => holdMover n s

theorem releaseMover_topFree (n : Nat) : TopFree (releaseMover n s).regs := by grind [releaseMover]
grind_pattern releaseMover_topFree => releaseMover n s

theorem cxlOffline_topFree (p cause : Nat) : TopFree (cxlOffline p cause s).regs := by grind [cxlOffline]
grind_pattern cxlOffline_topFree => cxlOffline p cause s

theorem notePartial_topFree : TopFree (notePartial s).regs := by grind [notePartial]
grind_pattern notePartial_topFree => notePartial s

/-! ### Quiesce -/

theorem setHeld_topFree (n mask : Nat) : TopFree (setHeld n mask s).regs := hs
grind_pattern setHeld_topFree => setHeld n mask s

theorem yieldMover_topFree (n : Nat) : TopFree (yieldMover n s).regs := by grind [yieldMover]
grind_pattern yieldMover_topFree => yieldMover n s

theorem quiesceSector_topFree (n mask : Nat) : TopFree (quiesceSector n mask s).regs := by grind [quiesceSector]
grind_pattern quiesceSector_topFree => quiesceSector n mask s

theorem releaseSector_topFree (n mask : Nat) : TopFree (releaseSector n mask s).regs := by grind [releaseSector]
grind_pattern releaseSector_topFree => releaseSector n mask s

theorem quiesceBody_topFree (c : Cmd) : BodyFree (quiesceBody c s) := by grind [quiesceBody, BodyFree]
grind_pattern quiesceBody_topFree => quiesceBody c s

theorem yieldResume_topFree : TopFree (yieldResume s).regs := by grind [yieldResume]
grind_pattern yieldResume_topFree => yieldResume s

/-! ### Pair -/

theorem setPair_topFree (p : Pair) : TopFree (setPair p s).regs := hs
grind_pattern setPair_topFree => setPair p s

theorem enterPair_topFree (st : PairState) : TopFree (enterPair st s).regs := by grind [enterPair]
grind_pattern enterPair_topFree => enterPair st s

theorem switchLinks_topFree (pair : Bool) : TopFree (switchLinks pair s).regs := by grind [switchLinks]
grind_pattern switchLinks_topFree => switchLinks pair s

theorem driveFence_topFree (on : Bool) : TopFree (driveFence on s).regs := hs
grind_pattern driveFence_topFree => driveFence on s

theorem unmirror_topFree (k : Nat) : TopFree (unmirror k s).regs := by grind [unmirror]
grind_pattern unmirror_topFree => unmirror k s

theorem dropOpening_topFree : TopFree (dropOpening s).regs := by grind [dropOpening]
grind_pattern dropOpening_topFree => dropOpening s

theorem dropMoves_topFree : TopFree (dropMoves s).regs := by grind [dropMoves]
grind_pattern dropMoves_topFree => dropMoves s

theorem enterSolo_topFree : TopFree (enterSolo s).regs := by grind [enterSolo]
grind_pattern enterSolo_topFree => enterSolo s

theorem copySlot_topFree (k : Nat) : TopFree (copySlot k s).regs := by grind [copySlot]
grind_pattern copySlot_topFree => copySlot k s

theorem resync_topFree : TopFree (resync s).regs := by grind [resync]
grind_pattern resync_topFree => resync s

theorem relink_topFree : TopFree (relink s).regs := by grind [relink]
grind_pattern relink_topFree => relink s

theorem applySubstitution_topFree (failed succ heat : Nat) : TopFree (applySubstitution failed succ heat s).regs := by grind [applySubstitution]
grind_pattern applySubstitution_topFree => applySubstitution failed succ heat s

theorem substitute_topFree (failed heat : Nat) : TopFree (substitute failed heat s).regs := by grind [substitute]
grind_pattern substitute_topFree => substitute failed heat s

theorem takeSlot_topFree (k : Nat) : TopFree (takeSlot k s).regs := by grind [takeSlot]
grind_pattern takeSlot_topFree => takeSlot k s

theorem takeoverRecord_topFree (failed cond k : Nat) : TopFree (takeoverRecord failed cond k s).regs := by grind [takeoverRecord]
grind_pattern takeoverRecord_topFree => takeoverRecord failed cond k s

theorem takeover_topFree (cond : Nat) : TopFree (takeover cond s).regs := by grind [takeover, Reg.isTop]
grind_pattern takeover_topFree => takeover cond s

theorem sendHeartbeat_topFree (st : Nat) : TopFree (sendHeartbeat st s).regs := by grind [sendHeartbeat]
grind_pattern sendHeartbeat_topFree => sendHeartbeat st s

theorem pairBoundary_topFree : TopFree (pairBoundary s).regs := by grind [pairBoundary, Reg.isTop]
grind_pattern pairBoundary_topFree => pairBoundary s

theorem missLimitReached_topFree : TopFree (missLimitReached s).regs := by grind [missLimitReached, Reg.isTop]
grind_pattern missLimitReached_topFree => missLimitReached s

theorem fenceConf_topFree (on : Bool) : TopFree (fenceConf on s).regs := by grind [fenceConf]
grind_pattern fenceConf_topFree => fenceConf on s

theorem graceExpiry_topFree : TopFree (graceExpiry s).regs := by grind [graceExpiry]
grind_pattern graceExpiry_topFree => graceExpiry s

theorem freeStopped_topFree (k : Nat) : TopFree (freeStopped k s).regs := by grind [freeStopped]
grind_pattern freeStopped_topFree => freeStopped k s

theorem heardTwin_topFree (viaLink : Bool) (st : Nat) : TopFree (heardTwin viaLink st s).regs := by grind [heardTwin]
grind_pattern heardTwin_topFree => heardTwin viaLink st s

theorem heartbeatFlit_topFree (link : Nat) (flit : List Byte) : TopFree (heartbeatFlit link flit s).regs := by grind [heartbeatFlit]
grind_pattern heartbeatFlit_topFree => heartbeatFlit link flit s

theorem pairHeartbeat_topFree (p : RocePacket) (now : Nat) : TopFree (pairHeartbeat p now s).regs := by grind [pairHeartbeat]
grind_pattern pairHeartbeat_topFree => pairHeartbeat p now s

theorem endPair_topFree : TopFree (endPair s).regs := by grind [endPair]
grind_pattern endPair_topFree => endPair s

theorem pairFormBody_topFree (c : Cmd) : BodyFree (pairFormBody c s) := by
  unfold pairFormBody
  repeat refine bodyFree_bind fun _ _ => ?_
  grind [BodyFree]
grind_pattern pairFormBody_topFree => pairFormBody c s

theorem endForm_topFree (status : Nat) : TopFree (endForm status s).regs := by grind [endForm]
grind_pattern endForm_topFree => endForm status s

theorem formWaitExpiry_topFree : TopFree (formWaitExpiry s).regs := by grind [formWaitExpiry]
grind_pattern formWaitExpiry_topFree => formWaitExpiry s

theorem takeHello_topFree (twin : Nat) (side : Bool) (qpn : Nat) : TopFree (takeHello twin side qpn s).regs := by grind [takeHello]
grind_pattern takeHello_topFree => takeHello twin side qpn s

theorem pairBreakBody_topFree (c : Cmd) : BodyFree (pairBreakBody c s) := by grind [pairBreakBody, BodyFree]
grind_pattern pairBreakBody_topFree => pairBreakBody c s

theorem startHandover_topFree (ks : List Nat) (serial : Nat) : TopFree (startHandover ks serial s).regs := by grind [startHandover]
grind_pattern startHandover_topFree => startHandover ks serial s

theorem countMove_topFree (serial : Nat) : TopFree (countMove serial s).regs := hs
grind_pattern countMove_topFree => countMove serial s

theorem endMoves_topFree : TopFree (endMoves s).regs := by grind [endMoves]
grind_pattern endMoves_topFree => endMoves s

theorem pairTakeoverBody_topFree (c : Cmd) : BodyFree (pairTakeoverBody c s) := by grind [pairTakeoverBody, BodyFree]
grind_pattern pairTakeoverBody_topFree => pairTakeoverBody c s

theorem takeHandover_topFree (h : HeatSlot) (im : SlotImage) : TopFree (takeHandover h im s).regs := by grind [takeHandover, Reg.isTop]
grind_pattern takeHandover_topFree => takeHandover h im s

theorem handoverDone_topFree (id : Nat) : TopFree (handoverDone id s).regs := by grind [handoverDone]
grind_pattern handoverDone_topFree => handoverDone id s

theorem detach_topFree : TopFree (detach s).regs := by grind [detach]
grind_pattern detach_topFree => detach s

theorem detachWork_topFree : TopFree (detachWork s).regs := by grind [detachWork]
grind_pattern detachWork_topFree => detachWork s

theorem trayDetachBody_topFree (c : Cmd) : BodyFree (trayDetachBody c s) := by grind [trayDetachBody, BodyFree]
grind_pattern trayDetachBody_topFree => trayDetachBody c s

omit hs in
theorem pairRow_topFree (s' : State) (hs' : TopFree s'.regs) : TopFree (pairRow s s').regs := by grind [pairRow]
grind_pattern pairRow_topFree => pairRow s s'

theorem takeSys_topFree (faults : List LineFault) (m : SysMsg) : TopFree (takeSys faults m s).regs := by unfold takeSys; grind
grind_pattern takeSys_topFree => takeSys faults m s

/-! ### Power -/

theorem setRst_topFree (r : Rst) : TopFree (setRst r s).regs := hs
grind_pattern setRst_topFree => setRst r s

theorem setSct_topFree (c : Sct) : TopFree (setSct c s).regs := hs
grind_pattern setSct_topFree => setSct c s

theorem startMove_topFree (kind i : Nat) (goal : Power) : TopFree (startMove kind i goal s).regs := by grind [startMove]
grind_pattern startMove_topFree => startMove kind i goal s

theorem kickMoves_topFree : TopFree (kickMoves s).regs := hs
grind_pattern kickMoves_topFree => kickMoves s

theorem loseOff_topFree (kind i : Nat) : TopFree (loseOff kind i s).regs := by grind [loseOff]
grind_pattern loseOff_topFree => loseOff kind i s

theorem endMove_topFree (kind i : Nat) : TopFree (endMove kind i s).regs := by
  unfold endMove; grind [Reg.isTop]
grind_pattern endMove_topFree => endMove kind i s

theorem endSectorCmd_topFree (status r0 r1 : Nat) : TopFree (endSectorCmd status r0 r1 s).regs := by grind [endSectorCmd]
grind_pattern endSectorCmd_topFree => endSectorCmd status r0 r1 s

theorem powerDone_topFree : TopFree (powerDone s).regs := by grind [powerDone]
grind_pattern powerDone_topFree => powerDone s

theorem powerSetBody_topFree (c : Cmd) : BodyFree (powerSetBody c s) := by
  unfold powerSetBody
  repeat refine bodyFree_bind fun _ _ => ?_
  grind [BodyFree]
grind_pattern powerSetBody_topFree => powerSetBody c s

/-! ### SectorReset -/

theorem disableRings_topFree (n : Nat) : TopFree (disableRings n s).regs := by grind [disableRings, Reg.isTop]
grind_pattern disableRings_topFree => disableRings n s

theorem stopEngines_topFree (n : Nat) : TopFree (stopEngines n s).regs := by grind [stopEngines]
grind_pattern stopEngines_topFree => stopEngines n s

theorem dropTraffic_topFree (n : Nat) : TopFree (dropTraffic n s).regs := by grind [dropTraffic]
grind_pattern dropTraffic_topFree => dropTraffic n s

theorem failHeats_topFree (n : Nat) : TopFree (failHeats n s).regs := by grind [failHeats]
grind_pattern failHeats_topFree => failHeats n s

theorem endSector_topFree (n : Nat) : TopFree (endSector n s).regs := by grind [endSector]
grind_pattern endSector_topFree => endSector n s

theorem sectorResetNow_topFree (n : Nat) : TopFree (sectorResetNow n s).regs := by grind [sectorResetNow]
grind_pattern sectorResetNow_topFree => sectorResetNow n s

/-! ### Sectors -/

theorem setSector_topFree (n : Nat) (x : Sector) : TopFree (setSector n x s).regs := hs
grind_pattern setSector_topFree => setSector n x s

theorem changeCmd_topFree (f : SectorCmd → SectorCmd) : TopFree (changeCmd f s).regs := hs
grind_pattern changeCmd_topFree => changeCmd f s

theorem stopDeparting_topFree (e : Nat) : TopFree (stopDeparting e s).regs := by
  unfold stopDeparting; grind
grind_pattern stopDeparting_topFree => stopDeparting e s

theorem drainTimeout_topFree : TopFree (drainTimeout s).regs := by
  fun_cases drainTimeout s <;> grind
grind_pattern drainTimeout_topFree => drainTimeout s

theorem commitSector_topFree (op : SectorOp) (c : Cmd) : TopFree (commitSector op c s).regs := by grind [commitSector]
grind_pattern commitSector_topFree => commitSector op c s

theorem sectorBody_topFree (op : SectorOp) (c : Cmd) : BodyFree (sectorBody op c s) := by grind [sectorBody, BodyFree]
grind_pattern sectorBody_topFree => sectorBody op c s

theorem unmapDeparting_topFree (c : SectorCmd) : TopFree (unmapDeparting c s).regs := by grind [unmapDeparting]
grind_pattern unmapDeparting_topFree => unmapDeparting c s

theorem clearMove_topFree (m : Move) : TopFree (clearMove s m).regs := by grind [clearMove]
grind_pattern clearMove_topFree => clearMove s m

theorem giveOne_topFree (kind dst i : Nat) : TopFree (giveOne kind dst i s).regs := by unfold giveOne; grind
grind_pattern giveOne_topFree => giveOne kind dst i s

theorem addQuota_topFree (kind n : Nat) (f : Nat → Nat) : TopFree (addQuota kind n f s).regs := by grind [addQuota]
grind_pattern addQuota_topFree => addQuota kind n f s

theorem assignMove_topFree (m : Move) : TopFree (assignMove s m).regs := by grind [assignMove]
grind_pattern assignMove_topFree => assignMove s m

theorem trimPools_topFree : TopFree (trimPools s).regs := hs
grind_pattern trimPools_topFree => trimPools s

theorem pendingResets_topFree : TopFree (pendingResets s).regs := by grind [pendingResets]
grind_pattern pendingResets_topFree => pendingResets s

theorem sectorDone_topFree : TopFree (sectorDone s).regs := by grind [sectorDone]
grind_pattern sectorDone_topFree => sectorDone s

theorem shiftClearEnd_topFree : TopFree (shiftClearEnd s).regs := by
  unfold shiftClearEnd; grind
grind_pattern shiftClearEnd_topFree => shiftClearEnd s

theorem powerEnd_topFree (kind i : Nat) : TopFree (powerEnd kind i s).regs := by grind [powerEnd]
grind_pattern powerEnd_topFree => powerEnd kind i s

theorem resetSector_topFree (n : Nat) : TopFree (resetSector n s).regs := by grind [resetSector]
grind_pattern resetSector_topFree => resetSector n s

/-! ### Boot -/

theorem haltBoot_topFree (code : Nat) : TopFree (haltBoot code s).regs := hs
grind_pattern haltBoot_topFree => haltBoot code s

theorem runImage_topFree (bs : List Byte) : TopFree (runImage bs s).regs := hs
grind_pattern runImage_topFree => runImage bs s

theorem bootSlot_topFree (b : Bool) : TopFree (bootSlot b s).regs := by grind [bootSlot]
grind_pattern bootSlot_topFree => bootSlot b s

theorem fallBack_topFree (code : Nat) : TopFree (fallBack code s).regs := by grind [fallBack]
grind_pattern fallBack_topFree => fallBack code s

theorem selectImage_topFree : TopFree (selectImage s).regs := by grind [selectImage]
grind_pattern selectImage_topFree => selectImage s

theorem senseFuses_topFree : TopFree (senseFuses s).regs := by grind [senseFuses]
grind_pattern senseFuses_topFree => senseFuses s

theorem sealBoot_topFree (cold : Bool) : TopFree (sealBoot cold s).regs := by grind [sealBoot]
grind_pattern sealBoot_topFree => sealBoot cold s

theorem beginScrub_topFree (hbm : Nat) : TopFree (beginScrub hbm s).regs := by grind [beginScrub]
grind_pattern beginScrub_topFree => beginScrub hbm s

theorem bringUp_topFree (p : Nat) (x : ExpanderEnv) : TopFree (bringUp p x s).regs := by unfold bringUp; grind
grind_pattern bringUp_topFree => bringUp p x s

theorem bringUpBoth_topFree (env : BootEnv) : TopFree (bringUpBoth env s).regs := by grind [bringUpBoth]
grind_pattern bringUpBoth_topFree => bringUpBoth env s

theorem startBoot_topFree (cold : Option BootEnv) : TopFree (startBoot cold s).regs := by unfold startBoot; grind
grind_pattern startBoot_topFree => startBoot cold s

omit hs in
theorem powerCycled_topFree : TopFree (powerCycled s).regs := by rfl
grind_pattern powerCycled_topFree => powerCycled s

theorem coldReset_topFree (env : BootEnv) : TopFree (coldReset env s).regs := by grind [coldReset]
grind_pattern coldReset_topFree => coldReset env s

theorem restoreEntry_topFree (e : Retired) : TopFree (restoreEntry s e).regs := by grind [restoreEntry]
grind_pattern restoreEntry_topFree => restoreEntry s e

theorem restoreList_topFree (hbm : Nat) : TopFree (restoreList hbm s).regs := by grind [restoreList]
grind_pattern restoreList_topFree => restoreList hbm s

theorem coldPower_topFree : TopFree (coldPower s).regs := hs
grind_pattern coldPower_topFree => coldPower s

theorem restoreCold_topFree (env : BootEnv) : TopFree (restoreCold env s).regs := by grind [restoreCold]
grind_pattern restoreCold_topFree => restoreCold env s

theorem fillSeeds_topFree (n : Nat) : TopFree (fillSeeds n s).regs := by
  fun_induction fillSeeds n s <;> grind
grind_pattern fillSeeds_topFree => fillSeeds n s

theorem sourceUp_topFree : TopFree (sourceUp s).regs := by grind [sourceUp]
grind_pattern sourceUp_topFree => sourceUp s

theorem startInstances_topFree : TopFree (startInstances s).regs := by grind [startInstances]
grind_pattern startInstances_topFree => startInstances s

theorem bootKeys_topFree (draw : List Byte) : TopFree (bootKeys draw s).regs := hs
grind_pattern bootKeys_topFree => bootKeys draw s

theorem enterSealed_topFree (draw : List Byte) : TopFree (enterSealed draw s).regs := hs
grind_pattern enterSealed_topFree => enterSealed draw s

theorem bootDraws_topFree  {t : State} (he : bootDraws s = some t) : TopFree t.regs := by
  unfold bootDraws at he
  split at he
  · cases he
  next h =>
    have h0 := topFree_of_eq h (internalBytes_topFree hs ..)
    grind
grind_pattern bootDraws_topFree => bootDraws s, some t

theorem endScrub_topFree : TopFree (endScrub s).regs := by grind [endScrub]
grind_pattern endScrub_topFree => endScrub s

theorem rerunTests_topFree : TopFree (rerunTests s).regs := by grind [rerunTests]
grind_pattern rerunTests_topFree => rerunTests s

theorem flushCopies_topFree : TopFree (flushCopies s).regs := by grind [flushCopies]
grind_pattern flushCopies_topFree => flushCopies s

theorem finishBoot_topFree : TopFree (finishBoot s).regs := by grind [finishBoot]
grind_pattern finishBoot_topFree => finishBoot s

theorem bootDone_topFree (env : BootEnv) : TopFree (bootDone env s).regs := by grind [bootDone]
grind_pattern bootDone_topFree => bootDone env s

theorem recoveryGo_topFree (len : Nat) : TopFree (recoveryGo len s).regs := by grind [recoveryGo]
grind_pattern recoveryGo_topFree => recoveryGo len s

theorem fwActivateBody_topFree (image : HostRead) (c : Cmd) : BodyFree (fwActivateBody image c s) := by
  unfold fwActivateBody
  repeat refine bodyFree_bind fun _ _ => ?_
  grind [BodyFree]
grind_pattern fwActivateBody_topFree => fwActivateBody image c s

/-! ### Operands -/

theorem Issue_put_topFree (i : Issue) (c : Crew) : TopFree (Issue.put i c s).regs := hs
grind_pattern Issue_put_topFree => Issue.put i c s

theorem illegal_topFree : IssuedFree (illegal s) := hs
grind_pattern illegal_topFree => illegal s

theorem faultCrew_topFree (c : Crew) (g : Group) (l : Launch) (cause va : Nat) : TopFree (faultCrew c g l cause va s).regs := by grind [faultCrew]
grind_pattern faultCrew_topFree => faultCrew c g l cause va s

theorem fetchWord_topFree (c : Crew) (g : Group) (l : Launch) : FetchedFree (fetchWord c g l s) := by
  unfold fetchWord
  split
  · exact hs
  have hx := translate_topFree hs [] (g.scull / 8) l.ctx .fetch c.pc
  split
  next h => exact xlatFree_of_eq h hx
  next h => exact xlatFree_of_eq h hx
  · trivial
  next a t h =>
    have ht : TopFree t.regs := xlatFree_of_eq h hx
    split
    next hr => exact topFree_of_eq hr (faultyRead_topFree ht ..)
    next hr => exact topFree_of_eq hr (faultyRead_topFree ht ..)
grind_pattern fetchWord_topFree => fetchWord c g l s

theorem scullFault_topFree (g : Group) (l : Launch) {x} {t : State} (he : scullFault g l s = some (x, t)) : TopFree t.regs := by grind [scullFault]
grind_pattern scullFault_topFree => scullFault g l s, some (x, t)

theorem issue_topFree (act : ActFn) (ops : List Nat) (crew : Nat) (body : Issue → State → Issued)
    (hact : ∀ r b t, TopFree t.regs → TopFree (act r b t).2.regs) (hbody : ∀ x t, TopFree t.regs → IssuedFree (body x t)) :
    TopFree (issue act ops crew body s).regs := by
  fun_cases issue act ops crew body s <;> grind [FetchedFree, IssuedFree]
grind_pattern issue_topFree => issue act ops crew body s

theorem threadBody_topFree (sh : Shape) (f : Issue → Nat → Nat → Nat → Nat → Nat) (i : Issue) : IssuedFree (threadBody sh f i s) := by
  grind [threadBody, IssuedFree]
grind_pattern threadBody_topFree => threadBody sh f i s

theorem crewBody_topFree (ok : Issue → Bool) (f : Issue → State → Issued) (i : Issue) (hf : ∀ x t, TopFree t.regs → IssuedFree (f x t)) :
    IssuedFree (crewBody ok f i s) := by
  grind [crewBody, IssuedFree]
grind_pattern crewBody_topFree => crewBody ok f i s

/-! ### Scull -/

theorem crewStep_topFree (ops : List Nat) (crew : Nat) (body : Issue → State → Issued) (hbody : ∀ x t, TopFree t.regs → IssuedFree (body x t)) :
    OutFree (crewStep ops crew body s) :=
  issue_topFree hs _ _ _ _ (fun r b _ ht => actScull_topFree ht r b) hbody
grind_pattern crewStep_topFree => crewStep ops crew body s

theorem braBody_topFree (i : Issue) : IssuedFree (braBody i s) := by grind [braBody, IssuedFree]
grind_pattern braBody_topFree => braBody i s

theorem barBody_topFree (i : Issue) : IssuedFree (barBody i s) := by grind [barBody, IssuedFree]
grind_pattern barBody_topFree => barBody i s

theorem fenceBody_topFree (i : Issue) : IssuedFree (fenceBody i s) := by grind [fenceBody, IssuedFree]
grind_pattern fenceBody_topFree => fenceBody i s

theorem missue_topFree (i : Issue) : IssuedFree (missue i s) := by grind [missue, IssuedFree]
grind_pattern missue_topFree => missue i s

theorem pushWords_topFree (i : Issue) (ws : List Word32) : IssuedFree (pushWords i ws s) := by grind [pushWords, IssuedFree, Reg.isTop]
grind_pattern pushWords_topFree => pushWords i ws s

theorem intStep_topFree (op crew : Nat) (f : Bool → Nat → Nat → Nat) : OutFree (intStep op crew f s) := by grind [intStep, IssuedFree, OutFree]
grind_pattern intStep_topFree => intStep op crew f s

theorem movBody_topFree (i : Issue) : IssuedFree (movBody i s) := by grind [movBody, IssuedFree]
grind_pattern movBody_topFree => movBody i s

theorem iaddcBody_topFree (i : Issue) : IssuedFree (iaddcBody i s) := by grind [iaddcBody, IssuedFree]
grind_pattern iaddcBody_topFree => iaddcBody i s

theorem modularBody_topFree (good : Nat → Nat → Nat → Nat → Bool) (f : Nat → Nat → Nat → Nat → Nat) (i : Issue) :
    IssuedFree (modularBody good f i s) := by
  grind [modularBody, IssuedFree]
grind_pattern modularBody_topFree => modularBody good f i s

theorem floatStep_topFree (op crew : Nat) (f : Fp → Fp → Fp) : OutFree (floatStep op crew f s) := by grind [floatStep, IssuedFree, OutFree]
grind_pattern floatStep_topFree => floatStep op crew f s

theorem cvtBody_topFree (i : Issue) : IssuedFree (cvtBody i s) := by grind [cvtBody, IssuedFree]
grind_pattern cvtBody_topFree => cvtBody i s

theorem setpBody_topFree (f : Issue → Nat → Nat → Bool) (i : Issue) : IssuedFree (setpBody f i s) := by grind [setpBody, IssuedFree]
grind_pattern setpBody_topFree => setpBody f i s

theorem plopBody_topFree (i : Issue) : IssuedFree (plopBody i s) := by grind [plopBody, IssuedFree]
grind_pattern plopBody_topFree => plopBody i s

theorem scalarStep_topFree (op crew : Nat) (f : Bool → Nat → Nat → Nat) : OutFree (scalarStep op crew f s) := by
  grind [scalarStep, IssuedFree, OutFree]
grind_pattern scalarStep_topFree => scalarStep op crew f s

theorem scalarImm_topFree (op crew : Nat) (ok : Issue → Bool) (f : Issue → Nat) : OutFree (scalarImm op crew ok f s) := by
  grind [scalarImm, IssuedFree, OutFree]
grind_pattern scalarImm_topFree => scalarImm op crew ok f s

theorem s2vBody_topFree (i : Issue) : IssuedFree (s2vBody i s) := by grind [s2vBody, IssuedFree]
grind_pattern s2vBody_topFree => s2vBody i s

/-! ### ScullMem -/

theorem resolveGlobal_topFree (faults : List LineFault) (i : Issue) (want : Want) (bytes : Nat) (l : List Nat) :
    TopFree (resolveGlobal faults i want bytes l s).2.2.2.regs := by
  induction l generalizing s with
  | nil => exact hs
  | cons n l ih =>
    unfold resolveGlobal
    dsimp only
    split
    · exact hs
    have hx := translate_topFree hs faults (i.g.scull / 8) i.l.ctx want (i.addr 2 n)
    split
    next h => exact xlatFree_of_eq h hx
    next h => exact xlatFree_of_eq h hx
    · exact hs
    next a t h => exact ih (s := t) (xlatFree_of_eq h hx)
grind_pattern resolveGlobal_topFree => resolveGlobal faults i want bytes l s

theorem loadAll_topFree (faults : List LineFault) (i : Issue) (l : List (Nat × Nat)) : TopFree (loadAll faults i l s).2.2.regs := by
  fun_induction loadAll faults i l s <;> grind
grind_pattern loadAll_topFree => loadAll faults i l s

theorem endAccess_topFree (i : Issue) (isLocal : Bool) (ws : List (Nat × Word32)) (fault : Option Nat) :
    IssuedFree (endAccess i isLocal ws fault s) := by
  unfold endAccess; grind [IssuedFree]
grind_pattern endAccess_topFree => endAccess i isLocal ws fault s

theorem resolve_topFree (faults : List LineFault) (isLocal : Bool) (want : Want) (bytes : Nat) (ts : List Nat) (i : Issue)
    (k : List (Nat × Nat) → State → Issued) (hk : ∀ x t, TopFree t.regs → IssuedFree (k x t)) :
    IssuedFree (resolve faults isLocal want bytes ts i s k) := by
  grind [resolve, IssuedFree]
grind_pattern resolve_topFree => resolve faults isLocal want bytes ts i s k

theorem loadBody_topFree (isLocal : Bool) (faults : List LineFault) (i : Issue) : IssuedFree (loadBody isLocal faults i s) := by
  grind [loadBody, IssuedFree]
grind_pattern loadBody_topFree => loadBody isLocal faults i s

theorem storeLine_topFree (faults : List LineFault) (line : Nat) (bytes : Table Byte) : TopFree (storeLine faults line bytes s).2.regs := by
  grind [storeLine]
grind_pattern storeLine_topFree => storeLine faults line bytes s

theorem storeLines_topFree (faults : List LineFault) (bytes : Table Byte) (l : List Nat) : TopFree (storeLines faults bytes l s).2.regs := by
  fun_induction storeLines faults bytes l s <;> grind
grind_pattern storeLines_topFree => storeLines faults bytes l s

theorem storeBody_topFree (isLocal : Bool) (faults : List LineFault) (i : Issue) : IssuedFree (storeBody isLocal faults i s) := by
  grind [storeBody, IssuedFree]
grind_pattern storeBody_topFree => storeBody isLocal faults i s

theorem atomAll_topFree (faults : List LineFault) (i : Issue) (l : List (Nat × Nat)) : TopFree (atomAll faults i l s).2.2.regs := by
  fun_induction atomAll faults i l s <;> grind
grind_pattern atomAll_topFree => atomAll faults i l s

theorem atomBody_topFree (isLocal : Bool) (faults : List LineFault) (i : Issue) : IssuedFree (atomBody isLocal faults i s) := by
  grind [atomBody, IssuedFree]
grind_pattern atomBody_topFree => atomBody isLocal faults i s

theorem laddAll_topFree (faults : List LineFault) (i : Issue) (l : List (Nat × Nat)) : TopFree (laddAll faults i l s).2.regs := by
  fun_induction laddAll faults i l s <;> grind
grind_pattern laddAll_topFree => laddAll faults i l s

theorem laddBody_topFree (faults : List LineFault) (i : Issue) : IssuedFree (laddBody faults i s) := by grind [laddBody, IssuedFree]
grind_pattern laddBody_topFree => laddBody faults i s

theorem accessReturn_topFree (crew : Nat) : TopFree (accessReturn crew s).regs := by
  fun_cases accessReturn crew s <;> grind
grind_pattern accessReturn_topFree => accessReturn crew s

theorem fabricCheck_topFree : TopFree (fabricCheck s).regs := by
  unfold fabricCheck
  split
  · exact hs
  · exact detect_topFree (foldl_topFree (fun s _ hs => firePoint_topFree hs ..) _ hs) _ _ fun r b t ht => actBridge_topFree ht r b
grind_pattern fabricCheck_topFree => fabricCheck s

/-! ### Matrix -/

theorem readGlobal_topFree (faults : List LineFault) (g : Group) (x n a : Nat) : TopFree (readGlobal faults g x n a s).2.regs := by
  induction n generalizing s a with
  | zero => exact hs
  | succ n ih =>
    unfold readGlobal
    have hx := translate_topFree hs faults (g.scull / 8) x .read a
    split
    next h => exact xlatFree_of_eq h hx
    next h => exact xlatFree_of_eq h hx
    · exact hs
    next b t h =>
      have ht : TopFree t.regs := xlatFree_of_eq h hx
      split
      next hr => exact topFree_of_eq hr (faultyRead_topFree ht ..)
      next hr =>
        have hu := topFree_of_eq hr (faultyRead_topFree ht ..)
        split
        next hg => exact topFree_of_eq hg (ih hu _)
        · exact ih hu _
grind_pattern readGlobal_topFree => readGlobal faults g x n a s

theorem readOperand_topFree (faults : List LineFault) (g : Group) (x : Nat) (isGlobal : Bool) (addr bytes : Nat) :
    TopFree (readOperand faults g x isGlobal addr bytes s).2.regs := by
  grind [readOperand]
grind_pattern readOperand_topFree => readOperand faults g x isGlobal addr bytes s

theorem descriptorKill_topFree (d : Descriptor) (g : Group) (l : Launch) (c : Crew) (cause va : Nat) :
    TopFree (descriptorKill d g l c cause va s).regs := by
  grind [descriptorKill]
grind_pattern descriptorKill_topFree => descriptorKill d g l c cause va s

theorem descriptorComplete_topFree (j elapsed : Nat) (faults : List LineFault) : TopFree (descriptorComplete j elapsed faults s).regs := by
  unfold descriptorComplete
  repeat (split; exact hs)
  split
  · grind
  next h =>
  have h1 := topFree_of_eq (congrArg Prod.snd h) (firePoint_topFree hs ..)
  clear h
  split
  · exact descriptorKill_topFree h1 ..
  split
  next h => exact descriptorKill_topFree (topFree_of_eq h (readOperand_topFree h1 ..)) ..
  next h => exact descriptorKill_topFree (topFree_of_eq h (readOperand_topFree h1 ..)) ..
  next h =>
  have h2 := topFree_of_eq h (readOperand_topFree h1 ..)
  clear h
  split
  next h => exact descriptorKill_topFree (topFree_of_eq h (readOperand_topFree h2 ..)) ..
  next h => exact descriptorKill_topFree (topFree_of_eq h (readOperand_topFree h2 ..)) ..
  next h =>
  have h3 := topFree_of_eq h (readOperand_topFree h2 ..)
  clear h
  split
  next h => exact descriptorKill_topFree (topFree_of_eq h (by grind)) ..
  next h =>
  have h4 := topFree_of_eq h (by grind)
  exact settleGroup_topFree (setScl_topFree (trustedWrite_topFree h4 ..) _) ..
grind_pattern descriptorComplete_topFree => descriptorComplete j elapsed faults s

/-! ### Resets -/

theorem dropHost_topFree : TopFree (dropHost s).regs := by grind [dropHost, Reg.isTop]
grind_pattern dropHost_topFree => dropHost s

theorem dropHostRings_topFree : TopFree (dropHostRings s).regs := by grind [dropHostRings, Reg.isTop]
grind_pattern dropHostRings_topFree => dropHostRings s

theorem hostPortReset_topFree (cause : PortReset) : TopFree (hostPortReset cause s).regs := by unfold hostPortReset; grind
grind_pattern hostPortReset_topFree => hostPortReset cause s

theorem resetSectors_topFree : TopFree (resetSectors s).regs := by grind [resetSectors]
grind_pattern resetSectors_topFree => resetSectors s

theorem sectorReset_topFree (fn : Fn) (value : Nat) : TopFree (sectorReset fn value s).regs := by unfold sectorReset; grind
grind_pattern sectorReset_topFree => sectorReset fn value s

theorem clearVfs_topFree : TopFree (clearVfs s).regs := by grind [clearVfs]
grind_pattern clearVfs_topFree => clearVfs s

theorem functionReset_topFree (fn : Fn) : TopFree (functionReset fn s).regs := by unfold functionReset; grind
grind_pattern functionReset_topFree => functionReset fn s

theorem resetEngine_topFree (kind i cause : Nat) : TopFree (resetEngine kind i cause s).regs := by grind [resetEngine]
grind_pattern resetEngine_topFree => resetEngine kind i cause s

theorem engineReset_topFree (fn : Option Fn) (kind index : Nat) : TopFree (engineReset fn kind index s).regs := by
  unfold engineReset; grind [Reg.isTop]
grind_pattern engineReset_topFree => engineReset fn kind index s

theorem revertSectors_topFree : TopFree (revertSectors s).regs := by grind [revertSectors]
grind_pattern revertSectors_topFree => revertSectors s

theorem restartSource_topFree : TopFree (restartSource s).regs := hs
grind_pattern restartSource_topFree => restartSource s

theorem restartLinks_topFree : TopFree (restartLinks s).regs := hs
grind_pattern restartLinks_topFree => restartLinks s

theorem abandonTests_topFree : TopFree (abandonTests s).regs := hs
grind_pattern abandonTests_topFree => abandonTests s

theorem warmCadence_topFree : TopFree (warmCadence s).regs := by grind [warmCadence, Reg.isTop]
grind_pattern warmCadence_topFree => warmCadence s

theorem warmMemory_topFree : TopFree (warmMemory s).regs := by grind [warmMemory]
grind_pattern warmMemory_topFree => warmMemory s

theorem warmReset_topFree (cause : Nat) : TopFree (warmReset cause s).regs := by
  unfold warmReset
  split
  · exact hs
  · dsimp only
    refine startBoot_topFree ?_ none
    have h1 : TopFree (if pairLive s then sendHeartbeat 7 s else s).regs := by grind
    generalize (if pairLive s then sendHeartbeat 7 s else s) = s1 at h1 ⊢
    have hf (p : Nat × Word64 → Bool) :
        TopFree ((bump (restartLinks (restartSource (dropHost (abandonTests (warmMemory (warmCadence (revertSectors s1))))))) .rstWarmCount
          0).regs.filter p) :=
      topFree_filter (by grind [Reg.isTop]) p
    split
    · exact fallBack_topFree (by exact hf _) _
    · exact hf _
grind_pattern warmReset_topFree => warmReset cause s

theorem warmRow_topFree (cause : WarmCause) : TopFree (warmRow cause s).regs := by unfold warmRow; grind
grind_pattern warmRow_topFree => warmRow cause s

theorem markTrial_topFree : TopFree (markTrial s).regs := by grind [markTrial]
grind_pattern markTrial_topFree => markTrial s

theorem powerFall_topFree : TopFree (powerFall s).regs := by grind [powerFall]
grind_pattern powerFall_topFree => powerFall s

theorem pllLoss_topFree (pll : Nat) : TopFree (pllLoss pll s).regs := by grind [pllLoss, Reg.isTop]
grind_pattern pllLoss_topFree => pllLoss pll s

theorem pllRelock_topFree (pll : Nat) : TopFree (pllRelock pll s).regs := by grind [pllRelock]
grind_pattern pllRelock_topFree => pllRelock pll s

theorem configRead_topFree (f : Fn) (off : Nat) : TopFree (configRead f off s).regs := by grind [configRead]
grind_pattern configRead_topFree => configRead f off s

theorem configRequest_topFree (f : Fn) (r : ConfigReq) : TopFree (configRequest f r s).regs := by unfold configRequest; grind
grind_pattern configRequest_topFree => configRequest f r s

theorem configRow_topFree (f : Fn) (r : ConfigReq) : TopFree (configRow f r s).regs := by unfold configRow; grind
grind_pattern configRow_topFree => configRow f r s

/-! ### SelfTest -/

theorem actAny_topFree (r : Res) (b : Bool) : TopFree (actAny r b s).2.regs := by
  unfold actAny
  split <;> grind
grind_pattern actAny_topFree => actAny r b s

theorem holdResource_topFree (r : Res) : TopFree (holdResource r s).regs := by grind [holdResource]
grind_pattern holdResource_topFree => holdResource r s

theorem testStart_topFree (dead : Bool) : TopFree (testStart dead s).regs := by grind [testStart]
grind_pattern testStart_topFree => testStart dead s

theorem releaseResource_topFree (r : Res) : TopFree (releaseResource r s).regs := by grind [releaseResource]
grind_pattern releaseResource_topFree => releaseResource r s

theorem countTransients_topFree (t : SelfTest) : TopFree (countTransients t s).2.regs := by
  unfold countTransients
  refine foldl_snd_topFree (fun p _ hp => ?_) _ hs
  exact noteTransient_topFree hp t.res
grind_pattern countTransients_topFree => countTransients t s

theorem endTest_topFree (t : SelfTest) (failed : Bool) : TopFree (endTest t failed s).regs := by grind [endTest, Reg.isTop]
grind_pattern endTest_topFree => endTest t failed s

theorem testEnd_topFree (r : Res) (failed : Bool) : TopFree (testEnd r failed s).regs := by grind [testEnd]
grind_pattern testEnd_topFree => testEnd r failed s

theorem selftestRunBody_topFree (c : Cmd) : BodyFree (selftestRunBody c s) := by
  unfold selftestRunBody
  dsimp only
  split
  · trivial
  · repeat refine bodyFree_bind fun _ _ => ?_
    split
    · exact changeTest_topFree hs ..
    · exact bodyFree_bind fun _ _ => queueTest_topFree hs ..
grind_pattern selftestRunBody_topFree => selftestRunBody c s

theorem injectArmBody_topFree (c : Cmd) : BodyFree (injectArmBody c s) := by
  unfold injectArmBody
  repeat refine bodyFree_bind fun _ _ => ?_
  grind [BodyFree]
grind_pattern injectArmBody_topFree => injectArmBody c s

theorem injectDisarmBody_topFree (c : Cmd) : BodyFree (injectDisarmBody c s) := by grind [injectDisarmBody, BodyFree]
grind_pattern injectDisarmBody_topFree => injectDisarmBody c s

theorem listWrite_topFree : TopFree (listWrite s).regs := hs
grind_pattern listWrite_topFree => listWrite s

theorem coreStop_topFree (core : Nat) (commands : List Nat) : TopFree (coreStop core commands s).regs := by grind [coreStop]
grind_pattern coreStop_topFree => coreStop core commands s

theorem thermal_topFree (severity d0 : Nat) : TopFree (thermal severity d0 s).regs := by grind [thermal]
grind_pattern thermal_topFree => thermal severity d0 s

theorem scrubGranule_topFree (faults : List LineFault) : TopFree (scrubGranule faults s).regs := by grind [scrubGranule]
grind_pattern scrubGranule_topFree => scrubGranule faults s

theorem firmwareMark_topFree (faults : List LineFault) (w : MarkWork) (m : Mark) (released : Bool) :
    TopFree (firmwareMark faults w m released s).regs := by
  unfold firmwareMark; grind
grind_pattern firmwareMark_topFree => firmwareMark faults w m released s

/-! ### Registers -/

theorem readReg_topFree (fn : Fn) (r : Reg) (i j byte size : Nat) : TopFree (readReg fn r i j byte size s).2.regs := by
  unfold readReg
  dsimp only
  split
  · grind
  · grind
  · split
    · exact hs
    next h => exact rput_topFree hs (fun ht => h (by simp [Reg.fixed_of_isTop ht])) ..
grind_pattern readReg_topFree => readReg fn r i j byte size s

theorem readPlace_topFree (fn : Fn) (size : Nat) (p : Place) : TopFree (readPlace fn size p s).2.regs := by unfold readPlace; grind
grind_pattern readPlace_topFree => readPlace fn size p s

theorem readUnit_topFree (fn : Fn) (off size : Nat) : TopFree (readUnit fn off size s).2.regs := by grind [readUnit]
grind_pattern readUnit_topFree => readUnit fn off size s

theorem regAccessRecord_topFree (fn : Fn) (off : Nat) : TopFree (regAccessRecord fn off s).regs := by unfold regAccessRecord; grind [Reg.isTop]
grind_pattern regAccessRecord_topFree => regAccessRecord fn off s

theorem readDoorbell_topFree (fn : Fn) (o size : Nat) : TopFree (readDoorbell fn o size s).regs := by grind [readDoorbell]
grind_pattern readDoorbell_topFree => readDoorbell fn o size s

theorem writeDoorbell_topFree (fn : Fn) (o size v : Nat) : TopFree (writeDoorbell fn o size v s).regs := by grind [writeDoorbell]
grind_pattern writeDoorbell_topFree => writeDoorbell fn o size v s

theorem readRegister_topFree (fn : Fn) (off size : Nat) : TopFree (readRegister fn off size s).regs := by grind [readRegister]
grind_pattern readRegister_topFree => readRegister fn off size s

theorem writeMailbox_topFree (box v : Nat) : TopFree (writeMailbox box v s).regs := by grind [writeMailbox, Reg.isTop]
grind_pattern writeMailbox_topFree => writeMailbox box v s

theorem writeBits_topFree (fn : Fn) (r : Reg) (i j mask w : Nat) : TopFree (writeBits fn r i j mask w s).regs := by
  unfold writeBits
  have hput (r : Reg) (hr : ¬ r.isTop) (v : Nat) : TopFree (rput s r i j v).regs := rput_topFree hs hr ..
  dsimp only
  split
  case h_17 =>
    split
    · exact hs
    next h => exact hput r (fun ht => by simp [Reg.fixed_of_isTop ht] at h) _
  all_goals grind [Reg.isTop]
grind_pattern writeBits_topFree => writeBits fn r i j mask w s

theorem writeReg_topFree (fn : Fn) (r : Reg) (i j byte size v : Nat) : TopFree (writeReg fn r i j byte size v s).regs := by grind [writeReg]
grind_pattern writeReg_topFree => writeReg fn r i j byte size v s

theorem writeMsix_topFree (fn : Fn) (byte size v : Nat) : TopFree (writeMsix fn byte size v s).regs := by grind [writeMsix]
grind_pattern writeMsix_topFree => writeMsix fn byte size v s

theorem writePlace_topFree (fn : Fn) (size v : Nat) (p : Place) : TopFree (writePlace fn size v p s).regs := by unfold writePlace; grind
grind_pattern writePlace_topFree => writePlace fn size v p s

theorem writeUnit_topFree (fn : Fn) (off size v : Nat) : TopFree (writeUnit fn off size v s).regs := by grind [writeUnit]
grind_pattern writeUnit_topFree => writeUnit fn off size v s

theorem writeRegister_topFree (fn : Fn) (off size v : Nat) : TopFree (writeRegister fn off size v s).regs := by grind [writeRegister]
grind_pattern writeRegister_topFree => writeRegister fn off size v s

theorem bar4Read_topFree (fn : Fn) (off size : Nat) (faults : List LineFault) : TopFree (bar4Read fn off size faults s).regs := by grind [bar4Read]
grind_pattern bar4Read_topFree => bar4Read fn off size faults s

/-! ### Dispatch -/

/-- Every command keeps the TOP block out of the register file. -/
theorem exec_topFree (i : Instr) : OutFree (exec i s) := by
  cases i <;> dsimp only [exec]
  case nop | identify | fwActivate | ringCreate | ringDestroy | ringReset | sectorDefine | sectorShift | sectorStop | powerSet | markSet |
      markCancel | memInvalidate | tierMove | memZero | farAssign | launch | contextCreate | contextDestroy | contextKill | heatQuery | heatPoolSet
      | rngInstantiate | rngGenerate | rngReseed | rngUninstantiate | rngRawMode | rdmaTableSet | pdAlloc | pdFree | mrRegister | mrDeregister |
      mwAlloc | mwFree | qpCreate | qpModify | qpDestroy | qpQuery | rdmaRecv | chordRoute | chordAcl | attestReport | bounceWindowAdd |
      bounceWindowRemove | opkeyLoad | opkeyRemove | sealArm | certRead | selftestRun | injectArm | injectDisarm | wakeConfig | wakeDrain |
      dropPacket =>
    exact beginCommand_topFree hs _ _ _ fun c t ht => by grind
  case quiesce | heatOpen | heatAdvance | heatAbort | pairForm | pairBreak =>
    exact heatRow_topFree _ (beginCommand_topFree hs _ _ _ fun c t ht => by grind)
  case heatCollect | pairTakeover | trayDetach => exact pairRow_topFree _ (beginCommand_topFree hs _ _ _ fun c t ht => by grind)
  case latExec | latSuspend | latResume | latModuli => exact latGoAll_topFree (beginCommand_topFree hs _ _ _ fun c t ht => by grind)
  case crewNop | bra | jmp | call | exit | bar | fence | missue | mwait | sread | tpush | tpushv | vote | shfl | imad | sel | popc | clz | mov |
      iadd64 | iaddc | modmul | modadd | modsub | imadw | ffma | ffunc | hadd2 | hmul2 | hfma2 | cvt | f8pack | f8unpack | isetp | fsetp | plop | ld
      | st | atom | ladd | lld | lst | latom | s2v | v2s =>
    exact crewStep_topFree hs _ _ _ fun i t ht => by grind [IssuedFree]
  case write | readReq | readResp | fold | ack | refuse => exact packetRow_topFree hs _ _ _ _ fun p t ht => by grind
  case iadd | isub | imul | imulhi | and | or | xor | shl | shr | min | max => exact intStep_topFree hs ..
  case fadd | fsub | fmul | fmin | fmax => exact floatStep_topFree hs ..
  case sadd | ssub | smul | sand | sor | sxor | sshl | sshr => exact scalarStep_topFree hs ..
  case smovi | ssethi | saddi => exact scalarImm_topFree hs ..
  case getVersion | getCapabilities | negotiateAlgorithms | getDigests | getCertificate | challenge | getMeasurements | keyExchange | finish |
      spdmHeartbeat | keyUpdate | endSession | chunkSend | chunkGet | kemKeyGet | kemCipher | vdCommand | mldsaCertGet | ideKm =>
    exact spdmRow_topFree hs ..
  case enrol | rosterGet | share | inboxGet | submit | confirm | reveal | tally => exact heatRow_topFree _ (messageRow_topFree hs ..)
  case heldReply => exact heatRow_topFree _ (heldReply_topFree hs ..)
  case vectorCommit => exact heatRow_topFree _ (vectorCommit_topFree hs ..)
  case taint => exact heatRow_topFree _ (taintRow_topFree hs ..)
  case taintRecovery => exact heatRow_topFree _ (taintRecovery_topFree hs ..)
  case exchangeTimeout => exact heatRow_topFree _ (exchangeTimeout_topFree hs ..)
  case heartbeat => exact heatRow_topFree _ (heartbeatFlit_topFree hs ..)
  case targetedSelfTestEnd => exact heatRow_topFree _ (testEnd_topFree hs ..)
  case pairHeartbeat => exact heatRow_topFree _ (pairHeartbeat_topFree hs ..)
  case missLimitReached => exact heatRow_topFree _ (missLimitReached_topFree hs ..)
  case pairFenceConf => exact heatRow_topFree _ (fenceConf_topFree hs ..)
  case graceExpiry => exact heatRow_topFree _ (graceExpiry_topFree hs ..)
  case formWaitExpiry => exact heatRow_topFree _ (formWaitExpiry_topFree hs ..)
  case maskExpansionChunkEnd => exact heatRow_topFree _ (maskChunkEnd_topFree hs ..)
  case noiseDrawComplete => exact heatRow_topFree _ (noiseDraw_topFree hs ..)
  case registerWrite => exact writeRegister_topFree hs ..
  case rcRead => exact readRegister_topFree hs ..
  case pop => exact wakePop_topFree hs ..
  case bar4Read => exact bar4Read_topFree hs ..
  case msixUnmask => exact msixUnmask_topFree hs ..
  case vfEnableClear => exact clearVfs_topFree hs ..
  case functionLevelReset => exact functionReset_topFree hs ..
  case coldReset => exact coldReset_topFree hs ..
  case pwrGoodFall => exact powerFall_topFree hs ..
  case warmReset => exact warmRow_topFree hs ..
  case sectorReset => exact sectorReset_topFree hs ..
  case engineReset => exact engineReset_topFree hs ..
  case hostPortReset => exact hostPortReset_topFree hs ..
  case bootDone => exact bootDone_topFree hs ..
  case pllLossOfLock => exact pllLoss_topFree hs ..
  case notBeforeDue => exact notBeforeDue_topFree hs ..
  case lockstepWaitExpiry => exact lockstepExpiry_topFree hs ..
  case commandFetch => exact commandFetch_topFree hs ..
  case completionPost => exact completionPost_topFree hs ..
  case yieldResume => exact yieldResume_topFree hs ..
  case drainTimeout => exact drainTimeout_topFree hs ..
  case shiftClearEnd => exact shiftClearEnd_topFree hs ..
  case pageMoveEnd => exact pageMoveEnd_topFree hs ..
  case groupPlacement => exact groupPlacement_topFree hs ..
  case launchTimeout => exact launchTimeout_topFree hs ..
  case killComplete => exact killComplete_topFree hs ..
  case descriptorComplete => exact descriptorComplete_topFree hs ..
  case stepBoundary => exact stepBoundary_topFree hs ..
  case latOperationEnd => exact latOperationEnd_topFree hs ..
  case rawBlockComplete => exact rawBlockComplete_topFree hs ..
  case seedLeavesProbation => exact seedLeaves_topFree hs ..
  case seedToWaitingInstance => exact seedToWaiting_topFree hs ..
  case data => exact dataFlit_topFree hs ..
  case send => exact roceSend_topFree hs ..
  case rdmaWrite => exact roceWrite_topFree hs ..
  case rdmaRead => exact roceRead_topFree hs ..
  case ackTimeout => exact ackTimeout_topFree hs ..
  case rnrTimer => exact rnrTimer_topFree hs ..
  case risePeriod => exact risePeriod_topFree hs ..
  case pfcFrame => exact pfcFrame_topFree hs ..
  case otherFrame => exact otherFrame_topFree hs ..
  case subportLinkUp => exact subportUp_topFree hs ..
  case subportLinkDown => exact subportDown_topFree hs ..
  case perfSample => exact perfSample_topFree hs ..
  case targetedSelfTestStart => exact testStart_topFree hs ..
  case retirementListWrite => exact listWrite_topFree hs ..
  case mgtCoreStop => exact coreStop_topFree hs ..
  case pllRelock => exact pllRelock_topFree hs ..
  case configurationRequest => exact configRow_topFree hs ..
  case ref10mReturn => exact setCad_topFree hs ..
  case annulusStrobe => exact annulusStrobe_topFree hs ..
  case tierMoverFillEnd => exact fillEnd_topFree hs ..
  case pfcXon => exact pfcXon_topFree hs ..
  case sqTail => grind [execSqTail, OutFree]
  case cqHead => grind [execCqHead, OutFree]
  case pcieCompletionTimeout => unfold execPcieCompletionTimeout; grind [OutFree, Reg.isTop]
  case referenceLost => grind [execReferenceLost, OutFree]
  case estimateExceedsTolerance => grind [execEstimateExceedsTolerance, OutFree]
  case ppsPulse => grind [execPpsPulse, OutFree, Reg.isTop]
  case sync => grind [execSync, OutFree, Reg.isTop]
  case followUp => grind [execFollowUp, OutFree]
  case announce => grind [execAnnounce, OutFree]
  case delayReq => grind [execDelayReq, OutFree]
  case delayResp => grind [execDelayResp, OutFree]
  case originReached => grind [execOriginReached, OutFree]
  case cadenceConfig => grind [execCadenceConfig, OutFree]
  case aliveWindowClose =>
    refine endCapture_topFree (foldl_snd_topFree (fun p e hp => ?_) _ hs)
    exact aliveClose_topFree hp ..
  case lockBlockClose => grind [execLockBlockClose, OutFree]
  case cnp => grind [execCnp, OutFree, Reg.isTop]
  case rdmaPost => grind [execRdmaPost, OutFree]
  case fetchAdd => grind [execFetchAdd, OutFree]
  case cmpSwap => grind [execCmpSwap, OutFree]
  case acknowledgement => grind [execAcknowledgement, OutFree]
  case readResponse => grind [execReadResponse, OutFree]
  case atomicResponse => grind [execAtomicResponse, OutFree]
  case roceNak => grind [execRoceNak, OutFree]
  case rnrNak => grind [execRnrNak, OutFree]
  case idle => grind [execIdle, OutFree]
  case chordXfer => grind [execChordXfer, OutFree]
  case dedupExpiry => grind [execDedupExpiry, OutFree]
  case chordFold => grind [execChordFold, OutFree]
  case foldRetry =>
    unfold execFoldRetry
    split <;> grind [OutFree]
  case foldWaitExpiry => grind [execFoldWaitExpiry, OutFree]
  case laneLockLoss => grind [execLaneLockLoss, OutFree]
  case fecErrorBurst => grind [execFecErrorBurst, OutFree]
  case retrainTimeout => grind [execRetrainTimeout, OutFree]
  case linkTrainingComplete => grind [execLinkTrainingComplete, OutFree]
  case nak => grind [execNak, OutFree]
  case ident => grind [execIdent, OutFree]
  case chordLink => grind [execChordLink, OutFree]
  case accum => grind [execAccum, OutFree]
  case jtagAccess => unfold execJtagAccess; grind [OutFree, Reg.isTop]
  case pfcRefresh => grind [execPfcRefresh, OutFree]
  case perstDeassert => grind [execPerstDeassert, OutFree]
  case hostLinkUp => grind [execHostLinkUp, OutFree]
  case expanderErrorEvent => grind [execExpanderErrorEvent, OutFree, Reg.isTop]
  case cxlPortOffline => grind [execCxlPortOffline, OutFree]
  case cxlMemTimeout => grind [execCxlMemTimeout, OutFree]
  case strokeBoundary => grind [execStrokeBoundary, OutFree]
  case system => grind [execSystem, OutFree]
  case powerDrainEnd => grind [execPowerDrainEnd, OutFree]
  case powerUpComplete => grind [execPowerUpComplete, OutFree]
  case memoryAccessReturn => grind [execMemoryAccessReturn, OutFree]
  case watchdogExpiry => grind [execWatchdogExpiry, OutFree]
  case trialTimerExpiry => grind [execTrialTimerExpiry, OutFree]
  case injectionExpiry => grind [execInjectionExpiry, OutFree]
  case temperatureWarn => grind [execTemperatureWarn, OutFree]
  case temperatureWarnClear => grind [execTemperatureWarnClear, OutFree]
  case temperatureCritical => grind [execTemperatureCritical, OutFree]
  case thermalTrip => grind [execThermalTrip, OutFree]
  case vrFault => grind [execVrFault, OutFree]
  case standbyPowerLoss => grind [execStandbyPowerLoss, OutFree]
  case standbyPowerUp => grind [execStandbyPowerUp, OutFree]
  case markRelease => grind [execMarkRelease, OutFree]
  case misalignedRegisterAccess => grind [execMisalignedRegisterAccess, OutFree]
  case refusedRegisterRead => grind [execRefusedRegisterRead, OutFree]
  case errLast0Read => grind [execErrLast0Read, OutFree]
  case adminCfgEnable => grind [execAdminCfgEnable, OutFree]
  case adminCfgReset => grind [execAdminCfgReset, OutFree]
  case recoveryGo => grind [execRecoveryGo, OutFree]
  case portCfg => grind [execPortCfg, OutFree]

end

/-! ### The statement -/

theorem Table.find_eq_none_of_forall_ne {α : Type} {t : Table α} {k : Nat} (h : ∀ e ∈ t, e.1 ≠ k) : Table.find t k = none := by
  induction t with
  | nil => rfl
  | cons e t ih =>
    rw [Table.find, if_neg (h e List.mem_cons_self)]
    exact ih fun d hd => h d (List.mem_cons_of_mem e hd)

/-- A register that no field is stored of reads as its row of the register table resets it (01 R10). -/
theorem regValue_of_topFree {s : State} {r : Reg} (h : TopFree s.regs) (fn : Fn) (hshown : regShown s fn r 0 0 = 0) (hoff : r.info.off < 2 ^ 20) :
    regValue s fn r 0 0 = r.info.reset := by
  have hnone : Table.find s.regs (r.offset 0 0) = none := Table.find_eq_none_of_forall_ne fun e he heq => by
    have := (topFree_iff _).1 h e he
    simp only [Reg.offset] at heq
    omega
  simp [regValue, hshown, rget, regGet, hnone]

theorem step_topFree {s t : State} (hs : TopFree s.regs) (h : step s = .next t) : TopFree t.regs := by
  unfold step at h
  split at h
  · cases h; exact hs
  next c rest _ =>
    have hc := exec_topFree (s := { s with pending := rest }) hs c
    rwa [h] at hc

/-- Settles O4: no effect writes a register of the TOP block, so none is ever stored and each reads as its row resets it. -/
theorem topStaysWired : Obligations.TopStaysWired := by
  intro s t hs h
  have ht : TopFree t.regs := step_topFree ((topWired_iff s).1 hs) h
  refine ⟨(topWired_iff t).2 ht, fun fn => ⟨?_, ?_, ?_, ?_⟩⟩ <;> exact regValue_of_topFree ht fn rfl (by decide)

end Sys2Proof.Machine

/-! # The reset state (O5) -/
namespace Sys2Proof.Machine

/-- The register file is empty at reset, so no field of the TOP block stands in it. -/
theorem topWired_reset : topWired State.reset = true :=
  (topWired_iff _).2 ((topFree_iff _).2 fun _ he => absurd he List.not_mem_nil)

/-- Settles O5: the three parts are the base cases of O3 and O4 and the empty queue. -/
theorem resetMeetsInvariants : Obligations.ResetMeetsInvariants := by
  have hqueue : State.reset.pending = [] := rfl
  exact ⟨memoryCanonical_reset, topWired_reset, hqueue⟩

end Sys2Proof.Machine

/-! # The cadence: its reset state, deferred commands, and its own commands (O6, O15, O16) -/
namespace Sys2Proof.Machine

/-! ### At reset (02 R105) -/

/-- A register that stores nothing and whose row resets it to zero reads at reset as what it shows. -/
theorem regValue_reset {fn : Fn} {r : Reg} {v : Nat} (hshown : regShown State.reset fn r 0 0 = v) (hzero : r.info.reset = 0) :
    regValue State.reset fn r 0 0 = v := by
  have hstored : rget State.reset r = r.info.reset := rfl
  rw [regValue, hshown, hstored, hzero, Nat.or_zero]

theorem errEst_reset : errEst State.reset.cad = 0xFFFFFFFF := by decide

/-- Settles O6: the bits shown are those of the cadence block at reset, and none of the three registers stores a bit that is set. -/
theorem resetCadence : Obligations.ResetCadence := by
  intro fn
  rw [regValue_reset (r := .cadStatus) (v := 2) rfl rfl, regValue_reset (r := .cadErrEst) errEst_reset rfl,
    regValue_reset (r := .cadStroke) (v := 0) rfl rfl]
  exact ⟨rfl, rfl, rfl, rfl, rfl⟩

/-! ### Deferred commands (02 R79, R81) -/

variable {s : State}

/-- The not-before stroke of the first waiting command has come: it becomes due. -/
theorem notBeforeDue_due {i : Nat} {c : Cmd} {behind : Bool} (hw : firstWaiting (ringOf s i).inflight false = some (c, behind))
    (hnone : c.due = none) (hcome : c.notBefore ≤ s.cad.stroke) :
    notBeforeDue i s = mapInflight (fun d => if d.serial = c.serial then { d with due := some s.cad.stroke } else d) s := by
  simp [notBeforeDue, hw, hnone, hcome]

/-- The first waiting command waited 1,000 strokes for the cadence to leave ADRIFT: it completes with ADRIFT. -/
theorem lockstepExpiry_expires {i d : Nat} {c : Cmd} {behind : Bool} (hw : firstWaiting (ringOf s i).inflight false = some (c, behind))
    (hdue : c.due = some d) (hlock : c.lockstep = true) (hst : s.cad.state = .adrift) (hlong : d + 1000 ≤ s.cad.stroke) :
    lockstepExpiry i s = finish c.serial stAdrift 0 0 s := by
  simp [lockstepExpiry, hw, hdue, hlock, hst, hlong]

/-- Settles O15: each row does to the first waiting command what its rule says. -/
theorem deferredCommands : Obligations.DeferredCommands := by
  intro s i c behind hw
  constructor
  · intro hnone hcome
    exact congrArg _ (notBeforeDue_due hw hnone hcome)
  · intro d hdue hlock hst hlong
    exact congrArg _ (lockstepExpiry_expires hw hdue hlock hst hlong)

/-! ### Commands of the cadence (02 R56, R57, R59, R83, R88, R90, R101) -/

/-- A check that holds lets the body go on. -/
theorem need_bind_of {α : Type} {ok : Bool} (h : ok = true) (st r0 : Nat) (f : Unit → Except Refuse α) :
    (need ok st r0 >>= f) = f () := by
  subst h; rfl

/-- A command that begins and is done at once with OK. -/
theorem beginCommand_okWith {ring op r0 r1 : Nat} {c : Cmd} {body : Cmd → State → Body} {t : State} (hb : Begins s ring op c)
    (hdone : body c s = .ok (.done stOk r0 r1 t)) : beginCommand op ring body s = okWith c r0 r1 t := by
  obtain ⟨hnext, hop, hgate⟩ := hb
  rw [beginCommand_begins op body hnext hop hgate, hdone]
  rfl

/-- The tests of R71 take an ADRIFT cadence nowhere. -/
theorem judgeCad_adrift (h : s.cad.state = .adrift) : judgeCad s = s := by
  simp [judgeCad, h]

/-- Setting the patrol scrub's mark changes the marks alone, and of them only slot 0. -/
theorem setScrubMark_eq (s : State) : ∃ marks taken, setScrubMark s = { s with cad := { s.cad with marks := marks, taken := taken } }
    ∧ ∀ j, j ≠ 0 → Table.find marks j = Table.find s.cad.marks j := by
  unfold setScrubMark
  dsimp only
  split
  · split
    · exact ⟨_, _, rfl, fun _ _ => rfl⟩
    · exact ⟨_, _, rfl, fun j hj => Table.find_drop_ne _ hj⟩
  · split
    · exact ⟨_, _, rfl, fun _ _ => rfl⟩
    · refine ⟨_, _, rfl, fun j hj => ?_⟩
      rw [Table.find_put_ne _ _ hj]
      exact Table.find_drop_ne _ hj

/-- A mark of a sector that frees its slot. -/
theorem markCancelBody_ok {c : Cmd} {k : Nat} {m : Mark} (hconf : s.cad.configured = true) (hres : c.reserved [(36, 64)] = true)
    (hslot : c.param 24 8 = k) (hlo : 16 ≤ k) (hhi : k ≤ 255) (hm : Table.find s.cad.marks k = some m) (hown : m.sector = c.ring / 64)
    (htag : m.tag = c.param 32 4) : markCancelBody c s = .ok (.done stOk 0 0 (cancelMark k s)) := by
  subst hslot
  unfold markCancelBody
  dsimp only
  rw [need_bind_of (by simp [hres, hlo, hhi]), need_bind_of hconf, hm]
  dsimp only
  rw [need_bind_of (by simp [hown]), need_bind_of (by simp [htag])]

/-- The mark that a MARK_SET of a ring stores (02 R83-R85). -/
def storedMark (c : Cmd) (len : Nat) (stored : List Byte) : Mark :=
  { sector := c.ring / 64, ring := c.ring / 64 * 64 + c.param 44 1, target := c.param 24 8, window := c.param 32 4,
    period := c.param 36 4, limited := c.param 36 4 ≠ 0 && c.param 40 4 ≠ 0, left := c.param 40 4,
    lockstep := (fieldLE stored 2 1).testBit 2, work := .stored (padTo (64 * len) stored) c.fn }

/-- The slot a MARK_SET asks for, or the lowest free one where it asks for any. -/
theorem slot_of_wanted {marks : Table Mark} {want k : Nat}
    (h : (want = k ∧ 16 ≤ k ∧ k < 255 ∧ Table.find marks k = none) ∨ (want = 255 ∧ Table.firstFree marks 16 240 = some k)) :
    (if want = 0xFF then Table.firstFree marks 16 240 else if (Table.find marks want).isNone then some want else none) = some k
      ∧ (16 ≤ want ∨ want = 0xFF) := by
  rcases h with ⟨rfl, hlo, hhi, hfree⟩ | ⟨rfl, hfree⟩
  · rw [if_neg (by omega), hfree]
    exact ⟨rfl, .inl hlo⟩
  · exact ⟨hfree, .inr rfl⟩

/-- A mark of a target still to come is stored in its slot. -/
theorem markSetBody_ok {c : Cmd} {stored : List Byte} {len k : Nat} (hconf : s.cad.configured = true)
    (hres : c.reserved [(46, 64)] = true) (hring : c.param 44 1 ≤ 63) (hstored : c.bytes.drop 64 = stored)
    (hop : fieldLE stored 0 2 ∉ [0x0201, 0x0202, 0x0203]) (hlen : fieldLE stored 3 1 = len) (hlen1 : 1 ≤ len) (hfit : len + 1 ≤ c.units)
    (hsector : fieldLE stored 8 1 = c.sector) (hnb : fieldLE stored 16 8 = 0)
    (hquota : Table.countIf s.cad.marks (fun k m => 16 ≤ k && m.sector = c.ring / 64) < rfield s .cadMarkQuota (c.ring / 64) 0 8)
    (hslot : (c.param 45 1 = k ∧ 16 ≤ k ∧ k < 255 ∧ Table.find s.cad.marks k = none)
      ∨ (c.param 45 1 = 255 ∧ Table.firstFree s.cad.marks 16 240 = some k))
    (htarget : s.cad.stroke < c.param 24 8) :
    markSetBody c s = .ok (.done stOk k (c.param 24 8) (setCad { s.cad with marks := Table.put s.cad.marks k (storedMark c len stored) } s)) := by
  subst hstored hlen
  obtain ⟨hpick, hwant⟩ := slot_of_wanted hslot
  simp only [List.mem_cons, List.not_mem_nil, or_false, not_or] at hop
  obtain ⟨hset, hcancel, hconfig⟩ := hop
  unfold markSetBody
  dsimp only
  rw [need_bind_of (by simp [hres, hring, hset, hcancel, hconfig, hnb, hwant]),
    need_bind_of (by simp; omega), need_bind_of (by simp [hsector]), need_bind_of hconf, if_pos hquota, hpick]
  dsimp only
  rw [need_bind_of (by simp [htarget]), setCad_cad, if_pos htarget]
  rfl

/-- The first time base of a cadence: everything it takes from the command, and the marks as they are. -/
structure FirstConfig (c : Cmd) (old k : Cad) : Prop where
  configured : k.configured = true
  sourced : k.sourced = true
  state : k.state = .adrift
  origin : k.origin = c.param 24 8
  periodUs : k.periodUs = c.param 32 4
  pps : k.pps = decide (c.param 36 1 = 1)
  ptpPort : k.ptpPort = c.param 37 1
  ptpDomain : k.ptpDomain = c.param 38 1
  toleranceNs : k.toleranceNs = c.param 40 4
  lockNs : k.lockNs = c.param 44 4
  holdoverPpb : k.holdoverPpb = c.param 48 4
  slewNs : k.slewNs = c.param 52 4
  asymNs : k.asymNs = c.param 56 4
  timeNs : k.timeNs = old.timeNs
  marks : ∀ j, j ≠ 0 → Table.find k.marks j = Table.find old.marks j
  preOrigin : k.preOrigin = decide (old.timeNs < c.param 24 8)
  stroke : k.stroke = if old.timeNs < c.param 24 8 then 0 else (old.timeNs - c.param 24 8) / (c.param 32 4 * 1000)

/-- CADENCE_CONFIG with SET_TIMEBASE on a cadence that was given no source and no time base yet. -/
theorem cadenceConfigBody_first {c : Cmd} (hconf : s.cad.configured = false) (hsrc : s.cad.sourced = false) (hst : s.cad.state = .adrift)
    (hperiod : 100 ≤ c.param 32 4 ∧ c.param 32 4 ≤ 1000000) (hsource : c.param 36 1 ≤ 1) (hport : c.param 37 1 ≤ 7)
    (hdomain : c.param 38 1 ≤ 127) (hflags : c.param 39 1 = 1) (htol : 1000 ≤ c.param 40 4 ∧ c.param 40 4 ≤ 1000000)
    (hlock : 100 ≤ c.param 44 4 ∧ c.param 44 4 ≤ c.param 40 4) (hppb : 1 ≤ c.param 48 4 ∧ c.param 48 4 ≤ 10000)
    (hslew : c.param 52 4 ≤ 1000000) (hasym : c.param 56 4 ≤ 10000) (hres : c.reserved [(60, 64)] = true) :
    ∃ k, cadenceConfigBody c s = .ok (.done stOk 0 0 (setCad k s)) ∧ FirstConfig c s.cad k := by
  unfold cadenceConfigBody
  dsimp only
  rw [need_bind_of (by simp [hperiod, hsource, hport, hdomain, hflags]), need_bind_of (by simp [htol, hlock, hppb]),
    need_bind_of (by simp [hslew, hasym, hres]), need_bind_of (by simp [hconf]), judgeCad_adrift (by simp [hsrc, hflags, hst])]
  refine ⟨_, rfl, ?_⟩
  simp only [hsrc, hflags, Bool.false_and, Bool.false_eq_true, if_false, if_true, strokeAt]
  exact ⟨rfl, rfl, hst, rfl, rfl, rfl, rfl, rfl, rfl, rfl, rfl, rfl, rfl, rfl, fun _ _ => rfl, rfl, rfl⟩

/-- Settles O16: each command begins, its body is done at once, and only CADENCE_CONFIG does more, for the patrol scrub's mark. -/
theorem cadenceCommands : Obligations.CadenceCommands := by
  intro s ring c
  refine ⟨?_, ?_, ?_⟩
  · intro hb hconf hsrc hst hper hper' hsource hport hdom hflags htol htol' hlock hlock' hppb hppb' hslew hasym hres
    obtain ⟨k, hbody, hk⟩ := cadenceConfigBody_first hconf hsrc hst ⟨hper, hper'⟩ hsource hport hdom hflags ⟨htol, htol'⟩ ⟨hlock, hlock'⟩
      ⟨hppb, hppb'⟩ hslew hasym hres
    obtain ⟨marks, taken, hscrub, hmarks⟩ := setScrubMark_eq (okWith c 0 0 (setCad k s))
    refine ⟨{ k with marks := marks, taken := taken }, ?_, hk.configured, hk.sourced, hk.state, hk.origin, hk.periodUs, hk.pps, hk.ptpPort,
      hk.ptpDomain, hk.toleranceNs, hk.lockNs, hk.holdoverPpb, hk.slewNs, hk.asymNs, hk.timeNs,
      fun j hj => (hmarks j hj).trans (hk.marks j hj), hk.preOrigin, hk.stroke⟩
    change Host.Outcome.next (setScrubMark (beginCommand 0x0203 ring cadenceConfigBody s)) = _
    rw [beginCommand_okWith hb hbody, hscrub]
    rfl
  · intro hb hconf hres hring stored len k hstored hop hlen hlen1 hfit hsector hnb hquota hslot htarget
    exact congrArg _ (beginCommand_okWith hb
      (markSetBody_ok hconf hres hring hstored hop hlen hlen1 hfit hsector hnb hquota hslot htarget))
  · intro hb hconf hres k m hslot hlo hhi hm hown htag
    exact congrArg _ (beginCommand_okWith hb (markCancelBody_ok hconf hres hslot hlo hhi hm hown htag))

end Sys2Proof.Machine

/-! # The cadence and its reference: PTP messages, pulses, loss and drift (O17, O18) -/
namespace Sys2Proof.Machine
variable {s : State}

/-! ### What the log and the changes of state leave (02 R71, R75; 19 R927) -/

/-- A push changes the registers and the wake queues alone. -/
theorem wakePush_eq (q : Nat) (ws : List (Word32 × Bool × Bool)) (s : State) :
    ∃ regs wake, wakePush q ws s = { s with regs := regs, wake := wake } := ⟨_, _, rfl⟩

/-- So does a log record, pushed or counted as misrouted. -/
theorem logRecord_eq (queue typ : Nat) (body : List Byte) (s : State) :
    ∃ regs wake, logRecord queue typ body s = { s with regs := regs, wake := wake } := by
  unfold logRecord
  dsimp only
  split
  · exact wakePush_eq ..
  · exact ⟨_, _, rfl⟩

/-- A change of state sets the state and logs it. -/
theorem enterCad_eq (st : CadState) (s : State) :
    ∃ regs wake, enterCad st s = { s with cad := { s.cad with state := st }, regs := regs, wake := wake } := by
  unfold enterCad
  split
  next h => exact ⟨s.regs, s.wake, by rw [← h]⟩
  · dsimp only
    obtain ⟨regs, wake, hlog⟩ := logRecord_eq (rfield s .cadLogQueue 0 0 6) 0x01 _ (setCad { s.cad with state := st } s)
    rw [hlog]
    exact ⟨_, _, rfl⟩

/-- The state in which the tests of R71 leave a cadence. -/
def judgedState (c : Cad) : CadState :=
  match c.state with
  | .adrift => .adrift
  | .holdover => if exceedsAt c c.timeNs c.toleranceNs then .adrift else .holdover
  | .locked =>
    if exceedsAt c c.timeNs c.toleranceNs then .adrift
    else if exceedsAt c c.timeNs c.lockNs || !c.refPresent then .holdover
    else .locked

/-- The tests of R71 set that state and log its change. -/
theorem judgeCad_eq (s : State) :
    ∃ regs wake, judgeCad s = { s with cad := { s.cad with state := judgedState s.cad }, regs := regs, wake := wake } := by
  have hstay (h : judgedState s.cad = s.cad.state) :
      ∃ regs wake, s = { s with cad := { s.cad with state := judgedState s.cad }, regs := regs, wake := wake } :=
    ⟨s.regs, s.wake, by rw [h]⟩
  have henter {st : CadState} (h : judgedState s.cad = st) :
      ∃ regs wake, enterCad st s = { s with cad := { s.cad with state := judgedState s.cad }, regs := regs, wake := wake } := by
    rw [h]
    exact enterCad_eq st s
  unfold judgeCad
  dsimp only
  split
  next h => exact hstay (by simp [judgedState, h])
  next h =>
    split
    next htol => exact henter (by simp [judgedState, h, htol])
    next htol => exact hstay (by simp [judgedState, h, htol])
  next h =>
    split
    next htol => exact henter (by simp [judgedState, h, htol])
    next htol =>
      split
      next hleft => exact henter (by simp only [judgedState, h, if_neg htol, if_pos hleft])
      next hleft => exact hstay (by simp only [judgedState, h, if_neg htol, if_neg hleft])

/-- What a reference update makes of a cadence (02 R66, R70-R72): the estimate from the offset, the local time kept or stepped, and never
HOLDOVER from ADRIFT. -/
structure ReferenceUpdated (now : Nat) (offset : Int) (c k : Cad) : Prop where
  est : k.est = offset.natAbs + c.asymNs
  refPresent : k.refPresent = true
  sync : k.sync = c.sync
  timeNs : k.timeNs = if c.slewNs < offset.natAbs then ((now : Int) - offset).toNat else now
  stroke : k.stroke = c.stroke
  marks : k.marks = c.marks
  state : c.state = .adrift → k.state ≠ .holdover

/-- A reference update changes the cadence so, and logs the changes of its state. -/
theorem referenceUpdate_eq (now : Nat) (offset : Int) (s : State) :
    ∃ k regs wake, referenceUpdate now offset s = { s with cad := k, regs := regs, wake := wake } ∧ ReferenceUpdated now offset s.cad k := by
  unfold referenceUpdate
  extract_lets c est good stepped time c1 c2 s1
  have hkept : ReferenceUpdated now offset s.cad c2 ∧ c2.state = s.cad.state := by
    simp only [c2, c1]
    split <;> exact ⟨⟨rfl, rfl, rfl, rfl, rfl, rfl, fun ha => by simp [c, ha]⟩, rfl⟩
  obtain ⟨⟨hest, href, hsync, htime, hstroke, hmarks, -⟩, hstate⟩ := hkept
  obtain ⟨regs, wake, hjudged⟩ := judgeCad_eq (setCad c2 s)
  have hs1 : s1 = _ := hjudged
  split
  · obtain ⟨regs', wake', hlocked⟩ := enterCad_eq .locked s1
    rw [hlocked, hs1]
    exact ⟨_, _, _, rfl, hest, href, hsync, htime, hstroke, hmarks, fun _ => by simp⟩
  · rw [hs1]
    exact ⟨_, _, _, rfl, hest, href, hsync, htime, hstroke, hmarks, fun ha => by simp [judgedState, hstate, ha]⟩

/-! ### What an error record leaves (17 R846-R854, R867-R870) -/

/-- `t` is `s` with error records written or injection slots fired: cadence, memory, sectors and rings are kept, and every stored
register below the ERR block. -/
structure Recorded (s t : State) : Prop where
  cad : t.cad = s.cad
  mem : t.mem = s.mem
  sct : t.sct = s.sct
  rings : t.rings = s.rings
  below : ∀ off, off < 0x1300000 → Table.find t.regs off = Table.find s.regs off

theorem Recorded.refl (s : State) : Recorded s s := ⟨rfl, rfl, rfl, rfl, fun _ _ => rfl⟩

theorem Recorded.trans {s t u : State} (h : Recorded s t) (h' : Recorded t u) : Recorded s u :=
  ⟨h'.cad.trans h.cad, h'.mem.trans h.mem, h'.sct.trans h.sct, h'.rings.trans h.rings, fun off ho => (h'.below off ho).trans (h.below off ho)⟩

theorem Recorded.ite {s t u : State} {p : Prop} [Decidable p] (ht : Recorded s t) (hu : Recorded s u) : Recorded s (if p then t else u) := by
  split <;> assumption

/-- A counter of the ERR block or above raised. -/
theorem Recorded.bumpField {s t : State} (h : Recorded s t) {r : Reg} (hr : 0x1300000 ≤ r.info.off) (i lo w n : Nat) :
    Recorded s (bumpField t r i lo w n) := by
  refine h.trans ⟨rfl, rfl, rfl, rfl, fun off ho => Table.find_put_ne _ _ ?_⟩
  simp only [Reg.offset]
  omega

theorem Recorded.bump {s t : State} (h : Recorded s t) {r : Reg} (hr : 0x1300000 ≤ r.info.off) (i : Nat) : Recorded s (bump t r i) :=
  h.bumpField hr ..

theorem Recorded.wakePush {s t : State} (h : Recorded s t) (q : Nat) (ws : List (Word32 × Bool × Bool)) : Recorded s (wakePush q ws t) := by
  have hset : Recorded s (setWake t q (enterWords (wakeOf t q) ws).1) := ⟨h.cad, h.mem, h.sct, h.rings, h.below⟩
  exact hset.bumpField (by decide) ..

/-- A register below the ERR block reads the same. -/
theorem Recorded.rget_eq {s t : State} (h : Recorded s t) {r : Reg} {i j : Nat} (hr : r.offset i j < 0x1300000) : rget t r i j = rget s r i j := by
  simp only [rget, regGet, h.below _ hr]

theorem writeRecord_recorded (r : Rec) (s : State) : Recorded s (writeRecord r s) := by
  unfold writeRecord
  split
  · have hlost : Recorded s { s with err := { s.err with lostBefore := true } } := ⟨rfl, rfl, rfl, rfl, fun _ _ => rfl⟩
    exact hlost.bump (by decide) 0
  · extract_lets seq shown pub full old err s1 s2 pins s3
    have h1 : Recorded s s1 := ⟨rfl, rfl, rfl, rfl, fun _ _ => rfl⟩
    have h2 : Recorded s s2 := .ite (h1.wakePush ..) h1
    have h3 : Recorded s s3 := .ite ⟨h2.cad, h2.mem, h2.sct, h2.rings, h2.below⟩ h2
    exact .ite (h3.bump (by decide) 0) (.ite (h3.bump (by decide) 0) (.ite (h3.bump (by decide) 0) h3))

theorem fireSlot_recorded (k : Nat) (s : State) : Recorded s (fireSlot k s) := by
  have hcount : Recorded s (bump s .injFired) := (Recorded.refl s).bump (by decide) 0
  unfold fireSlot
  dsimp only
  split
  · exact hcount
  · exact ⟨hcount.cad, hcount.mem, hcount.sct, hcount.rings, hcount.below⟩

theorem firePoint_recorded (point target : Nat) (s : State) : Recorded s (firePoint point target s).2.2 := by
  unfold firePoint
  split
  · exact .refl s
  · exact fireSlot_recorded ..

/-- An overrun of a crossing class counts one event, shows its class, and beyond that only writes an error record (16 R804). -/
theorem overrun_recorded (cls n : Nat) (s : State) :
    Recorded (rput (bumpField s .clkLost cls 0 32 n) .clkOverrun 0 0 (rget (bumpField s .clkLost cls 0 32 n) .clkOverrun ||| 2 ^ cls))
      (overrun cls n s) := by
  unfold overrun
  dsimp only
  split
  · exact .refl _
  · exact (firePoint_recorded ..).trans (writeRecord_recorded ..)

/-- The lost event counts, and the class is shown in CLK.OVERRUN. -/
theorem overrun_counts (s : State) :
    rget (overrun 5 1 s) .clkLost 5 % 2 ^ 32 = min (rget s .clkLost 5 % 2 ^ 32 + 1) (2 ^ 32 - 1)
      ∧ (rget (overrun 5 1 s) .clkOverrun).testBit 5 = true := by
  have h := overrun_recorded 5 1 s
  constructor
  · rw [h.rget_eq (by decide), rget_rput_ne _ _ (by decide)]
    exact bump_counts s .clkLost 5
  · rw [h.rget_eq (by decide), rget_rput_same, Nat.testBit_mod_two_pow, Nat.testBit_or, Nat.testBit_two_pow_self, Bool.or_true]
    rfl

/-- An overrun keeps the cadence, the memory, the sectors and the rings. -/
theorem overrun_frame (cls n : Nat) (s : State) :
    (overrun cls n s).cad = s.cad ∧ (overrun cls n s).mem = s.mem ∧ (overrun cls n s).sct = s.sct ∧ (overrun cls n s).rings = s.rings := by
  have h := overrun_recorded cls n s
  exact ⟨h.cad, h.mem, h.sct, h.rings⟩

/-! ### PTP messages (02 R66; 15 R794, R795) -/

section
variable {port : Nat} (hport : ptpPort s port = true)
include hport

theorem announce_adds (m : PtpMaster) : execAnnounce port s.cad.ptpDomain m s
    = .next (setCad { s.cad with masters := Table.put s.cad.masters m.identity m } s) := by
  simp [execAnnounce, hport]

theorem sync_oneStep (master seq rx : Nat) : execSync port master seq rx false s = .next (bump s .ethPtpIgnored port) := by
  simp [execSync, hport]

theorem sync_twoStep {master : Nat} (hm : isMaster s master = true) (seq rx : Nat) :
    execSync port master seq rx true s = .next (setCad { s.cad with sync := some (master, seq, rx) } s) := by
  simp [execSync, hport, hm]

/-- The Follow_Up of the Sync that waits is a reference update. -/
theorem followUp_updates {master seq rx : Nat} (hm : isMaster s master = true) (hsync : s.cad.sync = some (master, seq, rx)) (now : Nat)
    (offset : Int) :
    execFollowUp port master seq now offset s = .next (referenceUpdate now offset (setCad { s.cad with sync := none } s)) := by
  simp [execFollowUp, hport, hsync, hm]

theorem delayResp_measures {master seq t0 : Nat} (hm : isMaster s master = true) (hreq : s.cad.delayReq = some (seq, t0)) (delay : Int) :
    execDelayResp port master seq delay s = .next (setCad { s.cad with pathDelay := delay, delayReq := none } s) := by
  simp [execDelayResp, hport, hreq, hm]

end

/-- With source PTP a Delay_Req is sent from the configured port, once a master is known. -/
theorem delayReq_sends (hsrc : s.cad.sourced = true) (hpps : s.cad.pps = false) (hbest : (bestMaster s).isSome = true) (now : Nat) :
    execDelayReq now s = .next (emit (.delayReq s.cad.ptpPort s.cad.delaySeq)
      (setCad { s.cad with delayReq := some (s.cad.delaySeq, now), delaySeq := (s.cad.delaySeq + 1) % 65536 } s)) := by
  simp [execDelayReq, hsrc, hpps, hbest]

/-- Settles O17: a message of the configured port reaches the clock, and each row does what its message says. -/
theorem cadencePtp : Obligations.CadencePtp := by
  intro s port master seq hsrc hpps hport
  subst hport
  have hptp : ptpPort s s.cad.ptpPort = true := by simp [ptpPort, hsrc, hpps]
  refine ⟨announce_adds hptp, sync_oneStep hptp master seq, fun rx hm => sync_twoStep hptp hm seq rx, ?_, fun now hbest =>
    delayReq_sends hsrc hpps hbest now, fun t0 d hreq hm => delayResp_measures hptp hm hreq d⟩
  intro rx now offset hm hsync
  obtain ⟨k, regs, wake, hup, hk⟩ := referenceUpdate_eq now offset (setCad { s.cad with sync := none } s)
  refine ⟨_, followUp_updates hptp hm hsync now offset, ?_⟩
  rw [hup]
  exact ⟨hk.est, hk.refPresent, hk.sync, hk.timeNs, hk.stroke, hk.marks, rfl, rfl, rfl, rfl⟩

/-! ### Pulses and the loss of the reference (02 R57, R62, R66-R68, R71) -/

/-- With source PPS and the 10 MHz reference present, a pulse in time is a reference update that raises CAD.PPS_SECONDS. -/
theorem ppsPulse_inTime (hsrc : s.cad.sourced = true) (hpps : s.cad.pps = true) (h10 : s.cad.ref10 = true) (now : Nat) (offset : Int) :
    execPpsPulse now offset false s
      = .next (rput (referenceUpdate now offset s) .cadPpsSeconds 0 0 ((rget s .cadPpsSeconds + 1) % 2 ^ 64)) := by
  simp [execPpsPulse, hsrc, hpps, h10]

theorem referenceLost_present (href : s.cad.refPresent = true) (now : Nat) :
    execReferenceLost now false s = .next (referenceLost now s) := by
  simp [execReferenceLost, href]

theorem originReached_configured {now : Nat} (hconf : s.cad.configured = true) (horigin : s.cad.origin ≤ now) :
    execOriginReached now s = .next (setCad { s.cad with preOrigin := false, timeNs := max now s.cad.timeNs } s) := by
  simp [execOriginReached, hconf, horigin]

/-- A LOCKED cadence within tolerance whose reference is lost at this local time is judged HOLDOVER (02 R71). -/
theorem judgedState_lost {c : Cad} (hst : c.state = .locked) (href : c.refPresent = false) (hnow : c.timeNs = c.estTime)
    (htol : c.est ≤ c.toleranceNs) : judgedState c = .holdover := by
  have hwithin : exceedsAt c c.timeNs c.toleranceNs = false := by simp [exceedsAt, href, hnow]; omega
  simp [judgedState, hst, href, hwithin]

/-- In HOLDOVER without a reference, the estimate grown at HOLDOVER_PPB decides (02 R68, R71). -/
theorem judgedState_holdover {c : Cad} (hst : c.state = .holdover) (href : c.refPresent = false) {now : Nat} (hnow : c.timeNs = now) :
    judgedState c = if c.toleranceNs * 1000000000 < c.est * 1000000000 + c.holdoverPpb * (now - c.estTime) then .adrift else .holdover := by
  simp [judgedState, exceedsAt, hst, href, hnow]

/-- Settles O18: a pulse in time and the loss of the reference leave the cadence as the tests of R71 judge it, an early pulse is an
overrun of class 5, and the other rows set the named fields. -/
theorem cadenceDrift : Obligations.CadenceDrift := by
  intro s now offset
  refine ⟨?_, ?_, ?_, ?_, rfl, ?_⟩
  · intro hsrc hpps h10
    obtain ⟨k, regs, wake, hup, hk⟩ := referenceUpdate_eq now offset s
    refine ⟨_, ppsPulse_inTime hsrc hpps h10 now offset, ?_⟩
    rw [hup]
    exact ⟨hk.est, hk.refPresent, by rw [rget_rput_same, Nat.mod_mod], hk.state, rfl, rfl, rfl⟩
  · obtain ⟨hcad, hframe⟩ := overrun_frame 5 1 s
    obtain ⟨hlost, hshown⟩ := overrun_counts s
    exact ⟨overrun 5 1 s, rfl, hcad, hlost, hshown, hframe⟩
  · intro href
    obtain ⟨regs, wake, hj⟩ := judgeCad_eq
      (setCad { s.cad with refPresent := false, estTime := now, goodUpdates := 0, timeNs := max now s.cad.timeNs } s)
    refine ⟨_, (referenceLost_present href now).trans (congrArg _ hj), ?_⟩
    exact ⟨rfl, rfl, rfl, rfl, fun hst htol hnow => judgedState_lost hst rfl (max_eq_left hnow) htol, rfl, rfl, rfl⟩
  · intro hst href hnow
    obtain ⟨regs, wake, hj⟩ := judgeCad_eq (setCad { s.cad with timeNs := max now s.cad.timeNs } s)
    refine ⟨_, congrArg Host.Outcome.next hj, ?_, rfl, max_eq_left hnow, rfl, rfl, rfl⟩
    exact judgedState_holdover (c := { s.cad with timeNs := max now s.cad.timeNs }) hst href (max_eq_left hnow)
  · intro hconf horigin
    exact originReached_configured hconf horigin

end Sys2Proof.Machine

/-! # The sectors at reset (O7) -/
namespace Sys2Proof.Machine

/-- The table of sectors lists sector 0 alone at reset. -/
theorem sectorOf_reset (n : Nat) : sectorOf State.reset n = if n = 0 then { state := .active } else {} := by
  change (if 0 = n then some _ else none : Option Sector).getD {} = _
  by_cases h : n = 0
  · subst h; rfl
  · rw [if_neg h, if_neg (Ne.symm h)]; rfl

/-- Settles O7: sector 0 alone is listed, and every table of owners is empty (the model has a function `resetSectors`). -/
theorem sectorsAtReset : Obligations.ResetSectors := by
  have hfree (i : Nat) : Table.find State.reset.sct.eights i = none ∧ Table.find State.reset.sct.engines i = none
      ∧ Table.find State.reset.sct.hbm i = none ∧ Table.find State.reset.sct.lake i = none ∧ Table.find State.reset.sct.wake i = none :=
    ⟨rfl, rfl, rfl, rfl, rfl⟩
  refine ⟨rfl, rfl, rfl, rfl, rfl, fun n hn _ => ?_, hfree⟩
  rw [sectorOf_reset, if_neg (by omega)]

end Sys2Proof.Machine

/-! # Reads that the ingress filter refuses (O10) -/
namespace Sys2Proof.Machine

variable {s : State}

/-- A register of which a virtual function reads nothing: an aligned 32-bit read of its first word, below the doorbell window and outside
CAD, lands on it, and only the physical function reaches it. -/
def hidden (r : Reg) : Bool :=
  alignedAccess (r.offset 0 0) 4 && decide (r.offset 0 0 < 2 ^ 26) && decide (findReg (r.offset 0 0) Reg.list = some (r, 0, 0, 0))
    && decide (r.info.reach = .physical) && decide (blockOf (r.offset 0 0) ≠ 1)

theorem hidden_registers : ∀ r ∈ [Reg.topFuseStatus, .memStatus, .errStatus, .clkPllStatus, .pwrLeState, .injArmed], hidden r = true := by
  decide +kernel

/-- The row passes such a read on to the bus, which answers the block's value and records the refusal (03 R123, 15 R754). -/
theorem refusedRegisterRead_hidden (ha : Awake s) {r : Reg} (hr : hidden r = true) (n : Nat) :
    exec (.refusedRegisterRead (.vf n) (r.offset 0 0) 4) s
      = .next (reply (refusedValue (r.offset 0 0) 4) (filterRefuse (.vf n) (r.offset 0 0) s)) := by
  simp only [hidden, Bool.and_eq_true, decide_eq_true_eq] at hr
  obtain ⟨⟨⟨⟨hal, hlt⟩, hfind⟩, hreach⟩, hblock⟩ := hr
  have hplace : placeOf (.vf n) (r.offset 0 0) = .register r 0 0 0 := by rw [placeOf, hfind]
  have hshut : admits s (.vf n) false (.register r 0 0 0) = false := by simp [admits, vfReads, hreach]
  have hopen := blockOpen_of_awake ha (r.offset 0 0)
  have hrefused : readRefused s (.vf n) (r.offset 0 0) 4 = true := by
    rw [readRefused, if_neg (Nat.not_le.mpr hlt)]
    simp [hopen, hplace, hshut]
  have hunit : readUnit (.vf n) (r.offset 0 0) 4 s = (refusedValue (r.offset 0 0) 4, filterRefuse (.vf n) (r.offset 0 0) s) := by
    simp [readUnit, hopen, hplace, hshut, hblock]
  have hread : readRegister (.vf n) (r.offset 0 0) 4 s
      = reply (refusedValue (r.offset 0 0) 4) (filterRefuse (.vf n) (r.offset 0 0) s) := by
    rw [readRegister, if_neg (by simp [busAwake_of_awake ha]), if_neg (Nat.not_le.mpr hlt), if_neg (by simp [hal]), hunit]
    rfl
  change Host.Outcome.next _ = _
  rw [if_pos (by simp [hal, hrefused]), hread]

/-- Settles O10: only the physical function reads these registers, and the register block decides the value returned. -/
theorem refusedRead : Obligations.RefusedRead := by
  intro s n ha
  have hread (r : Reg) (v : Nat) (hr : hidden r = true) (hv : refusedValue (r.offset 0 0) 4 = v) :
      exec (.refusedRegisterRead (.vf n) (r.offset 0 0) 4) s
        = .next (reply v (bump (eventRecord 0x0B02 n 0 (r.offset 0 0) s) .pciFiltered)) := by
    rw [refusedRegisterRead_hidden ha hr, hv]
    rfl
  have hzero : ∀ r ∈ [Reg.topFuseStatus, .memStatus, .errStatus], refusedValue (r.offset 0 0) 4 = 0 := by decide
  have hones : ∀ r ∈ [Reg.clkPllStatus, .pwrLeState, .injArmed], refusedValue (r.offset 0 0) 4 = 0xFFFFFFFF := by decide
  exact ⟨fun r hr => hread r _ (hidden_registers r (by simp at hr ⊢; tauto)) (hzero r hr),
    fun r hr => hread r _ (hidden_registers r (by simp at hr ⊢; tauto)) (hones r hr)⟩

end Sys2Proof.Machine

/-! # Sector commands: validation, commit and the end of the drain (O27) -/
namespace Sys2Proof.Machine

variable {s : State}

/-! ### Sectors that a command touches (03, step 1) -/

/-- The fold by which a command sets the state of the sectors it touches changes the table of sectors alone: in those the state, in the
others nothing. -/
theorem foldl_setSector_state (st : SectorState) (l : List Nat) (s : State) :
    ∃ t, l.foldl (fun s n => setSector n { sectorOf s n with state := st } s) s = { s with sct := { s.sct with sectors := t } }
      ∧ (∀ n ∈ l, (Table.getD t n {}).state = st) ∧ ∀ n, n ∉ l → Table.getD t n {} = sectorOf s n := by
  induction l generalizing s with
  | nil => exact ⟨s.sct.sectors, rfl, fun _ h => absurd h List.not_mem_nil, fun _ _ => rfl⟩
  | cons a l ih =>
    obtain ⟨t, hfold, hin, hout⟩ := ih (setSector a { sectorOf s a with state := st } s)
    have hafter (n : Nat) : sectorOf (setSector a { sectorOf s a with state := st } s) n
        = if n = a then { sectorOf s a with state := st } else sectorOf s n := by
      simp only [sectorOf, setSector, setSct, Table.getD, Table.find_put]
      split <;> rfl
    refine ⟨t, hfold, fun n hn => ?_, fun n hn => ?_⟩
    · by_cases hl : n ∈ l
      · exact hin n hl
      · have ha : n = a := (List.mem_cons.mp hn).resolve_right hl
        rw [hout n hl, hafter, if_pos ha]
    · rw [List.mem_cons, not_or] at hn
      rw [hout n hn.2, hafter, if_neg hn.1]

/-- SECTOR_DEFINE and SECTOR_STOP touch their target. -/
theorem target_mem_touchedBy {op : SectorOp} (h : op ≠ .shift) (target : Nat) (moves : List Move) : target ∈ touchedBy op target moves := by
  simp only [touchedBy, if_neg h]
  split
  next hc => exact List.contains_iff_mem.mp hc
  · exact List.mem_cons_self

/-! ### The commit (03 R132, R135; R287) -/

/-- With no page being moved, there is none to drop. -/
theorem stopMoves_nil (h : s.mover = []) (p : Mover → Bool) (status : Nat) : stopMoves p status s = s := by
  obtain ⟨⟩ := s
  subst h
  rfl

/-- The sector command that a commit leaves in progress. -/
def committed (op : SectorOp) (c : Cmd) (launches : List Nat) : SectorCmd :=
  let moves := (List.range (c.param 32 1)).map (moveAt c)
  { serial := c.serial, op := op, target := c.param 34 1, moves := moves, power := c.param 35 1, touched := touchedBy op (c.param 34 1) moves,
    step := if op = .define then 3 else 2, launches := launches }

/-- The states of the sectors that a commit touches, and no other sector changed. -/
def TouchedEnter (op : SectorOp) (touched : List Nat) (s : State) (t : Table Sector) : Prop :=
  (∀ n ∈ touched, (Table.getD t n {}).state = if op = .stop then .stopping else .shifting)
    ∧ ∀ n, n ∉ touched → Table.getD t n {} = sectorOf s n

/-- A SECTOR_DEFINE also gives its target, which it touches, a fresh entry. -/
theorem TouchedEnter.put {op : SectorOp} {touched : List Nat} {t : Table Sector} (h : TouchedEnter op touched s t) (hop : op ≠ .stop)
    {n : Nat} (hn : n ∈ touched) (distance : Bool) :
    TouchedEnter op touched s (Table.put t n { state := .shifting, distance := distance }) := by
  obtain ⟨hin, hout⟩ := h
  refine ⟨fun m hm => ?_, fun m hm => ?_⟩
  · by_cases hmn : m = n
    · rw [hmn, Table.getD_put_same, if_neg hop]
    · rw [Table.getD_put_ne _ _ _ hmn]; exact hin m hm
  · rw [Table.getD_put_ne _ _ _ (ne_of_mem_of_not_mem hn hm).symm]; exact hout m hm

/-- A commit that leaves time to drain, with no page being moved, changes the states of the sectors touched and notes the command. -/
theorem commitSector_eq {op : SectorOp} {c : Cmd} (hdrain : op = .define ∨ c.param 24 8 ≠ 0) (hmover : s.mover = []) :
    ∃ t launches, commitSector op c s = { s with sct := { s.sct with sectors := t, cmd := some (committed op c launches) } }
      ∧ TouchedEnter op (committed op c []).touched s t := by
  obtain ⟨t, hfold, htouched⟩ := foldl_setSector_state (if op = .stop then .stopping else .shifting)
    (committed op c []).touched (setSct { s.sct with cmd := some (committed op c []) } s)
  unfold commitSector
  extract_lets moves target touched cmd sct noted st entered mode marked launched dropped
  have hentered : entered = { s with sct := { s.sct with sectors := t, cmd := some (committed op c []) } } := hfold
  have htouched : TouchedEnter op touched s t := htouched
  have hmarked : ∃ t, marked = { s with sct := { s.sct with sectors := t, cmd := some (committed op c []) } }
      ∧ TouchedEnter op touched s t := by
    by_cases hdef : op = .define
    · have htarget : target ∈ touched := target_mem_touchedBy (by simp [hdef]) target moves
      exact ⟨_, (if_pos hdef).trans (by rw [hentered]; rfl), htouched.put (by simp [hdef]) htarget mode⟩
    · exact ⟨t, (if_neg hdef).trans hentered, htouched⟩
  obtain ⟨t, hmarked, htouched⟩ := hmarked
  have hlaunched : launched = { s with sct := { s.sct with sectors := t, cmd := some (committed op c (departingLaunches marked)) } } := by
    change changeCmd (fun x => { x with launches := departingLaunches marked }) marked = _
    generalize departingLaunches marked = l
    rw [hmarked]
    rfl
  have hdropped : dropped = launched := stopMoves_nil (by rw [hlaunched]; exact hmover) ..
  refine ⟨t, departingLaunches marked, ?_, htouched⟩
  rw [if_neg (by rcases hdrain with h | h <;> simp [h]), hdropped, hlaunched]

/-! ### The three commands (03 R130-R133) -/

/-- SCT.CMD_STATUS after one more command. -/
def countCmd (st : Nat) (s : State) : State := { s with sct := { s.sct with lastStatus := st, count := (s.sct.count + 1) % 2 ^ 32 } }

theorem sectorBody_refused {op : SectorOp} {c : Cmd} {st i : Nat} (h : sectorCheck op c s = some (st, i)) :
    sectorBody op c s = .ok (.done st i 0 (countCmd st s)) := by
  rw [sectorBody, h]; rfl

theorem sectorBody_dryRun {op : SectorOp} {c : Cmd} (h : sectorCheck op c s = none) (hdry : (c.param 33 1).testBit 0 = true) :
    sectorBody op c s = .ok (.done stOk 0 0 (countCmd stOk s)) := by
  rw [sectorBody, h]; simp only [hdry]; rfl

theorem sectorBody_commits {op : SectorOp} {c : Cmd} (h : sectorCheck op c s = none) (hdry : (c.param 33 1).testBit 0 = false) :
    sectorBody op c s = .ok (.running (commitSector op c s)) := by
  rw [sectorBody, h]; simp only [hdry]; rfl

/-- Each of the three rows settles what the body of its operation answers. -/
theorem exec_sectorRow {ring code : Nat} {c : Cmd} {op : SectorOp} {row : Instr}
    (hrow : (op = .define ∧ row = .sectorDefine ring ∧ code = 0x0101) ∨ (op = .shift ∧ row = .sectorShift ring ∧ code = 0x0102)
      ∨ (op = .stop ∧ row = .sectorStop ring ∧ code = 0x0103)) (hb : Begins s ring code c) :
    exec row s = .next (settle c.serial s (sectorBody op c s)) := by
  obtain ⟨hnext, hop, hgate⟩ := hb
  have hbegin := beginCommand_begins code (sectorBody op) hnext hop hgate
  rcases hrow with ⟨rfl, rfl, rfl⟩ | ⟨rfl, rfl, rfl⟩ | ⟨rfl, rfl, rfl⟩ <;> exact congrArg _ hbegin

/-! ### The end of the drain (03 R136) -/

/-- What departs does so until ownership changes, so the end of the drain changes none of it. -/
theorem departing_step {x : SectorCmd} (hx : s.sct.cmd = some x) (hstep : x.step < 3) :
    departing { s with sct := { s.sct with cmd := some { x with step := 3 } } } = departing s := by
  funext kind i
  have hlt : x.step < 6 := by omega
  simp [departing, losing, hx, hlt]

/-- A drain timeout with nothing left to kill or stop ends the drain. -/
theorem drainTimeout_ends {x : SectorCmd} (hx : s.sct.cmd = some x) (hop : x.op ≠ .power) (hstep : x.step < 3) (hl : x.launches = [])
    (he : departingEngines s = []) : drainTimeout s = { s with sct := { s.sct with cmd := some { x with step := 3 } } } := by
  have hafter : changeCmd (fun c => { c with step := 3 }) s = { s with sct := { s.sct with cmd := some { x with step := 3 } } } := by
    simp only [changeCmd, hx]; rfl
  have hengines : departingEngines { s with sct := { s.sct with cmd := some { x with step := 3 } } } = [] := by
    rwa [departingEngines, departing_step hx hstep]
  unfold drainTimeout
  simp only [hx]
  rw [if_neg (by simp [hop]; omega), hafter]
  generalize { s with sct := { s.sct with cmd := some { x with step := 3 } } } = u at hengines ⊢
  rw [hl, List.foldl_nil, hengines, List.foldl_nil]

/-- Without a command in its drain, a drain timeout changes nothing. -/
theorem drainTimeout_idle (h : ∀ x, s.sct.cmd = some x → x.op = .power ∨ 3 ≤ x.step) : drainTimeout s = s := by
  unfold drainTimeout
  split
  · rfl
  next x hx => rw [if_pos (by simpa using h x hx)]

/-- Settles O27: the row settles what the body answers, which is the failed check, the dry run or the commit. -/
theorem sectorCommands : Obligations.SectorCommands := by
  refine ⟨fun s ring code c op row hrow hb => ⟨?_, ?_, ?_⟩, fun s x hx hop hstep hl he => congrArg _ (drainTimeout_ends hx hop hstep hl he),
    fun s h => congrArg _ (drainTimeout_idle h)⟩
  · intro st i hcheck
    rw [exec_sectorRow hrow hb, sectorBody_refused hcheck]
    rfl
  · intro hcheck hdry
    rw [exec_sectorRow hrow hb, sectorBody_dryRun hcheck hdry]
    rfl
  · intro hcheck hdry hdrain hmover moves
    obtain ⟨t, launches, hcommit, htouched, hothers⟩ := commitSector_eq (op := op) hdrain hmover
    refine ⟨{ s with sct := { s.sct with sectors := t, cmd := some (committed op c launches) } }, committed op c launches, ?_,
      htouched, hothers, rfl, rfl, rfl, rfl, rfl, rfl, rfl, rfl, rfl, rfl, rfl, rfl⟩
    rw [exec_sectorRow hrow hb, sectorBody_commits hcheck hdry, hcommit]
    rfl

end Sys2Proof.Machine

/-! # Ownership: the clear of a shift and the ends of power moves (O28) -/
namespace Sys2Proof.Machine

variable {s : State}

/-! ### Steps 4 to 7 of a shift (03 R140, R142, R144) -/

/-- A command that runs is done once its end is recorded. -/
theorem done_mem_finish {c : Cmd} {i n : Nat} (hc : c ∈ (ringOf s i).inflight) (hrun : c.phase = .running) (hn : c.serial = n)
    (st r0 r1 : Nat) : { c with phase := .done st r0 r1 } ∈ (ringOf (finish n st r0 r1 s) i).inflight := by
  rw [finish, ringOf_mapInflight]
  exact List.mem_map.mpr ⟨c, hc, by simp [hn, hrun]⟩

/-- Unmapping drops cached translations and invalidates regions, and nothing else. -/
theorem unmapDeparting_eq (c : SectorCmd) (s : State) :
    ∃ caches rdma, unmapDeparting c s = { s with mem := { s.mem with caches := caches }, rdma := rdma } := by
  have hfold (l : List Nat) (u : State) : ∃ rdma, l.foldl (fun s n => invalidateRegions n s) u = { u with rdma := rdma } := by
    induction l generalizing u with
    | nil => exact ⟨u.rdma, rfl⟩
    | cons n l ih =>
      obtain ⟨rdma, hl⟩ := ih (invalidateRegions n u)
      exact ⟨rdma, hl⟩
  obtain ⟨rdma, hl⟩ := hfold c.touched (dropCopies (leafLosing s) s)
  exact ⟨_, rdma, hl⟩

/-- Granules given one by one to a sector. -/
theorem foldl_giveOne_hbm {dst : Nat} (hdst : dst ≠ 0xFF) (l : List Nat) (s : State) :
    ∃ t, l.foldl (fun s i => giveOne 3 dst i s) s = { s with sct := { s.sct with hbm := t } }
      ∧ ∀ g, Table.find t g = if g ∈ l then some dst else Table.find s.sct.hbm g := by
  induction l generalizing s with
  | nil => exact ⟨s.sct.hbm, rfl, fun g => by simp⟩
  | cons i l ih =>
    have hgive : giveOne 3 dst i s = { s with sct := { s.sct with hbm := Table.put s.sct.hbm i dst } } := by
      simp [giveOne, hdst, ownersOf, setSct]
    obtain ⟨t, hfold, hfind⟩ := ih (giveOne 3 dst i s)
    refine ⟨t, ?_, fun g => ?_⟩
    · rw [List.foldl_cons, hfold, hgive]
    · rw [hfind, hgive]
      simp only [Table.find_put, List.mem_cons]
      by_cases hg : g ∈ l <;> by_cases hi : g = i <;> simp [hg, hi]

/-- An engine without queued work has none to go on to. -/
theorem latGo_of_queue_nil {e : Nat} (h : (latOf s e).queue = []) : latGo e s = s := by
  simp only [latGo, latNext, h]
  split <;> rfl

/-- With no engine in use, none goes on. -/
theorem latGoAll_of_lat_nil (h : s.lat = []) : latGoAll s = s := by
  have hgo (l : List Nat) : l.foldl (fun s e => latGo e s) s = s := by
    induction l with
    | nil => rfl
    | cons e l ih =>
      rw [List.foldl_cons, latGo_of_queue_nil (by rw [latOf, h]; rfl)]
      exact ih
  exact hgo _

/-- With no reset waiting, none is performed. -/
theorem pendingResets_nil (h : s.rst.sectorResets = []) : pendingResets s = s := by
  simp only [pendingResets, h, List.filter_nil, List.foldl_nil]
  rw [← h]
  rfl

/-- A shift that waits for no power move is done: the sectors it touched are ACTIVE, and its command completes with its counts. -/
theorem sectorDone_shift {x : SectorCmd} (hx : s.sct.cmd = some x) (hop : x.op = .shift) (hstep : x.step = 6) (hw : x.waits = [])
    (hr : s.rst.sectorResets = []) :
    ∃ t, sectorDone s = finish x.serial stOk (x.killed + x.finished * 2 ^ 32) (x.hbm + x.lake * 2 ^ 32)
        { s with sct := { s.sct with sectors := t, cmd := none, lastStatus := stOk, count := (s.sct.count + 1) % 2 ^ 32 } }
      ∧ ∀ n ∈ x.touched, (Table.getD t n {}).state = .active := by
  obtain ⟨t, hfold, hactive, -⟩ := foldl_setSector_state .active x.touched s
  refine ⟨t, ?_, hactive⟩
  have hend : endSectorCmd stOk (x.killed + x.finished * 2 ^ 32) (x.hbm + x.lake * 2 ^ 32) { s with sct := { s.sct with sectors := t } }
      = finish x.serial stOk (x.killed + x.finished * 2 ^ 32) (x.hbm + x.lake * 2 ^ 32)
        { s with sct := { s.sct with sectors := t, cmd := none, lastStatus := stOk, count := (s.sct.count + 1) % 2 ^ 32 } } := by
    simp only [endSectorCmd, hx, hop]
    rfl
  unfold sectorDone
  simp only [hx]
  rw [if_neg (by simp [hop, hstep, hw]), if_neg (by simp [hop]), hfold, hend]
  exact pendingResets_nil hr

/-- The one move of a run of `k` HBM granules from `v` upward. -/
abbrev hbmMove (a b v k : Nat) : Move := { kind := 3, src := a, dst := b, value := v, set := k }

theorem mem_names_hbmMove {a b v k g : Nat} : g ∈ (hbmMove a b v k).names ↔ v ≤ g ∧ g < v + k := by
  simp only [Move.names, decide_true, Bool.true_or, if_true, List.mem_map, List.mem_range]
  exact ⟨fun ⟨i, hi, hg⟩ => by omega, fun hg => ⟨g - v, by omega, by omega⟩⟩

/-- The state once a run of HBM granules has been unmapped and cleared, and its command has come to the assignment. -/
def runCleared (caches : Table (List Cached)) (rdma : Rdma) (x : SectorCmd) (v k : Nat) (s : State) : State :=
  let t := zeroFill s (v * 2 ^ 30) (k * 2 ^ 30)
  { t with mem := { t.mem with caches := caches }, rdma := rdma, sct := { s.sct with cmd := some { x with step := 6, hbm := x.hbm + k } } }

/-- Steps 4 and 5 of such a shift clear the run and count its granules. -/
theorem clearMove_hbm {x : SectorCmd} (hx : s.sct.cmd = some x) (a b v k : Nat) :
    ∃ caches rdma, changeCmd (fun c => { c with step := 6 }) (clearMove (unmapDeparting x s) (hbmMove a b v k))
      = runCleared caches rdma x v k s := by
  obtain ⟨caches, rdma, hunmap⟩ := unmapDeparting_eq x s
  refine ⟨caches, rdma, ?_⟩
  rw [hunmap]
  simp only [clearMove, changeCmd, zeroFill, setSct, hx]
  rfl

/-- Step 6 of such a shift gives the granules of the run one by one. -/
theorem assignMove_hbm (u : State) (a b v k : Nat) :
    assignMove u (hbmMove a b v k) = (hbmMove a b v k).names.foldl (fun s i => giveOne 3 b i s) u := rfl

/-- A heat pool that lost a granule is gone, and nothing else. -/
theorem trimPools_eq (s : State) : ∃ heat, trimPools s = { s with heat := heat } := ⟨_, rfl⟩

/-- The end of the clear of such a shift, once drained: the run is zeros and belongs to its new owner, and the command is done. -/
theorem shiftClearEnd_hbm {x : SectorCmd} {a b v k : Nat} (hx : s.sct.cmd = some x) (hop : x.op = .shift) (hstep : x.step < 6)
    (hw : x.waits = []) (hb : b ≠ 0xFF) (hmoves : x.moves = [hbmMove a b v k]) (hdrained : drained s x = true) (hlat : s.lat = [])
    (hr : s.rst.sectorResets = []) :
    ∃ caches rdma heat hbm sectors, shiftClearEnd s
        = finish x.serial stOk (x.killed + x.finished * 2 ^ 32) (x.hbm + k + x.lake * 2 ^ 32)
          { runCleared caches rdma x v k s with
            heat := heat
            sct := { s.sct with hbm := hbm, sectors := sectors, cmd := none, lastStatus := stOk, count := (s.sct.count + 1) % 2 ^ 32 } }
      ∧ (∀ g, Table.find hbm g = if v ≤ g ∧ g < v + k then some b else Table.find s.sct.hbm g)
      ∧ ∀ n ∈ x.touched, (Table.getD sectors n {}).state = .active := by
  obtain ⟨caches, rdma, hclear⟩ := clearMove_hbm hx a b v k
  obtain ⟨hbm, hgive, hfind⟩ := foldl_giveOne_hbm hb (hbmMove a b v k).names (runCleared caches rdma x v k s)
  obtain ⟨heat, htrim⟩ := trimPools_eq { runCleared caches rdma x v k s with sct := { (runCleared caches rdma x v k s).sct with hbm := hbm } }
  obtain ⟨sectors, hdone, hactive⟩ := sectorDone_shift (x := { x with step := 6, hbm := x.hbm + k })
    (s := { runCleared caches rdma x v k s with sct := { (runCleared caches rdma x v k s).sct with hbm := hbm }, heat := heat })
    rfl hop rfl hw hr
  simp only [mem_names_hbmMove] at hfind
  refine ⟨caches, rdma, heat, hbm, sectors, ?_, hfind, hactive⟩
  unfold shiftClearEnd
  simp only [hx]
  rw [if_neg (by simp [hop]; omega), if_neg (by simp [hdrained])]
  simp only [hop, reduceCtorEq, if_false, hmoves, List.foldl_cons, List.foldl_nil]
  rw [hclear, assignMove_hbm, hgive, htrim, latGoAll_of_lat_nil]
  · exact hdone
  · exact hlat

/-! ### What an engine that goes on to its queue leaves (09 R444, R448, R480; 16 R834)

A queued LAT_RESUME reads and writes memory, which may find faults, fire armed slots and write error records. None of that takes part in
power or ownership: one rule for each function below, in the order of the model, each proved from the rules of the functions it calls,
which its pattern hands to `grind`. -/

/-- The part of the state that a power move and a change of ownership act on, and queued work of an engine does not: the boot, reset and
power block, the sectors, and PWR.TRANSITIONS. -/
def powerView (s : State) : Rst × Sct × Nat := (s.rst, s.sct, rget s .pwrTransitions)

/-- No other register starts where PWR.TRANSITIONS does. -/
theorem offset_ne_pwrTransitions {r : Reg} : r ≠ .pwrTransitions → Reg.pwrTransitions.offset 0 0 ≠ r.offset 0 0 := by
  cases r <;> decide

/-- An event counter other than PWR.TRANSITIONS. -/
theorem powerView_bump {r : Reg} (h : r ≠ .pwrTransitions) : powerView (bump s r) = powerView s := by
  simp only [powerView, rget_bump_ne s (offset_ne_pwrTransitions h), bump_rst, bump_sct]
grind_pattern powerView_bump => powerView (bump s r)

/-- What only writes error records or fires slots keeps the view, since PWR.TRANSITIONS lies below the ERR block. -/
theorem powerView_of_recorded {t : State} (h : Recorded s t) (hrst : t.rst = s.rst) : powerView t = powerView s := by
  simp only [powerView, hrst, h.sct, h.rget_eq (r := .pwrTransitions) (i := 0) (j := 0) (by decide)]

section
variable (s)

theorem powerView_writeRecord (r : Rec) : powerView (writeRecord r s) = powerView s := by
  refine powerView_of_recorded (writeRecord_recorded r s) ?_
  have hpush (q : Nat) (ws : List (Word32 × Bool × Bool)) (t : State) : (wakePush q ws t).rst = t.rst := rfl
  simp only [writeRecord, apply_ite State.rst, bump_rst, hpush, ite_self]
grind_pattern powerView_writeRecord => powerView (writeRecord r s)

theorem powerView_fireSlot (k : Nat) : powerView (fireSlot k s) = powerView s := by
  refine powerView_of_recorded (fireSlot_recorded k s) ?_
  unfold fireSlot
  dsimp only
  split <;> rfl
grind_pattern powerView_fireSlot => powerView (fireSlot k s)

theorem powerView_poke (a : Nat) (bs : List Byte) : powerView (poke s a bs) = powerView s := rfl
grind_pattern powerView_poke => powerView (poke s a bs)

theorem powerView_unpoison (a : Nat) : powerView (unpoison s a) = powerView s := rfl
grind_pattern powerView_unpoison => powerView (unpoison s a)

theorem powerView_poisonLine (a : Nat) : powerView (poisonLine s a) = powerView s := rfl
grind_pattern powerView_poisonLine => powerView (poisonLine s a)

theorem powerView_zeroFill (base size : Nat) : powerView (zeroFill s base size) = powerView s := rfl
grind_pattern powerView_zeroFill => powerView (zeroFill s base size)

theorem powerView_spoilLine (a : Nat) : powerView (spoilLine a s) = powerView s := rfl
grind_pattern powerView_spoilLine => powerView (spoilLine a s)

theorem powerView_finish (n st r0 r1 : Nat) : powerView (finish n st r0 r1 s) = powerView s := rfl
grind_pattern powerView_finish => powerView (finish n st r0 r1 s)

theorem powerView_setLat (e : Nat) (x : LatEngine) : powerView (setLat e x s) = powerView s := rfl
grind_pattern powerView_setLat => powerView (setLat e x s)

theorem powerView_noteTransient (r : Res) : powerView (noteTransient r s).2 = powerView s := rfl
grind_pattern powerView_noteTransient => powerView (noteTransient r s).2

theorem powerView_changeTest (r : Res) (f : SelfTest → SelfTest) : powerView (changeTest r f s) = powerView s := rfl
grind_pattern powerView_changeTest => powerView (changeTest r f s)

theorem powerView_drawFree : powerView (drawFree s).2 = powerView s := rfl
grind_pattern powerView_drawFree => powerView (drawFree s).2

theorem powerView_actMemory (r : Res) (b : Bool) : powerView (actMemory r b s).2 = powerView s := by
  simp only [actMemory]
  split_ifs <;> rfl
grind_pattern powerView_actMemory => powerView (actMemory r b s).2

theorem powerView_queueTest (t : SelfTest) : powerView (queueTest t s) = powerView s := by
  unfold queueTest
  split
  · rfl
  · exact powerView_writeRecord ..
grind_pattern powerView_queueTest => powerView (queueTest t s)

theorem powerView_retireRecord (r : Res) (action ref sector addr : Nat) (injected : Bool) :
    powerView (retireRecord r action ref sector addr injected s) = powerView s := by
  unfold retireRecord
  dsimp only
  split <;> exact powerView_writeRecord ..
grind_pattern powerView_retireRecord => powerView (retireRecord r action ref sector addr injected s)

theorem powerView_detect (d : Detect) : powerView (detect actMemory d s) = powerView s := by unfold detect; grind
grind_pattern powerView_detect => powerView (detect actMemory d s)

theorem powerView_faultAt (a : Nat) (kind : FaultKind) (n : Nat) (injected forced : Bool) :
    powerView (faultAt a kind n injected forced s).2 = powerView s := by unfold faultAt; grind
grind_pattern powerView_faultAt => powerView (faultAt a kind n injected forced s).2

theorem powerView_patternKind (a n : Nat) : powerView (patternKind a n s).2 = powerView s := by unfold patternKind; grind
grind_pattern powerView_patternKind => powerView (patternKind a n s).2

/-- A fold of steps that each keep the view keeps it. -/
theorem powerView_foldl {α : Type} {f : State → α → State} (hf : ∀ s a, powerView (f s a) = powerView s) (l : List α) (s : State) :
    powerView (l.foldl f s) = powerView s := by
  induction l generalizing s with
  | nil => rfl
  | cons a l ih => exact (ih (f s a)).trans (hf s a)
grind_pattern powerView_foldl => powerView (l.foldl f s)

theorem powerView_injectedFault (a : Nat) : powerView (injectedFault a s).2 = powerView s := by unfold injectedFault; grind
grind_pattern powerView_injectedFault => powerView (injectedFault a s).2

theorem powerView_readLine (faults : List LineFault) (a : Nat) : powerView (readLine faults a s).2 = powerView s := by unfold readLine; grind
grind_pattern powerView_readLine => powerView (readLine faults a s).2

theorem powerView_readLines (faults : List LineFault) (k l : Nat) : powerView (readLines faults k l s).2 = powerView s := by
  fun_induction readLines faults k l s <;> grind
grind_pattern powerView_readLines => powerView (readLines faults k l s).2

theorem powerView_trustedRead (a n : Nat) : powerView (trustedRead a n s).2 = powerView s := by
  grind [trustedRead, faultyRead, holeRequest, eventRecord]
grind_pattern powerView_trustedRead => powerView (trustedRead a n s).2

theorem powerView_writeLine (faults : List LineFault) (a : Nat) (bs : List Byte) : powerView (writeLine faults a bs s).2 = powerView s := by
  grind [writeLine]
grind_pattern powerView_writeLine => powerView (writeLine faults a bs s).2

theorem powerView_writeLines (faults : List LineFault) (k a : Nat) (bs : List Byte) :
    powerView (writeLines faults k a bs s).2 = powerView s := by
  fun_induction writeLines faults k a bs s <;> grind
grind_pattern powerView_writeLines => powerView (writeLines faults k a bs s).2

theorem powerView_trustedWrite (a : Nat) (bs : List Byte) : powerView (trustedWrite a bs s).2 = powerView s := by
  grind [trustedWrite, faultyWrite, holeRequest, eventRecord]
grind_pattern powerView_trustedWrite => powerView (trustedWrite a bs s).2

theorem powerView_loadRegions (a : Nat) (l : List (Nat × Nat)) : powerView (loadRegions a l s) = powerView s := by
  fun_induction loadRegions a l s <;> grind
grind_pattern powerView_loadRegions => powerView (loadRegions a l s)

theorem powerView_resumeItem (e serial ring tag t0 t1 : Nat) : powerView (resumeItem e serial ring tag t0 t1 s) = powerView s := by
  grind [resumeItem, startOp]
grind_pattern powerView_resumeItem => powerView (resumeItem e serial ring tag t0 t1 s)

theorem powerView_moduliItem (e serial first logN : Nat) (entries : List (Nat × Nat)) :
    powerView (moduliItem e serial first logN entries s) = powerView s := by
  grind [moduliItem]
grind_pattern powerView_moduliItem => powerView (moduliItem e serial first logN entries s)

theorem powerView_latNext (e n : Nat) : powerView (latNext e n s) = powerView s := by
  fun_induction latNext e n s <;> grind [startOp]

/-- An engine that goes on to its queue takes part in no power move and no change of ownership. -/
theorem powerView_latGo (e : Nat) : powerView (latGo e s) = powerView s := powerView_latNext ..

end

/-! ### The end of a power move (16 R831, R834, R835, R838) -/

section
variable (kind i : Nat) (p : Power) (s : State)

@[simp] theorem setPower_transitions : (setPower kind i p s).rst.transitions = s.rst.transitions := by unfold setPower; split <;> rfl
@[simp] theorem setPower_sct : (setPower kind i p s).sct = s.sct := by unfold setPower; split <;> rfl
@[simp] theorem setPower_rings : (setPower kind i p s).rings = s.rings := by unfold setPower; split <;> rfl
@[simp] theorem setPower_regs : (setPower kind i p s).regs = s.regs := by unfold setPower; split <;> rfl
@[simp] theorem setPower_mem : (setPower kind i p s).mem = s.mem := by unfold setPower; split <;> rfl
@[simp] theorem setPower_lat : (setPower kind i p s).lat = s.lat := by unfold setPower; split <;> rfl

theorem powerOf_setPower (j : Nat) : powerOf (setPower kind i p s) kind j = if j = i then p else powerOf s kind j := by
  by_cases hk : kind = 1 <;> by_cases hj : j = i <;> simp [powerOf, setPower, hk, hj, Table.getD_put_ne]

/-- Power OFF loses memory and an engine's own state, and nothing else (R831; 09 R494). -/
theorem loseOff_eq : ∃ mem lat, loseOff kind i s = { s with mem := mem, lat := lat } := by
  unfold loseOff
  split <;> exact ⟨_, _, rfl⟩

end

/-- The state in which the end of a move leaves its resource, with the moves left. -/
def endedMove (kind i : Nat) (goal : Power) (rest : List Transition) (s : State) : State :=
  let u := setRst { s.rst with transitions := rest } s
  bump (setPower kind i goal (if goal = .off then loseOff kind i u else u)) .pwrTransitions

section
variable {kind i : Nat} {goal : Power} {rest : List Transition}

theorem endedMove_eq (kind i : Nat) (goal : Power) (rest : List Transition) (s : State) :
    ∃ mem lat, endedMove kind i goal rest s
      = bump (setPower kind i goal { s with rst := { s.rst with transitions := rest }, mem := mem, lat := lat }) .pwrTransitions := by
  obtain ⟨mem, lat, hlose⟩ := loseOff_eq kind i (setRst { s.rst with transitions := rest } s)
  simp only [endedMove]
  split
  · exact ⟨mem, lat, by rw [hlose]; rfl⟩
  · exact ⟨s.mem, s.lat, rfl⟩

theorem endedMove_transitions : (endedMove kind i goal rest s).rst.transitions = rest := by
  obtain ⟨mem, lat, h⟩ := endedMove_eq kind i goal rest s
  simp [h]

theorem endedMove_sct : (endedMove kind i goal rest s).sct = s.sct := by
  obtain ⟨mem, lat, h⟩ := endedMove_eq kind i goal rest s
  simp [h]

theorem endedMove_rings : (endedMove kind i goal rest s).rings = s.rings := by
  obtain ⟨mem, lat, h⟩ := endedMove_eq kind i goal rest s
  simp [h]

theorem powerOf_endedMove (j : Nat) : powerOf (endedMove kind i goal rest s) kind j = if j = i then goal else powerOf s kind j := by
  obtain ⟨mem, lat, h⟩ := endedMove_eq kind i goal rest s
  rw [h]
  exact powerOf_setPower ..

theorem endedMove_counts : countedOne (endedMove kind i goal rest s) s .pwrTransitions := by
  obtain ⟨mem, lat, h⟩ := endedMove_eq kind i goal rest s
  have hregs : rget (setPower kind i goal { s with rst := { s.rst with transitions := rest }, mem := mem, lat := lat }) .pwrTransitions
      = rget s .pwrTransitions := by simp only [rget, setPower_regs]
  rw [h]
  exact (bump_counts _ _ 0).trans (by rw [hregs])

/-- An eight that goes OFF has zero local memory (log entry 73), and no other byte changes. -/
theorem cellAt_endedMove_eight (y : Nat) : cellAt (endedMove 1 i goal rest s).mem.cells y
    = if goal = .off ∧ 0x080040000000 + i * 0x200000 ≤ y ∧ y < 0x080040000000 + (i + 1) * 0x200000 then 0 else cellAt s.mem.cells y := by
  by_cases hoff : goal = .off
  · have hend : 0x080040000000 + (i + 1) * 0x200000 = 0x080040000000 + i * 0x200000 + 0x200000 := by ring
    simp only [endedMove, hoff, if_true, bump_mem, setPower_mem, true_and, hend]
    exact cellAt_zeroFill ..
  · simp [endedMove, hoff, setRst]

/-- An engine without queued work has none after its move. -/
theorem queue_endedMove (h : (latOf s i).queue = []) : (latOf (endedMove 2 i goal rest s) i).queue = [] := by
  by_cases hoff : goal = .off
  · simp [endedMove, hoff, latOf, loseOff, latWipe, zeroFill]
  · simpa [endedMove, hoff, latOf, setRst] using h

end

/-! ### The command that waits for a move (16 R834) -/

/-- The move `m` of a resource, which has begun and asks for nothing after it, is the only one of its resource. -/
structure OnlyMove (s : State) (kind i : Nat) (pre post : List Transition) (m : Transition) : Prop where
  among : s.rst.transitions = pre ++ m :: post
  hkind : m.kind = kind
  hindex : m.index = i
  begun : m.begun = true
  later : m.later = []
  only : ∀ u ∈ pre ++ post, ¬(u.kind = kind ∧ u.index = i)

namespace OnlyMove
variable {kind i : Nat} {pre post : List Transition} {m : Transition}

theorem find (h : OnlyMove s kind i pre post m) :
    s.rst.transitions.find? (fun t => t.kind = kind && t.index = i && t.begun) = some m := by
  have hpre : ∀ u ∈ pre, (u.kind = kind && u.index = i && u.begun) = false := fun u hu => by
    have := h.only u (List.mem_append_left post hu)
    simp only [Bool.and_eq_false_iff, decide_eq_false_iff_not]
    tauto
  rw [h.among, List.find?_append, List.find?_eq_none.mpr (by simpa using hpre)]
  simp [h.hkind, h.hindex, h.begun]

theorem rest (h : OnlyMove s kind i pre post m) :
    s.rst.transitions.filter (fun u => !(u.kind = kind && u.index = i)) = pre ++ post := by
  have hkeep : ∀ u ∈ pre ++ post, (!(u.kind = kind && u.index = i)) = true := fun u hu => by simpa [imp_iff_not_or] using h.only u hu
  rw [h.among, List.filter_append, List.filter_cons_of_neg (by simp [h.hkind, h.hindex]), ← List.filter_append]
  exact List.filter_eq_self.mpr hkeep

end OnlyMove

/-- A class 0x01 command that no longer waits for a resource. -/
def dropWait (kind i : Nat) (s : State) : State :=
  match s.sct.cmd with
  | none => s
  | some x => setSct { s.sct with cmd := some { x with waits := x.waits.filter (· ≠ (kind, i)) } } s

section
variable {kind i : Nat} {pre post : List Transition} {m : Transition}

/-- The state after the move, an engine having gone on to its queue. -/
def movedOn (kind i : Nat) (goal : Power) (rest : List Transition) (s : State) : State :=
  if kind = 2 then latGo i (endedMove kind i goal rest s) else endedMove kind i goal rest s

theorem powerView_movedOn (kind i : Nat) (goal : Power) (rest : List Transition) (s : State) :
    powerView (movedOn kind i goal rest s) = powerView (endedMove kind i goal rest s) := by
  unfold movedOn
  split
  · exact powerView_latGo ..
  · rfl

/-- Going on to the queue leaves the power block as the move left it, so the three facts that follow are those of the move alone. -/
theorem movedOn_rst (kind i : Nat) (goal : Power) (rest : List Transition) (s : State) :
    (movedOn kind i goal rest s).rst = (endedMove kind i goal rest s).rst := congrArg Prod.fst (powerView_movedOn ..)

theorem movedOn_sct (kind i : Nat) (goal : Power) (rest : List Transition) (s : State) : (movedOn kind i goal rest s).sct = s.sct :=
  (congrArg (fun v => v.2.1) (powerView_movedOn ..)).trans endedMove_sct

theorem movedOn_counts (kind i : Nat) (goal : Power) (rest : List Transition) (s : State) :
    countedOne (movedOn kind i goal rest s) s .pwrTransitions := by
  have hcount : rget (movedOn kind i goal rest s) .pwrTransitions = rget (endedMove kind i goal rest s) .pwrTransitions :=
    congrArg (fun v => v.2.2) (powerView_movedOn ..)
  rw [countedOne, hcount]
  exact endedMove_counts

/-- Without queued work an engine goes on to nothing. -/
theorem movedOn_rings (h : (latOf s i).queue = []) (goal : Power) (rest : List Transition) :
    (movedOn kind i goal rest s).rings = s.rings := by
  unfold movedOn
  split
  next hk =>
    subst hk
    rw [latGo_of_queue_nil (queue_endedMove h), endedMove_rings]
  · exact endedMove_rings

/-- The end of such a move of an available resource. -/
theorem endMove_eq (h : OnlyMove s kind i pre post m) (havail : powerAvail s kind i = true) :
    endMove kind i s = dropWait kind i (movedOn kind i m.goal (pre ++ post) s) := by
  have hrst : (movedOn kind i m.goal (pre ++ post) s).rst.transitions = pre ++ post := by
    rw [movedOn_rst, endedMove_transitions]
  have hnone : hasMove (movedOn kind i m.goal (pre ++ post) s) kind i = false := by
    simpa [hasMove, hrst, or_imp, forall_and] using h.only
  have havail' : powerAvail (setRst { s.rst with transitions := pre ++ post } s) kind i = true := havail
  unfold endMove
  simp only [h.find, h.rest, havail', if_true, h.later, List.foldl_nil]
  change (if hasMove (movedOn kind i m.goal (pre ++ post) s) kind i = true then _ else _) = _
  rw [if_neg (by simp [hnone])]
  rfl

/-- A POWER_SET holds no sector, and ends none. -/
theorem sectorDone_power (h : ∀ x, s.sct.cmd = some x → x.op = .power) : sectorDone s = s := by
  unfold sectorDone
  split
  · rfl
  next x hx => rw [if_pos (by simp [h x hx])]

/-- A POWER_SET is done once it waits for nothing (R834). -/
theorem sectorDone_powerDone {x : SectorCmd} (hx : s.sct.cmd = some x) (hop : x.op = .power) :
    sectorDone (powerDone s)
      = if x.waits = [] then finish x.serial stOk x.changed 0 { s with sct := { s.sct with cmd := none } } else s := by
  by_cases hw : x.waits = []
  · have hdone : powerDone s = finish x.serial stOk x.changed 0 { s with sct := { s.sct with cmd := none } } := by
      simp only [powerDone, endSectorCmd, hx, hop, hw]
      rfl
    rw [if_pos hw, hdone]
    exact sectorDone_power fun _ h => nomatch h
  · have hstay : powerDone s = s := by simp [powerDone, hx, hw]
    rw [if_neg hw, hstay]
    exact sectorDone_power fun y hy => by rw [Option.some.inj (hy.symm.trans hx), hop]

/-- The end of such a move while a POWER_SET is in progress, which is done if it waits for nothing more. -/
theorem powerEnd_power (h : OnlyMove s kind i pre post m) (havail : powerAvail s kind i = true) {x : SectorCmd}
    (hx : s.sct.cmd = some x) (hop : x.op = .power) :
    powerEnd kind i s = if x.waits.filter (· ≠ (kind, i)) = [] then
        finish x.serial stOk x.changed 0 { movedOn kind i m.goal (pre ++ post) s with sct := { s.sct with cmd := none } }
      else { movedOn kind i m.goal (pre ++ post) s with
        sct := { s.sct with cmd := some { x with waits := x.waits.filter (· ≠ (kind, i)) } } } := by
  rw [powerEnd, endMove_eq h havail]
  generalize hw : movedOn kind i m.goal (pre ++ post) s = w
  have hsct : w.sct = s.sct := by rw [← hw]; exact movedOn_sct ..
  have hdrop : dropWait kind i w = { w with sct := { s.sct with cmd := some { x with waits := x.waits.filter (· ≠ (kind, i)) } } } := by
    simp only [dropWait, hsct, hx]; rfl
  rw [hdrop]
  exact sectorDone_powerDone (x := { x with waits := x.waits.filter (· ≠ (kind, i)) }) rfl hop

/-- The end of such a move while no class 0x01 command is in progress. -/
theorem powerEnd_none (h : OnlyMove s kind i pre post m) (havail : powerAvail s kind i = true) (hx : s.sct.cmd = none) :
    powerEnd kind i s = movedOn kind i m.goal (pre ++ post) s := by
  have hcmd : (movedOn kind i m.goal (pre ++ post) s).sct.cmd = none := by rw [movedOn_sct, hx]
  rw [powerEnd, endMove_eq h havail]
  simp only [dropWait, powerDone, sectorDone, hcmd]

/-- Where no other sector command is in progress, the end of such a move changes beyond it only the command that waits, and the rings. -/
theorem powerEnd_eq (h : OnlyMove s kind i pre post m) (havail : powerAvail s kind i = true)
    (hpower : ∀ x, s.sct.cmd = some x → x.op = .power) :
    ∃ sct rings, powerEnd kind i s = { movedOn kind i m.goal (pre ++ post) s with sct := sct, rings := rings } := by
  cases hx : s.sct.cmd with
  | none => exact ⟨_, _, powerEnd_none h havail hx⟩
  | some x =>
    rw [powerEnd_power h havail hx (hpower x hx)]
    split <;> exact ⟨_, _, rfl⟩

/-- The row of a move, up or down, ends it. -/
theorem exec_powerRow (h : OnlyMove s kind i pre post m) {row : Instr}
    (hrow : row = if m.up s then .powerUpComplete kind i else .powerDrainEnd kind i) : exec row s = .next (powerEnd kind i s) := by
  have hup : moveUp s kind i = some (m.up s) := by rw [moveUp, h.find, Option.map_some]
  subst hrow
  split
  next hm => exact congrArg Host.Outcome.next (if_pos (by rw [hup, hm]))
  next hm => exact congrArg Host.Outcome.next (if_pos (by rw [hup, Bool.eq_false_of_not_eq_true hm]))

end

/-- Settles O28: the clear gives a run of zeros to its new owner, and the end of a move leaves its resource in the state asked for. -/
theorem sectorOwnership : Obligations.SectorOwnership := by
  constructor
  · intro s x a b v k hx hop hstep hw _ hb _ htouched hmoves _ _ hdrained hlat hr
    obtain ⟨caches, rdma, heat, hbm, sectors, hend, hfind, hactive⟩ :=
      shiftClearEnd_hbm hx hop hstep hw (by omega) hmoves hdrained hlat hr
    rw [htouched] at hactive
    refine ⟨_, congrArg Host.Outcome.next hend, rfl, hactive a (by simp), hactive b (by simp), hfind, fun y => ?_, rfl, rfl, rfl, rfl,
      fun i c hc hrun hn => done_mem_finish hc hrun hn ..⟩
    rw [add_mul]
    exact cellAt_zeroFill s (v * 2 ^ 30) (k * 2 ^ 30) y
  · intro s kind i pre post m row _ hamong hk hi hbegun hlater honly havail hrow hpower
    have h : OnlyMove s kind i pre post m := ⟨hamong, hk, hi, hbegun, hlater, honly⟩
    obtain ⟨sct, rings, hend⟩ := powerEnd_eq h havail hpower
    have hrst : (powerEnd kind i s).rst = (endedMove kind i m.goal (pre ++ post) s).rst := by rw [hend]; exact movedOn_rst ..
    have hpow (j : Nat) : powerOf (powerEnd kind i s) kind j = if j = i then m.goal else powerOf s kind j := by
      rw [← powerOf_endedMove, powerOf, hrst]
      rfl
    refine ⟨_, exec_powerRow h hrow, by rw [hpow, if_pos rfl], by rw [hrst, endedMove_transitions], ?_,
      fun j hj => by rw [hpow, if_neg hj], ?_, ?_⟩
    · rw [hend]
      exact movedOn_counts ..
    · rintro rfl y
      rw [hend]
      exact cellAt_endedMove_eight y
    · intro x hx hwaits
      have hfin := powerEnd_power h havail hx (hpower x hx)
      rw [if_pos (by simp [hwaits])] at hfin
      rw [hfin]
      refine ⟨rfl, fun j c hc hrun hn hq => done_mem_finish ?_ hrun hn ..⟩
      rw [ringOf] at hc ⊢
      rwa [movedOn_rings hq]

end Sys2Proof.Machine

/-! # Command packets: rings, doorbells, fetch and completions (O12, O13, O14) -/
namespace Sys2Proof.Machine
variable {s : State}

/-! ### Administrative commands (04 R177-R184, R203, R204) -/

/-- A ring with nothing in flight stays as it is when a command ends. -/
theorem ringOf_finish_idle {i : Nat} (h : (ringOf s i).inflight = []) (n st r0 r1 : Nat) :
    ringOf (finish n st r0 r1 s) i = ringOf s i := by
  rw [finish, ringOf_mapInflight, h, List.map_nil, ← h]

/-- RING_CREATE of a DISABLED ring in host memory of an unsealed package, of a class below URGENT. -/
theorem ringCreateBody_host {c : Cmd} {i : Nat} (hi : c.ring / 64 * 64 + c.param 40 1 = i) (hsealed : s.sealing.sealed = false)
    (hres : c.reserved [(45, 46), (48, 64)] = true) (hloc : c.param 44 1 = 0) (hring : 1 ≤ c.param 40 1 ∧ c.param 40 1 ≤ 63)
    (hcls : 1 ≤ c.param 41 1 ∧ c.param 41 1 ≤ 3) (hsl : 6 ≤ c.param 42 1 ∧ c.param 42 1 ≤ 16)
    (hcl : 6 ≤ c.param 43 1 ∧ c.param 43 1 ≤ 16) (hsq : c.param 24 8 % 4096 = 0) (hcq : c.param 32 8 % 4096 = 0)
    (hvec : c.param 46 2 < 256) (hdis : (ringOf s i).state = .disabled) :
    ringCreateBody c s = .ok (.done stOk i (i * 0x1000) (setRing s i
      { state := .active, cls := c.param 41 1, hub := false, sqBase := c.param 24 8, cqBase := c.param 32 8, sqLog2 := c.param 42 1,
        cqLog2 := c.param 43 1, vector := c.param 46 2 })) := by
  subst hi
  unfold ringCreateBody
  dsimp only
  rw [need_bind_of hres, need_bind_of (by simp [hring, hcls, hsl, hcl, hloc]), need_bind_of (by simp [hsq, hcq, hvec]),
    need_bind_of (by simp [hloc]), need_bind_of (by simp [hdis]), need_bind_of (by simp; omega), need_bind_of (by simp [hloc]),
    need_bind_of (by simp [hostAllowed, hsealed]), hloc]
  rfl

/-- A reset or destruction of a ring with nothing in flight is over at once, and leaves everything but the rings and, for the admin
ring's own reset, its register. -/
theorem startReset_idle {i : Nat} (h : (ringOf s i).inflight = []) (destroy : Bool) (serial : Nat) :
    ringOf (startReset i destroy serial s) i = (if destroy then {} else freshRing (ringOf s i))
      ∧ ∃ rings regs, startReset i destroy serial s = { s with rings := rings, regs := regs } := by
  unfold startReset finishReset
  extract_lets r s1 s2 r2
  have hr2 : r2 = { r with state := .resetting, resetting := some (destroy, serial, r.sqHead), cover := [], sqTail := r.sqHead } :=
    ringOf_setRing_same s i _
  have hnil : r2.inflight = [] := by rw [hr2]; exact h
  have hnew : (if destroy then {} else freshRing r2 : Ring) = if destroy then {} else freshRing r := by rw [hr2]; rfl
  have hidle : (if destroy then {} else freshRing r : Ring).inflight = [] := by split <;> rfl
  rw [show r2.resetting = some (destroy, serial, r.sqHead) by rw [hr2]]
  dsimp only
  rw [if_neg (not_not_intro hnil), hnew]
  split
  · exact ⟨ringOf_setRing_same .., _, _, rfl⟩
  · rw [ringOf_finish_idle (by rw [ringOf_setRing_same]; exact hidle), ringOf_setRing_same]
    exact ⟨rfl, _, _, rfl⟩

/-- RING_DESTROY or RING_RESET of a ring with nothing in flight. -/
theorem ringStopBody_idle {c : Cmd} {i : Nat} (hi : c.ring / 64 * 64 + c.param 32 1 = i) (destroy : Bool)
    (hres : c.reserved [(24, 32), (33, 64)] = true) (hring : 1 ≤ c.param 32 1 ∧ c.param 32 1 ≤ 63)
    (hstate : (ringOf s i).state = .active ∨ (ringOf s i).state = .halted) (hidle : (ringOf s i).inflight = []) :
    ringStopBody destroy c s = .ok (.done stOk (ringOf s i).sqHead 0 (startReset i destroy c.serial s)) := by
  subst hi
  unfold ringStopBody
  dsimp only
  rw [need_bind_of (by simp [hres, hring]), need_bind_of (by rcases hstate with h | h <;> simp [h]), if_pos hidle]

/-- Settles O12: the body of each command is done at once. -/
theorem adminCommands : Obligations.AdminCommands := by
  intro s ring c
  refine ⟨fun hb => congrArg _ (beginCommand_okWith hb rfl), fun hb => congrArg _ (beginCommand_okWith hb rfl), ?_, ?_⟩
  · rintro hb hsealed hres sq cq k cls sl cl vec rfl rfl rfl rfl rfl rfl hloc rfl hk hk' hcls hcls' hsl hsl' hcl hcl' hsq hcq hvec hdis
    exact congrArg _ (beginCommand_okWith hb (ringCreateBody_host rfl hsealed hres hloc ⟨hk, hk'⟩ ⟨hcls, hcls'⟩ ⟨hsl, hsl'⟩ ⟨hcl, hcl'⟩
      hsq hcq hvec hdis))
  · rintro destroy k hb rfl hres hk hk' hstate hidle
    obtain ⟨hring, rings, regs, hframe⟩ := startReset_idle hidle destroy c.serial
    have hbody := ringStopBody_idle rfl destroy hres ⟨hk, hk'⟩ hstate hidle
    refine ⟨startReset (c.ring / 64 * 64 + c.param 32 1) destroy c.serial s, ?_, hring, by rw [hframe], by rw [hframe], by rw [hframe]⟩
    cases destroy <;> exact congrArg Host.Outcome.next (beginCommand_okWith hb hbody)

/-! ### Doorbells (04 R161, R165-R173) -/

theorem doorbellReaches_page {fn : Fn} {i : Nat} (h : fn = .pf ∨ fn = .vf (i / 64)) : doorbellReaches i (.page fn) = true := by
  rcases h with rfl | rfl <;> simp [doorbellReaches]

/-- A ring after an SQ_TAIL below its size, written by a function: the newly covered units are the function's (R167, R173). -/
def rungRing (v : Nat) (fn : Fn) (r : Ring) : Ring :=
  let n := (v + r.sqSize - r.sqTail) % r.sqSize
  { r with sqTail := v, cover := if n = 0 then r.cover else r.cover ++ [(n, fn)] }

/-- Another order of urgent rings, and another serial number for the next command. -/
def requeue (next : Nat) (urgent : List Nat) (s : State) : State :=
  { s with rings := { s.rings with nextSerial := next, urgent := urgent } }

/-- Neither is part of a ring. -/
@[simp] theorem ringOf_requeue (next : Nat) (urgent : List Nat) (s : State) (j : Nat) : ringOf (requeue next urgent s) j = ringOf s j := rfl

/-- SQ_TAIL is a doorbell after which the ring can join the urgent order (R187). -/
theorem writeSqTail_eq (src : Doorbell) (i v : Nat) (s : State) :
    ∃ next urgent, writeSqTail src i v s = requeue next urgent
      (doorbell src i v (ringOf s i).sqSize (fun r => rungRing v (doorbellFn i r.hub src) r) s) := by
  unfold writeSqTail
  dsimp only
  split <;> exact ⟨_, _, rfl⟩

section
variable {src : Doorbell} {i v : Nat} (ha : Awake s) (hi : i < 512) (hreach : doorbellReaches i src = true)
  (hactive : (ringOf s i).state = .active) (hsector : (sectorOf s (i / 64)).state ≠ .undefined)
include ha hi hreach hactive hsector

/-- A doorbell write that reaches an ACTIVE ring is taken below the limit, and else halts the ring (R170). -/
theorem doorbell_reaches (limit : Nat) (act : Ring → Ring) :
    doorbell src i v limit act s
      = setRing s i (if limit ≤ v then { ringOf s i with state := .halted, haltCause := 2 } else act (ringOf s i)) := by
  obtain ⟨-, -, hboot, hhalt, -⟩ := ha
  have hopen : ((ringOf s i).state = .disabled || (sectorOf s (i / 64)).state = .undefined) = false := by simp [hactive, hsector]
  unfold doorbell
  dsimp only
  rw [if_neg (by omega), if_neg (by simp [hhalt]), if_neg (by simp [hboot]), if_neg (by simp [hreach]), if_neg (by simp [hopen])]
  split <;> rfl

theorem cqHead_reaches (hv : v < 65536) :
    exec (.cqHead src i v) s = .next (setRing s i (if (ringOf s i).cqSize ≤ v then { ringOf s i with state := .halted, haltCause := 2 }
      else { ringOf s i with cqHead := v })) := by
  change Host.Outcome.next (writeCqHead src i (v % 65536) s) = _
  rw [Nat.mod_eq_of_lt hv, writeCqHead, doorbell_reaches ha hi hreach hactive hsector]

/-- So does SQ_TAIL, and beyond that the ring can only join the urgent order. -/
theorem sqTail_reaches (hv : v < 65536) :
    ∃ next urgent, exec (.sqTail src i v) s = .next (requeue next urgent
      (setRing s i (if (ringOf s i).sqSize ≤ v then { ringOf s i with state := .halted, haltCause := 2 }
        else rungRing v (doorbellFn i (ringOf s i).hub src) (ringOf s i)))) := by
  obtain ⟨next, urgent, hwrite⟩ := writeSqTail_eq src i v s
  refine ⟨next, urgent, ?_⟩
  change Host.Outcome.next (writeSqTail src i (v % 65536) s) = _
  rw [Nat.mod_eq_of_lt hv, hwrite, doorbell_reaches ha hi hreach hactive hsector]

end

/-- Settles O13: a doorbell that reaches the ring is taken or halts it, and both registers leave the rest of the package. -/
theorem doorbells : Obligations.Doorbells := by
  intro s fn i v ha hi hfn hv hactive hsector
  have hpage := doorbellReaches_page hfn
  refine ⟨fun hlt => ?_, fun hlt => ?_, fun src hreach => ⟨fun hle => ?_, fun hle => ?_⟩⟩
  · obtain ⟨next, urgent, hexec⟩ := sqTail_reaches ha hi hpage hactive hsector hv
    rw [if_neg (Nat.not_le.mpr hlt)] at hexec
    have hring : ringOf (setRing s i (rungRing v fn (ringOf s i))) i = rungRing v fn (ringOf s i) := ringOf_setRing_same ..
    exact ⟨_, hexec, congrArg Ring.sqTail hring, congrArg Ring.cover hring, fun j hj => ringOf_setRing_ne _ _ hj, rfl, rfl, rfl⟩
  · rw [cqHead_reaches ha hi hpage hactive hsector hv, if_neg (Nat.not_le.mpr hlt)]
  · obtain ⟨next, urgent, hexec⟩ := sqTail_reaches ha hi hreach hactive hsector hv
    rw [if_pos hle] at hexec
    exact ⟨_, hexec, ringOf_setRing_same .., fun j hj => ringOf_setRing_ne _ _ hj, rfl, rfl, rfl⟩
  · rw [cqHead_reaches ha hi hreach hactive hsector hv, if_pos hle]

/-! ### Fetch (04 R155, R156, R173, R187-R191, R217) -/

/-- The header checks decide how a command enters its ring's order; they change neither its number nor its bytes. -/
theorem enterOrder_eq (i : Nat) (c : Cmd) (hphase : c.phase = .waiting) (s : State) :
    ∃ due, enterOrder i c s = { c with due := due, phase := match headerCheck i (ringOf s i).cls c s with
      | none => .waiting
      | some (st, off) => .done st off 0 } := by
  unfold enterOrder
  cases headerCheck i (ringOf s i).cls c s with
  | none => exact ⟨_, by rw [← hphase]⟩
  | some p => exact ⟨c.due, rfl⟩

/-- The next command of a ring, and the ring after it was taken (R155, R173, R191). -/
def nextCommand (i : Nat) (bs : List Byte) (s : State) : Cmd :=
  { serial := s.rings.nextSerial, ring := i, bytes := padTo (64 * fieldLE bs 3 1) bs, fn := coverFn (ringOf s i).cover }
def fetchedRing (n : Nat) (c : Cmd) (r : Ring) : Ring :=
  { r with sqHead := (r.sqHead + n) % r.sqSize, cover := takeCover r.cover n, inflight := r.inflight ++ [c] }

/-- A command of 1 to 8 units, all posted, enters the order and its units leave the ring. -/
theorem takeCommand_posted {i : Nat} {bs : List Byte} (h1 : 1 ≤ fieldLE bs 3 1) (h8 : fieldLE bs 3 1 ≤ 8)
    (hposted : fieldLE bs 3 1 ≤ (ringOf s i).posted) :
    ∃ next urgent, takeCommand i bs s
      = requeue next urgent (setRing s i (fetchedRing (fieldLE bs 3 1) (enterOrder i (nextCommand i bs s) s) (ringOf s i))) := by
  have hgood : (decide (fieldLE bs 3 1 = 0) || decide (8 < fieldLE bs 3 1)) = false := by simp; omega
  unfold takeCommand
  simp only [hgood, Bool.not_false, Bool.true_and, decide_eq_true_eq, Bool.false_eq_true, if_false]
  rw [if_neg (Nat.not_lt.mpr hposted)]
  exact ⟨_, _, rfl⟩

/-- The ring served next, in host memory of an unsealed package, takes the command that the host answers. -/
theorem commandFetch_plain {i : Nat} {rs : Rings} {raw : List Byte} (hpick : pickRing s = some (i, rs))
    (hhub : (ringOf { s with rings := rs } i).hub = false) (hsealed : s.sealing.sealed = false) :
    commandFetch (.data raw) s = takeCommand i raw { s with rings := rs } := by
  simp [commandFetch, hpick, hhub, hsealed]

/-! ### Completions (04 R158, R159, R161, R194, R201) -/

/-- A ring that no reset waits for stays as it is. -/
theorem finishReset_none {i : Nat} (h : (ringOf s i).resetting = none) : finishReset i s = s := by
  simp [finishReset, h]

/-- A completion entry of a ring in host memory of an unsealed package whose link is up goes out with the sector's requester. -/
theorem putEntry_plain {i : Nat} {r : Ring} (hhub : r.hub = false) (hlink : s.pci.linkUp = true) (hsealed : s.sealing.sealed = false)
    (entry : List Byte) :
    putEntry i r entry s = some (emit (.hostWrite (.vf (i / 64)) (r.cqBase + 32 * r.cqTail) entry) s) := by
  simp [putEntry, hhub, hlink, hsealed]

/-- The ring after the completion at its head was posted (R159, R161). -/
def postedRing (r : Ring) : Ring :=
  { r with inflight := r.inflight.tail, cqTail := if r.cqTail + 1 = r.cqSize then 0 else r.cqTail + 1,
           phase := if r.cqTail + 1 = r.cqSize then !r.phase else r.phase }

/-- The completion leaves a ring that is not URGENT, without a message; beyond the ring, only counters change. -/
theorem posted_plain {i : Nat} {c : Cmd} (hcls : (ringOf s i).cls ≠ 0) (hnotify : c.notify = false)
    (hreset : (ringOf s i).resetting = none) (status latency : Nat) :
    ∃ regs, posted i c status latency s = { setRing s i (postedRing (ringOf s i)) with regs := regs } := by
  unfold posted
  simp only [hcls, hnotify, decide_false, Bool.false_and, Bool.false_eq_true, if_false]
  have hkeep (t : State) (ht : t.rings = (setRing s i (postedRing (ringOf s i))).rings) : finishReset i t = t :=
    finishReset_none (by rw [ringOf, ht, ← ringOf, ringOf_setRing_same]; exact hreset)
  split <;> exact ⟨_, hkeep _ rfl⟩

/-- The completion of a done head command is posted when the outside takes its entry. -/
theorem completionPost_posts {i st r0 r1 lat : Nat} {c : Cmd} {rest : List Cmd} {t : State} (hhead : (ringOf s i).inflight = c :: rest)
    (hdone : c.phase = .done st r0 r1) (hcause : (ringOf s i).haltCause ≠ 5) (hfree : (ringOf s i).cqFree = true)
    (hput : putEntry i (ringOf s i) (completionBytes c.tag st r0 r1 s.cad.stroke (ringOf s i).phase c.mark) s = some t) :
    completionPost i false lat s = posted i c st lat t := by
  simp [completionPost, hhead, hdone, hcause, hfree, hput]

/-- A read of host memory that timed out counts, writes a record and fires an injection point, and leaves memory and rings. -/
theorem hostReadFail_timeout (s : State) : (hostReadFail .timeout s).mem = s.mem ∧ (hostReadFail .timeout s).rings = s.rings := by
  have h : Recorded (bump s .pciCplTimeouts) (hostReadFail .timeout s) := (firePoint_recorded ..).trans (writeRecord_recorded ..)
  exact ⟨h.mem, h.rings⟩

/-- Settles O14: a fetched command enters the order as the header checks say, a posted completion is one host write and moves the
completion tail, and a fetch that timed out halts its ring. -/
theorem fetchAndPost : Obligations.FetchAndPost := by
  refine ⟨?_, ?_, ?_⟩
  · intro s i rs raw hpick hhub hsealed r n c h1 h8 hposted
    obtain ⟨next, urgent, htake⟩ := takeCommand_posted (s := { s with rings := rs }) h1 h8 hposted
    obtain ⟨due, henter⟩ := enterOrder_eq i c rfl { s with rings := rs }
    refine ⟨_, enterOrder i c { s with rings := rs }, congrArg Host.Outcome.next ((commandFetch_plain hpick hhub hsealed).trans htake),
      ringOf_setRing_same .., ?_⟩
    rw [henter]
    exact ⟨rfl, rfl, rfl, rfl, rfl, rfl, rfl⟩
  · intro s i lat c rest st r0 r1 hhead hdone hcause hfree hhub hcls hreset hlink hsealed hnotify
    have hput := completionPost_posts (lat := lat) hhead hdone hcause hfree (putEntry_plain hhub hlink hsealed _)
    obtain ⟨regs, hposted⟩ := posted_plain (s := emit _ s) hcls hnotify hreset st lat
    have hring : ringOf (setRing s i (postedRing (ringOf s i))) i = postedRing (ringOf s i) := ringOf_setRing_same ..
    have htail : (postedRing (ringOf s i)).inflight = rest := congrArg List.tail hhead
    exact ⟨_, congrArg Host.Outcome.next (hput.trans hposted), rfl, (congrArg Ring.inflight hring).trans htail,
      congrArg Ring.cqTail hring, congrArg Ring.phase hring, fun j hj => ringOf_setRing_ne _ _ hj, rfl⟩
  · intro s i hactive hhub
    obtain ⟨hmem, hrings⟩ := hostReadFail_timeout s
    have hkeep (j : Nat) : ringOf (hostReadFail .timeout s) j = ringOf s j := by rw [ringOf, hrings, ← ringOf]
    refine ⟨haltRing i 3 (hostReadFail .timeout s), ?_, ?_, ?_, hmem, fun j hj => (ringOf_setRing_ne _ _ hj).trans (hkeep j)⟩
    · exact if_pos (by simp [hactive, hhub])
    · rw [haltRing, ringOf_setRing_same]
    · rw [haltRing, ringOf_setRing_same]

end Sys2Proof.Machine

/-! # Firmware images and the boot (O20) -/
namespace Sys2Proof.Machine
variable {s : State}

/-! ### FW_ACTIVATE (04 R205; 16 R825) -/

theorem writeRecord_rst (r : Rec) (s : State) : (writeRecord r s).rst = s.rst := congrArg Prod.fst (powerView_writeRecord s r)

/-- What becomes of an image that was read: one that passes every check goes to the inactive slot, which becomes pending; one that fails
ends the command with ATTEST_FAIL and an error record. -/
def activation (bs : List Byte) (s : State) : Begun :=
  if imageCheck s.rst.fuses bs = 0 then
    .done stOk (fieldLE bs 8 8) 0 { s with rst := { s.rst with flash :=
      if s.rst.flash.activeB then { s.rst.flash with slotA := bs, pending := true }
      else { s.rst.flash with slotB := bs, pending := true } } }
  else .done stAttestFail 0 0 (writeRecord { source := 0, severity := 2, status := stAttestFail, d0 := imageCheck s.rst.fuses bs } s)

/-- The image of an unsealed sector is read as the host answers it. -/
theorem fwActivateBody_reads {c : Cmd} (hsrc : c.param 24 8 % 4096 = 0) (hsize : c.param 32 4 % 4096 = 0) (hlo : 4096 ≤ c.param 32 4)
    (hhi : c.param 32 4 ≤ 16 * 2 ^ 20) (hres : c.reserved [(36, 64)] = true) (hsealed : s.sealing.sealed = false) (raw : List Byte) :
    fwActivateBody (.data raw) c s = .ok (activation (padTo (c.param 32 4) raw) s) := by
  have hread : hostRead (c.ring / 64) (c.param 24 8) (c.param 32 4) (.data raw) s = (.ok (padTo (c.param 32 4) raw), s) := by
    simp [hostRead, hsealed]
  unfold fwActivateBody
  dsimp only
  rw [need_bind_of (by simp [hsrc, hsize, hlo, hres]; omega), need_bind_of (by simp [hostAllowed, hsealed]), hread]
  dsimp only
  unfold activation
  split
  next h => rw [if_pos h]; rfl
  next h => rw [if_neg h]

/-! ### COLD_RESET (16 R808, R809, R821) -/

/-- The package as a cold reset leaves it before the boot starts: the sources that the row brings replace those it had. -/
def sourced (env : BootEnv) (s : State) : State :=
  let p := powerCycled s
  let list := env.list.getD s.err.list
  { p with
    rst := { straps := env.straps, fuses := env.fuses.getD s.rst.fuses, flash := env.flash.getD s.rst.flash }
    err := { p.err with list := list, listFull := decide (1024 ≤ list.length) } }

/-- Unless a trip holds the package under power, a cold reset starts the boot from there. -/
theorem coldReset_eq (env : BootEnv) (h : (s.rst.tripped && s.rst.powered) = false) :
    coldReset env s = startBoot (some env) (sourced env s) := by
  rw [coldReset, if_neg (by simp [h])]
  rfl

/-- With readable flash, no pending slot and straps for a normal boot, the active image is chosen (R821). -/
theorem selectImage_active (hsel : s.rst.straps.bootSel = 0) (hread : s.rst.flash.readable = true) (hpend : s.rst.flash.pending = false) :
    selectImage s = bootSlot s.rst.flash.activeB s := by
  simp [selectImage, hsel, hread, hpend]

/-- Fuses without a bad check are sensed without a record (01 R43-R45). -/
theorem senseFuses_good (h : s.rst.fuses.bad = 0) :
    ∃ top, senseFuses s = { s with top := top } ∧ top.sensed = true ∧ top.serial = s.rst.fuses.serial := by
  unfold senseFuses
  dsimp only
  rw [h]
  exact ⟨_, rfl, rfl, rfl⟩

theorem sealBoot_open (h : s.rst.straps.sealReq = false) : sealBoot true s = s := by
  simp [sealBoot, h]

/-- Step 1 of a cold boot: the UDS is locked, and every PLL has locked. -/
def bootOpened (s : State) : State := { s with sealing := { s.sealing with udsLocked := true }, rst := { s.rst with pll := 0x7FFFF } }

/-- A boot that is asked for no sealed mode and holds no memory from it comes to the choice of its active image. -/
theorem startBoot_plain (env : BootEnv) (hbad : s.rst.fuses.bad = 0) (hseal : s.rst.straps.sealReq = false)
    (hretain : s.sealing.retain = false) (hsel : s.rst.straps.bootSel = 0) (hread : s.rst.flash.readable = true)
    (hpend : s.rst.flash.pending = false) :
    ∃ top, startBoot (some env) s = bootSlot s.rst.flash.activeB { bootOpened s with top := top }
      ∧ top.sensed = true ∧ top.serial = s.rst.fuses.serial := by
  obtain ⟨top, hsense, hsensed, hserial⟩ := senseFuses_good (s := bootOpened s) hbad
  refine ⟨top, ?_, hsensed, hserial⟩
  have hstart : startBoot (some env) s = (fun t : State =>
      selectImage (if t.sealing.retain && !t.sealing.sealed then beginScrub env.hbm (bringUpBoth env t) else t))
      (sealBoot true (senseFuses (bootOpened s))) := rfl
  rw [hstart, hsense, sealBoot_open (by exact hseal)]
  dsimp only
  rw [if_neg (by simp [bootOpened, hretain])]
  exact selectImage_active hsel hread hpend

/-- A slot whose image passes its checks runs. -/
theorem bootSlot_runs {b : Bool} (h : imageCheck s.rst.fuses (s.rst.flash.slot b) = 0) :
    bootSlot b s = { s with rst := { (runImage (s.rst.flash.slot b) s).rst with runningB := b } } := by
  rw [bootSlot, h]
  rfl

/-- One that fails halts the boot with the failure's code. -/
theorem bootSlot_halts {b : Bool} (h : imageCheck s.rst.fuses (s.rst.flash.slot b) ≠ 0) :
    bootSlot b s = haltBoot (imageCheck s.rst.fuses (s.rst.flash.slot b)) s := by
  unfold bootSlot
  split
  next h0 => exact absurd h0 h
  · rfl

/-! ### BOOT_DONE (16 R826; 14 R712-R716; 17 R854, R874) -/

/-- A request of one of the internal instances changes the randomness block and its registers alone (08 R421). -/
theorem internalRequest_eq (i n : Nat) (s : State) : ∃ rng regs, (internalRequest i n s).2 = { s with rng := rng, regs := regs } := by
  unfold internalRequest takeSeed
  dsimp only
  split
  · exact ⟨_, _, rfl⟩
  · split
    · split
      · split <;> exact ⟨_, _, rfl⟩
      next h => split at h <;> cases h; exact ⟨_, _, rfl⟩
    · exact ⟨_, _, rfl⟩

/-- So does a draw. -/
theorem internalDraw_eq (i fuel n : Nat) (s : State) : ∃ rng regs, (internalDraw i fuel n s).2 = { s with rng := rng, regs := regs } := by
  induction fuel generalizing n s with
  | zero => exact ⟨_, _, rfl⟩
  | succ fuel ih =>
    obtain ⟨rng, regs, hreq⟩ := internalRequest_eq i (min n 65536) s
    unfold internalDraw
    split
    · exact ⟨_, _, rfl⟩
    · split
      next t h => rw [h] at hreq; exact ⟨_, _, hreq⟩
      next bs t h =>
        rw [h] at hreq
        obtain ⟨rng', regs', hrest⟩ := ih (n - min n 65536) t
        split
        all_goals
          next h' =>
            rw [h', show t = _ from hreq] at hrest
            exact ⟨_, _, hrest⟩

/-- `t` agrees with `s` on the blocks that the end of a boot leaves, and holds no copy of a record anew. -/
structure BootKept (s t : State) : Prop where
  rst : t.rst = s.rst
  sealing : t.sealing = s.sealing
  top : t.top = s.top
  mem : t.mem = s.mem
  sct : t.sct = s.sct
  held : t.err.heldCopies = s.err.heldCopies

theorem BootKept.refl (s : State) : BootKept s s := ⟨rfl, rfl, rfl, rfl, rfl, rfl⟩

theorem BootKept.trans {s t u : State} (h : BootKept s t) (h' : BootKept t u) : BootKept s u :=
  ⟨h'.rst.trans h.rst, h'.sealing.trans h.sealing, h'.top.trans h.top, h'.mem.trans h.mem, h'.sct.trans h.sct, h'.held.trans h.held⟩

theorem BootKept.ite {s t u : State} {p : Prop} [Decidable p] (ht : BootKept s t) (hu : BootKept s u) : BootKept s (if p then t else u) := by
  split <;> assumption

theorem wakePush_bootKept (q : Nat) (ws : List (Word32 × Bool × Bool)) (s : State) : BootKept s (wakePush q ws s) :=
  ⟨rfl, rfl, rfl, rfl, rfl, rfl⟩

/-- After the end of boot a record is copied to its queue at once. -/
theorem writeRecord_bootKept (hdone : s.rst.bootDone = true) (r : Rec) : BootKept s (writeRecord r s) := by
  unfold writeRecord
  rw [if_neg (by simp [hdone])]
  extract_lets seq shown pub full old err s1 s2 pins s3
  have h1 : BootKept s s1 := ⟨rfl, rfl, rfl, rfl, rfl, if_pos hdone⟩
  have h2 : BootKept s s2 := .ite (h1.trans (wakePush_bootKept ..)) h1
  have h3 : BootKept s s3 := .ite (h2.trans ⟨rfl, rfl, rfl, rfl, rfl, rfl⟩) h2
  have hbump (r : Reg) : BootKept s (bump s3 r) := h3.trans ⟨rfl, rfl, rfl, rfl, rfl, rfl⟩
  exact .ite (hbump _) (.ite (hbump _) (.ite (hbump _) h3))

theorem queueTest_bootKept (hdone : s.rst.bootDone = true) (t : SelfTest) : BootKept s (queueTest t s) :=
  .ite ⟨rfl, rfl, rfl, rfl, rfl, rfl⟩ (writeRecord_bootKept hdone _)

/-- A fold of steps of a booted package that each keep these blocks keeps them. -/
theorem foldl_bootKept {α : Type} {f : State → α → State} (hf : ∀ s a, s.rst.bootDone = true → BootKept s (f s a)) (l : List α)
    (hdone : s.rst.bootDone = true) : BootKept s (l.foldl f s) := by
  induction l generalizing s with
  | nil => exact .refl s
  | cons a l ih =>
    have ha := hf s a hdone
    exact ha.trans (ih (by rw [ha.rst, hdone]))

/-- Held copies are pushed, and none is held any more. -/
theorem flushCopies_bootKept (hdone : s.rst.bootDone = true) :
    BootKept { s with err := { s.err with heldCopies := [] } } (flushCopies s) :=
  foldl_bootKept (fun _ _ _ => wakePush_bootKept ..) _ hdone

theorem rerunTests_bootKept (hdone : s.rst.bootDone = true) : BootKept s (rerunTests s) := by
  have hfold : BootKept { s with err := { s.err with abandoned := [] } } (rerunTests s) := by
    refine foldl_bootKept (fun t a ht => ?_) _ hdone
    have hfollow : BootKept t (followUp a 4 0 t) := writeRecord_bootKept ht _
    exact hfollow.trans (queueTest_bootKept (by rw [hfollow.rst, ht]) a)
  exact ⟨hfold.rst, hfold.sealing, hfold.top, hfold.mem, hfold.sct, hfold.held⟩

theorem setScrubMark_bootKept (s : State) : BootKept s (setScrubMark s) := by
  obtain ⟨marks, taken, h, -⟩ := setScrubMark_eq s
  rw [h]
  exact ⟨rfl, rfl, rfl, rfl, rfl, rfl⟩

theorem endScrub_none (h : s.sealing.scrub = false) : endScrub s = s := by
  simp [endScrub, h]

/-- The package after a boot whose trial image, if it ran one, is now the active one (R826). -/
def settledBoot (s : State) : State :=
  { s with rst := { s.rst with
      bootDone := true, trial := false
      flash := if s.rst.trial then { s.rst.flash with activeB := s.rst.runningB } else s.rst.flash } }

/-- Step 9 of a boot without a scrub. -/
theorem finishBoot_eq (hscrub : s.sealing.scrub = false) :
    finishBoot s = setScrubMark (rerunTests (flushCopies (settledBoot s))) := by
  unfold finishBoot
  dsimp only
  cases htrial : s.rst.trial with
  | true =>
    rw [if_pos rfl, endScrub_none (by exact hscrub)]
    simp [settledBoot, setRst, htrial]
  | false =>
    rw [if_neg Bool.false_ne_true, endScrub_none hscrub]
    simp [settledBoot, setRst, htrial]

/-- It leaves these blocks so, and no copy of a record is held any more. -/
theorem finishBoot_bootKept (hscrub : s.sealing.scrub = false) :
    BootKept { settledBoot s with err := { s.err with heldCopies := [] } } (finishBoot s) := by
  have hflush := flushCopies_bootKept (s := settledBoot s) rfl
  rw [finishBoot_eq hscrub]
  exact hflush.trans ((rerunTests_bootKept (by rw [hflush.rst]; rfl)).trans (setScrubMark_bootKept _))

/-- A boot starts none of the internal instances that it already has (08 R414). -/
theorem startInstances_all (h : ∀ i, i < 6 → (Table.find s.rng.instances i).isSome = true) : startInstances s = s := by
  have hstep (i : Nat) (hi : i < 6) : (if (Table.find s.rng.instances i).isNone then startInternal i s else s) = s :=
    if_neg (by simpa [Option.isSome_iff_ne_none] using h i hi)
  simp (disch := decide) only [startInstances, List.foldl_cons, List.foldl_nil, hstep]

/-- What a boot draws for its keys goes to the HeatSign keys; keys of sealed mode that it has stay (14 R704, R716). -/
theorem bootDraws_eq {draw : List Byte} {u : State} (hdraw : internalBytes 5 80 s = (some draw, u))
    (hkeys : s.sealing.sealed = true → s.sealing.kEnc ≠ []) : bootDraws s = some (bootKeys draw u) := by
  obtain ⟨rng, regs, hu⟩ := internalDraw_eq 5 1 80 s
  rw [show (internalDraw 5 1 80 s).2 = u from congrArg Prod.snd hdraw] at hu
  have hstay : ((bootKeys draw u).sealing.sealed && decide ((bootKeys draw u).sealing.kEnc = [])) = false := by
    have hsealed : (bootKeys draw u).sealing.sealed = s.sealing.sealed := by rw [hu]; rfl
    have hkey : (bootKeys draw u).sealing.kEnc = s.sealing.kEnc := by rw [hu]; rfl
    rw [hsealed, hkey]
    simpa using hkeys
  rw [bootDraws, hdraw]
  dsimp only
  rw [if_neg (by simp [hstay])]

/-- The end of a warm boot that has chosen an image. -/
theorem bootDone_eq {env : BootEnv} {draw : List Byte} {u : State} (hpow : s.rst.powered = true) (htrip : s.rst.tripped = false)
    (hchosen : s.rst.chosen = true) (hhalt : s.rst.halted = false) (hdone : s.rst.bootDone = false) (hrest : s.rst.restored = true)
    (hsource : env.source = false) (hinst : ∀ i, i < 6 → (Table.find s.rng.instances i).isSome = true)
    (hdraw : internalBytes 5 80 s = (some draw, u)) (hkeys : s.sealing.sealed = true → s.sealing.kEnc ≠ []) :
    bootDone env s = finishBoot (bootKeys draw u) := by
  have hall : (List.range 6).any (fun i => (Table.find s.rng.instances i).isNone) = false := by
    simp only [List.any_eq_false, List.mem_range, Option.isNone_iff_eq_none]
    exact fun i hi h => by simpa [h] using hinst i hi
  unfold bootDone
  rw [if_neg (by simp [hpow, htrip, hchosen, hhalt, hdone])]
  dsimp only
  rw [if_pos hrest, if_neg (by simp [hhalt]), hsource, if_neg Bool.false_ne_true, startInstances_all hinst, if_neg (by simp [hall]),
    bootDraws_eq hdraw hkeys]

/-- Settles O20: an activated image goes to the inactive slot or is refused, a cold reset comes to the choice of the active image, and the
end of a warm boot writes only its keys, the held records and the marks. -/
theorem bootAndImages : Obligations.BootAndImages := by
  refine ⟨?_, ?_, ?_⟩
  · rintro s ring c raw bs src size hb rfl rfl hsrc hsize hlo hhi hres hsealed rfl
    obtain ⟨hnext, hop, hgate⟩ := hb
    refine ⟨_, congrArg Host.Outcome.next (beginCommand_begins _ _ hnext hop hgate), ?_⟩
    rw [fwActivateBody_reads hsrc hsize hlo hhi hres hsealed raw, activation]
    split
    · rw [settle_done]
    · have hrec := writeRecord_recorded { source := 0, severity := 2, status := stAttestFail,
                                          d0 := imageCheck s.rst.fuses (padTo (c.param 32 4) raw) } s
      exact ⟨_, rfl, writeRecord_rst .., hrec.mem, hrec.sct, hrec.rings⟩
  · rintro s env f u htrip rfl rfl hread hpend hbad hsel hseal hretain
    obtain ⟨top, hboot, hsensed, hserial⟩ := startBoot_plain (s := sourced env s) env hbad hseal hretain hsel hread hpend
    refine ⟨_, congrArg Host.Outcome.next ((coldReset_eq env htrip).trans hboot), ?_⟩
    by_cases hpass : imageCheck (env.fuses.getD s.rst.fuses) ((env.flash.getD s.rst.flash).slot (env.flash.getD s.rst.flash).activeB) = 0
    · rw [if_pos hpass, bootSlot_runs (by exact hpass)]
      exact ⟨rfl, rfl, rfl, rfl, ⟨rfl, rfl, rfl, rfl⟩, rfl, rfl, rfl, hsensed, hserial, rfl, rfl, rfl, rfl, rfl, rfl, rfl, rfl, rfl, rfl⟩
    · rw [if_neg hpass, bootSlot_halts (by exact hpass)]
      exact ⟨rfl, rfl, rfl, rfl, ⟨rfl, rfl, rfl⟩, rfl, rfl, rfl, hsensed, hserial, rfl, rfl, rfl, rfl, rfl, rfl, rfl, rfl, rfl, rfl⟩
  · intro s env draw u hpow htrip hchosen hhalt hdone hrest hsource hscrub hinst hdraw hkeys
    obtain ⟨rng, regs, hu⟩ := internalDraw_eq 5 1 80 s
    rw [show (internalDraw 5 1 80 s).2 = u from congrArg Prod.snd hdraw] at hu
    have hrow := bootDone_eq hpow htrip hchosen hhalt hdone hrest hsource hinst hdraw hkeys
    subst hu
    have hkept := finishBoot_bootKept (s := bootKeys draw { s with rng := rng, regs := regs }) hscrub
    refine ⟨_, congrArg Host.Outcome.next hrow, ?_⟩
    rw [hkept.rst, hkept.sealing, hkept.held, hkept.mem, hkept.sct, hkept.top]
    exact ⟨rfl, rfl, rfl, rfl, rfl, rfl, rfl, rfl, rfl⟩

end Sys2Proof.Machine

/-! # What follows a heat row leaves the MARK flags of the commands in flight (O34)

Every row that touches heats is followed by `heatRow`. Of the rings it can change the phases of commands alone, through `finish`: one rule
for each function below, in the order of the model, each proved from the rules of the functions it calls, which its pattern hands to
`grind`. -/
namespace Sys2Proof.Machine

/-- The MARK flags of a ring's commands in flight, in ring order (04 R158). -/
def Rings.marks (r : Rings) (i : Nat) : List Bool := (Table.getD r.table i {}).inflight.map Cmd.mark

theorem marks_eq (s : State) (i : Nat) : s.rings.marks i = (ringOf s i).inflight.map Cmd.mark := rfl

section
variable (s : State)

theorem marks_mapInflight {f : Cmd → Cmd} (hf : ∀ c, (f c).mark = c.mark) : (mapInflight f s).rings.marks = s.rings.marks := by
  funext i
  rw [marks_eq, marks_eq, ringOf_mapInflight, List.map_map]
  exact List.map_congr_left fun c _ => hf c

theorem marks_finish (n st r0 r1 : Nat) : (finish n st r0 r1 s).rings.marks = s.rings.marks := by
  refine marks_mapInflight s fun c => ?_
  split
  · split <;> rfl
  · rfl
grind_pattern marks_finish => finish n st r0 r1 s

/-- A fold of steps that each keep the flags keeps them. -/
theorem marks_foldl {α : Type} {f : State → α → State} (hf : ∀ s a, (f s a).rings.marks = s.rings.marks) (l : List α) (s : State) :
    (l.foldl f s).rings.marks = s.rings.marks := by
  induction l generalizing s with
  | nil => rfl
  | cons a l ih => exact (ih (f s a)).trans (hf s a)
grind_pattern marks_foldl => l.foldl f s

/-! ### Registers, memory, records and tests -/

theorem marks_rput (r : Reg) (i j v : Nat) : (rput s r i j v).rings.marks = s.rings.marks := rfl
grind_pattern marks_rput => rput s r i j v

theorem marks_bumpField (r : Reg) (i lo w n : Nat) : (bumpField s r i lo w n).rings.marks = s.rings.marks := rfl
grind_pattern marks_bumpField => bumpField s r i lo w n

theorem marks_bump (r : Reg) (i : Nat) : (bump s r i).rings.marks = s.rings.marks := rfl
grind_pattern marks_bump => bump s r i

theorem marks_emit (e : Emit) : (emit e s).rings.marks = s.rings.marks := rfl
grind_pattern marks_emit => emit e s

theorem marks_drawFree : (drawFree s).2.rings.marks = s.rings.marks := rfl
grind_pattern marks_drawFree => drawFree s

theorem marks_poke (a : Nat) (bs : List Byte) : (poke s a bs).rings.marks = s.rings.marks := rfl
grind_pattern marks_poke => poke s a bs

theorem marks_poisonLine (a : Nat) : (poisonLine s a).rings.marks = s.rings.marks := rfl
grind_pattern marks_poisonLine => poisonLine s a

theorem marks_unpoison (a : Nat) : (unpoison s a).rings.marks = s.rings.marks := rfl
grind_pattern marks_unpoison => unpoison s a

theorem marks_zeroFill (base size : Nat) : (zeroFill s base size).rings.marks = s.rings.marks := rfl
grind_pattern marks_zeroFill => zeroFill s base size

theorem marks_logRecord (queue typ : Nat) (body : List Byte) : (logRecord queue typ body s).rings.marks = s.rings.marks := by
  obtain ⟨_, _, h⟩ := logRecord_eq queue typ body s
  rw [h]
grind_pattern marks_logRecord => logRecord queue typ body s

theorem marks_writeRecord (r : Rec) : (writeRecord r s).rings.marks = s.rings.marks := by rw [(writeRecord_recorded r s).rings]
grind_pattern marks_writeRecord => writeRecord r s

theorem marks_finishAll (l : List Nat) (st r0 r1 : Nat) : (finishAll l st r0 r1 s).rings.marks = s.rings.marks := by grind [finishAll]
grind_pattern marks_finishAll => finishAll l st r0 r1 s

theorem marks_fireSlot (k : Nat) : (fireSlot k s).rings.marks = s.rings.marks := by rw [(fireSlot_recorded k s).rings]
grind_pattern marks_fireSlot => fireSlot k s

theorem marks_noteTransient (r : Res) : (noteTransient r s).2.rings.marks = s.rings.marks := rfl
grind_pattern marks_noteTransient => noteTransient r s

theorem marks_retireRecord (r : Res) (action ref sector addr : Nat) (injected : Bool) :
    (retireRecord r action ref sector addr injected s).rings.marks = s.rings.marks := by
  unfold retireRecord; grind
grind_pattern marks_retireRecord => retireRecord r action ref sector addr injected s

theorem marks_actMemory (r : Res) (b : Bool) : (actMemory r b s).2.rings.marks = s.rings.marks := by grind [actMemory]
grind_pattern marks_actMemory => actMemory r b s

theorem marks_queueTest (t : SelfTest) : (queueTest t s).rings.marks = s.rings.marks := by grind [queueTest, followUp]
grind_pattern marks_queueTest => queueTest t s

theorem marks_changeTest (r : Res) (f : SelfTest → SelfTest) : (changeTest r f s).rings.marks = s.rings.marks := rfl
grind_pattern marks_changeTest => changeTest r f s

theorem marks_detect (d : Detect) : (detect actMemory d s).rings.marks = s.rings.marks := by unfold detect; grind
grind_pattern marks_detect => detect actMemory d s

theorem marks_spoilLine (a : Nat) : (spoilLine a s).rings.marks = s.rings.marks := rfl
grind_pattern marks_spoilLine => spoilLine a s

theorem marks_faultAt (a : Nat) (kind : FaultKind) (n : Nat) (injected forced : Bool) :
    (faultAt a kind n injected forced s).2.rings.marks = s.rings.marks := by
  unfold faultAt; grind
grind_pattern marks_faultAt => faultAt a kind n injected forced s

theorem marks_patternKind (a n : Nat) : (patternKind a n s).2.rings.marks = s.rings.marks := by unfold patternKind; grind
grind_pattern marks_patternKind => patternKind a n s

theorem marks_injectedFault (a : Nat) : (injectedFault a s).2.rings.marks = s.rings.marks := by unfold injectedFault; grind
grind_pattern marks_injectedFault => injectedFault a s

theorem marks_readLine (faults : List LineFault) (a : Nat) : (readLine faults a s).2.rings.marks = s.rings.marks := by
  unfold readLine; grind
grind_pattern marks_readLine => readLine faults a s

theorem marks_readLines (faults : List LineFault) (k l : Nat) : (readLines faults k l s).2.rings.marks = s.rings.marks := by
  fun_induction readLines faults k l s <;> grind
grind_pattern marks_readLines => readLines faults k l s

theorem marks_holeRequest (sector a : Nat) : (holeRequest sector a s).rings.marks = s.rings.marks := marks_writeRecord ..
grind_pattern marks_holeRequest => holeRequest sector a s

theorem marks_trustedRead (a n : Nat) : (trustedRead a n s).2.rings.marks = s.rings.marks := by grind [trustedRead, faultyRead]
grind_pattern marks_trustedRead => trustedRead a n s

theorem marks_writeLine (faults : List LineFault) (a : Nat) (bs : List Byte) : (writeLine faults a bs s).2.rings.marks = s.rings.marks := by
  grind [writeLine]
grind_pattern marks_writeLine => writeLine faults a bs s

theorem marks_writeLines (faults : List LineFault) (k a : Nat) (bs : List Byte) :
    (writeLines faults k a bs s).2.rings.marks = s.rings.marks := by
  fun_induction writeLines faults k a bs s <;> grind
grind_pattern marks_writeLines => writeLines faults k a bs s

theorem marks_trustedWrite (a : Nat) (bs : List Byte) : (trustedWrite a bs s).2.rings.marks = s.rings.marks := by
  grind [trustedWrite, faultyWrite]
grind_pattern marks_trustedWrite => trustedWrite a bs s

theorem marks_faultyLineAdd (faults : List LineFault) (a w : Nat) (sub : Bool) (operand : List Byte) :
    (faultyLineAdd faults a w sub operand s).2.rings.marks = s.rings.marks := by
  grind [faultyLineAdd]
grind_pattern marks_faultyLineAdd => faultyLineAdd faults a w sub operand s

/-! ### Marks of the cadence, internal draws, engines and links -/

theorem marks_setCad (c : Cad) : (setCad c s).rings.marks = s.rings.marks := rfl
grind_pattern marks_setCad => setCad c s

theorem marks_takeMark (e : Nat × Mark) : (takeMark s e).rings.marks = s.rings.marks := by grind [takeMark]
grind_pattern marks_takeMark => takeMark s e

theorem marks_cancelMark (k : Nat) : (cancelMark k s).rings.marks = s.rings.marks := rfl
grind_pattern marks_cancelMark => cancelMark k s

theorem marks_internalBytes (i n : Nat) : (internalBytes i n s).2.rings.marks = s.rings.marks := by
  obtain ⟨_, _, h⟩ := internalDraw_eq i 1 n s
  rw [internalBytes, h]
grind_pattern marks_internalBytes => internalBytes i n s

theorem marks_setLat (e : Nat) (x : LatEngine) : (setLat e x s).rings.marks = s.rings.marks := rfl
grind_pattern marks_setLat => setLat e x s

theorem marks_loadRegions (a : Nat) (l : List (Nat × Nat)) : (loadRegions a l s).rings.marks = s.rings.marks := by
  fun_induction loadRegions a l s <;> grind
grind_pattern marks_loadRegions => loadRegions a l s

theorem marks_resumeItem (e serial ring tag t0 t1 : Nat) : (resumeItem e serial ring tag t0 t1 s).rings.marks = s.rings.marks := by
  grind [resumeItem, startOp]
grind_pattern marks_resumeItem => resumeItem e serial ring tag t0 t1 s

theorem marks_moduliItem (e serial first logN : Nat) (entries : List (Nat × Nat)) :
    (moduliItem e serial first logN entries s).rings.marks = s.rings.marks := by
  grind [moduliItem]
grind_pattern marks_moduliItem => moduliItem e serial first logN entries s

theorem marks_latNext (e n : Nat) : (latNext e n s).rings.marks = s.rings.marks := by fun_induction latNext e n s <;> grind [startOp]
grind_pattern marks_latNext => latNext e n s

theorem marks_latGo (e : Nat) : (latGo e s).rings.marks = s.rings.marks := marks_latNext ..
grind_pattern marks_latGo => latGo e s

theorem marks_setChord (x : Chord) : (setChord x s).rings.marks = s.rings.marks := rfl
grind_pattern marks_setChord => setChord x s

theorem marks_setLink (c : Nat) (l : Link) : (setLink c l s).rings.marks = s.rings.marks := rfl
grind_pattern marks_setLink => setLink c l s

theorem marks_emitFlit (c kind number : Nat) (payload : List Byte) (l : List Nat) :
    (emitFlit c kind number payload l s).rings.marks = s.rings.marks := rfl
grind_pattern marks_emitFlit => emitFlit c kind number payload l s

theorem marks_pushLink (c : Nat) : (pushLink c s).rings.marks = s.rings.marks := by
  unfold pushLink
  generalize (linkOf s c).txWait.length + 1 = n
  fun_induction pushData c n s <;> grind
grind_pattern marks_pushLink => pushLink c s

theorem marks_putPacket (c : Nat) (p : Packet) : (putPacket c p s).rings.marks = s.rings.marks := by grind [putPacket]
grind_pattern marks_putPacket => putPacket c p s

theorem marks_sendPacket {p : Packet} {c : Nat} {t : State} (h : sendPacket p s = some (c, t)) : t.rings.marks = s.rings.marks := by
  grind [sendPacket, Option.map_eq_some_iff]
grind_pattern marks_sendPacket => sendPacket p s, some (c, t)

theorem marks_sysSend (viaPair : Bool) (dest : Nat) (m : SysMsg) : (sysSend viaPair dest m s).rings.marks = s.rings.marks := by
  grind [sysSend]
grind_pattern marks_sysSend => sysSend viaPair dest m s

/-! ### Slots -/

theorem marks_setSlot (k : Nat) (h : HeatSlot) : (setSlot k h s).rings.marks = s.rings.marks := rfl
grind_pattern marks_setSlot => setSlot k h s

theorem marks_changeSlot (k : Nat) (f : HeatSlot → HeatSlot) : (changeSlot k f s).rings.marks = s.rings.marks := rfl
grind_pattern marks_changeSlot => changeSlot k f s

theorem marks_heatPhase (k phase : Nat) : (heatPhase k phase s).rings.marks = s.rings.marks := by grind [heatPhase]
grind_pattern marks_heatPhase => heatPhase k phase s

theorem marks_taintSlot (k line : Nat) (hsn : Option Nat) : (taintSlot k line hsn s).rings.marks = s.rings.marks := by
  unfold taintSlot; grind
grind_pattern marks_taintSlot => taintSlot k line hsn s

theorem marks_slotWrite (k a : Nat) (bs : List Byte) : (slotWrite k a bs s).rings.marks = s.rings.marks := by grind [slotWrite]
grind_pattern marks_slotWrite => slotWrite k a bs s

theorem marks_addSpread (faults : List LineFault) (k : Nat) (hsn : Option Nat) (ext : Extent) (w : Nat) (sub : Bool)
    (n off : Nat) (bs : List Byte) :
    (addSpread faults k hsn ext w sub n off bs s).rings.marks = s.rings.marks := by
  induction n generalizing s off bs with
  | zero => rfl
  | succ n ih =>
    unfold addSpread
    split
    · rfl
    · rw [ih]
      split <;> grind
grind_pattern marks_addSpread => addSpread faults k hsn ext w sub n off bs s

theorem marks_putBit (k u bit : Nat) (on : Bool) : (putBit k u bit on s).rings.marks = s.rings.marks := marks_slotWrite ..
grind_pattern marks_putBit => putBit k u bit on s

theorem marks_heatSend (h : HeatSlot) (home : Nat) (m : HeatMsg) : (heatSend h home m s).rings.marks = s.rings.marks := by grind [heatSend]
grind_pattern marks_heatSend => heatSend h home m s

theorem marks_heatTell (h : HeatSlot) (m : HeatMsg) : (heatTell h m s).rings.marks = s.rings.marks := by grind [heatTell]
grind_pattern marks_heatTell => heatTell h m s

theorem marks_freeEngines (id : Nat) : (freeEngines id s).rings.marks = s.rings.marks := by grind [freeEngines]
grind_pattern marks_freeEngines => freeEngines id s

theorem marks_failSlot (k : Nat) : (failSlot k s).rings.marks = s.rings.marks := by grind [failSlot]
grind_pattern marks_failSlot => failSlot k s

theorem marks_failHeat (k : Nat) : (failHeat k s).rings.marks = s.rings.marks := by grind [failHeat]
grind_pattern marks_failHeat => failHeat k s

theorem marks_mirrorChanges (t : State) : (mirrorChanges t s).rings.marks = s.rings.marks := by grind [mirrorChanges]
grind_pattern marks_mirrorChanges => mirrorChanges t s

/-! ### The end of a heat -/

theorem marks_reconstruct (k : Nat) : (reconstruct k s).rings.marks = s.rings.marks := by grind [reconstruct]
grind_pattern marks_reconstruct => reconstruct k s

theorem marks_treeChunk (faults : List LineFault) (k tree child chunk : Nat) (bs : List Byte) :
    (treeChunk faults k tree child chunk bs s).rings.marks = s.rings.marks := by
  grind [treeChunk]
grind_pattern marks_treeChunk => treeChunk faults k tree child chunk bs s

theorem marks_sendPartial (k tree : Nat) : (sendPartial k tree s).rings.marks = s.rings.marks := by grind [sendPartial]
grind_pattern marks_sendPartial => sendPartial k tree s

theorem marks_retryTree : (retryTree s).rings.marks = s.rings.marks := by grind [retryTree]
grind_pattern marks_retryTree => retryTree s

theorem marks_sendCheckpoint (k : Nat) : (sendCheckpoint k s).rings.marks = s.rings.marks := by grind [sendCheckpoint]
grind_pattern marks_sendCheckpoint => sendCheckpoint k s

theorem marks_climb (k : Nat) : (climb k s).rings.marks = s.rings.marks := by grind [climb]
grind_pattern marks_climb => climb k s

theorem marks_combine (k : Nat) (sub : Bool) (bs : List Byte) : (combine k sub bs s).rings.marks = s.rings.marks := marks_addSpread ..
grind_pattern marks_combine => combine k sub bs s

theorem marks_subtractMasks (k : Nat) : (subtractMasks k s).rings.marks = s.rings.marks := by grind [subtractMasks]
grind_pattern marks_subtractMasks => subtractMasks k s

theorem marks_takeEngine (e : Nat) (h : HeatSlot) : (takeEngine e h s).rings.marks = s.rings.marks := rfl
grind_pattern marks_takeEngine => takeEngine e h s

theorem marks_spoilStore (e n : Nat) : (spoilStore e n s).rings.marks = s.rings.marks := rfl
grind_pattern marks_spoilStore => spoilStore e n s

theorem marks_sealResult (k : Nat) (body : List Byte) : (sealResult k body s).rings.marks = s.rings.marks := by grind [sealResult]
grind_pattern marks_sealResult => sealResult k body s

theorem marks_rootSteps (k : Nat) : (rootSteps k s).rings.marks = s.rings.marks := by fun_cases rootSteps k s <;> grind
grind_pattern marks_rootSteps => rootSteps k s

/-! ### Phases and messages -/

theorem marks_endOne (k : Nat) : (endOne k s).rings.marks = s.rings.marks := by grind [endOne]
grind_pattern marks_endOne => endOne k s

theorem marks_endPhase (k : Nat) : (endPhase k s).rings.marks = s.rings.marks := by grind [endPhase]
grind_pattern marks_endPhase => endPhase k s

theorem marks_setDeadlineMark : (setDeadlineMark s).rings.marks = s.rings.marks := by grind [setDeadlineMark]
grind_pattern marks_setDeadlineMark => setDeadlineMark s

theorem marks_setCheckpointMark : (setCheckpointMark s).rings.marks = s.rings.marks := by grind [setCheckpointMark]
grind_pattern marks_setCheckpointMark => setCheckpointMark s

theorem marks_sendReport (k ph members : Nat) (ok : Bool) : (sendReport k ph members ok s).rings.marks = s.rings.marks := marks_heatSend ..
grind_pattern marks_sendReport => sendReport k ph members ok s

theorem marks_forHomes (k : Nat) {f : Nat × Nat × Nat → State → State} (hf : ∀ e t, (f e t).rings.marks = t.rings.marks) :
    (forHomes k f s).rings.marks = s.rings.marks :=
  marks_foldl (fun t e => hf e t) ..
grind_pattern marks_forHomes => forHomes k f s

theorem marks_endingWork (k ph stage : Nat) : (endingWork k ph stage s).rings.marks = s.rings.marks := by
  grind [endingWork, noteEnding, dropEnding, sendBits, sendShares, sendReveals]
grind_pattern marks_endingWork => endingWork k ph stage s

theorem marks_tryVerdict (k ph : Nat) : (tryVerdict k ph s).rings.marks = s.rings.marks := by grind [tryVerdict]
grind_pattern marks_tryVerdict => tryVerdict k ph s

theorem marks_graphWork (k : Nat) : (graphWork k s).rings.marks = s.rings.marks := by grind [graphWork, sendKeys]
grind_pattern marks_graphWork => graphWork k s

theorem marks_progress (k : Nat) : (progress k s).rings.marks = s.rings.marks := by grind [progress]
grind_pattern marks_progress => progress k s

theorem marks_takeVerdict (k ph : Nat) (ok : Bool) (seed : List Byte) (homes : List (Nat × Nat × Nat)) (total : Nat) :
    (takeVerdict k ph ok seed homes total s).rings.marks = s.rings.marks := by
  grind [takeVerdict]
grind_pattern marks_takeVerdict => takeVerdict k ph ok seed homes total s

theorem marks_takeHeatMsg (k : Nat) (m : HeatMsg) : (takeHeatMsg k m s).rings.marks = s.rings.marks := by unfold takeHeatMsg; grind
grind_pattern marks_takeHeatMsg => takeHeatMsg k m s

theorem marks_heatLoop (n : Nat) : (heatLoop n s).rings.marks = s.rings.marks := by fun_induction heatLoop n s <;> grind
grind_pattern marks_heatLoop => heatLoop n s

theorem marks_handSlots : (handSlots s).rings.marks = s.rings.marks := by grind [handSlots]
grind_pattern marks_handSlots => handSlots s

theorem marks_heatRow (t : State) : (heatRow t s).rings.marks = s.rings.marks := by grind [heatRow]
grind_pattern marks_heatRow => heatRow t s

end

/-! ### A mark that expired (02 R96, R100) -/

variable {s : State}

/-- The command of a mark that was taken too late: done with the mark's status, slot and target, and without the MARK flag, since it was not
released. -/
def expiredCommand (k st : Nat) (m : Mark) (bytes : List Byte) (fn : Fn) (s : State) : Cmd :=
  { serial := s.rings.nextSerial, ring := m.ring, bytes := bytes, fn := fn, phase := .done st k m.target }

/-- A mark record leaves the rings. -/
theorem markRecord_rings (k st target : Nat) (s : State) : (markRecord k st target s).rings = s.rings := by
  obtain ⟨_, _, h⟩ := logRecord_eq (rfield s .cadLogQueue 0 0 6) 0x02 (leBytes 2 k ++ leBytes 2 st ++ leBytes 1 (cadCode s.cad.state)
    ++ leBytes 3 0 ++ leBytes 8 target ++ leBytes 8 s.cad.stroke) s
  rw [markRecord, h]

/-- So does the advance of a mark's slot. -/
theorem advanceMark_rings (k : Nat) (m : Mark) (s : State) : (advanceMark k m s).rings = s.rings := by
  unfold advanceMark
  dsimp only
  split
  · rfl
  · split <;> rfl

/-- A command placed in a ring stands at the end of its order (R98). -/
theorem inflight_placeCommand (i : Nat) (c : Cmd) (s : State) :
    (ringOf (placeCommand i c s) i).inflight = (ringOf s i).inflight ++ [{ c with serial := s.rings.nextSerial, ring := i }] := by
  unfold placeCommand
  dsimp only
  rw [ringOf_setRing_same, Nat.add_sub_cancel]

/-- The command of an expired mark joins the end of its ring's order, unless the ring is DISABLED. -/
theorem markRelease_expires {a : Taken} {rest : List Taken} {m : Mark} {bytes : List Byte} {fn : Fn} {st : Nat}
    (fw : MarkWork → Mark → Bool → State → State) (htaken : s.cad.taken = a :: rest) (hmark : Table.find s.cad.marks a.slot = some m)
    (hwork : m.work = .stored bytes fn) (hring : (ringOf s m.ring).state ≠ .disabled) (hexpiry : a.expiry = some st) :
    (ringOf (markRelease fw s) m.ring).inflight = (ringOf s m.ring).inflight ++ [expiredCommand a.slot st m bytes fn s] := by
  have hrings : (markRecord a.slot st m.target (setCad { s.cad with taken := rest } s)).rings = s.rings := markRecord_rings ..
  have hsame : ringOf (bump (markRecord a.slot st m.target (setCad { s.cad with taken := rest } s)) .cadMarkExpired) m.ring
      = ringOf s m.ring := by
    rw [ringOf, bump_rings, hrings, ← ringOf]
  unfold markRelease
  rw [htaken]
  dsimp only
  rw [setCad_cad, hmark]
  dsimp only
  rw [hexpiry, hwork]
  dsimp only
  rw [hsame, if_neg hring, ringOf, advanceMark_rings, ← ringOf, inflight_placeCommand, hsame, bump_rings, hrings]
  rfl

/-- A package whose only taken mark, of slot 16 and for the admin ring of sector 0, has expired. -/
def lateMark : State :=
  { cad := { marks := [(16, { work := .stored [] .pf })], taken := [⟨16, 0, some stDeadlinePassed⟩] }
    rings := { table := [(0, { state := .active })] } }

/-- The command that its MARK_RELEASE places has the MARK flag clear. -/
theorem lateMark_marks : (markRelease (firmwareMark []) lateMark).rings.marks 0 = [false] := by
  rw [marks_eq, markRelease_expires (s := lateMark) (m := { work := .stored [] .pf }) _ rfl rfl rfl (by decide) rfl]
  rfl

/-- Refutes O34: it asks for the MARK flag on the command of every taken mark. On `lateMark` the mark has expired (R96), its command joins
the ring with the flag clear, and what follows the row keeps the flags, so no state before it has one that is set. -/
theorem not_quiesceAndMarks : ¬ Obligations.QuiesceAndMarks := by
  rintro ⟨-, -, -, hrelease⟩
  obtain ⟨t, c, hexec, -, -, -, hjoins, -, -, hflag, -⟩ :=
    hrelease lateMark [] ⟨16, 0, some stDeadlinePassed⟩ [] { work := .stored [] .pf } [] .pf rfl rfl rfl rfl rfl
  have hrow : heatRow lateMark (markRelease (firmwareMark []) lateMark) = heatRow lateMark t := Host.Outcome.next.inj hexec
  have hmarks : (markRelease (firmwareMark []) lateMark).rings.marks = t.rings.marks := by
    rw [← marks_heatRow _ lateMark, hrow, marks_heatRow]
  have hset : t.rings.marks 0 = [true] := by
    rw [marks_eq, hjoins, List.map_append, List.map_singleton, hflag]
    rfl
  rw [← hmarks, lateMark_marks] at hset
  exact absurd hset (by decide)

end Sys2Proof.Machine

/-! # What leaves memory

Most functions of the model change neither a byte nor the poison nor anything else of memory: below, one equation for each, in the order
of the model, each from the equations of the functions it calls, which its pattern hands to `grind`. -/
namespace Sys2Proof.Machine

/-- A fold of steps that each leave memory leaves it. -/
theorem foldl_mem {α : Type} {f : State → α → State} (hf : ∀ s a, (f s a).mem = s.mem) (l : List α) (s : State) : (l.foldl f s).mem = s.mem := by
  induction l generalizing s with
  | nil => rfl
  | cons a l ih => exact (ih _).trans (hf s a)
grind_pattern foldl_mem => (List.foldl f s l).mem

/-- The same for a fold that carries a value beside the state. -/
theorem foldl_snd_mem {α β : Type} {f : β × State → α → β × State} (hf : ∀ p a, (f p a).2.mem = p.2.mem) (l : List α) (p : β × State) :
    (l.foldl f p).2.mem = p.2.mem := by
  induction l generalizing p with
  | nil => rfl
  | cons a l ih => exact (ih _).trans (hf p a)

section
variable {s : State}

/-! ### Ops -/

grind_pattern rput_mem => (rput s r i j v).mem
grind_pattern bumpField_mem => (bumpField s r i lo w n).mem
grind_pattern bump_mem => (bump s r i).mem
grind_pattern emit_mem => (emit e s).mem
grind_pattern drawFree_mem => (drawFree s).2.mem
grind_pattern setWake_mem => (setWake s q w).mem

@[simp] theorem wakePush_mem (q : Nat) (ws : List (Word32 × Bool × Bool)) : (wakePush q ws s).mem = s.mem := by grind [wakePush]
grind_pattern wakePush_mem => (wakePush q ws s).mem

@[simp] theorem logRecord_mem (queue typ : Nat) (body : List Byte) : (logRecord queue typ body s).mem = s.mem := by grind [logRecord]
grind_pattern logRecord_mem => (logRecord queue typ body s).mem

@[simp] theorem emptyWake_mem (q : Nat) : (emptyWake q s).mem = s.mem := by grind [emptyWake]
grind_pattern emptyWake_mem => (emptyWake q s).mem

@[simp] theorem writeRecord_mem (r : Rec) : (writeRecord r s).mem = s.mem := by grind [writeRecord]
grind_pattern writeRecord_mem => (writeRecord r s).mem

@[simp] theorem eventRecord_mem (source sector status addr : Nat) : (eventRecord source sector status addr s).mem = s.mem := by
  grind [eventRecord]
grind_pattern eventRecord_mem => (eventRecord source sector status addr s).mem

grind_pattern setRing_mem => (setRing s i r).mem
grind_pattern mapInflight_mem => (mapInflight f s).mem
grind_pattern setPhase_mem => (setPhase n p s).mem
grind_pattern finish_mem => (finish n st r0 r1 s).mem

@[simp] theorem finishAll_mem (serials : List Nat) (status r0 r1 : Nat) : (finishAll serials status r0 r1 s).mem = s.mem := by grind [finishAll]
grind_pattern finishAll_mem => (finishAll serials status r0 r1 s).mem

@[simp] theorem fireSlot_mem (k : Nat) : (fireSlot k s).mem = s.mem := by grind [fireSlot]
grind_pattern fireSlot_mem => (fireSlot k s).mem

@[simp] theorem firePoint_mem (point target : Nat) : (firePoint point target s).2.2.mem = s.mem := by grind [firePoint]
grind_pattern firePoint_mem => (firePoint point target s).2.2.mem

grind_pattern setSeal_mem => (setSeal s n x).mem

@[simp] theorem writeRecordSlot_mem (n window slot : Nat) (w : Window) (plain : List Byte) :
    (writeRecordSlot n window slot w plain s).mem = s.mem := rfl
grind_pattern writeRecordSlot_mem => (writeRecordSlot n window slot w plain s).mem

@[simp] theorem writeRecords_mem (n window : Nat) (w : Window) (a k : Nat) (bs : List Byte) :
    (writeRecords n window w a k bs s).mem = s.mem := by
  fun_induction writeRecords n window w a k bs s <;> grind
grind_pattern writeRecords_mem => (writeRecords n window w a k bs s).mem

theorem hostWrite_mem (n addr : Nat) (bs : List Byte) {t : State} (he : hostWrite n addr bs s = .ok t) : t.mem = s.mem := by grind [hostWrite]
grind_pattern hostWrite_mem => hostWrite n addr bs s, Except.ok t

@[simp] theorem openRecord_mem (n window slot : Nat) (raw : List Byte) : (openRecord n window slot raw s).2.mem = s.mem := by
  grind [openRecord]
grind_pattern openRecord_mem => (openRecord n window slot raw s).2.mem

@[simp] theorem openRecords_mem (n window a k : Nat) (bs : List Byte) : (openRecords n window a k bs s).2.mem = s.mem := by
  fun_induction openRecords n window a k bs s <;> grind
grind_pattern openRecords_mem => (openRecords n window a k bs s).2.mem

@[simp] theorem hostReadFail_mem (h : HostRead) : (hostReadFail h s).mem = s.mem := by unfold hostReadFail; grind
grind_pattern hostReadFail_mem => (hostReadFail h s).mem

@[simp] theorem hostRead_mem (n addr len : Nat) (h : HostRead) : (hostRead n addr len h s).2.mem = s.mem := by
  fun_cases hostRead n addr len h s <;> grind
grind_pattern hostRead_mem => (hostRead n addr len h s).2.mem

/-! ### Rings -/

grind_pattern setFn_mem => (setFn s f c).mem

@[simp] theorem raiseMsix_mem (f : Fn) (vec : Nat) : (raiseMsix f vec s).mem = s.mem := by grind [raiseMsix]
grind_pattern raiseMsix_mem => (raiseMsix f vec s).mem

@[simp] theorem releaseMsix_mem (f : Fn) : (releaseMsix f s).mem = s.mem := by grind [releaseMsix]
grind_pattern releaseMsix_mem => (releaseMsix f s).mem

@[simp] theorem finishReset_mem (i : Nat) : (finishReset i s).mem = s.mem := by grind [finishReset]
grind_pattern finishReset_mem => (finishReset i s).mem

@[simp] theorem startReset_mem (i : Nat) (destroy : Bool) (serial : Nat) : (startReset i destroy serial s).mem = s.mem := by grind [startReset]
grind_pattern startReset_mem => (startReset i destroy serial s).mem

@[simp] theorem filterRefuse_mem (fn : Fn) (off : Nat) : (filterRefuse fn off s).mem = s.mem := by unfold filterRefuse; grind
grind_pattern filterRefuse_mem => (filterRefuse fn off s).mem

@[simp] theorem doorbell_mem (src : Doorbell) (i value limit : Nat) (act : Ring → Ring) : (doorbell src i value limit act s).mem = s.mem := by
  grind [doorbell]
grind_pattern doorbell_mem => (doorbell src i value limit act s).mem

@[simp] theorem writeSqTail_mem (src : Doorbell) (i value : Nat) : (writeSqTail src i value s).mem = s.mem := by grind [writeSqTail]
grind_pattern writeSqTail_mem => (writeSqTail src i value s).mem

@[simp] theorem writeCqHead_mem (src : Doorbell) (i value : Nat) : (writeCqHead src i value s).mem = s.mem := by grind [writeCqHead]
grind_pattern writeCqHead_mem => (writeCqHead src i value s).mem

@[simp] theorem haltRing_mem (i cause : Nat) : (haltRing i cause s).mem = s.mem := rfl
grind_pattern haltRing_mem => (haltRing i cause s).mem

@[simp] theorem sealedUnits_mem (i : Nat) (r : Ring) (raw : List Byte) : (sealedUnits i r raw s).2.mem = s.mem := by
  fun_cases sealedUnits i r raw s <;> grind
grind_pattern sealedUnits_mem => (sealedUnits i r raw s).2.mem

@[simp] theorem takeCommand_mem (i : Nat) (bytes : List Byte) : (takeCommand i bytes s).mem = s.mem := by grind [takeCommand]
grind_pattern takeCommand_mem => (takeCommand i bytes s).mem

@[simp] theorem commandFetch_mem (data : HostRead) : (commandFetch data s).mem = s.mem := by
  fun_cases commandFetch data s <;> grind
grind_pattern commandFetch_mem => (commandFetch data s).mem

@[simp] theorem posted_mem (i : Nat) (c : Cmd) (status latency : Nat) : (posted i c status latency s).mem = s.mem := by grind [posted]
grind_pattern posted_mem => (posted i c status latency s).mem

@[simp] theorem notBeforeDue_mem (i : Nat) : (notBeforeDue i s).mem = s.mem := by grind [notBeforeDue]
grind_pattern notBeforeDue_mem => (notBeforeDue i s).mem

@[simp] theorem lockstepExpiry_mem (i : Nat) : (lockstepExpiry i s).mem = s.mem := by
  unfold lockstepExpiry; grind
grind_pattern lockstepExpiry_mem => (lockstepExpiry i s).mem

@[simp] theorem writeAdminCfg_mem (n v : Nat) : (writeAdminCfg n v s).mem = s.mem := by grind [writeAdminCfg]
grind_pattern writeAdminCfg_mem => (writeAdminCfg n v s).mem

/-! ### Errors -/

@[simp] theorem noteTransient_mem (r : Res) : (noteTransient r s).2.mem = s.mem := rfl
grind_pattern noteTransient_mem => (noteTransient r s).2.mem

@[simp] theorem retireRecord_mem (r : Res) (action ref sector addr : Nat) (injected : Bool) :
    (retireRecord r action ref sector addr injected s).mem = s.mem := by
  grind [retireRecord]
grind_pattern retireRecord_mem => (retireRecord r action ref sector addr injected s).mem

@[simp] theorem actMemory_mem (r : Res) (b : Bool) : (actMemory r b s).2.mem = s.mem := by grind [actMemory]
grind_pattern actMemory_mem => (actMemory r b s).2.mem

@[simp] theorem actBridge_mem (r : Res) (b : Bool) : (actBridge r b s).2.mem = s.mem := by grind [actBridge]
grind_pattern actBridge_mem => (actBridge r b s).2.mem

@[simp] theorem followUp_mem (t : SelfTest) (test action : Nat) : (followUp t test action s).mem = s.mem := by grind [followUp]
grind_pattern followUp_mem => (followUp t test action s).mem

@[simp] theorem queueTest_mem (t : SelfTest) : (queueTest t s).mem = s.mem := by grind [queueTest]
grind_pattern queueTest_mem => (queueTest t s).mem

@[simp] theorem changeTest_mem (r : Res) (f : SelfTest → SelfTest) : (changeTest r f s).mem = s.mem := rfl
grind_pattern changeTest_mem => (changeTest r f s).mem

@[simp] theorem patternKind_mem (a n : Nat) : (patternKind a n s).2.mem = s.mem := by grind [patternKind]
grind_pattern patternKind_mem => (patternKind a n s).2.mem

@[simp] theorem injectedFault_mem (a : Nat) : (injectedFault a s).2.mem = s.mem := by grind [injectedFault]
grind_pattern injectedFault_mem => (injectedFault a s).2.mem

theorem detect_mem (act : ActFn) (d : Detect) (hact : ∀ r b t, (act r b t).2.mem = t.mem) : (detect act d s).mem = s.mem := by
  unfold detect; grind
grind_pattern detect_mem => (detect act d s).mem

/-! ### MemAccess -/

@[simp] theorem holeRequest_mem (sector a : Nat) : (holeRequest sector a s).mem = s.mem := by grind [holeRequest]
grind_pattern holeRequest_mem => (holeRequest sector a s).mem

/-! ### Wake -/

grind_pattern reply_mem => (reply v s).mem

@[simp] theorem wakePop_mem (fn : Fn) (q size : Nat) : (wakePop fn q size s).mem = s.mem := by grind [wakePop]
grind_pattern wakePop_mem => (wakePop fn q size s).mem

@[simp] theorem perfSample_mem (q : Nat) (counts : List Nat) : (perfSample q counts s).mem = s.mem := by grind [perfSample]
grind_pattern perfSample_mem => (perfSample q counts s).mem

/-! ### Cadence -/

grind_pattern setCad_mem => (setCad c s).mem

@[simp] theorem enterCad_mem (st : CadState) : (enterCad st s).mem = s.mem := by grind [enterCad]
grind_pattern enterCad_mem => (enterCad st s).mem

@[simp] theorem judgeCad_mem : (judgeCad s).mem = s.mem := by grind [judgeCad]
grind_pattern judgeCad_mem => (judgeCad s).mem

@[simp] theorem referenceUpdate_mem (now : Nat) (offset : Int) : (referenceUpdate now offset s).mem = s.mem := by grind [referenceUpdate]
grind_pattern referenceUpdate_mem => (referenceUpdate now offset s).mem

@[simp] theorem referenceLost_mem (now : Nat) : (referenceLost now s).mem = s.mem := by grind [referenceLost]
grind_pattern referenceLost_mem => (referenceLost now s).mem

@[simp] theorem overrun_mem (cls n : Nat) : (overrun cls n s).mem = s.mem := by grind [overrun]
grind_pattern overrun_mem => (overrun cls n s).mem

@[simp] theorem otherPtp_mem (port : Nat) : (otherPtp port s).mem = s.mem := by grind [otherPtp]
grind_pattern otherPtp_mem => (otherPtp port s).mem

@[simp] theorem takeMark_mem (e : Nat × Mark) : (takeMark s e).mem = s.mem := by grind [takeMark]
grind_pattern takeMark_mem => (takeMark s e).mem

@[simp] theorem takeMarks_mem : (takeMarks s).mem = s.mem := by grind [takeMarks]
grind_pattern takeMarks_mem => (takeMarks s).mem

@[simp] theorem strokeBoundary_mem (now : Nat) : (strokeBoundary now s).mem = s.mem := by grind [strokeBoundary]
grind_pattern strokeBoundary_mem => (strokeBoundary now s).mem

@[simp] theorem advanceMark_mem (slot : Nat) (m : Mark) : (advanceMark slot m s).mem = s.mem := by grind [advanceMark]
grind_pattern advanceMark_mem => (advanceMark slot m s).mem

@[simp] theorem markRecord_mem (slot status target : Nat) : (markRecord slot status target s).mem = s.mem := by grind [markRecord]
grind_pattern markRecord_mem => (markRecord slot status target s).mem

@[simp] theorem placeCommand_mem (i : Nat) (c : Cmd) : (placeCommand i c s).mem = s.mem := rfl
grind_pattern placeCommand_mem => (placeCommand i c s).mem

@[simp] theorem deliver_mem (m : Mark) (bytes : List Byte) (fn : Fn) : (deliver m bytes fn s).2.mem = s.mem := by grind [deliver]
grind_pattern deliver_mem => (deliver m bytes fn s).2.mem

@[simp] theorem cancelMark_mem (slot : Nat) : (cancelMark slot s).mem = s.mem := rfl
grind_pattern cancelMark_mem => (cancelMark slot s).mem

@[simp] theorem cancelSectorMarks_mem (n : Nat) : (cancelSectorMarks n s).mem = s.mem := by grind [cancelSectorMarks]
grind_pattern cancelSectorMarks_mem => (cancelSectorMarks n s).mem

@[simp] theorem setScrubMark_mem : (setScrubMark s).mem = s.mem := by grind [setScrubMark]
grind_pattern setScrubMark_mem => (setScrubMark s).mem

/-! ### Random -/

grind_pattern setRng_mem => (setRng r s).mem

@[simp] theorem setAnnulus_mem (a : Nat) (x : Annulus) : (setAnnulus a x s).mem = s.mem := rfl
grind_pattern setAnnulus_mem => (setAnnulus a x s).mem

@[simp] theorem noteSource_mem : (noteSource s).mem = s.mem := by grind [noteSource]
grind_pattern noteSource_mem => (noteSource s).mem

grind_pattern setInstance_mem => (setInstance i x s).mem

@[simp] theorem newInstance_mem (i : Nat) (x : Instance) (seed pers : List Byte) : (newInstance i x seed pers s).mem = s.mem := rfl
grind_pattern newInstance_mem => (newInstance i x seed pers s).mem

theorem takeSeed_mem  {x} {t : State} (he : takeSeed s = some (x, t)) : t.mem = s.mem := by grind [takeSeed]
grind_pattern takeSeed_mem => takeSeed s, some (x, t)

@[simp] theorem startInternal_mem (i : Nat) : (startInternal i s).mem = s.mem := by grind [startInternal]
grind_pattern startInternal_mem => (startInternal i s).mem

@[simp] theorem internalRequest_mem (i n : Nat) : (internalRequest i n s).2.mem = s.mem := by
  unfold internalRequest; grind
grind_pattern internalRequest_mem => (internalRequest i n s).2.mem

@[simp] theorem internalDraw_mem (i n a : Nat) : (internalDraw i n a s).2.mem = s.mem := by
  fun_induction internalDraw i n a s <;> grind
grind_pattern internalDraw_mem => (internalDraw i n a s).2.mem

@[simp] theorem internalBytes_mem (i n : Nat) : (internalBytes i n s).2.mem = s.mem := by grind [internalBytes]
grind_pattern internalBytes_mem => (internalBytes i n s).2.mem

@[simp] theorem joinWait_mem (i : Nat) : (joinWait i s).mem = s.mem := by grind [joinWait]
grind_pattern joinWait_mem => (joinWait i s).mem

@[simp] theorem leaveWait_mem (i : Nat) : (leaveWait i s).mem = s.mem := rfl
grind_pattern leaveWait_mem => (leaveWait i s).mem

@[simp] theorem clientReseed_mem (i : Nat) (x : Instance) (add : List Byte) : (clientReseed i x add s).2.mem = s.mem := by grind [clientReseed]
grind_pattern clientReseed_mem => (clientReseed i x add s).2.mem

@[simp] theorem clientGenerate_mem (i n : Nat) (first : Bool) (add : List Byte) : (clientGenerate i n first add s).2.mem = s.mem := by
  grind [clientGenerate]
grind_pattern clientGenerate_mem => (clientGenerate i n first add s).2.mem

@[simp] theorem seedToWaiting_mem : (seedToWaiting s).mem = s.mem := by
  fun_cases seedToWaiting s <;> grind
grind_pattern seedToWaiting_mem => (seedToWaiting s).mem

@[simp] theorem dropInstances_mem (n : Nat) : (dropInstances n s).mem = s.mem := rfl
grind_pattern dropInstances_mem => (dropInstances n s).mem

@[simp] theorem failCapture_mem (a : Nat) : (failCapture a s).mem = s.mem := by grind [failCapture]
grind_pattern failCapture_mem => (failCapture a s).mem

@[simp] theorem actAnnulus_mem (r : Res) (b : Bool) : (actAnnulus r b s).2.mem = s.mem := by grind [actAnnulus]
grind_pattern actAnnulus_mem => (actAnnulus r b s).2.mem

@[simp] theorem sampleLost_mem (a : Nat) : (sampleLost a s).mem = s.mem := by grind [sampleLost]
grind_pattern sampleLost_mem => (sampleLost a s).mem

@[simp] theorem annulusFail_mem (a : Nat) (injected forced : Bool) : (annulusFail a injected forced s).mem = s.mem := by
  grind [annulusFail]
grind_pattern annulusFail_mem => (annulusFail a injected forced s).mem

@[simp] theorem strobeBit_mem (a : Nat) (b : Bool) : (strobeBit a b s).mem = s.mem := by grind [strobeBit]
grind_pattern strobeBit_mem => (strobeBit a b s).mem

@[simp] theorem captureBit_mem (a : Nat) (b : Bool) : (captureBit a b s).mem = s.mem := by grind [captureBit]
grind_pattern captureBit_mem => (captureBit a b s).mem

@[simp] theorem endCapture_mem : (endCapture s).mem = s.mem := by
  unfold endCapture; grind
grind_pattern endCapture_mem => (endCapture s).mem

@[simp] theorem annulusStrobe_mem (a b lost : Nat) : (annulusStrobe a b lost s).mem = s.mem := by grind [annulusStrobe]
grind_pattern annulusStrobe_mem => (annulusStrobe a b lost s).mem

@[simp] theorem rawBlockComplete_mem (a : Nat) : (rawBlockComplete a s).mem = s.mem := by grind [rawBlockComplete]
grind_pattern rawBlockComplete_mem => (rawBlockComplete a s).mem

@[simp] theorem markProbation_mem (a : Nat) (f : Probation → Probation) : (markProbation a f s).mem = s.mem := rfl
grind_pattern markProbation_mem => (markProbation a f s).mem

@[simp] theorem aliveClose_mem (a : Nat) (e : Nat × Nat) : (aliveClose a e s).mem = s.mem := by
  unfold aliveClose; grind
grind_pattern aliveClose_mem => (aliveClose a e s).mem

@[simp] theorem endStartup_mem : (endStartup s).mem = s.mem := by grind [endStartup]
grind_pattern endStartup_mem => (endStartup s).mem

@[simp] theorem lockClose_mem (a : Nat) : (lockClose a s).mem = s.mem := by grind [lockClose]
grind_pattern lockClose_mem => (lockClose a s).mem

@[simp] theorem seedLeaves_mem (katPass : Bool) : (seedLeaves katPass s).mem = s.mem := by grind [seedLeaves]
grind_pattern seedLeaves_mem => (seedLeaves katPass s).mem

@[simp] theorem leaveRaw_mem : (leaveRaw s).mem = s.mem := rfl
grind_pattern leaveRaw_mem => (leaveRaw s).mem

/-! ### Contexts -/

grind_pattern setScl_mem => (setScl x s).mem

@[simp] theorem setCtx_mem (x : Nat) (c : Context) : (setCtx x c s).mem = s.mem := rfl
grind_pattern setCtx_mem => (setCtx x c s).mem

@[simp] theorem discardDescriptors_mem (p : Nat → Bool) : (discardDescriptors p s).mem = s.mem := rfl
grind_pattern discardDescriptors_mem => (discardDescriptors p s).mem

@[simp] theorem killContext_mem (x : Nat) (k : Kill) : (killContext x k s).mem = s.mem := by grind [killContext]
grind_pattern killContext_mem => (killContext x k s).mem

@[simp] theorem noteLaunchEnd_mem (age : Nat) (killed : Bool) : (noteLaunchEnd age killed s).mem = s.mem := by grind [noteLaunchEnd]
grind_pattern noteLaunchEnd_mem => (noteLaunchEnd age killed s).mem

@[simp] theorem removeLaunch_mem (age : Nat) : (removeLaunch age s).mem = s.mem := rfl
grind_pattern removeLaunch_mem => (removeLaunch age s).mem

@[simp] theorem killRecord_mem (x : Nat) (k : Kill) : (killRecord x k s).mem = s.mem := by grind [killRecord]
grind_pattern killRecord_mem => (killRecord x k s).mem

@[simp] theorem killComplete_mem (x : Nat) : (killComplete x s).mem = s.mem := by
  have hends (l : List Nat) : (l.foldl (fun s a => noteLaunchEnd a true (removeLaunch a s)) s).mem = s.mem := foldl_mem (by simp) l s
  unfold killComplete
  split
  · rfl
  split
  · rfl
  · simp [hends]
grind_pattern killComplete_mem => (killComplete x s).mem

@[simp] theorem killOnSculls_mem (p : Nat → Bool) (cause scull : Nat) : (killOnSculls p cause scull s).mem = s.mem := by grind [killOnSculls]
grind_pattern killOnSculls_mem => (killOnSculls p cause scull s).mem

@[simp] theorem launchTimeout_mem (age : Nat) : (launchTimeout age s).mem = s.mem := by grind [launchTimeout]
grind_pattern launchTimeout_mem => (launchTimeout age s).mem

@[simp] theorem releaseBarrier_mem (g : Nat) : (releaseBarrier g s).mem = s.mem := by grind [releaseBarrier]
grind_pattern releaseBarrier_mem => (releaseBarrier g s).mem

@[simp] theorem settleGroup_mem (g elapsed : Nat) : (settleGroup g elapsed s).mem = s.mem := by
  fun_cases settleGroup g elapsed s <;> grind
grind_pattern settleGroup_mem => (settleGroup g elapsed s).mem

/-! ### Retire -/

grind_pattern setPower_mem => (setPower kind i p s).mem

@[simp] theorem scullOffline_mem (j : Nat) : (scullOffline j s).mem = s.mem := by grind [scullOffline]
grind_pattern scullOffline_mem => (scullOffline j s).mem

@[simp] theorem actScull_mem (r : Res) (b : Bool) : (actScull r b s).2.mem = s.mem := by grind [actScull]
grind_pattern actScull_mem => (actScull r b s).2.mem

/-! ### Lattice -/

grind_pattern setLat_mem => (setLat e x s).mem

@[simp] theorem latEnqueue_mem (e : Nat) (i : LatItem) : (latEnqueue e i s).mem = s.mem := rfl
grind_pattern latEnqueue_mem => (latEnqueue e i s).mem

@[simp] theorem domainOf_mem (x : LatEngine) (a : Nat) : (domainOf x a s).2.mem = s.mem := by grind [domainOf]
grind_pattern domainOf_mem => (domainOf x a s).2.mem

@[simp] theorem floodDraw_mem (inst n : Nat) : (floodDraw inst n s).2.mem = s.mem := by
  fun_induction floodDraw inst n s <;> grind
grind_pattern floodDraw_mem => (floodDraw inst n s).2.mem

@[simp] theorem startOp_mem (e : Nat) (o : LatOp) : (startOp e o s).mem = s.mem := rfl
grind_pattern startOp_mem => (startOp e o s).mem

@[simp] theorem moduliItem_mem (e serial first logN : Nat) (entries : List (Nat × Nat)) :
    (moduliItem e serial first logN entries s).mem = s.mem := by
  grind [moduliItem]
grind_pattern moduliItem_mem => (moduliItem e serial first logN entries s).mem

@[simp] theorem dropSuspend_mem (e : Nat) : (dropSuspend e s).mem = s.mem := by grind [dropSuspend]
grind_pattern dropSuspend_mem => (dropSuspend e s).mem

@[simp] theorem latStop_mem (e run queued : Nat) : (latStop e run queued s).mem = s.mem := by grind [latStop]
grind_pattern latStop_mem => (latStop e run queued s).mem

@[simp] theorem addStep_mem (e stall : Nat) (o : LatOp) : (addStep e stall o s).2.mem = s.mem := by grind [addStep]
grind_pattern addStep_mem => (addStep e stall o s).2.mem

/-! ### Rdma -/

grind_pattern setRdma_mem => (setRdma r s).mem
grind_pattern setQp_mem => (setQp k q s).mem
grind_pattern changeQp_mem => (changeQp k f s).mem

@[simp] theorem mirrorWrites_mem (n a k : Nat) (bs : List Byte) : (mirrorWrites n a k bs s).mem = s.mem := by
  fun_induction mirrorWrites n a k bs s <;> grind
grind_pattern mirrorWrites_mem => (mirrorWrites n a k bs s).mem

@[simp] theorem sendFrame_mem (f : RoceFrame) : (sendFrame f s).mem = s.mem := by grind [sendFrame]
grind_pattern sendFrame_mem => (sendFrame f s).mem

@[simp] theorem releaseFrames_mem : (releaseFrames s).mem = s.mem := by grind [releaseFrames]
grind_pattern releaseFrames_mem => (releaseFrames s).mem

@[simp] theorem sendOn_mem (k : Nat) (q : Qp) (p : RocePacket) : (sendOn k q p s).mem = s.mem := by grind [sendOn]
grind_pattern sendOn_mem => (sendOn k q p s).mem

@[simp] theorem flushQp_mem (k : Nat) : (flushQp k s).mem = s.mem := by grind [flushQp]
grind_pattern flushQp_mem => (flushQp k s).mem

@[simp] theorem qpError_mem (k : Nat) : (qpError k s).mem = s.mem := by grind [qpError]
grind_pattern qpError_mem => (qpError k s).mem

@[simp] theorem qpLocalError_mem (k : Nat) : (qpLocalError k s).mem = s.mem := by grind [qpLocalError]
grind_pattern qpLocalError_mem => (qpLocalError k s).mem

@[simp] theorem windowPost_mem (k : Nat) (q : Qp) (x : Post) : (windowPost k q x s).2.mem = s.mem := by
  unfold windowPost; grind
grind_pattern windowPost_mem => (windowPost k q x s).2.mem

@[simp] theorem pump_mem (k n : Nat) : (pump k n s).mem = s.mem := by
  fun_induction pump k n s <;> grind
grind_pattern pump_mem => (pump k n s).mem

@[simp] theorem pumpQp_mem (k : Nat) : (pumpQp k s).mem = s.mem := by grind [pumpQp]
grind_pattern pumpQp_mem => (pumpQp k s).mem

@[simp] theorem pumpSector_mem (n : Nat) : (pumpSector n s).mem = s.mem := by grind [pumpSector]
grind_pattern pumpSector_mem => (pumpSector n s).mem

@[simp] theorem cutRate_mem (k now : Nat) : (cutRate k now s).mem = s.mem := rfl
grind_pattern cutRate_mem => (cutRate k now s).mem

@[simp] theorem risePeriod_mem (qpn now : Nat) : (risePeriod qpn now s).mem = s.mem := by grind [risePeriod]
grind_pattern risePeriod_mem => (risePeriod qpn now s).mem

theorem addKey_mem (n : Nat) (k : RdmaKey) {x} {t : State} (he : addKey n k s = some (x, t)) : t.mem = s.mem := by
  grind [addKey, Option.map_eq_some_iff]
grind_pattern addKey_mem => addKey n k s, some (x, t)

theorem createQp_mem (n : Nat) (q : Qp) {x} {t : State} (he : createQp n q s = some (x, t)) : t.mem = s.mem := by
  grind [createQp, Option.map_eq_some_iff]
grind_pattern createQp_mem => createQp n q s, some (x, t)

@[simp] theorem pumpAll_mem : (pumpAll s).mem = s.mem := by grind [pumpAll]
grind_pattern pumpAll_mem => (pumpAll s).mem

@[simp] theorem freeRdma_mem (n : Nat) : (freeRdma n s).mem = s.mem := rfl
grind_pattern freeRdma_mem => (freeRdma n s).mem

@[simp] theorem invalidateRegions_mem (n : Nat) : (invalidateRegions n s).mem = s.mem := rfl
grind_pattern invalidateRegions_mem => (invalidateRegions n s).mem

/-! ### RdmaPackets -/

@[simp] theorem answer_mem (k psn : Nat) (op : RoceOp) : (answer k psn op s).mem = s.mem := by grind [answer]
grind_pattern answer_mem => (answer k psn op s).mem

@[simp] theorem sendNak_mem (k psn code : Nat) : (sendNak k psn code s).mem = s.mem := by grind [sendNak]
grind_pattern sendNak_mem => (sendNak k psn code s).mem

@[simp] theorem sendRnr_mem (k psn : Nat) : (sendRnr k psn s).mem = s.mem := by grind [sendRnr]
grind_pattern sendRnr_mem => (sendRnr k psn s).mem

@[simp] theorem noteCe_mem (k : Nat) (p : RocePacket) (now : Nat) : (noteCe k p now s).mem = s.mem := by grind [noteCe]
grind_pattern noteCe_mem => (noteCe k p now s).mem

@[simp] theorem dropPacketIn_mem : (dropPacketIn s).mem = s.mem := by grind [dropPacketIn]
grind_pattern dropPacketIn_mem => (dropPacketIn s).mem

@[simp] theorem dupAck_mem (k : Nat) (q : Qp) : (dupAck k q s).mem = s.mem := by grind [dupAck]
grind_pattern dupAck_mem => (dupAck k q s).mem

@[simp] theorem endReceive_mem (k status r0 r1 : Nat) : (endReceive k status r0 r1 s).mem = s.mem := by grind [endReceive]
grind_pattern endReceive_mem => (endReceive k status r0 r1 s).mem

@[simp] theorem readResponses_mem (k psn mtu : Nat) (bs : List Byte) : (readResponses k psn mtu bs s).mem = s.mem := by grind [readResponses]
grind_pattern readResponses_mem => (readResponses k psn mtu bs s).mem

@[simp] theorem atomicDup_mem (p : RocePacket) (k : Nat) (q : Qp) : (atomicDup p k q s).mem = s.mem := by grind [atomicDup]
grind_pattern atomicDup_mem => (atomicDup p k q s).mem

@[simp] theorem ackUpTo_mem (k psn : Nat) : (ackUpTo k psn s).mem = s.mem := by grind [ackUpTo]
grind_pattern ackUpTo_mem => (ackUpTo k psn s).mem

@[simp] theorem failOldest_mem (k status syn : Nat) : (failOldest k status syn s).mem = s.mem := by grind [failOldest]
grind_pattern failOldest_mem => (failOldest k status syn s).mem

@[simp] theorem endPost_mem (k : Nat) (x : Post) (status r0 r1 : Nat) : (endPost k x status r0 r1 s).mem = s.mem := by grind [endPost]
grind_pattern endPost_mem => (endPost k x status r0 r1 s).mem

@[simp] theorem resendFrom_mem (k psn : Nat) : (resendFrom k psn s).mem = s.mem := by
  unfold resendFrom; grind
grind_pattern resendFrom_mem => (resendFrom k psn s).mem

@[simp] theorem retry_mem (k psn : Nat) : (retry k psn s).mem = s.mem := by grind [retry]
grind_pattern retry_mem => (retry k psn s).mem

@[simp] theorem roceNak_mem (p : RocePacket) (code k : Nat) : (roceNak p code k s).mem = s.mem := by grind [roceNak]
grind_pattern roceNak_mem => (roceNak p code k s).mem

@[simp] theorem rnrNak_mem (p : RocePacket) (k : Nat) : (rnrNak p k s).mem = s.mem := by grind [rnrNak]
grind_pattern rnrNak_mem => (rnrNak p k s).mem

@[simp] theorem rnrTimer_mem (qpn : Nat) : (rnrTimer qpn s).mem = s.mem := by
  unfold rnrTimer; grind
grind_pattern rnrTimer_mem => (rnrTimer qpn s).mem

@[simp] theorem ackTimeout_mem (qpn now : Nat) : (ackTimeout qpn now s).mem = s.mem := by
  unfold ackTimeout; grind
grind_pattern ackTimeout_mem => (ackTimeout qpn now s).mem

@[simp] theorem heatReplySend_mem (k : Nat) (imm : Option Nat) (bs : List Byte) : (heatReplySend k imm bs s).mem = s.mem := by
  grind [heatReplySend]
grind_pattern heatReplySend_mem => (heatReplySend k imm bs s).mem

/-! ### Chord -/

grind_pattern setChord_mem => (setChord x s).mem
grind_pattern setLink_mem => (setLink c l s).mem

@[simp] theorem enterLink_mem (c : Nat) (st : LinkState) : (enterLink c st s).mem = s.mem := by grind [enterLink]
grind_pattern enterLink_mem => (enterLink c st s).mem

@[simp] theorem emitFlit_mem (c kind number : Nat) (payload : List Byte) (marks : List Nat) :
    (emitFlit c kind number payload marks s).mem = s.mem := rfl
grind_pattern emitFlit_mem => (emitFlit c kind number payload marks s).mem

@[simp] theorem pushData_mem (c n : Nat) : (pushData c n s).mem = s.mem := by
  fun_induction pushData c n s <;> grind
grind_pattern pushData_mem => (pushData c n s).mem

@[simp] theorem pushLink_mem (c : Nat) : (pushLink c s).mem = s.mem := by grind [pushLink]
grind_pattern pushLink_mem => (pushLink c s).mem

@[simp] theorem resendLink_mem (c : Nat) : (resendLink c s).mem = s.mem := by grind [resendLink]
grind_pattern resendLink_mem => (resendLink c s).mem

@[simp] theorem putPacket_mem (c : Nat) (p : Packet) : (putPacket c p s).mem = s.mem := by grind [putPacket]
grind_pattern putPacket_mem => (putPacket c p s).mem

theorem sendPacket_mem (p : Packet) {x} {t : State} (he : sendPacket p s = some (x, t)) : t.mem = s.mem := by
  grind [sendPacket, Option.map_eq_some_iff]
grind_pattern sendPacket_mem => sendPacket p s, some (x, t)

@[simp] theorem sysSend_mem (viaPair : Bool) (dest : Nat) (m : SysMsg) : (sysSend viaPair dest m s).mem = s.mem := by grind [sysSend]
grind_pattern sysSend_mem => (sysSend viaPair dest m s).mem

@[simp] theorem retrySys_mem : (retrySys s).mem = s.mem := by grind [retrySys]
grind_pattern retrySys_mem => (retrySys s).mem

@[simp] theorem linkDown_mem (c cause : Nat) (injected : Bool) : (linkDown c cause injected s).mem = s.mem := by grind [linkDown]
grind_pattern linkDown_mem => (linkDown c cause injected s).mem

@[simp] theorem linkTrain_mem (c : Nat) : (linkTrain c s).mem = s.mem := by grind [linkTrain]
grind_pattern linkTrain_mem => (linkTrain c s).mem

@[simp] theorem switchMode_mem (c : Nat) (pair : Bool) : (switchMode c pair s).mem = s.mem := by grind [switchMode]
grind_pattern switchMode_mem => (switchMode c pair s).mem

@[simp] theorem linkRetrain_mem (c : Nat) : (linkRetrain c s).mem = s.mem := by grind [linkRetrain]
grind_pattern linkRetrain_mem => (linkRetrain c s).mem

@[simp] theorem actChordLane_mem (r : Res) (b : Bool) : (actChordLane r b s).2.mem = s.mem := by grind [actChordLane]
grind_pattern actChordLane_mem => (actChordLane r b s).2.mem

@[simp] theorem laneError_mem (c lane : Nat) : (laneError c lane s).mem = s.mem := by grind [laneError]
grind_pattern laneError_mem => (laneError c lane s).mem

@[simp] theorem reachIdent_mem (c : Nat) : (reachIdent c s).mem = s.mem := by grind [reachIdent]
grind_pattern reachIdent_mem => (reachIdent c s).mem

@[simp] theorem linkTrainingComplete_mem (c failed : Nat) : (linkTrainingComplete c failed s).mem = s.mem := by grind [linkTrainingComplete]
grind_pattern linkTrainingComplete_mem => (linkTrainingComplete c failed s).mem

@[simp] theorem linkIdent_mem (c : Nat) (i : IdentInfo) : (linkIdent c i s).mem = s.mem := by grind [linkIdent]
grind_pattern linkIdent_mem => (linkIdent c i s).mem

@[simp] theorem noteAck_mem (c : Nat) (flit : List Byte) : (noteAck c flit s).mem = s.mem := by grind [noteAck]
grind_pattern noteAck_mem => (noteAck c flit s).mem

@[simp] theorem sendFlitNak_mem (c : Nat) : (sendFlitNak c s).mem = s.mem := by grind [sendFlitNak]
grind_pattern sendFlitNak_mem => (sendFlitNak c s).mem

@[simp] theorem dataFlit_mem (c : Nat) (flit : List Byte) : (dataFlit c flit s).mem = s.mem := by grind [dataFlit]
grind_pattern dataFlit_mem => (dataFlit c flit s).mem

theorem otherFlit_mem (c kind : Nat) (flit : List Byte) {x} {t : State} (he : otherFlit c kind flit s = some (x, t)) : t.mem = s.mem := by
  grind [otherFlit, Option.map_eq_some_iff]
grind_pattern otherFlit_mem => otherFlit c kind flit s, some (x, t)

@[simp] theorem nakFlit_mem (c : Nat) (flit : List Byte) : (nakFlit c flit s).mem = s.mem := by grind [nakFlit]
grind_pattern nakFlit_mem => (nakFlit c flit s).mem

theorem takePacket_mem (c typ : Nat) (poison : List Nat) {x} {t : State} (he : takePacket c typ poison s = some (x, t)) : t.mem = s.mem := by
  grind [takePacket]
grind_pattern takePacket_mem => takePacket c typ poison s, some (x, t)

@[simp] theorem forwardPacket_mem (p : Packet) : (forwardPacket p s).mem = s.mem := by grind [forwardPacket]
grind_pattern forwardPacket_mem => (forwardPacket p s).mem

/-! ### Transfers -/

grind_pattern setTransfer_mem => (setTransfer k t s).mem
grind_pattern setFold_mem => (setFold k f s).mem

@[simp] theorem settleTransfer_mem (k : Nat) : (settleTransfer k s).mem = s.mem := by grind [settleTransfer]
grind_pattern settleTransfer_mem => (settleTransfer k s).mem

@[simp] theorem answerPacket_mem (p : Packet) (typ status : Nat) (payload : List Byte) : (answerPacket p typ status payload s).mem = s.mem := by
  grind [answerPacket]
grind_pattern answerPacket_mem => (answerPacket p typ status payload s).mem

@[simp] theorem ackPacket_mem (p : Packet) : (ackPacket p s).mem = s.mem := by grind [ackPacket]
grind_pattern ackPacket_mem => (ackPacket p s).mem

@[simp] theorem refusePacket_mem (p : Packet) (status : Nat) : (refusePacket p status s).mem = s.mem := by grind [refusePacket]
grind_pattern refusePacket_mem => (refusePacket p status s).mem

@[simp] theorem noteApplied_mem (p : Packet) : (noteApplied p s).mem = s.mem := rfl
grind_pattern noteApplied_mem => (noteApplied p s).mem

@[simp] theorem endFold_mem (k : Nat) (f : Fold) (status : Nat) : (endFold k f status s).mem = s.mem := rfl
grind_pattern endFold_mem => (endFold k f status s).mem

@[simp] theorem settleFold_mem (k : Nat) : (settleFold k s).mem = s.mem := by grind [settleFold]
grind_pattern settleFold_mem => (settleFold k s).mem

@[simp] theorem foldSend_mem (k : Nat) (p : Packet) : (foldSend k p s).mem = s.mem := by
  unfold foldSend; grind
grind_pattern foldSend_mem => (foldSend k p s).mem

@[simp] theorem ackArrives_mem (p : Packet) : (ackArrives p s).mem = s.mem := by grind [ackArrives]
grind_pattern ackArrives_mem => (ackArrives p s).mem

@[simp] theorem refuseArrives_mem (p : Packet) : (refuseArrives p s).mem = s.mem := by grind [refuseArrives]
grind_pattern refuseArrives_mem => (refuseArrives p s).mem

/-! ### HeatSlot -/

grind_pattern setSlot_mem => (setSlot k h s).mem
grind_pattern changeSlot_mem => (changeSlot k f s).mem

@[simp] theorem heatPhase_mem (k phase : Nat) : (heatPhase k phase s).mem = s.mem := by grind [heatPhase]
grind_pattern heatPhase_mem => (heatPhase k phase s).mem

@[simp] theorem taintSlot_mem (k line : Nat) (hsn : Option Nat) : (taintSlot k line hsn s).mem = s.mem := by unfold taintSlot; grind
grind_pattern taintSlot_mem => (taintSlot k line hsn s).mem

@[simp] theorem heatSend_mem (h : HeatSlot) (home : Nat) (m : HeatMsg) : (heatSend h home m s).mem = s.mem := by grind [heatSend]
grind_pattern heatSend_mem => (heatSend h home m s).mem

@[simp] theorem heatTell_mem (h : HeatSlot) (m : HeatMsg) : (heatTell h m s).mem = s.mem := by grind [heatTell]
grind_pattern heatTell_mem => (heatTell h m s).mem

/-! ### HeatApply -/

@[simp] theorem mirrorItem_mem (k : Nat) (item : Nat → Nat → SysMsg) : (mirrorItem k item s).2.mem = s.mem := by grind [mirrorItem]
grind_pattern mirrorItem_mem => (mirrorItem k item s).2.mem

@[simp] theorem vectorCommit_mem (k : Nat) : (vectorCommit k s).mem = s.mem := by grind [vectorCommit]
grind_pattern vectorCommit_mem => (vectorCommit k s).mem

@[simp] theorem mirrorChanges_mem (s' : State) : (mirrorChanges s s').mem = s'.mem := by grind [mirrorChanges]
grind_pattern mirrorChanges_mem => (mirrorChanges s s').mem

/-! ### HeatClose -/

@[simp] theorem actExpander_mem (r : Res) (b : Bool) : (actExpander r b s).2.mem = s.mem := rfl
grind_pattern actExpander_mem => (actExpander r b s).2.mem

@[simp] theorem retryTree_mem : (retryTree s).mem = s.mem := by grind [retryTree]
grind_pattern retryTree_mem => (retryTree s).mem

@[simp] theorem sendCheckpoint_mem (k : Nat) : (sendCheckpoint k s).mem = s.mem := by grind [sendCheckpoint]
grind_pattern sendCheckpoint_mem => (sendCheckpoint k s).mem

@[simp] theorem takeEngine_mem (e : Nat) (h : HeatSlot) : (takeEngine e h s).mem = s.mem := rfl
grind_pattern takeEngine_mem => (takeEngine e h s).mem

/-! ### HeatPhase -/

@[simp] theorem setDeadlineMark_mem : (setDeadlineMark s).mem = s.mem := by grind [setDeadlineMark]
grind_pattern setDeadlineMark_mem => (setDeadlineMark s).mem

@[simp] theorem setCheckpointMark_mem : (setCheckpointMark s).mem = s.mem := by grind [setCheckpointMark]
grind_pattern setCheckpointMark_mem => (setCheckpointMark s).mem

@[simp] theorem sendReport_mem (k ph members : Nat) (ok : Bool) : (sendReport k ph members ok s).mem = s.mem := by grind [sendReport]
grind_pattern sendReport_mem => (sendReport k ph members ok s).mem

@[simp] theorem sendBits_mem (k ph home : Nat) : (sendBits k ph home s).mem = s.mem := by grind [sendBits]
grind_pattern sendBits_mem => (sendBits k ph home s).mem

@[simp] theorem sendShares_mem (k : Nat) (home : Nat × Nat × Nat) : (sendShares k home s).mem = s.mem := by grind [sendShares]
grind_pattern sendShares_mem => (sendShares k home s).mem

@[simp] theorem sendReveals_mem (k : Nat) (home : Nat × Nat × Nat) : (sendReveals k home s).mem = s.mem := by grind [sendReveals]
grind_pattern sendReveals_mem => (sendReveals k home s).mem

@[simp] theorem sendKeys_mem (k home : Nat) : (sendKeys k home s).mem = s.mem := by grind [sendKeys]
grind_pattern sendKeys_mem => (sendKeys k home s).mem

theorem forHomes_mem (k : Nat) (f : Nat × Nat × Nat → State → State) (hf : ∀ x t, (f x t).mem = t.mem) : (forHomes k f s).mem = s.mem := by
  grind [forHomes]
grind_pattern forHomes_mem => (forHomes k f s).mem

@[simp] theorem noteEnding_mem (k ph stage : Nat) : (noteEnding k ph stage s).mem = s.mem := rfl
grind_pattern noteEnding_mem => (noteEnding k ph stage s).mem

@[simp] theorem dropEnding_mem (k ph : Nat) : (dropEnding k ph s).mem = s.mem := rfl
grind_pattern dropEnding_mem => (dropEnding k ph s).mem

@[simp] theorem endingWork_mem (k ph stage : Nat) : (endingWork k ph stage s).mem = s.mem := by grind [endingWork]
grind_pattern endingWork_mem => (endingWork k ph stage s).mem

@[simp] theorem tryVerdict_mem (k ph : Nat) : (tryVerdict k ph s).mem = s.mem := by grind [tryVerdict]
grind_pattern tryVerdict_mem => (tryVerdict k ph s).mem

@[simp] theorem graphWork_mem (k : Nat) : (graphWork k s).mem = s.mem := by grind [graphWork]
grind_pattern graphWork_mem => (graphWork k s).mem

@[simp] theorem handSlots_mem : (handSlots s).mem = s.mem := by grind [handSlots]
grind_pattern handSlots_mem => (handSlots s).mem

/-! ### HeatIngress -/

@[simp] theorem heatReply_mem (q : Nat) (queue : Bool) (hd : HeatHeader) (status : Nat) (imm : Option Nat) (kEd plain : List Byte) :
    (heatReply q queue hd status imm kEd plain s).mem = s.mem := by
  grind [heatReply]
grind_pattern heatReply_mem => (heatReply q queue hd status imm kEd plain s).mem

@[simp] theorem sendWaiting_mem (q n : Nat) : (sendWaiting q n s).mem = s.mem := by
  fun_induction sendWaiting q n s <;> grind
grind_pattern sendWaiting_mem => (sendWaiting q n s).mem

/-! ### HeatTaint -/

@[simp] theorem recount_mem (k : Nat) : (recount k s).mem = s.mem := rfl
grind_pattern recount_mem => (recount k s).mem

/-! ### Seal -/

grind_pattern setSealing_mem => (setSealing x s).mem

@[simp] theorem makeReport_mem (nonce user : List Byte) : (makeReport nonce user s).2.mem = s.mem := by
  fun_cases makeReport nonce user s <;> grind
grind_pattern makeReport_mem => (makeReport nonce user s).2.mem

@[simp] theorem endSession_mem (n : Nat) : (endSession n s).mem = s.mem := rfl
grind_pattern endSession_mem => (endSession n s).mem

/-! ### Spdm -/

grind_pattern setMailbox_mem => (setMailbox p m s).mem
grind_pattern setSession_mem => (setSession p x s).mem

@[simp] theorem answerVersion_mem (p : Nat) (m : List Byte) : (answerVersion p m s).2.mem = s.mem := rfl
grind_pattern answerVersion_mem => (answerVersion p m s).2.mem

@[simp] theorem answerCapabilities_mem (p : Nat) (m : List Byte) : (answerCapabilities p m s).2.mem = s.mem := by grind [answerCapabilities]
grind_pattern answerCapabilities_mem => (answerCapabilities p m s).2.mem

@[simp] theorem answerAlgorithms_mem (p : Nat) (m : List Byte) : (answerAlgorithms p m s).2.mem = s.mem := by grind [answerAlgorithms]
grind_pattern answerAlgorithms_mem => (answerAlgorithms p m s).2.mem

@[simp] theorem noteCerts_mem (p : Nat) (m r : List Byte) : (noteCerts p m r s).mem = s.mem := rfl
grind_pattern noteCerts_mem => (noteCerts p m r s).mem

@[simp] theorem answerDigests_mem (p : Nat) (m : List Byte) : (answerDigests p m s).2.mem = s.mem := rfl
grind_pattern answerDigests_mem => (answerDigests p m s).2.mem

@[simp] theorem answerCertificate_mem (p : Nat) (m : List Byte) : (answerCertificate p m s).2.mem = s.mem := by grind [answerCertificate]
grind_pattern answerCertificate_mem => (answerCertificate p m s).2.mem

@[simp] theorem answerChallenge_mem (p : Nat) (m : List Byte) : (answerChallenge p m s).2.mem = s.mem := by grind [answerChallenge]
grind_pattern answerChallenge_mem => (answerChallenge p m s).2.mem

@[simp] theorem answerMeasurements_mem (p : Nat) (m : List Byte) : (answerMeasurements p m s).2.mem = s.mem := by grind [answerMeasurements]
grind_pattern answerMeasurements_mem => (answerMeasurements p m s).2.mem

@[simp] theorem answerKeyExchange_mem (p : Nat) (m : List Byte) : (answerKeyExchange p m s).2.mem = s.mem := by grind [answerKeyExchange]
grind_pattern answerKeyExchange_mem => (answerKeyExchange p m s).2.mem

@[simp] theorem answerFinish_mem (p : Nat) (x : Session) (m : List Byte) : (answerFinish p x m s).2.mem = s.mem := by grind [answerFinish]
grind_pattern answerFinish_mem => (answerFinish p x m s).2.mem

@[simp] theorem answerHeartbeat_mem : (answerHeartbeat s).2.mem = s.mem := rfl
grind_pattern answerHeartbeat_mem => (answerHeartbeat s).2.mem

@[simp] theorem answerKeyUpdate_mem (p : Nat) (x : Session) (m : List Byte) : (answerKeyUpdate p x m s).2.mem = s.mem := by
  grind [answerKeyUpdate]
grind_pattern answerKeyUpdate_mem => (answerKeyUpdate p x m s).2.mem

@[simp] theorem answerEndSession_mem (p : Nat) : (answerEndSession p s).2.mem = s.mem := by grind [answerEndSession]
grind_pattern answerEndSession_mem => (answerEndSession p s).2.mem

@[simp] theorem answerKemKey_mem (p : Nat) (x : Session) : (answerKemKey p x s).2.mem = s.mem := by grind [answerKemKey]
grind_pattern answerKemKey_mem => (answerKemKey p x s).2.mem

@[simp] theorem answerKemCipher_mem (p : Nat) (x : Session) (body : List Byte) : (answerKemCipher p x body s).2.mem = s.mem := by
  grind [answerKemCipher]
grind_pattern answerKemCipher_mem => (answerKemCipher p x body s).2.mem

@[simp] theorem vendorDone_mem (c : Cmd) (status r0 r1 : Nat) (more : List Byte) : (vendorDone c status r0 r1 more s).2.mem = s.mem := rfl
grind_pattern vendorDone_mem => (vendorDone c status r0 r1 more s).2.mem

@[simp] theorem answerMldsa_mem (body : List Byte) : (answerMldsa body s).2.mem = s.mem := rfl
grind_pattern answerMldsa_mem => (answerMldsa body s).2.mem

@[simp] theorem answerIde_mem (payload : List Byte) : (answerIde payload s).2.mem = s.mem := by grind [answerIde]
grind_pattern answerIde_mem => (answerIde payload s).2.mem

@[simp] theorem answerChunkGet_mem (p : Nat) (x : Option Session) (m : List Byte) : (answerChunkGet p x m s).2.mem = s.mem := by
  grind [answerChunkGet]
grind_pattern answerChunkGet_mem => (answerChunkGet p x m s).2.mem

@[simp] theorem placeResponse_mem (p : Nat) (r : List Byte) : (placeResponse p r s).mem = s.mem := by grind [placeResponse]
grind_pattern placeResponse_mem => (placeResponse p r s).mem

@[simp] theorem secureResponse_mem (p : Nat) (x : Session) (r : List Byte) : (secureResponse p x r s).2.mem = s.mem := by grind [secureResponse]
grind_pattern secureResponse_mem => (secureResponse p x r s).2.mem

@[simp] theorem largeResponse_mem (p : Nat) (secured : Bool) (r : List Byte) : (largeResponse p secured r s).2.mem = s.mem := by
  grind [largeResponse]
grind_pattern largeResponse_mem => (largeResponse p secured r s).2.mem

/-! ### Ports -/

grind_pattern setEth_mem => (setEth e p s).mem

@[simp] theorem sendPfc_mem (e sub cls quanta : Nat) : (sendPfc e sub cls quanta s).mem = s.mem := by grind [sendPfc]
grind_pattern sendPfc_mem => (sendPfc e sub cls quanta s).mem

@[simp] theorem subportUp_mem (e sub : Nat) : (subportUp e sub s).mem = s.mem := by grind [subportUp]
grind_pattern subportUp_mem => (subportUp e sub s).mem

@[simp] theorem subportDown_mem (e sub : Nat) : (subportDown e sub s).mem = s.mem := by grind [subportDown]
grind_pattern subportDown_mem => (subportDown e sub s).mem

@[simp] theorem writePortCfg_mem (e v : Nat) : (writePortCfg e v s).mem = s.mem := by grind [writePortCfg]
grind_pattern writePortCfg_mem => (writePortCfg e v s).mem

@[simp] theorem pfcFrame_mem (e sub classes times : Nat) : (pfcFrame e sub classes times s).mem = s.mem := by grind [pfcFrame]
grind_pattern pfcFrame_mem => (pfcFrame e sub classes times s).mem

@[simp] theorem holdBytes_mem (e sub cls bytes : Nat) : (holdBytes e sub cls bytes s).mem = s.mem := by grind [holdBytes]
grind_pattern holdBytes_mem => (holdBytes e sub cls bytes s).mem

@[simp] theorem otherFrame_mem (e sub : Nat) (accepted : Bool) (cls bytes : Nat) : (otherFrame e sub accepted cls bytes s).mem = s.mem := by
  grind [otherFrame]
grind_pattern otherFrame_mem => (otherFrame e sub accepted cls bytes s).mem

@[simp] theorem pfcXon_mem (e sub cls : Nat) : (pfcXon e sub cls s).mem = s.mem := by grind [pfcXon]
grind_pattern pfcXon_mem => (pfcXon e sub cls s).mem

@[simp] theorem msixUnmask_mem (f : Fn) (vector : Option Nat) : (msixUnmask f vector s).mem = s.mem := by unfold msixUnmask; grind
grind_pattern msixUnmask_mem => (msixUnmask f vector s).mem

/-! ### Mover -/

@[simp] theorem setCxl_mem (p : Nat) (x : CxlPort) : (setCxl p x s).mem = s.mem := by grind [setCxl]
grind_pattern setCxl_mem => (setCxl p x s).mem

@[simp] theorem changeHead_mem (f : Mover → Mover) : (changeHead f s).mem = s.mem := by grind [changeHead]
grind_pattern changeHead_mem => (changeHead f s).mem

@[simp] theorem endHead_mem (status r0 r1 : Nat) : (endHead status r0 r1 s).mem = s.mem := by grind [endHead]
grind_pattern endHead_mem => (endHead status r0 r1 s).mem

@[simp] theorem injectFar_mem (base : Nat) : (injectFar base s).2.mem = s.mem :=
  foldl_snd_mem (fun _ e => foldl_mem (fun _ _ => fireSlot_mem e.1) _ _) _ _
grind_pattern injectFar_mem => (injectFar base s).2.mem

@[simp] theorem notePartial_mem : (notePartial s).mem = s.mem := by grind [notePartial]
grind_pattern notePartial_mem => (notePartial s).mem

/-! ### Quiesce -/

grind_pattern setHeld_mem => (setHeld n mask s).mem

/-! ### Pair -/

grind_pattern setPair_mem => (setPair p s).mem

@[simp] theorem enterPair_mem (st : PairState) : (enterPair st s).mem = s.mem := by grind [enterPair]
grind_pattern enterPair_mem => (enterPair st s).mem

@[simp] theorem driveFence_mem (on : Bool) : (driveFence on s).mem = s.mem := rfl
grind_pattern driveFence_mem => (driveFence on s).mem

@[simp] theorem dropMoves_mem : (dropMoves s).mem = s.mem := by grind [dropMoves]
grind_pattern dropMoves_mem => (dropMoves s).mem

@[simp] theorem copySlot_mem (k : Nat) : (copySlot k s).mem = s.mem := by grind [copySlot]
grind_pattern copySlot_mem => (copySlot k s).mem

@[simp] theorem resync_mem : (resync s).mem = s.mem := by grind [resync]
grind_pattern resync_mem => (resync s).mem

@[simp] theorem relink_mem : (relink s).mem = s.mem := by grind [relink]
grind_pattern relink_mem => (relink s).mem

@[simp] theorem applySubstitution_mem (failed succ heat : Nat) : (applySubstitution failed succ heat s).mem = s.mem := by
  grind [applySubstitution]
grind_pattern applySubstitution_mem => (applySubstitution failed succ heat s).mem

@[simp] theorem substitute_mem (failed heat : Nat) : (substitute failed heat s).mem = s.mem := by grind [substitute]
grind_pattern substitute_mem => (substitute failed heat s).mem

@[simp] theorem takeoverRecord_mem (failed cond k : Nat) : (takeoverRecord failed cond k s).mem = s.mem := by grind [takeoverRecord]
grind_pattern takeoverRecord_mem => (takeoverRecord failed cond k s).mem

@[simp] theorem sendHeartbeat_mem (st : Nat) : (sendHeartbeat st s).mem = s.mem := by grind [sendHeartbeat]
grind_pattern sendHeartbeat_mem => (sendHeartbeat st s).mem

@[simp] theorem pairBoundary_mem : (pairBoundary s).mem = s.mem := by grind [pairBoundary]
grind_pattern pairBoundary_mem => (pairBoundary s).mem

@[simp] theorem startHandover_mem (ks : List Nat) (serial : Nat) : (startHandover ks serial s).mem = s.mem := by grind [startHandover]
grind_pattern startHandover_mem => (startHandover ks serial s).mem

@[simp] theorem countMove_mem (serial : Nat) : (countMove serial s).mem = s.mem := rfl
grind_pattern countMove_mem => (countMove serial s).mem

@[simp] theorem endMoves_mem : (endMoves s).mem = s.mem := by grind [endMoves]
grind_pattern endMoves_mem => (endMoves s).mem

/-! ### Power -/

grind_pattern setRst_mem => (setRst r s).mem
grind_pattern setSct_mem => (setSct c s).mem

@[simp] theorem startMove_mem (kind i : Nat) (goal : Power) : (startMove kind i goal s).mem = s.mem := by grind [startMove]
grind_pattern startMove_mem => (startMove kind i goal s).mem

@[simp] theorem kickMoves_mem : (kickMoves s).mem = s.mem := rfl
grind_pattern kickMoves_mem => (kickMoves s).mem

@[simp] theorem endSectorCmd_mem (status r0 r1 : Nat) : (endSectorCmd status r0 r1 s).mem = s.mem := by grind [endSectorCmd]
grind_pattern endSectorCmd_mem => (endSectorCmd status r0 r1 s).mem

@[simp] theorem powerDone_mem : (powerDone s).mem = s.mem := by grind [powerDone]
grind_pattern powerDone_mem => (powerDone s).mem

/-! ### SectorReset -/

@[simp] theorem disableRings_mem (n : Nat) : (disableRings n s).mem = s.mem := by grind [disableRings]
grind_pattern disableRings_mem => (disableRings n s).mem

@[simp] theorem stopEngines_mem (n : Nat) : (stopEngines n s).mem = s.mem := by grind [stopEngines]
grind_pattern stopEngines_mem => (stopEngines n s).mem

@[simp] theorem dropTraffic_mem (n : Nat) : (dropTraffic n s).mem = s.mem := by grind [dropTraffic]
grind_pattern dropTraffic_mem => (dropTraffic n s).mem

/-! ### Sectors -/

@[simp] theorem setSector_mem (n : Nat) (x : Sector) : (setSector n x s).mem = s.mem := rfl
grind_pattern setSector_mem => (setSector n x s).mem

@[simp] theorem changeCmd_mem (f : SectorCmd → SectorCmd) : (changeCmd f s).mem = s.mem := rfl
grind_pattern changeCmd_mem => (changeCmd f s).mem

@[simp] theorem giveOne_mem (kind dst i : Nat) : (giveOne kind dst i s).mem = s.mem := by unfold giveOne; grind
grind_pattern giveOne_mem => (giveOne kind dst i s).mem

@[simp] theorem addQuota_mem (kind n : Nat) (f : Nat → Nat) : (addQuota kind n f s).mem = s.mem := by grind [addQuota]
grind_pattern addQuota_mem => (addQuota kind n f s).mem

@[simp] theorem assignMove_mem (m : Move) : (assignMove s m).mem = s.mem := by grind [assignMove]
grind_pattern assignMove_mem => (assignMove s m).mem

@[simp] theorem trimPools_mem : (trimPools s).mem = s.mem := rfl
grind_pattern trimPools_mem => (trimPools s).mem

/-! ### Boot -/

@[simp] theorem haltBoot_mem (code : Nat) : (haltBoot code s).mem = s.mem := rfl
grind_pattern haltBoot_mem => (haltBoot code s).mem

@[simp] theorem runImage_mem (bs : List Byte) : (runImage bs s).mem = s.mem := rfl
grind_pattern runImage_mem => (runImage bs s).mem

@[simp] theorem bootSlot_mem (b : Bool) : (bootSlot b s).mem = s.mem := by grind [bootSlot]
grind_pattern bootSlot_mem => (bootSlot b s).mem

@[simp] theorem fallBack_mem (code : Nat) : (fallBack code s).mem = s.mem := by grind [fallBack]
grind_pattern fallBack_mem => (fallBack code s).mem

@[simp] theorem selectImage_mem : (selectImage s).mem = s.mem := by grind [selectImage]
grind_pattern selectImage_mem => (selectImage s).mem

@[simp] theorem senseFuses_mem : (senseFuses s).mem = s.mem := by grind [senseFuses]
grind_pattern senseFuses_mem => (senseFuses s).mem

@[simp] theorem sealBoot_mem (cold : Bool) : (sealBoot cold s).mem = s.mem := by grind [sealBoot]
grind_pattern sealBoot_mem => (sealBoot cold s).mem

@[simp] theorem beginScrub_mem (hbm : Nat) : (beginScrub hbm s).mem = s.mem := by grind [beginScrub]
grind_pattern beginScrub_mem => (beginScrub hbm s).mem

@[simp] theorem restoreEntry_mem (e : Retired) : (restoreEntry s e).mem = s.mem := by grind [restoreEntry]
grind_pattern restoreEntry_mem => (restoreEntry s e).mem

@[simp] theorem restoreList_mem (hbm : Nat) : (restoreList hbm s).mem = s.mem := by grind [restoreList]
grind_pattern restoreList_mem => (restoreList hbm s).mem

@[simp] theorem coldPower_mem : (coldPower s).mem = s.mem := rfl
grind_pattern coldPower_mem => (coldPower s).mem

@[simp] theorem fillSeeds_mem (n : Nat) : (fillSeeds n s).mem = s.mem := by
  fun_induction fillSeeds n s <;> grind
grind_pattern fillSeeds_mem => (fillSeeds n s).mem

@[simp] theorem sourceUp_mem : (sourceUp s).mem = s.mem := by grind [sourceUp]
grind_pattern sourceUp_mem => (sourceUp s).mem

@[simp] theorem startInstances_mem : (startInstances s).mem = s.mem := by grind [startInstances]
grind_pattern startInstances_mem => (startInstances s).mem

@[simp] theorem bootKeys_mem (draw : List Byte) : (bootKeys draw s).mem = s.mem := rfl
grind_pattern bootKeys_mem => (bootKeys draw s).mem

@[simp] theorem rerunTests_mem : (rerunTests s).mem = s.mem := by grind [rerunTests]
grind_pattern rerunTests_mem => (rerunTests s).mem

@[simp] theorem flushCopies_mem : (flushCopies s).mem = s.mem := by grind [flushCopies]
grind_pattern flushCopies_mem => (flushCopies s).mem

@[simp] theorem recoveryGo_mem (len : Nat) : (recoveryGo len s).mem = s.mem := by grind [recoveryGo]
grind_pattern recoveryGo_mem => (recoveryGo len s).mem

/-! ### Operands -/

@[simp] theorem Issue_put_mem (i : Issue) (c : Crew) : (Issue.put i c s).mem = s.mem := rfl
grind_pattern Issue_put_mem => (Issue.put i c s).mem

@[simp] theorem faultCrew_mem (c : Crew) (g : Group) (l : Launch) (cause va : Nat) : (faultCrew c g l cause va s).mem = s.mem := by
  grind [faultCrew]
grind_pattern faultCrew_mem => (faultCrew c g l cause va s).mem

theorem scullFault_mem (g : Group) (l : Launch) {x} {t : State} (he : scullFault g l s = some (x, t)) : t.mem = s.mem := by grind [scullFault]
grind_pattern scullFault_mem => scullFault g l s, some (x, t)

/-! ### ScullMem -/

@[simp] theorem accessReturn_mem (crew : Nat) : (accessReturn crew s).mem = s.mem := by
  fun_cases accessReturn crew s <;> grind
grind_pattern accessReturn_mem => (accessReturn crew s).mem

@[simp] theorem fabricCheck_mem : (fabricCheck s).mem = s.mem := by
  unfold fabricCheck
  split
  · rfl
  · exact (detect_mem _ _ fun r b t => actBridge_mem r b).trans (foldl_mem (fun s _ => firePoint_mem ..) _ _)
grind_pattern fabricCheck_mem => (fabricCheck s).mem

/-! ### Matrix -/

@[simp] theorem descriptorKill_mem (d : Descriptor) (g : Group) (l : Launch) (c : Crew) (cause va : Nat) :
    (descriptorKill d g l c cause va s).mem = s.mem := by
  grind [descriptorKill]
grind_pattern descriptorKill_mem => (descriptorKill d g l c cause va s).mem

/-! ### Resets -/

@[simp] theorem dropHost_mem : (dropHost s).mem = s.mem := by grind [dropHost]
grind_pattern dropHost_mem => (dropHost s).mem

@[simp] theorem dropHostRings_mem : (dropHostRings s).mem = s.mem := by grind [dropHostRings]
grind_pattern dropHostRings_mem => (dropHostRings s).mem

@[simp] theorem hostPortReset_mem (cause : PortReset) : (hostPortReset cause s).mem = s.mem := by unfold hostPortReset; grind
grind_pattern hostPortReset_mem => (hostPortReset cause s).mem

@[simp] theorem revertSectors_mem : (revertSectors s).mem = s.mem := by grind [revertSectors]
grind_pattern revertSectors_mem => (revertSectors s).mem

@[simp] theorem restartSource_mem : (restartSource s).mem = s.mem := rfl
grind_pattern restartSource_mem => (restartSource s).mem

@[simp] theorem restartLinks_mem : (restartLinks s).mem = s.mem := rfl
grind_pattern restartLinks_mem => (restartLinks s).mem

@[simp] theorem abandonTests_mem : (abandonTests s).mem = s.mem := rfl
grind_pattern abandonTests_mem => (abandonTests s).mem

@[simp] theorem warmCadence_mem : (warmCadence s).mem = s.mem := by grind [warmCadence]
grind_pattern warmCadence_mem => (warmCadence s).mem

@[simp] theorem markTrial_mem : (markTrial s).mem = s.mem := by grind [markTrial]
grind_pattern markTrial_mem => (markTrial s).mem

@[simp] theorem configRead_mem (f : Fn) (off : Nat) : (configRead f off s).mem = s.mem := by grind [configRead]
grind_pattern configRead_mem => (configRead f off s).mem

/-! ### SelfTest -/

@[simp] theorem holdResource_mem (r : Res) : (holdResource r s).mem = s.mem := by grind [holdResource]
grind_pattern holdResource_mem => (holdResource r s).mem

@[simp] theorem testStart_mem (dead : Bool) : (testStart dead s).mem = s.mem := by grind [testStart]
grind_pattern testStart_mem => (testStart dead s).mem

@[simp] theorem countTransients_mem (t : SelfTest) : (countTransients t s).2.mem = s.mem := by
  unfold countTransients
  refine foldl_snd_mem (fun p _ => ?_) _ _
  exact noteTransient_mem t.res
grind_pattern countTransients_mem => (countTransients t s).2.mem

@[simp] theorem listWrite_mem : (listWrite s).mem = s.mem := rfl
grind_pattern listWrite_mem => (listWrite s).mem

@[simp] theorem coreStop_mem (core : Nat) (commands : List Nat) : (coreStop core commands s).mem = s.mem := by grind [coreStop]
grind_pattern coreStop_mem => (coreStop core commands s).mem

@[simp] theorem thermal_mem (severity d0 : Nat) : (thermal severity d0 s).mem = s.mem := by grind [thermal]
grind_pattern thermal_mem => (thermal severity d0 s).mem

/-! ### Registers -/

@[simp] theorem readReg_mem (fn : Fn) (r : Reg) (i j byte size : Nat) : (readReg fn r i j byte size s).2.mem = s.mem := by
  unfold readReg
  dsimp only
  split
  · grind
  · grind
  · split <;> rfl
grind_pattern readReg_mem => (readReg fn r i j byte size s).2.mem

@[simp] theorem readPlace_mem (fn : Fn) (size : Nat) (p : Place) : (readPlace fn size p s).2.mem = s.mem := by unfold readPlace; grind
grind_pattern readPlace_mem => (readPlace fn size p s).2.mem

@[simp] theorem readUnit_mem (fn : Fn) (off size : Nat) : (readUnit fn off size s).2.mem = s.mem := by grind [readUnit]
grind_pattern readUnit_mem => (readUnit fn off size s).2.mem

@[simp] theorem regAccessRecord_mem (fn : Fn) (off : Nat) : (regAccessRecord fn off s).mem = s.mem := by unfold regAccessRecord; grind
grind_pattern regAccessRecord_mem => (regAccessRecord fn off s).mem

@[simp] theorem readDoorbell_mem (fn : Fn) (o size : Nat) : (readDoorbell fn o size s).mem = s.mem := by grind [readDoorbell]
grind_pattern readDoorbell_mem => (readDoorbell fn o size s).mem

@[simp] theorem writeDoorbell_mem (fn : Fn) (o size v : Nat) : (writeDoorbell fn o size v s).mem = s.mem := by grind [writeDoorbell]
grind_pattern writeDoorbell_mem => (writeDoorbell fn o size v s).mem

@[simp] theorem readRegister_mem (fn : Fn) (off size : Nat) : (readRegister fn off size s).mem = s.mem := by grind [readRegister]
grind_pattern readRegister_mem => (readRegister fn off size s).mem

@[simp] theorem writeMailbox_mem (box v : Nat) : (writeMailbox box v s).mem = s.mem := by grind [writeMailbox]
grind_pattern writeMailbox_mem => (writeMailbox box v s).mem

@[simp] theorem writeMsix_mem (fn : Fn) (byte size v : Nat) : (writeMsix fn byte size v s).mem = s.mem := by grind [writeMsix]
grind_pattern writeMsix_mem => (writeMsix fn byte size v s).mem

end

end Sys2Proof.Machine

/-! # Memory stays canonical (O3)

Cells are written by `poke`, `zeroFill` and `copyPage` and lines poisoned or unpoisoned by `poisonLine` and `unpoison`; each of them keeps
both lists canonical (log entry 3), and a cold reset empties them. So each function that reaches one of these keeps memory canonical: below,
one rule for each, in the order of the model; where a function calls one that leaves memory, the equation of the section above serves.
`exec_canonical` puts them together by the dispatch. -/
namespace Sys2Proof.Machine

/-! ### The canonical form and the shapes of results -/

/-- The canonical form of a memory's cells and poisoned lines (log entry 3). -/
def CanonicalForm (cells : List (Nat × Byte)) (poison : List Nat) : Prop := cellsWf cells = true ∧ rising poison = true

/-- The memory of a state is in that form. -/
abbrev Canonical (s : State) : Prop := CanonicalForm s.mem.cells s.mem.poison

theorem canonical_iff (s : State) : Canonical s ↔ memoryCanonical s = true := (memoryCanonical_iff s).symm

theorem cellsWf_put {t : List (Nat × Byte)} (h : cellsWf t = true) (a : Nat) {b : Byte} (hb : b ≠ 0) : cellsWf (Table.put t a b) = true := by
  have hput := cellsWf_cellPut t a b h
  rwa [cellPut, if_neg hb] at hput

/-- Cells that are not zero, listed one after another, keep the cells canonical. -/
theorem cellsWf_foldl_put (l t : List (Nat × Byte)) (hl : ∀ e ∈ l, e.2 ≠ 0) (h : cellsWf t = true) :
    cellsWf (l.foldl (fun t c => Table.put t c.1 c.2) t) = true := by
  induction l generalizing t with
  | nil => exact h
  | cons e l ih =>
    exact ih _ (fun d hd => hl d (List.mem_cons_of_mem e hd)) (cellsWf_put h _ (hl e List.mem_cons_self))

theorem rising_foldl_insertNat (l t : List Nat) (h : rising t = true) : rising (l.foldl (fun t n => insertNat n t) t) = true := by
  induction l generalizing t with
  | nil => exact h
  | cons n l ih => exact ih _ (rising_insertNat n t h)

/-- What leaves memory keeps the canonical form. -/
theorem canonical_of_mem {s t : State} (hs : Canonical s) (h : t.mem = s.mem) : Canonical t := by
  rwa [Canonical, h]

/-- What a body leaves behind is canonical. -/
def BodyCanonical : Body → Prop
  | .error _ => True
  | .ok (.done _ _ _ t) | .ok (.later t) | .ok (.running t) => Canonical t

/-- What an effect answers is. -/
def OutCanonical : Out → Prop
  | .next t => Canonical t
  | _ => True

/-- The same of what a translation leaves. -/
def XlatCanonical : Xlat → Prop
  | .at _ t | .fault t | .gated t => Canonical t
  | .stall => True

/-- The same of what a request over RoCE leaves. -/
def ServedCanonical : Served → Prop
  | .done _ t | .nak _ t | .rnr t | .drop t => Canonical t

/-- The same of what a piped message leaves. -/
def PipedCanonical : Piped → Prop
  | .replied t | .held _ t => Canonical t

/-- The same of a crew's fetch. -/
def FetchedCanonical : Fetched → Prop
  | .kill _ _ t | .word _ t => Canonical t
  | .wait => True

/-- The same of an instruction's issue. -/
def IssuedCanonical : Issued → Prop
  | .kill _ _ t | .go t => Canonical t
  | .wait => True

/-- A fold of steps that each keep the canonical form keeps it. -/
theorem foldl_canonical {α : Type} {f : State → α → State} (hf : ∀ s a, Canonical s → Canonical (f s a)) (l : List α) {s : State}
    (hs : Canonical s) : Canonical (l.foldl f s) := by
  induction l generalizing s with
  | nil => exact hs
  | cons a l ih => exact ih (hf s a hs)
grind_pattern foldl_canonical => Canonical (List.foldl f s l)

theorem bodyCanonical_bind {α : Type} {x : Except Refuse α} {f : α → Body} (h : ∀ a, x = .ok a → BodyCanonical (f a)) :
    BodyCanonical (x >>= f) := by
  cases x with
  | error e => trivial
  | ok a => exact h a rfl
grind_pattern bodyCanonical_bind => BodyCanonical (x >>= f)

theorem settle_canonical (serial : Nat) {s : State} {b : Body} (hs : Canonical s) (hb : BodyCanonical b) : Canonical (settle serial s b) := by
  match b, hb with
  | .error e, _ => unfold settle; grind
  | .ok (.done _ _ _ _), hb | .ok (.later _), hb | .ok (.running _), hb => exact hb
grind_pattern settle_canonical => Canonical (settle serial s b)

/-- The same for a fold that can fail. -/
theorem foldl_bind_canonical {α : Type} {f : α → State → Option State} (hf : ∀ s a t, Canonical s → f a s = some t → Canonical t)
    (l : List α) {s t : State} (hs : Canonical s)
    (h : l.foldl (fun (r : Option State) a => r.bind (f a)) (some s) = some t) : Canonical t := by
  induction l generalizing s with
  | nil => cases h; exact hs
  | cons a l ih =>
    rw [List.foldl_cons, Option.bind_some] at h
    cases hc : f a s with
    | none =>
      have hn : l.foldl (fun (r : Option State) a => r.bind (f a)) none = none := by
        clear h ih
        induction l with
        | nil => rfl
        | cons a l ih => exact ih
      rw [hc, hn] at h; cases h
    | some u => exact ih (hf s a u hs hc) (hc ▸ h)

theorem xlatCanonical_of_eq {x y : Xlat} (h : x = y) (hx : XlatCanonical x) : XlatCanonical y := h ▸ hx

theorem canonical_of_eq {α : Type} {p : α × State} {a : α} {t : State} (h : p = (a, t)) (hp : Canonical p.2) : Canonical t := by
  rw [h] at hp; exact hp

section
variable {s : State} (hs : Canonical s)
include hs

/-! ### Ops -/

theorem poke_canonical (a : Nat) (bs : List Byte) : Canonical (poke s a bs) :=
  (canonical_iff _).2 (memoryCanonical_poke s a bs ((canonical_iff s).1 hs))
grind_pattern poke_canonical => Canonical (poke s a bs)

theorem poisonLine_canonical (a : Nat) : Canonical (poisonLine s a) :=
  (canonical_iff _).2 (memoryCanonical_poisonLine s a ((canonical_iff s).1 hs))
grind_pattern poisonLine_canonical => Canonical (poisonLine s a)

theorem unpoison_canonical (a : Nat) : Canonical (unpoison s a) :=
  (canonical_iff _).2 (memoryCanonical_unpoison s a ((canonical_iff s).1 hs))
grind_pattern unpoison_canonical => Canonical (unpoison s a)

theorem zeroFill_canonical (base size : Nat) : Canonical (zeroFill s base size) :=
  (canonical_iff _).2 (memoryCanonical_zeroFill s base size ((canonical_iff s).1 hs))
grind_pattern zeroFill_canonical => Canonical (zeroFill s base size)

theorem beginCommand_canonical (opcode ring : Nat) (body : Cmd → State → Body) (hbody : ∀ x t, Canonical t → BodyCanonical (body x t)) :
    Canonical (beginCommand opcode ring body s) := by
  unfold beginCommand; grind [BodyCanonical]
grind_pattern beginCommand_canonical => Canonical (beginCommand opcode ring body s)

/-! ### Rings -/

theorem putEntry_canonical (i : Nat) (r : Ring) (entry : List Byte) {t : State} (he : putEntry i r entry s = some t) : Canonical t := by
  grind [putEntry]
grind_pattern putEntry_canonical => putEntry i r entry s, some t

theorem completionPost_canonical (i : Nat) (failed : Bool) (latency : Nat) : Canonical (completionPost i failed latency s) := by
  fun_cases completionPost i failed latency s <;> grind
grind_pattern completionPost_canonical => Canonical (completionPost i failed latency s)

theorem nopBody_canonical (c : Cmd) : BodyCanonical (nopBody c s) := hs
grind_pattern nopBody_canonical => BodyCanonical (nopBody c s)

theorem identifyBody_canonical (c : Cmd) : BodyCanonical (identifyBody c s) := hs
grind_pattern identifyBody_canonical => BodyCanonical (identifyBody c s)

theorem ringCreateBody_canonical (c : Cmd) : BodyCanonical (ringCreateBody c s) := by
  unfold ringCreateBody
  repeat refine bodyCanonical_bind fun _ _ => ?_
  grind [BodyCanonical]
grind_pattern ringCreateBody_canonical => BodyCanonical (ringCreateBody c s)

theorem ringStopBody_canonical (destroy : Bool) (c : Cmd) : BodyCanonical (ringStopBody destroy c s) := by grind [ringStopBody, BodyCanonical]
grind_pattern ringStopBody_canonical => BodyCanonical (ringStopBody destroy c s)

/-! ### Errors -/

theorem detect_canonical (act : ActFn) (d : Detect) (hact : ∀ r b t, Canonical t → Canonical (act r b t).2) : Canonical (detect act d s) := by
  unfold detect; grind
grind_pattern detect_canonical => Canonical (detect act d s)

theorem spoilLine_canonical (a : Nat) : Canonical (spoilLine a s) := poke_canonical (s := (drawFree s).2) hs ..
grind_pattern spoilLine_canonical => Canonical (spoilLine a s)

theorem faultAt_canonical (a : Nat) (kind : FaultKind) (n : Nat) (injected forced : Bool) :
    Canonical (faultAt a kind n injected forced s).2 := by
  unfold faultAt; grind
grind_pattern faultAt_canonical => faultAt a kind n injected forced s

theorem readLine_canonical (faults : List LineFault) (a : Nat) : Canonical (readLine faults a s).2 := by
  unfold readLine; grind
grind_pattern readLine_canonical => readLine faults a s

theorem readLines_canonical (faults : List LineFault) (n a : Nat) : Canonical (readLines faults n a s).2 := by
  fun_induction readLines faults n a s <;> grind
grind_pattern readLines_canonical => readLines faults n a s

/-! ### MemAccess -/

theorem faultyRead_canonical (faults : List LineFault) (a n : Nat) : Canonical (faultyRead faults a n s).2 := by grind [faultyRead]
grind_pattern faultyRead_canonical => faultyRead faults a n s

theorem trustedRead_canonical (a n : Nat) : Canonical (trustedRead a n s).2 := by grind [trustedRead]
grind_pattern trustedRead_canonical => trustedRead a n s

theorem writeLine_canonical (faults : List LineFault) (a : Nat) (bs : List Byte) : Canonical (writeLine faults a bs s).2 := by grind [writeLine]
grind_pattern writeLine_canonical => writeLine faults a bs s

theorem writeLines_canonical (faults : List LineFault) (n a : Nat) (bs : List Byte) : Canonical (writeLines faults n a bs s).2 := by
  fun_induction writeLines faults n a bs s <;> grind
grind_pattern writeLines_canonical => writeLines faults n a bs s

theorem faultyWrite_canonical (faults : List LineFault) (a : Nat) (bs : List Byte) : Canonical (faultyWrite faults a bs s).2 := by
  grind [faultyWrite]
grind_pattern faultyWrite_canonical => faultyWrite faults a bs s

theorem trustedWrite_canonical (a : Nat) (bs : List Byte) : Canonical (trustedWrite a bs s).2 := by grind [trustedWrite]
grind_pattern trustedWrite_canonical => trustedWrite a bs s

theorem faultyLineAdd_canonical (faults : List LineFault) (a w : Nat) (sub : Bool) (operand : List Byte) :
    Canonical (faultyLineAdd faults a w sub operand s).2 := by
  grind [faultyLineAdd]
grind_pattern faultyLineAdd_canonical => faultyLineAdd faults a w sub operand s

/-! ### Wake -/

theorem wakeConfigBody_canonical (c : Cmd) : BodyCanonical (wakeConfigBody c s) := by
  unfold wakeConfigBody; grind [BodyCanonical]
grind_pattern wakeConfigBody_canonical => BodyCanonical (wakeConfigBody c s)

theorem drainWords_canonical (faults : List LineFault) (refused : Option Nat) (n : Nat) (dpa : Bool) (q : Nat) (flush : Bool) (a k m : Nat) :
    Canonical (drainWords faults refused n dpa q flush a k m s).2.2 := by
  fun_induction drainWords faults refused n dpa q flush a k m s <;> grind
grind_pattern drainWords_canonical => drainWords faults refused n dpa q flush a k m s

theorem wakeDrainBody_canonical (faults : List LineFault) (refused : Option Nat) (c : Cmd) :
    BodyCanonical (wakeDrainBody faults refused c s) := by
  unfold wakeDrainBody
  repeat refine bodyCanonical_bind fun _ _ => ?_
  grind [BodyCanonical]
grind_pattern wakeDrainBody_canonical => BodyCanonical (wakeDrainBody faults refused c s)

theorem dropPacketBody_canonical (c : Cmd) : BodyCanonical (dropPacketBody c s) := by grind [dropPacketBody, BodyCanonical]
grind_pattern dropPacketBody_canonical => BodyCanonical (dropPacketBody c s)

/-! ### Cadence -/

theorem markRelease_canonical (fw : MarkWork → Mark → Bool → State → State) (hfw : ∀ x y z t, Canonical t → Canonical (fw x y z t)) :
    Canonical (markRelease fw s) := by
  fun_cases markRelease fw s <;> grind
grind_pattern markRelease_canonical => Canonical (markRelease fw s)

theorem markSetBody_canonical (c : Cmd) : BodyCanonical (markSetBody c s) := by
  unfold markSetBody
  repeat refine bodyCanonical_bind fun _ _ => ?_
  grind [BodyCanonical]
grind_pattern markSetBody_canonical => BodyCanonical (markSetBody c s)

theorem markCancelBody_canonical (c : Cmd) : BodyCanonical (markCancelBody c s) := by
  unfold markCancelBody
  repeat refine bodyCanonical_bind fun _ _ => ?_
  grind [BodyCanonical]
grind_pattern markCancelBody_canonical => BodyCanonical (markCancelBody c s)

theorem cadenceConfigBody_canonical (c : Cmd) : BodyCanonical (cadenceConfigBody c s) := by
  unfold cadenceConfigBody; grind [BodyCanonical]
grind_pattern cadenceConfigBody_canonical => BodyCanonical (cadenceConfigBody c s)

/-! ### Random -/

theorem rngInstantiateBody_canonical (c : Cmd) : BodyCanonical (rngInstantiateBody c s) := by
  unfold rngInstantiateBody
  repeat refine bodyCanonical_bind fun _ _ => ?_
  dsimp only
  split
  · trivial
  · repeat refine bodyCanonical_bind fun _ _ => ?_
    grind [BodyCanonical]
grind_pattern rngInstantiateBody_canonical => BodyCanonical (rngInstantiateBody c s)

theorem rngGenerateBody_canonical (faults : List LineFault) (c : Cmd) : BodyCanonical (rngGenerateBody faults c s) := by
  unfold rngGenerateBody
  repeat refine bodyCanonical_bind fun _ _ => ?_
  grind [BodyCanonical]
grind_pattern rngGenerateBody_canonical => BodyCanonical (rngGenerateBody faults c s)

theorem rngReseedBody_canonical (c : Cmd) : BodyCanonical (rngReseedBody c s) := by
  unfold rngReseedBody
  repeat refine bodyCanonical_bind fun _ _ => ?_
  grind [BodyCanonical]
grind_pattern rngReseedBody_canonical => BodyCanonical (rngReseedBody c s)

theorem rngUninstantiateBody_canonical (c : Cmd) : BodyCanonical (rngUninstantiateBody c s) := by grind [rngUninstantiateBody, BodyCanonical]
grind_pattern rngUninstantiateBody_canonical => BodyCanonical (rngUninstantiateBody c s)

theorem rngRawModeBody_canonical (heatOpen : State → Bool) (c : Cmd) : BodyCanonical (rngRawModeBody heatOpen c s) := by
  unfold rngRawModeBody; grind [BodyCanonical]
grind_pattern rngRawModeBody_canonical => BodyCanonical (rngRawModeBody heatOpen c s)

/-! ### Contexts -/

theorem dropContext_canonical (x : Nat) : Canonical (dropContext x s) := by grind [dropContext]
grind_pattern dropContext_canonical => Canonical (dropContext x s)

theorem freeContexts_canonical (n : Nat) : Canonical (freeContexts n s) := by grind [freeContexts]
grind_pattern freeContexts_canonical => Canonical (freeContexts n s)

theorem contextCreateBody_canonical (c : Cmd) : BodyCanonical (contextCreateBody c s) := by grind [contextCreateBody, BodyCanonical]
grind_pattern contextCreateBody_canonical => BodyCanonical (contextCreateBody c s)

theorem contextDestroyBody_canonical (c : Cmd) : BodyCanonical (contextDestroyBody c s) := by grind [contextDestroyBody, BodyCanonical]
grind_pattern contextDestroyBody_canonical => BodyCanonical (contextDestroyBody c s)

theorem contextKillBody_canonical (c : Cmd) : BodyCanonical (contextKillBody c s) := by
  unfold contextKillBody
  repeat refine bodyCanonical_bind fun _ _ => ?_
  grind [BodyCanonical]
grind_pattern contextKillBody_canonical => BodyCanonical (contextKillBody c s)

theorem launchBody_canonical (c : Cmd) : BodyCanonical (launchBody c s) := by
  unfold launchBody
  repeat refine bodyCanonical_bind fun _ _ => ?_
  grind [BodyCanonical]
grind_pattern launchBody_canonical => BodyCanonical (launchBody c s)

theorem groupPlacement_canonical (n : Nat) : Canonical (groupPlacement n s) := by grind [groupPlacement]
grind_pattern groupPlacement_canonical => Canonical (groupPlacement n s)

/-! ### Translate -/

theorem walkEntry_canonical (faults : List LineFault) (a : Nat) : Canonical (walkEntry faults a s).2 := by grind [walkEntry]
grind_pattern walkEntry_canonical => walkEntry faults a s

theorem walk_canonical (faults : List LineFault) (x n va a k m : Nat) : Canonical (walk faults x n va a k m s).2 := by
  fun_induction walk faults x n va a k m s <;> grind
grind_pattern walk_canonical => walk faults x n va a k m s

theorem setCache_canonical (eight : Nat) (l : List Cached) : Canonical (setCache eight l s) := hs
grind_pattern setCache_canonical => Canonical (setCache eight l s)

theorem useCopy_canonical (faults : List LineFault) (eight : Nat) (c : Cached) : Canonical (useCopy faults eight c s) := by grind [useCopy]
grind_pattern useCopy_canonical => Canonical (useCopy faults eight c s)

theorem enterCopy_canonical (eight : Nat) (c : Cached) : Canonical (enterCopy eight c s) := hs
grind_pattern enterCopy_canonical => Canonical (enterCopy eight c s)

theorem xlatFault_canonical : XlatCanonical (xlatFault s) := by grind [xlatFault, XlatCanonical]
grind_pattern xlatFault_canonical => xlatFault s

theorem useLeaf_canonical (faults : List LineFault) (eight : Nat) (want : Want) (va : Nat) (c : Cached) :
    XlatCanonical (useLeaf faults eight want va c s) := by
  grind [useLeaf, XlatCanonical]
grind_pattern useLeaf_canonical => useLeaf faults eight want va c s

theorem translate_canonical (faults : List LineFault) (eight x : Nat) (want : Want) (va : Nat) :
    XlatCanonical (translate faults eight x want va s) := by
  grind [translate, XlatCanonical]
grind_pattern translate_canonical => translate faults eight x want va s

theorem dropCopies_canonical (p : Cached → Bool) : Canonical (dropCopies p s) := hs
grind_pattern dropCopies_canonical => Canonical (dropCopies p s)

theorem memInvalidateBody_canonical (c : Cmd) : BodyCanonical (memInvalidateBody c s) := by grind [memInvalidateBody, BodyCanonical]
grind_pattern memInvalidateBody_canonical => BodyCanonical (memInvalidateBody c s)

/-! ### Lattice -/

theorem readLimbs_canonical (faults : List LineFault) (o : LatOp) (tag : Nat) : Canonical (readLimbs faults o tag s).2 := by grind [readLimbs]
grind_pattern readLimbs_canonical => readLimbs faults o tag s

theorem writeLimbs_canonical (o : LatOp) (tag : Nat) (ls : List (List Nat)) : Canonical (writeLimbs o tag ls s).2 := by grind [writeLimbs]
grind_pattern writeLimbs_canonical => writeLimbs o tag ls s

theorem freeLimbs_canonical (o : LatOp) (tag : Nat) : Canonical (freeLimbs o tag s) := by grind [freeLimbs]
grind_pattern freeLimbs_canonical => Canonical (freeLimbs o tag s)

theorem freeOutputs_canonical (o : LatOp) : Canonical (freeOutputs o s) := by grind [freeOutputs]
grind_pattern freeOutputs_canonical => Canonical (freeOutputs o s)

theorem latEffect_canonical (faults : List LineFault) (e : Nat) (o : LatOp) : Canonical (latEffect faults e o s).2 := by
  unfold latEffect
  dsimp only
  split
  next h0 => exact freeOutputs_canonical (canonical_of_eq h0 (readLimbs_canonical hs ..)) o
  next a s0 h0 =>
  replace h0 := canonical_of_eq h0 (readLimbs_canonical hs ..)
  split
  next h1 => exact freeOutputs_canonical (canonical_of_eq h1 (readLimbs_canonical h0 ..)) o
  next b s1 h1 =>
  replace h1 := canonical_of_eq h1 (readLimbs_canonical h0 ..)
  split
  next h2 => exact freeOutputs_canonical (canonical_of_eq h2 (by grind)) o
  next old s2 h2 =>
  replace h2 := canonical_of_eq h2 (by grind)
  split
  next h3 => exact freeOutputs_canonical (canonical_of_eq h3 (readLimbs_canonical h2 ..)) o
  next key s3 h3 =>
  replace h3 := canonical_of_eq h3 (readLimbs_canonical h2 ..)
  have h4 : Canonical (domainOf (latOf s e) (o.region 0).addr s3).2 := canonical_of_mem h3 (by simp)
  generalize hd : setLat e _ _ = s4
  replace h4 : Canonical s4 := hd ▸ h4
  clear hd h0 h1 h2 h3 hs
  generalize (!(_ && _)) = bad
  split
  · split
    next h5 => exact canonical_of_eq h5 (canonical_of_mem h4 (floodDraw_mem ..))
    next bs s5 h5 =>
    have h6 := trustedWrite_canonical (canonical_of_eq h5 (canonical_of_mem h4 (floodDraw_mem ..))) (o.region 4).addr bs
    split
    · exact freeLimbs_canonical h6 o 2
    · split
      next h7 => exact writeLimbs_canonical (canonical_of_eq h7 (writeLimbs_canonical h6 ..)) ..
      · exact writeLimbs_canonical h6 ..
  · split
    · exact freeOutputs_canonical h4 o
    · generalize (if o.op = 0x0A then _ else _ : List (List Nat) × List (List Nat)) = outs
      split
      next h7 =>
        have h8 := canonical_of_eq h7 (writeLimbs_canonical h4 ..)
        split
        · exact h8
        · exact writeLimbs_canonical h8 ..
      · exact writeLimbs_canonical h4 ..
grind_pattern latEffect_canonical => latEffect faults e o s

theorem spillRegions_canonical (n : Nat) (l : List (Nat × Nat)) : Canonical (spillRegions n l s) := by
  fun_induction spillRegions n l s <;> grind
grind_pattern spillRegions_canonical => Canonical (spillRegions n l s)

theorem spill_canonical (e : Nat) (o : LatOp) (hash : List Byte) : Canonical (spill e o hash s) := by grind [spill]
grind_pattern spill_canonical => Canonical (spill e o hash s)

theorem suspendOp_canonical (e : Nat) (o : LatOp) (spilled : Bool) {x} {y} {t : State} (he : suspendOp e o spilled s = some (x, y, t)) :
    Canonical t := by
  unfold suspendOp at he
  split at he
  · cases he
  next h =>
    have h0 := canonical_of_eq h (canonical_of_mem hs (by simp))
    grind
grind_pattern suspendOp_canonical => suspendOp e o spilled s, some (x, y, t)

theorem shiftSuspend_canonical (e : Nat) (o : LatOp) {t : State} (he : shiftSuspend e o s = some t) : Canonical t := by
  grind [shiftSuspend, Option.map_eq_some_iff]
grind_pattern shiftSuspend_canonical => shiftSuspend e o s, some t

theorem loadRegions_canonical (n : Nat) (l : List (Nat × Nat)) : Canonical (loadRegions n l s) := by
  fun_induction loadRegions n l s <;> grind
grind_pattern loadRegions_canonical => Canonical (loadRegions n l s)

theorem resumeItem_canonical (e serial ring tag t0 t1 : Nat) : Canonical (resumeItem e serial ring tag t0 t1 s) := by grind [resumeItem]
grind_pattern resumeItem_canonical => Canonical (resumeItem e serial ring tag t0 t1 s)

theorem latNext_canonical (e n : Nat) : Canonical (latNext e n s) := by
  fun_induction latNext e n s <;> grind
grind_pattern latNext_canonical => Canonical (latNext e n s)

theorem latGo_canonical (e : Nat) : Canonical (latGo e s) := by grind [latGo]
grind_pattern latGo_canonical => Canonical (latGo e s)

theorem latWipe_canonical (e : Nat) : Canonical (latWipe e s) := zeroFill_canonical (s := setLat e {} s) hs ..
grind_pattern latWipe_canonical => Canonical (latWipe e s)

theorem actEngine_canonical (r : Res) (b : Bool) : Canonical (actEngine r b s).2 := by grind [actEngine]
grind_pattern actEngine_canonical => actEngine r b s

theorem laneFault_canonical (e : Nat) (forced : Bool) : Canonical (laneFault e forced s) := by grind [laneFault]
grind_pattern laneFault_canonical => Canonical (laneFault e forced s)

theorem boundaryStop_canonical (e : Nat) (o : LatOp) : Canonical (boundaryStop e o s) := by
  fun_cases boundaryStop e o s <;> grind
grind_pattern boundaryStop_canonical => Canonical (boundaryStop e o s)

theorem stepBoundary_canonical (e stall : Nat) : Canonical (stepBoundary e stall s) := by
  unfold stepBoundary; grind
grind_pattern stepBoundary_canonical => Canonical (stepBoundary e stall s)

theorem latOperationEnd_canonical (e stall : Nat) (faults : List LineFault) : Canonical (latOperationEnd e stall faults s) := by
  fun_cases latOperationEnd e stall faults s <;> grind
grind_pattern latOperationEnd_canonical => Canonical (latOperationEnd e stall faults s)

theorem latExecBody_canonical (c : Cmd) : BodyCanonical (latExecBody c s) := by
  unfold latExecBody
  repeat refine bodyCanonical_bind fun _ _ => ?_
  grind [BodyCanonical]
grind_pattern latExecBody_canonical => BodyCanonical (latExecBody c s)

theorem latGoAll_canonical : Canonical (latGoAll s) := by grind [latGoAll]
grind_pattern latGoAll_canonical => Canonical (latGoAll s)

theorem latSuspendBody_canonical (c : Cmd) : BodyCanonical (latSuspendBody c s) := by
  unfold latSuspendBody
  repeat refine bodyCanonical_bind fun _ _ => ?_
  dsimp only
  split
  · trivial
  · repeat refine bodyCanonical_bind fun _ _ => ?_
    grind [BodyCanonical]
grind_pattern latSuspendBody_canonical => BodyCanonical (latSuspendBody c s)

theorem latResumeBody_canonical (c : Cmd) : BodyCanonical (latResumeBody c s) := by grind [latResumeBody, BodyCanonical]
grind_pattern latResumeBody_canonical => BodyCanonical (latResumeBody c s)

theorem latModuliBody_canonical (c : Cmd) : BodyCanonical (latModuliBody c s) := by
  unfold latModuliBody
  repeat refine bodyCanonical_bind fun _ _ => ?_
  grind [BodyCanonical]
grind_pattern latModuliBody_canonical => BodyCanonical (latModuliBody c s)

/-! ### Rdma -/

theorem writeTarget_canonical (faults : List LineFault) (n : Nat) (t : Target) (bs : List Byte) : Canonical (writeTarget faults n t bs s).2 := by
  unfold writeTarget; grind
grind_pattern writeTarget_canonical => writeTarget faults n t bs s

theorem readTarget_canonical (t : Target) (len : Nat) (host : HostRead) (faults : List LineFault) :
    Canonical (readTarget t len host faults s).2 := by
  unfold readTarget; grind
grind_pattern readTarget_canonical => readTarget t len host faults s

theorem rdmaTableSetBody_canonical (c : Cmd) : BodyCanonical (rdmaTableSetBody c s) := by grind [rdmaTableSetBody, BodyCanonical]
grind_pattern rdmaTableSetBody_canonical => BodyCanonical (rdmaTableSetBody c s)

theorem pdAllocBody_canonical (c : Cmd) : BodyCanonical (pdAllocBody c s) := by
  unfold pdAllocBody
  repeat refine bodyCanonical_bind fun _ _ => ?_
  grind [BodyCanonical]
grind_pattern pdAllocBody_canonical => BodyCanonical (pdAllocBody c s)

theorem pdFreeBody_canonical (c : Cmd) : BodyCanonical (pdFreeBody c s) := by grind [pdFreeBody, BodyCanonical]
grind_pattern pdFreeBody_canonical => BodyCanonical (pdFreeBody c s)

theorem mrRegisterBody_canonical (c : Cmd) : BodyCanonical (mrRegisterBody c s) := by
  unfold mrRegisterBody
  repeat refine bodyCanonical_bind fun _ _ => ?_
  grind [BodyCanonical]
grind_pattern mrRegisterBody_canonical => BodyCanonical (mrRegisterBody c s)

theorem mrDeregisterBody_canonical (c : Cmd) : BodyCanonical (mrDeregisterBody c s) := by grind [mrDeregisterBody, BodyCanonical]
grind_pattern mrDeregisterBody_canonical => BodyCanonical (mrDeregisterBody c s)

theorem mwAllocBody_canonical (c : Cmd) : BodyCanonical (mwAllocBody c s) := by
  unfold mwAllocBody
  repeat refine bodyCanonical_bind fun _ _ => ?_
  grind [BodyCanonical]
grind_pattern mwAllocBody_canonical => BodyCanonical (mwAllocBody c s)

theorem mwFreeBody_canonical (c : Cmd) : BodyCanonical (mwFreeBody c s) := by grind [mwFreeBody, BodyCanonical]
grind_pattern mwFreeBody_canonical => BodyCanonical (mwFreeBody c s)

theorem qpCreateBody_canonical (c : Cmd) : BodyCanonical (qpCreateBody c s) := by
  unfold qpCreateBody
  repeat refine bodyCanonical_bind fun _ _ => ?_
  grind [BodyCanonical]
grind_pattern qpCreateBody_canonical => BodyCanonical (qpCreateBody c s)

theorem qpModifyBody_canonical (c : Cmd) : BodyCanonical (qpModifyBody c s) := by
  unfold qpModifyBody; grind [BodyCanonical]
grind_pattern qpModifyBody_canonical => BodyCanonical (qpModifyBody c s)

theorem qpDestroyBody_canonical (c : Cmd) : BodyCanonical (qpDestroyBody c s) := by grind [qpDestroyBody, BodyCanonical]
grind_pattern qpDestroyBody_canonical => BodyCanonical (qpDestroyBody c s)

theorem qpQueryBody_canonical (c : Cmd) : BodyCanonical (qpQueryBody c s) := by grind [qpQueryBody, BodyCanonical]
grind_pattern qpQueryBody_canonical => BodyCanonical (qpQueryBody c s)

theorem postData_canonical (k : Nat) (q : Qp) (x : Post) (host : HostRead) (faults : List LineFault) :
    Canonical (postData k q x host faults s).2 := by
  grind [postData]
grind_pattern postData_canonical => postData k q x host faults s

theorem rdmaPostBody_canonical (host : HostRead) (faults : List LineFault) (c : Cmd) : BodyCanonical (rdmaPostBody host faults c s) := by
  unfold rdmaPostBody
  repeat refine bodyCanonical_bind fun _ _ => ?_
  grind [BodyCanonical]
grind_pattern rdmaPostBody_canonical => BodyCanonical (rdmaPostBody host faults c s)

theorem rdmaRecvBody_canonical (c : Cmd) : BodyCanonical (rdmaRecvBody c s) := by
  unfold rdmaRecvBody
  repeat refine bodyCanonical_bind fun _ _ => ?_
  grind [BodyCanonical]
grind_pattern rdmaRecvBody_canonical => BodyCanonical (rdmaRecvBody c s)

/-! ### RdmaPackets -/

theorem inboundPacket_canonical (p : RocePacket) (now : Nat) (act : Nat → Qp → State → State)
    (hact : ∀ x y t, Canonical t → Canonical (act x y t)) :
    Canonical (inboundPacket p now act s) := by
  grind [inboundPacket]
grind_pattern inboundPacket_canonical => Canonical (inboundPacket p now act s)

theorem rcRequest_canonical (p : RocePacket) (run dup : Nat → Qp → State → State) (k : Nat) (q : Qp)
    (hrun : ∀ x y t, Canonical t → Canonical (run x y t)) (hdup : ∀ x y t, Canonical t → Canonical (dup x y t)) :
    Canonical (rcRequest p run dup k q s) := by
  fun_cases rcRequest p run dup k q s <;> grind
grind_pattern rcRequest_canonical => Canonical (rcRequest p run dup k q s)

omit hs in
theorem settleRequest_canonical (k psn : Nat) (ackReq : Bool) (o : Served) (ho : ServedCanonical o) :
    Canonical (settleRequest k psn ackReq o) := by
  unfold settleRequest; grind [ServedCanonical]
grind_pattern settleRequest_canonical => Canonical (settleRequest k psn ackReq o)

theorem placeBytes_canonical (k : Nat) (q : Qp) (r : Recv) (off : Nat) (bs : List Byte) (faults : List LineFault) :
    Canonical (placeBytes k q r off bs faults s).2 := by
  grind [placeBytes]
grind_pattern placeBytes_canonical => placeBytes k q r off bs faults s

theorem sendRun_canonical (faults : List LineFault) (p : RocePacket) (first last : Bool) (imm : Option Nat) (k : Nat) (q : Qp) :
    ServedCanonical (sendRun faults p first last imm k q s) := by
  unfold sendRun; grind [ServedCanonical]
grind_pattern sendRun_canonical => ServedCanonical (sendRun faults p first last imm k q s)

theorem ingressRun_canonical (p : RocePacket) (first last : Bool) (k : Nat) (q : Qp) : ServedCanonical (ingressRun p first last k q s) := by
  grind [ingressRun, ServedCanonical]
grind_pattern ingressRun_canonical => ServedCanonical (ingressRun p first last k q s)

theorem udSend_canonical (faults : List LineFault) (p : RocePacket) (imm : Option Nat) (k : Nat) (q : Qp) :
    Canonical (udSend faults p imm k q s) := by
  unfold udSend; grind
grind_pattern udSend_canonical => Canonical (udSend faults p imm k q s)

theorem roceSend_canonical (faults : List LineFault) (p : RocePacket) (now : Nat) : Canonical (roceSend faults p now s) := by
  fun_cases roceSend faults p now s <;> grind [ServedCanonical]
grind_pattern roceSend_canonical => Canonical (roceSend faults p now s)

theorem keyNak_canonical (check : Nat) : ServedCanonical (keyNak check s) := by grind [keyNak, ServedCanonical]
grind_pattern keyNak_canonical => ServedCanonical (keyNak check s)

theorem writeRun_canonical (faults : List LineFault) (p : RocePacket) (last : Bool) (imm : Option Nat) (i : Inbound) (k : Nat) (q : Qp) :
    ServedCanonical (writeRun faults p last imm i k q s) := by
  fun_cases writeRun faults p last imm i k q s <;> grind [ServedCanonical]
grind_pattern writeRun_canonical => ServedCanonical (writeRun faults p last imm i k q s)

theorem roceWrite_canonical (faults : List LineFault) (p : RocePacket) (now : Nat) : Canonical (roceWrite faults p now s) := by
  unfold roceWrite
  split
  · refine inboundPacket_canonical hs p now _ fun k q t ht => ?_
    split
    · exact canonical_of_mem ht (by simp)
    · refine rcRequest_canonical ht p _ _ k q (fun k q u hu => ?_) fun k q u hu => canonical_of_mem hu (by simp)
      grind [ServedCanonical]
  · exact canonical_of_mem hs (by simp)
grind_pattern roceWrite_canonical => Canonical (roceWrite faults p now s)

theorem readRun_canonical (addr key len : Nat) (host : HostRead) (faults : List LineFault) (k : Nat) (q : Qp) :
    Canonical (readRun addr key len host faults k q s).2 := by
  grind [readRun, ServedCanonical]
grind_pattern readRun_canonical => readRun addr key len host faults k q s

theorem readRun_error_canonical (addr key len : Nat) (host : HostRead) (faults : List LineFault) (k : Nat) (q : Qp) {o : Served} {t : State}
    (he : readRun addr key len host faults k q s = (.error o, t)) : ServedCanonical o := by
  unfold readRun at he
  grind [ServedCanonical, keyNak]
grind_pattern readRun_error_canonical => readRun addr key len host faults k q s, Prod.mk (Except.error o) t

theorem roceRead_canonical (p : RocePacket) (now : Nat) (host : HostRead) (faults : List LineFault) :
    Canonical (roceRead p now host faults s) := by
  unfold roceRead
  split
  · refine inboundPacket_canonical hs p now _ fun k q t ht => ?_
    grind
  · exact canonical_of_mem hs (by simp)
grind_pattern roceRead_canonical => Canonical (roceRead p now host faults s)

theorem updateTarget_canonical (n : Nat) (t : Target) (bs : List Byte) : Canonical (updateTarget n t bs s).2 := by unfold updateTarget; grind
grind_pattern updateTarget_canonical => updateTarget n t bs s

theorem atomicRun_canonical (p : RocePacket) (addr key : Nat) (f : Nat → Nat) (faults : List LineFault) (k : Nat) (q : Qp) :
    Canonical (atomicRun p addr key f faults k q s) := by
  fun_cases atomicRun p addr key f faults k q s <;> grind [ServedCanonical]
grind_pattern atomicRun_canonical => Canonical (atomicRun p addr key f faults k q s)

theorem roceAtomic_canonical (p : RocePacket) (now addr key : Nat) (f : Nat → Nat) (faults : List LineFault) :
    Canonical (roceAtomic p now addr key f faults s) := by
  grind [roceAtomic]
grind_pattern roceAtomic_canonical => Canonical (roceAtomic p now addr key f faults s)

theorem requesterPacket_canonical (p : RocePacket) (now : Nat) (act : Nat → Qp → State → State)
    (hact : ∀ x y t, Canonical t → Canonical (act x y t)) :
    Canonical (requesterPacket p now act s) := by
  grind [requesterPacket]
grind_pattern requesterPacket_canonical => Canonical (requesterPacket p now act s)

theorem readResponse_canonical (faults : List LineFault) (p : RocePacket) (k : Nat) (q : Qp) : Canonical (readResponse faults p k q s) := by
  fun_cases readResponse faults p k q s <;> grind
grind_pattern readResponse_canonical => Canonical (readResponse faults p k q s)

theorem atomicResponse_canonical (faults : List LineFault) (p : RocePacket) (value k : Nat) (q : Qp) :
    Canonical (atomicResponse faults p value k q s) := by
  fun_cases atomicResponse faults p value k q s <;> grind
grind_pattern atomicResponse_canonical => Canonical (atomicResponse faults p value k q s)

/-! ### Chord -/

theorem packetRow_canonical (c typ : Nat) (poison : List Nat) (act : Packet → State → State) (hact : ∀ x t, Canonical t → Canonical (act x t)) :
    Canonical (packetRow c typ poison act s) := by
  grind [packetRow]
grind_pattern packetRow_canonical => Canonical (packetRow c typ poison act s)

theorem chordLinkBody_canonical (c : Cmd) : BodyCanonical (chordLinkBody c s) := by grind [chordLinkBody, BodyCanonical]
grind_pattern chordLinkBody_canonical => BodyCanonical (chordLinkBody c s)

theorem chordRouteBody_canonical (c : Cmd) : BodyCanonical (chordRouteBody c s) := by grind [chordRouteBody, BodyCanonical]
grind_pattern chordRouteBody_canonical => BodyCanonical (chordRouteBody c s)

theorem chordAclBody_canonical (c : Cmd) : BodyCanonical (chordAclBody c s) := by grind [chordAclBody, BodyCanonical]
grind_pattern chordAclBody_canonical => BodyCanonical (chordAclBody c s)

/-! ### Transfers -/

theorem sendChunk_canonical (k c : Nat) : Canonical (sendChunk k c s) := by
  fun_cases sendChunk k c s <;> grind
grind_pattern sendChunk_canonical => Canonical (sendChunk k c s)

theorem sendOpen_canonical (k : Nat) : Canonical (sendOpen k s) := by grind [sendOpen]
grind_pattern sendOpen_canonical => Canonical (sendOpen k s)

theorem chordXferBody_canonical (c : Cmd) : BodyCanonical (chordXferBody c s) := by grind [chordXferBody, BodyCanonical]
grind_pattern chordXferBody_canonical => BodyCanonical (chordXferBody c s)

theorem memoryPacket_canonical (p : Packet) (right : Nat) (act : State → State) (hact : ∀ t, Canonical t → Canonical (act t)) :
    Canonical (memoryPacket p right act s) := by
  grind [memoryPacket]
grind_pattern memoryPacket_canonical => Canonical (memoryPacket p right act s)

omit hs in
theorem settlePacket_canonical (p : Packet) (r : Nat × State) (hr : Canonical r.2) : Canonical (settlePacket p r) := by grind [settlePacket]
grind_pattern settlePacket_canonical => Canonical (settlePacket p r)

theorem writePacket_canonical (p : Packet) : Canonical (writePacket p s) := by grind [writePacket]
grind_pattern writePacket_canonical => Canonical (writePacket p s)

theorem readPacket_canonical (faults : List LineFault) (p : Packet) : Canonical (readPacket faults p s) := by grind [readPacket]
grind_pattern readPacket_canonical => Canonical (readPacket faults p s)

theorem readRespPacket_canonical (p : Packet) : Canonical (readRespPacket p s) := by
  unfold readRespPacket; grind
grind_pattern readRespPacket_canonical => Canonical (readRespPacket p s)

theorem accumLines_canonical (etype : Nat) (faults : List LineFault) (n a : Nat) (bs : List Byte) :
    Canonical (accumLines etype faults n a bs s).2 := by
  fun_induction accumLines etype faults n a bs s <;> grind
grind_pattern accumLines_canonical => accumLines etype faults n a bs s

theorem accumPacket_canonical (faults : List LineFault) (p : Packet) : Canonical (accumPacket faults p s) := by grind [accumPacket]
grind_pattern accumPacket_canonical => Canonical (accumPacket faults p s)

theorem ownLines_canonical (faults : List LineFault) (n a k : Nat) : Canonical (ownLines faults n a k s).2 := by
  fun_induction ownLines faults n a k s <;> grind
grind_pattern ownLines_canonical => ownLines faults n a k s

theorem foldHead_canonical (k : Nat) : Canonical (foldHead k s) := by
  fun_cases foldHead k s <;> grind
grind_pattern foldHead_canonical => Canonical (foldHead k s)

theorem chordFoldBody_canonical (c : Cmd) : BodyCanonical (chordFoldBody c s) := by
  unfold chordFoldBody
  repeat refine bodyCanonical_bind fun _ _ => ?_
  grind [BodyCanonical]
grind_pattern chordFoldBody_canonical => BodyCanonical (chordFoldBody c s)

theorem writeSum_canonical (marks : List Nat) (n a k : Nat) (bs : List Byte) : Canonical (writeSum marks n a k bs s) := by
  fun_induction writeSum marks n a k bs s <;> grind
grind_pattern writeSum_canonical => Canonical (writeSum marks n a k bs s)

theorem foldChunk_canonical (faults : List LineFault) (p : Packet) : Canonical (foldChunk faults p s) := by
  have hown (n a k : Nat) : Canonical (ownLines faults n a k s).2 := ownLines_canonical hs ..
  fun_cases foldChunk faults p s <;> grind
grind_pattern foldChunk_canonical => Canonical (foldChunk faults p s)

theorem resendOver_canonical : Canonical (resendOver s) := by
  unfold resendOver
  extract_lets dead s1 s2
  have h1 : Canonical s1 := foldl_canonical (fun _ e hs => sendOpen_canonical hs e.1) _ hs
  have h2 : Canonical s2 := canonical_of_mem h1 (foldl_mem (fun _ e => foldl_mem (fun _ w => foldSend_mem ..) _ _) _ s1)
  refine canonical_of_mem h2 (foldl_mem (fun s e => ?_) _ s2)
  grind
grind_pattern resendOver_canonical => Canonical (resendOver s)

omit hs in
theorem linkEvent_canonical (c : Nat) (s' : State) (hs' : Canonical s') : Canonical (linkEvent c s s') := by grind [linkEvent]
grind_pattern linkEvent_canonical => Canonical (linkEvent c s s')

/-! ### HeatSlot -/

theorem slotRead_canonical (faults : List LineFault) (k a n : Nat) : Canonical (slotRead faults k a n s).2 := by grind [slotRead]
grind_pattern slotRead_canonical => slotRead faults k a n s

theorem slotWrite_canonical (k a : Nat) (bs : List Byte) : Canonical (slotWrite k a bs s) := by grind [slotWrite]
grind_pattern slotWrite_canonical => Canonical (slotWrite k a bs s)

theorem addSpread_canonical (faults : List LineFault) (k : Nat) (hsn : Option Nat) (ext : Extent) (w : Nat) (sub : Bool) (n a : Nat) (bs : List Byte) :
    Canonical (addSpread faults k hsn ext w sub n a bs s) := by
  induction n generalizing s a bs with
  | zero => exact hs
  | succ n ih =>
    unfold addSpread
    split
    · exact hs
    · refine ih ?_ _ _
      split <;> grind
grind_pattern addSpread_canonical => Canonical (addSpread faults k hsn ext w sub n a bs s)

theorem putBit_canonical (k u bit : Nat) (on : Bool) : Canonical (putBit k u bit on s) := by grind [putBit]
grind_pattern putBit_canonical => Canonical (putBit k u bit on s)

theorem freeEngines_canonical (id : Nat) : Canonical (freeEngines id s) := by grind [freeEngines]
grind_pattern freeEngines_canonical => Canonical (freeEngines id s)

theorem failSlot_canonical (k : Nat) : Canonical (failSlot k s) := by grind [failSlot]
grind_pattern failSlot_canonical => Canonical (failSlot k s)

theorem failHeat_canonical (k : Nat) : Canonical (failHeat k s) := by grind [failHeat]
grind_pattern failHeat_canonical => Canonical (failHeat k s)

/-! ### HeatApply -/

theorem addVector_canonical (faults : List LineFault) (k : Nat) (v : HeatVector) : Canonical (addVector faults k v s) := by grind [addVector]
grind_pattern addVector_canonical => Canonical (addVector faults k v s)

theorem markSurvivor_canonical (k u : Nat) : Canonical (markSurvivor k u s) := by grind [markSurvivor]
grind_pattern markSurvivor_canonical => Canonical (markSurvivor k u s)

theorem issueVector_canonical (faults : List LineFault) (k u : Nat) : Canonical (issueVector faults k u s) := by grind [issueVector]
grind_pattern issueVector_canonical => Canonical (issueVector faults k u s)

theorem applyContribution_canonical (k u typ frag : Nat) (data : List Byte) : Canonical (applyContribution k u typ frag data s) := by
  grind [applyContribution]
grind_pattern applyContribution_canonical => Canonical (applyContribution k u typ frag data s)

theorem acceptContribution_canonical (faults : List LineFault) (k u typ frag : Nat) (data : List Byte) :
    Canonical (acceptContribution faults k u typ frag data s).2 := by
  grind [acceptContribution]
grind_pattern acceptContribution_canonical => acceptContribution faults k u typ frag data s

theorem shadowItem_canonical (id msn : Nat) (act : Nat → State → State) (hact : ∀ x t, Canonical t → Canonical (act x t)) :
    Canonical (shadowItem id msn act s) := by
  grind [shadowItem]
grind_pattern shadowItem_canonical => Canonical (shadowItem id msn act s)

theorem shadowContribution_canonical (u typ frag : Nat) (data : List Byte) (k : Nat) : Canonical (shadowContribution u typ frag data k s) := by
  grind [shadowContribution]
grind_pattern shadowContribution_canonical => Canonical (shadowContribution u typ frag data k s)

theorem shadowCommit_canonical (faults : List LineFault) (hsn u k : Nat) : Canonical (shadowCommit faults hsn u k s) := by grind [shadowCommit]
grind_pattern shadowCommit_canonical => Canonical (shadowCommit faults hsn u k s)

theorem pokeRegion_canonical (addr : Nat → Nat) (n a : Nat) (bs : List Byte) : Canonical (pokeRegion addr n a bs s) := by
  fun_induction pokeRegion addr n a bs s <;> grind
grind_pattern pokeRegion_canonical => Canonical (pokeRegion addr n a bs s)

theorem writeImage_canonical (k : Nat) (im : SlotImage) : Canonical (writeImage k im s) := by grind [writeImage]
grind_pattern writeImage_canonical => Canonical (writeImage k im s)

/-! ### HeatClose -/

theorem reconstruct_canonical (k : Nat) : Canonical (reconstruct k s) := by grind [reconstruct]
grind_pattern reconstruct_canonical => Canonical (reconstruct k s)

theorem maskChunkEnd_canonical (k n : Nat) (fault : Bool) (faults : List LineFault) : Canonical (maskChunkEnd k n fault faults s) := by
  grind [maskChunkEnd]
grind_pattern maskChunkEnd_canonical => Canonical (maskChunkEnd k n fault faults s)

theorem treeChunk_canonical (faults : List LineFault) (k tree child chunk : Nat) (bs : List Byte) :
    Canonical (treeChunk faults k tree child chunk bs s) := by
  grind [treeChunk]
grind_pattern treeChunk_canonical => Canonical (treeChunk faults k tree child chunk bs s)

theorem sendPartial_canonical (k tree : Nat) : Canonical (sendPartial k tree s) := by
  unfold sendPartial; grind
grind_pattern sendPartial_canonical => Canonical (sendPartial k tree s)

theorem climb_canonical (k : Nat) : Canonical (climb k s) := by grind [climb]
grind_pattern climb_canonical => Canonical (climb k s)

theorem combine_canonical (k : Nat) (sub : Bool) (bs : List Byte) : Canonical (combine k sub bs s) := by grind [combine]
grind_pattern combine_canonical => Canonical (combine k sub bs s)

theorem subtractMasks_canonical (k : Nat) : Canonical (subtractMasks k s) := by grind [subtractMasks]
grind_pattern subtractMasks_canonical => Canonical (subtractMasks k s)

theorem noiseDraw_draw_canonical (k n : Nat) : Canonical (noiseDraw.draw k n s) := by
  fun_induction noiseDraw.draw k n s <;> grind
grind_pattern noiseDraw_draw_canonical => Canonical (noiseDraw.draw k n s)

theorem noiseDraw_canonical (k : Nat) : Canonical (noiseDraw k s) := by grind [noiseDraw]
grind_pattern noiseDraw_canonical => Canonical (noiseDraw k s)

theorem spoilStore_canonical (e n : Nat) : Canonical (spoilStore e n s) := poke_canonical (s := (drawFree s).2) hs ..
grind_pattern spoilStore_canonical => Canonical (spoilStore e n s)

theorem sealResult_canonical (k : Nat) (body : List Byte) : Canonical (sealResult k body s) := by grind [sealResult]
grind_pattern sealResult_canonical => Canonical (sealResult k body s)

theorem rootSteps_canonical (k : Nat) : Canonical (rootSteps k s) := by
  fun_cases rootSteps k s <;> grind
grind_pattern rootSteps_canonical => Canonical (rootSteps k s)

/-! ### HeatPhase -/

theorem endOne_canonical (k : Nat) : Canonical (endOne k s) := by grind [endOne]
grind_pattern endOne_canonical => Canonical (endOne k s)

theorem endPhase_canonical (k : Nat) : Canonical (endPhase k s) := by grind [endPhase]
grind_pattern endPhase_canonical => Canonical (endPhase k s)

theorem takeDeadlines_canonical (k stroke n : Nat) : Canonical (takeDeadlines k stroke n s) := by
  fun_induction takeDeadlines k stroke n s <;> grind
grind_pattern takeDeadlines_canonical => Canonical (takeDeadlines k stroke n s)

theorem resumeSlot_canonical (k : Nat) : Canonical (resumeSlot k s) := by grind [resumeSlot]
grind_pattern resumeSlot_canonical => Canonical (resumeSlot k s)

theorem deadlinesReleased_canonical (target : Nat) : Canonical (deadlinesReleased target s) := by grind [deadlinesReleased]
grind_pattern deadlinesReleased_canonical => Canonical (deadlinesReleased target s)

theorem deadlinesExpired_canonical (target : Nat) : Canonical (deadlinesExpired target s) := by grind [deadlinesExpired]
grind_pattern deadlinesExpired_canonical => Canonical (deadlinesExpired target s)

theorem progress_canonical (k : Nat) : Canonical (progress k s) := by grind [progress]
grind_pattern progress_canonical => Canonical (progress k s)

theorem takeVerdict_canonical (k ph : Nat) (ok : Bool) (seed : List Byte) (homes : List (Nat × Nat × Nat)) (total : Nat) :
    Canonical (takeVerdict k ph ok seed homes total s) := by
  grind [takeVerdict]
grind_pattern takeVerdict_canonical => Canonical (takeVerdict k ph ok seed homes total s)

theorem takeHeatMsg_canonical (k : Nat) (m : HeatMsg) : Canonical (takeHeatMsg k m s) := by unfold takeHeatMsg; grind
grind_pattern takeHeatMsg_canonical => Canonical (takeHeatMsg k m s)

theorem heatLoop_canonical (n : Nat) : Canonical (heatLoop n s) := by
  fun_induction heatLoop n s <;> grind
grind_pattern heatLoop_canonical => Canonical (heatLoop n s)

omit hs in
theorem heatRow_canonical (s' : State) (hs' : Canonical s') : Canonical (heatRow s s') := by
  have hloop : Canonical (heatLoop 4096 (retryTree s')) := heatLoop_canonical (canonical_of_mem hs' retryTree_mem) _
  exact canonical_of_mem hloop (by simp [heatRow])
grind_pattern heatRow_canonical => Canonical (heatRow s s')

theorem exchangeTimeout_canonical (k : Nat) : Canonical (exchangeTimeout k s) := by grind [exchangeTimeout]
grind_pattern exchangeTimeout_canonical => Canonical (exchangeTimeout k s)

/-! ### HeatIngress -/

theorem serveMessage_canonical (faults : List LineFault) (q : Nat) (queue : Bool) (k : Nat) (hd : HeatHeader) (parsed : Nat)
    (kEd ePk plain : List Byte) :
    PipedCanonical (serveMessage faults q queue k hd parsed kEd ePk plain s) := by
  grind [serveMessage, PipedCanonical]
grind_pattern serveMessage_canonical => serveMessage faults q queue k hd parsed kEd ePk plain s

theorem pipeline_canonical (faults : List LineFault) (q n : Nat) (queue : Bool) (msg : List Byte) (parsed : Nat) (accepted : Option Nat) :
    PipedCanonical (pipeline faults q n queue msg parsed accepted s) := by
  fun_cases pipeline faults q n queue msg parsed accepted s <;> grind [PipedCanonical]
grind_pattern pipeline_canonical => pipeline faults q n queue msg parsed accepted s

theorem messageRow_canonical (typ qpn : Nat) (faults : List LineFault) : Canonical (messageRow typ qpn faults s) := by
  fun_cases messageRow typ qpn faults s <;> grind [PipedCanonical]
grind_pattern messageRow_canonical => Canonical (messageRow typ qpn faults s)

theorem heldReply_canonical (qpn : Nat) (faults : List LineFault) : Canonical (heldReply qpn faults s) := by
  fun_cases heldReply qpn faults s <;> grind [PipedCanonical]
grind_pattern heldReply_canonical => Canonical (heldReply qpn faults s)

/-! ### HeatTaint -/

theorem taintRow_canonical (k a : Nat) (faults : List LineFault) : Canonical (taintRow k a faults s) := by grind [taintRow]
grind_pattern taintRow_canonical => Canonical (taintRow k a faults s)

theorem refillLine_canonical (k off : Nat) : Canonical (refillLine k off s) := by grind [refillLine]
grind_pattern refillLine_canonical => Canonical (refillLine k off s)

theorem remask_canonical (k off : Nat) : Canonical (remask k off s) := poke_canonical (unpoison_canonical hs _) ..
grind_pattern remask_canonical => Canonical (remask k off s)

theorem untaint_canonical (k : Nat) : Canonical (untaint k s) := by grind [untaint]
grind_pattern untaint_canonical => Canonical (untaint k s)

theorem restoreLine_canonical (lines : List (Nat × List Byte)) (k line : Nat) {t : State} (he : restoreLine lines k line s = some t) :
    Canonical t := by
  have hput (bs : List Byte) : Canonical (poke (unpoison s (line * 64)) (line * 64) (padTo 64 bs)) :=
    poke_canonical (unpoison_canonical hs _) ..
  unfold restoreLine at he
  dsimp only at he
  split at he
  · split at he
    · cases he
    · obtain ⟨bs, -, rfl⟩ := Option.map_eq_some_iff.mp he
      cases offsetIn (slotOf s k).acc (slotOf s k).v line with
      | none => exact hput bs
      | some off => exact refillLine_canonical (hput bs) k off
  · grind
  · grind
  · split at he
    · obtain ⟨bs, -, rfl⟩ := Option.map_eq_some_iff.mp he
      exact hput bs
    · cases he
  · cases he
grind_pattern restoreLine_canonical => restoreLine lines k line s, some t

theorem taintRecovery_canonical (k : Nat) (lines : List (Nat × List Byte)) (image : SlotImage) : Canonical (taintRecovery k lines image s) := by
  unfold taintRecovery
  dsimp only
  split
  · exact hs
  split
  · refine untaint_canonical (s := recount k _) ?_ k
    refine canonical_of_mem (foldl_canonical (fun s l hs => ?_) _ (writeImage_canonical (s := setSlot k _ s) hs ..)) (recount_mem k)
    cases h : restoreLine lines k l s with
    | none => exact hs
    | some t => exact restoreLine_canonical hs lines k l h
  · split
    · exact failHeat_canonical hs k
    next t ht => exact untaint_canonical (foldl_bind_canonical (fun s l t hs => restoreLine_canonical hs lines k l) _ hs ht) k
grind_pattern taintRecovery_canonical => Canonical (taintRecovery k lines image s)

theorem zeroExtent_canonical (e : Extent) : Canonical (zeroExtent e s) := by grind [zeroExtent]
grind_pattern zeroExtent_canonical => Canonical (zeroExtent e s)

theorem carve_canonical (h : HeatSlot) (lead : Bool) {x} {t : State} (he : carve h lead s = some (x, t)) : Canonical t := by
  unfold carve at he
  dsimp only at he
  split at he
  · cases he
  split at he
  · split at he
    · cases he
    · cases he
      have hz {l : List Extent} : Canonical (l.foldl (fun s e => zeroExtent e s) s) :=
        foldl_canonical (fun s e hs => zeroExtent_canonical hs e) l hs
      split
      · exact foldl_canonical (fun s e hs => poke_canonical hs ..) _ (zeroFill_canonical hz ..)
      · exact zeroFill_canonical hz ..
  · cases he
grind_pattern carve_canonical => carve h lead s, some (x, t)

theorem freeSlot_canonical (k : Nat) : Canonical (freeSlot k s) := by grind [freeSlot]
grind_pattern freeSlot_canonical => Canonical (freeSlot k s)

theorem openShadow_canonical (h : HeatSlot) {x} {t : State} (he : openShadow h s = some (x, t)) : Canonical t := by
  grind [openShadow, Option.map_eq_some_iff]
grind_pattern openShadow_canonical => openShadow h s, some (x, t)

theorem endOpen_canonical (k serial : Nat) : Canonical (endOpen k serial s) := by grind [endOpen]
grind_pattern endOpen_canonical => Canonical (endOpen k serial s)

theorem takeWhole_canonical (k : Nat) (h : HeatSlot) (im : SlotImage) : Canonical (takeWhole k h im s) := by grind [takeWhole]
grind_pattern takeWhole_canonical => Canonical (takeWhole k h im s)

theorem heatSys_canonical (faults : List LineFault) (m : SysMsg) : Canonical (heatSys faults m s) := by
  fun_cases heatSys faults m s <;> grind
grind_pattern heatSys_canonical => Canonical (heatSys faults m s)

theorem heatChunk_canonical (faults : List LineFault) (p : Packet) : Canonical (heatChunk faults p s) := by grind [heatChunk]
grind_pattern heatChunk_canonical => Canonical (heatChunk faults p s)

/-! ### HeatCmd -/

theorem heatPoolSetBody_canonical (c : Cmd) : BodyCanonical (heatPoolSetBody c s) := by
  unfold heatPoolSetBody
  repeat refine bodyCanonical_bind fun _ _ => ?_
  grind [BodyCanonical]
grind_pattern heatPoolSetBody_canonical => BodyCanonical (heatPoolSetBody c s)

theorem heatOpenBody_canonical (faults : List LineFault) (c : Cmd) : BodyCanonical (heatOpenBody faults c s) := by
  unfold heatOpenBody
  repeat refine bodyCanonical_bind fun _ _ => ?_
  dsimp only
  split
  next h0 =>
    exact canonical_of_eq h0 (by grind)
  next obj s0 h0 =>
  replace h0 := canonical_of_eq h0 (by grind)
  repeat refine bodyCanonical_bind fun _ _ => ?_
  split
  · trivial
  repeat refine bodyCanonical_bind fun _ _ => ?_
  split
  · trivial
  next h opened hc =>
  have h1 := carve_canonical h0 _ _ hc
  clear hc
  split
  next hw => exact canonical_of_eq hw (canonical_of_mem h0 (by simp))
  next secret w hw =>
  replace hw := canonical_of_eq hw (canonical_of_mem h0 (by simp))
  split
  next hv => exact canonical_of_eq hv (canonical_of_mem hw (by simp))
  next draw v hv =>
  replace hv := canonical_of_eq hv (canonical_of_mem hw (by simp))
  have h2 (h : HeatSlot) (i : Nat) : Canonical (setSlot i h { opened with rng := v.rng, regs := v.regs }) :=
    h1
  grind [BodyCanonical]
grind_pattern heatOpenBody_canonical => BodyCanonical (heatOpenBody faults c s)

theorem heatAdvanceBody_canonical (c : Cmd) : BodyCanonical (heatAdvanceBody c s) := by
  unfold heatAdvanceBody; grind [BodyCanonical]
grind_pattern heatAdvanceBody_canonical => BodyCanonical (heatAdvanceBody c s)

theorem heatAbortBody_canonical (c : Cmd) : BodyCanonical (heatAbortBody c s) := by grind [heatAbortBody, BodyCanonical]
grind_pattern heatAbortBody_canonical => BodyCanonical (heatAbortBody c s)

theorem heatQueryBody_canonical (c : Cmd) : BodyCanonical (heatQueryBody c s) := by grind [heatQueryBody, BodyCanonical]
grind_pattern heatQueryBody_canonical => BodyCanonical (heatQueryBody c s)

theorem heatCollectBody_canonical (c : Cmd) : BodyCanonical (heatCollectBody c s) := by
  unfold heatCollectBody
  repeat refine bodyCanonical_bind fun _ _ => ?_
  split <;> repeat refine bodyCanonical_bind fun _ _ => ?_
  all_goals grind [BodyCanonical]
grind_pattern heatCollectBody_canonical => BodyCanonical (heatCollectBody c s)

/-! ### Seal -/

theorem attestReportBody_canonical (c : Cmd) : BodyCanonical (attestReportBody c s) := by
  unfold attestReportBody
  repeat refine bodyCanonical_bind fun _ _ => ?_
  grind [BodyCanonical]
grind_pattern attestReportBody_canonical => BodyCanonical (attestReportBody c s)

theorem certReadBody_canonical (c : Cmd) : BodyCanonical (certReadBody c s) := by
  unfold certReadBody
  repeat refine bodyCanonical_bind fun _ _ => ?_
  grind [BodyCanonical]
grind_pattern certReadBody_canonical => BodyCanonical (certReadBody c s)

theorem bounceAddBody_canonical (c : Cmd) : BodyCanonical (bounceAddBody c s) := by
  unfold bounceAddBody
  repeat refine bodyCanonical_bind fun _ _ => ?_
  grind [BodyCanonical]
grind_pattern bounceAddBody_canonical => BodyCanonical (bounceAddBody c s)

theorem bounceRemoveBody_canonical (c : Cmd) : BodyCanonical (bounceRemoveBody c s) := by
  unfold bounceRemoveBody
  repeat refine bodyCanonical_bind fun _ _ => ?_
  grind [BodyCanonical]
grind_pattern bounceRemoveBody_canonical => BodyCanonical (bounceRemoveBody c s)

theorem opkeyLoadBody_canonical (key : HostRead) (c : Cmd) : BodyCanonical (opkeyLoadBody key c s) := by
  unfold opkeyLoadBody; grind [BodyCanonical]
grind_pattern opkeyLoadBody_canonical => BodyCanonical (opkeyLoadBody key c s)

theorem opkeyRemoveBody_canonical (c : Cmd) : BodyCanonical (opkeyRemoveBody c s) := by grind [opkeyRemoveBody, BodyCanonical]
grind_pattern opkeyRemoveBody_canonical => BodyCanonical (opkeyRemoveBody c s)

theorem zeroNearLake_canonical : Canonical (zeroNearLake s) := zeroFill_canonical (zeroFill_canonical hs ..) ..
grind_pattern zeroNearLake_canonical => Canonical (zeroNearLake s)

theorem releaseFar_canonical : Canonical (releaseFar s) := hs
grind_pattern releaseFar_canonical => Canonical (releaseFar s)

theorem sealArmBody_canonical (c : Cmd) : BodyCanonical (sealArmBody c s) := by grind [sealArmBody, BodyCanonical]
grind_pattern sealArmBody_canonical => BodyCanonical (sealArmBody c s)

/-! ### Spdm -/

theorem vendorBody_canonical (data : HostRead) (c : Cmd) : BodyCanonical (vendorBody data c s) := by grind [vendorBody, BodyCanonical]
grind_pattern vendorBody_canonical => BodyCanonical (vendorBody data c s)

theorem answerVendorCommand_canonical (p : Nat) (data : HostRead) (body : List Byte) : Canonical (answerVendorCommand p data body s).2 := by
  have hvendor (c : Cmd) : BodyCanonical (vendorBody data c s) := vendorBody_canonical hs data c
  fun_cases answerVendorCommand p data body s <;> grind [BodyCanonical]
grind_pattern answerVendorCommand_canonical => answerVendorCommand p data body s

theorem inSession_canonical (x : Option Session) (f : Session → Answer) (hf : ∀ x, Canonical (f x).2) : Canonical (inSession x f s).2 := by
  unfold inSession; grind
grind_pattern inSession_canonical => inSession x f s

theorem answerOne_canonical (p row : Nat) (x : Option Session) (data : HostRead) (m : List Byte) : Canonical (answerOne p row x data m s).2 := by
  fun_cases answerOne p row x data m s <;> grind
grind_pattern answerOne_canonical => answerOne p row x data m s

theorem answerChunkSend_canonical (p : Nat) (x : Option Session) (data : HostRead) (m : List Byte) :
    Canonical (answerChunkSend p x data m s).2 := by
  grind [answerChunkSend]
grind_pattern answerChunkSend_canonical => answerChunkSend p x data m s

theorem spdmRow_canonical (row p : Nat) (req : List Byte) (data : HostRead) : Canonical (spdmRow row p req data s) := by
  fun_cases spdmRow row p req data s <;> grind
grind_pattern spdmRow_canonical => Canonical (spdmRow row p req data s)

/-! ### Mover -/

theorem writeLeaf_canonical (faults : List LineFault) (pte : Nat) (f : Nat → Nat) : Canonical (writeLeaf faults pte f s).2 := by
  grind [writeLeaf]
grind_pattern writeLeaf_canonical => writeLeaf faults pte f s

theorem abandonPage_canonical : Canonical (abandonPage s) := by
  unfold abandonPage; grind
grind_pattern abandonPage_canonical => Canonical (abandonPage s)

theorem halveLeaves_canonical (table : Nat) : Canonical (halveLeaves table s) := by grind [halveLeaves]
grind_pattern halveLeaves_canonical => Canonical (halveLeaves table s)

theorem moverGo_canonical (n : Nat) : Canonical (moverGo n s) := by
  fun_induction moverGo n s <;> grind
grind_pattern moverGo_canonical => Canonical (moverGo n s)

theorem moverRun_canonical : Canonical (moverRun s) := by grind [moverRun]
grind_pattern moverRun_canonical => Canonical (moverRun s)

theorem copyPage_canonical (src dst : Nat) : Canonical (copyPage src dst s) := by
  obtain ⟨hcells, hpoison⟩ := hs
  obtain ⟨hrise, hnonzero⟩ := (cellsWf_iff _).1 hcells
  have hkept (p : Nat × Byte → Bool) : cellsWf (s.mem.cells.filter p) = true :=
    (cellsWf_iff _).2 ⟨hrise.filter p, fun e he => hnonzero e (List.mem_of_mem_filter he)⟩
  refine ⟨cellsWf_foldl_put _ _ (fun e he => ?_) (hkept _), rising_foldl_insertNat _ _ (rising_filter _ _ hpoison)⟩
  obtain ⟨c, hc, rfl⟩ := List.mem_map.1 he
  exact hnonzero c (List.mem_of_mem_filter hc)
grind_pattern copyPage_canonical => Canonical (copyPage src dst s)

theorem readPage_canonical (faults : List LineFault) (poisonLines : List Nat) (sector base : Nat) :
    Canonical (readPage faults poisonLines sector base s) := by
  grind [readPage]
grind_pattern readPage_canonical => Canonical (readPage faults poisonLines sector base s)

theorem pageMoveEnd_canonical (tagFail : Bool) (poisonLines : List Nat) (faults : List LineFault) :
    Canonical (pageMoveEnd tagFail poisonLines faults s) := by
  fun_cases pageMoveEnd tagFail poisonLines faults s <;> grind
grind_pattern pageMoveEnd_canonical => Canonical (pageMoveEnd tagFail poisonLines faults s)

theorem fillFar_canonical (n base size : Nat) : Canonical (fillFar n base size s) := by grind [fillFar]
grind_pattern fillFar_canonical => Canonical (fillFar n base size s)

theorem fillEnd_canonical : Canonical (fillEnd s) := by
  unfold fillEnd; grind
grind_pattern fillEnd_canonical => Canonical (fillEnd s)

theorem queueMove_canonical (m : Mover) : Canonical (queueMove m s) := by grind [queueMove]
grind_pattern queueMove_canonical => Canonical (queueMove m s)

theorem entryReads_canonical (faults : List LineFault) (l : List Nat) : Canonical (entryReads faults l s).2 := by
  fun_induction entryReads faults l s <;> grind
grind_pattern entryReads_canonical => entryReads faults l s

theorem tierMoveBody_canonical (faults : List LineFault) (c : Cmd) : BodyCanonical (tierMoveBody faults c s) := by
  unfold tierMoveBody
  refine bodyCanonical_bind fun _ _ => ?_
  split
  · refine bodyCanonical_bind fun _ _ => ?_
    dsimp only
    split
    · repeat refine bodyCanonical_bind fun _ _ => ?_
      grind [BodyCanonical]
    · grind [BodyCanonical]
  · refine bodyCanonical_bind fun _ _ => ?_
    split
    · repeat refine bodyCanonical_bind fun _ _ => ?_
      grind [BodyCanonical]
    · grind [BodyCanonical]
grind_pattern tierMoveBody_canonical => BodyCanonical (tierMoveBody faults c s)

theorem memZeroBody_canonical (c : Cmd) : BodyCanonical (memZeroBody c s) := by grind [memZeroBody, BodyCanonical]
grind_pattern memZeroBody_canonical => BodyCanonical (memZeroBody c s)

theorem farAssignBody_canonical (c : Cmd) : BodyCanonical (farAssignBody c s) := by
  unfold farAssignBody; grind [BodyCanonical]
grind_pattern farAssignBody_canonical => BodyCanonical (farAssignBody c s)

theorem stopMoves_canonical (p : Mover → Bool) (status : Nat) : Canonical (stopMoves p status s) := by grind [stopMoves]
grind_pattern stopMoves_canonical => Canonical (stopMoves p status s)

theorem holdMover_canonical (n : Nat) : Canonical (holdMover n s) := by grind [holdMover]
grind_pattern holdMover_canonical => Canonical (holdMover n s)

theorem releaseMover_canonical (n : Nat) : Canonical (releaseMover n s) := by grind [releaseMover]
grind_pattern releaseMover_canonical => Canonical (releaseMover n s)

theorem cxlOffline_canonical (p cause : Nat) : Canonical (cxlOffline p cause s) := by grind [cxlOffline]
grind_pattern cxlOffline_canonical => Canonical (cxlOffline p cause s)

/-! ### Quiesce -/

theorem yieldMover_canonical (n : Nat) : Canonical (yieldMover n s) := by grind [yieldMover]
grind_pattern yieldMover_canonical => Canonical (yieldMover n s)

theorem quiesceSector_canonical (n mask : Nat) : Canonical (quiesceSector n mask s) := by grind [quiesceSector]
grind_pattern quiesceSector_canonical => Canonical (quiesceSector n mask s)

theorem releaseSector_canonical (n mask : Nat) : Canonical (releaseSector n mask s) := by grind [releaseSector]
grind_pattern releaseSector_canonical => Canonical (releaseSector n mask s)

theorem quiesceBody_canonical (c : Cmd) : BodyCanonical (quiesceBody c s) := by grind [quiesceBody, BodyCanonical]
grind_pattern quiesceBody_canonical => BodyCanonical (quiesceBody c s)

theorem yieldResume_canonical : Canonical (yieldResume s) := by grind [yieldResume]
grind_pattern yieldResume_canonical => Canonical (yieldResume s)

/-! ### Pair -/

theorem switchLinks_canonical (pair : Bool) : Canonical (switchLinks pair s) := by grind [switchLinks]
grind_pattern switchLinks_canonical => Canonical (switchLinks pair s)

theorem unmirror_canonical (k : Nat) : Canonical (unmirror k s) := by grind [unmirror]
grind_pattern unmirror_canonical => Canonical (unmirror k s)

theorem dropOpening_canonical : Canonical (dropOpening s) := by grind [dropOpening]
grind_pattern dropOpening_canonical => Canonical (dropOpening s)

theorem enterSolo_canonical : Canonical (enterSolo s) := by grind [enterSolo]
grind_pattern enterSolo_canonical => Canonical (enterSolo s)

theorem takeSlot_canonical (k : Nat) : Canonical (takeSlot k s) := by grind [takeSlot]
grind_pattern takeSlot_canonical => Canonical (takeSlot k s)

theorem takeover_canonical (cond : Nat) : Canonical (takeover cond s) := by
  unfold takeover
  extract_lets failed ks s1 s2 s3 _ s4 s5
  have h1 : Canonical s1 := foldl_canonical (fun _ k hs => takeSlot_canonical hs k) ks hs
  have h2 : Canonical s2 := canonical_of_mem h1 (substitute_mem ..)
  have h3 : Canonical s3 := by
    unfold s3
    split
    · exact foldl_canonical (fun _ k hs => unmirror_canonical hs k) _ h2
    · exact h2
  have h4 : Canonical s4 := enterSolo_canonical (s := setPair _ s3) h3
  have h5 : Canonical s5 := canonical_of_mem h4 (foldl_mem (fun _ k => takeoverRecord_mem ..) ks s4)
  exact foldl_canonical (fun _ k hs => resumeSlot_canonical hs k) ks (s := bump s5 _) h5
grind_pattern takeover_canonical => Canonical (takeover cond s)

theorem missLimitReached_canonical : Canonical (missLimitReached s) := by grind [missLimitReached]
grind_pattern missLimitReached_canonical => Canonical (missLimitReached s)

theorem fenceConf_canonical (on : Bool) : Canonical (fenceConf on s) := by grind [fenceConf]
grind_pattern fenceConf_canonical => Canonical (fenceConf on s)

theorem graceExpiry_canonical : Canonical (graceExpiry s) := by grind [graceExpiry]
grind_pattern graceExpiry_canonical => Canonical (graceExpiry s)

theorem freeStopped_canonical (k : Nat) : Canonical (freeStopped k s) := by grind [freeStopped]
grind_pattern freeStopped_canonical => Canonical (freeStopped k s)

theorem heardTwin_canonical (viaLink : Bool) (st : Nat) : Canonical (heardTwin viaLink st s) := by grind [heardTwin]
grind_pattern heardTwin_canonical => Canonical (heardTwin viaLink st s)

theorem heartbeatFlit_canonical (link : Nat) (flit : List Byte) : Canonical (heartbeatFlit link flit s) := by grind [heartbeatFlit]
grind_pattern heartbeatFlit_canonical => Canonical (heartbeatFlit link flit s)

theorem pairHeartbeat_canonical (p : RocePacket) (now : Nat) : Canonical (pairHeartbeat p now s) := by grind [pairHeartbeat]
grind_pattern pairHeartbeat_canonical => Canonical (pairHeartbeat p now s)

theorem endPair_canonical : Canonical (endPair s) := by
  unfold endPair
  extract_lets s1 s2 s3 s4 _ s5 _ s6
  have h1 : Canonical s1 := canonical_of_mem (dropOpening_canonical hs) dropMoves_mem
  have h2 : Canonical s2 := foldl_canonical (fun _ k hs => unmirror_canonical hs k) _ h1
  have h3 : Canonical s3 := foldl_canonical (fun _ k hs => freeSlot_canonical hs k) _ h2
  have h5 : s5.mem = s3.mem := by
    unfold s5
    split <;> simp [s4]
  exact switchLinks_canonical (s := driveFence false (setPair {} s6)) (canonical_of_mem h3 (by simpa [s6] using h5)) false
grind_pattern endPair_canonical => Canonical (endPair s)

theorem pairFormBody_canonical (c : Cmd) : BodyCanonical (pairFormBody c s) := by
  unfold pairFormBody
  repeat refine bodyCanonical_bind fun _ _ => ?_
  grind [BodyCanonical]
grind_pattern pairFormBody_canonical => BodyCanonical (pairFormBody c s)

theorem endForm_canonical (status : Nat) : Canonical (endForm status s) := by grind [endForm]
grind_pattern endForm_canonical => Canonical (endForm status s)

theorem formWaitExpiry_canonical : Canonical (formWaitExpiry s) := by grind [formWaitExpiry]
grind_pattern formWaitExpiry_canonical => Canonical (formWaitExpiry s)

theorem takeHello_canonical (twin : Nat) (side : Bool) (qpn : Nat) : Canonical (takeHello twin side qpn s) := by grind [takeHello]
grind_pattern takeHello_canonical => Canonical (takeHello twin side qpn s)

theorem pairBreakBody_canonical (c : Cmd) : BodyCanonical (pairBreakBody c s) := by grind [pairBreakBody, BodyCanonical]
grind_pattern pairBreakBody_canonical => BodyCanonical (pairBreakBody c s)

theorem pairTakeoverBody_canonical (c : Cmd) : BodyCanonical (pairTakeoverBody c s) := by grind [pairTakeoverBody, BodyCanonical]
grind_pattern pairTakeoverBody_canonical => BodyCanonical (pairTakeoverBody c s)

theorem takeHandover_canonical (h : HeatSlot) (im : SlotImage) : Canonical (takeHandover h im s) := by
  unfold takeHandover
  split
  · exact canonical_of_mem hs (by split <;> simp)
  next k _ =>
    have htaken : Canonical (takeSlot k (takeWhole k h im s)) := takeSlot_canonical (takeWhole_canonical hs ..) k
    grind
grind_pattern takeHandover_canonical => Canonical (takeHandover h im s)

theorem handoverDone_canonical (id : Nat) : Canonical (handoverDone id s) := by grind [handoverDone]
grind_pattern handoverDone_canonical => Canonical (handoverDone id s)

theorem detach_canonical : Canonical (detach s) := by grind [detach]
grind_pattern detach_canonical => Canonical (detach s)

theorem detachWork_canonical : Canonical (detachWork s) := by grind [detachWork]
grind_pattern detachWork_canonical => Canonical (detachWork s)

theorem trayDetachBody_canonical (c : Cmd) : BodyCanonical (trayDetachBody c s) := by grind [trayDetachBody, BodyCanonical]
grind_pattern trayDetachBody_canonical => BodyCanonical (trayDetachBody c s)

omit hs in
theorem pairRow_canonical (s' : State) (hs' : Canonical s') : Canonical (pairRow s s') := by grind [pairRow]
grind_pattern pairRow_canonical => Canonical (pairRow s s')

theorem takeSys_canonical (faults : List LineFault) (m : SysMsg) : Canonical (takeSys faults m s) := by unfold takeSys; grind
grind_pattern takeSys_canonical => Canonical (takeSys faults m s)

/-! ### Power -/

theorem loseOff_canonical (kind i : Nat) : Canonical (loseOff kind i s) := by grind [loseOff]
grind_pattern loseOff_canonical => Canonical (loseOff kind i s)

theorem endMove_canonical (kind i : Nat) : Canonical (endMove kind i s) := by
  unfold endMove
  split
  · exact hs
  next t _ =>
    extract_lets _ s1 goal s2 s3 s4 s5
    have h2 : Canonical s2 := by
      unfold s2
      split
      · exact loseOff_canonical (s := s1) hs kind i
      · exact hs
    have h4 : Canonical s4 := canonical_of_mem h2 (by simp [s4, s3, foldl_mem])
    have h5 : Canonical s5 := by
      unfold s5
      split
      · exact latGo_canonical h4 i
      · exact h4
    refine canonical_of_mem h5 ?_
    grind
grind_pattern endMove_canonical => Canonical (endMove kind i s)

theorem powerSetBody_canonical (c : Cmd) : BodyCanonical (powerSetBody c s) := by
  unfold powerSetBody
  repeat refine bodyCanonical_bind fun _ _ => ?_
  grind [BodyCanonical]
grind_pattern powerSetBody_canonical => BodyCanonical (powerSetBody c s)

/-! ### SectorReset -/

theorem failHeats_canonical (n : Nat) : Canonical (failHeats n s) := by grind [failHeats]
grind_pattern failHeats_canonical => Canonical (failHeats n s)

theorem endSector_canonical (n : Nat) : Canonical (endSector n s) := by
  have hstop : Canonical (stopMoves (fun m => m.sector = n && !isFarAssign m) stHwFault (cancelSectorMarks n s)) :=
    stopMoves_canonical (canonical_of_mem hs (by simp)) ..
  exact canonical_of_mem (freeContexts_canonical hstop n) (by simp [endSector])
grind_pattern endSector_canonical => Canonical (endSector n s)

theorem sectorResetNow_canonical (n : Nat) : Canonical (sectorResetNow n s) := by grind [sectorResetNow]
grind_pattern sectorResetNow_canonical => Canonical (sectorResetNow n s)

/-! ### Sectors -/

theorem stopDeparting_canonical (e : Nat) : Canonical (stopDeparting e s) := by
  unfold stopDeparting; grind
grind_pattern stopDeparting_canonical => Canonical (stopDeparting e s)

theorem drainTimeout_canonical : Canonical (drainTimeout s) := by
  fun_cases drainTimeout s <;> grind
grind_pattern drainTimeout_canonical => Canonical (drainTimeout s)

theorem commitSector_canonical (op : SectorOp) (c : Cmd) : Canonical (commitSector op c s) := by grind [commitSector]
grind_pattern commitSector_canonical => Canonical (commitSector op c s)

theorem sectorBody_canonical (op : SectorOp) (c : Cmd) : BodyCanonical (sectorBody op c s) := by grind [sectorBody, BodyCanonical]
grind_pattern sectorBody_canonical => BodyCanonical (sectorBody op c s)

theorem unmapDeparting_canonical (c : SectorCmd) : Canonical (unmapDeparting c s) := by grind [unmapDeparting]
grind_pattern unmapDeparting_canonical => Canonical (unmapDeparting c s)

theorem clearMove_canonical (m : Move) : Canonical (clearMove s m) := by grind [clearMove]
grind_pattern clearMove_canonical => Canonical (clearMove s m)

theorem pendingResets_canonical : Canonical (pendingResets s) := by grind [pendingResets]
grind_pattern pendingResets_canonical => Canonical (pendingResets s)

theorem sectorDone_canonical : Canonical (sectorDone s) := by grind [sectorDone]
grind_pattern sectorDone_canonical => Canonical (sectorDone s)

theorem shiftClearEnd_canonical : Canonical (shiftClearEnd s) := by
  unfold shiftClearEnd
  split
  · exact hs
  split
  · exact hs
  split
  · split
    · exact foldl_canonical (fun _ e hs => stopDeparting_canonical hs e) _ hs
    · exact hs
  next c _ _ _ =>
    extract_lets moves s1 s2 s3 s4 s5 s6
    have h2 : Canonical s2 := by
      unfold s2
      split
      · exact endSector_canonical (unmapDeparting_canonical hs c) _
      · exact unmapDeparting_canonical hs c
    have h3 : Canonical s3 := foldl_canonical (fun _ m hs => clearMove_canonical hs m) _ h2
    have h5 : s5.mem = s3.mem := by simp [s5, s4, foldl_mem]
    have h6 : s6.mem = s5.mem := by
      unfold s6
      split
      · exact disableRings_mem ..
      · rfl
    exact sectorDone_canonical (latGoAll_canonical (s := trimPools s6) (canonical_of_mem h3 (h6.trans h5)))
grind_pattern shiftClearEnd_canonical => Canonical (shiftClearEnd s)

theorem powerEnd_canonical (kind i : Nat) : Canonical (powerEnd kind i s) := by grind [powerEnd]
grind_pattern powerEnd_canonical => Canonical (powerEnd kind i s)

theorem resetSector_canonical (n : Nat) : Canonical (resetSector n s) := by grind [resetSector]
grind_pattern resetSector_canonical => Canonical (resetSector n s)

/-! ### Boot -/

theorem bringUp_canonical (p : Nat) (x : ExpanderEnv) : Canonical (bringUp p x s) := by unfold bringUp; grind
grind_pattern bringUp_canonical => Canonical (bringUp p x s)

theorem bringUpBoth_canonical (env : BootEnv) : Canonical (bringUpBoth env s) := by grind [bringUpBoth]
grind_pattern bringUpBoth_canonical => Canonical (bringUpBoth env s)

theorem startBoot_canonical (cold : Option BootEnv) : Canonical (startBoot cold s) := by
  cases cold with
  | none => exact canonical_of_mem hs (by simp [startBoot])
  | some env =>
    have hup (t : State) (h : t.mem = s.mem) :
        Canonical (if t.sealing.retain && !t.sealing.sealed then beginScrub env.hbm (bringUpBoth env t) else t) := by
      have ht : Canonical t := canonical_of_mem hs h
      split
      · exact canonical_of_mem (bringUpBoth_canonical ht env) (beginScrub_mem ..)
      · exact ht
    exact canonical_of_mem (hup _ (by simp)) selectImage_mem
grind_pattern startBoot_canonical => Canonical (startBoot cold s)

omit hs in
theorem powerCycled_canonical : Canonical (powerCycled s) := ⟨rfl, rfl⟩
grind_pattern powerCycled_canonical => Canonical (powerCycled s)

theorem coldReset_canonical (env : BootEnv) : Canonical (coldReset env s) := by grind [coldReset]
grind_pattern coldReset_canonical => Canonical (coldReset env s)

theorem restoreCold_canonical (env : BootEnv) : Canonical (restoreCold env s) := by grind [restoreCold]
grind_pattern restoreCold_canonical => Canonical (restoreCold env s)

theorem enterSealed_canonical (draw : List Byte) : Canonical (enterSealed draw s) :=
  releaseFar_canonical (zeroNearLake_canonical (s := setSealing _ s) hs)
grind_pattern enterSealed_canonical => Canonical (enterSealed draw s)

theorem bootDraws_canonical  {t : State} (he : bootDraws s = some t) : Canonical t := by
  unfold bootDraws at he
  split at he
  · cases he
  next h =>
    have h0 := canonical_of_eq h (canonical_of_mem hs (by simp))
    grind
grind_pattern bootDraws_canonical => bootDraws s, some t

theorem endScrub_canonical : Canonical (endScrub s) := by grind [endScrub]
grind_pattern endScrub_canonical => Canonical (endScrub s)

theorem finishBoot_canonical : Canonical (finishBoot s) := by grind [finishBoot]
grind_pattern finishBoot_canonical => Canonical (finishBoot s)

theorem bootDone_canonical (env : BootEnv) : Canonical (bootDone env s) := by grind [bootDone]
grind_pattern bootDone_canonical => Canonical (bootDone env s)

theorem fwActivateBody_canonical (image : HostRead) (c : Cmd) : BodyCanonical (fwActivateBody image c s) := by
  unfold fwActivateBody
  repeat refine bodyCanonical_bind fun _ _ => ?_
  grind [BodyCanonical]
grind_pattern fwActivateBody_canonical => BodyCanonical (fwActivateBody image c s)

/-! ### Operands -/

theorem illegal_canonical : IssuedCanonical (illegal s) := hs
grind_pattern illegal_canonical => IssuedCanonical (illegal s)

theorem fetchWord_canonical (c : Crew) (g : Group) (l : Launch) : FetchedCanonical (fetchWord c g l s) := by
  unfold fetchWord
  split
  · exact hs
  have hx := translate_canonical hs [] (g.scull / 8) l.ctx .fetch c.pc
  split
  next h => exact xlatCanonical_of_eq h hx
  next h => exact xlatCanonical_of_eq h hx
  · trivial
  next a t h =>
    have ht : Canonical t := xlatCanonical_of_eq h hx
    split
    next hr => exact canonical_of_eq hr (faultyRead_canonical ht ..)
    next hr => exact canonical_of_eq hr (faultyRead_canonical ht ..)
grind_pattern fetchWord_canonical => fetchWord c g l s

theorem issue_canonical (act : ActFn) (ops : List Nat) (crew : Nat) (body : Issue → State → Issued)
    (hact : ∀ r b t, Canonical t → Canonical (act r b t).2) (hbody : ∀ x t, Canonical t → IssuedCanonical (body x t)) :
    Canonical (issue act ops crew body s) := by
  fun_cases issue act ops crew body s <;> grind [FetchedCanonical, IssuedCanonical]
grind_pattern issue_canonical => Canonical (issue act ops crew body s)

theorem threadBody_canonical (sh : Shape) (f : Issue → Nat → Nat → Nat → Nat → Nat) (i : Issue) : IssuedCanonical (threadBody sh f i s) := by
  grind [threadBody, IssuedCanonical]
grind_pattern threadBody_canonical => IssuedCanonical (threadBody sh f i s)

theorem crewBody_canonical (ok : Issue → Bool) (f : Issue → State → Issued) (i : Issue) (hf : ∀ x t, Canonical t → IssuedCanonical (f x t)) :
    IssuedCanonical (crewBody ok f i s) := by
  grind [crewBody, IssuedCanonical]
grind_pattern crewBody_canonical => IssuedCanonical (crewBody ok f i s)

/-! ### Scull -/

theorem crewStep_canonical (ops : List Nat) (crew : Nat) (body : Issue → State → Issued) (hbody : ∀ x t, Canonical t → IssuedCanonical (body x t)) :
    OutCanonical (crewStep ops crew body s) :=
  issue_canonical hs _ _ _ _ (fun r b _ ht => canonical_of_mem ht (by simp)) hbody
grind_pattern crewStep_canonical => crewStep ops crew body s

theorem braBody_canonical (i : Issue) : IssuedCanonical (braBody i s) := by grind [braBody, IssuedCanonical]
grind_pattern braBody_canonical => IssuedCanonical (braBody i s)

theorem barBody_canonical (i : Issue) : IssuedCanonical (barBody i s) := by grind [barBody, IssuedCanonical]
grind_pattern barBody_canonical => IssuedCanonical (barBody i s)

theorem fenceBody_canonical (i : Issue) : IssuedCanonical (fenceBody i s) := by grind [fenceBody, IssuedCanonical]
grind_pattern fenceBody_canonical => IssuedCanonical (fenceBody i s)

theorem missue_canonical (i : Issue) : IssuedCanonical (missue i s) := by grind [missue, IssuedCanonical]
grind_pattern missue_canonical => IssuedCanonical (missue i s)

theorem pushWords_canonical (i : Issue) (ws : List Word32) : IssuedCanonical (pushWords i ws s) := by grind [pushWords, IssuedCanonical]
grind_pattern pushWords_canonical => IssuedCanonical (pushWords i ws s)

theorem intStep_canonical (op crew : Nat) (f : Bool → Nat → Nat → Nat) : OutCanonical (intStep op crew f s) := by
  grind [intStep, IssuedCanonical, OutCanonical]
grind_pattern intStep_canonical => intStep op crew f s

theorem movBody_canonical (i : Issue) : IssuedCanonical (movBody i s) := by grind [movBody, IssuedCanonical]
grind_pattern movBody_canonical => IssuedCanonical (movBody i s)

theorem iaddcBody_canonical (i : Issue) : IssuedCanonical (iaddcBody i s) := by grind [iaddcBody, IssuedCanonical]
grind_pattern iaddcBody_canonical => IssuedCanonical (iaddcBody i s)

theorem modularBody_canonical (good : Nat → Nat → Nat → Nat → Bool) (f : Nat → Nat → Nat → Nat → Nat) (i : Issue) :
    IssuedCanonical (modularBody good f i s) := by
  grind [modularBody, IssuedCanonical]
grind_pattern modularBody_canonical => IssuedCanonical (modularBody good f i s)

theorem floatStep_canonical (op crew : Nat) (f : Fp → Fp → Fp) : OutCanonical (floatStep op crew f s) := by
  grind [floatStep, IssuedCanonical, OutCanonical]
grind_pattern floatStep_canonical => floatStep op crew f s

theorem cvtBody_canonical (i : Issue) : IssuedCanonical (cvtBody i s) := by grind [cvtBody, IssuedCanonical]
grind_pattern cvtBody_canonical => IssuedCanonical (cvtBody i s)

theorem setpBody_canonical (f : Issue → Nat → Nat → Bool) (i : Issue) : IssuedCanonical (setpBody f i s) := by grind [setpBody, IssuedCanonical]
grind_pattern setpBody_canonical => IssuedCanonical (setpBody f i s)

theorem plopBody_canonical (i : Issue) : IssuedCanonical (plopBody i s) := by grind [plopBody, IssuedCanonical]
grind_pattern plopBody_canonical => IssuedCanonical (plopBody i s)

theorem scalarStep_canonical (op crew : Nat) (f : Bool → Nat → Nat → Nat) : OutCanonical (scalarStep op crew f s) := by
  grind [scalarStep, IssuedCanonical, OutCanonical]
grind_pattern scalarStep_canonical => scalarStep op crew f s

theorem scalarImm_canonical (op crew : Nat) (ok : Issue → Bool) (f : Issue → Nat) : OutCanonical (scalarImm op crew ok f s) := by
  grind [scalarImm, IssuedCanonical, OutCanonical]
grind_pattern scalarImm_canonical => scalarImm op crew ok f s

theorem s2vBody_canonical (i : Issue) : IssuedCanonical (s2vBody i s) := by grind [s2vBody, IssuedCanonical]
grind_pattern s2vBody_canonical => IssuedCanonical (s2vBody i s)

/-! ### ScullMem -/

theorem resolveGlobal_canonical (faults : List LineFault) (i : Issue) (want : Want) (bytes : Nat) (l : List Nat) :
    Canonical (resolveGlobal faults i want bytes l s).2.2.2 := by
  induction l generalizing s with
  | nil => exact hs
  | cons n l ih =>
    unfold resolveGlobal
    dsimp only
    split
    · exact hs
    have hx := translate_canonical hs faults (i.g.scull / 8) i.l.ctx want (i.addr 2 n)
    split
    next h => exact xlatCanonical_of_eq h hx
    next h => exact xlatCanonical_of_eq h hx
    · exact hs
    next a t h => exact ih (s := t) (xlatCanonical_of_eq h hx)
grind_pattern resolveGlobal_canonical => resolveGlobal faults i want bytes l s

theorem loadAll_canonical (faults : List LineFault) (i : Issue) (l : List (Nat × Nat)) : Canonical (loadAll faults i l s).2.2 := by
  fun_induction loadAll faults i l s <;> grind
grind_pattern loadAll_canonical => loadAll faults i l s

theorem endAccess_canonical (i : Issue) (isLocal : Bool) (ws : List (Nat × Word32)) (fault : Option Nat) :
    IssuedCanonical (endAccess i isLocal ws fault s) := by
  unfold endAccess; grind [IssuedCanonical]
grind_pattern endAccess_canonical => IssuedCanonical (endAccess i isLocal ws fault s)

theorem resolve_canonical (faults : List LineFault) (isLocal : Bool) (want : Want) (bytes : Nat) (ts : List Nat) (i : Issue)
    (k : List (Nat × Nat) → State → Issued) (hk : ∀ x t, Canonical t → IssuedCanonical (k x t)) :
    IssuedCanonical (resolve faults isLocal want bytes ts i s k) := by
  grind [resolve, IssuedCanonical]
grind_pattern resolve_canonical => IssuedCanonical (resolve faults isLocal want bytes ts i s k)

theorem loadBody_canonical (isLocal : Bool) (faults : List LineFault) (i : Issue) : IssuedCanonical (loadBody isLocal faults i s) := by
  grind [loadBody, IssuedCanonical]
grind_pattern loadBody_canonical => IssuedCanonical (loadBody isLocal faults i s)

theorem storeLine_canonical (faults : List LineFault) (line : Nat) (bytes : Table Byte) : Canonical (storeLine faults line bytes s).2 := by
  grind [storeLine]
grind_pattern storeLine_canonical => storeLine faults line bytes s

theorem storeLines_canonical (faults : List LineFault) (bytes : Table Byte) (l : List Nat) : Canonical (storeLines faults bytes l s).2 := by
  fun_induction storeLines faults bytes l s <;> grind
grind_pattern storeLines_canonical => storeLines faults bytes l s

theorem storeBody_canonical (isLocal : Bool) (faults : List LineFault) (i : Issue) : IssuedCanonical (storeBody isLocal faults i s) := by
  grind [storeBody, IssuedCanonical]
grind_pattern storeBody_canonical => IssuedCanonical (storeBody isLocal faults i s)

theorem atomAll_canonical (faults : List LineFault) (i : Issue) (l : List (Nat × Nat)) : Canonical (atomAll faults i l s).2.2 := by
  fun_induction atomAll faults i l s <;> grind
grind_pattern atomAll_canonical => atomAll faults i l s

theorem atomBody_canonical (isLocal : Bool) (faults : List LineFault) (i : Issue) : IssuedCanonical (atomBody isLocal faults i s) := by
  grind [atomBody, IssuedCanonical]
grind_pattern atomBody_canonical => IssuedCanonical (atomBody isLocal faults i s)

theorem laddAll_canonical (faults : List LineFault) (i : Issue) (l : List (Nat × Nat)) : Canonical (laddAll faults i l s).2 := by
  fun_induction laddAll faults i l s <;> grind
grind_pattern laddAll_canonical => laddAll faults i l s

theorem laddBody_canonical (faults : List LineFault) (i : Issue) : IssuedCanonical (laddBody faults i s) := by grind [laddBody, IssuedCanonical]
grind_pattern laddBody_canonical => IssuedCanonical (laddBody faults i s)

/-! ### Matrix -/

theorem readGlobal_canonical (faults : List LineFault) (g : Group) (x n a : Nat) : Canonical (readGlobal faults g x n a s).2 := by
  induction n generalizing s a with
  | zero => exact hs
  | succ n ih =>
    unfold readGlobal
    have hx := translate_canonical hs faults (g.scull / 8) x .read a
    split
    next h => exact xlatCanonical_of_eq h hx
    next h => exact xlatCanonical_of_eq h hx
    · exact hs
    next b t h =>
      have ht : Canonical t := xlatCanonical_of_eq h hx
      split
      next hr => exact canonical_of_eq hr (faultyRead_canonical ht ..)
      next hr =>
        have hu := canonical_of_eq hr (faultyRead_canonical ht ..)
        split
        next hg => exact canonical_of_eq hg (ih hu _)
        · exact ih hu _
grind_pattern readGlobal_canonical => readGlobal faults g x n a s

theorem readOperand_canonical (faults : List LineFault) (g : Group) (x : Nat) (isGlobal : Bool) (addr bytes : Nat) :
    Canonical (readOperand faults g x isGlobal addr bytes s).2 := by
  grind [readOperand]
grind_pattern readOperand_canonical => readOperand faults g x isGlobal addr bytes s

theorem descriptorComplete_canonical (j elapsed : Nat) (faults : List LineFault) : Canonical (descriptorComplete j elapsed faults s) := by
  unfold descriptorComplete
  have hend (t : State) (x : Sculls) (g elapsed : Nat) (ht : Canonical t) : Canonical (settleGroup g elapsed (setScl x t)) :=
    canonical_of_mem ht (by simp)
  repeat (split; exact hs)
  split
  · grind
  next h =>
  have h1 := canonical_of_eq (congrArg Prod.snd h) (canonical_of_mem hs (by simp))
  clear h
  split
  · exact canonical_of_mem h1 (by simp)
  split
  next h => exact canonical_of_mem (canonical_of_eq h (readOperand_canonical h1 ..)) (by simp)
  next h => exact canonical_of_mem (canonical_of_eq h (readOperand_canonical h1 ..)) (by simp)
  next h =>
  have h2 := canonical_of_eq h (readOperand_canonical h1 ..)
  clear h
  split
  next h => exact canonical_of_mem (canonical_of_eq h (readOperand_canonical h2 ..)) (by simp)
  next h => exact canonical_of_mem (canonical_of_eq h (readOperand_canonical h2 ..)) (by simp)
  next h =>
  have h3 := canonical_of_eq h (readOperand_canonical h2 ..)
  clear h
  split
  next h => exact canonical_of_mem (canonical_of_eq h (by grind)) (by simp)
  next h =>
  have h4 := canonical_of_eq h (by grind)
  exact hend _ _ _ _ (trustedWrite_canonical h4 ..)
grind_pattern descriptorComplete_canonical => Canonical (descriptorComplete j elapsed faults s)

/-! ### Resets -/

theorem resetSectors_canonical : Canonical (resetSectors s) := by grind [resetSectors]
grind_pattern resetSectors_canonical => Canonical (resetSectors s)

theorem sectorReset_canonical (fn : Fn) (value : Nat) : Canonical (sectorReset fn value s) := by unfold sectorReset; grind
grind_pattern sectorReset_canonical => Canonical (sectorReset fn value s)

theorem clearVfs_canonical : Canonical (clearVfs s) := by grind [clearVfs]
grind_pattern clearVfs_canonical => Canonical (clearVfs s)

theorem functionReset_canonical (fn : Fn) : Canonical (functionReset fn s) := by unfold functionReset; grind
grind_pattern functionReset_canonical => Canonical (functionReset fn s)

theorem resetEngine_canonical (kind i cause : Nat) : Canonical (resetEngine kind i cause s) := by grind [resetEngine]
grind_pattern resetEngine_canonical => Canonical (resetEngine kind i cause s)

theorem engineReset_canonical (fn : Option Fn) (kind index : Nat) : Canonical (engineReset fn kind index s) := by
  unfold engineReset; grind
grind_pattern engineReset_canonical => Canonical (engineReset fn kind index s)

theorem warmMemory_canonical : Canonical (warmMemory s) := by grind [warmMemory]
grind_pattern warmMemory_canonical => Canonical (warmMemory s)

theorem warmReset_canonical (cause : Nat) : Canonical (warmReset cause s) := by
  unfold warmReset
  split
  · exact hs
  · extract_lets s1 fell s2 s3 s4 _ _ _ s5
    have h1 : s1.mem = s.mem := by
      unfold s1
      split
      · exact sendHeartbeat_mem ..
      · rfl
    have hmemory : Canonical (warmMemory (warmCadence (revertSectors s1))) :=
      warmMemory_canonical (canonical_of_mem hs (by simpa using h1))
    have h2 : Canonical s2 := canonical_of_mem hmemory (by simp [s2])
    have h5 : s5.mem = s2.mem := by simp [s5, s4, s3]
    refine startBoot_canonical (canonical_of_mem h2 ?_) none
    split
    · exact (fallBack_mem _).trans h5
    · exact h5
grind_pattern warmReset_canonical => Canonical (warmReset cause s)

theorem warmRow_canonical (cause : WarmCause) : Canonical (warmRow cause s) := by unfold warmRow; grind
grind_pattern warmRow_canonical => Canonical (warmRow cause s)

theorem powerFall_canonical : Canonical (powerFall s) := by grind [powerFall]
grind_pattern powerFall_canonical => Canonical (powerFall s)

theorem pllLoss_canonical (pll : Nat) : Canonical (pllLoss pll s) := by
  unfold pllLoss
  split
  · exact hs
  extract_lets _ s1
  have h1 : (firePoint 0x0A02 pll s1).2.2.mem = s.mem := firePoint_mem ..
  generalize firePoint 0x0A02 pll s1 = p at h1 ⊢
  obtain ⟨fired, b, s2⟩ := p
  dsimp -zeta only at h1 ⊢
  extract_lets s3 live s4 _ s5 s6
  have h3 : Canonical s3 := canonical_of_mem hs (by simpa [s3] using h1)
  have h4 : Canonical s4 := foldl_canonical (fun _ i hs => resetEngine_canonical hs 1 i 10) _ h3
  have h6 : Canonical s6 := foldl_canonical (fun _ i hs => resetEngine_canonical hs 2 i 10) _ (s := s5) h4
  split
  · exact warmReset_canonical h6 4
  · exact h6
grind_pattern pllLoss_canonical => Canonical (pllLoss pll s)

theorem pllRelock_canonical (pll : Nat) : Canonical (pllRelock pll s) := by grind [pllRelock]
grind_pattern pllRelock_canonical => Canonical (pllRelock pll s)

theorem configRequest_canonical (f : Fn) (r : ConfigReq) : Canonical (configRequest f r s) := by unfold configRequest; grind
grind_pattern configRequest_canonical => Canonical (configRequest f r s)

theorem configRow_canonical (f : Fn) (r : ConfigReq) : Canonical (configRow f r s) := by unfold configRow; grind
grind_pattern configRow_canonical => Canonical (configRow f r s)

/-! ### SelfTest -/

theorem actAny_canonical (r : Res) (b : Bool) : Canonical (actAny r b s).2 := by
  unfold actAny
  split <;> grind
grind_pattern actAny_canonical => actAny r b s

theorem releaseResource_canonical (r : Res) : Canonical (releaseResource r s) := by grind [releaseResource]
grind_pattern releaseResource_canonical => Canonical (releaseResource r s)

theorem endTest_canonical (t : SelfTest) (failed : Bool) : Canonical (endTest t failed s) := by grind [endTest]
grind_pattern endTest_canonical => Canonical (endTest t failed s)

theorem testEnd_canonical (r : Res) (failed : Bool) : Canonical (testEnd r failed s) := by grind [testEnd]
grind_pattern testEnd_canonical => Canonical (testEnd r failed s)

theorem selftestRunBody_canonical (c : Cmd) : BodyCanonical (selftestRunBody c s) := by
  unfold selftestRunBody
  dsimp only
  split
  · trivial
  · repeat refine bodyCanonical_bind fun _ _ => ?_
    split
    · exact hs
    · exact bodyCanonical_bind fun _ _ => canonical_of_mem hs (queueTest_mem _)
grind_pattern selftestRunBody_canonical => BodyCanonical (selftestRunBody c s)

theorem injectArmBody_canonical (c : Cmd) : BodyCanonical (injectArmBody c s) := by
  unfold injectArmBody
  repeat refine bodyCanonical_bind fun _ _ => ?_
  grind [BodyCanonical]
grind_pattern injectArmBody_canonical => BodyCanonical (injectArmBody c s)

theorem injectDisarmBody_canonical (c : Cmd) : BodyCanonical (injectDisarmBody c s) := by grind [injectDisarmBody, BodyCanonical]
grind_pattern injectDisarmBody_canonical => BodyCanonical (injectDisarmBody c s)

theorem scrubGranule_canonical (faults : List LineFault) : Canonical (scrubGranule faults s) := by grind [scrubGranule]
grind_pattern scrubGranule_canonical => Canonical (scrubGranule faults s)

theorem firmwareMark_canonical (faults : List LineFault) (w : MarkWork) (m : Mark) (released : Bool) :
    Canonical (firmwareMark faults w m released s) := by
  unfold firmwareMark; grind
grind_pattern firmwareMark_canonical => Canonical (firmwareMark faults w m released s)

/-! ### Registers -/

theorem writeBits_canonical (fn : Fn) (r : Reg) (i j mask w : Nat) : Canonical (writeBits fn r i j mask w s) := by
  unfold writeBits
  dsimp only
  split
  case h_17 => split <;> exact hs
  all_goals grind
grind_pattern writeBits_canonical => Canonical (writeBits fn r i j mask w s)

theorem writeReg_canonical (fn : Fn) (r : Reg) (i j byte size v : Nat) : Canonical (writeReg fn r i j byte size v s) := by grind [writeReg]
grind_pattern writeReg_canonical => Canonical (writeReg fn r i j byte size v s)

theorem writePlace_canonical (fn : Fn) (size v : Nat) (p : Place) : Canonical (writePlace fn size v p s) := by unfold writePlace; grind
grind_pattern writePlace_canonical => Canonical (writePlace fn size v p s)

theorem writeUnit_canonical (fn : Fn) (off size v : Nat) : Canonical (writeUnit fn off size v s) := by grind [writeUnit]
grind_pattern writeUnit_canonical => Canonical (writeUnit fn off size v s)

theorem writeRegister_canonical (fn : Fn) (off size v : Nat) : Canonical (writeRegister fn off size v s) := by grind [writeRegister]
grind_pattern writeRegister_canonical => Canonical (writeRegister fn off size v s)

theorem bar4Read_canonical (fn : Fn) (off size : Nat) (faults : List LineFault) : Canonical (bar4Read fn off size faults s) := by
  grind [bar4Read]
grind_pattern bar4Read_canonical => Canonical (bar4Read fn off size faults s)

/-! ### Dispatch -/

/-- Every command keeps memory canonical. -/
theorem exec_canonical (i : Instr) : OutCanonical (exec i s) := by
  cases i <;> dsimp only [exec]
  case nop | identify | fwActivate | ringCreate | ringDestroy | ringReset | sectorDefine | sectorShift | sectorStop | powerSet | markSet |
      markCancel | memInvalidate | tierMove | memZero | farAssign | launch | contextCreate | contextDestroy | contextKill | heatQuery | heatPoolSet
      | rngInstantiate | rngGenerate | rngReseed | rngUninstantiate | rngRawMode | rdmaTableSet | pdAlloc | pdFree | mrRegister | mrDeregister |
      mwAlloc | mwFree | qpCreate | qpModify | qpDestroy | qpQuery | rdmaRecv | chordRoute | chordAcl | attestReport | bounceWindowAdd |
      bounceWindowRemove | opkeyLoad | opkeyRemove | sealArm | certRead | selftestRun | injectArm | injectDisarm | wakeConfig | wakeDrain |
      dropPacket =>
    exact beginCommand_canonical hs _ _ _ fun c t ht => by grind
  case quiesce | heatOpen | heatAdvance | heatAbort | pairForm | pairBreak =>
    exact heatRow_canonical _ (beginCommand_canonical hs _ _ _ fun c t ht => by grind)
  case heatCollect | pairTakeover | trayDetach => exact pairRow_canonical _ (beginCommand_canonical hs _ _ _ fun c t ht => by grind)
  case latExec | latSuspend | latResume | latModuli => exact latGoAll_canonical (beginCommand_canonical hs _ _ _ fun c t ht => by grind)
  case crewNop | bra | jmp | call | exit | bar | fence | missue | mwait | sread | tpush | tpushv | vote | shfl | imad | sel | popc | clz | mov |
      iadd64 | iaddc | modmul | modadd | modsub | imadw | ffma | ffunc | hadd2 | hmul2 | hfma2 | cvt | f8pack | f8unpack | isetp | fsetp | plop | ld
      | st | atom | ladd | lld | lst | latom | s2v | v2s =>
    exact crewStep_canonical hs _ _ _ fun i t ht => by grind [IssuedCanonical]
  case write | readReq | readResp | fold | ack | refuse => exact packetRow_canonical hs _ _ _ _ fun p t ht => by grind
  case iadd | isub | imul | imulhi | and | or | xor | shl | shr | min | max => exact intStep_canonical hs ..
  case fadd | fsub | fmul | fmin | fmax => exact floatStep_canonical hs ..
  case sadd | ssub | smul | sand | sor | sxor | sshl | sshr => exact scalarStep_canonical hs ..
  case smovi | ssethi | saddi => exact scalarImm_canonical hs ..
  case getVersion | getCapabilities | negotiateAlgorithms | getDigests | getCertificate | challenge | getMeasurements | keyExchange | finish |
      spdmHeartbeat | keyUpdate | endSession | chunkSend | chunkGet | kemKeyGet | kemCipher | vdCommand | mldsaCertGet | ideKm =>
    exact spdmRow_canonical hs ..
  case enrol | rosterGet | share | inboxGet | submit | confirm | reveal | tally => exact heatRow_canonical _ (messageRow_canonical hs ..)
  case heldReply => exact heatRow_canonical _ (heldReply_canonical hs ..)
  case vectorCommit => exact heatRow_canonical _ (canonical_of_mem hs (vectorCommit_mem ..))
  case taint => exact heatRow_canonical _ (taintRow_canonical hs ..)
  case taintRecovery => exact heatRow_canonical _ (taintRecovery_canonical hs ..)
  case exchangeTimeout => exact heatRow_canonical _ (exchangeTimeout_canonical hs ..)
  case heartbeat => exact heatRow_canonical _ (heartbeatFlit_canonical hs ..)
  case targetedSelfTestEnd => exact heatRow_canonical _ (testEnd_canonical hs ..)
  case pairHeartbeat => exact heatRow_canonical _ (pairHeartbeat_canonical hs ..)
  case missLimitReached => exact heatRow_canonical _ (missLimitReached_canonical hs ..)
  case pairFenceConf => exact heatRow_canonical _ (fenceConf_canonical hs ..)
  case graceExpiry => exact heatRow_canonical _ (graceExpiry_canonical hs ..)
  case formWaitExpiry => exact heatRow_canonical _ (formWaitExpiry_canonical hs ..)
  case maskExpansionChunkEnd => exact heatRow_canonical _ (maskChunkEnd_canonical hs ..)
  case noiseDrawComplete => exact heatRow_canonical _ (noiseDraw_canonical hs ..)
  case registerWrite => exact writeRegister_canonical hs ..
  case rcRead => exact canonical_of_mem hs (readRegister_mem ..)
  case pop => exact canonical_of_mem hs (wakePop_mem ..)
  case bar4Read => exact bar4Read_canonical hs ..
  case msixUnmask => exact canonical_of_mem hs (msixUnmask_mem ..)
  case vfEnableClear => exact clearVfs_canonical hs ..
  case functionLevelReset => exact functionReset_canonical hs ..
  case coldReset => exact coldReset_canonical hs ..
  case pwrGoodFall => exact powerFall_canonical hs ..
  case warmReset => exact warmRow_canonical hs ..
  case sectorReset => exact sectorReset_canonical hs ..
  case engineReset => exact engineReset_canonical hs ..
  case hostPortReset => exact canonical_of_mem hs (hostPortReset_mem ..)
  case bootDone => exact bootDone_canonical hs ..
  case pllLossOfLock => exact pllLoss_canonical hs ..
  case notBeforeDue => exact canonical_of_mem hs (notBeforeDue_mem ..)
  case lockstepWaitExpiry => exact canonical_of_mem hs (lockstepExpiry_mem ..)
  case commandFetch => exact canonical_of_mem hs (commandFetch_mem ..)
  case completionPost => exact completionPost_canonical hs ..
  case yieldResume => exact yieldResume_canonical hs ..
  case drainTimeout => exact drainTimeout_canonical hs ..
  case shiftClearEnd => exact shiftClearEnd_canonical hs ..
  case pageMoveEnd => exact pageMoveEnd_canonical hs ..
  case groupPlacement => exact groupPlacement_canonical hs ..
  case launchTimeout => exact canonical_of_mem hs (launchTimeout_mem ..)
  case killComplete => exact canonical_of_mem hs (killComplete_mem ..)
  case descriptorComplete => exact descriptorComplete_canonical hs ..
  case stepBoundary => exact stepBoundary_canonical hs ..
  case latOperationEnd => exact latOperationEnd_canonical hs ..
  case rawBlockComplete => exact canonical_of_mem hs (rawBlockComplete_mem ..)
  case seedLeavesProbation => exact canonical_of_mem hs (seedLeaves_mem ..)
  case seedToWaitingInstance => exact canonical_of_mem hs (seedToWaiting_mem ..)
  case data => exact canonical_of_mem hs (dataFlit_mem ..)
  case send => exact roceSend_canonical hs ..
  case rdmaWrite => exact roceWrite_canonical hs ..
  case rdmaRead => exact roceRead_canonical hs ..
  case ackTimeout => exact canonical_of_mem hs (ackTimeout_mem ..)
  case rnrTimer => exact canonical_of_mem hs (rnrTimer_mem ..)
  case risePeriod => exact canonical_of_mem hs (risePeriod_mem ..)
  case pfcFrame => exact canonical_of_mem hs (pfcFrame_mem ..)
  case otherFrame => exact canonical_of_mem hs (otherFrame_mem ..)
  case subportLinkUp => exact canonical_of_mem hs (subportUp_mem ..)
  case subportLinkDown => exact canonical_of_mem hs (subportDown_mem ..)
  case perfSample => exact canonical_of_mem hs (perfSample_mem ..)
  case targetedSelfTestStart => exact canonical_of_mem hs (testStart_mem ..)
  case retirementListWrite => exact canonical_of_mem hs (listWrite_mem ..)
  case mgtCoreStop => exact canonical_of_mem hs (coreStop_mem ..)
  case pllRelock => exact pllRelock_canonical hs ..
  case configurationRequest => exact configRow_canonical hs ..
  case ref10mReturn => exact canonical_of_mem hs (setCad_mem ..)
  case annulusStrobe => exact canonical_of_mem hs (annulusStrobe_mem ..)
  case tierMoverFillEnd => exact fillEnd_canonical hs ..
  case pfcXon => exact canonical_of_mem hs (pfcXon_mem ..)
  case sqTail => grind [execSqTail, OutCanonical]
  case cqHead => grind [execCqHead, OutCanonical]
  case pcieCompletionTimeout => unfold execPcieCompletionTimeout; grind [OutCanonical]
  case referenceLost => grind [execReferenceLost, OutCanonical]
  case estimateExceedsTolerance => grind [execEstimateExceedsTolerance, OutCanonical]
  case ppsPulse => grind [execPpsPulse, OutCanonical]
  case sync => grind [execSync, OutCanonical]
  case followUp => grind [execFollowUp, OutCanonical]
  case announce => grind [execAnnounce, OutCanonical]
  case delayReq => grind [execDelayReq, OutCanonical]
  case delayResp => grind [execDelayResp, OutCanonical]
  case originReached => grind [execOriginReached, OutCanonical]
  case cadenceConfig => grind [execCadenceConfig, OutCanonical]
  case aliveWindowClose =>
    refine canonical_of_mem hs (endCapture_mem.trans (foldl_snd_mem (fun p e => ?_) _ _))
    exact aliveClose_mem ..
  case lockBlockClose => grind [execLockBlockClose, OutCanonical]
  case cnp => grind [execCnp, OutCanonical]
  case rdmaPost => grind [execRdmaPost, OutCanonical]
  case fetchAdd => grind [execFetchAdd, OutCanonical]
  case cmpSwap => grind [execCmpSwap, OutCanonical]
  case acknowledgement => grind [execAcknowledgement, OutCanonical]
  case readResponse => grind [execReadResponse, OutCanonical]
  case atomicResponse => grind [execAtomicResponse, OutCanonical]
  case roceNak => grind [execRoceNak, OutCanonical]
  case rnrNak => grind [execRnrNak, OutCanonical]
  case idle => grind [execIdle, OutCanonical]
  case chordXfer => grind [execChordXfer, OutCanonical]
  case dedupExpiry => grind [execDedupExpiry, OutCanonical]
  case chordFold => grind [execChordFold, OutCanonical]
  case foldRetry =>
    unfold execFoldRetry
    split <;> grind [OutCanonical]
  case foldWaitExpiry => grind [execFoldWaitExpiry, OutCanonical]
  case laneLockLoss => grind [execLaneLockLoss, OutCanonical]
  case fecErrorBurst => grind [execFecErrorBurst, OutCanonical]
  case retrainTimeout => grind [execRetrainTimeout, OutCanonical]
  case linkTrainingComplete => grind [execLinkTrainingComplete, OutCanonical]
  case nak => grind [execNak, OutCanonical]
  case ident => grind [execIdent, OutCanonical]
  case chordLink => grind [execChordLink, OutCanonical]
  case accum => grind [execAccum, OutCanonical]
  case jtagAccess => unfold execJtagAccess; grind [OutCanonical]
  case pfcRefresh => grind [execPfcRefresh, OutCanonical]
  case perstDeassert => grind [execPerstDeassert, OutCanonical]
  case hostLinkUp => grind [execHostLinkUp, OutCanonical]
  case expanderErrorEvent => grind [execExpanderErrorEvent, OutCanonical]
  case cxlPortOffline => grind [execCxlPortOffline, OutCanonical]
  case cxlMemTimeout => grind [execCxlMemTimeout, OutCanonical]
  case strokeBoundary => grind [execStrokeBoundary, OutCanonical]
  case system => grind [execSystem, OutCanonical]
  case powerDrainEnd => grind [execPowerDrainEnd, OutCanonical]
  case powerUpComplete => grind [execPowerUpComplete, OutCanonical]
  case memoryAccessReturn => grind [execMemoryAccessReturn, OutCanonical]
  case watchdogExpiry => grind [execWatchdogExpiry, OutCanonical]
  case trialTimerExpiry => grind [execTrialTimerExpiry, OutCanonical]
  case injectionExpiry => grind [execInjectionExpiry, OutCanonical]
  case temperatureWarn => grind [execTemperatureWarn, OutCanonical]
  case temperatureWarnClear => grind [execTemperatureWarnClear, OutCanonical]
  case temperatureCritical => grind [execTemperatureCritical, OutCanonical]
  case thermalTrip => grind [execThermalTrip, OutCanonical]
  case vrFault => grind [execVrFault, OutCanonical]
  case standbyPowerLoss => grind [execStandbyPowerLoss, OutCanonical]
  case standbyPowerUp => grind [execStandbyPowerUp, OutCanonical]
  case markRelease => grind [execMarkRelease, OutCanonical]
  case misalignedRegisterAccess => grind [execMisalignedRegisterAccess, OutCanonical]
  case refusedRegisterRead => grind [execRefusedRegisterRead, OutCanonical]
  case errLast0Read => grind [execErrLast0Read, OutCanonical]
  case adminCfgEnable => grind [execAdminCfgEnable, OutCanonical]
  case adminCfgReset => grind [execAdminCfgReset, OutCanonical]
  case recoveryGo => grind [execRecoveryGo, OutCanonical]
  case portCfg => grind [execPortCfg, OutCanonical]

end

/-! ### The statement -/

theorem step_canonical {s t : State} (hs : Canonical s) (h : step s = .next t) : Canonical t := by
  unfold step at h
  split at h
  · cases h; exact hs
  next c rest _ =>
    have hc := exec_canonical (s := { s with pending := rest }) hs c
    rwa [h] at hc

/-- Settles O3: every function that writes memory keeps it canonical, and so does every command. -/
theorem memoryStaysCanonical : Obligations.MemoryStaysCanonical := fun s t hs h =>
  (canonical_iff t).1 (step_canonical ((canonical_iff s).2 hs) h)

end Sys2Proof.Machine

/-! # Memory moves (O49) -/
namespace Sys2Proof.Machine

variable {s : State}

/-! ### Commands (R248, R273, R281, R282) -/

/-- A command that begins and goes on running. -/
theorem beginCommand_running {ring op : Nat} {c : Cmd} {body : Cmd → State → Body} {t : State} (hb : Begins s ring op c)
    (hrun : body c s = .ok (.running t)) : beginCommand op ring body s = setPhase c.serial .running t := by
  obtain ⟨hnext, hop, hgate⟩ := hb
  rw [beginCommand_begins op body hnext hop hgate, hrun]
  rfl

theorem memInvalidateBody_ok {c : Cmd} {n a k : Nat} (hn : n = c.ring / 64) (ha : c.param 24 8 = a) (hk : c.param 32 4 = k)
    (hres : c.reserved [(36, 64)] = true) (hmax : k ≤ 512) (hrange : k = 0 ∨ (a % 8 = 0 ∧ ownsRange s n a (8 * k) = true)) :
    memInvalidateBody c s = .ok (.done stOk 0 0
      (dropCopies (fun d => d.sector = n && (k = 0 || (a ≤ d.entryDpa && d.entryDpa < a + 8 * k))) s)) := by
  subst hn ha hk
  unfold memInvalidateBody
  dsimp only
  rw [need_bind_of (by simpa [hres, hmax] using hrange)]

/-- The mover takes up a well-formed pair of pages without a leaf. -/
theorem moverRun_explicit {m : Mover} {src dst : Nat} (hmover : s.mover = [m]) (hjob : m.job = .explicit [(src, dst, 0)])
    (hentry : m.entry = 0) (hmoving : m.moving = false) (hactive : m.active = true)
    (hready : farReady s (if src < 0x008000000000 then dst else src) = true) :
    moverRun s = { s with mover := [{ m with begun := true, moving := true }] } := by
  have hready' (l : List Mover) : farReady { s with mover := l } (if src < 0x008000000000 then dst else src) = true := hready
  simp [moverRun, moverGo, hmover, hactive, hjob, hentry, hmoving, changeHead, farNeeds, Mover.movesPages, nextPage, writeLeaf, hready']

/-- The mover begins a MEM_ZERO, whose end is a row of its own. -/
theorem moverRun_zero {m : Mover} {base size : Nat} (hmover : s.mover = [m]) (hjob : m.job = .zero base size) (hmoving : m.moving = false)
    (hactive : m.active = true) : moverRun s = { s with mover := [{ m with begun := true }] } := by
  simp [moverRun, moverGo, hmover, hactive, hjob, hmoving, changeHead, farNeeds, Mover.movesPages]

/-- It begins a FAR_ASSIGN, from which on the far tier is fixed (R236), where the ports at both ends of the range are ONLINE. -/
theorem moverRun_farAssign {m : Mover} {k base size : Nat} (hmover : s.mover = [m]) (hjob : m.job = .farAssign k base size [])
    (hmoving : m.moving = false) (hactive : m.active = true)
    (hready : size = 0 ∨ (farReady s base = true ∧ farReady s (base + size - 1) = true)) :
    moverRun s = { s with mem := { s.mem with farFixed := true }, mover := [{ m with begun := true }] } := by
  have hneeds : (if size = 0 then [] else [base, base + size - 1]).all (farReady s) = true := by
    split
    · rfl
    next hsize => simpa [hsize] using hready
  have hneeds' (l : List Mover) : (if size = 0 then [] else [base, base + size - 1]).all
      (farReady { s with mem := { s.mem with farFixed := true }, mover := l }) = true := hneeds
  simp [moverRun, moverGo, hmover, hactive, hjob, hmoving, changeHead, farNeeds, Mover.movesPages, hneeds']

/-- A command of a sector that is not quiesced is alone in the queue of an idle mover. -/
theorem queueMove_idle (m : Mover) (hidle : s.mover = []) (hquiet : (Table.getD s.rings.held m.sector 0).testBit 3 = false) :
    queueMove m s = moverRun { s with mover := [{ m with held := false }] } := by
  simp [queueMove, hidle, hquiet]

theorem tierMoveBody_explicit {c : Cmd} {n src dst : Nat} (hn : n = c.ring / 64) (hmode : c.param 24 1 = 0) (hone : c.param 25 1 = 1)
    (hres : c.reserved [(48, 64)] = true) (hunits : 2 ≤ c.units) (hsrc : c.param 64 8 = src) (hdst : c.param 72 8 = dst)
    (hpte : c.param 80 8 = 0) (hok : moveOk s n (src, dst, 0) = true)
    (hfree : holdsHeat s (if src < 0x008000000000 then src else dst) pageSize = false)
    (hready : farReady s (if src < 0x008000000000 then dst else src) = true) :
    tierMoveBody [] c s = .ok (.running (queueMove { serial := c.serial, sector := n, job := .explicit [(src, dst, 0)] } s)) := by
  subst hn hsrc hdst
  unfold tierMoveBody
  dsimp only
  rw [need_bind_of (by simp [hmode, hres]), if_pos hmode, need_bind_of (by simp [hone]; omega)]
  have hmoves : (List.range (c.param 25 1)).map (fun i => (c.param (64 + 24 * i) 8, c.param (72 + 24 * i) 8, c.param (80 + 24 * i) 8))
      = [(c.param 64 8, c.param 72 8, 0)] := by rw [hone, ← hpte]; rfl
  rw [hmoves]
  have hreads : entryReads [] ([(c.param 64 8, c.param 72 8, 0)].map (fun p => p.2.2)) s = (0, s) := rfl
  rw [hreads]
  refine (need_bind_of (by simp [hok]) _ _ _).trans ?_
  rw [need_bind_of (by simp [hfree, hready])]

theorem memZeroBody_ok {c : Cmd} {n base size : Nat} (hn : n = c.ring / 64) (hbase : c.param 24 8 = base) (hsize : c.param 32 8 = size)
    (hal : base % 64 = 0) (hal' : size % 64 = 0) (hmax : size ≤ 2 ^ 30) (hres : c.reserved [(40, 64)] = true)
    (hown : ownsRange s n base size = true) (hfree : size = 0 ∨ holdsHeat s base size = false) :
    memZeroBody c s = if size = 0 then .ok (.done stOk 0 0 s)
      else .ok (.running (queueMove { serial := c.serial, sector := n, job := .zero base size } s)) := by
  subst hn hbase hsize
  unfold memZeroBody
  dsimp only
  rw [need_bind_of (by simpa [hal, hal', hres, hown] using hmax), need_bind_of (by simpa using hfree)]

theorem farAssignBody_ok {c : Cmd} {base size k : Nat} (hbase : c.param 24 8 = base) (hsize : c.param 32 8 = size) (hk : c.param 40 1 = k)
    (hk7 : k ≤ 7) (hal : base % pageSize = 0) (hal' : size % pageSize = 0) (hres : c.reserved [(41, 64)] = true)
    (hrange : size = 0 ∨ (farRange s base size = true ∧ farPage s base + size / pageSize ≤ usablePages s))
    (hfree : size = 0 ∨ ∀ e ∈ s.mem.far, e.1 = k ∨ overlaps base size e.2.1 e.2.2 = false) (hidle : s.mover = []) :
    farAssignBody c s = .ok (.running (queueMove { serial := c.serial, sector := c.ring / 64, job := .farAssign k base size [] } s)) := by
  subst hbase hsize hk
  unfold farAssignBody
  dsimp only
  rw [need_bind_of (by simp [hal, hal', hk7, hres]), need_bind_of (by simpa using hrange), need_bind_of (by simpa [or_iff_not_imp_left] using hfree),
    need_bind_of (by simp [hidle])]

/-- A move of one page in either direction between tiers is well formed (05 R273). -/
theorem moveOk_unmapped {n src dst : Nat} (hsrc : src % pageSize = 0) (hdst : dst % pageSize = 0)
    (hsides : (src < 0x008000000000 ∧ 0x010000000000 ≤ dst ∧ ownsRange s n src pageSize = true ∧ inFarRange s n dst pageSize = true)
      ∨ (dst < 0x008000000000 ∧ 0x010000000000 ≤ src ∧ ownsRange s n dst pageSize = true ∧ inFarRange s n src pageSize = true)) :
    moveOk s n (src, dst, 0) = true := by
  obtain ⟨hnear, hfar, hown, hrange⟩ | ⟨hnear, hfar, hown, hrange⟩ := hsides
  · simp [moveOk, hsrc, hdst, hnear, hfar, hown, hrange]
  · have hnot : ¬ src < 0x008000000000 := by omega
    simp only [moveOk, if_neg hnot]
    simp [hsrc, hdst, hnear, hfar, hown, hrange]

/-! ### The mover's queue after its head -/

theorem moverRun_nil (hmover : s.mover = []) : moverRun s = s := by simp [moverRun, moverGo, hmover]

/-- The end of the only command empties the queue. -/
theorem endHead_single {m : Mover} (hmover : s.mover = [m]) (status r0 r1 : Nat) :
    moverRun (endHead status r0 r1 s) = finish m.serial status r0 r1 { s with mover := [] } := by
  have hend : endHead status r0 r1 s = finish m.serial status r0 r1 { s with mover := [] } := by simp [endHead, hmover]
  rw [hend]
  exact moverRun_nil rfl

/-- An explicit move without further entries ends OK with its pages and poisoned lines. -/
theorem moverRun_done {m : Mover} {moves : List (Nat × Nat × Nat)} (hmover : s.mover = [m]) (hjob : m.job = .explicit moves)
    (hlast : moves.length ≤ m.entry) (hmoving : m.moving = false) (hactive : m.active = true) :
    moverRun s = finish m.serial stOk m.pages m.poisoned { s with mover := [] } := by
  simp [moverRun, moverGo, hmover, hactive, hjob, hmoving, changeHead, farNeeds, Mover.movesPages, nextPage, endHead,
    List.drop_of_length_le hlast, List.getElem?_eq_none hlast]

/-! ### What error records and injected faults leave of the mover and the ports -/

/-- The mover's queue, the sealing and the CXL ports. -/
def tierView (s : State) : List Mover × Seal × CxlPort × CxlPort := (s.mover, s.sealing, s.cxl0, s.cxl1)

theorem tierView_wakePush (q : Nat) (ws : List (Word32 × Bool × Bool)) (s : State) : tierView (wakePush q ws s) = tierView s := rfl

theorem tierView_bump (r : Reg) (i : Nat) (s : State) : tierView (bump s r i) = tierView s := rfl

theorem tierView_writeRecord (r : Rec) (s : State) : tierView (writeRecord r s) = tierView s := by
  unfold writeRecord
  split
  · rfl
  · extract_lets seq shown pub full old err s1 s2 pins s3
    have h2 : tierView s2 = tierView s := by
      simp only [s2, apply_ite tierView, tierView_wakePush, ite_self]
      rfl
    have h3 : tierView s3 = tierView s := by
      rw [← h2]
      simp only [s3, apply_ite tierView]
      exact ite_self _
    simp only [apply_ite tierView, tierView_bump, ite_self, h3]

theorem tierView_firePoint (point target : Nat) (s : State) : tierView (firePoint point target s).2.2 = tierView s := by
  unfold firePoint
  split
  · rfl
  · simp only [fireSlot]
    split <;> rfl

theorem slots_writeRecord (r : Rec) (s : State) : (writeRecord r s).err.slots = s.err.slots := by
  have hpush (q : Nat) (ws : List (Word32 × Bool × Bool)) (t : State) : (wakePush q ws t).err = t.err := rfl
  simp only [writeRecord, apply_ite State.err, apply_ite Err.slots, bump_err, hpush, ite_self]

/-! ### The read of a page with no slot armed -/

/-- What the read of a page leaves: it only counts, or writes error records. -/
structure PageRead (s t : State) : Prop where
  mem : t.mem = s.mem
  sct : t.sct = s.sct
  view : tierView t = tierView s
  slots : t.err.slots = s.err.slots
  farCfg : rget t .memFarCfg = rget s .memFarCfg

theorem PageRead.refl (s : State) : PageRead s s := ⟨rfl, rfl, rfl, rfl, rfl⟩

theorem PageRead.writeRecord {t : State} (h : PageRead s t) (r : Rec) : PageRead s (writeRecord r t) := by
  have hrec := writeRecord_recorded r t
  exact ⟨hrec.mem.trans h.mem, hrec.sct.trans h.sct, (tierView_writeRecord r t).trans h.view, (slots_writeRecord r t).trans h.slots,
    (hrec.rget_eq (by decide)).trans h.farCfg⟩

theorem PageRead.foldl_writeRecord {α : Type} (f : α → Rec) (l : List α) :
    ∀ {t : State}, PageRead s t → PageRead s (l.foldl (fun t x => Machine.writeRecord (f x) t) t) := by
  induction l with
  | nil => exact id
  | cons x l ih => exact fun h => ih (h.writeRecord (f x))

theorem faultyLines_nil (hslots : s.err.slots = []) (base : Nat) : faultyLines [] base s = [] := by simp [faultyLines, hslots]

theorem injectFar_nil (hslots : s.err.slots = []) (base : Nat) : injectFar base s = ([], s) := by simp [injectFar, hslots]

theorem readPage_pageRead (hslots : s.err.slots = []) (sector base : Nat) : PageRead s (readPage [] [] sector base s) := by
  unfold readPage
  split
  · rw [faultyLines_nil hslots]
    exact ⟨rfl, rfl, rfl, rfl, rget_bumpField_ne s _ _ _ (by decide)⟩
  · rw [injectFar_nil hslots]
    exact (PageRead.refl s).foldl_writeRecord _ _

/-! ### Numbers and bytes -/

theorem leNat_lt (bs : List Byte) : leNat bs < 2 ^ (8 * bs.length) := by
  induction bs with
  | nil => simp [leNat]
  | cons b bs ih =>
    have hb := b.isLt
    have hpow : 2 ^ (8 * (b :: bs).length) = 256 * 2 ^ (8 * bs.length) := by
      rw [List.length_cons, Nat.mul_succ, Nat.pow_add, Nat.mul_comm]
    rw [hpow, leNat]
    omega

theorem leNat_leBytes (n : Nat) : ∀ v : Nat, leNat (leBytes n v) = v % 2 ^ (8 * n) := by
  induction n with
  | zero => intro v; simp [leBytes, leNat, Nat.mod_one]
  | succ n ih =>
    intro v
    have hpow : 2 ^ (8 * (n + 1)) = 256 * 2 ^ (8 * n) := by rw [Nat.mul_succ, Nat.pow_add, Nat.mul_comm]
    rw [leBytes, leNat, ih, hpow, Nat.mod_mul, BitVec.toNat_ofNat]

theorem length_leBytes (n : Nat) : ∀ v : Nat, (leBytes n v).length = n := by
  induction n with
  | zero => exact fun _ => rfl
  | succ n ih => exact fun v => congrArg Nat.succ (ih _)

theorem word64_lt (s : State) (a : Nat) : word64 s a < 2 ^ 64 := by
  have h := leNat_lt (peek s a 8)
  simpa [word64, peek] using h

/-- A word reads the same where its eight bytes do. -/
theorem word64_congr {t : State} {a : Nat} (h : ∀ i, i < 8 → cellAt t.mem.cells (a + i) = cellAt s.mem.cells (a + i)) :
    word64 t a = word64 s a := by
  have hpeek : peek t a 8 = peek s a 8 := List.map_congr_left fun i hi => h i (List.mem_range.mp hi)
  rw [word64, word64, hpeek]

theorem word64_poke {a v : Nat} (hv : v < 2 ^ 64) : word64 (poke s a (leBytes 8 v)) a = v := by
  have hpeek := peek_poke_same s a (leBytes 8 v)
  rw [length_leBytes] at hpeek
  rw [word64, hpeek, leNat_leBytes]
  exact Nat.mod_eq_of_lt hv

/-! ### The copy of a page (05 R267, R275) -/

theorem mem_insertNat (n x : Nat) (l : List Nat) : x ∈ insertNat n l ↔ x = n ∨ x ∈ l := by
  refine ⟨insertNat_mem n x l, fun h => ?_⟩
  induction l with
  | nil => simpa [insertNat] using h
  | cons m t ih =>
    simp only [insertNat]
    split
    · simpa using h
    split
    next hm => subst hm; simpa using h
    next =>
      have hx : x = m ∨ x = n ∨ x ∈ t := by simpa [or_left_comm] using h
      obtain hx | hx := hx
      · exact List.mem_cons.mpr (.inl hx)
      · exact List.mem_cons_of_mem _ (ih hx)

theorem mem_foldl_insertNat (x : Nat) (l : List Nat) : ∀ t : List Nat, x ∈ l.foldl (fun t n => insertNat n t) t ↔ x ∈ l ∨ x ∈ t := by
  induction l with
  | nil => simp
  | cons n l ih =>
    intro t
    rw [List.foldl_cons, ih, mem_insertNat, List.mem_cons]
    tauto

/-- Entries with distinct keys put into a table hide what it held under their keys. -/
theorem Table.find_foldl_put {α : Type} (x : Nat) (l : Table α) (hl : l.Pairwise (fun c d => c.1 < d.1)) :
    ∀ t : Table α, Table.find (l.foldl (fun t c => Table.put t c.1 c.2) t) x = (Table.find l x).or (Table.find t x) := by
  induction l with
  | nil => simp
  | cons c l ih =>
    intro t
    obtain ⟨hlt, hl⟩ := List.pairwise_cons.mp hl
    rw [List.foldl_cons, ih hl, Table.find_put]
    by_cases hx : x = c.1
    · have hnone : Table.find l x = none := Table.find_eq_none_of_forall_ne fun e he => by have := hlt e he; omega
      rw [hnone, if_pos hx]
      simp [Table.find, hx]
    · simp [Table.find, hx, Ne.symm hx]

/-- Entries moved from `src` on to `dst` on are found as far from `dst`. -/
theorem Table.find_shift {α : Type} (src dst x : Nat) (t : Table α) (ht : ∀ c ∈ t, src ≤ c.1) :
    Table.find (t.map (fun c => (c.1 - src + dst, c.2))) x = if dst ≤ x then Table.find t (x - dst + src) else none := by
  induction t with
  | nil => simp
  | cons c t ih =>
    have hc := ht c List.mem_cons_self
    rw [List.map_cons, Table.find, Table.find, ih fun e he => ht e (List.mem_cons_of_mem _ he)]
    have hkey : c.1 - src + dst = x ↔ dst ≤ x ∧ c.1 = x - dst + src := by omega
    by_cases hx : dst ≤ x
    · simp [hkey, hx]
    · simp [hkey, hx]

theorem cellAt_copyPage {src dst : Nat} (hs : memoryCanonical s = true) (x : Nat) :
    cellAt (copyPage src dst s).mem.cells x
      = if dst ≤ x ∧ x < dst + pageSize then cellAt s.mem.cells (x - dst + src) else cellAt s.mem.cells x := by
  have hrise : s.mem.cells.Pairwise (fun c d => c.1 < d.1) := by
    simp only [memoryCanonical, Mem.wf, Bool.and_eq_true] at hs
    exact ((cellsWf_iff _).mp hs.1).1
  have hmoved : ((s.mem.cells.filter (fun c => decide (src ≤ c.1) && decide (c.1 < src + pageSize))).map
      (fun c => (c.1 - src + dst, c.2))).Pairwise (fun c d => c.1 < d.1) := by
    refine List.pairwise_map.mpr ((hrise.filter _).imp_of_mem fun hc hd h => ?_)
    have := (List.mem_filter.mp hc).2
    simp only [Bool.and_eq_true, decide_eq_true_eq] at this
    omega
  simp only [cellAt, copyPage]
  rw [Table.find_foldl_put x _ hmoved, Table.find_shift _ _ _ _ (by simp +contextual),
    find_filter_out (fun a => decide (src ≤ a) && decide (a < src + pageSize)),
    find_filter_out (fun a => !(decide (dst ≤ a) && decide (a < dst + pageSize)))]
  by_cases hx : dst ≤ x ∧ x < dst + pageSize
  · have hin : src ≤ x - dst + src ∧ x - dst + src < src + pageSize := by omega
    simp [hx, hin]
  · by_cases hlow : dst ≤ x
    · have hout : ¬ x < dst + pageSize := fun h => hx ⟨hlow, h⟩
      have hout' : ¬ x - dst + src < src + pageSize := by omega
      simp [hlow, hout, hout']
    · simp [hlow]

theorem mem_poison_copyPage {src dst : Nat} (hsrc : src % pageSize = 0) (hdst : dst % pageSize = 0) (l : Nat) :
    l ∈ (copyPage src dst s).mem.poison ↔ if dst / 64 ≤ l ∧ l < (dst + pageSize) / 64 then l - dst / 64 + src / 64 ∈ s.mem.poison
      else l ∈ s.mem.poison := by
  have hmem : l ∈ (copyPage src dst s).mem.poison
      ↔ (∃ k ∈ s.mem.poison, (src ≤ 64 * k ∧ 64 * k < src + pageSize) ∧ k - src / 64 + dst / 64 = l)
      ∨ (l ∈ s.mem.poison ∧ ¬(dst ≤ 64 * l ∧ 64 * l < dst + pageSize)) := by
    simp only [copyPage, mem_foldl_insertNat, List.mem_map, List.mem_filter, Bool.and_eq_true, Bool.not_eq_true', decide_eq_true_eq,
      and_assoc, Bool.and_eq_false_imp, decide_eq_false_iff_not, not_and]
  rw [hmem]
  simp only [pageSize] at hsrc hdst ⊢
  by_cases hin : dst / 64 ≤ l ∧ l < (dst + 2097152) / 64
  · rw [if_pos hin]
    constructor
    · rintro (⟨k, hk, hrange, rfl⟩ | ⟨-, hout⟩)
      · have hback : k - src / 64 + dst / 64 - dst / 64 + src / 64 = k := by omega
        rwa [hback]
      · omega
    · exact fun hk => .inl ⟨_, hk, by omega, by omega⟩
  · rw [if_neg hin]
    constructor
    · rintro (⟨k, -, hrange, rfl⟩ | ⟨hl, -⟩)
      · omega
      · exact hl
    · exact fun hl => .inr ⟨hl, by omega⟩

/-! ### The leaf of a page (05 R275, R975) -/

/-- What is memory depends on the far tier's capacity and interleaving alone. -/
theorem isMemory_congr {t : State} (hcap : t.mem.farCap = s.mem.farCap) (hcfg : rget t .memFarCfg = rget s .memFarCfg) (a : Nat) :
    isMemory t a = isMemory s a := by
  have hmode : interleaved t = interleaved s := congrArg (·.testBit 0) hcfg
  have hfar : inFar t a = inFar s a := by rw [inFar, inFar, hmode, farInterleavedSize, farInterleavedSize, hcap]
  simp only [isMemory, regionOf, hfar]

/-- An aligned leaf entry whose line is memory without poison is written, and nothing else happens. -/
theorem writeLeaf_plain {pte : Nat} (f : Nat → Nat) (hpte : pte ≠ 0) (hal : pte % 8 = 0) (hfirst : isMemory s pte = true)
    (hlast : isMemory s (pte + 7) = true) (hpoison : poisonedAt s pte = false) (hslots : s.err.slots = []) :
    writeLeaf [] pte f s = (stOk, poke s pte (leBytes 8 (f (word64 s pte)))) := by
  have hlen := length_leBytes 8 (f (word64 s pte))
  have hne : leBytes 8 (f (word64 s pte)) ≠ [] := List.ne_nil_of_length_eq_add_one hlen
  have hline : writeLine [] pte (leBytes 8 (f (word64 s pte))) s = (stOk, poke s pte (leBytes 8 (f (word64 s pte)))) := by
    simp [writeLine, hlen, readLine_plain hpoison hslots]
  have htake : (leBytes 8 (f (word64 s pte))).take (64 - pte % 64) = leBytes 8 (f (word64 s pte)) := List.take_of_length_le (by omega)
  have hdrop : (leBytes 8 (f (word64 s pte))).drop (64 - pte % 64) = [] := List.drop_eq_nil_of_le (by omega)
  simp [writeLeaf, faultyWrite, hpte, hne, hlen, hfirst, hlast, writeLines, htake, hdrop, hline]

/-- The leaf that a page which has moved to `dst` leaves: its address, its tier, and no longer moving (05 R275). -/
def landedLeaf (src dst e : Nat) : Nat :=
  setBits (setBits (setBits e 12 34 (dst / 4096)) 4 1 (bitNat (decide (src < 0x008000000000)))) 5 1 0

theorem landedLeaf_lt {src dst e : Nat} (he : e < 2 ^ 64) : landedLeaf src dst e < 2 ^ 64 := by
  simp only [landedLeaf, setBits, bitsOf, Nat.shiftRight_eq_div_pow]
  omega

/-! ### The end of a page copy (05 R275-R279) -/

/-- A page copied from `src` to `dst` by a sector's command. -/
def pageCopied (sector src dst : Nat) (s : State) : State := copyPage src dst (readPage [] [] sector src s)

/-- The leaf of a page that has moved, where it has one. -/
def leafLanded (src dst pte : Nat) (s : State) : State :=
  if pte = 0 then s else poke s pte (leBytes 8 (landedLeaf src dst (word64 s pte)))

/-- Answered Mem requests end a port's row of timeouts. -/
def timeoutsCleared (s : State) : State :=
  let s := if s.mem.farOnline.1 then setCxl 0 { cxlOf s 0 with timeouts := 0 } s else s
  if s.mem.farOnline.2 then setCxl 1 { cxlOf s 1 with timeouts := 0 } s else s

/-- The page has moved: copied, its leaf written, and cached copies of the leaf gone. -/
def pageLanded (sector src dst pte : Nat) (s : State) : State :=
  timeoutsCleared (dropCopies (fun d => d.entryDpa = pte) (leafLanded src dst pte (pageCopied sector src dst s)))

@[simp] theorem setCxl_sct (p : Nat) (x : CxlPort) (s : State) : (setCxl p x s).sct = s.sct := by
  unfold setCxl
  split <;> rfl

@[simp] theorem setCxl_mover (p : Nat) (x : CxlPort) (s : State) : (setCxl p x s).mover = s.mover := by
  unfold setCxl
  split <;> rfl

@[simp] theorem timeoutsCleared_mem (s : State) : (timeoutsCleared s).mem = s.mem := by
  simp only [timeoutsCleared, apply_ite State.mem, setCxl_mem, ite_self]

@[simp] theorem timeoutsCleared_sct (s : State) : (timeoutsCleared s).sct = s.sct := by
  simp only [timeoutsCleared, apply_ite State.sct, setCxl_sct, ite_self]

@[simp] theorem timeoutsCleared_mover (s : State) : (timeoutsCleared s).mover = s.mover := by
  simp only [timeoutsCleared, apply_ite State.mover, setCxl_mover, ite_self]

@[simp] theorem leafLanded_sct (src dst pte : Nat) (s : State) : (leafLanded src dst pte s).sct = s.sct := by
  unfold leafLanded
  split <;> rfl

@[simp] theorem leafLanded_mover (src dst pte : Nat) (s : State) : (leafLanded src dst pte s).mover = s.mover := by
  unfold leafLanded
  split <;> rfl

@[simp] theorem leafLanded_poison (src dst pte : Nat) (s : State) : (leafLanded src dst pte s).mem.poison = s.mem.poison := by
  unfold leafLanded
  split <;> rfl

/-- Bytes outside the leaf are not touched by its write. -/
theorem cellAt_leafLanded {src dst pte a : Nat} (hal : pte % 8 = 0) (ha : pte = 0 ∨ a / 8 ≠ pte / 8) (s : State) :
    cellAt (leafLanded src dst pte s).mem.cells a = cellAt s.mem.cells a := by
  unfold leafLanded
  split
  · rfl
  next hpte => exact cellAt_poke_outside s pte a _ (by rw [length_leBytes]; omega)

/-- A leaf that the end of a copy can write: none, or an aligned entry in unpoisoned memory outside the destination. -/
def LeafWritable (s : State) (dst pte : Nat) : Prop :=
  pte = 0 ∨ (pte % 8 = 0 ∧ isMemory s pte = true ∧ isMemory s (pte + 7) = true ∧ poisonedAt s pte = false
    ∧ ¬(dst ≤ pte ∧ pte < dst + pageSize))

theorem LeafWritable.aligned {dst pte : Nat} (h : LeafWritable s dst pte) : pte % 8 = 0 := by
  obtain rfl | ⟨hal, -⟩ := h
  · rfl
  · exact hal

section
variable {sector src dst : Nat}

theorem pageCopied_sct (hslots : s.err.slots = []) : (pageCopied sector src dst s).sct = s.sct := (readPage_pageRead hslots sector src).sct

theorem pageCopied_view (hslots : s.err.slots = []) : tierView (pageCopied sector src dst s) = tierView s :=
  (readPage_pageRead hslots sector src).view

theorem cellAt_pageCopied (hs : memoryCanonical s = true) (hslots : s.err.slots = []) (a : Nat) :
    cellAt (pageCopied sector src dst s).mem.cells a
      = if dst ≤ a ∧ a < dst + pageSize then cellAt s.mem.cells (a - dst + src) else cellAt s.mem.cells a := by
  have hmem := (readPage_pageRead hslots sector src).mem
  rw [pageCopied, cellAt_copyPage (by rwa [memoryCanonical, hmem]), hmem]

theorem mem_poison_pageCopied (hslots : s.err.slots = []) (hsrc : src % pageSize = 0) (hdst : dst % pageSize = 0) (l : Nat) :
    l ∈ (pageCopied sector src dst s).mem.poison ↔ if dst / 64 ≤ l ∧ l < (dst + pageSize) / 64
      then l - dst / 64 + src / 64 ∈ s.mem.poison else l ∈ s.mem.poison := by
  rw [pageCopied, mem_poison_copyPage hsrc hdst, (readPage_pageRead hslots sector src).mem]

/-- A word outside the destination is not touched by the copy. -/
theorem word64_pageCopied (hs : memoryCanonical s = true) (hslots : s.err.slots = []) (hdst : dst % pageSize = 0) {pte : Nat}
    (hal : pte % 8 = 0) (hout : ¬(dst ≤ pte ∧ pte < dst + pageSize)) : word64 (pageCopied sector src dst s) pte = word64 s pte := by
  refine word64_congr fun i hi => ?_
  simp only [pageSize] at hdst hout
  rw [cellAt_pageCopied hs hslots, if_neg (by simp only [pageSize]; omega)]

theorem writeLeaf_pageCopied (hslots : s.err.slots = []) (hsrc : src % pageSize = 0) (hdst : dst % pageSize = 0) {pte : Nat}
    (hleaf : LeafWritable s dst pte) :
    writeLeaf [] pte (landedLeaf src dst) (pageCopied sector src dst s) = (stOk, leafLanded src dst pte (pageCopied sector src dst s)) := by
  obtain rfl | ⟨hal, hfirst, hlast, hpoison, hout⟩ := hleaf
  · rfl
  by_cases hpte : pte = 0
  · subst hpte; rfl
  have hread := readPage_pageRead hslots sector src
  have hcopy (a : Nat) : isMemory (pageCopied sector src dst s) a = isMemory s a :=
    isMemory_congr (congrArg Mem.farCap hread.mem) hread.farCfg a
  have hclean : poisonedAt (pageCopied sector src dst s) pte = false := by
    simp only [poisonedAt, List.contains_eq_mem, decide_eq_false_iff_not] at hpoison ⊢
    simp only [pageSize] at hdst hout
    rwa [mem_poison_pageCopied hslots hsrc (by simpa using hdst), if_neg (by simp only [pageSize]; omega)]
  have hnone : (pageCopied sector src dst s).err.slots = [] := hread.slots.trans hslots
  rw [leafLanded, if_neg hpte]
  exact writeLeaf_plain _ hpte hal ((hcopy _).trans hfirst) ((hcopy _).trans hlast) hclean hnone

end

theorem changeHead_single {m : Mover} (hmover : s.mover = [m]) (f : Mover → Mover) : changeHead f s = { s with mover := [f m] } := by
  simp [changeHead, hmover]

/-- The only page of an explicit TIER_MOVE `m`, alone in the queue, is in flight, with no slot armed and outside sealed mode. -/
structure PageMoving (s : State) (m : Mover) (src dst pte : Nat) : Prop where
  mover : s.mover = [m]
  job : m.job = .explicit [(src, dst, pte)]
  entry : m.entry = 0
  moving : m.moving = true
  active : m.active = true
  pages : m.pages = 0
  poisoned : m.poisoned = 0
  slots : s.err.slots = []
  plain : s.sealing.sealed = false
  src_aligned : src % pageSize = 0
  dst_aligned : dst % pageSize = 0
  sides : (src < 0x008000000000 ∧ 0x010000000000 ≤ dst) ∨ (dst < 0x008000000000 ∧ 0x010000000000 ≤ src)

/-- The far page of a move is its source when the source is not near. -/
theorem far_eq_src {src dst : Nat}
    (hsides : (src < 0x008000000000 ∧ 0x010000000000 ≤ dst) ∨ (dst < 0x008000000000 ∧ 0x010000000000 ≤ src)) :
    decide ((if src < 0x008000000000 then dst else src) = src) = !decide (src < 0x008000000000) := by
  split
  next h => simp only [h, decide_true, Bool.not_true, decide_eq_false_iff_not]; omega
  next h => simp [h]

section
variable {m : Mover} {src dst pte : Nat} (h : PageMoving s m src dst pte)
include h

theorem pageLanded_mover : (pageLanded m.sector src dst pte s).mover = [m] := by
  have hkept : (pageCopied m.sector src dst s).mover = s.mover := congrArg (·.1) (pageCopied_view (dst := dst) h.slots)
  have hdrop (t : State) : (dropCopies (fun d => d.entryDpa = pte) t).mover = t.mover := rfl
  simp only [pageLanded, timeoutsCleared_mover, hdrop, leafLanded_mover, hkept, h.mover]

/-- The end of the copy lands the page, and the mover goes on after its entry. -/
theorem pageMoveEnd_eq (hleaf : LeafWritable s dst pte) : pageMoveEnd false [] [] s = moverRun (changeHead (fun m' => { m' with
    moving := false, entry := 0 + 1, pages := m.pages + 1, poisoned := m'.poisoned + (poisonIn s src).length })
    (pageLanded m.sector src dst pte s)) := by
  have hnext : nextPage s m = some (0, ⟨src, dst, pte⟩) := by simp [nextPage, h.job, h.entry]
  have hlost : poisonIn (readPage [] [] m.sector src s) src = poisonIn s src := by
    simp only [poisonIn, (readPage_pageRead h.slots m.sector src).mem]
  have hfold : copyPage src dst (readPage [] [] m.sector src s) = pageCopied m.sector src dst s := rfl
  have hsealing : (pageCopied m.sector src dst s).sealing = s.sealing := congrArg (·.2.1) (pageCopied_view (dst := dst) h.slots)
  have hwrite : writeLeaf [] pte (fun e => setBits (setBits (setBits e 12 34 (dst / 4096)) 4 1 (bitNat (decide (src < 0x008000000000)))) 5 1 0)
      (pageCopied m.sector src dst s) = (stOk, leafLanded src dst pte (pageCopied m.sector src dst s)) :=
    writeLeaf_pageCopied h.slots h.src_aligned h.dst_aligned hleaf
  unfold pageMoveEnd
  simp only [h.mover, hnext, h.active, h.moving, Bool.and_self, far_eq_src h.sides, Bool.not_not]
  rw [hlost, hfold]
  simp only [hsealing, h.plain, Bool.false_and, Bool.false_eq_true, if_false]
  rw [hwrite]
  rfl

/-- The end of the copy of a command's only page ends the command. -/
theorem pageMoveEnd_lands (hleaf : LeafWritable s dst pte) : pageMoveEnd false [] [] s
    = finish m.serial stOk 1 (poisonIn s src).length { pageLanded m.sector src dst pte s with mover := [] } := by
  have hdone := moverRun_done (s := { pageLanded m.sector src dst pte s with mover := [{ m with
    moving := false, entry := 0 + 1, pages := m.pages + 1, poisoned := m.poisoned + (poisonIn s src).length }] }) rfl h.job (by simp) rfl
    h.active
  rw [pageMoveEnd_eq h hleaf, changeHead_single (pageLanded_mover h)]
  simpa [h.pages, h.poisoned] using hdone

end

section
variable {sector src dst pte : Nat} (hs : memoryCanonical s = true) (hslots : s.err.slots = []) (hsrc : src % pageSize = 0)
  (hdst : dst % pageSize = 0) (hleaf : LeafWritable s dst pte)

theorem pageLanded_cells : (pageLanded sector src dst pte s).mem.cells = (leafLanded src dst pte (pageCopied sector src dst s)).mem.cells := by
  rw [pageLanded, timeoutsCleared_mem]
  rfl

include hs hslots hleaf in
/-- Outside its leaf, the move of a page is the copy. -/
theorem cellAt_pageLanded {a : Nat} (ha : pte = 0 ∨ a / 8 ≠ pte / 8) : cellAt (pageLanded sector src dst pte s).mem.cells a
    = if dst ≤ a ∧ a < dst + pageSize then cellAt s.mem.cells (a - dst + src) else cellAt s.mem.cells a := by
  rw [pageLanded_cells, cellAt_leafLanded hleaf.aligned ha, cellAt_pageCopied hs hslots]

include hslots hsrc hdst in
theorem mem_poison_pageLanded (l : Nat) : l ∈ (pageLanded sector src dst pte s).mem.poison ↔ if dst / 64 ≤ l ∧ l < (dst + pageSize) / 64
    then l - dst / 64 + src / 64 ∈ s.mem.poison else l ∈ s.mem.poison := by
  have hkept : (pageLanded sector src dst pte s).mem.poison = (pageCopied sector src dst s).mem.poison := by
    rw [pageLanded, timeoutsCleared_mem]
    exact leafLanded_poison ..
  rw [hkept, mem_poison_pageCopied hslots hsrc hdst]

include hs hslots hdst hleaf in
/-- The leaf names the destination. -/
theorem word64_pageLanded (hpte : pte ≠ 0) : word64 (pageLanded sector src dst pte s) pte = landedLeaf src dst (word64 s pte) := by
  obtain h | ⟨hal, -, -, -, hout⟩ := hleaf
  · exact absurd h hpte
  have hcells : word64 (pageLanded sector src dst pte s) pte = word64 (leafLanded src dst pte (pageCopied sector src dst s)) pte :=
    word64_congr fun _ _ => by rw [pageLanded_cells]
  rw [hcells, leafLanded, if_neg hpte, word64_poke (landedLeaf_lt (word64_lt _ _)), word64_pageCopied hs hslots hdst hal hout]

/-- No cache holds the leaf of the page. -/
theorem caches_pageLanded {e : Nat × List Cached} (he : e ∈ (pageLanded sector src dst pte s).mem.caches) {d : Cached} (hd : d ∈ e.2) :
    d.entryDpa ≠ pte := by
  rw [pageLanded, timeoutsCleared_mem] at he
  obtain ⟨e', -, rfl⟩ := List.mem_map.mp he
  simpa using (List.mem_filter.mp hd).2

include hslots in
theorem pageLanded_sct : (pageLanded sector src dst pte s).sct = s.sct := by
  rw [pageLanded, timeoutsCleared_sct]
  exact (leafLanded_sct ..).trans (pageCopied_sct hslots)

end

/-! ### Fills (05 R281, R282) -/

/-- The end of a MEM_ZERO that nothing holds leaves zeros in its range. -/
theorem fillEnd_zero {m : Mover} {base size : Nat} (hmover : s.mover = [m]) (hjob : m.job = .zero base size) (hbegun : m.begun = true)
    (hheld : m.held = false) (hyielded : m.yielded = false) (hbytes : m.bytes = 0)
    (hquiet : (Table.getD s.rings.held m.sector 0).testBit 3 = false) :
    fillEnd s = finish m.serial stOk size 0 (zeroFill { s with mover := [] } base size) := by
  have hend : fillEnd s = moverRun (endHead stOk size 0 (zeroFill s base size)) := by
    simp [fillEnd, hmover, hjob, hbegun, hheld, hyielded, hbytes, hquiet, Mover.movesPages]
  have hstay : (zeroFill s base size).mover = [m] := hmover
  rw [hend, endHead_single hstay]
  rfl

/-- The pages from `base` on that sector `n` does not have in its far range yet, filled with zeros outside sealed mode. -/
def fillPages (n base count : Nat) (s : State) : State :=
  (List.range count).foldl (fun s i =>
    if inFarRange s n (base + pageSize * i) pageSize then s else zeroFill s (base + pageSize * i) pageSize) s

theorem fillPages_succ (n base count : Nat) (s : State) : fillPages n base (count + 1) s
    = if inFarRange (fillPages n base count s) n (base + pageSize * count) pageSize then fillPages n base count s
      else zeroFill (fillPages n base count s) (base + pageSize * count) pageSize := by
  rw [fillPages, List.range_succ, List.foldl_append]
  rfl

/-- What a fill leaves of everything but the bytes and the poison. -/
structure Filled (s t : State) : Prop where
  far : t.mem.far = s.mem.far
  sealing : t.sealing = s.sealing
  mover : t.mover = s.mover
  sct : t.sct = s.sct

theorem fillPages_filled (n base count : Nat) (s : State) : Filled s (fillPages n base count s) := by
  induction count with
  | zero => exact ⟨rfl, rfl, rfl, rfl⟩
  | succ count ih =>
    rw [fillPages_succ]
    split
    · exact ih
    · exact ⟨ih.far, ih.sealing, ih.mover, ih.sct⟩

theorem fillPages_inFarRange (n base count a len : Nat) (s : State) : inFarRange (fillPages n base count s) n a len = inFarRange s n a len := by
  rw [inFarRange, inFarRange, (fillPages_filled n base count s).far]

theorem fillFar_fillPages (hplain : s.sealing.sealed = false) (n base size : Nat) : fillFar n base size s = fillPages n base (size / pageSize) s := by
  unfold fillFar
  induction size / pageSize with
  | zero => rfl
  | succ count ih =>
    have hopen := (fillPages_filled n base count s).sealing
    rw [List.range_succ, List.foldl_append, ih, fillPages_succ]
    simp only [List.foldl_cons, List.foldl_nil, zeroFill_sealing, hopen, hplain, Bool.false_eq_true, if_false]

/-- Bytes outside the pages are not filled. -/
theorem cellAt_fillPages_outside {n base count a : Nat} (ha : ¬(base ≤ a ∧ a < base + pageSize * count)) :
    cellAt (fillPages n base count s).mem.cells a = cellAt s.mem.cells a := by
  induction count with
  | zero => rfl
  | succ count ih =>
    simp only [pageSize] at ha ih
    rw [fillPages_succ]
    split
    · exact ih (by omega)
    · rw [cellAt_zeroFill, if_neg (by simp only [pageSize]; omega), ih (by omega)]

/-- Every page that the sector did not have holds zeros. -/
theorem cellAt_fillPages_fresh {n base count i a : Nat} (hi : i < count) (hfresh : inFarRange s n (base + pageSize * i) pageSize = false)
    (ha : base + pageSize * i ≤ a ∧ a < base + pageSize * i + pageSize) : cellAt (fillPages n base count s).mem.cells a = 0 := by
  induction count with
  | zero => omega
  | succ count ih =>
    rw [fillPages_succ, fillPages_inFarRange]
    obtain rfl | hlt : i = count ∨ i < count := by omega
    · rw [hfresh, if_neg Bool.false_ne_true, cellAt_zeroFill, if_pos ha]
    split
    · exact ih hlt
    · rw [cellAt_zeroFill, ih hlt, ite_self]

/-- No line of it is poisoned. -/
theorem poison_fillPages_fresh {n base count i l : Nat} (hi : i < count) (hfresh : inFarRange s n (base + pageSize * i) pageSize = false)
    (hl : base + pageSize * i ≤ 64 * l ∧ 64 * l < base + pageSize * i + pageSize) : l ∉ (fillPages n base count s).mem.poison := by
  induction count with
  | zero => omega
  | succ count ih =>
    rw [fillPages_succ, fillPages_inFarRange]
    obtain rfl | hlt : i = count ∨ i < count := by omega
    · rw [hfresh, if_neg Bool.false_ne_true]
      simp only [zeroFill, List.mem_filter, Bool.or_eq_true, decide_eq_true_eq, not_and]
      omega
    split
    · exact ih hlt
    · exact fun hmem => ih hlt (List.mem_of_mem_filter hmem)

/-- The far range that a FAR_ASSIGN leaves its sector. -/
def farAssigned (k base size : Nat) (s : State) : State :=
  { s with mem := { s.mem with far := if size = 0 then Table.drop s.mem.far k else Table.put s.mem.far k (base, size) } }

theorem fillEnd_farAssign {m : Mover} {k base size : Nat} {x : List (Nat × Nat)} (hmover : s.mover = [m])
    (hjob : m.job = .farAssign k base size x) (hbegun : m.begun = true) (hheld : m.held = false) (hplain : s.sealing.sealed = false) :
    fillEnd s = finish m.serial stOk 0 0 { farAssigned k base size (fillPages k base (size / pageSize) s) with mover := [] } := by
  have hstay : (farAssigned k base size (fillPages k base (size / pageSize) s)).mover = [m] :=
    (fillPages_filled ..).mover.trans hmover
  have hend : fillEnd s = moverRun (endHead stOk 0 0 (farAssigned k base size (fillPages k base (size / pageSize) s))) := by
    simp [fillEnd, hmover, hjob, hbegun, hheld, Mover.movesPages, fillFar_fillPages hplain, farAssigned]
  rw [hend, endHead_single hstay]

/-- A byte of the new range that the old one did not hold lies in a page that is filled. -/
theorem page_fresh {k base size a : Nat} (hsize : size % pageSize = 0) (ha : base ≤ a) (ha' : a < base + size)
    (hnew : ∀ o z, Table.find s.mem.far k = some (o, z) → ¬(o ≤ a ∧ a < o + z)) :
    ∃ i, i < size / pageSize ∧ inFarRange s k (base + pageSize * i) pageSize = false
      ∧ base + pageSize * i ≤ a ∧ a < base + pageSize * i + pageSize := by
  simp only [pageSize] at hsize ⊢
  refine ⟨(a - base) / 2097152, by omega, ?_, by omega, by omega⟩
  unfold inFarRange
  split
  · rfl
  next o z hfind =>
    have hout := hnew o z hfind
    simp only [Bool.and_eq_false_iff, decide_eq_false_iff_not]
    omega

/-! ### CXL ports (05 R285, R286; 15 R778) -/

/-- What a port that goes OFFLINE with a cause leaves where the mover is idle. -/
structure PortLost (p cause : Nat) (s t : State) : Prop where
  state : (cxlOf t p).state = 0
  cause : (cxlOf t p).cause = cause
  other : cxlOf t (1 - p) = cxlOf s (1 - p)
  mem : t.mem = { s.mem with farOnline := if p = 0 then (false, s.mem.farOnline.2) else (s.mem.farOnline.1, false) }
  sealing : t.sealing = s.sealing
  sct : t.sct = s.sct
  rings : t.rings = s.rings

/-- A port marked OFFLINE with a cause. -/
def portMarked (p cause : Nat) (s : State) : State :=
  let t := setCxl p { cxlOf s p with state := 0, cause := cause } s
  { t with mem := { t.mem with farOnline := if p = 0 then (false, t.mem.farOnline.2) else (t.mem.farOnline.1, false) } }

theorem portMarked_lost {p : Nat} (hp : p < 2) (cause : Nat) (s : State) : PortLost p cause s (portMarked p cause s) := by
  obtain rfl | rfl : p = 0 ∨ p = 1 := by omega
  · exact ⟨rfl, rfl, rfl, rfl, rfl, rfl, rfl⟩
  · exact ⟨rfl, rfl, rfl, rfl, rfl, rfl, rfl⟩

/-- Error records and injected faults leave a lost port as it is. -/
theorem PortLost.recorded {p cause : Nat} {t u : State} (h : PortLost p cause s t) (hrec : Recorded t u) (hview : tierView u = tierView t) :
    PortLost p cause s u := by
  have hcxl (q : Nat) : cxlOf u q = cxlOf t q := 
    congrArg (fun v : List Mover × Seal × CxlPort × CxlPort => if q = 0 then v.2.2.1 else v.2.2.2) hview
  have hseal : u.sealing = t.sealing := congrArg (·.2.1) hview
  exact ⟨(congrArg _ (hcxl p)).trans h.state, (congrArg _ (hcxl p)).trans h.cause, (hcxl _).trans h.other, hrec.mem.trans h.mem,
    hseal.trans h.sealing, hrec.sct.trans h.sct, hrec.rings.trans h.rings⟩

theorem cxlOffline_lost {p : Nat} (hp : p < 2) (hstate : (cxlOf s p).state ≠ 0) (hidle : s.mover = []) (cause : Nat) :
    PortLost p cause s (cxlOffline p cause s) := by
  have hlive : ¬(2 ≤ p ∨ (cxlOf s p).state = 0) := by omega
  have hmarked : (portMarked p cause s).mover = [] := (setCxl_mover ..).trans hidle
  have hoff : cxlOffline p cause s = writeRecord
      { source := 0x0803, severity := 3, injected := (firePoint 0x0803 p (portMarked p cause s)).1, kind := 10, index := p }
      (firePoint 0x0803 p (portMarked p cause s)).2.2 := by
    have hquiet (r : Rec) : (writeRecord r (firePoint 0x0803 p (portMarked p cause s)).2.2).mover = [] := by
      have hkept : tierView (writeRecord r (firePoint 0x0803 p (portMarked p cause s)).2.2) = tierView (portMarked p cause s) :=
        (tierView_writeRecord ..).trans (tierView_firePoint ..)
      exact (congrArg (·.1) hkept).trans hmarked
    unfold cxlOffline
    rw [if_neg (by simpa using hlive)]
    dsimp only
    split
    · rfl
    next hcons => exact absurd ((hquiet _).symm.trans hcons) (List.cons_ne_nil _ _).symm
  rw [hoff]
  exact ((portMarked_lost hp cause s).recorded (firePoint_recorded ..) (tierView_firePoint ..)).recorded (writeRecord_recorded ..)
    (tierView_writeRecord ..)

/-- A port that stays OFFLINE takes no further event. -/
theorem cxl_offline_stays {p : Nat} (hoff : (cxlOf s p).state = 0) :
    execCxlMemTimeout p s = .next s ∧ ∀ fatal, execCxlPortOffline p fatal s = .next s := by
  simp [execCxlMemTimeout, execCxlPortOffline, hoff]

/-- The two timeouts before the third only count (15 R778). -/
theorem cxlMemTimeout_counts {p : Nat} (hp : p < 2) (hon : (cxlOf s p).state ≠ 0) (hfew : (cxlOf s p).timeouts + 1 < 3) :
    execCxlMemTimeout p s = .next (setCxl p { cxlOf s p with timeouts := (cxlOf s p).timeouts + 1 } s) := by
  have hlive : ¬(2 ≤ p ∨ (cxlOf s p).state = 0) := by omega
  rw [execCxlMemTimeout, if_neg (by simpa using hlive), if_pos hfew]

theorem cxlMemTimeout_third {p : Nat} (hp : p < 2) (hon : (cxlOf s p).state ≠ 0) (hthird : 3 ≤ (cxlOf s p).timeouts + 1) :
    execCxlMemTimeout p s = .next (notePartial (cxlOffline p 6 (setCxl p { cxlOf s p with timeouts := 0 } s))) := by
  have hlive : ¬(2 ≤ p ∨ (cxlOf s p).state = 0) := by omega
  rw [execCxlMemTimeout, if_neg (by simpa using hlive), if_neg (by omega)]

theorem cxlPortOffline_lost {p : Nat} (hp : p < 2) (hon : (cxlOf s p).state ≠ 0) (fatal : Bool) :
    execCxlPortOffline p fatal s = .next (notePartial (cxlOffline p (if fatal then 5 else 4) s)) := by
  have hlive : ¬(2 ≤ p ∨ (cxlOf s p).state = 0) := by omega
  rw [execCxlPortOffline, if_neg (by simpa using hlive)]

/-- What a lost port leaves depends on its counter of timeouts in nothing. -/
theorem PortLost.of_timeouts {p cause n : Nat} {t : State} (hp : p < 2) (h : PortLost p cause (setCxl p { cxlOf s p with timeouts := n } s) t) :
    PortLost p cause s t := by
  obtain rfl | rfl : p = 0 ∨ p = 1 := by omega
  · exact ⟨h.state, h.cause, h.other, h.mem, h.sealing, h.sct, h.rings⟩
  · exact ⟨h.state, h.cause, h.other, h.mem, h.sealing, h.sct, h.rings⟩

theorem notePartial_eq (s : State) :
    notePartial s = { s with sealing := { s.sealing with scrubPartial := s.sealing.scrub || s.sealing.scrubPartial } } := by
  unfold notePartial
  split
  next h => rw [h, Bool.true_or]; rfl
  next h => rw [Bool.not_eq_true] at h; rw [h, Bool.false_or]

/-! ### The clauses of O49 -/

/-- The row of a port that goes OFFLINE, with its cause. -/
theorem exec_portLost {p cause : Nat} {row : Instr} (hp : p < 2) (hon : (cxlOf s p).state ≠ 0) (hidle : s.mover = [])
    (hrow : (row = .cxlPortOffline p true ∧ cause = 5) ∨ (row = .cxlPortOffline p false ∧ cause = 4)
      ∨ (row = .cxlMemTimeout p ∧ 3 ≤ (cxlOf s p).timeouts + 1 ∧ cause = 6)) :
    ∃ t, exec row s = .next (notePartial t) ∧ PortLost p cause s t := by
  obtain ⟨rfl, rfl⟩ | ⟨rfl, rfl⟩ | ⟨rfl, hthird, rfl⟩ := hrow
  · exact ⟨_, cxlPortOffline_lost hp hon true, cxlOffline_lost hp hon hidle 5⟩
  · exact ⟨_, cxlPortOffline_lost hp hon false, cxlOffline_lost hp hon hidle 4⟩
  · have hon' : (cxlOf (setCxl p { cxlOf s p with timeouts := 0 } s) p).state ≠ 0 := by
      obtain rfl | rfl : p = 0 ∨ p = 1 := by omega
      · exact hon
      · exact hon
    exact ⟨_, cxlMemTimeout_third hp hon hthird, (cxlOffline_lost hp hon' ((setCxl_mover ..).trans hidle) 6).of_timeouts hp⟩

theorem exec_memInvalidate {ring : Nat} {c : Cmd} (hb : Begins s ring 0x0310 c) (hres : c.reserved [(36, 64)] = true)
    (hmax : c.param 32 4 ≤ 512)
    (hrange : c.param 32 4 = 0 ∨ (c.param 24 8 % 8 = 0 ∧ ownsRange s (c.ring / 64) (c.param 24 8) (8 * c.param 32 4) = true)) :
    exec (.memInvalidate ring) s = .next (okWith c 0 0 (dropCopies (fun d => d.sector = c.ring / 64
      && (c.param 32 4 = 0 || (c.param 24 8 ≤ d.entryDpa && d.entryDpa < c.param 24 8 + 8 * c.param 32 4))) s)) :=
  congrArg Host.Outcome.next (beginCommand_okWith hb (memInvalidateBody_ok rfl rfl rfl hres hmax hrange))

/-- A command that enters the queue of an idle mover runs from then on. -/
theorem exec_queued {ring op : Nat} {c : Cmd} {body : Cmd → State → Body} {m : Mover} {t : State} (hb : Begins s ring op c)
    (hbody : body c s = .ok (.running (queueMove m s))) (hidle : s.mover = [])
    (hquiet : (Table.getD s.rings.held m.sector 0).testBit 3 = false) (hrun : moverRun { s with mover := [{ m with held := false }] } = t) :
    beginCommand op ring body s = setPhase c.serial .running t := by
  rw [beginCommand_running hb hbody, queueMove_idle m hidle hquiet, hrun]

/-- The sectors and tiers of a TIER_MOVE of one page that may begin. -/
def MovablePage (s : State) (n src dst : Nat) : Prop :=
  (src < 0x008000000000 ∧ 0x010000000000 ≤ dst ∧ ownsRange s n src pageSize = true ∧ inFarRange s n dst pageSize = true
      ∧ holdsHeat s src pageSize = false ∧ farReady s dst = true)
    ∨ (dst < 0x008000000000 ∧ 0x010000000000 ≤ src ∧ ownsRange s n dst pageSize = true ∧ inFarRange s n src pageSize = true
      ∧ holdsHeat s dst pageSize = false ∧ farReady s src = true)

theorem exec_tierMove {ring n src dst : Nat} {c : Cmd} (hb : Begins s ring 0x0311 c) (hn : n = c.ring / 64)
    (hquiet : (Table.getD s.rings.held n 0).testBit 3 = false) (hidle : s.mover = []) (hmode : c.param 24 1 = 0) (hone : c.param 25 1 = 1)
    (hres : c.reserved [(48, 64)] = true) (hunits : 2 ≤ c.units) (hparams : c.param 64 8 = src ∧ c.param 72 8 = dst ∧ c.param 80 8 = 0)
    (hsrc : src % pageSize = 0) (hdst : dst % pageSize = 0) (hpage : MovablePage s n src dst) :
    exec (.tierMove ring []) s = .next (setPhase c.serial .running { s with mover :=
      [{ serial := c.serial, sector := n, job := .explicit [(src, dst, 0)], begun := true, moving := true }] }) := by
  obtain ⟨hs, hd, hp⟩ := hparams
  have hok : moveOk s n (src, dst, 0) = true := moveOk_unmapped hsrc hdst
    (hpage.imp (fun ⟨h1, h2, h3, h4, _⟩ => ⟨h1, h2, h3, h4⟩) (fun ⟨h1, h2, h3, h4, _⟩ => ⟨h1, h2, h3, h4⟩))
  have hfree : holdsHeat s (if src < 0x008000000000 then src else dst) pageSize = false := by
    obtain ⟨hnear, -, -, -, hfree, -⟩ | ⟨-, hfar, -, -, hfree, -⟩ := hpage
    · rwa [if_pos hnear]
    · rwa [if_neg (by omega)]
  have hready : farReady s (if src < 0x008000000000 then dst else src) = true := by
    obtain ⟨hnear, -, -, -, -, hready⟩ | ⟨-, hfar, -, -, -, hready⟩ := hpage
    · rwa [if_pos hnear]
    · rwa [if_neg (by omega)]
  have hbody := tierMoveBody_explicit hn hmode hone hres hunits hs hd hp hok hfree hready
  have hrun := moverRun_explicit (s := { s with mover := [{ serial := c.serial, sector := n, job := .explicit [(src, dst, 0)] }] })
    rfl rfl rfl rfl rfl hready
  exact congrArg Host.Outcome.next (exec_queued hb hbody hidle hquiet hrun)

theorem exec_memZero {ring n base size : Nat} {c : Cmd} (hb : Begins s ring 0x0312 c) (hn : n = c.ring / 64)
    (hquiet : (Table.getD s.rings.held n 0).testBit 3 = false) (hidle : s.mover = []) (hbase : c.param 24 8 = base) (hsize : c.param 32 8 = size)
    (hal : base % 64 = 0) (hal' : size % 64 = 0) (hmax : size ≤ 2 ^ 30) (hres : c.reserved [(40, 64)] = true)
    (hown : ownsRange s n base size = true) (hfree : size = 0 ∨ holdsHeat s base size = false) :
    exec (.memZero ring) s = .next (if size = 0 then okWith c 0 0 s else setPhase c.serial .running { s with mover :=
      [{ serial := c.serial, sector := n, job := .zero base size, begun := true }] }) := by
  have hbody := memZeroBody_ok hn hbase hsize hal hal' hmax hres hown hfree
  refine congrArg Host.Outcome.next ?_
  split
  next hzero => exact beginCommand_okWith hb (hbody.trans (if_pos hzero))
  next hsome =>
    have hrun := moverRun_zero (s := { s with mover := [{ serial := c.serial, sector := n, job := .zero base size }] }) rfl rfl rfl rfl
    exact exec_queued hb (hbody.trans (if_neg hsome)) hidle hquiet hrun

theorem exec_farAssign {ring n base size k : Nat} {c : Cmd} (hb : Begins s ring 0x0313 c) (hn : n = c.ring / 64)
    (hquiet : (Table.getD s.rings.held n 0).testBit 3 = false) (hidle : s.mover = []) (hbase : c.param 24 8 = base) (hsize : c.param 32 8 = size)
    (hk : c.param 40 1 = k) (hk7 : k ≤ 7) (hal : base % pageSize = 0) (hal' : size % pageSize = 0) (hres : c.reserved [(41, 64)] = true)
    (hrange : size = 0 ∨ (farRange s base size = true ∧ farPage s base + size / pageSize ≤ usablePages s
      ∧ farReady s base = true ∧ farReady s (base + size - 1) = true))
    (hfree : size = 0 ∨ ∀ e ∈ s.mem.far, e.1 = k ∨ overlaps base size e.2.1 e.2.2 = false) :
    exec (.farAssign ring) s = .next (setPhase c.serial .running { s with mem := { s.mem with farFixed := true }, mover :=
      [{ serial := c.serial, sector := n, job := .farAssign k base size [], begun := true }] }) := by
  subst hn
  have hbody := farAssignBody_ok hbase hsize hk hk7 hal hal' hres (hrange.imp id fun ⟨h1, h2, _⟩ => ⟨h1, h2⟩) hfree hidle
  have hready : size = 0 ∨ (farReady s base = true ∧ farReady s (base + size - 1) = true) := hrange.imp id fun ⟨_, _, h3, h4⟩ => ⟨h3, h4⟩
  have hrun := moverRun_farAssign (s := { s with mover := [{ serial := c.serial, sector := c.ring / 64, job := .farAssign k base size [] }] })
    rfl rfl rfl rfl hready
  exact congrArg Host.Outcome.next (exec_queued hb hbody hidle hquiet hrun)

/-- A byte of the new range that the old one did not hold is zero and its line not poisoned. -/
theorem farAssigned_zeros {k base size a : Nat} (hsize : size % pageSize = 0) (hbase : base % pageSize = 0) (ha : base ≤ a) (ha' : a < base + size)
    (hnew : ∀ o z, Table.find s.mem.far k = some (o, z) → ¬(o ≤ a ∧ a < o + z)) :
    cellAt (fillPages k base (size / pageSize) s).mem.cells a = 0 ∧ a / 64 ∉ (fillPages k base (size / pageSize) s).mem.poison := by
  obtain ⟨i, hi, hfresh, hlow, hhigh⟩ := page_fresh hsize ha ha' hnew
  refine ⟨cellAt_fillPages_fresh hi hfresh ⟨hlow, hhigh⟩, poison_fillPages_fresh hi hfresh ?_⟩
  simp only [pageSize] at hbase hlow hhigh ⊢
  omega

/-- Settles O49: each command's body is well formed and the idle mover takes it up; the end of a page copy and of a fill, and a lost CXL
port, by what each leaves. -/
theorem memoryMoves : Obligations.MemoryMoves := by
  refine ⟨?_, ?_, ?_, ?_, ?_⟩
  · intro s ring c hb hres hmax hrange
    exact exec_memInvalidate hb hres hmax hrange
  · intro s ring c n hn hquiet hidle
    refine ⟨?_, ?_, ?_⟩
    · intro src dst hb hmode hone hres hunits hs hd hp hsrc hdst hpage
      exact exec_tierMove hb hn hquiet hidle hmode hone hres hunits ⟨hs, hd, hp⟩ hsrc hdst hpage
    · intro base size hb hbase hsize hal hal' hmax hres hown hfree
      exact exec_memZero hb hn hquiet hidle hbase hsize hal hal' hmax hres hown hfree
    · intro base size k hb hbase hsize hk hk7 hal hal' hres hrange hfree
      exact exec_farAssign hb hn hquiet hidle hbase hsize hk hk7 hal hal' hres hrange hfree
  · intro s m src dst pte hmover hjob hentry _ hmoving hheld hyielded hpages hcount hslots hplain hsrc hdst hsides hs hleaf
    have hactive : m.active = true := by simp [Mover.active, hheld, hyielded]
    refine ⟨{ pageLanded m.sector src dst pte s with mover := [] }, ?_, rfl, ?_, ?_, ?_, ?_, pageLanded_sct hslots⟩
    · have hpage : PageMoving s m src dst pte :=
        ⟨hmover, hjob, hentry, hmoving, hactive, hpages, hcount, hslots, hplain, hsrc, hdst, hsides⟩
      exact congrArg Host.Outcome.next (pageMoveEnd_lands hpage hleaf)
    · intro o ho hout
      refine (cellAt_pageLanded hs hslots hleaf hout).trans ?_
      rw [if_pos (by omega)]
      congr 1
      omega
    · intro a ha hout
      exact (cellAt_pageLanded hs hslots hleaf hout).trans (if_neg ha)
    · exact mem_poison_pageLanded hslots hsrc hdst
    · intro hpte
      exact ⟨word64_pageLanded hs hslots hdst hleaf hpte, fun e he d hd => caches_pageLanded he hd⟩
  · intro s m hmover hbegun hheld hyielded
    refine ⟨?_, ?_⟩
    · intro base size hjob hbytes hquiet
      exact congrArg Host.Outcome.next (fillEnd_zero hmover hjob hbegun hheld hyielded hbytes hquiet)
    · intro k base size x hjob hplain hsize
      have hfill := fillPages_filled k base (size / pageSize) s
      refine ⟨_, congrArg Host.Outcome.next (fillEnd_farAssign hmover hjob hbegun hheld hplain), rfl, ?_, ?_, ?_, ?_, ?_, hfill.sct⟩
      · intro hzero
        simp [farAssigned, hzero]
      · intro hsome
        simp [farAssigned, hsome]
      · intro j hj
        simp only [farAssigned, hfill.far]
        split
        · exact Table.find_drop_ne _ hj
        · exact Table.find_put_ne _ _ hj
      · intro a ha ha' hnew _ hbase
        exact farAssigned_zeros hsize hbase ha ha' hnew
      · intro a ha
        refine cellAt_fillPages_outside ?_
        simp only [pageSize] at hsize ⊢
        omega
  · intro s p hp
    refine ⟨cxl_offline_stays, fun hon => ⟨cxlMemTimeout_counts hp hon, ?_⟩⟩
    intro row cause hidle hrow
    obtain ⟨t, hexec, hlost⟩ := exec_portLost hp hon hidle hrow
    rw [notePartial_eq, hlost.sealing] at hexec
    exact ⟨_, hexec, hlost.state, hlost.cause, hlost.other, hlost.mem, rfl, hlost.sct, hlost.rings⟩

end Sys2Proof.Machine

/-! # What lines, links and engines leave of a heat (O31, O32)

The rows of heats read and write lines of memory, send messages and free engines. Below, what each of these leaves: one rule for each
function, in the order of the model, each from the rules of the functions it calls, which its pattern hands to `grind`. -/
namespace Sys2Proof.Machine

/-! ### Lines (05 R261-R272; 17 R843-R872, R983, R984) -/

/-- A state apart from what an access to a line can change: registers, memory, wake queues, the error block, pins, and free values. -/
def lineFrame (s : State) : State := { s with regs := [], fresh := 0, wake := [], mem := {}, err := {}, pins := {} }

section
variable (s : State)

theorem lineFrame_bump (r : Reg) (i : Nat) : lineFrame (bump s r i) = lineFrame s := rfl
grind_pattern lineFrame_bump => lineFrame (bump s r i)

theorem lineFrame_poke (a : Nat) (bs : List Byte) : lineFrame (poke s a bs) = lineFrame s := rfl
grind_pattern lineFrame_poke => lineFrame (poke s a bs)

theorem lineFrame_unpoison (a : Nat) : lineFrame (unpoison s a) = lineFrame s := rfl
grind_pattern lineFrame_unpoison => lineFrame (unpoison s a)

theorem lineFrame_poisonLine (a : Nat) : lineFrame (poisonLine s a) = lineFrame s := rfl
grind_pattern lineFrame_poisonLine => lineFrame (poisonLine s a)

theorem lineFrame_zeroFill (base size : Nat) : lineFrame (zeroFill s base size) = lineFrame s := rfl
grind_pattern lineFrame_zeroFill => lineFrame (zeroFill s base size)

theorem lineFrame_spoilLine (a : Nat) : lineFrame (spoilLine a s) = lineFrame s := rfl
grind_pattern lineFrame_spoilLine => lineFrame (spoilLine a s)

theorem lineFrame_drawFree : lineFrame (drawFree s).2 = lineFrame s := rfl
grind_pattern lineFrame_drawFree => lineFrame (drawFree s).2

theorem lineFrame_noteTransient (r : Res) : lineFrame (noteTransient r s).2 = lineFrame s := rfl
grind_pattern lineFrame_noteTransient => lineFrame (noteTransient r s).2

theorem lineFrame_changeTest (r : Res) (f : SelfTest → SelfTest) : lineFrame (changeTest r f s) = lineFrame s := rfl
grind_pattern lineFrame_changeTest => lineFrame (changeTest r f s)

theorem lineFrame_writeRecord (r : Rec) : lineFrame (writeRecord r s) = lineFrame s := by
  have hpush (q : Nat) (ws : List (Word32 × Bool × Bool)) (t : State) : lineFrame (wakePush q ws t) = lineFrame t := rfl
  have hpins (p : Pins) (t : State) : lineFrame { t with pins := p } = lineFrame t := rfl
  have herr (e : Err) (t : State) : lineFrame { t with err := e } = lineFrame t := rfl
  simp only [writeRecord, apply_ite lineFrame, lineFrame_bump, hpush, hpins, herr, ite_self]
grind_pattern lineFrame_writeRecord => lineFrame (writeRecord r s)

theorem lineFrame_fireSlot (k : Nat) : lineFrame (fireSlot k s) = lineFrame s := by
  unfold fireSlot
  dsimp only
  split <;> rfl
grind_pattern lineFrame_fireSlot => lineFrame (fireSlot k s)

theorem lineFrame_actMemory (r : Res) (b : Bool) : lineFrame (actMemory r b s).2 = lineFrame s := by
  simp only [actMemory]
  split_ifs <;> rfl
grind_pattern lineFrame_actMemory => lineFrame (actMemory r b s).2

theorem lineFrame_queueTest (t : SelfTest) : lineFrame (queueTest t s) = lineFrame s := by
  unfold queueTest
  split
  · rfl
  · exact lineFrame_writeRecord ..
grind_pattern lineFrame_queueTest => lineFrame (queueTest t s)

theorem lineFrame_retireRecord (r : Res) (action ref sector addr : Nat) (injected : Bool) :
    lineFrame (retireRecord r action ref sector addr injected s) = lineFrame s := by
  unfold retireRecord
  dsimp only
  split <;> exact lineFrame_writeRecord ..
grind_pattern lineFrame_retireRecord => lineFrame (retireRecord r action ref sector addr injected s)

theorem lineFrame_detect (d : Detect) : lineFrame (detect actMemory d s) = lineFrame s := by unfold detect; grind
grind_pattern lineFrame_detect => lineFrame (detect actMemory d s)

theorem lineFrame_faultAt (a : Nat) (kind : FaultKind) (n : Nat) (injected forced : Bool) :
    lineFrame (faultAt a kind n injected forced s).2 = lineFrame s := by unfold faultAt; grind
grind_pattern lineFrame_faultAt => lineFrame (faultAt a kind n injected forced s).2

theorem lineFrame_patternKind (a n : Nat) : lineFrame (patternKind a n s).2 = lineFrame s := by unfold patternKind; grind
grind_pattern lineFrame_patternKind => lineFrame (patternKind a n s).2

/-- A fold of steps that each keep the frame keeps it. -/
theorem lineFrame_foldl {α : Type} {f : State → α → State} (hf : ∀ s a, lineFrame (f s a) = lineFrame s) (l : List α) (s : State) :
    lineFrame (l.foldl f s) = lineFrame s := by
  induction l generalizing s with
  | nil => rfl
  | cons a l ih => exact (ih (f s a)).trans (hf s a)
grind_pattern lineFrame_foldl => lineFrame (l.foldl f s)

theorem lineFrame_injectedFault (a : Nat) : lineFrame (injectedFault a s).2 = lineFrame s := by unfold injectedFault; grind
grind_pattern lineFrame_injectedFault => lineFrame (injectedFault a s).2

theorem lineFrame_readLine (faults : List LineFault) (a : Nat) : lineFrame (readLine faults a s).2 = lineFrame s := by unfold readLine; grind
grind_pattern lineFrame_readLine => lineFrame (readLine faults a s).2

theorem lineFrame_readLines (faults : List LineFault) (k l : Nat) : lineFrame (readLines faults k l s).2 = lineFrame s := by
  fun_induction readLines faults k l s <;> grind
grind_pattern lineFrame_readLines => lineFrame (readLines faults k l s).2

theorem lineFrame_holeRequest (sector a : Nat) : lineFrame (holeRequest sector a s) = lineFrame s := lineFrame_writeRecord ..
grind_pattern lineFrame_holeRequest => lineFrame (holeRequest sector a s)

theorem lineFrame_trustedRead (a n : Nat) : lineFrame (trustedRead a n s).2 = lineFrame s := by grind [trustedRead, faultyRead]
grind_pattern lineFrame_trustedRead => lineFrame (trustedRead a n s).2

theorem lineFrame_writeLine (faults : List LineFault) (a : Nat) (bs : List Byte) : lineFrame (writeLine faults a bs s).2 = lineFrame s := by
  grind [writeLine]
grind_pattern lineFrame_writeLine => lineFrame (writeLine faults a bs s).2

theorem lineFrame_writeLines (faults : List LineFault) (k a : Nat) (bs : List Byte) :
    lineFrame (writeLines faults k a bs s).2 = lineFrame s := by
  fun_induction writeLines faults k a bs s <;> grind
grind_pattern lineFrame_writeLines => lineFrame (writeLines faults k a bs s).2

theorem lineFrame_trustedWrite (a : Nat) (bs : List Byte) : lineFrame (trustedWrite a bs s).2 = lineFrame s := by
  grind [trustedWrite, faultyWrite]
grind_pattern lineFrame_trustedWrite => lineFrame (trustedWrite a bs s).2

theorem lineFrame_faultyLineAdd (faults : List LineFault) (a w : Nat) (sub : Bool) (operand : List Byte) :
    lineFrame (faultyLineAdd faults a w sub operand s).2 = lineFrame s := by
  grind [faultyLineAdd]

/-! ### Engines (09 R444, R448, R480, R489) -/

/-- A state apart from what an engine that goes on to its queue can change: what a line access can, rings and engines. -/
def engineFrame (s : State) : State := { lineFrame s with rings := {}, lat := [] }

theorem engineFrame_of_lineFrame {s t : State} (h : lineFrame t = lineFrame s) : engineFrame t = engineFrame s := by
  simp only [engineFrame, h]
grind_pattern engineFrame_of_lineFrame => lineFrame t, lineFrame s, engineFrame t

theorem engineFrame_finish (n st r0 r1 : Nat) : engineFrame (finish n st r0 r1 s) = engineFrame s := rfl
grind_pattern engineFrame_finish => engineFrame (finish n st r0 r1 s)

theorem engineFrame_setLat (e : Nat) (x : LatEngine) : engineFrame (setLat e x s) = engineFrame s := rfl
grind_pattern engineFrame_setLat => engineFrame (setLat e x s)

theorem engineFrame_trustedRead (a n : Nat) : engineFrame (trustedRead a n s).2 = engineFrame s :=
  engineFrame_of_lineFrame (lineFrame_trustedRead ..)
grind_pattern engineFrame_trustedRead => engineFrame (trustedRead a n s).2

theorem engineFrame_trustedWrite (a : Nat) (bs : List Byte) : engineFrame (trustedWrite a bs s).2 = engineFrame s :=
  engineFrame_of_lineFrame (lineFrame_trustedWrite ..)
grind_pattern engineFrame_trustedWrite => engineFrame (trustedWrite a bs s).2

theorem engineFrame_loadRegions (a : Nat) (l : List (Nat × Nat)) : engineFrame (loadRegions a l s) = engineFrame s := by
  fun_induction loadRegions a l s <;> grind
grind_pattern engineFrame_loadRegions => engineFrame (loadRegions a l s)

theorem engineFrame_resumeItem (e serial ring tag t0 t1 : Nat) : engineFrame (resumeItem e serial ring tag t0 t1 s) = engineFrame s := by
  grind [resumeItem, startOp]
grind_pattern engineFrame_resumeItem => engineFrame (resumeItem e serial ring tag t0 t1 s)

theorem engineFrame_moduliItem (e serial first logN : Nat) (entries : List (Nat × Nat)) :
    engineFrame (moduliItem e serial first logN entries s) = engineFrame s := by
  grind [moduliItem]
grind_pattern engineFrame_moduliItem => engineFrame (moduliItem e serial first logN entries s)

theorem engineFrame_latNext (e n : Nat) : engineFrame (latNext e n s) = engineFrame s := by
  fun_induction latNext e n s <;> grind [startOp]

theorem engineFrame_freeEngines (id : Nat) : engineFrame (freeEngines id s) = engineFrame s := by
  have hall (l : List Nat) (s : State) : engineFrame (l.foldl (fun s e =>
      if (latOf s e).heat = some id then latGo e (setLat e { latOf s e with heat := none } s) else s) s) = engineFrame s := by
    induction l generalizing s with
    | nil => rfl
    | cons e l ih =>
      refine (ih _).trans ?_
      dsimp only
      split
      · exact engineFrame_latNext ..
      · rfl
  exact hall ..

theorem heat_of_engineFrame {s t : State} (h : engineFrame t = engineFrame s) : t.heat = s.heat := (congrArg State.heat h :)
theorem out_of_engineFrame {s t : State} (h : engineFrame t = engineFrame s) : t.out = s.out := (congrArg State.out h :)

/-! ### Links (11 R558, R568-R571) -/

/-- A state apart from what a message on a link can change: registers, the chord block, and what is sent. -/
def linkFrame (s : State) : State := { s with regs := [], chord := {}, out := [] }

theorem linkFrame_pushData (c n : Nat) : linkFrame (pushData c n s) = linkFrame s := by
  induction n generalizing s with
  | zero => rfl
  | succ n ih =>
    unfold pushData
    dsimp only
    split
    · rfl
    · split
      · rfl
      · exact ih _

theorem linkFrame_putPacket (c : Nat) (p : Packet) : linkFrame (putPacket c p s) = linkFrame s := linkFrame_pushData ..

theorem linkFrame_sysSend (viaPair : Bool) (dest : Nat) (m : SysMsg) : linkFrame (sysSend viaPair dest m s) = linkFrame s := by
  unfold sysSend
  dsimp only
  split
  · exact linkFrame_putPacket ..
  · rfl

end

end Sys2Proof.Machine

/-! # Slots of heats (O31, O32) -/
namespace Sys2Proof.Machine

variable {s t u : State} {k : Nat} {h : HeatSlot}

/-! ### A slot read after an update -/

@[simp] theorem slotOf_setSlot_same (k : Nat) (h : HeatSlot) (s : State) : slotOf (setSlot k h s) k = h := by simp [slotOf]

theorem slotOf_of_find (hh : Table.find s.heat.slots k = some h) : slotOf s k = h := by simp [slotOf, Table.getD, hh]

theorem slotOf_setSlot_ne {j : Nat} (hj : j ≠ k) (h : HeatSlot) (s : State) : slotOf (setSlot k h s) j = slotOf s j := by
  simp [slotOf, Table.getD_put_ne _ _ _ hj]

theorem slotOf_changeSlot_ne {j : Nat} (hj : j ≠ k) (f : HeatSlot → HeatSlot) (s : State) : slotOf (changeSlot k f s) j = slotOf s j := by
  simp [slotOf, Table.getD, Table.find_change, hj]

theorem find_changeSlot (f : HeatSlot → HeatSlot) (hh : Table.find s.heat.slots k = some h) :
    Table.find (changeSlot k f s).heat.slots k = some (f h) := by
  simp [Table.find_change, hh]

theorem slotOf_changeSlot (f : HeatSlot → HeatSlot) (hh : Table.find s.heat.slots k = some h) : slotOf (changeSlot k f s) k = f h :=
  slotOf_of_find (find_changeSlot f hh)

theorem slotOf_congr (hu : u.heat.slots = t.heat.slots) (j : Nat) : slotOf u j = slotOf t j := by rw [slotOf, hu, ← slotOf]

/-! ### A phase change (07 R352) -/

/-- A phase change sets the phase and logs it; where the phase is the slot's already it does nothing. -/
theorem heatPhase_eq (k phase : Nat) (s : State) :
    ((slotOf s k).phase = phase ∧ heatPhase k phase s = s)
      ∨ ∃ regs wake, heatPhase k phase s = { setSlot k { slotOf s k with phase := phase } s with regs := regs, wake := wake } := by
  unfold heatPhase
  dsimp only
  split
  next heq => exact .inl ⟨heq, rfl⟩
  · exact .inr (logRecord_eq ..)

/-- It leaves the slot in the phase. -/
theorem find_heatPhase (phase : Nat) (hh : Table.find s.heat.slots k = some h) :
    Table.find (heatPhase k phase s).heat.slots k = some { h with phase := phase } := by
  obtain ⟨hphase, heq⟩ | ⟨regs, wake, heq⟩ := heatPhase_eq k phase s
  · rw [slotOf_of_find hh] at hphase
    rw [heq, hh, ← hphase]
  · rw [heq, slotOf_of_find hh]
    simp

/-- It leaves the other slots, memory and what is sent. -/
theorem heatPhase_frame (k phase : Nat) (s : State) :
    (∀ j, j ≠ k → slotOf (heatPhase k phase s) j = slotOf s j) ∧ (heatPhase k phase s).mem = s.mem ∧ (heatPhase k phase s).out = s.out := by
  obtain ⟨-, heq⟩ | ⟨regs, wake, heq⟩ := heatPhase_eq k phase s
  · rw [heq]
    exact ⟨fun _ _ => rfl, rfl, rfl⟩
  · rw [heq]
    exact ⟨fun j hj => slotOf_setSlot_ne hj _ s, rfl, rfl⟩

/-! ### Messages to slots, and commands that end -/

/-- A message to the slots of a heat leaves every slot. -/
theorem heatSend_slots (h : HeatSlot) (home : Nat) (m : HeatMsg) (s : State) : (heatSend h home m s).heat.slots = s.heat.slots := by
  unfold heatSend
  split
  · split <;> rfl
  · exact (congrArg (fun u => u.heat.slots) (linkFrame_sysSend s false _ _) :)

theorem heatTell_slots (h : HeatSlot) (m : HeatMsg) (s : State) : (heatTell h m s).heat.slots = s.heat.slots := by
  have hall (l : List Nat) (s : State) : (l.foldl (fun s p => heatSend h p m s) s).heat.slots = s.heat.slots := by
    induction l generalizing s with
    | nil => rfl
    | cons p l ih => exact (ih _).trans (heatSend_slots ..)
  exact hall ..

theorem finishAll_heat (l : List Nat) (st r0 r1 : Nat) (s : State) : (finishAll l st r0 r1 s).heat = s.heat := by
  unfold finishAll
  induction l generalizing s with
  | nil => rfl
  | cons n l ih => exact ih _

end Sys2Proof.Machine

/-! # Heat messages (O32) -/
namespace Sys2Proof.Machine

section

variable {s t u : State} {k : Nat} {c h : HeatSlot}

/-! ### What work on a slot leaves of it (07 R347, R349, R351, R377, R383) -/

/-- A slot apart from its phase and its taint, the number of its last mirror item, and its tally accumulators. -/
def HeatSlot.content (h : HeatSlot) : HeatSlot :=
  { h with phase := 0, prior := 0, taintLines := [], hMin := none, msnSent := 0, tally := [] }

/-- `t` follows `s` by work on slot `k`, which is open with the content `c`: sectors and rings are kept. -/
structure SlotHolds (s : State) (k : Nat) (c : HeatSlot) (t : State) : Prop where
  slot : (Table.find t.heat.slots k).map HeatSlot.content = some c
  sct : t.sct = s.sct
  rings : t.rings = s.rings

theorem SlotHolds.content_slotOf (h : SlotHolds s k c t) : (slotOf t k).content = c := by
  obtain ⟨x, hx, hc⟩ := Option.map_eq_some_iff.mp h.slot
  rw [slotOf_of_find hx, hc]

theorem SlotHolds.enrolled (h : SlotHolds s k c t) : (slotOf t k).enrolled = c.enrolled := (congrArg HeatSlot.enrolled h.content_slotOf :)
theorem SlotHolds.shares (h : SlotHolds s k c t) : (slotOf t k).shares = c.shares := (congrArg HeatSlot.shares h.content_slotOf :)
theorem SlotHolds.staged (h : SlotHolds s k c t) : (slotOf t k).staged = c.staged := (congrArg HeatSlot.staged h.content_slotOf :)
theorem SlotHolds.nextHsn (h : SlotHolds s k c t) : (slotOf t k).nextHsn = c.nextHsn := (congrArg HeatSlot.nextHsn h.content_slotOf :)
theorem SlotHolds.survivors (h : SlotHolds s k c t) : (slotOf t k).survivors = c.survivors := (congrArg HeatSlot.survivors h.content_slotOf :)
theorem SlotHolds.reveals (h : SlotHolds s k c t) : (slotOf t k).reveals = c.reveals := (congrArg HeatSlot.reveals h.content_slotOf :)
theorem SlotHolds.pieces (h : SlotHolds s k c t) : (slotOf t k).pieces = c.pieces := (congrArg HeatSlot.pieces h.content_slotOf :)

theorem SlotHolds.congr (h : SlotHolds s k c t) (hheat : u.heat = t.heat) (hsct : u.sct = t.sct) (hrings : u.rings = t.rings) :
    SlotHolds s k c u :=
  ⟨by rw [hheat]; exact h.slot, hsct.trans h.sct, hrings.trans h.rings⟩

theorem SlotHolds.of_lineFrame (h : SlotHolds s k c t) (hu : lineFrame u = lineFrame t) : SlotHolds s k c u :=
  h.congr (congrArg State.heat hu :) (congrArg State.sct hu :) (congrArg State.rings hu :)

theorem SlotHolds.of_linkFrame (h : SlotHolds s k c t) (hu : linkFrame u = linkFrame t) : SlotHolds s k c u :=
  h.congr (congrArg State.heat hu :) (congrArg State.sct hu :) (congrArg State.rings hu :)

theorem SlotHolds.setSlot (h : SlotHolds s k c t) {x y : HeatSlot} (hx : x.content = y) : SlotHolds s k y (setSlot k x t) :=
  ⟨by simp [hx], h.sct, h.rings⟩

theorem SlotHolds.changeSlot (h : SlotHolds s k c t) {f : HeatSlot → HeatSlot} (hf : ∀ x, (f x).content = f x.content) :
    SlotHolds s k (f c) (changeSlot k f t) := by
  obtain ⟨x, hx, hc⟩ := Option.map_eq_some_iff.mp h.slot
  refine ⟨?_, h.sct, h.rings⟩
  simp only [changeSlot_heat, Table.find_change, if_true, hx, Option.map_some, hf, hc]

theorem SlotHolds.heatPhase (h : SlotHolds s k c t) (phase : Nat) : SlotHolds s k c (heatPhase k phase t) := by
  obtain ⟨-, heq⟩ | ⟨regs, wake, heq⟩ := heatPhase_eq k phase t
  · rwa [heq]
  · rw [heq]
    exact (h.setSlot (x := { slotOf t k with phase := phase }) h.content_slotOf).congr rfl rfl rfl

theorem SlotHolds.taintSlot (h : SlotHolds s k c t) (line : Nat) (hsn : Option Nat) : SlotHolds s k c (taintSlot k line hsn t) := by
  unfold Machine.taintSlot
  extract_lets x low y t1
  have h1 : SlotHolds s k c t1 := h.setSlot h.content_slotOf
  split
  · exact h
  · split
    · exact h1
    · exact (h1.heatPhase 9).congr rfl rfl rfl

theorem SlotHolds.slotWrite (h : SlotHolds s k c t) (a : Nat) (bs : List Byte) : SlotHolds s k c (slotWrite k a bs t) := by
  have hw := h.of_lineFrame (lineFrame_trustedWrite t a bs)
  unfold Machine.slotWrite
  split
  next heq => rwa [heq] at hw
  next heq => rw [heq] at hw; exact hw.taintSlot ..

theorem SlotHolds.putBit (h : SlotHolds s k c t) (n bit : Nat) (on : Bool) : SlotHolds s k c (putBit k n bit on t) := h.slotWrite ..

theorem SlotHolds.addSpread (h : SlotHolds s k c t) (faults : List LineFault) (hsn : Option Nat) (ext : Extent) (w : Nat) (sub : Bool)
    (n off : Nat) (bs : List Byte) : SlotHolds s k c (addSpread faults k hsn ext w sub n off bs t) := by
  induction n generalizing t off bs with
  | zero => exact h
  | succ n ih =>
    unfold Machine.addSpread
    split
    · exact h
    · have hadd := h.of_lineFrame (lineFrame_faultyLineAdd t faults (spreadAddr ext off) w sub (bs.take 64))
      refine ih ?_ _ _
      split
      next heq => rwa [heq] at hadd
      next heq => rw [heq] at hadd; exact hadd.taintSlot ..

theorem SlotHolds.addVector (h : SlotHolds s k c t) (faults : List LineFault) (v : HeatVector) : SlotHolds s k c (addVector faults k v t) := by
  unfold Machine.addVector
  dsimp only
  split
  · exact h.setSlot h.content_slotOf
  · exact h.addSpread ..

/-- An entrant whose vector is complete counts as a survivor. -/
theorem SlotHolds.markSurvivor (h : SlotHolds s k c t) (n : Nat) :
    SlotHolds s k { c with survivors := c.survivors + 1 } (markSurvivor k n t) := by
  have hbits := (h.putBit n 3 true).putBit n 2 false
  unfold Machine.markSurvivor
  dsimp only
  refine SlotHolds.changeSlot (c := c) (f := fun x => { x with survivors := x.survivors + 1 }) ?_ fun _ => rfl
  split
  · exact hbits.putBit ..
  · exact hbits

/-- A slot once the complete vector of an entrant has been issued (R347, R383). -/
def HeatSlot.issued (h : HeatSlot) (n : Nat) : HeatSlot :=
  { h with
    nextHsn := h.nextHsn + 1, vectors := h.vectors ++ [{ hsn := h.nextHsn, index := n, bytes := h.joined n }],
    staged := Table.drop h.staged n, survivors := h.survivors + 1 }

theorem SlotHolds.issueVector (h : SlotHolds s k c t) (faults : List LineFault) (n : Nat) :
    SlotHolds s k (c.issued n) (issueVector faults k n t) := by
  obtain rfl := h.content_slotOf
  unfold Machine.issueVector
  dsimp only
  refine SlotHolds.addVector (SlotHolds.markSurvivor (c := { (slotOf t k).content.issued n with survivors := (slotOf t k).survivors })
    (h.setSlot ?_) n) ..
  rfl

/-- What an accepted contribution adds to its slot (R349, R351): an entrant, shares, a fragment, or revealed shares. -/
def HeatSlot.contributed (h : HeatSlot) (n typ frag : Nat) (data : List Byte) : HeatSlot :=
  if typ = 1 then { h with enrolled := h.enrolled + 1 }
  else if typ = 3 then { h with shares := (shareEntries data).foldl (fun a e => Table.put a (shareKey e.1 n) e.2) h.shares }
  else if typ = 5 || typ = 8 then { h with staged := Table.put h.staged n (Table.put (Table.getD h.staged n []) frag data) }
  else if typ = 6 then h
  else { h with reveals := h.reveals ++ (revealEntries data).map (fun e => ⟨e.1, e.2.1, n, e.2.2⟩) }

theorem SlotHolds.applyContribution (h : SlotHolds s k c t) (n typ frag : Nat) (data : List Byte) :
    SlotHolds s k (c.contributed n typ frag data) (applyContribution k n typ frag data t) := by
  obtain rfl := h.content_slotOf
  unfold Machine.applyContribution HeatSlot.contributed
  dsimp only
  split
  · exact SlotHolds.changeSlot (f := fun x => { x with enrolled := x.enrolled + 1 }) ((h.slotWrite ..).putBit ..) fun _ => rfl
  · split
    · refine SlotHolds.putBit (h.setSlot ?_) ..
      rfl
    · split
      · refine SlotHolds.putBit (h.setSlot ?_) ..
        rfl
      · split
        · exact h.putBit ..
        · refine SlotHolds.putBit (h.setSlot ?_) ..
          rfl

theorem SlotHolds.mirrorItem (h : SlotHolds s k c t) (item : Nat → Nat → SysMsg) : SlotHolds s k c (mirrorItem k item t).2 := by
  unfold Machine.mirrorItem
  extract_lets x n t1
  have h1 : SlotHolds s k c t1 := h.setSlot h.content_slotOf
  split
  · exact h
  · dsimp only
    split
    · exact h1.of_linkFrame (linkFrame_sysSend ..)
    · exact h1

/-- A slot once a contribution has been accepted: a vector that it completes is issued at once (R347). -/
def HeatSlot.accepted (h : HeatSlot) (n typ frag : Nat) (data : List Byte) : HeatSlot :=
  let d := h.contributed n typ frag data
  if (typ = 5 || typ = 8) && (Table.getD d.staged n []).length = d.pieces then d.issued n else d

theorem SlotHolds.acceptContribution (h : SlotHolds s k c t) (faults : List LineFault) (n typ frag : Nat) (data : List Byte) :
    SlotHolds s k (c.accepted n typ frag data) (acceptContribution faults k n typ frag data t).2 := by
  have happly := h.applyContribution n typ frag data
  have hmirror := happly.mirrorItem (fun id msn => .contribution id msn n typ frag data)
  unfold Machine.acceptContribution HeatSlot.accepted
  dsimp only
  rw [hmirror.staged, hmirror.pieces]
  split
  · dsimp only
    exact hmirror.issueVector ..
  · exact hmirror

end

section

variable {s s1 t : State} {faults : List LineFault} {qpn q n k parsed : Nat} {queue : Bool} {x : Qp} {h : HeatSlot} {msg : List Byte}

/-! ### Replies (06 R303; 10 R526) -/

theorem sendFrame_heat (f : RoceFrame) (s : State) : (sendFrame f s).heat = s.heat := by
  unfold sendFrame
  dsimp only
  split
  · rfl
  · split <;> rfl

/-- A reply leaves the heats, and with them the messages that are held. -/
theorem heatReplySend_heat (q : Nat) (imm : Option Nat) (bs : List Byte) (s : State) : (heatReplySend q imm bs s).heat = s.heat := by
  have hall (y : Qp) (l : List RocePacket) (t : State) : (l.foldl (fun s p => sendOn q y p s) t).heat = t.heat := by
    induction l generalizing t with
    | nil => rfl
    | cons p l ih => exact (ih _).trans (sendFrame_heat ..)
  unfold heatReplySend
  split
  · rfl
  · split
    · rfl
    · exact hall ..

theorem heatReply_heat (q : Nat) (hd : HeatHeader) (status : Nat) (imm : Option Nat) (kEd plain : List Byte) (s : State) :
    (heatReply q false hd status imm kEd plain s).heat = s.heat := by
  unfold heatReply
  dsimp only
  rw [if_neg Bool.false_ne_true, heatReplySend_heat]
  split <;> split <;> rfl

/-! ### The checks before the tag (06 R332) -/

/-- The checks of a message up to its tag hold: it is well formed, for slot `k` with contents `h`, which is neither TAINTED, stopped nor
moving, and its bitmap byte and record are read. -/
structure Admitted (s : State) (faults : List LineFault) (n k : Nat) (h : HeatSlot) (msg : List Byte) : Prop where
  formed : malformed msg = false
  found : (slotsFor s n (headerOf msg).id).find? (fun e => e.2.covers (headerOf msg).index) = some (k, h)
  listed : Table.find s.heat.slots k = some h
  untainted : h.phase ≠ 9
  running : h.stopped = false
  still : h.moving = none
  bitmap : ∃ bs, slotRead faults k (h.bitAddr (headerOf msg).index) 1 s = (some bs, s)
  enrolled : (ownBits s h (headerOf msg).index).testBit 0 = decide ((headerOf msg).typ ≠ 1)
  record : (headerOf msg).typ ≠ 1 → ∃ bs, slotRead faults k (h.recordAddr (headerOf msg).index) 128 s = (some bs, s)

/-- A read that keeps the state and answers. -/
theorem slotRead_eq {a m : Nat} (hkeep : (slotRead faults k a m s).2 = s) (hsome : (slotRead faults k a m s).1.isSome = true) :
    ∃ bs, slotRead faults k a m s = (some bs, s) := by
  obtain ⟨bs, hbs⟩ := Option.isSome_iff_exists.mp hsome
  exact ⟨bs, Prod.ext hbs hkeep⟩

/-- E_pk of a message: only an ENROL carries one. -/
abbrev ephemeralOf (msg : List Byte) : List Byte := if (headerOf msg).typ = 1 then (msg.drop 24).take 32 else []

/-- What the tag of a message is checked to give (06 R304). -/
abbrev openedOf (s : State) (faults : List LineFault) (k : Nat) (h : HeatSlot) (msg : List Byte) : Option (List Byte) :=
  Config.gcmOpen (messageKey s (headerOf msg).typ k h msg faults) (requestIv (headerOf msg)) (msg.take 24 ++ ephemeralOf msg)
    (if (headerOf msg).typ = 1 then msg.drop 56 else msg.drop 24)

/-- The message is refused where its tag does not hold, and else goes on with its plaintext. -/
theorem pipeline_admitted (hs : Admitted s faults n k h msg) :
    (openedOf s faults k h msg = none →
      pipeline faults q n queue msg parsed none s = .replied (heatReply q queue (headerOf msg) stKeyInvalid none [] [] s))
    ∧ (∀ plain, openedOf s faults k h msg = some plain →
      pipeline faults q n queue msg parsed none s = serveMessage faults q queue k (headerOf msg) parsed
        (messageKey s (headerOf msg).typ k h msg faults) (ephemeralOf msg) plain s) := by
  obtain ⟨hformed, hfound, -, h9, hrun, hstill, ⟨byte, hbyte⟩, henrolled, hrecord⟩ := hs
  unfold pipeline
  dsimp only
  rw [if_neg (by simp [hformed])]
  split
  next hnil => rw [hnil] at hfound; cases hfound
  · rw [hfound]
    dsimp only
    rw [if_neg (by simp [h9, hrun, hstill]), hbyte]
    dsimp only
    rw [henrolled, if_neg (by simp)]
    by_cases htyp : (headerOf msg).typ = 1
    · rw [if_neg (by simp [htyp])]
      simp only [htyp, if_true, openedOf, ephemeralOf, messageKey, List.drop_drop]
      exact ⟨fun hopen => by rw [hopen], fun plain hopen => by rw [hopen]⟩
    · obtain ⟨record, hrecord⟩ := hrecord htyp
      rw [if_pos (by simp [htyp])]
      simp only [htyp, if_false, openedOf, ephemeralOf, messageKey, hrecord, Option.getD_some]
      exact ⟨fun hopen => by rw [hopen], fun plain hopen => by rw [hopen]⟩

end

section

variable {s s1 t : State} {faults : List LineFault} {qpn q n k parsed : Nat} {queue : Bool} {x : Qp} {h : HeatSlot} {hd : HeatHeader}
  {msg kEd ePk plain : List Byte}

/-! ### A message whose tag holds (06 R332; 07 R348, R349) -/

/-- What is kept of an accepted contribution: the entrant's record of an ENROL, and else the plaintext (R351). -/
abbrev keptOf (typ : Nat) (kEd ePk plain : List Byte) : List Byte :=
  if typ = 1 then kEd ++ sliceBytes plain 16 64 ++ padTo 16 (Config.sha256 ePk) else plain

/-- An accepted contribution is applied and answered; a CONFIRM only where its data is ready. -/
theorem serveMessage_accept (hh : slotOf s k = h) {msn : Nat}
    (hjudge : judge s h h.phase hd.index hd.typ hd.frag ePk plain = .accept)
    (haccept : acceptContribution faults k hd.index hd.typ hd.frag (keptOf hd.typ kEd ePk plain) s = (msn, t))
    (hready : hd.typ = 6 → dataReady (slotOf t k) 6 = true) :
    serveMessage faults q queue k hd h.phase kEd ePk plain s
      = .replied (heatReply q queue hd stOk (replyImm (slotOf t k) hd.typ stOk msn) kEd
          (okPlain t (slotOf t k) hd.index hd.typ hd.frag) t) := by
  unfold serveMessage
  dsimp only
  rw [hh, ite_self, hjudge]
  dsimp only
  rw [haccept]
  exact if_neg (by simpa using hready)

/-- A fetch whose data is there is answered with it, under the phase in which it was parsed (R292, R348). -/
theorem serveMessage_fetch (hh : slotOf s k = h) (hfetch : isFetch hd.typ = true) (h10 : h.phase = 10 → parsed = 10)
    (hjudge : judge s h parsed hd.index hd.typ hd.frag ePk plain = .answer stOk) :
    serveMessage faults q queue k hd parsed kEd ePk plain s
      = .replied (heatReply q queue hd stOk none kEd (okPlain s h hd.index hd.typ hd.frag) s) := by
  have hphase : (if h.phase = 10 || !(isFetch hd.typ || hd.typ = 6) then h.phase else parsed) = parsed := by
    split
    next hif => rw [h10 (by simpa [hfetch] using hif), (by simpa [hfetch] using hif : h.phase = 10)]
    · rfl
  unfold serveMessage
  dsimp only
  rw [hh, hphase, hjudge]
  simp [replyImm, hfetch]

/-! ### The message rows (06, Messages; 07 R345) -/

/-- A message row takes the message at the head of its queue pair through the pipeline, and replies. -/
theorem messageRow_replied {typ : Nat} {rest : List (List Byte)} (hqp : qpFind s qpn = some (q, x)) (hmsg : x.messages = msg :: rest)
    (htyp : fieldBE msg 3 1 = typ) (hfree : heldClass s x.sector 2 = false) (hfirst : ∀ m ∈ s.heat.held, m.qp ≠ q)
    (hpipe : pipeline faults q x.sector false msg (phaseFor s x.sector msg) none (setQp q { x with messages := rest } s) = .replied t) :
    messageRow typ qpn faults s = t := by
  have hnone : s.heat.held.any (fun m => m.qp = q) = false := by simpa using hfirst
  unfold messageRow
  rw [hqp]
  dsimp only
  rw [hmsg]
  dsimp only
  rw [if_neg (by simp [hfree, htyp])]
  have hphase : phaseFor (setQp q { x with messages := rest } s) x.sector msg = phaseFor s x.sector msg := rfl
  rw [hphase, setQp_heat, hnone, hpipe]

/-- HELD_REPLY takes the first held message of a queue pair through the pipeline, and the replies behind it leave. -/
theorem heldReply_replied {m : HeldMessage} (hqp : qpFind s qpn = some (q, x)) (hm : s.heat.held.find? (fun e => e.qp = q) = some m)
    (hfree : heldClass s x.sector 2 = false) (hs1 : s1 = { s with heat := { s.heat with held := s.heat.held.eraseP (fun e => e.qp = q) } })
    (hadm : Admitted s1 faults x.sector k h m.msg)
    (hpipe : pipeline faults q x.sector false m.msg m.phase m.accepted s1 = .replied t) :
    heldReply qpn faults s = sendWaiting q t.heat.held.length t := by
  have hfound : (slotsFor s x.sector (headerOf m.msg).id).find? (fun e => e.2.covers (headerOf m.msg).index) = some (k, h) := by
    have := hadm.found
    rwa [hs1] at this
  unfold heldReply
  rw [hqp]
  dsimp only
  rw [hm]
  dsimp only
  rw [hfound, if_neg (by simp [hfree, hadm.untainted, hadm.running, hadm.still]), ← hs1, hpipe]

end

section

variable {s s1 t : State} {faults : List LineFault} {qpn q n k typ : Nat} {x : Qp} {h : HeatSlot} {msg plain : List Byte}

/-! ### What an accepted contribution adds (06 R334; 07 R347, R349, R351) -/

/-- The slot after an accepted fragment or block: staged, or with the vector that it completes issued. -/
theorem accepted_fragment (h : HeatSlot) (n frag : Nat) (data : List Byte) (htyp : typ = 5 ∨ typ = 8) :
    if (Table.put (Table.getD h.staged n []) frag data).length = h.pieces then
      (h.accepted n typ frag data).nextHsn = h.nextHsn + 1 ∧ Table.find (h.accepted n typ frag data).staged n = none
        ∧ (h.accepted n typ frag data).survivors = h.survivors + 1
    else Table.find (h.accepted n typ frag data).staged n = some (Table.put (Table.getD h.staged n []) frag data)
      ∧ (h.accepted n typ frag data).nextHsn = h.nextHsn := by
  have hadd : h.contributed n typ frag data
      = { h with staged := Table.put h.staged n (Table.put (Table.getD h.staged n []) frag data) } := by
    obtain rfl | rfl := htyp <;> rfl
  have hframe : (typ = 5 || typ = 8) = true := by simpa using htyp
  have hpieces : (h.contributed n typ frag data).pieces = h.pieces := by rw [hadd]; rfl
  unfold HeatSlot.accepted
  dsimp only
  rw [hpieces, hframe, Bool.true_and, hadd, Table.getD_put_same]
  split
  next hfull =>
    rw [if_pos (by simpa using hfull)]
    exact ⟨rfl, Table.find_drop_same .., rfl⟩
  next hpart =>
    rw [if_neg (by simpa using hpart)]
    exact ⟨Table.find_put_same .., rfl⟩

/-- What a contribution adds to slot `k` in the words of the messages' statement. -/
structure Contributed (s : State) (h : HeatSlot) (k n typ frag : Nat) (plain : List Byte) (t : State) : Prop where
  entrant : typ = 1 → (slotOf t k).enrolled = h.enrolled + 1
  shares : typ = 3 → (slotOf t k).shares = (shareEntries plain).foldl (fun a e => Table.put a (shareKey e.1 n) e.2) h.shares
  fragment : typ = 5 ∨ typ = 8 →
    if (Table.put (Table.getD h.staged n []) frag plain).length = h.pieces then
      (slotOf t k).nextHsn = h.nextHsn + 1 ∧ Table.find (slotOf t k).staged n = none ∧ (slotOf t k).survivors = h.survivors + 1
    else Table.find (slotOf t k).staged n = some (Table.put (Table.getD h.staged n []) frag plain) ∧ (slotOf t k).nextHsn = h.nextHsn
  reveals : typ = 7 → (slotOf t k).reveals = h.reveals ++ (revealEntries plain).map (fun e => ⟨e.1, e.2.1, n, e.2.2⟩)
  sct : t.sct = s.sct
  rings : t.rings = s.rings

theorem acceptContribution_contributed (hh : Table.find s.heat.slots k = some h) (n typ frag : Nat) (kEd ePk plain : List Byte) :
    Contributed s h k n typ frag plain (acceptContribution faults k n typ frag (keptOf typ kEd ePk plain) s).2 := by
  have hstart : SlotHolds s k h.content s := ⟨by simp [hh], rfl, rfl⟩
  have hend := hstart.acceptContribution faults n typ frag (keptOf typ kEd ePk plain)
  refine ⟨?_, ?_, ?_, ?_, hend.sct, hend.rings⟩
  · rintro rfl
    exact hend.enrolled
  · rintro rfl
    exact hend.shares
  · intro htyp
    have hkept : keptOf typ kEd ePk plain = plain := if_neg (by omega)
    rw [hend.nextHsn, hend.staged, hend.survivors, hkept]
    exact accepted_fragment h.content n frag plain htyp
  · rintro rfl
    exact hend.reveals

/-! ### The statement -/

/-- A message that arrives is admitted to the check of its tag. -/
theorem Arrives.admitted (ha : Arrives s s1 typ qpn q x msg k h faults) : Admitted s1 faults x.sector k h msg := by
  obtain ⟨-, ⟨rest, -, hs1⟩, htyp, hformed, -, -, hfound, hlisted, h9, hrun, hstill, hbit, hbit', henrolled, hrecord⟩ := ha
  have htyp' : (headerOf msg).typ = typ := htyp
  have hheat : s1.heat = s.heat := by rw [hs1]; rfl
  have hmem : s1.mem = s.mem := by rw [hs1]; rfl
  refine ⟨hformed, ?_, by rwa [hheat], h9, hrun, hstill, slotRead_eq hbit hbit', ?_, ?_⟩
  · rwa [slotsFor, hheat, ← slotsFor]
  · rwa [ownBits, hmem, ← ownBits, htyp']
  · rw [htyp']
    exact fun hne => slotRead_eq (hrecord hne).1 (hrecord hne).2

/-- The row of a message type. -/
theorem exec_message {row : Instr}
    (hrow : (typ, row) ∈ [(1, Instr.enrol qpn faults), (2, .rosterGet qpn faults), (3, .share qpn faults), (4, .inboxGet qpn faults),
      (5, .submit qpn faults), (6, .confirm qpn faults), (7, .reveal qpn faults), (8, .tally qpn faults)]) :
    exec row s = .next (heatRow s (messageRow typ qpn faults s)) := by
  simp only [List.mem_cons, List.not_mem_nil, or_false, Prod.mk.injEq] at hrow
  obtain ⟨rfl, rfl⟩ | ⟨rfl, rfl⟩ | ⟨rfl, rfl⟩ | ⟨rfl, rfl⟩ | ⟨rfl, rfl⟩ | ⟨rfl, rfl⟩ | ⟨rfl, rfl⟩ | ⟨rfl, rfl⟩ := hrow <;> rfl

section
variable {row : Instr} (hrow : (typ, row) ∈ [(1, Instr.enrol qpn faults), (2, .rosterGet qpn faults), (3, .share qpn faults),
  (4, .inboxGet qpn faults), (5, .submit qpn faults), (6, .confirm qpn faults), (7, .reveal qpn faults), (8, .tally qpn faults)])
  (ha : Arrives s s1 typ qpn q x msg k h faults)
include hrow ha

/-- The row of a message that arrives replies as its pipeline does. -/
theorem exec_arrives (hpipe : pipeline faults q x.sector false msg h.phase none s1 = .replied t) :
    exec row s = .next (heatRow s t) := by
  obtain ⟨hqp, ⟨rest, hmsg, rfl⟩, htyp, -, hfree, hfirst, hfound, -⟩ := ha
  have hphase : phaseFor s x.sector msg = h.phase := by simp [phaseFor, hfound]
  rw [exec_message hrow, messageRow_replied hqp hmsg htyp hfree hfirst (hphase ▸ hpipe)]

/-- An accepted contribution is applied and answered; a CONFIRM only where its data is ready. -/
theorem exec_accepted (hopen : openedOf s1 faults k h msg = some plain)
    (hjudge : judge s1 h h.phase (headerOf msg).index typ (headerOf msg).frag (ephemeralOf msg) plain = .accept) :
    ∃ t msn, Contributed s h k (headerOf msg).index typ (headerOf msg).frag plain t
      ∧ ((typ = 6 → dataReady (slotOf t k) 6 = true) →
        exec row s = .next (heatRow s (heatReply q false (headerOf msg) stOk (replyImm (slotOf t k) typ stOk msn)
          (messageKey s1 typ k h msg faults) (okPlain t (slotOf t k) (headerOf msg).index typ (headerOf msg).frag) t))) := by
  have hadm := ha.admitted
  obtain ⟨-, ⟨rest, -, hs1⟩, htyp, -⟩ := id ha
  change (headerOf msg).typ = typ at htyp
  subst htyp
  have hadds := acceptContribution_contributed (faults := faults) hadm.listed (headerOf msg).index (headerOf msg).typ (headerOf msg).frag
    (messageKey s1 (headerOf msg).typ k h msg faults) (ephemeralOf msg) plain
  obtain ⟨msn, t, haccept⟩ : ∃ msn t, acceptContribution faults k (headerOf msg).index (headerOf msg).typ (headerOf msg).frag
    (keptOf (headerOf msg).typ (messageKey s1 (headerOf msg).typ k h msg faults) (ephemeralOf msg) plain) s1 = (msn, t) := ⟨_, _, rfl⟩
  rw [haccept] at hadds
  have hsct : s1.sct = s.sct := by rw [hs1]; rfl
  have hrings : s1.rings = s.rings := by rw [hs1]; rfl
  refine ⟨t, msn, { hadds with sct := hadds.sct.trans hsct, rings := hadds.rings.trans hrings }, fun hready => ?_⟩
  refine exec_arrives hrow ha (((pipeline_admitted hadm).2 plain hopen).trans ?_)
  exact serveMessage_accept (slotOf_of_find hadm.listed) hjudge haccept hready

end

/-- A held fetch is judged under the phase in which it was parsed, and answered (R348; log entry 55). -/
theorem exec_heldReply {m : HeldMessage} (hqp : qpFind s qpn = some (q, x)) (hm : s.heat.held.find? (fun e => e.qp = q) = some m)
    (haccepted : m.accepted = none) (hfree : heldClass s x.sector 2 = false)
    (hs1 : s1 = { s with heat := { s.heat with held := s.heat.held.eraseP (fun e => e.qp = q) } })
    (hadm : Admitted s1 faults x.sector k h m.msg) {status : Nat} {imm : Option Nat} {kEd plain : List Byte}
    (hpipe : pipeline faults q x.sector false m.msg m.phase none s1 = .replied (heatReply q false (headerOf m.msg) status imm kEd plain s1)) :
    exec (.heldReply qpn faults) s = .next (heatRow s (sendWaiting q s1.heat.held.length
      (heatReply q false (headerOf m.msg) status imm kEd plain s1))) := by
  change Host.Outcome.next (heatRow s (heldReply qpn faults s)) = _
  rw [heldReply_replied hqp hm hfree hs1 hadm (haccepted ▸ hpipe), heatReply_heat]

end

/-- Settles O32: the pipeline admits the message to the check of its tag, and what the judgement says becomes of it is replied. A held fetch
is judged under the phase in which it was parsed (log entry 55); the checks of a malformed message (log entry 59) are passed. -/
theorem heatMessages : Obligations.HeatMessages := by
  refine ⟨?_, ?_⟩
  · intro s s1 row typ qpn q k x msg h faults hrow ha
    have hadm := ha.admitted
    obtain ⟨-, -, htyp, -⟩ := id ha
    change (headerOf msg).typ = typ at htyp
    subst htyp
    dsimp only
    split
    next hopen => exact exec_arrives hrow ha ((pipeline_admitted hadm).1 hopen)
    next plain hopen =>
      refine ⟨fun hjudge => ?_, fun hjudge hfetch => ?_⟩
      · obtain ⟨t, msn, hadds, hexec⟩ := exec_accepted hrow ha hopen hjudge
        refine ⟨t, msn, ?_, ?_, hadds.entrant, hadds.shares, hadds.fragment, hadds.reveals, hadds.sct, hadds.rings⟩
        · intro htyp hready
          simpa only [htyp] using hexec fun _ => hready
        · exact fun hne => hexec fun htyp => absurd htyp hne
      · refine exec_arrives hrow ha (((pipeline_admitted hadm).2 plain hopen).trans ?_)
        refine serveMessage_fetch (slotOf_of_find hadm.listed) ?_ id hjudge
        rcases hfetch with hf | hf <;> rw [hf] <;> rfl
  · intro s s1 qpn q k x m h faults hqp hm haccepted _ hfetch hformed hfree hs1 hfound h9 h10 hrun hstill hlisted hbit hbit' henrolled hrec hrec'
    change (headerOf m.msg).typ = 2 ∨ (headerOf m.msg).typ = 4 at hfetch
    have htyp : (headerOf m.msg).typ ≠ 1 := by omega
    have hadm : Admitted s1 faults x.sector k h m.msg := by
      refine ⟨hformed, ?_, ?_, h9, hrun, hstill, slotRead_eq hbit hbit', ?_, fun _ => slotRead_eq hrec hrec'⟩
      · rw [hs1]; exact hfound
      · rw [hs1]; exact hlisted
      · rw [hs1]; exact henrolled.trans (decide_eq_true htyp).symm
    have hkey : messageKey s1 (headerOf m.msg).typ k h m.msg faults
        = ((slotRead faults k (h.recordAddr (headerOf m.msg).index) 128 s1).1.getD []).take 32 := if_neg htyp
    have hePk : ephemeralOf m.msg = [] := if_neg htyp
    have hopened : openedOf s1 faults k h m.msg
        = Config.gcmOpen (messageKey s1 (headerOf m.msg).typ k h m.msg faults) (requestIv (headerOf m.msg)) (m.msg.take 24 ++ [])
          (m.msg.drop 24) := by
      rw [openedOf, hePk, if_neg htyp]
    dsimp only
    rw [← hkey, ← hopened]
    split
    next hopen => exact exec_heldReply hqp hm haccepted hfree hs1 hadm ((pipeline_admitted hadm).1 hopen)
    next plain hopen =>
      intro hjudge
      refine exec_heldReply hqp hm haccepted hfree hs1 hadm (((pipeline_admitted hadm).2 plain hopen).trans ?_)
      rw [hePk]
      exact serveMessage_fetch (slotOf_of_find hadm.listed) (by simpa [isFetch] using hfetch) (absurd · h10) hjudge

end Sys2Proof.Machine

/-! # Heat commands (O31) -/
namespace Sys2Proof.Machine

section

variable {s t u : State} {k ring : Nat} {c : Cmd} {h : HeatSlot}

/-! ### HEAT_POOL_SET (07 R341) -/

/-- HEAT_POOL_SET of owned granules, with no slot open (R341; a count of 0 drops the pool, log entry 105). -/
theorem heatPoolSetBody_ok {hf hc lf lc n : Nat} (hhf : c.param 24 4 = hf) (hhc : c.param 28 4 = hc) (hlf : c.param 32 4 = lf)
    (hlc : c.param 36 4 = lc) (hn : c.param 40 1 = n) (hres : c.reserved [(41, 64)] = true) (hn8 : n < 8) (hclosed : heatsOpen s n = false)
    (hhc' : hc ≤ 512) (hlc' : lc ≤ 128)
    (hown : hc ≠ 0 → hf + hc ≤ 512 ∧ lf + lc ≤ 128 ∧ (∀ i, i < hc → Table.find s.sct.hbm (hf + i) = some n)
      ∧ ∀ i, i < lc → Table.find s.sct.lake (lf + i) = some n) :
    ∃ p, heatPoolSetBody c s = .ok (.done stOk 0 0 (dropCopies p { s with heat := { s.heat with
      pools := if hc = 0 then Table.drop s.heat.pools n else Table.put s.heat.pools n ⟨hf, hc, lf, lc⟩ } })) := by
  subst hhf hhc hlf hlc hn
  have hwholly : c.param 28 4 = 0 ∨ (c.param 24 4 + c.param 28 4 ≤ 512 ∧ c.param 32 4 + c.param 36 4 ≤ 128
      ∧ (∀ i, i < c.param 28 4 → Table.find s.sct.hbm (c.param 24 4 + i) = some (c.param 40 1))
      ∧ ∀ i, i < c.param 36 4 → Table.find s.sct.lake (c.param 32 4 + i) = some (c.param 40 1)) := by
    by_cases hz : c.param 28 4 = 0
    · exact .inl hz
    · exact .inr (hown hz)
  unfold heatPoolSetBody
  dsimp only
  rw [need_bind_of (by simp [hres, hn8, hhc', hlc']), need_bind_of (by simpa [and_assoc] using hwholly), need_bind_of (by simp [hclosed])]
  exact ⟨_, rfl⟩

/-! ### HEAT_ADVANCE (07 R392) -/

/-- The end of a phase of a heat in vector mode begins the next one; at the end of SUBMIT, where no fragment is staged. -/
theorem endPhase_vector (hh : Table.find s.heat.slots k = some h) (hvec : h.tallied = false) (hstaged : h.phase = 4 → h.staged = []) :
    (slotOf (endPhase k s) k).phase = h.phase + 1 ∧ (slotOf (endPhase k s) k).advance = h.advance := by
  have hone : ∃ y, Table.find (endOne k s).heat.slots k = some y ∧ y.phase = h.phase + 1 ∧ y.advance = h.advance ∧ y.params = h.params := by
    unfold endOne
    extract_lets x ph work s1 s2 s3
    have hx : x = h := slotOf_of_find hh
    have h1 : Table.find s1.heat.slots k = some { h with phase := h.phase + 1 } := by
      have hph : ph = h.phase := by rw [← hx]
      simp only [s1, hph]
      exact find_heatPhase _ hh
    have h2 : ∃ y, Table.find s2.heat.slots k = some y ∧ y.phase = h.phase + 1 ∧ y.advance = h.advance ∧ y.params = h.params := by
      simp only [s2]
      split
      · exact ⟨_, find_changeSlot _ h1, rfl, rfl, rfl⟩
      · exact ⟨_, h1, rfl, rfl, rfl⟩
    split
    · exact h2
    next h4 =>
      have hnil : x.staged = [] := by rw [hx]; exact hstaged (by rw [← hx]; exact not_not.mp h4)
      obtain ⟨y, hy, hphase, hadv, hparams⟩ := h2
      have h3 : s3 = s2 := by simp only [s3, hnil, List.foldl_nil]
      rw [h3]
      exact ⟨_, find_changeSlot _ hy, hphase, hadv, hparams⟩
  obtain ⟨y, hy, hphase, hadv, hparams⟩ := hone
  have htally : (slotOf (endOne k s) k).tallied = false := by
    rw [slotOf_of_find hy, ← hvec]
    exact congrArg (fun p => decide (fieldLE p 33 1 = 1)) hparams
  have hend : endPhase k s = endOne k s := by simp [endPhase, htally]
  rw [hend, slotOf_of_find hy]
  exact ⟨hphase, hadv⟩

/-- HEAT_ADVANCE on the lead, in vector mode: done at once, or running until the verdict on the phases that have one. -/
theorem exec_heatAdvance (hb : Begins s ring 0x0502 c) (hres : c.reserved [(33, 40), (52, 64)] = true)
    (hnamed : heatNamed s (c.ring / 64) (c.param 24 8) = some (k, h)) (hh : Table.find s.heat.slots k = some h) (hleads : h.leads = true)
    (hworks : h.works = true) (hvec : h.tallied = false) (hphase : h.phase = c.param 32 1) (hlo : 1 ≤ h.phase) (hhi : h.phase ≤ 6)
    (hstaged : h.phase = 4 → h.staged = []) :
    ∃ t, exec (.heatAdvance ring) s
        = .next (heatRow s (if h.phase = 1 ∨ 4 ≤ h.phase then setPhase c.serial .running t else okWith c 0 0 t))
      ∧ (slotOf t k).phase = h.phase + 1
      ∧ (slotOf t k).advance = (if h.phase = 1 ∨ 4 ≤ h.phase then h.advance ++ [(c.serial, h.phase)] else h.advance) := by
  have hbody : heatAdvanceBody c s = if hasVerdict h h.phase then
        .ok (.running (endPhase k (setSlot k { h with advance := h.advance ++ [(c.serial, h.phase)] } (heatTell h (.advance h.phase) s))))
      else .ok (.done stOk 0 0 (endPhase k (heatTell h (.advance h.phase) s))) := by
    unfold heatAdvanceBody
    rw [need_bind_of hres, hnamed]
    dsimp only
    rw [← hphase, need_bind_of (by simp [hleads, hworks, hlo, hhi])]
  have hverdict : hasVerdict h h.phase = decide (h.phase = 1 ∨ 4 ≤ h.phase) := by simp [hasVerdict, hvec]
  rw [hverdict] at hbody
  by_cases hv : h.phase = 1 ∨ 4 ≤ h.phase
  · rw [if_pos (by simpa using hv)] at hbody
    simp only [if_pos hv]
    refine ⟨_, congrArg (fun u => Host.Outcome.next (heatRow s u)) (beginCommand_running hb hbody), ?_⟩
    exact endPhase_vector (h := { h with advance := h.advance ++ [(c.serial, h.phase)] }) (by simp) hvec hstaged
  · rw [if_neg (by simpa using hv)] at hbody
    simp only [if_neg hv]
    refine ⟨_, congrArg (fun u => Host.Outcome.next (heatRow s u)) (beginCommand_okWith hb hbody), ?_⟩
    exact endPhase_vector (by rwa [heatTell_slots]) hvec hstaged

/-! ### HEAT_ABORT (07 R393) -/

/-- A slot that is not DONE fails, and no other slot changes (R393; HEAT_ABORT of a FAILED heat is OK, log entry 57). -/
theorem failHeat_fails (hh : Table.find s.heat.slots k = some h) (h8 : h.phase ≠ 8) :
    (slotOf (failHeat k s) k).phase = 10 ∧ ∀ j, j ≠ k → slotOf (failHeat k s) j = slotOf s j := by
  have hslot : slotOf s k = h := slotOf_of_find hh
  have hfail (h10 : h.phase ≠ 10) : (slotOf (failSlot k s) k).phase = 10 ∧ ∀ j, j ≠ k → slotOf (failSlot k s) j = slotOf s j := by
    unfold failSlot
    extract_lets x s1 s2
    rw [if_neg (by simp [x, hslot, h8, h10])]
    have h2 : s2.heat.slots = (heatPhase k 10 s).heat.slots := by
      simp only [s2, finishAll_heat, s1, heat_of_engineFrame (engineFrame_freeEngines ..)]
    refine ⟨?_, fun j hj => ?_⟩
    · rw [slotOf_changeSlot _ ((congrArg (Table.find · k) h2).trans (find_heatPhase 10 hh))]
    · rw [slotOf_changeSlot_ne hj, slotOf_congr h2, (heatPhase_frame k 10 s).1 j hj]
  unfold failHeat
  extract_lets x s1
  split
  next hend =>
    have h10 : h.phase = 10 := by simpa [x, hslot, h8] using hend
    exact ⟨by rw [hslot, h10], fun _ _ => rfl⟩
  next hopen =>
    have hs1 := hfail (by simpa [x, hslot, h8] using hopen)
    split
    · simpa only [slotOf_congr (heatTell_slots x .failed s1)] using hs1
    · split
      · exact hs1
      · simpa only [slotOf_congr (heatSend_slots x x.lead .failed s1)] using hs1

theorem heatAbortBody_done (hres : c.reserved [(33, 40), (52, 64)] = true)
    (hnamed : heatNamed s (c.ring / 64) (c.param 24 8) = some (k, h)) : heatAbortBody c s = .ok (.done stOk 0 0 (failHeat k s)) := by
  unfold heatAbortBody
  rw [need_bind_of hres, hnamed]

/-! ### HEAT_QUERY (07 R394) -/

theorem heatQueryBody_done (hres : c.reserved [(33, 40), (52, 64)] = true)
    (hnamed : heatNamed s (c.ring / 64) (c.param 24 8) = some (k, h)) :
    heatQueryBody c s = .ok (.done stOk (h.phase + k * 2 ^ 4 + h.role * 2 ^ 10 + h.checkpoint % 2 ^ 52 * 2 ^ 12)
      (h.survivors + h.enrolled * 2 ^ 32) s) := by
  unfold heatQueryBody
  rw [need_bind_of hres, hnamed]

/-! ### HEAT_COLLECT (07 R389, R395) -/

theorem zeroExtent_eq (e : Extent) (s : State) : ∃ mem, zeroExtent e s = { s with mem := mem } := by
  unfold zeroExtent
  induction e.granules generalizing s with
  | nil => exact ⟨s.mem, rfl⟩
  | cons g l ih =>
    obtain ⟨mem, hl⟩ := ih (zeroFill s (g * 2 ^ 30 + e.base) e.share)
    exact ⟨mem, hl⟩

/-- A freed slot is gone, and no other changes; nothing is sent. -/
theorem freeSlot_frees (k : Nat) (s : State) :
    (freeSlot k s).heat.slots = Table.drop s.heat.slots k ∧ (freeSlot k s).out = s.out := by
  unfold freeSlot
  dsimp only
  obtain ⟨mem, hrecords⟩ := zeroExtent_eq (slotOf s k).records s
  obtain ⟨mem', hrecon⟩ := zeroExtent_eq (slotOf s k).recon { s with mem := mem }
  rw [hrecords, hrecon]
  rw [heat_of_engineFrame (engineFrame_freeEngines ..), out_of_engineFrame (engineFrame_freeEngines ..)]
  exact ⟨rfl, rfl⟩

/-- A write to host memory of an unsealed package whose host link is up. -/
theorem hostWrite_unsealed (hsealed : s.sealing.sealed = false) (hlink : s.pci.linkUp = true) (n addr : Nat) (bs : List Byte) :
    hostWrite n addr bs s = .ok (emit (.hostWrite (.vf n) addr bs) s) := by
  simp [hostWrite, hsealed, hlink]

theorem heatCollectBody_done (hres : c.reserved [(33, 40), (52, 64)] = true)
    (hnamed : heatNamed s (c.ring / 64) (c.param 24 8) = some (k, h)) (h8 : h.phase = 8) (hleads : h.leads = true)
    (hpage : c.param 40 8 % 4096 = 0) (hroom : h.result.length ≤ c.param 48 4) (hsealed : s.sealing.sealed = false)
    (hlink : s.pci.linkUp = true) :
    heatCollectBody c s = .ok (.done stOk h.result.length 0 (freeSlot k (emit (.hostWrite (.vf (c.ring / 64)) (c.param 40 8) h.result) s))) := by
  unfold heatCollectBody
  rw [need_bind_of (by simp [hres, hpage]), hnamed]
  dsimp only
  rw [need_bind_of (by simp [h8]), if_pos (by simp [h8, hleads]), need_bind_of (by simp [hroom]), hostWrite_unsealed hsealed hlink]

theorem exec_heatCollect (hb : Begins s ring 0x0505 c) (hres : c.reserved [(33, 40), (52, 64)] = true)
    (hnamed : heatNamed s (c.ring / 64) (c.param 24 8) = some (k, h)) (h8 : h.phase = 8) (hleads : h.leads = true)
    (hpage : c.param 40 8 % 4096 = 0) (hroom : h.result.length ≤ c.param 48 4) (hsealed : s.sealing.sealed = false)
    (hlink : s.pci.linkUp = true) :
    ∃ t, exec (.heatCollect ring) s = .next (pairRow s (okWith c h.result.length 0 t)) ∧ Table.find t.heat.slots k = none
      ∧ t.out = s.out ++ [.hostWrite (.vf (c.ring / 64)) (c.param 40 8) h.result] ∧ ∀ j, j ≠ k → slotOf t j = slotOf s j := by
  obtain ⟨hslots, hout⟩ := freeSlot_frees k (emit (.hostWrite (.vf (c.ring / 64)) (c.param 40 8) h.result) s)
  have hbody := heatCollectBody_done hres hnamed h8 hleads hpage hroom hsealed hlink
  refine ⟨_, congrArg (fun u => Host.Outcome.next (pairRow s u)) (beginCommand_okWith hb hbody), ?_, hout, fun j hj => ?_⟩
  · rw [hslots, Table.find_drop_same]
  · simp only [slotOf, Table.getD, hslots, Table.find_drop_ne _ hj, emit_heat]

end

section

variable {s t u : State} {k i ring : Nat} {c : Cmd} {h g : HeatSlot}

/-! ### HEAT_OPEN (06 R294-R298; 07 R344, R352, R366, R974) -/

/-- A slot with the regions of another. -/
def HeatSlot.placed (h g : HeatSlot) : HeatSlot :=
  { h with
    records := g.records, acc := g.acc, mask := g.mask, recon := g.recon, noise := g.noise, staging := g.staging, bitmap := g.bitmap }

/-- Carving places the regions of a slot and writes memory, and changes nothing else. -/
theorem carve_eq {lead : Bool} (hc : carve h lead s = some (g, t)) : (∃ p, g = h.placed p) ∧ ∃ mem, t = { s with mem := mem } := by
  have hzero (l : List Extent) (s : State) : ∃ mem, l.foldl (fun s e => zeroExtent e s) s = { s with mem := mem } := by
    induction l generalizing s with
    | nil => exact ⟨s.mem, rfl⟩
    | cons e l ih =>
      obtain ⟨mem, he⟩ := zeroExtent_eq e s
      obtain ⟨mem', hl⟩ := ih (zeroExtent e s)
      exact ⟨mem', by rw [List.foldl_cons, hl, he]⟩
  have htable (addr : Nat → Nat) (l : List (Nat × Nat)) (s : State) :
      ∃ mem, l.foldl (fun s e => poke s (addr e.2) (leBytes 16 e.1)) s = { s with mem := mem } := by
    induction l generalizing s with
    | nil => exact ⟨s.mem, rfl⟩
    | cons e l ih =>
      obtain ⟨mem, hl⟩ := ih (poke s (addr e.2) (leBytes 16 e.1))
      exact ⟨mem, hl⟩
  unfold carve at hc
  split at hc
  · cases hc
  · dsimp only at hc
    split at hc
    · split at hc
      · cases hc
      · obtain ⟨hg, ht⟩ := Prod.mk.inj (Option.some.inj hc)
        refine ⟨⟨g, by rw [← hg]; rfl⟩, ?_⟩
        choose zeroed hzeroed using hzero
        choose tabled htabled using htable
        rw [← ht, hzeroed]
        split
        · rw [htabled]
          exact ⟨_, rfl⟩
        · exact ⟨_, rfl⟩
    · cases hc

/-! ### The statement of a heat (06 R298) -/

theorem length_beBytes (n v : Nat) : (beBytes n v).length = n := by rw [beBytes, List.length_reverse, length_leBytes]

/-- The common part of a heat in vector mode has 144 bytes (06, Common part). -/
theorem length_commonPart (s : State) (hvec : h.tallied = false) : (commonPart s h).length = 144 := by
  have hid : h.idBytes.length = 8 := length_beBytes ..
  have hbe4 (v : Nat) : (be4 v).length = 4 := length_beBytes ..
  have hdeadlines : ((List.range 6).flatMap (fun j => beBytes 8 (h.deadline (j + 1)))).length = 48 := by
    simp only [List.length_flatMap, length_beBytes, List.map_const', List.length_range, List.sum_replicate, smul_eq_mul]
  unfold commonPart
  rw [hvec]
  simp only [List.length_append, hbe4, hid, length_beBytes, hdeadlines, Bool.false_eq_true, if_false]

/-- It begins the statement. -/
theorem take_keyStatement (s : State) (hvec : h.tallied = false) (draw : List Byte) : (keyStatement s h draw).take 144 = commonPart s h := by
  unfold keyStatement
  dsimp only
  rw [List.append_assoc]
  exact List.take_left' (length_commonPart s hvec)

/-! ### The opening (06 R294-R298; 07 R344, R376) -/

/-- The fields of a slot are those of the packet that opened it. -/
theorem p_of_params (hg : g.params = c.bytes) (off n : Nat) : g.p off n = c.param off n := congrArg (fieldLE · off n) hg

theorem tallied_of_params (hg : g.params = c.bytes) (hvec : c.param 33 1 = 0) : g.tallied = false := by
  simp [HeatSlot.tallied, p_of_params hg, hvec]

theorem params_of_carve {lead : Bool} (hc : carve h lead s = some (g, t)) : g.params = h.params := by
  obtain ⟨⟨_, rfl⟩, -⟩ := carve_eq hc
  rfl

/-- A slot with the keys of its draw (06 R296, R331). -/
def HeatSlot.keyed (g : HeatSlot) (secret : List Byte) : HeatSlot :=
  { g with dSk := secret.take 32, dPk := x25519Public (secret.take 32), krc := secret.drop 32 }

/-- The state after the opening of slot `i` in vector mode: `opened` with the draws made and the statement written, in ENROL. -/
def openedState (i : Nat) (c : Cmd) (g : HeatSlot) (secret st : List Byte) (opened drawn : State) : State :=
  heatPhase i 1 (changeSlot i (fun h => { h with result := [], opening := none })
    (emit (.hostWrite (.vf (c.ring / 64)) (c.param 160 8) st)
      (setSlot i { g.keyed secret with result := st, opening := some c.serial } { opened with rng := drawn.rng, regs := drawn.regs })))

section
variable {faults : List LineFault} {opened w w' : State} {secret draw : List Byte}
  (hh : h = { params := c.bytes, sector := c.ring / 64, self := pkgNumber s, role := if c.param 116 1 = pkgNumber s then 1 else 0 })
include hh

/-- HEAT_OPEN in vector mode of a heat that is not mirrored, with its fields, deadlines, slot, key and pool in order and both draws made: it
is done at once. A SLOT of 0xFF takes the lowest free one (log entry 38). -/
theorem heatOpenBody_vector (hfields : openFields c h = true) (hrange : h.first + h.count ≤ h.totalIndices)
    (hdeadlines : openDeadlines h s.cad.stroke = true) (hvec : c.param 33 1 = 0) (hnew : ∀ e ∈ s.heat.slots, e.2.id ≠ h.id)
    (halone : c.param 35 1 = 0) (hraw : s.rng.raw = false)
    (hslot : (c.param 32 1 = i ∧ i < 64 ∧ Table.find s.heat.slots i = none)
      ∨ (c.param 32 1 = 255 ∧ Table.firstFree s.heat.slots 0 64 = some i))
    (hkey : (Table.find s.sealing.opkeys h.handle).map (fun k => k.sectors.testBit (c.ring / 64)) = some true)
    (hcarve : carve h (h.role = 1) s = some (g, opened)) (hsecret : internalBytes 0 64 s = (some secret, w))
    (hdraw : internalBytes 5 80 w = (some draw, w')) (hsealed : s.sealing.sealed = false) (hlink : s.pci.linkUp = true) :
    heatOpenBody faults c s
      = .ok (.done stOk i 3613 (openedState i c g secret (keyStatement s (g.keyed secret) draw) opened w')) := by
  have hparams : h.params = c.bytes := by rw [hh]
  have htally : h.tallied = false := tallied_of_params hparams hvec
  have hmirror : h.mirror = 0 := (p_of_params hparams 35 1).trans halone
  have hkeyed : (g.keyed secret).params = c.bytes := (params_of_carve hcarve).trans hparams
  obtain ⟨-, mem, hopened⟩ := carve_eq hcarve
  unfold heatOpenBody
  extract_lets n me h0 object want
  have hh0 : h = h0 := hh
  clear_value h0
  subst hh0
  have hobject : object = (.ok [], s) := if_neg (by simp [htally])
  have hfree : (if want = 255 then Table.firstFree s.heat.slots 0 64
      else if (Table.find s.heat.slots want).isNone then some want else none) = some i := by
    obtain ⟨hwant, hlt, hnone⟩ | ⟨hwant, hfirst⟩ := hslot
    · rw [show want = i from hwant, if_neg (by omega), hnone]
      rfl
    · rw [if_pos hwant, hfirst]
  rw [need_bind_of (by simp [hfields, hrange, hdeadlines]), need_bind_of (by simp [htally]), hobject]
  refine (need_bind_of (by simp [htally]) _ _ _).trans ?_
  rw [need_bind_of (by simpa using fun _ _ he heq => absurd heq (hnew _ he)), need_bind_of (by simp [hmirror]), need_bind_of (by simp [hraw]), hfree]
  refine (need_bind_of (by simp [htally]) _ _ _).trans ?_
  rw [need_bind_of (by simp only [n, hkey, Option.getD_some]), hcarve]
  dsimp -zeta only
  rw [hsecret]
  dsimp -zeta only
  rw [hdraw]
  dsimp -zeta only
  extract_lets moduli g1 g2 g3 s3
  have hg2 : g2 = g.keyed secret := if_neg (by rw [show g1.tallied = false from tallied_of_params hkeyed hvec]; exact Bool.false_ne_true)
  clear_value g2
  subst hg2
  have hsealed' : s3.sealing.sealed = false := by
    change opened.sealing.sealed = false
    rwa [hopened]
  have hlink' : s3.pci.linkUp = true := by
    change opened.pci.linkUp = true
    rwa [hopened]
  have halone' : g3.mirror = 0 := (p_of_params hkeyed 35 1).trans halone
  rw [if_pos halone', hostWrite_unsealed hsealed' hlink', show g3.p 160 8 = _ from p_of_params hkeyed 160 8]
  rfl

end

/-- The slot that an opening leaves is in ENROL with the parameters, the keys and the regions; no other slot changes, and the statement is
sent. -/
theorem openedState_opens {opened drawn : State} {secret st : List Byte} (i : Nat) (c : Cmd) (g : HeatSlot) :
    Table.find (openedState i c g secret st opened drawn).heat.slots i
        = some { g.keyed secret with result := [], opening := none, phase := 1 }
      ∧ (∀ j, j ≠ i → slotOf (openedState i c g secret st opened drawn) j = slotOf opened j)
      ∧ (openedState i c g secret st opened drawn).mem = opened.mem
      ∧ (openedState i c g secret st opened drawn).out = opened.out ++ [.hostWrite (.vf (c.ring / 64)) (c.param 160 8) st] := by
  obtain ⟨hother, hmem, hout⟩ := heatPhase_frame i 1 (changeSlot i (fun h => { h with result := [], opening := none })
    (emit (.hostWrite (.vf (c.ring / 64)) (c.param 160 8) st)
      (setSlot i { g.keyed secret with result := st, opening := some c.serial } { opened with rng := drawn.rng, regs := drawn.regs })))
  refine ⟨find_heatPhase 1 (find_changeSlot (h := { g.keyed secret with result := st, opening := some c.serial }) _ (by simp)),
    fun j hj => ?_, hmem, hout⟩
  exact (hother j hj).trans ((slotOf_changeSlot_ne hj _ _).trans (slotOf_setSlot_ne hj _ _))

end

/-- Settles O31: each command begins and its body is done at once, or runs until the verdict on the phase that it ends. SLOT 0xFF takes the
lowest free slot (log entry 38), HEAT_ABORT of a FAILED heat is OK (log entry 57), and a count of 0 drops the pool (log entry 105). -/
theorem heatCommands : Obligations.HeatCommands := by
  intro s ring c
  refine ⟨?_, ?_, ?_⟩
  · intro hb hres hf hc lf lc n hhf hhc hlf hlc hn hn8 hclosed hhc' hlc' hown
    obtain ⟨p, hbody⟩ := heatPoolSetBody_ok hhf hhc hlf hlc hn hres hn8 hclosed hhc' hlc' hown
    exact ⟨_, congrArg Host.Outcome.next (beginCommand_okWith hb hbody), rfl, rfl, rfl, rfl, rfl, rfl⟩
  · intro hb faults h g opened w w' i secret draw hh hfields hrange hdeadlines hvec hnew halone hraw hslot hkey hcarve hsecret hdraw hsealed hlink
    have hbody := heatOpenBody_vector (faults := faults) hh hfields hrange hdeadlines hvec hnew halone hraw hslot hkey hcarve hsecret hdraw
      hsealed hlink
    obtain ⟨hopened, hother, hmem, hout⟩ := openedState_opens (opened := opened) (drawn := w') (secret := secret)
      (st := keyStatement s (g.keyed secret) draw) i c g
    have hparams : g.params = c.bytes := by rw [params_of_carve hcarve, hh]
    obtain ⟨⟨p, rfl⟩, mem, hcarved⟩ := carve_eq hcarve
    have hsector : h.sector = c.ring / 64 := by rw [hh]
    have hcommon : commonPart s ((h.placed p).keyed secret) = commonPart s h := rfl
    refine ⟨_, keyStatement s ((h.placed p).keyed secret) draw, congrArg (fun u => Host.Outcome.next (heatRow s u)) (beginCommand_okWith hb hbody), ?_⟩
    rw [slotOf_of_find hopened, hout, take_keyStatement s (h := (h.placed p).keyed secret) (tallied_of_params hparams hvec), hcommon]
    refine ⟨rfl, hparams, rfl, hsector, rfl, rfl, rfl, rfl, fun j hj => (hother j hj).trans ?_, hmem, ?_, rfl⟩
    · rw [hcarved]; rfl
    · rw [hcarved]
  · intro k h hres hnamed hh
    refine ⟨?_, ?_, ?_, ?_⟩
    · intro hb hleads hworks hvec hphase hlo hhi hstaged
      exact exec_heatAdvance hb hres hnamed hh hleads hworks hvec hphase hlo hhi hstaged
    · intro hb h8
      exact ⟨_, congrArg (fun u => Host.Outcome.next (heatRow s u)) (beginCommand_okWith hb (heatAbortBody_done hres hnamed)), failHeat_fails hh h8⟩
    · intro hb
      exact congrArg Host.Outcome.next (beginCommand_okWith hb (heatQueryBody_done hres hnamed))
    · intro hb h8 hleads hpage hroom hsealed hlink
      exact exec_heatCollect hb hres hnamed h8 hleads hpage hroom hsealed hlink

end Sys2Proof.Machine

/-! # A noise draw of a heat slot that is listed twice (O33) -/
namespace Sys2Proof.Machine

section

variable {s t u : State} {k : Nat} {h : HeatSlot} {bs : List Byte}

/-! ### The noise draw (07 R370, R371) -/

/-- A draw that one request answers in full: every entry under the slot's number appends the bytes to those that it holds, and the samples go
to the noise buffer. -/
theorem noiseDraw_answered (hh : Table.find s.heat.slots k = some h) (hleads : h.leads = true) (hworks : h.works = true)
    (hphase : h.phase = 7) (hdone : h.noiseDone = false) (hsigma : h.sigma ≠ 0) (hdrawn : h.drawn = []) (hlo : 1 ≤ h.elements)
    (hhi : h.elements ≤ 4096) (hreq : internalRequest 1 (16 * h.elements) s = (some bs, u)) (hlen : bs.length = 16 * h.elements) :
    noiseDraw k s = pokeRegion h.noiseAddr (h.v / 64) 0 (padTo h.v (noiseElements (readTable u h) (h.width / 8) h.elements bs))
      (setSlot k { h with noiseDone := true, noiseWaiting := false, drawn := [] }
        (changeSlot k (fun x => { x with drawn := x.drawn ++ bs, noiseWaiting := false }) u)) := by
  have hfind : Table.find u.heat.slots k = some h := by
    obtain ⟨rng, regs, hu⟩ := internalRequest_eq 1 (16 * h.elements) s
    rw [hreq] at hu
    rwa [show u = _ from hu]
  have hheld : slotOf (changeSlot k (fun x => { x with drawn := x.drawn ++ bs, noiseWaiting := false }) u) k
      = { h with drawn := bs, noiseWaiting := false } := by
    rw [slotOf_changeSlot _ hfind, hdrawn, List.nil_append]
  unfold noiseDraw
  dsimp only
  rw [slotOf_of_find hh, if_neg (by simp [hleads, hworks, hphase, hdone, hsigma]), noiseDraw.draw]
  dsimp only
  rw [slotOf_of_find hh, hdrawn, List.length_nil, Nat.sub_zero, if_neg (by omega), Nat.min_eq_left (by omega), hreq]
  dsimp only
  rw [noiseDraw.draw]
  dsimp only
  rw [hheld]
  exact if_pos (show 16 * h.elements - bs.length = 0 by omega)

/-- Changes of a slot that agree on every entry under its number are the same change. -/
theorem changeSlot_congr {f g : HeatSlot → HeatSlot} (hfg : ∀ e ∈ s.heat.slots, e.1 = k → f e.2 = g e.2) : changeSlot k f s = changeSlot k g s := by
  have hslots : Table.change s.heat.slots k f = Table.change s.heat.slots k g :=
    List.map_congr_left fun e he => ite_congr rfl (fun hk => congrArg (Prod.mk k) (hfg e he hk)) fun _ => rfl
  rw [changeSlot, hslots, ← changeSlot]

/-- Where no entry under the slot's number holds a byte yet, as when the number is listed once, the draw is the one of the statement. -/
theorem exec_noiseDrawComplete (hh : Table.find s.heat.slots k = some h) (hleads : h.leads = true) (hworks : h.works = true)
    (hphase : h.phase = 7) (hdone : h.noiseDone = false) (hsigma : h.sigma ≠ 0) (hlo : 1 ≤ h.elements) (hhi : h.elements ≤ 4096)
    (hreq : internalRequest 1 (16 * h.elements) s = (some bs, u)) (hlen : bs.length = 16 * h.elements)
    (hdrawn : h.drawn = []) (hnone : ∀ e ∈ s.heat.slots, e.1 = k → e.2.drawn = []) :
    exec (.noiseDrawComplete k) s = .next (heatRow s (pokeRegion h.noiseAddr (h.v / 64) 0
      (padTo h.v (noiseElements (readTable u h) (h.width / 8) h.elements bs))
      (setSlot k { h with noiseDone := true, noiseWaiting := false, drawn := [] }
        (changeSlot k (fun x => { x with drawn := bs, noiseWaiting := false }) u)))) := by
  have hnone' : ∀ e ∈ u.heat.slots, e.1 = k → e.2.drawn = [] := by
    obtain ⟨rng, regs, hu⟩ := internalRequest_eq 1 (16 * h.elements) s
    rw [hreq] at hu
    rwa [show u = _ from hu]
  have hchange : changeSlot k (fun x => { x with drawn := x.drawn ++ bs, noiseWaiting := false }) u
      = changeSlot k (fun x => { x with drawn := bs, noiseWaiting := false }) u :=
    changeSlot_congr fun e he hk => by rw [hnone' e he hk, List.nil_append]
  change Host.Outcome.next (heatRow s (noiseDraw k s)) = _
  rw [noiseDraw_answered hh hleads hworks hphase hdone hsigma hdrawn hlo hhi hreq hlen, hchange]

/-! ### A heat row after which no slot can go on -/

/-- A lead that has neither graph seed, homes, ended phases nor a twin, and whose last verdict is still to come, has nothing to do. -/
theorem progress_idle (hh : slotOf s k = h) (hleads : h.leads = true) (hseed : h.seed = []) (hhomes : h.homes = [])
    (hendings : h.endings = []) (hclosing : h.closing = false) (hmirrored : h.mirrored = false) : progress k s = s := by
  have hgraph : graphWork k s = s := by simp [graphWork, hh, hseed, hhomes]
  have hverdict (ph : Nat) : tryVerdict k ph s = s := by simp [tryVerdict, hh, HeatSlot.allReported, hendings]
  have hclimb : climb k s = s := by simp [climb, hh, hleads, hmirrored]
  have hroot : rootSteps k s = s := by simp [rootSteps, hh, hclosing]
  simp [progress, hgraph, hverdict, hclimb, hroot, hh, hendings, hclosing]

/-- Where no slot can go on and no message waits, a heat row is followed by the marks and the messages to the twin alone. -/
theorem heatRow_idle (s : State) (htree : t.chord.tree = []) (hinbox : t.heat.inbox = [])
    (hidle : ∀ k ∈ t.heat.slots.map Prod.fst, progress k t = t) :
    heatRow s t = handSlots (mirrorChanges s (setCheckpointMark (setDeadlineMark t))) := by
  have hretry : retryTree t = t := by rw [retryTree, htree, List.foldl_nil]
  have hall : (t.heat.slots.map Prod.fst).foldl (fun t k => progress k t) t = t :=
    List.foldlRecOn (motive := (· = t)) _ _ rfl fun u hu k hk => (congrArg (progress k) hu).trans (hidle k hk)
  have hloop : heatLoop 4096 t = t := by
    rw [heatLoop, hinbox]
    dsimp only
    rw [hall, if_pos hinbox]
  rw [heatRow, hretry, hloop]

end

/-! ### The counterexample -/

/-- A lead in CLOSE of a heat of one element of 32 bits, with its noise of σ = 1/256 to draw. -/
def noisyLead : HeatSlot := { params := padTo 34 [] ++ [32, 0, 1] ++ padTo 75 [] ++ [1], role := 1, phase := 7 }

/-- A package whose table lists heat slot 0 twice: the lead, and behind it an entry that holds a drawn byte. -/
def listedTwice : State :=
  { heat := { slots := [(0, noisyLead), (0, { noisyLead with drawn := [0] })] }, rng := { instances := [(1, {})] } }

/-- The same package with the lead's noise drawn, where the entry behind it holds the bytes `held`. -/
def listedTwiceDrawn (rng : Rng) (mem : Mem) (held : List Byte) : State :=
  { listedTwice with
    rng := rng, mem := mem
    heat := { slots := [(0, { noisyLead with noiseDone := true }), (0, { noisyLead with drawn := held })] } }

/-- The noise bytes that each entry of the table of heat slots holds. -/
def noiseHeld (s : State) : List (List Byte) := s.heat.slots.map (fun e => e.2.drawn)

/-- Its internal instance 1 answers the request for the one sample in full. -/
theorem listedTwice_request : ∃ bs rng, internalRequest 1 (16 * noisyLead.elements) listedTwice = (some bs, { listedTwice with rng := rng })
    ∧ bs.length = 16 * noisyLead.elements := by
  refine ⟨_, _, rfl, ?_⟩
  change ((sliceBytes _ 0 16 ++ []).take 16).length = 16
  simp only [sliceBytes, List.length_take, List.length_append, List.length_replicate, List.length_nil]
  omega

/-- What follows the row leaves the bytes that its entries hold. -/
theorem noiseHeld_heatRow (rng : Rng) (mem : Mem) (held : List Byte) :
    noiseHeld (heatRow listedTwice (listedTwiceDrawn rng mem held)) = [[], held] := by
  have hidle : ∀ k ∈ [0, 0], progress k (listedTwiceDrawn rng mem held) = listedTwiceDrawn rng mem held := by
    intro k hk
    obtain rfl : k = 0 := by simpa using hk
    exact progress_idle rfl rfl rfl rfl rfl rfl rfl
  rw [heatRow_idle (t := listedTwiceDrawn rng mem held) _ rfl rfl hidle]
  rfl

/-- Refutes O33: it says that every entry under the slot's number holds after the draw the bytes of the request alone, while the model
appends them to those held before, and nothing in the statement keeps a number from being listed twice. On `listedTwice` the second entry
then holds one byte more than stated, and what follows the row leaves it there. -/
theorem not_heatUnderway : ¬ Obligations.HeatUnderway := by
  intro h
  obtain ⟨-, -, hnoise, -⟩ := h listedTwice 0 noisyLead rfl
  obtain ⟨bs, rng, hreq, hlen⟩ := listedTwice_request
  have hstated := hnoise bs _ rfl rfl rfl rfl (by decide) rfl (by decide) (by decide) hreq hlen
  have hdraws := noiseDraw_answered (s := listedTwice) (k := 0) rfl rfl rfl rfl rfl (by decide) rfl (by decide) (by decide) hreq hlen
  have hrow : heatRow listedTwice (noiseDraw 0 listedTwice) = _ := Host.Outcome.next.inj hstated
  rw [hdraws] at hrow
  have hheld : [[], 0 :: bs] = [[], bs] :=
    (noiseHeld_heatRow rng _ (0 :: bs)).symm.trans ((congrArg noiseHeld hrow).trans (noiseHeld_heatRow rng _ bs))
  simp at hheld

end Sys2Proof.Machine

/-! # The expanders and RNG_RAW_MODE (O45) -/
namespace Sys2Proof.Machine

section

variable {s : State} {ring n i : Nat} {c : Cmd}

/-! ### Reserved bytes of a packet (00 R17) -/

/-- Zero bytes are zero in every part of their range. -/
theorem zeroRange_within {bs : List Byte} {lo hi lo' hi' : Nat} (h : zeroRange bs lo hi = true) (hlo : lo ≤ lo') (hhi : hi' ≤ hi) :
    zeroRange bs lo' hi' = true := by
  have hpart : (bs.drop lo').take (hi' - lo') = (((bs.drop lo).take (hi - lo)).drop (lo' - lo)).take (hi' - lo') := by
    rw [List.drop_take, List.drop_drop, List.take_take, Nat.add_sub_cancel' hlo, min_eq_left (by omega)]
  rw [zeroRange, List.all_eq_true] at h ⊢
  rw [hpart]
  exact fun b hb => h b (List.mem_of_mem_drop (List.mem_of_mem_take hb))

theorem reserved_within {lo hi lo' hi' : Nat} (h : c.reserved [(lo, hi)] = true) (hlo : lo ≤ lo') (hhi : hi' ≤ hi) :
    c.reserved [(lo', hi')] = true := by
  simp only [Cmd.reserved, List.all_cons, List.all_nil, Bool.and_true] at h ⊢
  exact zeroRange_within h hlo hhi

/-! ### Lines without poison (05 R261-R268) -/

theorem unpoison_clean {a : Nat} (hp : poisonedAt s a = false) : unpoison s a = s := by
  have hkeep : s.mem.poison.filter (· ≠ a / 64) = s.mem.poison := by
    refine List.filter_eq_self.mpr fun l hl => decide_eq_true ?_
    rintro rfl
    simp [poisonedAt, hl] at hp
  rw [unpoison, hkeep]

theorem writeLine_clean {a : Nat} (bs : List Byte) (hp : poisonedAt s a = false) (hs : s.err.slots = []) :
    writeLine [] a bs s = (stOk, poke s a bs) := by
  unfold writeLine
  split
  · rw [unpoison_clean hp]
  · split
    · rfl
    · simp [readLine_plain hp hs]

/-- Bytes written one after the other are written together. -/
theorem poke_append (s : State) (a : Nat) (xs ys : List Byte) : poke (poke s a xs) (a + xs.length) ys = poke s a (xs ++ ys) := by
  simp [poke, cellsPut_append]

theorem poke_nil (s : State) (a : Nat) : poke s a [] = s := rfl

/-- A range without poison takes its bytes, and nothing else changes. -/
theorem writeLines_clean (n : Nat) : ∀ (a : Nat) (bs : List Byte) (s : State), s.err.slots = [] →
    (∀ b, a ≤ b → b < a + bs.length → poisonedAt s b = false) → bs.length ≤ 64 * n - a % 64 →
    writeLines [] n a bs s = (stOk, poke s a bs) := by
  induction n with
  | zero =>
    intro a bs s _ _ hlen
    obtain rfl : bs = [] := List.length_eq_zero_iff.mp (by omega)
    rfl
  | succ n ih =>
    intro a bs s hs hclean hlen
    by_cases hb : bs = []
    · subst hb; rfl
    have hpos : 0 < bs.length := List.length_pos_iff.mpr hb
    simp only [writeLines, hb, if_false, writeLine_clean _ (hclean a le_rfl (by omega)) hs]
    have hrest : ∀ b, a + (64 - a % 64) ≤ b → b < a + (64 - a % 64) + (bs.drop (64 - a % 64)).length → poisonedAt s b = false := by
      intro b h1 h2
      rw [List.length_drop] at h2
      exact hclean b (by omega) (by omega)
    rw [ih _ _ (poke s a _) hs hrest (by rw [List.length_drop]; omega)]
    by_cases hl : bs.length ≤ 64 - a % 64
    · rw [List.drop_eq_nil_of_le hl, List.take_of_length_le hl, poke_nil]
    · have h := poke_append s a (bs.take (64 - a % 64)) (bs.drop (64 - a % 64))
      rw [List.take_append_drop, List.length_take, min_eq_left (by omega)] at h
      rw [h]

theorem faultyWrite_clean {a : Nat} {bs : List Byte} (hbs : bs ≠ []) (hs : s.err.slots = []) (hclean : CleanRange s a bs.length) :
    faultyWrite [] a bs s = (stOk, poke s a bs) := by
  obtain ⟨hfirst, hlast, hpoison⟩ := hclean
  simp only [faultyWrite, hbs, if_false, hfirst, hlast]
  exact writeLines_clean _ a bs s hs hpoison (by omega)

/-! ### Instances (R415-R417, R422, R435) -/

/-- A client number is not an internal one. -/
theorem isClient_of_range (hlo : 0x100 ≤ i) (hhi : i ≤ 0x10FF) : isClient i = true ∧ isInternal i = false := by
  simp only [isClient, isInternal, Bool.and_eq_true, decide_eq_true_eq, decide_eq_false_iff_not]
  omega

theorem instanceForeign_own {x : Instance} (hint : isInternal i = false) (hx : Table.find s.rng.instances i = some x) (hn : x.sector = n) :
    instanceForeign s n i = false := by
  simp [instanceForeign, hint, hx, hn]

theorem instanceForeign_free (hint : isInternal i = false) (hx : Table.find s.rng.instances i = none) : instanceForeign s n i = false := by
  simp [instanceForeign, hint, hx]

theorem takeSeed_oldest {seed : List Byte} {rest : List (List Byte)} (hq : s.rng.queue = seed :: rest) :
    takeSeed s = some (seed, setRng { s.rng with queue := rest } s) := by
  simp [takeSeed, hq]

theorem generate_count (x : Instance) (len : Nat) (add : List Byte) : (x.generate len add).2.count = x.count + 1 := rfl

theorem length_padTo (k : Nat) (bs : List Byte) : (padTo k bs).length = k := by
  simp only [padTo, sliceBytes, List.length_append, List.length_replicate, List.length_take, List.length_drop]
  omega

theorem length_ctrBlocks (key : List Byte) (k : Nat) : ∀ v, (ctrBlocks key k v).1.length = 16 * k := by
  induction k with
  | zero => exact fun _ => rfl
  | succ k ih =>
    intro v
    change (aesBlock key (incr16 v) ++ (ctrBlocks key k (incr16 v)).1).length = _
    rw [List.length_append, ih, aesBlock, length_padTo]
    omega

/-- A request gives the bytes it asks for. -/
theorem length_generate (x : Instance) (len : Nat) (add : List Byte) : (x.generate len add).1.length = len := by
  change ((ctrBlocks _ ((len + 15) / 16) _).1.take len).length = len
  rw [List.length_take, length_ctrBlocks]
  omega

/-- Within its interval, a client instance without prediction resistance generates at once (R425). -/
theorem clientGenerate_inInterval {x : Instance} (len : Nat) (add : List Byte) (hx : Table.find s.rng.instances i = some x) (hpr : x.pr = false)
    (hfresh : x.needReseed = false) (hcount : x.count < x.interval) :
    clientGenerate i len false add s = (some ((x.generate len add).1, false), setInstance i (x.generate len add).2 s) := by
  simp only [clientGenerate, hx, hpr, hfresh, Bool.or_self, Bool.false_eq_true, if_false, if_neg (Nat.not_le.mpr hcount)]

/-- A client instance reseeded takes the oldest seed and waits no longer (R416, R424). -/
theorem clientReseed_oldest {seed : List Byte} {rest : List (List Byte)} (x : Instance) (add : List Byte) (hq : s.rng.queue = seed :: rest) :
    clientReseed i x add s = (x.reseed seed add, setRng { s.rng with
      queue := rest, waitList := s.rng.waitList.filter (· ≠ i), instances := Table.put s.rng.instances i (x.reseed seed add) } s) := by
  rw [clientReseed, takeSeed_oldest hq]
  rfl

/-! ### Commands of clients (R433-R437) -/

/-- A source that is up neither fails nor starts. -/
theorem sourceState_up (hup : sourceState s = .ok ∨ sourceState s = .low) : sourceState s ≠ .failed ∧ sourceState s ≠ .startup := by
  obtain h | h := hup <;> simp [h]

/-- The instance that the command names, or the lowest free client number (R433). -/
def AsksInstance (s : State) (named i : Nat) : Prop :=
  (named = i ∧ Table.find s.rng.instances i = none)
    ∨ (named = 0xFFFFFFFF ∧ Table.find s.rng.instances 0xFFFFFFFF = none ∧ Table.firstFree s.rng.instances 0x100 4096 = some i)

/-- An INSTANTIATE with default interval and limit and without prediction resistance, of a sector within its quota (R433-R435). -/
structure Instantiates (s : State) (c : Cmd) (i : Nat) : Prop where
  raw : s.rng.raw = false
  client : 0x100 ≤ i ∧ i ≤ 0x10FF
  personalOk : c.param 36 2 ≤ 256
  units : 1 + (c.param 36 2 + 63) / 64 ≤ c.units
  interval : c.param 28 4 = 0
  limit : c.param 32 4 = 0
  noPr : c.param 38 1 = 0
  reserved : c.reserved [(39, 64)] = true
  asked : AsksInstance s (c.param 24 4) i
  quota : instancesOf s (c.ring / 64) < (sectorOf s (c.ring / 64)).rng

theorem rngInstantiateBody_ok {seed : List Byte} {rest : List (List Byte)} (hi : Instantiates s c i)
    (hup : sourceState s = .ok ∨ sourceState s = .low) (hseed : clientSeed s = true) (hq : s.rng.queue = seed :: rest) :
    rngInstantiateBody c s = .ok (.done stOk i 0
      (newInstance i { sector := c.ring / 64, interval := 4096, limit := 4096 } seed (sliceBytes c.bytes 64 (c.param 36 2))
        (setRng { s.rng with queue := rest } s))) := by
  obtain ⟨hraw, ⟨hlo, hhi⟩, hplen, hunits, hint, hlim, hpr, hres, hasked, hquota⟩ := hi
  obtain ⟨hfailed, hstartup⟩ := sourceState_up hup
  obtain ⟨hclient, hinternal⟩ := isClient_of_range hlo hhi
  have hnamed : (isClient (c.param 24 4) || isInternal (c.param 24 4) || decide (c.param 24 4 = 0xFFFFFFFF)) = true
      ∧ isInternal (c.param 24 4) = false ∧ Table.find s.rng.instances (c.param 24 4) = none
      ∧ (if c.param 24 4 = 0xFFFFFFFF then Table.firstFree s.rng.instances 0x100 4096 else some (c.param 24 4)) = some i := by
    obtain ⟨h, hfree⟩ | ⟨h, hfree, hfirst⟩ := hasked
    · rw [h, if_neg (by omega), hclient]
      exact ⟨rfl, hinternal, hfree, rfl⟩
    · rw [h]
      exact ⟨rfl, rfl, hfree, hfirst⟩
  obtain ⟨hnum, hint', hfree, hfirst⟩ := hnamed
  unfold rngInstantiateBody
  dsimp only
  rw [need_bind_of (by simpa using hunits), need_bind_of (by simp [hplen, hnum, hint, hlim, hpr, hres]),
    need_bind_of (by simp [instanceForeign_free hint' hfree]), need_bind_of (by simp [hraw, hfree]), hfirst]
  dsimp only
  rw [need_bind_of (by simpa using hquota), need_bind_of (by simpa using hfailed), need_bind_of (by simp [hstartup, hseed]), takeSeed_oldest hq]
  simp only [hint, hlim, hpr, if_true]
  rfl

/-- A GENERATE of a client within its interval, up to where its bytes go (R425, R433). -/
structure Generates (s : State) (c : Cmd) (i len alen dest : Nat) (x : Instance) : Prop where
  named : c.param 24 4 = i
  length : c.param 28 4 = len
  dest : c.param 32 8 = dest
  noReseed : c.param 41 1 = 0
  additional : c.param 42 2 = alen
  lengthOk : 1 ≤ len ∧ len ≤ 65536
  additionalOk : alen ≤ 256
  units : 1 + (alen + 63) / 64 ≤ c.units
  reserved : c.reserved [(44, 64)] = true
  client : 0x100 ≤ i ∧ i ≤ 0x10FF
  raw : s.rng.raw = false
  found : Table.find s.rng.instances i = some x
  own : x.sector = c.ring / 64
  noPr : x.pr = false
  fresh : x.needReseed = false
  within : x.count < x.interval

section

variable {len alen dest : Nat} {x : Instance}

/-- The bytes that the instance gives, and the state after it gave them. -/
abbrev generatedBytes (x : Instance) (c : Cmd) (len alen : Nat) : List Byte := (x.generate len (sliceBytes c.bytes 64 alen)).1
abbrev servedState (x : Instance) (c : Cmd) (i len alen : Nat) (s : State) : State :=
  setInstance i (x.generate len (sliceBytes c.bytes 64 alen)).2 s

/-- Once its bytes are written, the command answers their number and the count of the instance. -/
theorem rngGenerateBody_ok {faults : List LineFault} {t : State} (hg : Generates s c i len alen dest x)
    (hwrite : (c.param 40 1 = 1 ∧ ownsRange s (c.ring / 64) dest len = true
        ∧ faultyWrite faults dest (generatedBytes x c len alen) (servedState x c i len alen s) = (stOk, t))
      ∨ (c.param 40 1 = 0 ∧ hostAllowed s (c.ring / 64) true dest len = true
        ∧ hostWrite (c.ring / 64) dest (generatedBytes x c len alen) (servedState x c i len alen s) = .ok t)) :
    rngGenerateBody faults c s = .ok (.done stOk len ((x.count + 1) % 2 ^ 32) t) := by
  obtain ⟨rfl, rfl, rfl, hfirst, rfl, ⟨hpos, hmax⟩, halen, hunits, hres, ⟨hlo, hhi⟩, hraw, hx, hown, hpr, hfresh, hcount⟩ := hg
  obtain ⟨hclient, hinternal⟩ := isClient_of_range hlo hhi
  have hcounted : ((Table.find (servedState x c (c.param 24 4) (c.param 28 4) (c.param 42 2) s).rng.instances (c.param 24 4)).getD {}).count
      = x.count + 1 := by simp [setInstance, setRng, generate_count]
  have hto : (decide (c.param 40 1 = 0) || ownsRange s (c.ring / 64) (c.param 32 8) (c.param 28 4)) = true
      ∧ (decide (c.param 40 1 = 1) || hostAllowed s (c.ring / 64) true (c.param 32 8) (c.param 28 4)) = true ∧ c.param 40 1 ≤ 1 := by
    obtain ⟨hdpa, hrange, -⟩ | ⟨hdpa, hhost, -⟩ := hwrite <;> simp [*]
  obtain ⟨hrange, hhost, hone⟩ := hto
  unfold rngGenerateBody
  dsimp only
  rw [need_bind_of (by simpa using hunits), need_bind_of (by simp [halen, hclient, hpos, hmax, hone, hfirst, hres, hrange]),
    need_bind_of (by simp [instanceForeign_own hinternal hx hown]), need_bind_of hhost, need_bind_of (by simp [hraw, hx]), hfirst,
    show decide (0 = 1) = false from rfl, clientGenerate_inInterval _ _ hx hpr hfresh hcount]
  dsimp only
  obtain ⟨hdpa, -, hw⟩ | ⟨hdpa, -, hw⟩ := hwrite
  · rw [if_pos hdpa, hw, hcounted]
    rfl
  · rw [if_neg (by omega), hw, hcounted]
    rfl

/-- To host memory of an unsealed package whose link is up. -/
theorem rngGenerateBody_host (faults : List LineFault) (hg : Generates s c i len alen dest x) (hdpa : c.param 40 1 = 0)
    (hsealed : s.sealing.sealed = false) (hlink : s.pci.linkUp = true) :
    rngGenerateBody faults c s = .ok (.done stOk len ((x.count + 1) % 2 ^ 32)
      (emit (.hostWrite (.vf (c.ring / 64)) dest (generatedBytes x c len alen)) (servedState x c i len alen s))) := by
  have hallowed : hostAllowed s (c.ring / 64) true dest len = true := by simp [hostAllowed, hsealed]
  exact rngGenerateBody_ok hg (.inr ⟨hdpa, hallowed, hostWrite_unsealed (s := servedState x c i len alen s) hsealed hlink _ _ _⟩)

/-- To owned memory without poison. -/
theorem rngGenerateBody_dpa (hg : Generates s c i len alen dest x) (hdpa : c.param 40 1 = 1)
    (hrange : ownsRange s (c.ring / 64) dest len = true) (hclean : CleanRange s dest len) (hslots : s.err.slots = []) :
    rngGenerateBody [] c s = .ok (.done stOk len ((x.count + 1) % 2 ^ 32)
      (poke (servedState x c i len alen s) dest (generatedBytes x c len alen))) := by
  have hlen : (generatedBytes x c len alen).length = len := length_generate ..
  have hsome : generatedBytes x c len alen ≠ [] := List.ne_nil_of_length_pos (hlen.symm ▸ hg.lengthOk.1)
  have hclean' : CleanRange (servedState x c i len alen s) dest (generatedBytes x c len alen).length := hlen.symm ▸ hclean
  exact rngGenerateBody_ok hg (.inl ⟨hdpa, hrange, faultyWrite_clean hsome hslots hclean'⟩)

end

theorem rngReseedBody_ok {seed : List Byte} {rest : List (List Byte)} {x : Instance} (hraw : s.rng.raw = false) (hlo : 0x100 ≤ i)
    (hhi : i ≤ 0x10FF) (hx : Table.find s.rng.instances i = some x) (hown : x.sector = c.ring / 64) (hnamed : c.param 24 4 = i)
    (halen : c.param 42 2 ≤ 256) (hunits : 1 + (c.param 42 2 + 63) / 64 ≤ c.units) (hres : c.reserved [(28, 42), (44, 64)] = true)
    (hup : sourceState s = .ok ∨ sourceState s = .low) (hseed : clientSeed s = true) (hq : s.rng.queue = seed :: rest) :
    rngReseedBody c s = .ok (.done stOk 0 0 (setRng { s.rng with
      queue := rest
      waitList := s.rng.waitList.filter (· ≠ i)
      instances := Table.put s.rng.instances i (x.reseed seed (sliceBytes c.bytes 64 (c.param 42 2))) } s)) := by
  subst hnamed
  obtain ⟨hfailed, hstartup⟩ := sourceState_up hup
  obtain ⟨hclient, hinternal⟩ := isClient_of_range hlo hhi
  unfold rngReseedBody
  dsimp only
  rw [need_bind_of (by simpa using hunits), need_bind_of (by simp [halen, hclient, hres]),
    need_bind_of (by simp [instanceForeign_own hinternal hx hown]), need_bind_of (by simp [hraw]), hx]
  dsimp only
  rw [need_bind_of (by simpa using hfailed), need_bind_of (by simp [hstartup, hseed]), clientReseed_oldest x _ hq]

theorem rngUninstantiateBody_ok {x : Instance} (hraw : s.rng.raw = false) (hlo : 0x100 ≤ i) (hhi : i ≤ 0x10FF)
    (hx : Table.find s.rng.instances i = some x) (hown : x.sector = c.ring / 64) (hnamed : c.param 24 4 = i)
    (hres : c.reserved [(28, 64)] = true) :
    rngUninstantiateBody c s = .ok (.done stOk 0 0 (setRng { s.rng with
      instances := Table.drop s.rng.instances i, waitList := s.rng.waitList.filter (· ≠ i) } s)) := by
  subst hnamed
  obtain ⟨hclient, hinternal⟩ := isClient_of_range hlo hhi
  unfold rngUninstantiateBody
  dsimp only
  rw [need_bind_of (by simp [hclient, hres]), need_bind_of (by simp [instanceForeign_own hinternal hx hown]),
    need_bind_of (by simp [hraw, hx])]

/-! ### Raw test mode (R427-R432, R439) -/

variable {heatOpen : State → Bool}

/-- What ENTER and LEAVE keep reserved covers both checks of the command. -/
theorem reserved_rawMode (hres : c.reserved [(25, 64)] = true) :
    c.reserved [(27, 28), (40, 64)] = true ∧ c.reserved [(25, 40)] = true := by
  have hfirst := reserved_within hres (lo' := 27) (hi' := 28) (by omega) (by omega)
  have hlast := reserved_within hres (lo' := 40) (hi' := 64) (by omega) le_rfl
  refine ⟨?_, reserved_within hres le_rfl (by omega)⟩
  simp only [Cmd.reserved, List.all_cons, List.all_nil, Bool.and_true] at hfirst hlast ⊢
  rw [hfirst, hlast, Bool.and_self]

theorem rngRawModeBody_enter (hsealed : s.sealing.sealed = false) (haction : c.param 24 1 = 1) (hres : c.reserved [(25, 64)] = true)
    (hheat : heatOpen s = false) (hwaits : s.rng.internalWaits = []) (hraw : s.rng.raw = false) :
    rngRawModeBody heatOpen c s = .ok (.done stOk 0 0 (setRng { s.rng with
      raw := true, queue := [], annuli := s.rng.annuli.map (fun e => (e.1, { e.2 with block := [] })) } s)) := by
  obtain ⟨hrest, hshort⟩ := reserved_rawMode hres
  unfold rngRawModeBody
  dsimp only
  rw [need_bind_of (by simp [hsealed]), need_bind_of (by simp [haction, hrest]), if_neg (by omega), need_bind_of hshort, if_pos haction,
    need_bind_of (by simp [rawRefused, hheat, hwaits, hraw])]

theorem rngRawModeBody_leave (hsealed : s.sealing.sealed = false) (haction : c.param 24 1 = 0) (hres : c.reserved [(25, 64)] = true)
    (hraw : s.rng.raw = true) (hcap : s.rng.capture = none) :
    rngRawModeBody heatOpen c s = .ok (.done stOk 0 0 (leaveRaw s)) := by
  obtain ⟨hrest, hshort⟩ := reserved_rawMode hres
  unfold rngRawModeBody
  dsimp only
  rw [need_bind_of (by simp [hsealed]), need_bind_of (by simp [haction, hrest]), if_neg (by omega), need_bind_of hshort, if_neg (by omega),
    need_bind_of (by simp [hraw, hcap])]

theorem rngRawModeBody_capture (hsealed : s.sealing.sealed = false) (haction : c.param 24 1 = 2) (ha : c.param 25 1 < 32)
    (hkind : c.param 26 1 ≤ 1) (hmin : 8 ≤ c.param 28 4) (hmax : c.param 28 4 ≤ 2 ^ 25) (hbytes : c.param 28 4 % 8 = 0)
    (hpage : c.param 32 8 % 4096 = 0) (hres : c.reserved [(27, 28), (40, 64)] = true) (hraw : s.rng.raw = true)
    (hstate : (annulusOf s (c.param 25 1)).state = .healthy) (hcap : s.rng.capture = none) :
    rngRawModeBody heatOpen c s = .ok (.running (setRng { s.rng with
      capture := some { serial := c.serial, annulus := c.param 25 1, values := c.param 26 1 = 1, count := c.param 28 4,
                        sector := c.ring / 64, dest := c.param 32 8 } } s)) := by
  unfold rngRawModeBody
  dsimp only
  rw [need_bind_of (by simp [hsealed]), need_bind_of (by simp [haction, hres]), if_pos haction,
    need_bind_of (by simpa [ha, hkind, hmin, hbytes, hpage] using hmax), need_bind_of (by simp [hraw, hstate, hcap])]

theorem leaveRaw_leaves (s : State) : ∃ r : Rng, leaveRaw s = setRng r s ∧ r.raw = false ∧ r.started = false ∧ r.probation = []
    ∧ r.queue = s.rng.queue ∧ r.instances = s.rng.instances.map (fun e => (e.1, { e.2 with needReseed := true }))
    ∧ ∀ e ∈ r.annuli, e.2.state ≠ .healthy := by
  refine ⟨_, rfl, rfl, rfl, rfl, rfl, rfl, ?_⟩
  intro e he
  obtain ⟨d, -, rfl⟩ := List.mem_map.mp he
  dsimp only
  split
  · exact AnnulusState.noConfusion
  · assumption

end

/-! ### The statement -/

/-- Settles O45: each body is done at once, but for CAPTURE, which runs; the bytes of a GENERATE lie where it asked for them. The count in
the nonce of an instance includes the instance itself (log entry 104). -/
theorem randomCommands : Obligations.RandomCommands := by
  intro s ring c n i hn
  subst hn
  refine ⟨fun hraw hlo hhi => ⟨?_, ?_⟩, fun hb hsealed => ⟨?_, ?_, ?_⟩⟩
  · intro seed rest plen hb hp hplen hunits hint hlim hpr hres hasked hquota hup hseed hq
    subst hp
    have hi : Instantiates s c i := ⟨hraw, ⟨hlo, hhi⟩, hplen, hunits, hint, hlim, hpr, hres, hasked, hquota⟩
    exact ⟨_, congrArg Host.Outcome.next (beginCommand_okWith hb (rngInstantiateBody_ok hi hup hseed hq)), rfl, rfl, rfl, rfl, rfl, rfl, rfl⟩
  · intro x hx hown hnamed
    refine ⟨?_, ?_, ?_⟩
    · intro len alen dest hb hlen hpos hmax hal halen hunits hfirst hres hdest hpr hfresh hcount
      have hg : Generates s c i len alen dest x :=
        ⟨hnamed, hlen, hdest, hfirst, hal, ⟨hpos, hmax⟩, halen, hunits, hres, ⟨hlo, hhi⟩, hraw, hx, hown, hpr, hfresh, hcount⟩
      constructor
      · intro hdpa hsealed hlink faults
        exact congrArg Host.Outcome.next (beginCommand_okWith hb (rngGenerateBody_host faults hg hdpa hsealed hlink))
      · intro hdpa hrange hclean hslots
        have hbody := rngGenerateBody_dpa hg hdpa hrange hclean hslots
        have hbytes : (generatedBytes x c len alen).length = len := length_generate ..
        refine ⟨_, congrArg Host.Outcome.next (beginCommand_okWith hb hbody), Table.find_put_same .., ?_, ?_, ?_, rfl, rfl, rfl⟩
        · intro k hk
          rw [List.getD_eq_getElem _ _ (hbytes.symm ▸ hk)]
          exact cellAt_cellsPut_inside _ _ _ _ _
        · intro a ha
          exact cellAt_poke_outside _ _ _ _ (by omega)
        · exact fun j hj => Table.find_put_ne _ _ hj
    · intro seed rest alen hb hal halen hunits hres hup hseed hq
      subst hal
      have hbody := rngReseedBody_ok hraw hlo hhi hx hown hnamed halen hunits hres hup hseed hq
      exact ⟨congrArg Host.Outcome.next (beginCommand_okWith hb hbody), rfl⟩
    · intro hb hres
      exact congrArg Host.Outcome.next (beginCommand_okWith hb (rngUninstantiateBody_ok hraw hlo hhi hx hown hnamed hres))
  · intro haction hres hheat hwaits hraw
    have hbody := rngRawModeBody_enter (heatOpen := fun s => s.heat.slots ≠ []) hsealed haction hres (by simp [hheat]) hwaits hraw
    exact congrArg Host.Outcome.next (beginCommand_okWith hb hbody)
  · intro haction hres hraw hcap
    obtain ⟨r, hleave, hafter⟩ := leaveRaw_leaves s
    have hbody := rngRawModeBody_leave (heatOpen := fun s => s.heat.slots ≠ []) hsealed haction hres hraw hcap
    rw [hleave] at hbody
    exact ⟨r, congrArg Host.Outcome.next (beginCommand_okWith hb hbody), hafter⟩
  · intro a count haction ha halt hkind hcount hmin hmax hbytes hpage hres hraw hstate hcap
    subst ha hcount
    exact congrArg Host.Outcome.next (beginCommand_running hb
      (rngRawModeBody_capture hsealed haction halt hkind hmin hmax hbytes hpage hres hraw hstate hcap))

end Sys2Proof.Machine

/-! # The entropy source (O46) -/
namespace Sys2Proof.Machine

section

variable {s : State} {k : Nat} {x : Annulus}

/-! ### Frames -/

theorem annulusOf_setAnnulus_same (s : State) (k : Nat) (x : Annulus) : annulusOf (setAnnulus k x s) k = x := Table.getD_put_same ..

theorem annulusOf_setAnnulus_ne (s : State) (x : Annulus) {j : Nat} (hj : j ≠ k) : annulusOf (setAnnulus k x s) j = annulusOf s j :=
  Table.getD_put_ne _ _ _ hj

/-- What keeps the frame of line accesses keeps the source. -/
theorem rng_of_lineFrame {t : State} (h : lineFrame t = lineFrame s) : t.rng = s.rng := by
  have hrng := congrArg State.rng h
  exact hrng

theorem writeRecord_rng (r : Rec) (s : State) : (writeRecord r s).rng = s.rng := rng_of_lineFrame (lineFrame_writeRecord s r)

/-- A detected error of an annulus leaves the source as it was: the annulus is always tested first (17 R859). -/
theorem detect_rng_of_alwaysTested (act : ActFn) {d : Detect} (hres : d.res.kind = 11) (s : State) : (detect act d s).rng = s.rng := by
  suffices h : lineFrame (detect act d s) = lineFrame s from rng_of_lineFrame h
  have htested : alwaysTested d.res = true := by simp [alwaysTested, hres]
  rw [detect, if_neg (by omega)]
  split
  · rw [lineFrame_changeTest, lineFrame_writeRecord]
  · rw [htested]
    dsimp only
    split
    · contradiction
    · rw [lineFrame_queueTest, lineFrame_writeRecord]

/-- Noting the source changes, of the source, only what was noted last. -/
theorem noteSource_rng (s : State) : (noteSource s).rng = { s.rng with shown := sourceState s } := by
  unfold noteSource
  dsimp only
  split
  · rw [writeRecord_rng]; rfl
  · rfl

theorem annulusOf_noteSource (s : State) (j : Nat) : annulusOf (noteSource s) j = annulusOf s j := by
  rw [annulusOf, noteSource_rng]
  rfl

theorem firePoint_unarmed (hslots : s.err.slots = []) (point target : Nat) : firePoint point target s = (false, false, s) := by
  simp [firePoint, hslots]

/-- Without a capture there is none to end. -/
theorem endCapture_none (hcap : s.rng.capture = none) : endCapture s = s := by
  simp [endCapture, hcap]

/-! ### One annulus among 32 -/

/-- Steps of which one alone does anything, before or after it, do together what that one does. -/
theorem foldl_only {α : Type} {f : State → α → State} {a : α} : ∀ {l : List α}, l.Nodup → a ∈ l → (∀ b ∈ l, b ≠ a → f s b = s) →
    (∀ b ∈ l, b ≠ a → f (f s a) b = f s a) → l.foldl f s = f s a := by
  have hidle : ∀ {t : State} {l : List α}, (∀ b ∈ l, f t b = t) → l.foldl f t = t := by
    intro t l
    induction l with
    | nil => exact fun _ => rfl
    | cons b l ih =>
      intro h
      rw [List.foldl_cons, h b List.mem_cons_self]
      exact ih fun d hd => h d (List.mem_cons_of_mem b hd)
  intro l
  induction l with
  | nil => exact fun _ ha => absurd ha List.not_mem_nil
  | cons b l ih =>
    intro hnodup ha hbefore hafter
    obtain ⟨hb, hl⟩ := List.nodup_cons.mp hnodup
    by_cases hab : b = a
    · subst hab
      exact hidle fun d hd => hafter d (List.mem_cons_of_mem b hd) fun h => hb (h ▸ hd)
    · rw [List.foldl_cons, hbefore b List.mem_cons_self hab]
      exact ih hl (List.mem_of_ne_of_mem (Ne.symm hab) ha) (fun d hd => hbefore d (List.mem_cons_of_mem b hd))
        (fun d hd => hafter d (List.mem_cons_of_mem b hd))

/-- A fold that counts its steps takes each element with its number. -/
theorem foldl_counted {α : Type} (f : Nat → α → State → State) (l : List α) : ∀ (m : Nat) (s : State),
    (l.foldl (fun (p : Nat × State) e => (p.1 + 1, f p.1 e p.2)) (m, s)).2 = (l.zipIdx m).foldl (fun s p => f p.2 p.1 s) s := by
  induction l with
  | nil => exact fun _ _ => rfl
  | cons e l ih => exact fun m s => ih (m + 1) (f m e s)

/-- Every other annulus is RETIRED, so that no test and no strobe touches it. -/
def OthersRetired (k : Nat) (s : State) : Prop := ∀ j, j < 32 → j ≠ k → (annulusOf s j).state = .retired

theorem OthersRetired.of_annuli {t : State} (h : OthersRetired k s) (ht : ∀ j, j ≠ k → annulusOf t j = annulusOf s j) : OthersRetired k t :=
  fun j hj hne => (congrArg Annulus.state (ht j hne)).trans (h j hj hne)

/-! ### Strobes (R398, R401, R431) -/

theorem strobeBit_retired (h : (annulusOf s k).state = .retired) (b : Bool) : strobeBit k b s = s := by
  simp [strobeBit, h]

/-- A bit that passes its tests joins the raw block of a HEALTHY annulus outside raw test mode. -/
theorem strobeBit_healthy {b : Bool} {y : Annulus} (hx : (annulusOf s k).state = .healthy) (hy : (annulusOf s k).sample b = (y, false)) :
    strobeBit k b s = setAnnulus k (if s.rng.raw then y else { y with block := y.block ++ [b] }) s := by
  have hstate : y.state = .healthy := by
    obtain ⟨rfl, -⟩ := Prod.mk.inj hy
    exact hx
  rw [strobeBit, if_neg (by simp [hx]), hy]
  cases s.rng.raw <;> simp [hstate]

theorem captureBit_none (hcap : s.rng.capture = none) (k : Nat) (b : Bool) : captureBit k b s = s := by
  simp [captureBit, hcap]

theorem annulusStrobe_only {a b : Nat} {y : Annulus} (hk : k < 32) (hothers : OthersRetired k s) (hcap : s.rng.capture = none)
    (hx : (annulusOf s k).state = .healthy) (hy : (annulusOf s k).sample (a.testBit k != b.testBit k) = (y, false)) :
    annulusStrobe a b 0 s = setAnnulus k (if s.rng.raw then y else { y with block := y.block ++ [a.testBit k != b.testBit k] }) s := by
  have hidle {t : State} (hcap : t.rng.capture = none) (h : OthersRetired k t) (j : Nat) (hj : j ∈ List.range 32) (hne : j ≠ k) (v : Bool) :
      captureBit j v (strobeBit j v t) = t := by
    rw [strobeBit_retired (h j (List.mem_range.mp hj) hne), captureBit_none hcap]
  have hmine := strobeBit_healthy hx hy
  have hothers' := hothers.of_annuli (t := strobeBit k (a.testBit k != b.testBit k) s) fun j hj => hmine ▸ annulusOf_setAnnulus_ne s _ hj
  have hcap' : (strobeBit k (a.testBit k != b.testBit k) s).rng.capture = none := hmine ▸ hcap
  simp only [annulusStrobe, Nat.zero_testBit, Bool.false_eq_true, if_false]
  rw [foldl_only List.nodup_range (List.mem_range.mpr hk) (fun j hj hne => hidle hcap hothers j hj hne _), captureBit_none hcap',
    endCapture_none hcap', hmine]
  rw [captureBit_none hcap']
  exact fun j hj hne => hidle hcap' hothers' j hj hne _

/-! ### Raw blocks (R402) -/

/-- The seed that a full block of an annulus becomes. -/
abbrev blockSeed (a : Nat) (x : Annulus) : List Byte :=
  padTo 48 (Config.sha384 (leBytes 1 a ++ padTo 7 [] ++ leBytes 8 x.blocks ++ packBits 128 (x.block.take 1024)))

theorem rawBlockComplete_partial (h : (annulusOf s k).block.length < 1024 ∨ s.rng.raw = true) : rawBlockComplete k s = s :=
  if_pos (by simpa using h)

theorem rawBlockComplete_full (hx : x = annulusOf s k) (hfull : 1024 ≤ x.block.length) (hraw : s.rng.raw = false) :
    rawBlockComplete k s = setRng { s.rng with
      annuli := Table.put s.rng.annuli k { x with block := x.block.drop 1024, blocks := x.blocks + 1 }
      probation := s.rng.probation ++ [{ annulus := k, seed := blockSeed k x }] } s := by
  subst hx
  exact if_neg (by simp [hraw, hfull])

/-! ### Alive windows (R407, R408) -/

/-- The edges of an annulus that is alive. -/
abbrev EdgesAlive (e : Nat × Nat) : Prop := (600 ≤ e.1 ∧ e.1 ≤ 2300) ∧ (600 ≤ e.2 ∧ e.2 ≤ 2300)

theorem aliveClose_retired (h : (annulusOf s k).state = .retired) (e : Nat × Nat) : aliveClose k e s = s := by
  simp [aliveClose, h]

/-- An annulus that counts an alive window, its edges `d` apart, toward its lock block. -/
def Annulus.closeWindow (x : Annulus) (d : Int) : Annulus :=
  if 1024 ≤ x.lockWindows then x
  else if x.lockWindows = 0 then { x with lockWindows := 1, firstD := d, moved := false }
  else { x with lockWindows := x.lockWindows + 1, moved := x.moved || d ≠ x.firstD }

theorem closeWindow_state (x : Annulus) (d : Int) : (x.closeWindow d).state = x.state := by
  unfold Annulus.closeWindow
  split_ifs <;> rfl

theorem closeWindow_lockWindows (x : Annulus) (d : Int) :
    (x.closeWindow d).lockWindows = if x.lockWindows < 1024 then x.lockWindows + 1 else x.lockWindows := by
  unfold Annulus.closeWindow
  split_ifs <;> grind

/-- An alive window of a HEALTHY annulus marks its seeds and counts toward its lock block. -/
theorem aliveClose_alive {e : Nat × Nat} (hslots : s.err.slots = []) (hcap : s.rng.capture = none) (hx : (annulusOf s k).state = .healthy)
    (he : EdgesAlive e) : aliveClose k e s
      = markProbation k (fun p => { p with alive := true }) (setAnnulus k ((annulusOf s k).closeWindow ((e.1 : Int) - e.2)) s) := by
  obtain ⟨⟨ha, ha'⟩, hb, hb'⟩ := he
  rw [aliveClose, if_neg (by simp [hx]), firePoint_unarmed hslots]
  simp [hx, ha, ha', hb, hb', hcap, markProbation, setAnnulus, setRng, Annulus.closeWindow]

theorem aliveClose_dead {e : Nat × Nat} (hslots : s.err.slots = []) (hx : (annulusOf s k).state = .healthy) (he : ¬ EdgesAlive e) :
    aliveClose k e s = annulusFail k false false s := by
  rw [aliveClose, if_neg (by simp [hx]), firePoint_unarmed hslots]
  refine if_pos ?_
  rw [Bool.not_eq_true', ← Bool.not_eq_true]
  exact fun h => he (by simpa only [Bool.and_eq_true, decide_eq_true_eq] using h)

/-- What a failure makes of an annulus. -/
abbrev Annulus.failed (x : Annulus) : Annulus :=
  { x with state := .testing, startup := false, failures := x.failures + 1, block := [], passed := 0, lockWindows := 0, moved := false,
           run := 0, window := 0 }

theorem failCapture_none (hcap : s.rng.capture = none) (k : Nat) : failCapture k s = s := by
  simp [failCapture, hcap]

theorem annulusFail_rng (hcap : s.rng.capture = none) (hx : (annulusOf s k).state = .healthy) (injected forced : Bool) :
    ∃ shown, (annulusFail k injected forced s).rng = { s.rng with
      probation := s.rng.probation.filter (fun p => p.annulus ≠ k)
      annuli := Table.put s.rng.annuli k (annulusOf s k).failed
      shown := shown } := by
  rw [annulusFail, if_neg (by simp [hx])]
  dsimp only
  rw [failCapture_none, noteSource_rng, detect_rng_of_alwaysTested]
  · exact ⟨_, rfl⟩
  · rfl
  · exact hcap

/-- The row of an alive window in which one annulus is in service. -/
theorem exec_aliveWindowClose {edges : List (Nat × Nat)} {e : Nat × Nat} {t : State} (hk : k < 32) (hothers : OthersRetired k s)
    (he : edges[k]? = some e) (hclose : aliveClose k e s = t) (ht : ∀ j, j ≠ k → annulusOf t j = annulusOf s j)
    (hcap : t.rng.capture = none) : exec (.aliveWindowClose edges) s = .next t := by
  have hmem : (e, k) ∈ (edges.take 32).zipIdx := by
    rw [List.mem_zipIdx_iff_getElem?, List.getElem?_take_of_lt hk, he]
  have hnodup : (edges.take 32).zipIdx.Nodup := .of_map Prod.snd (by rw [List.zipIdx_map_snd]; exact List.nodup_range')
  have hother : ∀ p ∈ (edges.take 32).zipIdx, p ≠ (e, k) → p.2 < 32 ∧ p.2 ≠ k := by
    intro p hp hne
    rw [List.mem_zipIdx_iff_getElem?] at hp
    have hlt : p.2 < 32 := by
      have h := (List.getElem?_eq_some_iff.mp hp).1
      rw [List.length_take] at h
      omega
    refine ⟨hlt, fun hpk => hne (Prod.ext ?_ hpk)⟩
    rw [hpk, List.getElem?_take_of_lt hk, he] at hp
    exact (Option.some.inj hp).symm
  have hidle {u : State} (h : OthersRetired k u) (p : (Nat × Nat) × Nat) (hp : p ∈ (edges.take 32).zipIdx) (hne : p ≠ (e, k)) :
      aliveClose p.2 p.1 u = u := aliveClose_retired (h p.2 (hother p hp hne).1 (hother p hp hne).2) p.1
  subst hclose
  change Host.Outcome.next (endCapture _) = _
  rw [foldl_counted, foldl_only hnodup hmem (hidle hothers) (hidle (hothers.of_annuli ht)), endCapture_none hcap]

/-! ### Lock blocks (R407, R411) -/

theorem lockClose_open (h : (annulusOf s k).lockWindows < 1024) : lockClose k s = s := if_pos h

/-- An annulus whose lock block closed clean: one in its start-up test becomes HEALTHY. -/
def Annulus.closeBlock (x : Annulus) : Annulus :=
  let x := { x with lockWindows := 0, moved := false }
  if x.state = .testing && x.startup then { x with state := .healthy, startup := false, block := [] } else x

theorem closeBlock_lockWindows (x : Annulus) : x.closeBlock.lockWindows = 0 := by
  unfold Annulus.closeBlock
  dsimp only
  split <;> rfl

theorem closeBlock_state (x : Annulus) :
    x.closeBlock.state = if x.state = .testing ∧ x.startup = true then .healthy else x.state := by
  simp only [Annulus.closeBlock, Bool.and_eq_true, decide_eq_true_eq]
  split <;> rfl

/-- The source, not yet noted, once the lock block of an annulus closed clean: its seeds are marked. -/
def lockClosed (k : Nat) (s : State) : State :=
  markProbation k (fun p => { p with lock := true }) (setAnnulus k (annulusOf s k).closeBlock s)

theorem annulusOf_lockClosed_same (k : Nat) (s : State) : annulusOf (lockClosed k s) k = (annulusOf s k).closeBlock :=
  annulusOf_setAnnulus_same ..

theorem annulusOf_lockClosed_ne (s : State) {j : Nat} (hj : j ≠ k) : annulusOf (lockClosed k s) j = annulusOf s j :=
  annulusOf_setAnnulus_ne s _ hj

theorem lockClose_moved (hfull : 1024 ≤ (annulusOf s k).lockWindows) (hmoved : (annulusOf s k).moved = true) :
    lockClose k s = noteSource (lockClosed k s) := by
  rw [lockClose, if_neg (Nat.not_lt.mpr hfull), if_neg (by simp [hmoved])]
  rfl

theorem endStartup_started (h : s.rng.started = true) : endStartup s = s := by
  simp [endStartup, h]

/-- The row of a lock block that closes clean, with no other full. -/
theorem exec_lockBlockClose (hk : k < 32) (hothers : ∀ j, j ≠ k → (annulusOf s j).lockWindows < 1024)
    (hfull : 1024 ≤ (annulusOf s k).lockWindows) (hmoved : (annulusOf s k).moved = true) (hstarted : s.rng.started = true) :
    exec .lockBlockClose s = .next (noteSource (lockClosed k s)) := by
  have hmine := lockClose_moved hfull hmoved
  have hstays (j : Nat) (hne : j ≠ k) : annulusOf (lockClose k s) j = annulusOf s j := by
    rw [hmine, annulusOf_noteSource, annulusOf_lockClosed_ne s hne]
  change Host.Outcome.next (endStartup _) = _
  rw [foldl_only List.nodup_range (List.mem_range.mpr hk) (fun j _ hne => lockClose_open (hothers j hne))
    (fun j _ hne => lockClose_open ((hstays j hne).symm ▸ hothers j hne)), hmine, endStartup_started]
  rw [noteSource_rng]
  exact hstarted

/-! ### Seeds leave probation (R403, R406, R412) -/

variable {p : Probation}

/-- The source with a seed taken out of probation, the known-answer tests done. -/
abbrev seedTaken (p : Probation) (s : State) : Rng := { s.rng with katDone := true, probation := s.rng.probation.erase p }

theorem seedLeaves_enters {pass : Bool} (hkat : s.rng.katFailed = false) (hraw : s.rng.raw = false) (hslots : s.err.slots = [])
    (hstarted : s.rng.started = true) (hp : s.rng.probation.find? (fun p => p.alive && p.lock) = some p)
    (hpass : s.rng.katDone = true ∨ pass = true) :
    seedLeaves pass s = if 256 ≤ s.rng.queue.length then setRng (seedTaken p s) s
      else bump (setRng { seedTaken p s with queue := s.rng.queue ++ [p.seed] } s) .rngSeedsMade := by
  have hgood : ¬ (!s.rng.katDone && (!pass || false)) = true := by obtain h | h := hpass <;> simp [h]
  rw [seedLeaves, if_neg (by simp [hkat, hraw]), hp]
  dsimp only
  rw [firePoint_unarmed hslots, ite_self]
  dsimp only
  rw [if_neg hgood]
  refine if_congr Iff.rfl rfl (endStartup_started ?_)
  exact hstarted

/-- A known-answer test that fails is for good, and gives no seed. -/
theorem seedLeaves_fails (hkat : s.rng.katFailed = false) (hraw : s.rng.raw = false) (hslots : s.err.slots = [])
    (hp : s.rng.probation.find? (fun p => p.alive && p.lock) = some p) (hdone : s.rng.katDone = false) :
    (seedLeaves false s).rng.katFailed = true ∧ (seedLeaves false s).rng.queue = s.rng.queue := by
  rw [seedLeaves, if_neg (by simp [hkat, hraw]), hp]
  dsimp only
  rw [firePoint_unarmed hslots, ite_self]
  dsimp only
  rw [if_pos (by simp [hdone]), noteSource_rng, writeRecord_rng]
  exact ⟨rfl, rfl⟩

theorem sourceState_katFailed (h : s.rng.katFailed = true) : sourceState s = .failed := if_pos h

/-! ### Seeds given (R423, R424) -/

variable {i : Nat} {y : Instance} {seed : List Byte} {rest : List (List Byte)} {ws : List Nat}

theorem seedToWaiting_internal (hraw : s.rng.raw = false) (hy : Table.find s.rng.instances i = some y) (hq : s.rng.queue = seed :: rest)
    (hwaits : s.rng.internalWaits = i :: ws) :
    seedToWaiting s = setRng { s.rng with
      queue := rest, internalWaits := ws, instances := Table.put s.rng.instances i (y.reseed seed []) } s := by
  rw [seedToWaiting, if_neg (by simp [hraw]), hwaits]
  dsimp only
  rw [hy, takeSeed_oldest hq]
  rfl

theorem seedToWaiting_client (hraw : s.rng.raw = false) (hy : Table.find s.rng.instances i = some y) (hq : s.rng.queue = seed :: rest)
    (hnone : s.rng.internalWaits = []) (hwaits : s.rng.waitList = i :: ws) :
    seedToWaiting s = if clientSeed s then setRng { s.rng with
      queue := rest, waitList := (i :: ws).filter (· ≠ i), instances := Table.put s.rng.instances i (y.reseed seed []) } s else s := by
  rw [seedToWaiting, if_neg (by simp [hraw]), hnone]
  dsimp only
  rw [hwaits]
  dsimp only
  rw [hy]
  dsimp only
  rw [clientReseed_oldest y [] hq, hwaits]

end

/-! ### The statement -/

/-- Settles O46: each row does to the one annulus in service, to the first seed or to the first waiting instance what its rule says. -/
theorem randomSource : Obligations.RandomSource := by
  intro s
  refine ⟨?_, ?_, ?_, ?_, ?_, ?_⟩
  · intro a b k x y hk hx hothers hcap hstate hy
    subst hx
    exact congrArg Host.Outcome.next (annulusStrobe_only hk hothers hcap hstate hy)
  · intro a x hx
    constructor
    · intro h
      exact congrArg Host.Outcome.next (rawBlockComplete_partial (hx ▸ h))
    · intro hfull hraw
      exact congrArg Host.Outcome.next (rawBlockComplete_full hx hfull hraw)
  · intro edges k ea eb hk hothers he hcap hslots hstate
    constructor
    · intro ha hb
      have hclose := aliveClose_alive hslots hcap hstate (e := (ea, eb)) ⟨ha, hb⟩
      have hmine : annulusOf (setAnnulus k ((annulusOf s k).closeWindow ((ea : Int) - eb)) s) k = _ := annulusOf_setAnnulus_same ..
      exact ⟨_, exec_aliveWindowClose hk hothers he hclose (fun j hj => annulusOf_setAnnulus_ne s _ hj) hcap, rfl, rfl, rfl,
        (congrArg Annulus.state hmine).trans ((closeWindow_state ..).trans hstate),
        (congrArg Annulus.lockWindows hmine).trans (closeWindow_lockWindows ..)⟩
    · intro hdead
      obtain ⟨shown, hrng⟩ := annulusFail_rng hcap hstate false false
      have hann (j : Nat) : annulusOf (annulusFail k false false s) j = annulusOf (setAnnulus k (annulusOf s k).failed s) j := by
        rw [annulusOf, hrng]
        rfl
      have hmine : annulusOf (annulusFail k false false s) k = (annulusOf s k).failed := (hann k).trans (annulusOf_setAnnulus_same ..)
      refine ⟨_, exec_aliveWindowClose hk hothers he (aliveClose_dead hslots hstate hdead)
        (fun j hj => (hann j).trans (annulusOf_setAnnulus_ne s _ hj)) (hrng ▸ hcap), ?_, ?_, ?_, ?_, ?_, annulusFail_mem ..⟩
      · rw [hmine]; exact AnnulusState.noConfusion
      · rw [hmine]
      · rw [hmine]
      · intro p; rw [hrng]; simp
      · rw [hrng]
  · intro k x hk hx hothers hfull hmoved hstarted
    subst hx
    refine ⟨_, exec_lockBlockClose hk hothers hfull hmoved hstarted, ?_, ?_, ?_, ?_, ?_, noteSource_mem ..⟩
    · rw [annulusOf_noteSource, annulusOf_lockClosed_same, closeBlock_lockWindows]
    · rw [annulusOf_noteSource, annulusOf_lockClosed_same, closeBlock_state]
    · rw [noteSource_rng]; rfl
    · intro j hj
      rw [annulusOf_noteSource, annulusOf_lockClosed_ne s hj]
    · rw [noteSource_rng]; rfl
  · intro pass p hkat hraw hslots hstarted hp
    constructor
    · intro hpass
      exact congrArg Host.Outcome.next (seedLeaves_enters hkat hraw hslots hstarted hp hpass)
    · rintro hdone rfl
      obtain ⟨hfailed, hqueue⟩ := seedLeaves_fails hkat hraw hslots hp hdone
      exact ⟨_, rfl, sourceState_katFailed hfailed, hqueue⟩
  · intro i y seed rest ws hraw hy hq
    refine ⟨fun hwaits => ?_, fun hnone hwaits hseed => ?_, fun hnone hwaits hseed => ?_⟩
    · exact congrArg Host.Outcome.next (seedToWaiting_internal hraw hy hq hwaits)
    · exact congrArg Host.Outcome.next ((seedToWaiting_client hraw hy hq hnone hwaits).trans (if_pos hseed))
    · exact congrArg Host.Outcome.next ((seedToWaiting_client hraw hy hq hnone hwaits).trans (if_neg (by simp [hseed])))

end Sys2Proof.Machine

/-! # Commands for the lattice engines (O43) -/
namespace Sys2Proof.Machine

section

variable {s t u : State} {ring n e k : Nat} {c : Cmd} {x : LatEngine} {o : LatOp}

/-! ### One engine among eight -/

@[simp] theorem latOf_setLat_same (e : Nat) (x : LatEngine) (s : State) : latOf (setLat e x s) e = x := Table.getD_put_same ..

theorem latOf_setLat_ne (x : LatEngine) (s : State) (h : k ≠ e) : latOf (setLat e x s) k = latOf s k := Table.getD_put_ne _ _ _ h

/-- `t` agrees with `s` on all that the other engines ask before they go on to their queues (R444). -/
structure OthersKept (e : Nat) (s t : State) : Prop where
  lat : ∀ k, k ≠ e → latOf t k = latOf s k
  rst : t.rst = s.rst
  sct : t.sct = s.sct
  err : t.err = s.err
  held : t.rings.held = s.rings.held

theorem OthersKept.refl (e : Nat) (s : State) : OthersKept e s s := ⟨fun _ _ => rfl, rfl, rfl, rfl, rfl⟩

theorem OthersKept.setLat (h : OthersKept e s t) (x : LatEngine) : OthersKept e s (setLat e x t) :=
  ⟨fun k hk => (latOf_setLat_ne x t hk).trans (h.lat k hk), h.rst, h.sct, h.err, h.held⟩

theorem OthersKept.setPhase (h : OthersKept e s t) (n : Nat) (p : Phase) : OthersKept e s (setPhase n p t) :=
  ⟨h.lat, h.rst, h.sct, h.err, h.held⟩

theorem OthersKept.finish (h : OthersKept e s t) (n st r0 r1 : Nat) : OthersKept e s (finish n st r0 r1 t) :=
  ⟨h.lat, h.rst, h.sct, h.err, h.held⟩

theorem OthersKept.bump (h : OthersKept e s t) (r : Reg) (i : Nat) : OthersKept e s (bump t r i) := ⟨h.lat, h.rst, h.sct, h.err, h.held⟩

theorem gateOpen_congr (h : t.rst = s.rst) (kind i : Nat) : gateOpen t kind i = gateOpen s kind i := by
  rw [gateOpen, gateOpen, powerOf, powerOf, inTransition, inTransition, h]

theorem departing_congr (h : t.sct = s.sct) (kind i : Nat) : departing t kind i = departing s kind i := by
  rw [departing, departing, losing, losing, h]

/-- What an engine asks before it takes up queued work is its own state, its power, its owner, and the tests that run. -/
theorem latFree_congr (hlat : latOf t k = latOf s k) (hrst : t.rst = s.rst) (hsct : t.sct = s.sct) (herr : t.err = s.err)
    (hheld : t.rings.held = s.rings.held) : latFree t k = latFree s k := by
  rw [latFree, latFree, hlat, gateOpen_congr hrst, departing_congr hsct, hrst, hsct, herr, hheld]

/-- An engine that may not start queued work leaves its queue. -/
theorem latGo_of_not_free (h : latFree s e = false) : latGo e s = s := by
  simp [latGo, latNext, h]

/-- An engine that is about to take no work stays so when another one changes. -/
theorem latGo_other (hsettled : Settled s) (h : OthersKept e s t) (hk : k < 8) (hne : k ≠ e) : latGo k t = t := by
  obtain hqueue | hbusy := hsettled k hk
  · exact latGo_of_queue_nil ((congrArg LatEngine.queue (h.lat k hne)).trans hqueue)
  · exact latGo_of_not_free ((latFree_congr (h.lat k hne) h.rst h.sct h.err h.held).trans hbusy)

/-- After a command for one engine, that engine alone may go on. -/
theorem latGoAll_one (hsettled : Settled s) (he : e < 8) (h : OthersKept e s t) (hgo : OthersKept e s (latGo e t)) :
    latGoAll t = latGo e t :=
  foldl_only List.nodup_range (List.mem_range.mpr he) (fun _ hk hne => latGo_other hsettled h (List.mem_range.mp hk) hne)
    (fun _ hk hne => latGo_other hsettled hgo (List.mem_range.mp hk) hne)

/-- After a command that leaves its engine without queued work, none goes on. -/
theorem latGoAll_idle (hsettled : Settled s) (he : e < 8) (h : OthersKept e s t) (hq : (latOf t e).queue = []) : latGoAll t = t := by
  have hgo := latGo_of_queue_nil hq
  rw [latGoAll_one hsettled he h (hgo.symm ▸ h), hgo]

theorem latFree_of_running (h : (latOf s e).running = some o) : latFree s e = false := by simp [latFree, h]

theorem latNext_of_not_free (h : latFree s e = false) (fuel : Nat) : latNext e fuel s = s := by cases fuel <;> simp [latNext, h]

theorem latNext_of_queue_nil (h : (latOf s e).queue = []) (fuel : Nat) : latNext e fuel s = s := by
  cases fuel with
  | zero => rfl
  | succ fuel => simp only [latNext, h]; split <;> rfl


/-! ### The item that a free engine takes up at once (R444, R448, R478, R480) -/

theorem Table.put_put {α : Type} (t : Table α) (k : Nat) (a b : α) : Table.put (Table.put t k a) k b = Table.put t k b := by
  induction t with
  | nil => simp [Table.put]
  | cons c t ih =>
    obtain ⟨j, d⟩ := c
    simp only [Table.put]
    split
    · simp [Table.put]
    split
    · simp [Table.put]
    · simp [Table.put, *]

@[simp] theorem setLat_setLat (e : Nat) (x y : LatEngine) (s : State) : setLat e y (setLat e x s) = setLat e y s := by
  simp only [setLat, Table.put_put]

theorem latFree_enqueued (i : LatItem) : latFree (latEnqueue e i s) e = latFree s e := by
  have hlat : latOf (latEnqueue e i s) e = { latOf s e with queue := (latOf s e).queue ++ [i] } := latOf_setLat_same ..
  rw [latFree, hlat]
  rfl

theorem queue_enqueued (hq : (latOf s e).queue = []) (i : LatItem) : (latOf (latEnqueue e i s) e).queue = [i] := by
  rw [latEnqueue, latOf_setLat_same, hq]
  rfl

/-- The only item leaves the engine as it was before the item came. -/
theorem setLat_dequeued (hq : (latOf s e).queue = []) (i : LatItem) :
    setLat e { latOf (latEnqueue e i s) e with queue := [] } (latEnqueue e i s) = setLat e (latOf s e) s := by
  rw [latEnqueue, latOf_setLat_same, setLat_setLat, ← hq]

/-- What an engine does with an item that it takes off its queue, and then with the queue's rest. -/
def takeItem (e : Nat) (i : LatItem) (s : State) : State :=
  match i with
  | .exec o => startOp e { o with cycles := 200 } s
  | .resume serial ring tag t0 t1 => latNext e 64 (resumeItem e serial ring tag t0 t1 s)
  | .moduli serial first logN entries => latNext e 64 (moduliItem e serial first logN entries s)

theorem latGo_enqueued (hfree : latFree s e = true) (hq : (latOf s e).queue = []) (i : LatItem) :
    latGo e (latEnqueue e i s) = takeItem e i (setLat e (latOf s e) s) := by
  rw [latGo, latNext, if_neg (by simp [latFree_enqueued, hfree])]
  dsimp only
  rw [queue_enqueued hq]
  dsimp only
  rw [setLat_dequeued hq]
  cases i <;> rfl

theorem latGo_exec (hfree : latFree s e = true) (hq : (latOf s e).queue = []) (o : LatOp) :
    latGo e (latEnqueue e (.exec o) s) = setLat e { latOf s e with running := some { o with cycles := 200 }, held := false } s := by
  rw [latGo_enqueued hfree hq, takeItem, startOp, latOf_setLat_same, setLat_setLat]

/-- The modulus table with entries loaded from number `first` on (R448). -/
def loadModuli (first logN : Nat) (entries : List (Nat × Nat)) (t : Table Modulus) : Table Modulus :=
  (entries.mapIdx (fun i m => (i + first, (⟨m.1, m.2, logN⟩ : Modulus)))).foldl (fun t p => Table.put t p.1 p.2) t

/-- With nothing parked, no entry is in use. -/
theorem moduliItem_loads (hparked : parked (latOf s e) = []) (serial first logN : Nat) (entries : List (Nat × Nat)) :
    moduliItem e serial first logN entries s
      = finish serial stOk 0 0 (setLat e { latOf s e with moduli := loadModuli first logN entries (latOf s e).moduli } s) := by
  unfold moduliItem
  exact if_neg (by simp [hparked])

theorem latGo_moduli (hfree : latFree s e = true) (hq : (latOf s e).queue = []) (hparked : parked (latOf s e) = [])
    (serial first logN : Nat) (entries : List (Nat × Nat)) :
    latGo e (latEnqueue e (.moduli serial first logN entries) s)
      = finish serial stOk 0 0 (setLat e { latOf s e with moduli := loadModuli first logN entries (latOf s e).moduli } s) := by
  rw [latGo_enqueued hfree hq, takeItem, moduliItem_loads (by rwa [latOf_setLat_same]), latOf_setLat_same, setLat_setLat]
  refine latNext_of_queue_nil ?_ _
  exact (congrArg LatEngine.queue (latOf_setLat_same ..)).trans hq

/-- A slot whose check and entries match runs its operation again. -/
theorem resumeItem_restarts {serial r tag t0 : Nat} (hstored : t0.testBit 0 = false)
    (hslot : Table.find (latOf s e).slots (bitsOf t0 4 4) = some (o, entriesHash (latOf s e) o)) :
    resumeItem e serial r tag t0 o.check s = setLat e { latOf s e with
      slots := Table.drop (latOf s e).slots (bitsOf t0 4 4), held := false
      running := some { o with serial := serial, ring := r, tag := tag, cycles := 840, stalls := 0 } } s := by
  unfold resumeItem
  dsimp only
  rw [if_neg (by simp [hstored]), hslot]
  dsimp only
  rw [if_neg (by simp), startOp, latOf_setLat_same, setLat_setLat]

theorem latGo_resume {serial r tag t0 : Nat} (hfree : latFree s e = true) (hq : (latOf s e).queue = []) (hstored : t0.testBit 0 = false)
    (hslot : Table.find (latOf s e).slots (bitsOf t0 4 4) = some (o, entriesHash (latOf s e) o)) :
    latGo e (latEnqueue e (.resume serial r tag t0 o.check) s) = setLat e { latOf s e with
      slots := Table.drop (latOf s e).slots (bitsOf t0 4 4), held := false
      running := some { o with serial := serial, ring := r, tag := tag, cycles := 840, stalls := 0 } } s := by
  rw [latGo_enqueued hfree hq, takeItem, resumeItem_restarts hstored (by rwa [latOf_setLat_same]), latOf_setLat_same, setLat_setLat]
  exact latNext_of_not_free (latFree_of_running (congrArg LatEngine.running (latOf_setLat_same ..))) _

/-! ### A command that begins -/

/-- A row whose command runs and has work for one engine alone. -/
theorem latGoAll_runs {op : Nat} {body : Cmd → State → Body} {v : State} (hsettled : Settled s) (he : e < 8) (hb : Begins s ring op c)
    (hbody : body c s = .ok (.running u)) (hkept : OthersKept e s u) (hgo : latGo e (setPhase c.serial .running u) = v)
    (hv : OthersKept e s v) : latGoAll (beginCommand op ring body s) = v := by
  rw [beginCommand_running hb hbody, latGoAll_one hsettled he (hkept.setPhase ..) (hgo ▸ hv), hgo]

theorem latOwned_ok (h : Takes s n e) : latOwned s n e = .ok () := by
  obtain ⟨hown, -, -, -⟩ := h
  simp [latOwned, hown]

theorem latReady_ok (h : Takes s n e) : latReady s e = .ok () := by
  obtain ⟨-, havail, hgate, hroom⟩ := h
  rw [latReady, need_bind_of (by simp [hgate]), need_bind_of (by simp [havail]), decide_eq_true hroom]
  rfl

theorem latExecBody_ok (ho : o = askedOp c) (he : o.engine = e) (hfields : o.fieldsOk = true)
    (hregions : o.regions.all (regionOk s (c.ring / 64) e) = true) (hoverlap : noOverlap o.op e o.regions = true)
    (hsave : saveOk s (c.ring / 64) o = true)
    (hnoise : o.op = 0x0E → isClient o.aux = true ∧ s.rng.raw = false ∧ ∃ i, Table.find s.rng.instances o.aux = some i ∧ i.sector = c.ring / 64)
    (hentries : entriesOk (latOf s e) o.logN o.entries = true) (hparked : meetsParked e (latOf s e) (o.storeRegions e) = false)
    (htakes : Takes s (c.ring / 64) e) : latExecBody c s = .ok (.running (latEnqueue e (.exec o) s)) := by
  subst ho he
  have hclient : (decide ((askedOp c).op ≠ 0x0E) || ((Table.find s.rng.instances (askedOp c).aux).map
      (fun i => decide (i.sector = c.ring / 64) && isClient (askedOp c).aux)).getD false) = true := by
    by_cases hop : (askedOp c).op = 0x0E
    · obtain ⟨hclient, -, i, hi, hsector⟩ := hnoise hop
      simp [hi, hsector, hclient]
    · simp [hop]
  have hraw : (decide ((askedOp c).op = 0x0E) && s.rng.raw) = false := by
    by_cases hop : (askedOp c).op = 0x0E
    · simp [(hnoise hop).2.1]
    · simp [hop]
  unfold latExecBody
  dsimp only
  rw [need_bind_of (by simp [hfields, hregions, hoverlap, hsave]), latOwned_ok htakes]
  change (need _ _ >>= _) = _
  rw [need_bind_of hclient, need_bind_of (by simp [hentries, hparked, hraw]), latReady_ok htakes]
  rfl

/-! ### LAT_EXEC (R444, R483) -/

theorem exec_latExec (hsettled : Settled s) (he : e < 8) (hb : Begins s ring 0x0601 c)
    (hbody : latExecBody c s = .ok (.running (latEnqueue e (.exec o) s))) :
    ∃ t, exec (.latExec ring) s = .next t ∧ t = { setPhase c.serial .running s with lat := t.lat }
      ∧ (∀ k, k ≠ e → latOf t k = latOf s k)
      ∧ latOf t e = (if latFree s e then { latOf s e with running := some { o with cycles := 200 }, held := false }
          else { latOf s e with queue := (latOf s e).queue ++ [.exec o] }) := by
  have hbegun := (OthersKept.refl e s).setPhase c.serial .running
  have hruns {v : State} := latGoAll_runs (v := v) hsettled he hb hbody ((OthersKept.refl e s).setLat _)
  cases hfree : latFree s e with
  | false =>
    have hgo := latGo_of_not_free (s := latEnqueue e (.exec o) (setPhase c.serial .running s)) ((latFree_enqueued _).trans hfree)
    exact ⟨_, congrArg Host.Outcome.next (hruns hgo (hbegun.setLat _)), rfl, (hbegun.setLat _).lat, latOf_setLat_same ..⟩
  | true =>
    have hq := (hsettled e he).resolve_right (by simp [hfree])
    have hgo := latGo_exec (s := setPhase c.serial .running s) hfree hq o
    exact ⟨_, congrArg Host.Outcome.next (hruns hgo (hbegun.setLat _)), rfl, (hbegun.setLat _).lat, latOf_setLat_same ..⟩

/-! ### LAT_MODULI (R446, R448) -/

theorem loadModuli_cons (first logN : Nat) (m : Nat × Nat) (entries : List (Nat × Nat)) (t : Table Modulus) :
    loadModuli first logN (m :: entries) t = loadModuli (first + 1) logN entries (Table.put t first ⟨m.1, m.2, logN⟩) := by
  simp only [loadModuli, List.mapIdx_cons, List.foldl_cons, Nat.zero_add, Nat.add_right_comm, Nat.add_assoc]

/-- Entry `k` after a load: the one named for it, or the one that it was. -/
theorem find_loadModuli (logN k : Nat) (entries : List (Nat × Nat)) : ∀ (first : Nat) (t : Table Modulus),
    Table.find (loadModuli first logN entries t) k = if first ≤ k ∧ k < first + entries.length
      then some ⟨(entries.getD (k - first) (0, 0)).1, (entries.getD (k - first) (0, 0)).2, logN⟩ else Table.find t k := by
  induction entries with
  | nil => intro first t; rw [if_neg (by simp)]; rfl
  | cons m entries ih =>
    intro first t
    rw [loadModuli_cons, ih, Table.find_put, List.length_cons]
    obtain hk | rfl | hk := Nat.lt_trichotomy k first
    · rw [if_neg (by omega), if_neg (by omega), if_neg (by omega)]
    · simp
    · have hsucc : k - first = k - (first + 1) + 1 := by omega
      rw [if_neg (show k ≠ first by omega), hsucc, List.getD_cons_succ]
      exact if_congr (by omega) rfl rfl

theorem latModuliBody_ok {first count logN : Nat} (he : c.param 24 1 = e) (hfirst : c.param 25 1 = first) (hcount : c.param 26 1 = count)
    (hlogN : c.param 27 1 = logN) (h8 : e < 8) (h63 : first ≤ 63) (hpos : 1 ≤ count) (h28 : count ≤ 28) (hlo : 12 ≤ logN) (hhi : logN ≤ 17)
    (hlast : first + count ≤ 64) (hres : c.reserved [(28, 64)] = true) (hunits : 64 + 16 * count ≤ 64 * c.units)
    (hok : ∀ i, i < count → modulusOk logN (c.param (64 + 16 * i) 8) (c.param (72 + 16 * i) 8) = true) (htakes : Takes s (c.ring / 64) e) :
    latModuliBody c s = .ok (.running (latEnqueue e (.moduli c.serial first logN
      ((List.range count).map (fun i => (c.param (64 + 16 * i) 8, c.param (72 + 16 * i) 8)))) s)) := by
  subst he hfirst hcount hlogN
  unfold latModuliBody
  dsimp only
  rw [need_bind_of (by simp; omega), need_bind_of (by simp [*]), List.find?_eq_none.mpr ?_]
  · dsimp only
    rw [latOwned_ok htakes]
    change (latReady _ _ >>= _) = _
    rw [latReady_ok htakes]
    rfl
  · intro i hi
    have hi := List.mem_range.mp hi
    simp [hi, hok i hi]

theorem exec_latModuli {first count logN : Nat} {f : Nat → Nat × Nat} (hsettled : Settled s) (he : e < 8) (hb : Begins s ring 0x0610 c)
    (hbody : latModuliBody c s = .ok (.running (latEnqueue e (.moduli c.serial first logN ((List.range count).map f)) s)))
    (hfree : latFree s e = true) (hparked : parked (latOf s e) = []) :
    ∃ u, exec (.latModuli ring) s = .next (okWith c 0 0 u) ∧ u = { setPhase c.serial .running s with lat := u.lat }
      ∧ (∀ k, k ≠ e → latOf u k = latOf s k) ∧ latOf u e = { latOf s e with moduli := (latOf u e).moduli }
      ∧ ∀ k, Table.find (latOf u e).moduli k = (if first ≤ k ∧ k < first + count
          then some ⟨(f (k - first)).1, (f (k - first)).2, logN⟩ else Table.find (latOf s e).moduli k) := by
  have hbegun := (OthersKept.refl e s).setPhase c.serial .running
  have hq := (hsettled e he).resolve_right (by simp [hfree])
  have hgo := latGo_moduli (s := setPhase c.serial .running s) hfree hq hparked c.serial first logN ((List.range count).map f)
  refine ⟨_, congrArg Host.Outcome.next (latGoAll_runs hsettled he hb hbody ((OthersKept.refl e s).setLat _) hgo
    ((hbegun.setLat _).finish ..)), rfl, (hbegun.setLat _).lat, ?_, fun k => ?_⟩
  · rw [latOf_setLat_same]
    rfl
  · rw [latOf_setLat_same]
    refine (find_loadModuli ..).trans ?_
    rw [List.length_map, List.length_range]
    refine ite_congr rfl (fun hk => ?_) fun _ => rfl
    have hin : k - first < count := by omega
    simp [hin]

/-! ### LAT_SUSPEND (R478) -/

theorem latSuspendBody_waits (he : c.param 24 1 = e) (hplain : c.param 25 1 = 0) (hres : c.reserved [(26, 32), (36, 64)] = true) (h8 : e < 8)
    (hown : Table.find s.sct.engines e = some (c.ring / 64)) (htag : o.tag = c.param 32 4) (hroom : (latOf s e).slots.length < 16)
    (hnone : (latOf s e).suspend = none) (hrun : (latOf s e).running = some o) (hheld : (latOf s e).held = false) :
    latSuspendBody c s = .ok (.running (setLat e { latOf s e with suspend := some (c.serial, false) } s)) := by
  subst he
  unfold latSuspendBody
  dsimp only
  rw [need_bind_of (by simp [h8, hplain, hres]), need_bind_of (by simpa using hown), hrun]
  simp only [Option.toList_some, List.cons_append, List.find?_cons, htag, decide_true]
  rw [hplain]
  rw [need_bind_of (by simp), need_bind_of (by simp [hroom]), if_neg (by simp [hheld]), need_bind_of (by simp [hnone])]
  rfl

/-- A draw changes the randomness block and its registers alone. -/
theorem internalBytes_eq {i m : Nat} {bs : Option (List Byte)} (h : internalBytes i m s = (bs, u)) :
    ∃ rng regs, u = { s with rng := rng, regs := regs } := by
  obtain ⟨rng, regs, hdraw⟩ := internalDraw_eq i 1 m s
  rw [internalBytes] at h
  rw [h] at hdraw
  exact ⟨rng, regs, hdraw⟩

theorem latOf_internalBytes {i m : Nat} {bs : Option (List Byte)} (h : internalBytes i m s = (bs, u)) (k : Nat) : latOf u k = latOf s k := by
  obtain ⟨rng, regs, rfl⟩ := internalBytes_eq h
  rfl

theorem othersKept_internalBytes {i m : Nat} {bs : Option (List Byte)} (h : internalBytes i m s = (bs, u)) (e : Nat) : OthersKept e s u := by
  obtain ⟨rng, regs, rfl⟩ := internalBytes_eq h
  exact ⟨fun _ _ => rfl, rfl, rfl, rfl, rfl⟩

/-- An operation saved to the lowest free slot, with the check drawn for it. -/
theorem suspendOp_saves {bs : List Byte} (hbs : internalBytes 3 8 s = (some bs, u)) (hk : Table.firstFree (latOf u e).slots 0 16 = some k) :
    suspendOp e o false s = some (tokenOf e k false o, leNat bs, setLat e
      { latOf u e with slots := Table.put (latOf u e).slots k ({ o with check := leNat bs }, entriesHash (latOf u e) o) }
      (finish o.serial stPreempted (tokenOf e k false o) (leNat bs) u)) := by
  unfold suspendOp
  rw [hbs]
  dsimp only
  rw [if_neg (by simp), hk]
  rfl

/-- An engine once its yielded operation stands in a slot with its check. -/
abbrev savedTo (x : LatEngine) (k : Nat) (o : LatOp) (check : Nat) : LatEngine :=
  { x with yielded := none, slots := Table.put x.slots k ({ o with check := check }, entriesHash x o) }

theorem latSuspendBody_saves {bs : List Byte} (he : c.param 24 1 = e) (hplain : c.param 25 1 = 0)
    (hres : c.reserved [(26, 32), (36, 64)] = true) (h8 : e < 8) (hown : Table.find s.sct.engines e = some (c.ring / 64))
    (htag : o.tag = c.param 32 4) (hroom : (latOf s e).slots.length < 16) (hidle : (latOf s e).running = none)
    (hyield : (latOf s e).yielded = some o) (hbs : internalBytes 3 8 s = (some bs, u)) (hk : Table.firstFree (latOf s e).slots 0 16 = some k) :
    latSuspendBody c s = .ok (.done stOk (tokenOf e k false o) (leNat bs) (bump (setLat e (savedTo (latOf s e) k o (leNat bs))
      (finish o.serial stPreempted (tokenOf e k false o) (leNat bs) u)) .latPreempts e)) := by
  subst he
  have hlat := latOf_internalBytes hbs (c.param 24 1)
  have hfind : (((none : Option LatOp).toList ++ (some o).toList).find? fun o => o.tag = c.param 32 4) = some o := by simp [htag]
  unfold latSuspendBody
  dsimp only
  rw [need_bind_of (by simp [h8, hplain, hres]), need_bind_of (by simpa using hown), hidle, hyield, hfind]
  dsimp only
  rw [hplain, need_bind_of (by simp), need_bind_of (by simp [hroom]), if_pos (by simp), show (0 : Nat).testBit 0 = false from rfl,
    suspendOp_saves hbs (hlat ▸ hk)]
  dsimp only
  rw [if_neg (by simp), latOf_setLat_same, setLat_setLat, hlat]

theorem exec_latSuspend_waits (hsettled : Settled s) (he : e < 8) (hb : Begins s ring 0x0602 c)
    (hbody : latSuspendBody c s = .ok (.running (setLat e { latOf s e with suspend := some (c.serial, false) } s)))
    (hrun : (latOf s e).running = some o) :
    exec (.latSuspend ring) s = .next (setPhase c.serial .running (setLat e { latOf s e with suspend := some (c.serial, false) } s)) := by
  have hkept := (OthersKept.refl e s).setLat { latOf s e with suspend := some (c.serial, false) }
  have hgo := latGo_of_not_free (s := setPhase c.serial .running (setLat e { latOf s e with suspend := some (c.serial, false) } s))
    (latFree_of_running ((congrArg LatEngine.running (latOf_setLat_same ..)).trans hrun))
  exact congrArg Host.Outcome.next (latGoAll_runs hsettled he hb hbody hkept hgo (hkept.setPhase ..))

theorem exec_latSuspend_saves {bs : List Byte} (hsettled : Settled s) (he : e < 8) (hb : Begins s ring 0x0602 c)
    (hbody : latSuspendBody c s = .ok (.done stOk (tokenOf e k false o) (leNat bs) (bump (setLat e (savedTo (latOf s e) k o (leNat bs))
      (finish o.serial stPreempted (tokenOf e k false o) (leNat bs) u)) .latPreempts e)))
    (hq : (latOf s e).queue = []) (hbs : internalBytes 3 8 s = (some bs, u)) :
    ∃ t, exec (.latSuspend ring) s = .next (okWith c (tokenOf e k false o) (leNat bs) (bump t .latPreempts e))
      ∧ latOf t e = savedTo (latOf s e) k o (leNat bs)
      ∧ t = { finish o.serial stPreempted (tokenOf e k false o) (leNat bs) u with lat := t.lat } ∧ (∀ j, j ≠ e → latOf t j = latOf s j) := by
  have hsaved := ((othersKept_internalBytes hbs e).finish o.serial stPreempted (tokenOf e k false o) (leNat bs)).setLat
    (savedTo (latOf s e) k o (leNat bs))
  have hdone := (hsaved.bump .latPreempts e).finish c.serial stOk (tokenOf e k false o) (leNat bs)
  have hidle := latGoAll_idle hsettled he hdone ((congrArg LatEngine.queue (latOf_setLat_same ..)).trans hq)
  exact ⟨_, congrArg Host.Outcome.next ((congrArg latGoAll (beginCommand_okWith hb hbody)).trans hidle), latOf_setLat_same .., rfl, hsaved.lat⟩

/-! ### LAT_RESUME (R480, R483) -/

theorem latResumeBody_ok {t0 : Nat} (ht0 : c.param 24 8 = t0) (hstored : t0.testBit 0 = false) (hown : bitsOf t0 1 3 = e) (h8 : e < 8)
    (hnamed : c.param 40 1 = 0xFF ∨ c.param 40 1 = e) (hres : c.reserved [(41, 64)] = true) (htakes : Takes s (c.ring / 64) e) :
    latResumeBody c s = .ok (.running (latEnqueue e (.resume c.serial c.ring c.tag t0 (c.param 32 8)) s)) := by
  subst ht0
  have hengine : (if c.param 40 1 = 0xFF then bitsOf (c.param 24 8) 1 3 else c.param 40 1) = e := by
    obtain h | h := hnamed <;> simp [h, hown]
  unfold latResumeBody
  dsimp only
  rw [hengine, need_bind_of (by simp [hres, h8, hown, hstored]), latOwned_ok htakes]
  change (latReady _ _ >>= _) = _
  rw [latReady_ok htakes]
  rfl

theorem exec_latResume {t0 : Nat} (hsettled : Settled s) (he : e < 8) (hb : Begins s ring 0x0603 c)
    (hbody : latResumeBody c s = .ok (.running (latEnqueue e (.resume c.serial c.ring c.tag t0 o.check) s)))
    (hfree : latFree s e = true) (hstored : t0.testBit 0 = false)
    (hslot : Table.find (latOf s e).slots (bitsOf t0 4 4) = some (o, entriesHash (latOf s e) o)) :
    ∃ t, exec (.latResume ring) s = .next t ∧ t = { setPhase c.serial .running s with lat := t.lat }
      ∧ (∀ j, j ≠ e → latOf t j = latOf s j)
      ∧ latOf t e = { latOf s e with
          slots := Table.drop (latOf s e).slots (bitsOf t0 4 4), held := false
          running := some { o with serial := c.serial, ring := c.ring, tag := c.tag, cycles := 840, stalls := 0 } } := by
  have hbegun := (OthersKept.refl e s).setPhase c.serial .running
  have hq := (hsettled e he).resolve_right (by simp [hfree])
  have hgo := latGo_resume (s := setPhase c.serial .running s) (serial := c.serial) (r := c.ring) (tag := c.tag) hfree hq hstored hslot
  exact ⟨_, congrArg Host.Outcome.next (latGoAll_runs hsettled he hb hbody ((OthersKept.refl e s).setLat _) hgo (hbegun.setLat _)), rfl,
    (hbegun.setLat _).lat, latOf_setLat_same ..⟩

end

/-! ### The statement -/

/-- Settles O43: each command begins, its body runs with its item queued or is done, and then the engine it names alone may go on. The slot
of a LAT_SUSPEND is the lowest free one by the model's choice (log entry 38). -/
theorem latticeCommands : Obligations.LatticeCommands := by
  intro s ring c hsettled n e x hn he hx
  subst hn hx
  refine ⟨?_, ?_, ?_, ?_⟩
  · intro o hb ho hengine hfields hregions hoverlap hsave hnoise hentries hparked htakes
    exact exec_latExec hsettled he hb (latExecBody_ok ho hengine hfields hregions hoverlap hsave hnoise hentries hparked htakes)
  · intro first count logN hb hengine hfirst hcount hlogN h63 hpos h28 hlo hhi hlast hres hunits hok htakes hfree hparked
    exact exec_latModuli hsettled he hb
      (latModuliBody_ok hengine hfirst hcount hlogN he h63 hpos h28 hlo hhi hlast hres hunits hok htakes) hfree hparked
  · intro o hb hengine hplain hres hown htag hroom hnone
    constructor
    · intro hrun hheld
      exact exec_latSuspend_waits hsettled he hb (latSuspendBody_waits hengine hplain hres he hown htag hroom hnone hrun hheld) hrun
    · intro bs u k hidle hyield hq _ hbs hk
      exact exec_latSuspend_saves hsettled he hb (latSuspendBody_saves hengine hplain hres he hown htag hroom hidle hyield hbs hk) hq hbs
  · intro o t0 k hb ht0 hstored hown hnamed hres hk hcheck hslot htakes hfree
    subst hk
    have hbody := latResumeBody_ok ht0 hstored hown he hnamed hres htakes
    rw [← hcheck] at hbody
    exact exec_latResume hsettled he hb hbody hfree hstored hslot

end Sys2Proof.Machine

/-! # Step boundaries and the ends of operations (O44)

What O44 says of the boundaries and ends holds as it stands, and what it says of the words holds over moduli no wider than a word. -/
namespace Sys2Proof.Machine

section

variable {s t u : State} {e stall : Nat} {faults : List LineFault} {x : LatEngine} {o : LatOp}

/-! ### Step boundaries (R466, R473, R478) -/

/-- A boundary that no fault and no stop meets adds its step. -/
theorem stepBoundary_adds (hslots : s.err.slots = []) (hrun : (latOf s e).running = some o) (hheld : (latOf s e).held = false)
    (hmore : o.steps + 1 < o.costs.length) :
    stepBoundary e stall s = boundaryStop e (addStep e stall o s).1
      (setLat e { latOf s e with running := some (addStep e stall o s).1 } (addStep e stall o s).2) := by
  unfold stepBoundary
  dsimp only
  rw [hrun]
  dsimp only
  rw [if_neg (by simp [hheld]; omega), firePoint_unarmed hslots]
  rfl

theorem boundaryStop_none (hshift : (latOf s e).shiftStop = false) (hsuspend : (latOf s e).suspend = none)
    (hyield : (latOf s e).yieldAsked = false)
    (hquiet : ∀ n, Table.find s.sct.engines e = some n → (Table.getD s.rings.held n 0).testBit 1 = false) : boundaryStop e o s = s := by
  have hopen : ((Table.find s.sct.engines e).map (fun n => (Table.getD s.rings.held n 0).testBit 1)).getD false = false := by
    cases hn : Table.find s.sct.engines e with
    | none => rfl
    | some n => exact hquiet n hn
  unfold boundaryStop
  dsimp only
  rw [if_neg (by simp [hshift]), hsuspend]
  dsimp only
  rw [if_neg (by simp [hyield]), if_neg (by simp [hopen])]

theorem boundaryStop_yields (hshift : (latOf s e).shiftStop = false) (hsuspend : (latOf s e).suspend = none)
    (hyield : (latOf s e).yieldAsked = true) :
    boundaryStop e o s = bump (setLat e { latOf s e with running := none, yielded := some o, yieldAsked := false } s) .latPreempts e := by
  unfold boundaryStop
  dsimp only
  rw [if_neg (by simp [hshift]), hsuspend]
  dsimp only
  rw [if_pos hyield]

/-! ### The end of an operation (R484, R485) -/

theorem latOperationEnd_ends {st : Nat} (hslots : s.err.slots = []) (hrun : (latOf s e).running = some o) (hheld : (latOf s e).held = false)
    (hlast : o.steps + 1 = o.costs.length) (heffect : latEffect faults e (addStep e stall o s).1 (addStep e stall o s).2 = (st, u))
    (hsuspend : (latOf u e).suspend = none) (hq : (latOf u e).queue = []) :
    latOperationEnd e stall faults s = bump (finish o.serial st (if st = 0 then (addStep e stall o s).1.cycles else 0)
      (if st = 0 then (addStep e stall o s).1.stalls % 2 ^ 32 + e * 2 ^ 32 else 0) (setLat e { latOf u e with running := none } u)) .latOpsDone e := by
  unfold latOperationEnd
  dsimp only
  rw [hrun]
  dsimp only
  rw [if_neg (by simp [hheld, hlast]), firePoint_unarmed hslots]
  dsimp only
  rw [heffect]
  dsimp only
  have hdrop {v : State} (h : latOf v e = { latOf u e with running := none }) : latGo e (dropSuspend e v) = v := by
    have hnone : dropSuspend e v = v := by rw [dropSuspend, h, hsuspend]
    rw [hnone, latGo_of_queue_nil ((congrArg LatEngine.queue h).trans hq)]
  by_cases hst : st = 0
  · simp only [hst, if_true]
    exact hdrop (latOf_setLat_same ..)
  · simp only [hst, if_false]
    exact hdrop (latOf_setLat_same ..)

/-! ### Limbs in memory (R452, R457) -/

theorem peek_add (s : State) (a m n : Nat) : peek s a (m + n) = peek s a m ++ peek s (a + m) n := by
  simp only [peek, List.range_add, List.map_append, List.map_map, Function.comp_def, Nat.add_assoc]

theorem length_peek (s : State) (a n : Nat) : (peek s a n).length = n := by simp [peek]

theorem words64_peek (s : State) (m : Nat) : ∀ a : Nat, words64 m (peek s a (8 * m)) = (List.range m).map (latWord s a) := by
  induction m with
  | zero => exact fun _ => rfl
  | succ m ih =>
    intro a
    have hsplit : peek s a (8 * (m + 1)) = peek s a 8 ++ peek s (a + 8) (8 * m) := by rw [← peek_add]; congr 1; omega
    have hword (k : Nat) : latWord s (a + 8) k = latWord s a (k + 1) := by simp only [latWord]; congr 2; omega
    rw [hsplit, words64, List.take_left' (length_peek ..), List.drop_left' (length_peek ..), ih, List.range_succ_eq_map, List.map_cons,
      List.map_map, List.map_congr_left fun k _ => hword k]
    rfl

theorem limbsOf_map_range (n k : Nat) : ∀ f : Nat → Nat,
    limbsOf n k ((List.range (k * n)).map f) = (List.range k).map fun i => (List.range n).map fun j => f (i * n + j) := by
  induction k with
  | zero => exact fun _ => rfl
  | succ k ih =>
    intro f
    have hsplit : (List.range ((k + 1) * n)).map f = (List.range n).map f ++ (List.range (k * n)).map (fun w => f (n + w)) := by
      rw [Nat.succ_mul, Nat.add_comm, List.range_add, List.map_append, List.map_map]
      rfl
    rw [hsplit, limbsOf, List.take_left' (by simp), List.drop_left' (by simp), ih, List.range_succ_eq_map, List.map_cons, List.map_map]
    congr 1
    · simp
    · refine List.map_congr_left fun i _ => List.map_congr_left fun j _ => ?_
      rw [Nat.succ_mul, Nat.add_comm (i * n) n, Nat.add_assoc]

theorem flatten_grid {n : Nat} (hn : 0 < n) (l : Nat) (f : Nat → Nat → Nat) :
    ((List.range l).map fun i => (List.range n).map fun j => f i j).flatten = (List.range (l * n)).map fun w => f (w / n) (w % n) := by
  induction l with
  | zero => simp
  | succ l ih =>
    rw [List.range_succ, List.map_append, List.flatten_append, ih, Nat.succ_mul, List.range_add, List.map_append, List.map_map]
    congr 1
    simp only [List.map_cons, List.map_nil, List.flatten_cons, List.flatten_nil, List.append_nil]
    refine List.map_congr_left fun j hj => ?_
    have hj := List.mem_range.mp hj
    rw [Function.comp_apply, Nat.mul_comm l, Nat.mul_add_div hn, Nat.mul_add_mod, Nat.div_eq_of_lt hj, Nat.mod_eq_of_lt hj, Nat.add_zero]

theorem wordBytes_append (xs ys : List Nat) : wordBytes (xs ++ ys) = wordBytes xs ++ wordBytes ys := List.flatMap_append

theorem wordBytes_cons (v : Nat) (ws : List Nat) : wordBytes (v :: ws) = leBytes 8 v ++ wordBytes ws := List.flatMap_cons

theorem length_wordBytes (ws : List Nat) : (wordBytes ws).length = 8 * ws.length := by
  induction ws with
  | nil => rfl
  | cons v ws ih =>
    rw [wordBytes_cons, List.length_append, length_leBytes, List.length_cons, ih]
    omega

/-- Words written from an address on read back, where they are words. -/
theorem latWord_wordBytes {f : Nat → Nat} {m w : Nat} (a : Nat) (hw : w < m) (hf : f w < 2 ^ 64) (s : State) :
    latWord (poke s a (wordBytes ((List.range m).map f))) a w = f w := by
  obtain ⟨d, rfl⟩ := Nat.exists_eq_add_of_lt hw
  have hsplit : (List.range (w + d + 1)).map f = (List.range w).map f ++ f w :: (List.range d).map (fun k => f (w + 1 + k)) := by
    rw [show w + d + 1 = w + 1 + d by omega, List.range_add, List.range_succ, List.map_append, List.map_append, List.map_map]
    simp
  have hlen := length_leBytes 8 (f w)
  rw [hsplit, wordBytes_append, ← poke_append, length_wordBytes, List.length_map, List.length_range, wordBytes_cons,
    ← poke_append, hlen]
  refine (word64_congr fun i hi => cellAt_poke_outside _ _ _ _ (by omega)).trans (word64_poke hf)

/-! ### Reading operands (R452, R456) -/

/-- Limbs of an operand as memory holds them. -/
def memLimbs (s : State) (a n l : Nat) : List (List Nat) := (List.range l).map fun i => (List.range n).map fun j => latWord s a (i * n + j)

theorem faultyRead_clean {a n : Nat} (hn : n ≠ 0) (hslots : s.err.slots = []) (hclean : CleanRange s a n) :
    faultyRead [] a n s = (.ok (peek s a n), s) := by
  obtain ⟨hfirst, hlast, hpoison⟩ := hclean
  refine trustedRead_plain hn hslots hfirst hlast fun k hk => ?_
  have hline := hpoison (max a ((a / 64 + k) * 64)) (by omega) (by omega)
  rwa [poisonedAt, show max a ((a / 64 + k) * 64) / 64 = a / 64 + k by omega] at hline

theorem readLimbs_absent {tag : Nat} (h : (o.region tag).bytes = 0) : readLimbs [] o tag s = (.ok [], s) := by
  unfold readLimbs
  exact if_pos h

theorem readLimbs_clean {tag l : Nat} (hl : 0 < l) (hslots : s.err.slots = []) (hbytes : (o.region tag).bytes = l * o.limb)
    (hclean : CleanRange s (o.region tag).addr (l * o.limb)) :
    readLimbs [] o tag s = (.ok (memLimbs s (o.region tag).addr (2 ^ o.logN) l), s) := by
  have hlimb : 0 < o.limb := by rw [LatOp.limb]; positivity
  have hne : l * o.limb ≠ 0 := by positivity
  have hwords : l * o.limb = 8 * (l * 2 ^ o.logN) := by rw [LatOp.limb]; ring
  have hcount : l * o.limb / 8 = l * 2 ^ o.logN := by omega
  unfold readLimbs
  dsimp only
  rw [hbytes, if_neg hne, faultyRead_clean hne hslots hclean]
  dsimp only
  rw [Nat.mul_div_cancel l hlimb, hcount, hwords, words64_peek, limbsOf_map_range]
  rfl

/-! ### Writing an operand over whole lines (R457, 05 R266) -/

/-- Memory with bytes written over whole lines, which takes the poison of those lines. -/
def overwritten (a : Nat) (bs : List Byte) (p : List Nat) (s : State) : State :=
  { s with mem := { s.mem with cells := cellsPut s.mem.cells a bs, poison := p } }

theorem writeLines_whole (n : Nat) : ∀ (a : Nat) (bs : List Byte) (s : State), a % 64 = 0 → bs.length % 64 = 0 → bs.length ≤ 64 * n →
    ∃ p, writeLines [] n a bs s = (stOk, overwritten a bs p s) := by
  induction n with
  | zero =>
    intro a bs s _ _ hlen
    obtain rfl : bs = [] := List.length_eq_zero_iff.mp (by omega)
    exact ⟨_, rfl⟩
  | succ n ih =>
    intro a bs s ha hmod hlen
    by_cases hbs : bs = []
    · subst hbs
      exact ⟨_, rfl⟩
    have hpos : 0 < bs.length := List.length_pos_iff.mpr hbs
    have hline : (bs.take 64).length = 64 := by rw [List.length_take]; omega
    obtain ⟨p, hrest⟩ := ih (a + 64) (bs.drop 64) (poke (unpoison s a) a (bs.take 64)) (by omega) (by rw [List.length_drop]; omega)
      (by rw [List.length_drop]; omega)
    have hcells := cellsPut_append (bs.take 64) s.mem.cells a (bs.drop 64)
    rw [List.take_append_drop, hline] at hcells
    refine ⟨p, ?_⟩
    have hwrite : writeLine [] a (bs.take 64) s = (stOk, poke (unpoison s a) a (bs.take 64)) := if_pos hline
    rw [writeLines, if_neg hbs, ha, Nat.sub_zero]
    dsimp only
    rw [hwrite]
    change writeLines [] n (a + 64) (bs.drop 64) (poke (unpoison s a) a (bs.take 64)) = _
    rw [hrest, overwritten, overwritten, hcells]
    rfl

theorem trustedWrite_whole {a : Nat} {bs : List Byte} (hbs : bs ≠ []) (ha : a % 64 = 0) (hlen : bs.length % 64 = 0)
    (hfirst : isMemory s a = true) (hlast : isMemory s (a + bs.length - 1) = true) :
    ∃ p, trustedWrite a bs s = (stOk, overwritten a bs p s) := by
  obtain ⟨p, h⟩ := writeLines_whole (bs.length / 64 + 2) a bs s ha hlen (by omega)
  refine ⟨p, ?_⟩
  rw [trustedWrite, faultyWrite, if_neg hbs, if_neg (by simp [hfirst, hlast]), h]

/-! ### COPY, ADD, SUB and MUL (R457) -/

/-- What the four operations compute of a word of A and a word of B. -/
def wordResult (op q y z : Nat) : Nat :=
  match op with
  | 0 => y
  | 1 => (y + z) % q
  | 2 => (y + q - z) % q
  | _ => mont q y z

theorem wordResult_lt {op q y z : Nat} (hq : 0 < q) (hy : y < q) : wordResult op q y z < q := by
  unfold wordResult
  split
  · exact hy
  all_goals exact Nat.mod_lt _ hq

theorem four_ops {op : Nat} (hop : op ≤ 3) : op = 0 ∨ op = 1 ∨ op = 2 ∨ op = 3 := by omega

theorem wordOp_map {op : Nat} (hop : op ≤ 3) (q n k : Nat) (f g : Nat → Nat) (b old : List Nat) (hb : op ≠ 0 → b = (List.range n).map g) :
    wordOp op q ((List.range n).map f) b old k = (List.range n).map fun j => wordResult op q (f j) (g j) := by
  obtain rfl | rfl | rfl | rfl := four_ops hop
  · rfl
  all_goals
    rw [hb (by decide)]
    simp only [wordOp, limb2, List.zipWith_map, List.zipWith_self]
    rfl

theorem region_zero (hop : o.op ≤ 3) : o.region 0 = ⟨0, o.p 40 8, o.l * o.limb, false⟩ := by
  obtain h | h | h | h := four_ops hop <;> simp [LatOp.region, LatOp.regions, h]

theorem region_one (hop : o.op ≤ 3) (h0 : o.op ≠ 0) : o.region 1 = ⟨1, o.p 48 8, o.l * o.limb, false⟩ := by
  obtain h | h | h | h := four_ops hop
  · exact absurd h h0
  all_goals simp [LatOp.region, LatOp.regions, h]

theorem region_one_copy (h0 : o.op = 0) : (o.region 1).bytes = 0 := by simp [LatOp.region, LatOp.regions, h0]

theorem region_two (hop : o.op ≤ 3) : o.region 2 = ⟨2, o.p 56 8, o.l * o.limb, false⟩ := by
  obtain h | h | h | h := four_ops hop <;> simp [LatOp.region, LatOp.regions, h]

theorem region_five (hop : o.op ≤ 3) : (o.region 5).bytes = 0 := by
  obtain h | h | h | h := four_ops hop <;> simp [LatOp.region, LatOp.regions, h]

/-- Moduli and roots of limbs whose entries are loaded. -/
theorem opModuli_loaded {q : Nat → Nat} {l : Nat} (hq : ∀ i, i < l → ∃ m, Table.find x.moduli (o.modBase + i) = some m ∧ m.q = q i) :
    ∃ r : Nat → Nat, opModuli x o ((List.range l).map (· + o.modBase)) = (List.range l).map fun i => (q i, r i) := by
  refine ⟨fun i => ((Table.find x.moduli (o.modBase + i)).map (·.root o.logN)).getD 0, ?_⟩
  rw [opModuli, List.filterMap_map, ← List.filterMap_eq_map]
  refine List.filterMap_congr fun i hi => ?_
  obtain ⟨m, hm, hmq⟩ := hq i (List.mem_range.mp hi)
  simp [Nat.add_comm i, hm, hmq]

theorem limbsBelow_memLimbs {q r : Nat → Nat} {a n l : Nat} (h : ∀ i j, i < l → j < n → latWord s a (i * n + j) < q i) :
    limbsBelow ((List.range l).map fun i => (q i, r i)) (memLimbs s a n l) = true := by
  simp only [limbsBelow, memLimbs, List.zip_map', List.all_map, List.all_eq_true, List.mem_range, Function.comp_apply, decide_eq_true_eq]
  exact fun i hi j hj => h i j hi hj

theorem limbsBelow_nil (ms : List (Nat × Nat)) : limbsBelow ms [] = true := by simp [limbsBelow]

/-- Asking for the domain of an input draws at most a free value. -/
theorem domainOf_eq (x : LatEngine) (a : Nat) (s : State) : ∃ d n, domainOf x a s = (d, { s with fresh := n }) := by
  unfold domainOf
  split
  · exact ⟨_, s.fresh, rfl⟩
  · exact ⟨_, _, rfl⟩

/-- The word that the four operations write at place `w` of OUT0. -/
def resultWord (s : State) (o : LatOp) (q : Nat → Nat) (w : Nat) : Nat :=
  wordResult o.op (q (w / 2 ^ o.logN)) (latWord s (o.p 40 8) w) (latWord s (o.p 48 8) w)

/-- What is read of B, which COPY does not use. -/
def secondLimbs (s : State) (o : LatOp) : List (List Nat) := if o.op = 0 then [] else memLimbs s (o.p 48 8) (2 ^ o.logN) o.l

theorem readLimbs_first (hop : o.op ≤ 3) (hl : 1 ≤ o.l) (hslots : s.err.slots = []) (ha : CleanRange s (o.p 40 8) (o.l * o.limb)) :
    readLimbs [] o 0 s = (.ok (memLimbs s (o.p 40 8) (2 ^ o.logN) o.l), s) := by
  have h := readLimbs_clean (tag := 0) (o := o) hl hslots (by rw [region_zero hop]) (by rwa [region_zero hop])
  rwa [region_zero hop] at h

theorem readLimbs_second (hop : o.op ≤ 3) (hl : 1 ≤ o.l) (hslots : s.err.slots = [])
    (hb : o.op ≠ 0 → CleanRange s (o.p 48 8) (o.l * o.limb)) : readLimbs [] o 1 s = (.ok (secondLimbs s o), s) := by
  by_cases h0 : o.op = 0
  · rw [readLimbs_absent (region_one_copy h0), secondLimbs, if_pos h0]
  · have h := readLimbs_clean (tag := 1) (o := o) hl hslots (by rw [region_one hop h0]) (by rw [region_one hop h0]; exact hb h0)
    rwa [region_one hop h0, ← show secondLimbs s o = _ from if_neg h0] at h

theorem limbsBelow_secondLimbs {q r : Nat → Nat}
    (h : ∀ i j, i < o.l → j < 2 ^ o.logN → o.op ≠ 0 → latWord s (o.p 48 8) (i * 2 ^ o.logN + j) < q i) :
    limbsBelow ((List.range o.l).map fun i => (q i, r i)) (secondLimbs s o) = true := by
  unfold secondLimbs
  split
  · exact limbsBelow_nil _
  next h0 => exact limbsBelow_memLimbs fun i j hi hj => h i j hi hj h0

theorem mapIdx_map_range {α β : Type} (f : Nat → α → β) (g : Nat → α) (l : Nat) :
    ((List.range l).map g).mapIdx f = (List.range l).map fun i => f i (g i) := by
  apply List.ext_getElem <;> simp

theorem getD_memLimbs {s : State} {a n l i : Nat} (hi : i < l) :
    (memLimbs s a n l).getD i [] = (List.range n).map fun j => latWord s a (i * n + j) := by
  simp [memLimbs, hi]

theorem latResult_words (hop : o.op ≤ 3) (q r : Nat → Nat) (aux : List (Nat × Nat)) (old key : List (List Nat)) :
    ∃ out, latResult o ((List.range o.l).map fun i => (q i, r i)) aux (memLimbs s (o.p 40 8) (2 ^ o.logN) o.l) (secondLimbs s o) old key
      = (out, []) ∧ out.flatten = (List.range (o.l * 2 ^ o.logN)).map (resultWord s o q) := by
  refine ⟨_, by rw [latResult, if_pos (by omega)], ?_⟩
  have hlimb : ∀ i ∈ List.range o.l, wordOp o.op (q i) ((memLimbs s (o.p 40 8) (2 ^ o.logN) o.l).getD i []) ((secondLimbs s o).getD i [])
      (old.getD i []) ((key.getD 0 []).getD i 0) = (List.range (2 ^ o.logN)).map fun j =>
        wordResult o.op (q i) (latWord s (o.p 40 8) (i * 2 ^ o.logN + j)) (latWord s (o.p 48 8) (i * 2 ^ o.logN + j)) := by
    intro i hi
    have hi := List.mem_range.mp hi
    rw [getD_memLimbs hi]
    exact wordOp_map hop _ _ _ _ _ _ _ fun h0 => by rw [secondLimbs, if_neg h0, getD_memLimbs hi]
  rw [mapIdx_map_range, List.map_congr_left hlimb, flatten_grid (by positivity)]
  simp only [Nat.div_add_mod']
  rfl

/-- A limb fills whole lines. -/
theorem limb_lines (hlogN : 12 ≤ o.logN) : 64 ∣ o.limb := ⟨2 ^ (o.logN - 3), by
  rw [LatOp.limb, ← pow_sub_mul_pow 2 (show 3 ≤ o.logN by omega)]
  ring⟩

/-- The four operations read their inputs, and write every word of OUT0 over whole lines. -/
theorem latEffect_words {q : Nat → Nat} (hslots : s.err.slots = []) (hop : o.op ≤ 3) (hlogN : 12 ≤ o.logN) (hl : 1 ≤ o.l)
    (ha : CleanRange s (o.p 40 8) (o.l * o.limb)) (hb : o.op ≠ 0 → CleanRange s (o.p 48 8) (o.l * o.limb))
    (hfirst : isMemory s (o.p 56 8) = true) (hlast : isMemory s (o.p 56 8 + o.l * o.limb - 1) = true) (hal : o.p 56 8 % 64 = 0)
    (hq : ∀ i, i < o.l → ∃ m, Table.find (latOf s e).moduli (o.modBase + i) = some m ∧ m.q = q i ∧ isPrime (q i) = true)
    (hbelow : ∀ i j, i < o.l → j < 2 ^ o.logN → latWord s (o.p 40 8) (i * 2 ^ o.logN + j) < q i
      ∧ (o.op ≠ 0 → latWord s (o.p 48 8) (i * 2 ^ o.logN + j) < q i)) :
    ∃ domains fresh p, latEffect [] e o s = (stOk, overwritten (o.p 56 8)
      (wordBytes ((List.range (o.l * 2 ^ o.logN)).map (resultWord s o q))) p
      { setLat e { latOf s e with domains := domains } s with fresh := fresh }) := by
  obtain ⟨r, hmods⟩ := opModuli_loaded (o := o) (x := latOf s e) (q := q) (l := o.l) fun i hi => by
    obtain ⟨m, hm, hmq, -⟩ := hq i hi
    exact ⟨m, hm, hmq⟩
  have hFlood : o.op ≠ 0x0E := by omega
  have hAuto : o.op ≠ 0x0A := by omega
  have hKey : o.op ≠ 0x0D := by omega
  have hScale : o.op ≠ 0x05 := by omega
  have haux : o.auxCount = 0 := if_neg (by simp; omega)
  have hgood : limbsBelow ((List.range o.l).map fun i => (q i, r i)) (memLimbs s (o.p 40 8) (2 ^ o.logN) o.l) = true :=
    limbsBelow_memLimbs fun i j hi hj => (hbelow i j hi hj).1
  have hgoodB := limbsBelow_secondLimbs (r := r) fun i j hi hj => (hbelow i j hi hj).2
  have hprimes : ((List.range o.l).map fun i => (q i, r i)).all (fun m => isPrime m.1) = true := by
    simp only [List.all_map, List.all_eq_true, List.mem_range, Function.comp_apply]
    intro i hi
    obtain ⟨m, -, -, hprime⟩ := hq i hi
    exact hprime
  obtain ⟨d, fresh, hdomain⟩ := domainOf_eq (latOf s e) (o.region 0).addr s
  unfold latEffect
  dsimp only
  rw [readLimbs_first hop hl hslots ha]
  dsimp only
  rw [readLimbs_second hop hl hslots hb]
  dsimp only
  rw [if_neg (by omega)]
  dsimp only
  rw [readLimbs_absent (region_five hop)]
  dsimp only
  rw [hdomain, haux, hmods]
  dsimp only
  rw [if_neg hFlood, if_neg (by simp [hprimes, hgood, hgoodB, hKey, hScale, limbsBelow_nil, opModuli]), if_neg hAuto, if_neg hScale]
  generalize hv : setLat e _ _ = v
  obtain ⟨out, hresult, hout⟩ := latResult_words (s := s) hop q r (opModuli (latOf s e) o ((List.range 0).map (· + o.modAux))) [] []
  have hmem (a : Nat) : isMemory v a = isMemory s a := by
    subst hv
    exact isMemory_congr rfl rfl a
  have hlen : (wordBytes ((List.range (o.l * 2 ^ o.logN)).map (resultWord s o q))).length = o.l * o.limb := by
    rw [length_wordBytes, List.length_map, List.length_range, LatOp.limb]
    ring
  have hne : wordBytes ((List.range (o.l * 2 ^ o.logN)).map (resultWord s o q)) ≠ [] := by
    rw [← List.length_pos_iff, hlen, LatOp.limb]
    positivity
  obtain ⟨p, hwrite⟩ := trustedWrite_whole (s := v) (a := o.p 56 8) (bs := wordBytes ((List.range (o.l * 2 ^ o.logN)).map (resultWord s o q)))
    hne hal (by rw [hlen]; exact Nat.mod_eq_zero_of_dvd ((limb_lines hlogN).mul_left _)) (by rw [hmem, hfirst]) (by rw [hlen, hmem, hlast])
  refine ⟨Table.put (latOf s e).domains (o.region 2).addr (outDomain o.op d), fresh, p, ?_⟩
  rw [hresult]
  dsimp only
  rw [writeLimbs, region_two hop, hout, hwrite]
  rw [← hv, region_two hop]
  rfl

/-! ### The rows (R457, R466, R473, R484) -/

theorem exec_stepBoundary_adds (hslots : s.err.slots = []) (hrun : (latOf s e).running = some o) (hheld : (latOf s e).held = false)
    (hsuspend : (latOf s e).suspend = none) (hshift : (latOf s e).shiftStop = false) (hyield : (latOf s e).yieldAsked = false)
    (hmore : o.steps + 1 < o.costs.length)
    (hquiet : ∀ n, Table.find s.sct.engines e = some n → (Table.getD s.rings.held n 0).testBit 1 = false) :
    exec (.stepBoundary e stall) s = .next (setLat e
      { latOf s e with running := some { o with steps := o.steps + 1, cycles := o.cycles + o.costs.getD o.steps 0 + stall, stalls := o.stalls + stall } }
      (bumpField s .latPaceStalls e 0 32 stall)) := by
  have hadds := stepBoundary_adds (stall := stall) hslots hrun hheld hmore
  exact congrArg Host.Outcome.next (hadds.trans (boundaryStop_none (by rwa [latOf_setLat_same]) (by rwa [latOf_setLat_same])
    (by rwa [latOf_setLat_same]) hquiet))

theorem exec_stepBoundary_yields (hslots : s.err.slots = []) (hrun : (latOf s e).running = some o) (hheld : (latOf s e).held = false)
    (hsuspend : (latOf s e).suspend = none) (hshift : (latOf s e).shiftStop = false) (hyield : (latOf s e).yieldAsked = true)
    (hmore : o.steps + 1 < o.costs.length) :
    exec (.stepBoundary e stall) s = .next (bump (setLat e
      { latOf s e with
        running := none, yieldAsked := false
        yielded := some { o with steps := o.steps + 1, cycles := o.cycles + o.costs.getD o.steps 0 + stall, stalls := o.stalls + stall } }
      (bumpField s .latPaceStalls e 0 32 stall)) .latPreempts e) := by
  have hadds := stepBoundary_adds (stall := stall) hslots hrun hheld hmore
  rw [boundaryStop_yields (by rwa [latOf_setLat_same]) (by rwa [latOf_setLat_same]) (by rwa [latOf_setLat_same]), latOf_setLat_same,
    setLat_setLat] at hadds
  exact congrArg Host.Outcome.next hadds

/-- LAT.PACE_STALLS lies outside what decides where memory is. -/
theorem isMemory_addStep (e stall : Nat) (o : LatOp) (s : State) (a : Nat) : isMemory (addStep e stall o s).2 a = isMemory s a := by
  refine isMemory_congr (s := s) (t := (addStep e stall o s).2) rfl (rget_bumpField_ne s _ _ _ ?_) a
  simp only [Reg.offset, Reg.info]
  omega

/-- COPY, ADD, SUB and MUL over prime moduli that a word can hold. The outputs are written when the last step ends (log entry 33). -/
theorem exec_latOperationEnd_words {q : Nat → Nat} (hslots : s.err.slots = []) (hrun : (latOf s e).running = some o)
    (hheld : (latOf s e).held = false) (hsuspend : (latOf s e).suspend = none) (hqueue : (latOf s e).queue = [])
    (hend : o.steps + 1 = o.costs.length) (hop : o.op ≤ 3) (hlogN : 12 ≤ o.logN) (hl : 1 ≤ o.l)
    (ha : CleanRange s (o.p 40 8) (o.l * o.limb)) (hb : o.op ≠ 0 → CleanRange s (o.p 48 8) (o.l * o.limb))
    (hfirst : isMemory s (o.p 56 8) = true) (hlast : isMemory s (o.p 56 8 + o.l * o.limb - 1) = true) (hal : o.p 56 8 % 64 = 0)
    (hq : ∀ i, i < o.l → ∃ m, Table.find (latOf s e).moduli (o.modBase + i) = some m ∧ m.q = q i ∧ isPrime (q i) = true)
    (hword : ∀ i, i < o.l → q i ≤ 2 ^ 64)
    (hbelow : ∀ i j, i < o.l → j < 2 ^ o.logN → latWord s (o.p 40 8) (i * 2 ^ o.logN + j) < q i
      ∧ (o.op ≠ 0 → latWord s (o.p 48 8) (i * 2 ^ o.logN + j) < q i)) :
    ∃ t, exec (.latOperationEnd e stall []) s = .next (bump (finish o.serial stOk (o.cycles + o.costs.getD o.steps 0 + stall)
        ((o.stalls + stall) % 2 ^ 32 + e * 2 ^ 32) t) .latOpsDone e)
      ∧ (latOf t e).running = none
      ∧ (∀ i j, i < o.l → j < 2 ^ o.logN → latWord t (o.p 56 8) (i * 2 ^ o.logN + j)
          = wordResult o.op (q i) (latWord s (o.p 40 8) (i * 2 ^ o.logN + j)) (latWord s (o.p 48 8) (i * 2 ^ o.logN + j)))
      ∧ (∀ d, ¬(o.p 56 8 ≤ d ∧ d < o.p 56 8 + o.l * o.limb) → cellAt t.mem.cells d = cellAt s.mem.cells d)
      ∧ t.sct = s.sct ∧ t.rings = s.rings := by
  have hmem := isMemory_addStep e stall o s
  have hclean {a n : Nat} (h : CleanRange s a n) : CleanRange (addStep e stall o s).2 a n := by
    obtain ⟨h1, h2, h3⟩ := h
    exact ⟨(hmem a).trans h1, (hmem _).trans h2, h3⟩
  obtain ⟨domains, fresh, p, heffect⟩ := latEffect_words (s := (addStep e stall o s).2) (o := (addStep e stall o s).1) (e := e) (q := q)
    hslots hop hlogN hl (hclean ha) (fun h0 => hclean (hb h0)) ((hmem _).trans hfirst) ((hmem _).trans hlast) hal hq hbelow
  have hlat := latOf_setLat_same e { latOf s e with domains := domains } (addStep e stall o s).2
  have hends := latOperationEnd_ends (stall := stall) hslots hrun hheld hend heffect ((congrArg LatEngine.suspend hlat).trans hsuspend)
    ((congrArg LatEngine.queue hlat).trans hqueue)
  refine ⟨_, congrArg Host.Outcome.next hends, congrArg LatEngine.running (latOf_setLat_same ..), ?_, ?_, rfl, rfl⟩
  · intro i j hi hj
    have hplace : (i * 2 ^ o.logN + j) / 2 ^ o.logN = i := by
      rw [Nat.mul_comm, Nat.mul_add_div (by positivity), Nat.div_eq_of_lt hj, Nat.add_zero]
    have hin : i * 2 ^ o.logN + j < o.l * 2 ^ o.logN := by nlinarith
    have hy := (hbelow i j hi hj).1
    have hres : resultWord s o q (i * 2 ^ o.logN + j)
        = wordResult o.op (q i) (latWord s (o.p 40 8) (i * 2 ^ o.logN + j)) (latWord s (o.p 48 8) (i * 2 ^ o.logN + j)) := by
      rw [resultWord, hplace]
    have hlt : resultWord s o q (i * 2 ^ o.logN + j) < 2 ^ 64 := hres ▸ (wordResult_lt (by omega) hy).trans_le (hword i hi)
    exact (latWord_wordBytes (o.p 56 8) hin hlt s).trans hres
  · intro d hd
    refine cellAt_cellsPut_outside _ _ _ _ ?_
    rw [length_wordBytes, List.length_map, List.length_range]
    change d < o.p 56 8 ∨ o.p 56 8 + 8 * (o.l * 2 ^ o.logN) ≤ d
    have hsize : o.l * o.limb = 8 * (o.l * 2 ^ o.logN) := by rw [LatOp.limb]; ring
    omega

end

end Sys2Proof.Machine

/-! # A sum of two words over a modulus wider than a word (O44) -/
namespace Sys2Proof.Machine

/-! ### The model's test of primality (R450) -/

theorem sqrtBits_mul_self_le {n : Nat} (k : Nat) : ∀ {r : Nat}, r * r ≤ n → sqrtBits n k r * sqrtBits n k r ≤ n := by
  induction k with
  | zero => exact id
  | succ k ih =>
    intro r hr
    rw [sqrtBits]
    split
    next h => exact ih h
    · exact ih hr

theorem isqrt_mul_self_le (n : Nat) : isqrt n * isqrt n ≤ n := sqrtBits_mul_self_le _ (Nat.zero_le n)

theorem noDivisor_of_prime {q : Nat} (hq : q.Prime) (fuel : Nat) : ∀ {d : Nat}, 2 ≤ d → d + fuel ≤ q → noDivisor q fuel d = true := by
  induction fuel with
  | zero => exact fun _ _ => rfl
  | succ fuel ih =>
    intro d hd hlast
    have hrest := ih (d := d + 1) (by omega) (by omega)
    have hdiv : q % d ≠ 0 := fun h => by
      obtain h1 | hq' := (Nat.dvd_prime hq).mp (Nat.dvd_of_mod_eq_zero h) <;> omega
    simp [noDivisor, hdiv, hrest]

/-- A prime passes it, at any size. -/
theorem isPrime_of_prime {q : Nat} (hq : q.Prime) : isPrime q = true := by
  have hroot : isqrt q < q := by
    have h2 := hq.two_le
    have hle := isqrt_mul_self_le q
    by_contra h
    nlinarith
  simp [isPrime, hq.two_le, noDivisor_of_prime hq (isqrt q - 1) le_rfl (by have := hq.two_le; omega)]

theorem latWord_lt (s : State) (a k : Nat) : latWord s a k < 2 ^ 64 := word64_lt s (a + 8 * k)

/-! ### The counterexample -/

/-- A prime above every word. -/
def wideModulus : Nat := mersenne 89

theorem prime_wideModulus : wideModulus.Prime := lucas_lehmer_sufficiency 89 (by norm_num) (by norm_num)

/-- An ADD of one limb of 4,096 words at its only step: A at 0, B behind it, OUT0 at 64 KiB in the near tier. -/
def wideSum : LatOp := { params := [0, 1, 12, 1] ++ List.replicate 21 0 ++ [0x80] ++ List.replicate 8 0 ++ [1] }

/-- An engine that runs it over that modulus, with the first word of A and of B 2^63. -/
def addsWide : State :=
  { lat := [(0, { moduli := [(0, ⟨wideModulus, 0, 12⟩)], running := some wideSum })]
    mem := { cells := [(7, 0x80), (32775, 0x80)] } }

theorem cleanRange_addsWide : CleanRange addsWide 0 32768 ∧ CleanRange addsWide 32768 32768 :=
  ⟨⟨rfl, rfl, fun _ _ _ => rfl⟩, ⟨rfl, rfl, fun _ _ _ => rfl⟩⟩

/-- Refutes O44: it bounds the moduli by nothing, while OUT0 holds words. On `addsWide` the sum of the first words of A and B is 2^64,
which the modulus does not reduce and no word holds. LAT_MODULI loads no such modulus (R446), but no premise says how the entry came.
Where the moduli are at most 2^64, `exec_latOperationEnd_words` gives the words. -/
theorem not_latticeSteps : ¬ Obligations.LatticeSteps := by
  intro h
  obtain ⟨-, hlast⟩ := h addsWide 0 0 [] _ wideSum _ rfl rfl rfl rfl rfl rfl rfl
  obtain ⟨-, hwords⟩ := hlast (by decide) rfl
  have hentry : ∀ i, i < wideSum.l → ∃ m, Table.find (latOf addsWide 0).moduli (wideSum.modBase + i) = some m
      ∧ m.q = wideModulus ∧ isPrime wideModulus = true := by
    intro i hi
    obtain rfl : i = 0 := Nat.lt_one_iff.mp hi
    exact ⟨⟨wideModulus, 0, 12⟩, rfl, rfl, isPrime_of_prime prime_wideModulus⟩
  have hbelow (a k : Nat) : latWord addsWide a k < wideModulus := (latWord_lt addsWide a k).trans (by decide)
  obtain ⟨t, -, -, hwritten, -⟩ := hwords rfl (by decide) (by decide) (by decide) (by decide) (by decide) cleanRange_addsWide.1
    (fun _ => cleanRange_addsWide.2) rfl rfl rfl (fun _ => wideModulus) hentry (fun _ _ _ _ => ⟨hbelow .., fun _ => hbelow ..⟩)
  have hfirst : latWord t 65536 0 = (latWord addsWide 0 0 + latWord addsWide 32768 0) % wideModulus :=
    hwritten 0 0 (by decide) (by decide)
  have hsum : (latWord addsWide 0 0 + latWord addsWide 32768 0) % wideModulus = 2 ^ 64 := by decide
  exact absurd (hfirst.trans hsum) (latWord_lt t 65536 0).ne

end Sys2Proof.Machine

/-! # The step, POWER_SET and the injection slots (O1, O24, O26) -/
namespace Sys2Proof.Machine

/-- Settles O1: the step is defined by these two cases of its queue. -/
theorem stepTakesFront : Obligations.StepTakesFront := by
  refine ⟨?_, ?_⟩
  · intro c rest s h
    simp only [step, h]
  · intro s h
    simp only [step, h]

section
variable {s : State}

/-- A command that begins and whose body answers that it runs. -/
theorem beginCommand_runs {ring op : Nat} {c : Cmd} {body : Cmd → State → Body} {t : State} (hb : Begins s ring op c)
    (hrun : body c s = .ok (.running t)) : beginCommand op ring body s = setPhase c.serial .running t := by
  obtain ⟨hnext, hop, hgate⟩ := hb
  rw [beginCommand_begins op body hnext hop hgate, hrun]
  rfl

/-! ### POWER_SET (16 R833, R834) -/

/-- The state with moves of the listed resources appended. -/
def movesStarted (kind : Nat) (goal : Power) (l : List Nat) (s : State) : State :=
  { s with rst := { s.rst with transitions := s.rst.transitions ++ l.map (fun i =>
      { kind := kind, index := i, goal := goal, begun := goal = .on || !testedNow s kind i }) } }

/-- Moves requested of distinct resources that have none and are in another state all start, in their order. -/
theorem foldl_startMove {kind : Nat} {goal : Power} : ∀ {l : List Nat} {s : State}, l.Nodup →
    (∀ i ∈ l, hasMove s kind i = false ∧ powerOf s kind i ≠ goal) →
    l.foldl (fun s i => startMove kind i goal s) s = movesStarted kind goal l s
  | [], s, _, _ => by simp [movesStarted]
  | i :: l, s, hnd, h => by
    obtain ⟨hi, hl⟩ := List.nodup_cons.mp hnd
    obtain ⟨hnone, hother⟩ := h i List.mem_cons_self
    have hstart : startMove kind i goal s = movesStarted kind goal [i] s := by
      simp [startMove, hnone, hother, movesStarted, setRst]
    have hrest : ∀ j ∈ l, hasMove (movesStarted kind goal [i] s) kind j = false ∧ powerOf (movesStarted kind goal [i] s) kind j ≠ goal := by
      intro j hj
      obtain ⟨hj', hpower⟩ := h j (List.mem_cons_of_mem _ hj)
      have hne : i ≠ j := fun e => hi (e ▸ hj)
      refine ⟨?_, hpower⟩
      simp only [hasMove, movesStarted, List.map_cons, List.map_nil, List.any_append] at hj' ⊢
      simp [hj', hne]
    rw [List.foldl_cons, hstart, foldl_startMove hl hrest]
    simp [movesStarted, testedNow]

/-- POWER_SET of resources that its sector may move: done where all are in the state asked for, and else running, with a move of each
that is not. -/
theorem powerSetBody_moves {c : Cmd} {kind set : Nat} (hkind : c.param 24 1 = kind) (hset : c.param 32 8 = set) (hkinds : kind = 1 ∨ kind = 2)
    (hstate : c.param 25 1 ≤ 2) (hpool : c.param 26 1 ≤ 1) (hres : c.reserved [(27, 32), (40, 64)] = true) (hset0 : set ≠ 0)
    (hlt : set < if kind = 1 then 2 ^ 32 else 2 ^ 8) (hpf : c.param 26 1 = 1 → c.viaPf = true)
    (hall : ∀ i ∈ bitList 64 set, Table.find (if kind = 1 then s.sct.eights else s.sct.engines) i
        = (if c.param 26 1 = 0 then some (c.ring / 64) else none)
      ∧ powerAvail s kind i = true ∧ powerBusy s kind i (powerOfCode (c.param 25 1)) = false ∧ hasMove s kind i = false) :
    let goal := powerOfCode (c.param 25 1)
    let moving := (bitList 64 set).filter (fun i => powerOf s kind i ≠ goal)
    powerSetBody c s = if moving = [] then .ok (.done stOk 0 0 s) else .ok (.running (movesStarted kind goal moving { s with
      sct := { s.sct with cmd := some { serial := c.serial, op := .power, waits := moving.map (fun i => (kind, i)), changed := moving.length } } })) := by
  intro goal moving
  have hmoving : (bitList 64 set).filter (fun i => hasMove s kind i || powerOf s kind i ≠ goal) = moving :=
    List.filter_congr fun i hi => by simp [(hall i hi).2.2.2]
  have hparams : ((kind = 1 || kind = 2) && c.param 25 1 ≤ 2 && c.param 26 1 ≤ 1 && c.reserved [(27, 32), (40, 64)] && set ≠ 0
      && decide (set < if kind = 1 then 2 ^ 32 else 2 ^ 8)) = true := by
    simp only [Bool.and_eq_true, Bool.or_eq_true, decide_eq_true_eq]
    exact ⟨⟨⟨⟨⟨hkinds, hstate⟩, hpool⟩, hres⟩, hset0⟩, hlt⟩
  have howned : ((c.param 26 1 = 0 || c.viaPf) && (bitList 64 set).all (fun i => Table.find (if kind = 1 then s.sct.eights else s.sct.engines) i
      = (if c.param 26 1 = 0 then some (c.ring / 64) else none))) = true := by
    simp only [Bool.and_eq_true, Bool.or_eq_true, List.all_eq_true, decide_eq_true_eq]
    exact ⟨(Nat.le_one_iff_eq_zero_or_eq_one.mp hpool).imp_right hpf, fun i hi => (hall i hi).1⟩
  subst hkind hset
  unfold powerSetBody
  rw [need_bind_of hparams, need_bind_of howned, need_bind_of (List.all_eq_true.mpr fun i hi => (hall i hi).2.1),
    need_bind_of (List.all_eq_true.mpr fun i hi => by simp [(hall i hi).2.2.1]), hmoving]
  refine if_congr Iff.rfl rfl (congrArg (fun t => Except.ok (Begun.running t)) (foldl_startMove ?_ fun i hi => ?_))
  · exact (List.nodup_range.filter _).filter _
  · obtain ⟨hnamed, hother⟩ := List.mem_filter.mp hi
    exact ⟨(hall i hnamed).2.2.2, of_decide_eq_true hother⟩

/-- Settles O26: the body is done or runs, with a move of each named resource that is in another state. -/
theorem powerSets : Obligations.PowerSets := by
  intro s ring c kind set hb hkind hset hkinds hstate hpool hres hset0 hlt hpf hall
  have hbody := powerSetBody_moves hkind hset hkinds hstate hpool hres hset0 hlt hpf hall
  refine ⟨fun hnone => ?_, fun hsome => ?_⟩
  · exact congrArg _ (beginCommand_okWith hb (hbody.trans (if_pos hnone)))
  · exact congrArg _ (beginCommand_runs hb (hbody.trans (if_neg hsome)))

/-! ### Injection slots (17 R867, R868, R870, R983) -/

/-- INJECT_ARM of a point that can be injected on a resource in service takes the lowest free slot. -/
theorem injectArmBody_arms {c : Cmd} {p mode count target k kind : Nat} (hp : c.param 24 2 = p) (hm : c.param 26 1 = mode) (hc : c.param 27 1 = count)
    (ht : c.param 28 4 = target) (hkind : pointKind p = some kind) (hmode : mode ≤ 2) (hone : mode = 1 → 1 ≤ count) (hzero : mode ≠ 1 → count = 0)
    (htarget : targetOk p target = true) (hmem : p < 0x0300 → 1 ≤ c.param 40 1 ∧ c.param 40 1 ≤ 8)
    (hother : ¬ p < 0x0300 → c.param 40 1 = 0 ∧ c.param 32 8 = 0) (haddr : addressOk s p target (c.param 32 8) = true)
    (hres : c.reserved [(41, 48), (56, 64)] = true) (hsealed : s.sealing.sealed = false) (h3 : p ≠ 0x0103) (h5 : p ≠ 0x0105)
    (hretired : resRetired s kind target = false) (hoff : resOff s kind target = false) (hfree : Table.firstFree s.err.slots 0 16 = some k) :
    let slot : Inject := ⟨p, mode, if mode = 1 then count else 1, target, c.param 32 8, c.param 40 1, c.param 48 8⟩
    injectArmBody c s = .ok (.done stOk k 0 { s with err := { s.err with slots := Table.put s.err.slots k slot } }) := by
  have hcount : (if mode = 1 then decide (1 ≤ count) else decide (count = 0)) = true := by
    split
    · next h => exact decide_eq_true (hone h)
    · next h => exact decide_eq_true (hzero h)
  have hpattern : (if memoryPoint p then 1 ≤ c.param 40 1 && c.param 40 1 ≤ 8 else c.param 40 1 = 0 && c.param 32 8 = 0) = true := by
    by_cases h : p < 0x0300
    · simp [memoryPoint, h, hmem h]
    · simp [memoryPoint, h, hother h]
  subst hp hm hc ht
  unfold injectArmBody
  simp only [hkind, hmode, htarget, haddr, hres, hcount, hpattern, hsealed, h3, h5, hretired, hoff, hfree, need_bind_of, Option.isSome_some,
    Option.getD_some, decide_true, Bool.and_self, Bool.not_false, ne_eq, not_false_eq_true]

/-- INJECT_DISARM of an armed slot frees it. -/
theorem injectDisarmBody_frees {c : Cmd} {k : Nat} (hk : c.param 24 1 = k) (hle : k ≤ 15) (hres : c.reserved [(25, 64)] = true)
    (harmed : (Table.find s.err.slots k).isSome = true) :
    injectDisarmBody c s = .ok (.done stOk 0 0 { s with err := { s.err with slots := Table.drop s.err.slots k } }) := by
  subst hk
  unfold injectDisarmBody
  rw [need_bind_of (by simp [hle, hres]), need_bind_of harmed]

/-- Settles O24: both bodies are done at once, and expiry filters the slots. -/
theorem injectionSlots : Obligations.InjectionSlots := by
  refine ⟨?_, ?_, ?_⟩
  · intro s ring c p mode count target k kind hb hp hm hc ht hkind hmode hone hzero htarget hmem hother haddr hres hsealed h3 h5 hretired hoff hfree
    exact congrArg _ (beginCommand_okWith hb
      (injectArmBody_arms hp hm hc ht hkind hmode hone hzero htarget hmem hother haddr hres hsealed h3 h5 hretired hoff hfree))
  · intro s ring c k hb hk hle hres harmed
    exact congrArg _ (beginCommand_okWith hb (injectDisarmBody_frees hk hle hres harmed))
  · intro s
    exact ⟨_, rfl, fun e => by simp⟩

end
end Sys2Proof.Machine

/-! # Ports: MSI-X, the host link, expanders and Ethernet (O29, O30) -/
namespace Sys2Proof.Machine

section
variable {s : State}

/-! ### What an error record counts and shows (17 R846-R854; 20 R946) -/

/-- A record changes the ERR block's state, registers, wake queues and pins alone. -/
theorem writeRecord_eq (r : Rec) (s : State) :
    ∃ regs wake err pins, writeRecord r s = { s with regs := regs, wake := wake, err := err, pins := pins } := by
  unfold writeRecord
  split
  · exact ⟨_, _, _, _, rfl⟩
  · extract_lets seq shown pub full old err s1 s2 pins s3
    clear_value pub
    have h2 : ∃ regs wake, s2 = { s with regs := regs, wake := wake, err := err } := by
      unfold s2
      split
      · exact wakePush_eq 63 _ s1
      · exact ⟨_, _, rfl⟩
    obtain ⟨regs, wake, h2⟩ := h2
    clear_value s2
    have h3 : ∃ pins, s3 = { s with regs := regs, wake := wake, err := err, pins := pins } := by
      unfold s3
      split
      · exact ⟨{ pins with smbAlert := true }, by rw [h2]⟩
      · exact ⟨s.pins, h2⟩
    obtain ⟨pins', h3⟩ := h3
    clear_value s3
    subst h3
    split
    · exact ⟨_, _, _, _, rfl⟩
    · split
      · exact ⟨_, _, _, _, rfl⟩
      · split
        · exact ⟨_, _, _, _, rfl⟩
        · exact ⟨_, _, _, _, rfl⟩

/-- The counter of a record's severity. -/
def severityCounter (severity : Nat) : Option Reg :=
  match severity with
  | 1 => some .errCorrected
  | 2 => some .errUncorrected
  | 3 => some .errFatal
  | _ => none

theorem countSeverity_eq (severity : Nat) (t : State) :
    (if severity = 1 then bump t .errCorrected else if severity = 2 then bump t .errUncorrected else if severity = 3 then bump t .errFatal else t)
      = match severityCounter severity with | some q => bump t q | none => t := by
  match severity with
  | 0 | 1 | 2 | 3 => rfl
  | n + 4 => simp [severityCounter]

/-- Registers other than the lost packets of its queue read the same after a push. -/
theorem wakePush_rget {q i j : Nat} {ws : List (Word32 × Bool × Bool)} {p : Reg} (h : p.offset i j ≠ Reg.wakeLost.offset q 0) :
    rget (wakePush q ws s) p i j = rget s p i j :=
  rget_bumpField_ne (setWake s q (enterWords (wakeOf s q) ws).1) 0 32 _ h

/-- A record that is kept counts in its severity's counter after its copy went to wake queue 63 or was held, and shows on
SMB_ALERT_N where it is one of the board's that is not corrected. -/
theorem writeRecord_kept {r : Rec} (hkept : recordsKept s) :
    ∃ t, writeRecord r s = (match severityCounter r.severity with | some q => bump t q | none => t)
      ∧ (∀ (q : Reg) (i j : Nat), q.offset i j ≠ Reg.wakeLost.offset 63 0 → rget t q i j = rget s q i j)
      ∧ t.pins = if r.source = 0x0A05 ∧ 2 ≤ r.severity then { s.pins with smbAlert := true } else s.pins := by
  have hroom : (!s.rst.bootDone && decide (s.err.heldCopies.length ≥ 256)) = false := by
    rcases hkept with h | h <;> simp [h]
  unfold writeRecord
  rw [hroom, if_neg (by simp)]
  extract_lets seq shown pub full old err s1 s2 pins s3
  clear_value pub
  have hcopied : (∀ (q : Reg) (i j : Nat), q.offset i j ≠ Reg.wakeLost.offset 63 0 → rget s2 q i j = rget s q i j) ∧ s2.pins = s.pins := by
    unfold s2
    split
    · obtain ⟨regs, wake, heq⟩ := wakePush_eq 63 (packetOf (narrowWords pub)) s1
      exact ⟨fun q i j h => wakePush_rget h, heq ▸ rfl⟩
    · exact ⟨fun _ _ _ _ => rfl, rfl⟩
  clear_value s2
  have hshown : s3 = { s2 with pins := if r.source = 0x0A05 ∧ 2 ≤ r.severity then { s2.pins with smbAlert := true } else s2.pins } := by
    unfold s3 pins
    by_cases h : r.source = 0x0A05 ∧ 2 ≤ r.severity
    · rw [if_pos h, if_pos (by simpa using h)]
    · rw [if_neg h, if_neg (by simpa using h)]
  clear_value s3
  refine ⟨s3, countSeverity_eq .., fun q i j h => ?_, ?_⟩
  · rw [hshown]
    exact hcopied.1 q i j h
  · rw [hshown]
    exact congrArg (fun p : Pins => if r.source = 0x0A05 ∧ 2 ≤ r.severity then { p with smbAlert := true } else p) hcopied.2

/-- A kept record counts once in its severity's counter. -/
theorem writeRecord_counts {r : Rec} {q : Reg} (hkept : recordsKept s) (hq : severityCounter r.severity = some q) :
    countedOne (writeRecord r s) s q := by
  obtain ⟨t, heq, hregs, -⟩ := writeRecord_kept (r := r) hkept
  have hlost : q.offset 0 0 ≠ Reg.wakeLost.offset 63 0 := by
    unfold severityCounter at hq
    split at hq
    · cases hq; decide
    · cases hq; decide
    · cases hq; decide
    · cases hq
  rw [hq] at heq
  rw [countedOne, heq, bump_counts, hregs q 0 0 hlost]

/-- A kept record shows on SMB_ALERT_N where it is a thermal or board one that is not corrected, and changes no other pin. -/
theorem writeRecord_pins {r : Rec} (hkept : recordsKept s) :
    (writeRecord r s).pins = if r.source = 0x0A05 ∧ 2 ≤ r.severity then { s.pins with smbAlert := true } else s.pins := by
  obtain ⟨t, heq, -, hpins⟩ := writeRecord_kept (r := r) hkept
  rw [heq, ← hpins]
  split <;> rfl

/-- Whether records are kept rests on the boot and the held copies, which an injection slot that fires leaves. -/
theorem recordsKept_firePoint (point target : Nat) (h : recordsKept s) : recordsKept (firePoint point target s).2.2 := by
  have hsame : (firePoint point target s).2.2.rst = s.rst ∧ (firePoint point target s).2.2.err.heldCopies = s.err.heldCopies := by
    unfold firePoint
    split
    · exact ⟨rfl, rfl⟩
    · unfold fireSlot
      dsimp only
      split <;> exact ⟨rfl, rfl⟩
  rw [recordsKept, hsame.1, hsame.2]
  exact h

/-- An injection slot that fires counts in INJ.FIRED and may free the slot. -/
theorem firePoint_eq (point target : Nat) (s : State) :
    ∃ regs slots, (firePoint point target s).2.2 = { s with regs := regs, err := { s.err with slots := slots } } := by
  unfold firePoint
  split
  · exact ⟨_, _, rfl⟩
  · unfold fireSlot
    dsimp only
    split <;> exact ⟨_, _, rfl⟩

theorem firePoint_rget {point target i j : Nat} {p : Reg} (h : p.offset i j ≠ Reg.injFired.offset 0 0) :
    rget (firePoint point target s).2.2 p i j = rget s p i j := by
  have hbump : rget (bump s .injFired) p i j = rget s p i j := rget_bump_ne s h
  unfold firePoint
  split
  · rfl
  · unfold fireSlot
    dsimp only
    split <;> exact hbump

/-! ### MSI-X, the host link and expanders (15 R749, R762, R770, R777) -/

@[simp] theorem fnOf_setFn (s : State) (f : Fn) (c : FnConfig) : fnOf (setFn s f c) f = c := by simp [fnOf]

theorem foldl_emit (g : Nat → Emit) (l : List Nat) (s : State) : l.foldl (fun s v => emit (g v) s) s = { s with out := s.out ++ l.map g } := by
  induction l generalizing s with
  | nil => simp
  | cons v l ih => rw [List.foldl_cons, ih]; simp [emit]

/-- Of the pending vectors, all masked, those that unmasking one vector lets go are those of that vector. -/
theorem masked_after_unmask {c : FnConfig} {v : Nat} (h : ∀ u ∈ c.pendingBits, (Table.getD c.msix u {}).masked = true) :
    ∀ u ∈ c.pendingBits, (Table.getD (Table.put c.msix v { Table.getD c.msix v {} with masked := false }) u {}).masked = decide (u ≠ v) := by
  intro u hu
  by_cases huv : u = v
  · subst huv; simp
  · rw [Table.getD_put_ne _ _ _ huv, h u hu]
    simp [huv]

/-- Unmasking a vector of a function with MSI-X enabled sends its pending messages. -/
theorem msixUnmask_vector {f : Fn} {v : Nat} (hv : v < msixSize f) (hon : (fnOf s f).msixEnable = true) (hmask : (fnOf s f).msixMask = false)
    (hpending : ∀ u ∈ (fnOf s f).pendingBits, (Table.getD (fnOf s f).msix u {}).masked = true) :
    ∃ fns, msixUnmask f (some v) s = { s with
        out := s.out ++ ((fnOf s f).pendingBits.filter (· = v)).map (Emit.msix f), pci := { s.pci with fns := fns } }
      ∧ Table.getD fns (fnKey f) {} = { fnOf s f with
          pendingBits := (fnOf s f).pendingBits.filter (· ≠ v)
          msix := Table.put (fnOf s f).msix v { Table.getD (fnOf s f).msix v {} with masked := false } } := by
  have hafter := masked_after_unmask (v := v) hpending
  have hdue : (fnOf s f).pendingBits.filter (fun u => !(Table.getD (Table.put (fnOf s f).msix v { Table.getD (fnOf s f).msix v {} with masked := false }) u {}).masked)
      = (fnOf s f).pendingBits.filter (· = v) := List.filter_congr fun u hu => by simp [hafter u hu]
  have hkeep : (fnOf s f).pendingBits.filter (fun u => (Table.getD (Table.put (fnOf s f).msix v { Table.getD (fnOf s f).msix v {} with masked := false }) u {}).masked)
      = (fnOf s f).pendingBits.filter (· ≠ v) := List.filter_congr fun u hu => hafter u hu
  unfold msixUnmask releaseMsix
  simp only [Nat.not_le.mpr hv, if_false, fnOf_setFn, hon, hmask, hdue, hkeep, foldl_emit]
  exact ⟨_, rfl, Table.getD_put_same ..⟩

/-- An expander's event: counted where corrected, and written as a record. -/
theorem expanderErrorEvent_eq {p : Nat} (hp : p < 2) (event a : Nat) :
    exec (.expanderErrorEvent p event a) s = .next (writeRecord
      { source := 0x0106, severity := if event = 0 then 1 else 2, kind := 10, index := p, addr := a } (if event = 0 then bump s .cxlErrors p else s)) :=
  if_neg (Nat.not_le.mpr hp)

/-- Settles O30: each row is its one update, and an expander's event counts in its port's register and in its severity's counter. -/
theorem hostAndExpanders : Obligations.HostAndExpanders := by
  refine ⟨?_, fun s => rfl, ?_, ?_⟩
  · intro s f v hv hon hmask hpending
    obtain ⟨fns, heq, hfn⟩ := msixUnmask_vector hv hon hmask hpending
    have hmsix : (Table.getD fns (fnKey f) {}).msix = _ := congrArg FnConfig.msix hfn
    refine ⟨_, congrArg Host.Outcome.next heq, congrArg (s.out ++ ·) (List.map_congr_left fun u hu => ?_), congrArg FnConfig.pendingBits hfn, ?_, rfl, rfl, rfl, rfl⟩
    · rw [of_decide_eq_true (List.mem_filter.mp hu).2]
    · rw [fnOf, hmsix, Table.getD_put_same]
  · intro s speed width flit hpow hperst hlink h1 h6 h1' h16
    exact if_neg (by simp [hpow, hperst, hlink]; omega)
  · intro s p event a hp hkept
    refine ⟨_, expanderErrorEvent_eq hp event a, ?_, ?_, ?_⟩
    · intro h0
      simp only [h0, if_true]
      refine ⟨?_, ?_⟩
      · rw [countedOne, (writeRecord_recorded ..).rget_eq (by simp only [Reg.offset, Reg.info]; omega)]
        exact bump_counts s .cxlErrors p
      · have hcount := writeRecord_counts (s := bump s .cxlErrors p)
          (r := { source := 0x0106, severity := 1, kind := 10, index := p, addr := a }) hkept rfl
        rwa [countedOne, rget_bump_ne s (by simp only [Reg.offset, Reg.info]; omega)] at hcount
    · intro h0
      simp only [h0, if_false]
      exact writeRecord_counts hkept rfl
    · obtain ⟨regs, wake, err, pins, heq⟩ := writeRecord_eq
        { source := 0x0106, severity := if event = 0 then 1 else 2, kind := 10, index := p, addr := a } (if event = 0 then bump s .cxlErrors p else s)
      rw [heq]
      split <;> exact ⟨rfl, rfl, rfl, rfl⟩

end
end Sys2Proof.Machine

namespace Sys2Proof.Machine

section
variable {s : State}

/-! ### Bits of fields (00 R5) -/

/-- A field replaced: the bits above it, its new bits, and the bits below it. -/
theorem setBits_eq (v lo w x : Nat) : setBits v lo w x = 2 ^ lo * (2 ^ w * (v / 2 ^ lo / 2 ^ w) + x % 2 ^ w) + v % 2 ^ lo := by
  have hlow := Nat.div_add_mod v (2 ^ lo)
  have hmid := Nat.div_add_mod (v / 2 ^ lo) (2 ^ w)
  rw [setBits, bitsOf, Nat.shiftRight_eq_div_pow]
  generalize hq : v / 2 ^ lo = q at *
  generalize hm : q % 2 ^ w = m at *
  have hsplit : v = 2 ^ lo * (2 ^ w * (q / 2 ^ w)) + 2 ^ lo * m + v % 2 ^ lo := by rw [← Nat.mul_add, hmid, hlow]
  rw [Nat.mul_add, Nat.mul_comm m, Nat.mul_comm (x % 2 ^ w)]
  omega

theorem testBit_setBits (v lo w x k : Nat) :
    (setBits v lo w x).testBit k = if lo ≤ k ∧ k < lo + w then x.testBit (k - lo) else v.testBit k := by
  rw [setBits_eq, Nat.testBit_two_pow_mul_add _ (Nat.mod_lt _ (Nat.two_pow_pos lo)),
    Nat.testBit_two_pow_mul_add _ (Nat.mod_lt _ (Nat.two_pow_pos w)), Nat.testBit_mod_two_pow, Nat.testBit_mod_two_pow, Nat.testBit_div_two_pow,
    Nat.testBit_div_two_pow]
  by_cases hlo : k < lo
  · simp [hlo, Nat.not_le.mpr hlo]
  · by_cases hw : k - lo < w
    · simp [hlo, hw, Nat.not_lt.mp hlo, show k < lo + w by omega]
    · rw [if_neg hlo, if_neg hw, if_neg (by omega), show k - lo - w + w + lo = k by omega]

/-- One bit of each listed position replaced: the last bit written to a position stays, and every other bit. -/
theorem testBit_foldl_setBits (g : Nat → Bool) (base : Nat) (l : List Nat) (m k : Nat) :
    (l.foldl (fun m c => setBits m (base + c) 1 (bitNat (g c))) m).testBit k
      = if base ≤ k ∧ k - base ∈ l then g (k - base) else m.testBit k := by
  induction l generalizing m with
  | nil => simp
  | cons c l ih =>
    rw [List.foldl_cons, ih, testBit_setBits]
    by_cases hl : base ≤ k ∧ k - base ∈ l
    · rw [if_pos hl, if_pos ⟨hl.1, List.mem_cons_of_mem _ hl.2⟩]
    · rw [if_neg hl]
      by_cases hc : base ≤ k ∧ k - base = c
      · rw [if_pos (by omega), if_pos ⟨hc.1, hc.2 ▸ List.mem_cons_self⟩, hc.2, show k - (base + c) = 0 by omega]
        cases g c <;> rfl
      · rw [if_neg (by omega), if_neg (fun h => (List.mem_cons.mp h.2).elim (fun e => hc ⟨h.1, e⟩) (fun e => hl ⟨h.1, e⟩))]

theorem mem_bitList {n v k : Nat} : k ∈ bitList n v ↔ k < n ∧ v.testBit k = true := by
  simp [bitList]

/-! ### Sub-ports (15 R782, R783) -/

@[simp] theorem ethOf_setEth_same (s : State) (e : Nat) (p : EthPort) : ethOf (setEth e p s) e = p := by simp [ethOf]
theorem ethOf_setEth_ne (s : State) {e d : Nat} (p : EthPort) (h : d ≠ e) : ethOf (setEth e p s) d = ethOf s d := by
  simp [ethOf, Table.getD_put_ne _ _ _ h]

/-- A frame leaves or waits, and changes nothing else. -/
theorem sendFrame_eq (f : RoceFrame) (s : State) : ∃ out rdma, sendFrame f s = { s with out := out, rdma := rdma } := by
  unfold sendFrame
  dsimp only
  split
  · exact ⟨_, _, rfl⟩
  · split <;> exact ⟨_, _, rfl⟩

theorem releaseFrames_eq (s : State) : ∃ out rdma, releaseFrames s = { s with out := out, rdma := rdma } := by
  have hall : ∀ (l : List RoceFrame) (t : State), ∃ out rdma, l.foldl (fun s f => sendFrame f s) t = { t with out := out, rdma := rdma } := by
    intro l
    induction l with
    | nil => exact fun t => ⟨t.out, t.rdma, rfl⟩
    | cons f l ih =>
      intro t
      obtain ⟨out, rdma, hf⟩ := sendFrame_eq f t
      obtain ⟨out', rdma', hl⟩ := ih (sendFrame f t)
      exact ⟨out', rdma', by rw [List.foldl_cons, hl, hf]⟩
  obtain ⟨out, rdma, h⟩ := hall s.rdma.held (setRdma { s.rdma with held := [] } s)
  exact ⟨out, rdma, h⟩

/-- A sub-port of an enabled port comes up. -/
theorem subportUp_eq {e sub : Nat} (he : e < 8) (hon : (rget s .ethPortCfg e).testBit 0 = true) (hsub : sub < subPorts s e)
    (hdown : (ethOf s e).up.testBit sub = false) :
    ∃ out rdma, subportUp e sub s = { setEth e { ethOf s e with up := (ethOf s e).up ||| 2 ^ sub } s with out := out, rdma := rdma } := by
  unfold subportUp
  rw [if_neg (by simp [he, hon, hsub, subUp, hdown])]
  exact releaseFrames_eq _

/-- A sub-port that went down. -/
def downedPort (sub : Nat) (p : EthPort) : EthPort :=
  { p with up := setBits p.up sub 1 0, paused := setBits p.paused (8 * sub) 8 0, fill := p.fill.filter (fun x => !decide (x.1 / 8 = sub)),
           xoff := p.xoff.filter (fun x => !decide (x / 8 = sub)) }

/-- The loss of a sub-port that is up: the port as it then stands, its count, and what a fatal record changes. -/
theorem subportDown_eq {e sub : Nat} (hup : subUp s e sub = true) :
    ∃ injected, subportDown e sub s = writeRecord { source := 0x0801, severity := 3, injected := injected, kind := 8, index := e * 4 + sub }
      (firePoint 0x0801 (e * 4 + sub) (bump (setEth e (downedPort sub (ethOf s e)) s) .ethLinkDowns e)).2.2 := by
  unfold subportDown
  rw [hup, if_neg (by simp)]
  exact ⟨_, rfl⟩

/-- The loss keeps memory, sectors and rings, leaves the port without the sub-port, and counts twice. -/
theorem subportDown_lost {e sub : Nat} (he : e < 8) (hup : subUp s e sub = true) (hkept : recordsKept s) :
    let t := subportDown e sub s
    ethOf t e = downedPort sub (ethOf s e) ∧ countedOne t s .ethLinkDowns e ∧ countedOne t s .errFatal
      ∧ t.mem = s.mem ∧ t.sct = s.sct ∧ t.rings = s.rings := by
  obtain ⟨injected, heq⟩ := subportDown_eq hup
  have hkept' : recordsKept (bump (setEth e (downedPort sub (ethOf s e)) s) .ethLinkDowns e) := hkept
  have hdowns : Reg.ethLinkDowns.offset e 0 < 0x1300000 := by simp only [Reg.offset, Reg.info]; omega
  have hrec := (firePoint_recorded 0x0801 (e * 4 + sub) (bump (setEth e (downedPort sub (ethOf s e)) s) .ethLinkDowns e)).trans
    (writeRecord_recorded { source := 0x0801, severity := 3, injected := injected, kind := 8, index := e * 4 + sub } _)
  dsimp only
  rw [heq]
  refine ⟨?_, ?_, ?_, hrec.mem, hrec.sct, hrec.rings⟩
  · obtain ⟨_, _, _, _, hw⟩ := writeRecord_eq { source := 0x0801, severity := 3, injected := injected, kind := 8, index := e * 4 + sub }
      (firePoint 0x0801 (e * 4 + sub) (bump (setEth e (downedPort sub (ethOf s e)) s) .ethLinkDowns e)).2.2
    obtain ⟨_, _, hf⟩ := firePoint_eq 0x0801 (e * 4 + sub) (bump (setEth e (downedPort sub (ethOf s e)) s) .ethLinkDowns e)
    rw [hw, hf]
    exact ethOf_setEth_same s e _
  · rw [countedOne, hrec.rget_eq hdowns]
    exact bump_counts (setEth e (downedPort sub (ethOf s e)) s) .ethLinkDowns e
  · have hcount := writeRecord_counts (r := { source := 0x0801, severity := 3, injected := injected, kind := 8, index := e * 4 + sub })
      (recordsKept_firePoint 0x0801 (e * 4 + sub) hkept') rfl
    rw [countedOne, firePoint_rget (by decide), rget_bump_ne _ (by simp only [Reg.offset, Reg.info]; omega)] at hcount
    exact hcount

/-- What a port that lost a sub-port shows of its bits, pauses, held bytes and XOFF. -/
theorem downedPort_clears (sub : Nat) (p : EthPort) :
    (downedPort sub p).up.testBit sub = false
    ∧ (∀ k, k < 4 → k ≠ sub → (downedPort sub p).up.testBit k = p.up.testBit k)
    ∧ (∀ k, k < 8 → (downedPort sub p).paused.testBit (8 * sub + k) = false ∧ 8 * sub + k ∉ (downedPort sub p).xoff
        ∧ Table.find (downedPort sub p).fill (8 * sub + k) = none) := by
  refine ⟨?_, fun k _ hk => ?_, fun k hk => ⟨?_, ?_, ?_⟩⟩
  · simp [downedPort, testBit_setBits]
  · rw [downedPort, testBit_setBits, if_neg (by omega)]
  · simp [downedPort, testBit_setBits, hk]
  · have hsub : (8 * sub + k) / 8 = sub := by omega
    simp [downedPort, hsub]
  · have hsub : (8 * sub + k) / 8 = sub := by omega
    rw [downedPort, find_filter_out (fun k => !decide (k / 8 = sub)), hsub]
    simp

/-! ### Received frames and priority flow control (15 R785-R790) -/

/-- A PFC frame on a sub-port that is up. -/
theorem pfcFrame_eq {e sub : Nat} (hup : subUp s e sub = true) (classes times : Nat) :
    ∃ out rdma, pfcFrame e sub classes times s = { bump (setEth e { ethOf s e with
        paused := (bitList 8 classes).foldl (fun m c => setBits m (8 * sub + c) 1 (bitNat (bitsOf times (16 * c) 16 ≠ 0))) (ethOf s e).paused } s)
          .ethPfcReceived e with out := out, rdma := rdma } := by
  unfold pfcFrame
  rw [hup, if_neg (by simp)]
  exact releaseFrames_eq _

/-- A class of a lossy or a lossless frame. -/
theorem otherFrame_up {e sub cls : Nat} (hup : subUp s e sub = true) (hcls : cls < 8) (accepted : Bool) (bytes : Nat) :
    otherFrame e sub accepted cls bytes s =
      let others := (((ethOf s e).fill.filter (fun x => x.1 / 8 = sub && x.1 ≠ 8 * sub + cls)).map Prod.snd).sum
      let full := 2048 * 1024 / subPorts s e < others + bytes
      if !accepted then bump s .ethRxDrops e
      else if losslessClass s e cls then (if full then bump s .ethLosslessDrops e else bump (holdBytes e sub cls bytes s) .ethRxOther e)
      else if limitBytes s e < bytes ∨ full then s
      else bump (holdBytes e sub cls bytes s) .ethRxOther e := by
  unfold otherFrame
  rw [if_neg (by simp [hup]; omega)]
  simp only [Bool.or_eq_true, decide_eq_true_eq]

/-- A lossy class that comes to hold bytes sends nothing. -/
theorem holdBytes_lossy {e cls : Nat} (h : losslessClass s e cls = false) (sub bytes : Nat) :
    holdBytes e sub cls bytes s = setEth e { ethOf s e with fill := Table.put (ethOf s e).fill (8 * sub + cls) bytes } s := by
  unfold holdBytes
  exact if_neg (by
    have h' : losslessClass (setEth e { ethOf s e with fill := Table.put (ethOf s e).fill (8 * sub + cls) bytes } s) e cls = false := h
    simp [h'])

/-- XOFF in force that ends. -/
theorem pfcXon_eq {e sub cls : Nat} (hup : subUp s e sub = true) (hcls : cls < 8) (hx : (ethOf s e).xoff.contains (8 * sub + cls) = true) :
    ∃ fill, pfcXon e sub cls s = sendPfc e sub cls 0 (setEth e { ethOf s e with
      fill := fill, xoff := (ethOf s e).xoff.filter (· ≠ 8 * sub + cls) } s) := by
  unfold pfcXon
  rw [if_neg (by simp only [hup, hcls, hx]; simp)]
  exact ⟨_, rfl⟩

/-- Settles O29: each row does to the one port what its rule says. -/
theorem ethernetPorts : Obligations.EthernetPorts := by
  intro s e sub he hsub
  refine ⟨fun hon hlt hdown => ?_, fun hup => ?_⟩
  · obtain ⟨out, rdma, heq⟩ := subportUp_eq he hon hlt hdown
    refine ⟨_, congrArg Host.Outcome.next heq, ethOf_setEth_same s e _, fun d hd => ethOf_setEth_ne s _ hd, rfl, rfl, rfl, rfl⟩
  have hup' : subUp s e sub = true := by simp [subUp, he, hup]
  refine ⟨fun hkept => ?_, fun classes times => ?_, fun cls bytes hcls => ?_, fun cls hcls hx => ⟨?_, ?_⟩⟩
  · obtain ⟨hport, hdowns, hfatal, hmem, hsct, hrings⟩ := subportDown_lost he hup' hkept
    obtain ⟨hself, hothers, hclasses⟩ := downedPort_clears sub (ethOf s e)
    exact ⟨_, rfl, by rw [hport, hself], fun k hk hne => by rw [hport, hothers k hk hne], fun k hk => by rw [hport]; exact hclasses k hk,
      hdowns, hfatal, hmem, hsct, hrings⟩
  · obtain ⟨out, rdma, heq⟩ := pfcFrame_eq hup' classes times
    refine ⟨_, congrArg Host.Outcome.next heq, fun k hk => ?_, fun k hk hne => ?_, ?_, bump_counts (setEth e _ s) .ethPfcReceived e, rfl, rfl, rfl⟩
    · show (ethOf (setEth e _ s) e).paused.testBit _ = _
      rw [ethOf_setEth_same, testBit_foldl_setBits, Nat.add_sub_cancel_left]
      simp [mem_bitList, hk]
    · show (ethOf (setEth e _ s) e).paused.testBit _ = _
      rw [ethOf_setEth_same, testBit_foldl_setBits, if_neg]
      rintro ⟨hle, hmem⟩
      have := (mem_bitList.mp hmem).1
      omega
    · show (ethOf (setEth e _ s) e).up = _
      rw [ethOf_setEth_same]
  · refine ⟨?_, fun hloss hfull => ?_, fun hlossy hlimit => ?_, fun hlossy hlimit hfit => ?_⟩
    · exact congrArg Host.Outcome.next (otherFrame_up hup' hcls false bytes)
    · refine congrArg Host.Outcome.next ((otherFrame_up hup' hcls true bytes).trans ?_)
      simp only [Bool.not_true, Bool.false_eq_true, if_false, hloss, if_true, if_pos hfull]
    · refine congrArg Host.Outcome.next ((otherFrame_up hup' hcls true bytes).trans ?_)
      simp only [Bool.not_true, Bool.false_eq_true, if_false, hlossy, if_pos (Or.inl hlimit)]
    · refine congrArg Host.Outcome.next ((otherFrame_up hup' hcls true bytes).trans ?_)
      simp only [Bool.not_true, Bool.false_eq_true, if_false, hlossy]
      rw [if_neg (by omega), holdBytes_lossy hlossy]
  · exact congrArg Host.Outcome.next (if_pos (by simp only [hup', hcls, hx]; rfl))
  · obtain ⟨fill, heq⟩ := pfcXon_eq hup' hcls hx
    refine ⟨_, congrArg Host.Outcome.next heq, rfl, ?_, fun k hk => ?_, ?_, rfl, rfl⟩
    · show _ ∉ (ethOf (setEth e _ s) e).xoff
      simp
    · show k ∈ (ethOf (setEth e _ s) e).xoff ↔ _
      simp [hk]
    · exact bump_counts (emit _ (setEth e _ s)) .ethPfcSent e

end
end Sys2Proof.Machine

/-! # The board's monitors and the management cores (O25) -/
namespace Sys2Proof.Machine

section
variable {s : State}

/-! ### Several commands that end together (04 R194, R216) -/

/-- Ending a command leaves every command of another serial number, and every command that is done. -/
theorem mem_finish_of_ne {c : Cmd} {i n : Nat} (hc : c ∈ (ringOf s i).inflight) (hn : c.serial ≠ n ∨ ∃ st r0 r1, c.phase = .done st r0 r1)
    (st r0 r1 : Nat) : c ∈ (ringOf (finish n st r0 r1 s) i).inflight := by
  rw [finish, ringOf_mapInflight]
  refine List.mem_map.mpr ⟨c, hc, ?_⟩
  rcases hn with hn | ⟨st', r0', r1', hp⟩
  · rw [if_neg hn]
  · rw [hp]
    simp

/-- What is done stays done. -/
theorem done_mem_finishAll_of_done {c : Cmd} {i : Nat} (hdone : ∃ st r0 r1, c.phase = .done st r0 r1) (st r0 r1 : Nat) (l : List Nat)
    (h : c ∈ (ringOf s i).inflight) : c ∈ (ringOf (finishAll l st r0 r1 s) i).inflight := by
  induction l generalizing s with
  | nil => exact h
  | cons n l ih => exact ih (mem_finish_of_ne h (.inr hdone) st r0 r1)

/-- A running command that is among those that end is done, at the first time that its number stands in the list. -/
theorem done_mem_finishAll {c : Cmd} {i : Nat} {l : List Nat} (hc : c ∈ (ringOf s i).inflight) (hrun : c.phase = .running)
    (hl : c.serial ∈ l) (st r0 r1 : Nat) : { c with phase := .done st r0 r1 } ∈ (ringOf (finishAll l st r0 r1 s) i).inflight := by
  induction l generalizing s with
  | nil => cases hl
  | cons n l ih =>
    by_cases hn : c.serial = n
    · exact done_mem_finishAll_of_done ⟨st, r0, r1, rfl⟩ st r0 r1 l (done_mem_finish hc hrun hn st r0 r1)
    · exact ih (mem_finish_of_ne hc (.inl hn) st r0 r1) ((List.mem_cons.mp hl).resolve_left hn)

/-- Ending commands changes the rings alone. -/
theorem finishAll_eq (l : List Nat) (st r0 r1 : Nat) (s : State) : ∃ rings, finishAll l st r0 r1 s = { s with rings := rings } := by
  induction l generalizing s with
  | nil => exact ⟨s.rings, rfl⟩
  | cons n l ih => exact ih (finish n st r0 r1 s)

/-! ### Events that fire an injection point and are recorded (17 R843, R870) -/

/-- A record of an event that an injection slot may have caused. -/
def recordFiring (point target : Nat) (r : Bool → Rec) (s : State) : State :=
  let f := firePoint point target s
  writeRecord (r f.1) f.2.2

/-- It changes the ERR block's state, registers, wake queues and pins alone. -/
theorem recordFiring_eq (point target : Nat) (r : Bool → Rec) (s : State) :
    ∃ regs wake err pins, recordFiring point target r s = { s with regs := regs, wake := wake, err := err, pins := pins } := by
  obtain ⟨_, _, hf⟩ := firePoint_eq point target s
  obtain ⟨regs, wake, err, pins, hw⟩ := writeRecord_eq (r (firePoint point target s).1) (firePoint point target s).2.2
  exact ⟨regs, wake, err, pins, by rw [recordFiring, hw, hf]⟩

/-- It counts once in its severity's counter, where records are kept. -/
theorem recordFiring_counts {point target : Nat} {r : Bool → Rec} {q : Reg} (hkept : recordsKept s)
    (hq : ∀ fired, severityCounter (r fired).severity = some q) : countedOne (recordFiring point target r s) s q := by
  have hcount := writeRecord_counts (r := r (firePoint point target s).1) (recordsKept_firePoint point target hkept) (hq _)
  rw [countedOne, firePoint_rget] at hcount
  · exact hcount
  · have := hq true
    unfold severityCounter at this
    split at this <;> cases this <;> decide

/-- It shows on SMB_ALERT_N where it is one of the board's that is not corrected, and on no other pin. -/
theorem recordFiring_pins {point target : Nat} {r : Bool → Rec} (hkept : recordsKept s) :
    (recordFiring point target r s).pins
      = if (r (firePoint point target s).1).source = 0x0A05 ∧ 2 ≤ (r (firePoint point target s).1).severity then { s.pins with smbAlert := true }
        else s.pins := by
  obtain ⟨_, _, hf⟩ := firePoint_eq point target s
  have hpins : (firePoint point target s).2.2.pins = s.pins := by rw [hf]
  rw [recordFiring, writeRecord_pins (recordsKept_firePoint point target hkept), hpins]

/-! ### The monitors (20 R944-R959) -/

/-- What a thermal record of a kept severity shows and counts. -/
theorem thermal_shows {severity : Nat} {q : Reg} (hkept : recordsKept s) (hq : severityCounter severity = some q) (d0 : Nat) :
    countedOne (thermal severity d0 s) s q ∧ (thermal severity d0 s).pins = (if 2 ≤ severity then { s.pins with smbAlert := true } else s.pins)
      ∧ (thermal severity d0 s).rst = s.rst ∧ (thermal severity d0 s).mem = s.mem ∧ (thermal severity d0 s).sct = s.sct
      ∧ (thermal severity d0 s).rings = s.rings := by
  have heq : thermal severity d0 s = recordFiring 0x0A05 0 (fun fired => { source := 0x0A05, severity := severity, injected := fired, d0 := d0 }) s := rfl
  obtain ⟨regs, wake, err, pins, hframe⟩ := recordFiring_eq 0x0A05 0 (fun fired => { source := 0x0A05, severity := severity, injected := fired, d0 := d0 }) s
  refine ⟨heq ▸ recordFiring_counts hkept fun _ => hq, ?_, ?_, ?_, ?_, ?_⟩
  · rw [heq, recordFiring_pins hkept]
    simp
  all_goals rw [heq, hframe]

theorem awake_of {s : State} (hpow : s.rst.powered = true) (htrip : s.rst.tripped = false) : awake s = true := by simp [awake, hpow, htrip]

/-- Below its threshold a monitor does nothing. -/
theorem monitor_below {die reading limit : Nat} (h : reading < limit) : (!awake s || decide (3 ≤ die) || decide (reading < limit)) = true := by
  simp [h]

/-- At its threshold a monitor that runs acts. -/
theorem monitor_reached {die reading limit : Nat} (hawake : awake s = true) (hdie : die < 3) (h : limit ≤ reading) :
    ¬(!awake s || decide (3 ≤ die) || decide (reading < limit)) = true := by
  simp [hawake]
  omega

/-- The stop of a core: recorded, and the running commands that it executed end with HW_FAULT. -/
theorem coreStop_eq {core : Nat} (hcore : core < 6) (cmds : List Nat) :
    let t := recordFiring 0x0A01 core (fun fired => { source := 0x0A01, severity := 3, injected := fired, kind := 13, index := core }) s
    coreStop core cmds s = if core = 0 then t
      else finishAll (cmds.filter (fun n => (cmdOf s n).any (fun c => c.phase = .running))) stHwFault 0 0 t := by
  intro t
  have hrings : t.rings = s.rings := by
    obtain ⟨_, _, _, _, h⟩ := recordFiring_eq 0x0A01 core (fun fired => { source := 0x0A01, severity := 3, injected := fired, kind := 13, index := core }) s
    rw [show t = _ from h]
  have hlive : ∀ n, cmdOf t n = cmdOf s n := fun n => by rw [cmdOf, hrings, cmdOf]
  rw [coreStop, if_neg (Nat.not_le.mpr hcore)]
  simp only [← hlive]
  rfl

/-- Settles O25: a monitor acts at its threshold and writes a record, power that is lost leaves the standby domain, and a core that stops
ends its commands. -/
theorem boardMonitors : Obligations.BoardMonitors := by
  refine ⟨fun s die reading hpow htrip hkept hdie => ⟨fun h => ?_, fun h => if_pos (monitor_below h), fun h => ?_,
    fun h => if_pos (monitor_below h), fun h => ?_, fun h => if_pos (monitor_below h)⟩, fun s r hpow htrip hkept hr => ?_, fun s => rfl, fun s => ?_,
    fun s => rfl, fun s core cmds hcore hkept => ?_⟩
  · have hkept' : recordsKept { s with pins := { s.pins with thermAlert := true } } := hkept
    obtain ⟨hcount, hpins, hrest⟩ := thermal_shows hkept' (rfl : severityCounter 1 = some .errCorrected) 0
    exact ⟨_, if_neg (monitor_reached (awake_of hpow htrip) hdie h), congrArg Pins.thermAlert hpins, hcount, hrest⟩
  · obtain ⟨hcount, hpins, hrest⟩ := thermal_shows hkept (rfl : severityCounter 2 = some .errUncorrected) 0
    exact ⟨_, if_neg (monitor_reached (awake_of hpow htrip) hdie h), congrArg Pins.smbAlert hpins, hcount, hrest⟩
  · exact ⟨_, if_neg (monitor_reached (awake_of hpow htrip) hdie h), rfl, rfl, rfl, rfl, rfl, rfl, rfl, rfl, rfl⟩
  · obtain ⟨hcount, hpins, hrest⟩ := thermal_shows hkept (rfl : severityCounter 3 = some .errFatal) (0x40 + r)
    exact ⟨_, if_neg (by simp [awake_of hpow htrip]; omega), congrArg Pins.smbAlert hpins, hcount, hrest⟩
  · have hfall : (powerFall s).rst.powered = false ∧ (powerFall s).rst.flash = s.rst.flash ∧ (powerFall s).rst.fuses = s.rst.fuses
        ∧ (powerFall s).err.list = s.err.list := by
      unfold powerFall
      cases hpow : s.rst.powered with
      | false => exact ⟨hpow, rfl, rfl, rfl⟩
      | true => exact ⟨rfl, rfl, rfl, rfl⟩
    obtain ⟨hoff, hflash, hfuses, hlist⟩ := hfall
    exact ⟨_, rfl, rfl, hoff, rfl, rfl, hflash, hfuses, hlist⟩
  · have heq := coreStop_eq (s := s) hcore cmds
    have hcount := recordFiring_counts (s := s) (point := 0x0A01) (target := core)
      (r := fun fired => { source := 0x0A01, severity := 3, injected := fired, kind := 13, index := core }) hkept fun _ => rfl
    obtain ⟨regs, wake, err, pins, hframe⟩ := recordFiring_eq 0x0A01 core
      (fun fired => { source := 0x0A01, severity := 3, injected := fired, kind := 13, index := core }) s
    refine ⟨_, congrArg Host.Outcome.next heq, ?_⟩
    split
    · next h0 => rw [hframe] at hcount ⊢; exact ⟨hcount, rfl, rfl, rfl, fun _ => rfl, fun h => absurd h0 h⟩
    · next h0 =>
      obtain ⟨rings, hall⟩ := finishAll_eq (cmds.filter (fun n => (cmdOf s n).any (fun c => c.phase = .running))) stHwFault 0 0
        (recordFiring 0x0A01 core (fun fired => { source := 0x0A01, severity := 3, injected := fired, kind := 13, index := core }) s)
      refine ⟨?_, ?_, ?_, ?_, fun h => absurd h h0, fun _ i c hc hrun hcmd hof => done_mem_finishAll ?_ hrun ?_ ..⟩
      · rw [hall]; exact hcount
      · rw [hall, hframe]
      · rw [hall, hframe]
      · rw [hall, hframe]
      · rw [hframe]; exact hc
      · exact List.mem_filter.mpr ⟨hcmd, by simp [hof, hrun]⟩

end
end Sys2Proof.Machine

/-! # Resets of parts of the package, PLLs and configuration requests (O22) -/
namespace Sys2Proof.Machine

/-! ### Tables filtered -/

/-- An entry that a filter keeps is found where it was, since it stands before every other of its key that the filter keeps. -/
theorem Table.find_filter_of_keep {α : Type} {t : Table α} {p : Nat × α → Bool} {k : Nat} {a : α} (h : Table.find t k = some a)
    (hp : p (k, a) = true) : Table.find (t.filter p) k = some a := by
  induction t with
  | nil => cases h
  | cons e t ih =>
    obtain ⟨j, b⟩ := e
    simp only [Table.find] at h
    split at h
    · next hj =>
      cases hj
      cases h
      simp [hp, Table.find]
    · next hj =>
      rw [List.filter_cons]
      split
      · simpa only [Table.find, if_neg hj] using ih h
      · exact ih h

/-- What a filtered table lists satisfies the filter. -/
theorem Table.filter_of_find {α : Type} {t : Table α} {p : Nat × α → Bool} {k : Nat} {a : α} (h : Table.find (t.filter p) k = some a) :
    p (k, a) = true := by
  induction t with
  | nil => cases h
  | cons e t ih =>
    rw [List.filter_cons] at h
    split at h
    · next hp =>
      simp only [Table.find] at h
      split at h
      · next hj =>
        cases h
        rw [← hj]
        exact hp
      · exact ih h
    · exact ih h

section
variable {s : State}

/-! ### The host port (15 R768, R769) -/

theorem foldl_rput (r : Reg) (v : State → Nat → Nat) (l : List Nat) (s : State) :
    ∃ regs, l.foldl (fun s n => rput s r n 0 (v s n)) s = { s with regs := regs } := by
  induction l generalizing s with
  | nil => exact ⟨s.regs, rfl⟩
  | cons n l ih => exact ih (rput s r n 0 (v s n))

/-- The loss of the host link: the configuration space and the rings in host memory go. -/
theorem hostPortReset_linkDown (hpow : s.rst.powered = true) (hlink : s.pci.linkUp = true) :
    ∃ regs urgent, hostPortReset .linkDown s = { s with
      regs := regs
      pci := { s.pci with fns := [], vfEnable := false, numVfs := 0, linkUp := false, speed := 0, width := 0, flit := false, ide := [] }
      rings := { s.rings with table := s.rings.table.filter (fun e => e.2.hub), urgent := urgent }
      sealing := { s.sealing with sectors := [] } } := by
  unfold hostPortReset
  rw [if_neg (by simp [hpow, hlink])]
  unfold dropHostRings
  dsimp only
  obtain ⟨regs, h⟩ := foldl_rput .cmdAdminCfg (fun s n => setBits (rget s .cmdAdminCfg n) 32 2 0) (List.range 8) _
  rw [h]
  exact ⟨_, _, rfl⟩

/-- Of rings that a filter keeps by their place, those in hub SRAM read as before and no other is listed. -/
theorem hubRings_kept {t : State} (h : t.rings.table = s.rings.table.filter (fun e => e.2.hub)) (i : Nat) :
    ((ringOf t i).state ≠ .disabled → (ringOf t i).hub = true) ∧ ((ringOf s i).hub = true → ringOf t i = ringOf s i) := by
  simp only [ringOf, Table.getD, h]
  constructor
  · intro hstate
    cases hf : Table.find (s.rings.table.filter (fun e => e.2.hub)) i with
    | none => simp [hf] at hstate
    | some r => exact Table.filter_of_find hf
  · intro hhub
    cases hf : Table.find s.rings.table i with
    | none => simp [hf] at hhub
    | some r =>
      rw [hf] at hhub
      rw [Table.find_filter_of_keep hf hhub]

/-! ### Sector and function-level resets (16 R812-R815; 15 R757, R758) -/

/-- A reset of a sector that is not shifting leaves its rings DISABLED and none of its classes held. -/
theorem resetSector_active {n : Nat} (h : (sectorOf s n).state = .active) :
    (∀ k, k < 64 → (ringOf (resetSector n s) (64 * n + k)).state = .disabled) ∧ Table.find (resetSector n s).rings.held n = none := by
  unfold resetSector
  rw [h]
  dsimp only [sectorResetNow]
  refine ⟨fun k hk => ?_, Table.find_drop_same ..⟩
  simp only [disableRings, ringOf, Table.getD, rput_rings]
  rw [find_filter_out (fun i => i / 64 ≠ n), if_neg (by simp; omega)]
  rfl

theorem bitList_two_pow {n : Nat} (h : n < 8) : bitList 8 (2 ^ n) = [n] := by
  have hall : ∀ n : Fin 8, bitList 8 (2 ^ n.val) = [n.val] := by decide
  exact hall ⟨n, h⟩

/-! ### Engine resets (16 R816; 09 R492) -/

/-- What a stop of an engine leaves of it. -/
def stoppedEngine (x : LatEngine) : LatEngine :=
  { x with queue := [], running := none, yielded := none, held := false, slots := [], yieldAsked := false, shiftStop := false }

/-- A stop of an engine changes the engines and the rings alone, and leaves its engine stopped. -/
theorem latStop_eq (e run queued : Nat) (s : State) :
    ∃ lat rings x, latStop e run queued s = { s with lat := lat, rings := rings } ∧ Table.getD lat e {} = stoppedEngine x := by
  have hdrop : ∃ lat rings, dropSuspend e s = { s with lat := lat, rings := rings } := by
    unfold dropSuspend
    split
    · exact ⟨s.lat, s.rings, rfl⟩
    · exact ⟨_, _, rfl⟩
  obtain ⟨lat, rings, hdrop⟩ := hdrop
  obtain ⟨r1, h1⟩ := finishAll_eq (((latOf s e).running.toList ++ (latOf s e).yielded.toList).map (·.serial)) run 0 0 (dropSuspend e s)
  obtain ⟨r2, h2⟩ := finishAll_eq ((latOf s e).queue.map LatItem.serial) queued 0 0
    (finishAll (((latOf s e).running.toList ++ (latOf s e).yielded.toList).map (·.serial)) run 0 0 (dropSuspend e s))
  have hlast : finishAll ((latOf s e).queue.map LatItem.serial) queued 0 0
      (finishAll (((latOf s e).running.toList ++ (latOf s e).yielded.toList).map (·.serial)) run 0 0 (dropSuspend e s))
      = { s with lat := lat, rings := r2 } := by rw [h2, h1, hdrop]
  refine ⟨Table.put lat e (stoppedEngine (Table.getD lat e {})), r2, Table.getD lat e {}, ?_, Table.getD_put_same ..⟩
  unfold latStop
  dsimp only
  rw [hlast]
  rfl

/-- The commands that a stop ends: those of the operation in progress or yielded, and those of the queue. -/
theorem rings_latStop {e : Nat} (hsuspend : (latOf s e).suspend = none) (run queued : Nat) :
    (latStop e run queued s).rings = (finishAll ((latOf s e).queue.map LatItem.serial) queued 0 0
      (finishAll (((latOf s e).running.toList ++ (latOf s e).yielded.toList).map (·.serial)) run 0 0 s)).rings := by
  have hdrop : dropSuspend e s = s := by rw [dropSuspend, hsuspend]
  rw [latStop]
  dsimp only
  rw [hdrop]
  rfl

/-- An engine that was stopped has nothing to go on to. -/
theorem resetEngine_two (e cause : Nat) : resetEngine 2 e cause s = latStop e stHwFault stRetryBusy s := by
  obtain ⟨lat, rings, x, h, hx⟩ := latStop_eq e stHwFault stRetryBusy s
  have hq : (latOf (latStop e stHwFault stRetryBusy s) e).queue = [] := by
    rw [h]
    exact congrArg LatEngine.queue hx
  exact latGo_of_queue_nil hq

/-- An engine reset by firmware of a resource that exists. -/
theorem engineReset_firmware {kind i : Nat} (h : (kind = 1 ∧ i < 32) ∨ (kind = 2 ∧ i < 8)) :
    engineReset none kind i s = if powerAvail s kind i = false ∨ powerOf s kind i = .off then bump s .rstEngineDiscards
      else resetEngine kind i 11 s := by
  unfold engineReset
  dsimp only
  have hnames : ((decide (kind = 1) && decide (i < 32)) || (decide (kind = 2) && decide (i < 8))) = true := by simpa using h
  rw [hnames, if_neg (by simp)]
  simp

/-! ### PLLs (16 R841) -/

/-- A kill changes the contexts and the crews' descriptors alone. -/
theorem killContext_eq (x : Nat) (k : Kill) (s : State) : ∃ scl, killContext x k s = { s with scl := scl } := by
  unfold killContext
  split
  · exact ⟨s.scl, rfl⟩
  · split
    · exact ⟨s.scl, rfl⟩
    · exact ⟨_, rfl⟩

theorem resetEngine_one (i cause : Nat) (s : State) : ∃ scl, resetEngine 1 i cause s = { s with scl := scl } := by
  have hall : ∀ (l : List Nat) (t : State), ∃ scl,
      l.foldl (fun s x => killContext x { cause := cause, scull := 8 * i } s) t = { t with scl := scl } := by
    intro l
    induction l with
    | nil => exact fun t => ⟨t.scl, rfl⟩
    | cons x l ih =>
      intro t
      obtain ⟨scl, h⟩ := killContext_eq x { cause := cause, scull := 8 * i } t
      obtain ⟨scl', h'⟩ := ih (killContext x { cause := cause, scull := 8 * i } t)
      exact ⟨scl', by rw [List.foldl_cons, h', h]⟩
  exact hall _ s

/-- What the resets after the loss of a PLL leave: the boot and power state, the sectors and the package's identity. -/
def clockView (s : State) : Rst × Sct × Top := (s.rst, s.sct, s.top)

theorem clockView_resetEngines {kind : Nat} (hkind : kind = 1 ∨ kind = 2) (cause : Nat) (l : List Nat) (s : State) :
    clockView (l.foldl (fun s i => resetEngine kind i cause s) s) = clockView s := by
  induction l generalizing s with
  | nil => rfl
  | cons i l ih =>
    rw [List.foldl_cons, ih]
    rcases hkind with rfl | rfl
    · obtain ⟨scl, h⟩ := resetEngine_one i cause s
      rw [h]
      rfl
    · obtain ⟨lat, rings, x, h, -⟩ := latStop_eq i stHwFault stRetryBusy s
      rw [resetEngine_two, h]
      rfl

/-- A PLL that lost lock, counted and recorded. -/
def unlocked (p : Nat) (s : State) : State :=
  recordFiring 0x0A02 p (fun fired => { source := 0x0A02, severity := 3, injected := fired, kind := 14, index := p })
    (bump (setRst { s.rst with pll := setBits s.rst.pll p 1 0 } s) .clkPllLosses)

/-- The eights and engines that a PLL clocks held. -/
def holdClocked (p : Nat) (s : State) : State :=
  setRst { s.rst with heldEights := s.rst.heldEights ||| bitMask (pllEights p), heldEngines := s.rst.heldEngines ||| bitMask (pllEngines p) } s

/-- The loss of lock of a PLL that resets eights or engines alone: it reads unlocked, and what it clocks is held. -/
theorem pllLoss_view {p : Nat} (hp : p < 19) (h4 : p ≠ 4) (h7 : p ≠ 7) (h8 : p ≠ 8) (hlock : s.rst.pll.testBit p = true) :
    clockView (pllLoss p s) = ({ s.rst with pll := setBits s.rst.pll p 1 0, heldEights := s.rst.heldEights ||| bitMask (pllEights p),
                                            heldEngines := s.rst.heldEngines ||| bitMask (pllEngines p) }, s.sct, s.top) := by
  have hloss : ∃ eights engines : List Nat, pllLoss p s = engines.foldl (fun s i => resetEngine 2 i 10 s)
      (holdClocked p (eights.foldl (fun s i => resetEngine 1 i 10 s) (unlocked p s))) := by
    unfold pllLoss
    rw [if_neg (by simp [hlock]; omega)]
    dsimp only
    rw [if_neg (by simp [h4, h7, h8])]
    exact ⟨_, _, rfl⟩
  obtain ⟨eights, engines, hloss⟩ := hloss
  have hheld : ∀ t : State, clockView (holdClocked p t)
      = ({ (clockView t).1 with heldEights := (clockView t).1.heldEights ||| bitMask (pllEights p),
                                heldEngines := (clockView t).1.heldEngines ||| bitMask (pllEngines p) }, (clockView t).2) := fun _ => rfl
  have hunlocked : clockView (unlocked p s) = ({ s.rst with pll := setBits s.rst.pll p 1 0 }, s.sct, s.top) := by
    obtain ⟨_, _, _, _, h⟩ := recordFiring_eq 0x0A02 p (fun fired => { source := 0x0A02, severity := 3, injected := fired, kind := 14, index := p })
      (bump (setRst { s.rst with pll := setBits s.rst.pll p 1 0 } s) .clkPllLosses)
    rw [unlocked, h]
    rfl
  rw [hloss, clockView_resetEngines (.inr rfl), hheld, clockView_resetEngines (.inl rfl), hunlocked]

/-- A bit of a mask of listed positions. -/
theorem testBit_bitMask (l : List Nat) (k : Nat) : (bitMask l).testBit k = decide (k ∈ l) := by
  induction l with
  | nil => simp [bitMask]
  | cons i l ih =>
    rw [bitMask, Nat.testBit_or, ih, Nat.testBit_two_pow]
    simp [eq_comm]

/-- Relock: the PLL reads locked, and what it clocks is held no longer. -/
theorem pllRelock_view {p : Nat} (hp : p < 19) :
    (pllRelock p s).sct = s.sct ∧ (pllRelock p s).rst = { s.rst with
      pll := s.rst.pll ||| 2 ^ p
      heldEights := (pllEights p).foldl (fun m i => setBits m (0 + i) 1 (bitNat false)) s.rst.heldEights
      heldEngines := (pllEngines p).foldl (fun m i => setBits m (0 + i) 1 (bitNat false)) s.rst.heldEngines } := by
  unfold pllRelock
  rw [if_neg (by omega)]
  extract_lets off old t
  have h := powerView_foldl (f := fun s e => latGo e s) (fun s e => powerView_latGo s e) (pllEngines p) t
  simp only [powerView, Prod.mk.injEq] at h
  refine ⟨h.2.1, h.1.trans ?_⟩
  simp [t, old, off, setRst, bitNat]

theorem mem_pllEights {p i : Nat} (hp : p < 2) (hi : i < 16) : 16 * p + i ∈ pllEights p := by
  rw [pllEights, if_pos hp]
  exact List.mem_map.mpr ⟨i, List.mem_range.mpr hi, Nat.add_comm ..⟩

theorem mem_pllEngines {p i : Nat} (hp : p = 2 ∨ p = 3) (hi : i < 4) : 4 * (p - 2) + i ∈ pllEngines p := by
  rw [pllEngines, if_pos (by simpa using hp)]
  exact List.mem_map.mpr ⟨i, List.mem_range.mpr hi, Nat.add_comm ..⟩

/-! ### The statement -/

/-- Settles O22: each reset does to its part what its rule says, and the rest of the package stays. -/
theorem partResets : Obligations.PartResets := by
  refine ⟨fun s hpow hlink => ?_, fun s n hn hst hcmd => ?_, fun s n hn hst hcmd hlink hvf hnum => ?_, fun s => ⟨fun hvf => ?_, fun hvf => ?_⟩,
    fun s e he havail hon => ?_, fun s kind i hnames hoff => ?_, fun s p hp h4 h7 h8 hlock => ?_, fun s p hp => ?_, fun s hlink => ⟨fun hs => ?_, fun hs r => ?_⟩⟩
  · obtain ⟨regs, urgent, heq⟩ := hostPortReset_linkDown hpow hlink
    exact ⟨_, congrArg Host.Outcome.next heq, rfl, rfl, rfl, rfl, fun i => (hubRings_kept rfl i).1, fun i => (hubRings_kept rfl i).2, rfl, rfl⟩
  · obtain ⟨hrings, hheld⟩ := resetSector_active hst
    have heq : sectorReset .pf (2 ^ n) s = resetSector n s := by simp [sectorReset, bitList_two_pow hn]
    exact ⟨_, congrArg Host.Outcome.next heq, hrings, hheld⟩
  · have heq : functionReset (.vf n) s = setFn (resetSector n s) (.vf n) {} := by simp [functionReset, hlink, hvf, hnum]
    exact ⟨_, congrArg Host.Outcome.next heq, (resetSector_active hst).1, Table.find_put_same ..⟩
  · exact congrArg Host.Outcome.next (if_pos (by simp [hvf]))
  · exact congrArg Host.Outcome.next (if_neg (by simp [hvf]))
  · have heq : engineReset none 2 e s = latStop e stHwFault stRetryBusy s := by
      rw [engineReset_firmware (.inr ⟨rfl, he⟩), if_neg (by simp [powerAvail, havail, hon]), resetEngine_two]
    obtain ⟨lat, rings, x, hstop, hx⟩ := latStop_eq e stHwFault stRetryBusy s
    have hlat : latOf (latStop e stHwFault stRetryBusy s) e = stoppedEngine x := by rw [hstop]; exact hx
    refine ⟨_, congrArg Host.Outcome.next heq, congrArg LatEngine.running hlat, congrArg LatEngine.yielded hlat, congrArg LatEngine.queue hlat,
      congrArg LatEngine.slots hlat, by rw [hstop], by rw [hstop], fun i c hc y hrun hop hserial hsus => ?_,
      fun i c hc hrun hserial hidle hyield hsus => ?_⟩
    · simp only [ringOf, rings_latStop hsus]
      exact done_mem_finishAll_of_done ⟨_, _, _, rfl⟩ _ _ _ _ (done_mem_finishAll hc hrun (by simp [hop, hserial]) ..)
    · simp only [ringOf, rings_latStop hsus]
      have hnone : ((latOf s e).running.toList ++ (latOf s e).yielded.toList).map (·.serial) = [] := by simp [hidle, hyield]
      rw [hnone]
      exact done_mem_finishAll hc hrun hserial ..
  · exact congrArg Host.Outcome.next ((engineReset_firmware hnames).trans (if_pos (.inr hoff)))
  · have hview := pllLoss_view hp h4 h7 h8 hlock
    simp only [clockView, Prod.mk.injEq] at hview
    obtain ⟨hrst, hsct, htop⟩ := hview
    refine ⟨_, rfl, ?_, fun q hq => ?_, fun hp2 i hi => ?_, fun hp2 i hi => ?_, hsct, htop⟩
    · rw [hrst, testBit_setBits]
      simp
    · rw [hrst, testBit_setBits, if_neg (by omega)]
    · rw [hrst, Nat.testBit_or, testBit_bitMask]
      simp [mem_pllEights hp2 hi]
    · rw [hrst, Nat.testBit_or, testBit_bitMask]
      simp [mem_pllEngines hp2 hi]
  · obtain ⟨hsct, hrst⟩ := pllRelock_view (s := s) hp
    refine ⟨_, rfl, congrArg Rst.pll hrst, fun hp2 i hi => ?_, fun hp2 i hi => ?_, hsct⟩
    · rw [hrst, testBit_foldl_setBits (fun _ => false)]
      exact if_pos ⟨Nat.zero_le _, mem_pllEights hp2 hi⟩
    · rw [hrst, testBit_foldl_setBits (fun _ => false)]
      exact if_pos ⟨Nat.zero_le _, mem_pllEngines hp2 hi⟩
  · exact congrArg Host.Outcome.next (by simp [configRow, hlink, hs, configRequest, configRead, reply])
  · exact congrArg Host.Outcome.next (by simp [configRow, hlink, hs])

end
end Sys2Proof.Machine

/-! # Registers with a rule of their own and the debug window (O11) -/
namespace Sys2Proof.Machine

section
variable {s : State}

/-! ### A 64-bit register written through a function (21 R964-R968) -/

/-- A 64-bit access of a register lands on that register with both halves, below the doorbell window. -/
def wideAt (r : Reg) (i : Nat) : Bool :=
  alignedAccess (r.offset i 0) 8 && decide (r.offset i 0 < 2 ^ 26) && decide (findReg (r.offset i 0) Reg.list = some (r, i, 0, 0))
    && decide (findReg (r.offset i 0 + 4) Reg.list = some (r, i, 0, 4))

theorem writeRegister_wide (ha : Awake s) {r : Reg} {i : Nat} {fn : Fn} (hr : wideAt r i = true)
    (hadmits : admits s fn true (.register r i 0 0) = true) (v : Nat) : writeRegister fn (r.offset i 0) 8 v s = writeReg fn r i 0 0 8 v s := by
  simp only [wideAt, Bool.and_eq_true, decide_eq_true_eq] at hr
  obtain ⟨⟨⟨hal, hlt⟩, h0⟩, h4⟩ := hr
  have hplace : placeOf fn (r.offset i 0) = .register r i 0 0 := by rw [placeOf, h0]
  have hjoint : joint fn (r.offset i 0) = true := by
    have hplace4 : placeOf fn (r.offset i 0 + 4) = .register r i 0 4 := by rw [placeOf, h4]
    simp [joint, hplace, hplace4]
  simp only [writeRegister, busAwake_of_awake ha, Bool.not_true, Bool.false_eq_true, if_false, if_neg (Nat.not_le.mpr hlt), hal, hjoint,
    Bool.or_true, if_true, writeUnit, blockOpen_of_awake ha, hplace, hadmits, writePlace]

theorem adminCfg_wide {n : Nat} (h : n < 8) : wideAt .cmdAdminCfg n = true := by
  have hall : ∀ n : Fin 8, wideAt .cmdAdminCfg n.val = true := by decide +kernel
  exact hall ⟨n, h⟩

theorem portCfg_wide {e : Nat} (h : e < 8) : wideAt .ethPortCfg e = true := by
  have hall : ∀ e : Fin 8, wideAt .ethPortCfg e.val = true := by decide +kernel
  exact hall ⟨e, h⟩

/-! ### The admin ring (04 R174, R183, R185; 15 R756) -/

/-- The bits of ENABLE and RESET that a 64-bit write of CMD.ADMIN_CFG brings. -/
theorem adminCfg_bits {old v : Nat} {k : Nat} (hk : k = 32 ∨ k = 33) :
    ((old - (old &&& (2 ^ (8 * 8) - 1) * 2 ^ (8 * 0)))
      ||| (v % 2 ^ (8 * 8) * 2 ^ (8 * 0) &&& (2 ^ (8 * 8) - 1) * 2 ^ (8 * 0) &&& (Reg.cmdAdminCfg.info.rw ||| Reg.cmdAdminCfg.info.w1s))).testBit k
      = v.testBit k := by
  have hmask : ((2 ^ (8 * 8) - 1) * 2 ^ (8 * 0) : Nat).testBit k = true := by rcases hk with rfl | rfl <;> decide
  have hfield : (Reg.cmdAdminCfg.info.rw ||| Reg.cmdAdminCfg.info.w1s).testBit k = true := by rcases hk with rfl | rfl <;> decide
  have hlow : (v % 2 ^ (8 * 8) * 2 ^ (8 * 0)).testBit k = v.testBit k := by
    rw [Nat.mul_zero, pow_zero, Nat.mul_one, Nat.testBit_mod_two_pow]
    simp only [Bool.and_eq_right_iff_imp, decide_eq_true_eq]
    omega
  rw [Nat.testBit_or, testBit_sub_and, Nat.testBit_and, Nat.testBit_and, hmask, hfield, hlow]
  simp

/-- A 64-bit write of CMD.ADMIN_CFG of a sector through a function that reaches it. -/
theorem adminCfg_write (ha : Awake s) {fn : Fn} {n : Nat} (hn : n < 8) (hfn : fn = .pf ∨ fn = .vf n) (v : Nat) :
    ∃ w, writeRegister fn (Reg.cmdAdminCfg.offset n 0) 8 v s = writeAdminCfg n w s ∧ w.testBit 32 = v.testBit 32 ∧ w.testBit 33 = v.testBit 33 := by
  have hadmits : admits s fn true (.register .cmdAdminCfg n 0 0) = true := by
    rcases hfn with rfl | rfl
    · rfl
    · simp [admits, vfReads, Reg.info]
  exact ⟨_, writeRegister_wide ha (adminCfg_wide hn) hadmits v, adminCfg_bits (.inl rfl), adminCfg_bits (.inr rfl)⟩

theorem ringOf_rput (r : Reg) (i j v k : Nat) : ringOf (rput s r i j v) k = ringOf s k := rfl

/-- ENABLE set on an idle admin ring with eight virtual functions makes ring 0 of the sector ACTIVE as its registers describe it. -/
theorem writeAdminCfg_enables {n w : Nat} (hoff : (rget s .cmdAdminCfg n).testBit 32 = false) (hvf : s.pci.vfEnable = true)
    (hnum : s.pci.numVfs = 8) (hidle : (ringOf s (n * 64)).state = .disabled) (h32 : w.testBit 32 = true) (h33 : w.testBit 33 = false) :
    ∃ x, writeAdminCfg n w s = setRing (rput s .cmdAdminCfg n 0 x) (n * 64) (adminRing n (rput s .cmdAdminCfg n 0 x)) := by
  unfold writeAdminCfg
  simp only [hoff, hvf, hnum, hidle, h32, h33]
  exact ⟨_, rfl⟩

/-- The bases of the admin ring are those of its other registers, which the write leaves. -/
theorem adminRing_enabled (n x : Nat) : adminRing n (rput s .cmdAdminCfg n 0 x) = { adminRing n (rput s .cmdAdminCfg n 0 x) with
    state := .active, cls := 1, hub := false, sqBase := rget s .cmdAdminSqBase n, cqBase := rget s .cmdAdminCqBase n, sqHead := 0, sqTail := 0,
    cqHead := 0, cqTail := 0, phase := true } := by
  have hsq : rget (rput s .cmdAdminCfg n 0 x) .cmdAdminSqBase n = rget s .cmdAdminSqBase n :=
    rget_rput_ne s x (by simp only [Reg.offset, Reg.info]; omega)
  have hcq : rget (rput s .cmdAdminCfg n 0 x) .cmdAdminCqBase n = rget s .cmdAdminCqBase n :=
    rget_rput_ne s x (by simp only [Reg.offset, Reg.info]; omega)
  simp only [adminRing, hsq, hcq]

/-- A reset of the admin ring by its register, with nothing in flight, leaves it fresh and ACTIVE, and every other ring. -/
theorem startReset_admin {i : Nat} (h : (ringOf s i).inflight = []) :
    ∃ urgent regs, startReset i false 0 s = { setRing s i (freshRing (ringOf s i)) with
      regs := regs, rings := { (setRing s i (freshRing (ringOf s i))).rings with urgent := urgent } } := by
  unfold startReset finishReset
  extract_lets r s1 s2 r2
  have hr2 : r2 = { r with state := .resetting, resetting := some (false, 0, r.sqHead), cover := [], sqTail := r.sqHead } :=
    ringOf_setRing_same s i _
  have hidle : ¬ r2.inflight ≠ [] := by rw [hr2]; exact not_not_intro h
  rw [show r2.resetting = some (false, 0, r.sqHead) by rw [hr2]]
  dsimp only
  rw [if_neg hidle, if_pos rfl, hr2]
  simp only [Bool.false_eq_true, if_false, s2, s1, setRing, Table.put_put]
  exact ⟨_, _, rfl⟩

/-- RESET written to an enabled ACTIVE admin ring with nothing in flight. -/
theorem writeAdminCfg_resets {n w : Nat} (hon : (rget s .cmdAdminCfg n).testBit 32 = true) (hactive : (ringOf s (n * 64)).state = .active)
    (hidle : (ringOf s (n * 64)).inflight = []) (h32 : w.testBit 32 = true) (h33 : w.testBit 33 = true) :
    ∃ urgent regs, writeAdminCfg n w s = { setRing s (n * 64) (freshRing (ringOf s (n * 64))) with
      regs := regs, rings := { (setRing s (n * 64) (freshRing (ringOf s (n * 64)))).rings with urgent := urgent } } := by
  have hstart : ∃ x, writeAdminCfg n w s = startReset (n * 64) false 0 { s with regs := x } := by
    unfold writeAdminCfg
    simp [hon, h32, h33, ringOf_rput, hactive]
    exact ⟨_, rfl⟩
  obtain ⟨x, hstart⟩ := hstart
  obtain ⟨urgent, regs, h⟩ := startReset_admin (s := { s with regs := x }) (i := n * 64) hidle
  exact ⟨urgent, regs, hstart.trans h⟩

/-! ### ETH.PORT_CFG (15 R781) -/

/-- What a 64-bit write of ETH.PORT_CFG stores of a value of 60 bits is that value. -/
theorem portCfg_bits {old v : Nat} (hv : v < 2 ^ 60) :
    accessWrite Reg.ethPortCfg.info ((2 ^ (8 * 8) - 1) * 2 ^ (8 * 0)) old (v % 2 ^ (8 * 8) * 2 ^ (8 * 0)) % 2 ^ 60 = v := by
  refine Nat.eq_of_testBit_eq fun k => ?_
  rw [Nat.testBit_mod_two_pow]
  by_cases hk : k < 60
  · have hrw : (Reg.ethPortCfg.info.rw &&& (2 ^ (8 * 8) - 1) * 2 ^ (8 * 0)).testBit k = true := by
      have hall : ∀ k : Fin 60, (Reg.ethPortCfg.info.rw &&& (2 ^ (8 * 8) - 1) * 2 ^ (8 * 0)).testBit k.val = true := by decide +kernel
      exact hall ⟨k, hk⟩
    rw [accessWrite_testBit rfl rfl, if_pos hrw, Nat.mod_eq_of_lt (by omega)]
    simp [hk]
  · rw [Nat.testBit_lt_two_pow (hv.trans_le (Nat.pow_le_pow_right two_pos (Nat.not_lt.mp hk)))]
    simp [hk]

/-- The value of a port that is disabled is stored, MODE 3 as 0. -/
theorem writePortCfg_disabled {e : Nat} (h : (rget s .ethPortCfg e).testBit 0 = false) {v : Nat} {w : Nat} (hw : w % 2 ^ 60 = v) :
    writePortCfg e w s = rput s .ethPortCfg e 0 (if bitsOf v 1 2 = 3 then setBits v 1 2 0 else v) := by
  unfold writePortCfg
  simp only [h, hw, Bool.false_and, Bool.false_eq_true, if_false]

/-! ### The debug window (15 R753, R755; 05 R265; 07 R343; 10 R503) -/

/-- An aligned word in the near tier lies in memory, in one line. -/
theorem near_word {a : Nat} (hhigh : a + 8 ≤ 2 ^ 39) (hal : a % 8 = 0) :
    isMemory s a = true ∧ isMemory s (a + 8 - 1) = true ∧ (a + 8 - 1) / 64 - a / 64 + 1 = 1 := by
  have hnear : ∀ x, x < 0x008000000000 → isMemory s x = true := fun x hx => by simp [isMemory, regionOf, hx]
  exact ⟨hnear a (by omega), hnear _ (by omega), by omega⟩

/-- The window shows a word of the near tier outside pools and tables. -/
theorem bar4Shows_near {a : Nat} (hhigh : a + 8 ≤ 2 ^ 39) (hpool : inPool s a 8 = false) (htables : ∀ e ∈ s.rdma.tables, e.2 ≠ a / 2 ^ 30) :
    bar4Shows s a 8 = true := by
  have hnear : regionOf s a = .near := by rw [regionOf, if_pos (by omega)]
  have hnone : s.rdma.tables.any (fun e => decide (e.2 = a / 2 ^ 30)) = false :=
    List.any_eq_false.mpr fun e he => by rw [decide_eq_true_eq]; exact htables e he
  rw [bar4Shows, hnear, hpool, hnone, Bool.and_false]
  rfl

/-- A read of the window: what the fabric reads there, or all ones. -/
theorem bar4Read_open (ha : Awake s) (hsealed : s.sealing.sealed = false) (harmed : s.sealing.armed = false) {off a : Nat} (hoff : off < 2 ^ 32)
    (h : bitsOf (rget s .memDbgBase) 32 14 * 2 ^ 32 + off = a) :
    bar4Read .pf off 8 [] s = if bar4Shows s a 8 then (match faultyRead [] a 8 s with
      | (.ok bs, s) => reply (leNat bs) s
      | (.error _, s) => reply (allOnes 8) s) else reply (allOnes 8) s := by
  have hbus := busAwake_of_awake ha
  obtain ⟨-, -, hb, hh, hs⟩ := ha
  have hopen : (!busAwake s || decide (Fn.pf ≠ Fn.pf) || decide (2 ^ 32 ≤ off) || decide (8 = 0) || decide (8 < 8) || s.sealing.sealed) = false := by
    rw [hbus, hsealed, decide_eq_false (Nat.not_le.mpr hoff)]
    rfl
  rw [bar4Read, if_neg (by rw [hopen]; decide)]
  dsimp only
  rw [h, hb, hh, hs, harmed]
  simp only [Bool.not_false, Bool.and_self, Bool.true_and] <;> rfl

/-! ### RECOVERY_CTRL (16 R830) -/

/-- The image that the host wrote is verified, and runs or halts the boot. -/
theorem recoveryGo_verifies (hready : s.rst.recoveryReady = true) (len : Nat) :
    let bs := padTo (4096 * min len 4096) s.rst.recoveryImage
    let t := recoveryGo len s
    t.rst.recoveryReady = false ∧ (if imageCheck s.rst.fuses bs = 0 then t.rst.halted = s.rst.halted
      else t.rst.halted = true ∧ t.rst.bootError = imageCheck s.rst.fuses bs)
    ∧ t.rst.flash = s.rst.flash ∧ t.mem = s.mem ∧ t.sct = s.sct := by
  intro bs t
  have ht : t = match imageCheck s.rst.fuses bs with
    | 0 => runImage bs (setRst { s.rst with recoveryReady := false, recoveryImage := [] } s)
    | code => haltBoot code (setRst { s.rst with recoveryReady := false, recoveryImage := [] } s) := by
    show recoveryGo len s = _
    rw [recoveryGo, hready]
    rfl
  clear_value t
  split at ht
  · next h0 => subst ht; rw [if_pos h0]; exact ⟨rfl, rfl, rfl, rfl, rfl⟩
  · next h0 => subst ht; rw [if_neg h0]; exact ⟨rfl, ⟨rfl, rfl⟩, rfl, rfl, rfl⟩

theorem recoveryCtrl_register : alignedAccess (Reg.rstRecoveryCtrl.offset 0 0) 4 = true ∧ Reg.rstRecoveryCtrl.offset 0 0 < 2 ^ 26
    ∧ findReg (Reg.rstRecoveryCtrl.offset 0 0) Reg.list = some (.rstRecoveryCtrl, 0, 0, 0)
    ∧ blockOf (Reg.rstRecoveryCtrl.offset 0 0) = 0x11 := by decide +kernel

/-- GO written on a powered package, which opens the RST block while the boot waits. -/
theorem recoveryCtrl_write (hpow : s.rst.powered = true) (htrip : s.rst.tripped = false) {v : Nat} (hv : v < 2 ^ 32) (hgo : v.testBit 1 = true) :
    ∃ x, writeRegister .pf (Reg.rstRecoveryCtrl.offset 0 0) 4 v s = recoveryGo (v / 256) (rput s .rstRecoveryCtrl 0 0 x) := by
  obtain ⟨hal, hlt, hfind, hblock⟩ := recoveryCtrl_register
  have hopen : blockOpen s (Reg.rstRecoveryCtrl.offset 0 0) = true := by simp [blockOpen, hblock]
  have hplace : placeOf .pf (Reg.rstRecoveryCtrl.offset 0 0) = .register .rstRecoveryCtrl 0 0 0 := by rw [placeOf, hfind]
  have hw : v % 2 ^ (8 * 4) * 2 ^ (8 * 0) = v := by omega
  have hlen : bitsOf v 8 24 = v / 256 := by rw [bitsOf, Nat.shiftRight_eq_div_pow]; omega
  refine ⟨bitsOf (accessWrite Reg.rstRecoveryCtrl.info ((2 ^ (8 * 4) - 1) * 2 ^ (8 * 0)) (rget s .rstRecoveryCtrl) v) 8 24 * 256, ?_⟩
  rw [writeRegister, if_neg (by simp [busAwake, hpow, htrip]), if_neg (Nat.not_le.mpr hlt), if_neg (by simp [hal]), if_pos (by simp), writeUnit]
  rw [hopen, hplace]
  show writeBits .pf .rstRecoveryCtrl 0 0 ((2 ^ (8 * 4) - 1) * 2 ^ (8 * 0)) (v % 2 ^ (8 * 4) * 2 ^ (8 * 0)) s = _
  rw [hw, ← hlen]
  exact if_pos hgo

/-! ### The statement -/

theorem errLast_serves : serves .errLast 8 = true := by decide +kernel

/-- A write of a disabled port's ETH.PORT_CFG. -/
theorem portCfg_write (ha : Awake s) {e v : Nat} (he : e < 8) (hoff : (rget s .ethPortCfg e).testBit 0 = false) (hv : v < 2 ^ 60) :
    writeRegister .pf (Reg.ethPortCfg.offset e 0) 8 v s = rput s .ethPortCfg e 0 (if bitsOf v 1 2 = 3 then setBits v 1 2 0 else v) := by
  rw [writeRegister_wide ha (portCfg_wide he) rfl v]
  exact writePortCfg_disabled hoff (portCfg_bits hv)

/-- The window's answers at the near tier outside pools and tables, and at a hole. -/
theorem bar4Read_near (ha : Awake s) (hsealed : s.sealing.sealed = false) (harmed : s.sealing.armed = false) {off a : Nat} (hoff : off < 2 ^ 32)
    (h : bitsOf (rget s .memDbgBase) 32 14 * 2 ^ 32 + off = a) (hhigh : a + 8 ≤ 2 ^ 39) (hal : a % 8 = 0) (hpool : inPool s a 8 = false)
    (htables : ∀ e ∈ s.rdma.tables, e.2 ≠ a / 2 ^ 30) (hclean : poisonedAt s a = false) (hslots : s.err.slots = []) :
    bar4Read .pf off 8 [] s = reply (leNat (peek s a 8)) s := by
  obtain ⟨h0, h7, hline⟩ := near_word (s := s) hhigh hal
  have hplain : faultyRead [] a 8 s = (.ok (peek s a 8), s) := by
    refine trustedRead_plain (by decide) hslots h0 h7 fun k hk => ?_
    obtain rfl : k = 0 := by omega
    exact hclean
  rw [bar4Read_open ha hsealed harmed hoff h, bar4Shows_near hhigh hpool htables, if_pos rfl, hplain]

theorem bar4Read_poisoned (ha : Awake s) (hsealed : s.sealing.sealed = false) (harmed : s.sealing.armed = false) {off a : Nat} (hoff : off < 2 ^ 32)
    (h : bitsOf (rget s .memDbgBase) 32 14 * 2 ^ 32 + off = a) (hhigh : a + 8 ≤ 2 ^ 39) (hal : a % 8 = 0) (hpool : inPool s a 8 = false)
    (htables : ∀ e ∈ s.rdma.tables, e.2 ≠ a / 2 ^ 30) (hpoison : poisonedAt s a = true) :
    bar4Read .pf off 8 [] s = reply (allOnes 8) (bump s .memPoisonReads) := by
  obtain ⟨h0, h7, hline⟩ := near_word (s := s) hhigh hal
  have hpoisoned : faultyRead [] a 8 s = (.error stPoisoned, bump s .memPoisonReads) := by
    have hp : poisonedAt s (a / 64 * 64) = true := by
      rw [poisonedAt, Nat.mul_div_cancel _ (by decide)]
      exact hpoison
    rw [faultyRead, h0, h7, hline]
    simp [readLines, readLine, hp]
  rw [bar4Read_open ha hsealed harmed hoff h, bar4Shows_near hhigh hpool htables, if_pos rfl, hpoisoned]

theorem bar4Read_hole (ha : Awake s) (hsealed : s.sealing.sealed = false) (harmed : s.sealing.armed = false) {off a : Nat} (hoff : off < 2 ^ 32)
    (h : bitsOf (rget s .memDbgBase) 32 14 * 2 ^ 32 + off = a) (hhole : regionOf s a = .hole) :
    bar4Read .pf off 8 [] s = reply (allOnes 8) s := by
  rw [bar4Read_open ha hsealed harmed hoff h, if_neg (by simp [bar4Shows, hhole])]

/-- Settles O11: the bus serves each access by its register, whose own rule says the rest. -/
theorem specialRegisters : Obligations.SpecialRegisters := by
  refine ⟨fun s ha => ?_, fun s fn n v ha hn hfn hoff hvf hnum hidle h32 h33 => ?_, fun s fn n v ha hn hfn hon hactive hidle h32 h33 => ?_,
    fun s e v ha he hoff hv => ?_, fun s off ha hsealed harmed hoff => ?_, fun s v hpow htrip hready hv hgo => ?_⟩
  · exact congrArg Host.Outcome.next (readRegister_serves ha errLast_serves)
  · obtain ⟨w, hw, hw32, hw33⟩ := adminCfg_write ha hn hfn v
    obtain ⟨x, hx⟩ := writeAdminCfg_enables hoff hvf hnum hidle (hw32.trans h32) (hw33.trans h33)
    refine ⟨_, congrArg Host.Outcome.next ((if_pos hn).trans (hw.trans hx)), ?_, fun i hi => ringOf_setRing_ne _ _ hi, rfl, rfl⟩
    rw [ringOf_setRing_same]
    exact adminRing_enabled n x
  · obtain ⟨w, hw, hw32, hw33⟩ := adminCfg_write ha hn hfn v
    obtain ⟨urgent, regs, hx⟩ := writeAdminCfg_resets hon hactive hidle (hw32.trans h32) (hw33.trans h33)
    exact ⟨_, congrArg Host.Outcome.next ((if_pos hn).trans (hw.trans hx)), ringOf_setRing_same s (n * 64) _,
      fun i hi => ringOf_setRing_ne s _ hi, rfl, rfl⟩
  · exact congrArg Host.Outcome.next ((if_pos he).trans (portCfg_write ha he hoff hv))
  · intro a
    have h : bitsOf (rget s .memDbgBase) 32 14 * 2 ^ 32 + off = a := rfl
    clear_value a
    exact ⟨fun hhigh hal hpool htables hclean hslots =>
        congrArg Host.Outcome.next (bar4Read_near ha hsealed harmed hoff h hhigh hal hpool htables hclean hslots),
      fun hhigh hal hpool htables hpoison =>
        congrArg Host.Outcome.next (bar4Read_poisoned ha hsealed harmed hoff h hhigh hal hpool htables hpoison),
      fun hhole => congrArg Host.Outcome.next (bar4Read_hole ha hsealed harmed hoff h hhole)⟩
  · obtain ⟨x, hx⟩ := recoveryCtrl_write hpow htrip hv hgo
    exact ⟨_, congrArg Host.Outcome.next hx, recoveryGo_verifies (s := rput s .rstRecoveryCtrl 0 0 x) hready (v / 256)⟩

end
end Sys2Proof.Machine

/-! # Resets of the package (O21) -/
namespace Sys2Proof.Machine

section
variable {s : State}

/-! ### What a warm reset leaves before the boot starts (16 R808, R809; 02 R106) -/

/-- A warm reset of a powered package, with the blocks that it ends at their reset values, before the boot starts. -/
def warmed (cause : Nat) (s : State) : State :=
  let s := if pairLive s then sendHeartbeat 7 s else s
  let fell := s.rst.trial && !s.rst.bootDone
  let s := dropHost (abandonTests (warmMemory (warmCadence (revertSectors s))))
  let s := restartLinks (restartSource s)
  let s := bump s .rstWarmCount
  { s with
    regs := s.regs.filter (fun e => !warmBlocks.contains (e.1 / 2 ^ 20))
    rings := { nextSerial := s.rings.nextSerial }
    wake := [], eth := [], scl := {}, lat := [], rdma := {}, pair := {}
    heat := { pools := s.heat.pools }
    pins := { s.pins with fenceReq := false, trayReady := false }
    sealing := { s.sealing with sectors := [], mailboxes := [] }
    rst := { s.rst with
      bootDone := false, halted := false, lastWarm := true, warmCause := cause, chosen := false, trial := false, fallback := false
      bootError := if fell then s.rst.bootError else 0
      recoveryReady := false, recoveryImage := [], sectorResets := [] } }

/-- The boot starts from there, with a fallback where a trial was interrupted. -/
theorem warmReset_eq (cause : Nat) (hpow : s.rst.powered = true) (htrip : s.rst.tripped = false) :
    warmReset cause s = startBoot none (if (if pairLive s then sendHeartbeat 7 s else s).rst.trial
        && !(if pairLive s then sendHeartbeat 7 s else s).rst.bootDone
      then fallBack (warmed cause s).rst.bootError (warmed cause s) else warmed cause s) := by
  rw [warmReset, if_neg (by simp [hpow, htrip])]
  rfl

/-! ### The boot block over the parts of a warm reset -/

theorem sendHeartbeat_rst (st : Nat) (s : State) : (sendHeartbeat st s).rst = s.rst := by
  have hflits : ∀ (l : List Nat) (payload : List Byte) (t : State), (l.foldl (fun s c => emitFlit c 3 0 payload [] s) t).rst = t.rst := by
    intro l payload
    induction l with
    | nil => exact fun _ => rfl
    | cons c l ih => exact fun t => (ih _).trans rfl
  unfold sendHeartbeat
  dsimp only
  split
  · exact hflits ..
  · split
    · exact hflits ..
    · obtain ⟨out, rdma, h⟩ := sendFrame_eq _ _
      rw [h]
      exact hflits ..

theorem foldl_setSector_rst (f : State → Nat → Sector) (l : List Nat) (s : State) :
    (l.foldl (fun s n => setSector n (f s n) s) s).rst = s.rst := by
  induction l generalizing s with
  | nil => rfl
  | cons n l ih => exact (ih _).trans rfl

theorem revertSectors_rst (s : State) : (revertSectors s).rst = s.rst := by
  unfold revertSectors
  split
  · rfl
  · exact foldl_setSector_rst (fun s n => { sectorOf s n with state := .active }) _ s

theorem abandonPage_rst (s : State) : (abandonPage s).rst = s.rst := by
  have hhead (f : Mover → Mover) (t : State) : (changeHead f t).rst = t.rst := by
    unfold changeHead
    split <;> rfl
  have hleaf (pte : Nat) (f : Nat → Nat) (t : State) : (writeLeaf [] pte f t).2.rst = t.rst := by
    unfold writeLeaf
    split
    · rfl
    · exact congrArg Prod.fst (powerView_trustedWrite t pte _)
  unfold abandonPage
  split
  · rfl
  · split
    · split
      · rw [hhead, hleaf]
      · rfl
    · exact hhead ..

/-- The boot block of the package after a warm reset's own part. -/
theorem warmed_rst (cause : Nat) (s : State) : (warmed cause s).rst = { s.rst with
    bootDone := false, halted := false, lastWarm := true, warmCause := cause, chosen := false, trial := false, fallback := false
    bootError := if s.rst.trial && !s.rst.bootDone then s.rst.bootError else 0
    recoveryReady := false, recoveryImage := [], sectorResets := [] } := by
  have hbeat : (if pairLive s then sendHeartbeat 7 s else s).rst = s.rst := by
    split
    · exact sendHeartbeat_rst ..
    · rfl
  have hmem (t : State) : (dropHost (abandonTests (warmMemory (warmCadence (revertSectors t))))).rst = t.rst := by
    show (abandonPage (warmCadence (revertSectors t))).rst = _
    rw [abandonPage_rst]
    exact revertSectors_rst t
  generalize ht : (if pairLive s then sendHeartbeat 7 s else s) = t at hbeat
  have hshape : (warmed cause s).rst = { (dropHost (abandonTests (warmMemory (warmCadence (revertSectors t))))).rst with
      bootDone := false, halted := false, lastWarm := true, warmCause := cause, chosen := false, trial := false, fallback := false
      bootError := if t.rst.trial && !t.rst.bootDone then
        (dropHost (abandonTests (warmMemory (warmCadence (revertSectors t))))).rst.bootError else 0
      recoveryReady := false, recoveryImage := [], sectorResets := [] } := by
    subst ht
    rfl
  rw [hshape, hmem, hbeat]

/-! ### The start of the boot (16 R821; 14 R700, R703, R745) -/

/-- A warm boot without sealed mode, armed or retained, comes to the choice of an image. -/
theorem startBoot_warm (harmed : s.sealing.armed = false) (hretain : s.sealing.retain = false) :
    startBoot none s = selectImage { s with sealing := { s.sealing with udsLocked := true }, rst := { s.rst with pll := s.rst.pll ||| 0x7FFF0 } } := by
  show selectImage (beginScrub _ (sealBoot false _)) = _
  rw [sealBoot, if_pos (by rfl), if_neg (by simp [setRst, setSealing, harmed]), beginScrub, if_neg (by simp [setRst, setSealing, hretain])]
  rfl

/-- What the boot's start leaves of the boot block before the choice of an image: nothing but the locked PLLs. -/
theorem startBoot_none_eq (s : State) : ∃ t, startBoot none s = selectImage t ∧ t.rst = { s.rst with pll := s.rst.pll ||| 0x7FFF0 } := by
  refine ⟨_, rfl, ?_⟩
  have hseal (t : State) : (sealBoot false t).rst = t.rst := by
    unfold sealBoot
    dsimp only
    split <;> [split <;> rfl; exact absurd rfl (by assumption)]
  have hscrub (hbm : Nat) (t : State) : (beginScrub hbm t).rst = t.rst := by
    unfold beginScrub
    split <;> rfl
  rw [hscrub, hseal]
  rfl

theorem bootSlot_rst (b : Bool) (s : State) : (bootSlot b s).rst.warmCause = s.rst.warmCause ∧ (bootSlot b s).rst.fallback = s.rst.fallback
    ∧ (bootSlot b s).rst.trial = s.rst.trial ∧ (bootSlot b s).rst.bootDone = s.rst.bootDone := by
  unfold bootSlot
  split <;> exact ⟨rfl, rfl, rfl, rfl⟩

/-- Without a pending slot the choice of an image starts no trial and leaves the reset's cause and FALLBACK. -/
theorem selectImage_rst (hpend : s.rst.flash.pending = false) :
    (selectImage s).rst.warmCause = s.rst.warmCause ∧ (selectImage s).rst.fallback = s.rst.fallback
    ∧ (selectImage s).rst.trial = s.rst.trial ∧ (selectImage s).rst.bootDone = s.rst.bootDone := by
  unfold selectImage
  dsimp only
  rw [hpend]
  split
  · exact ⟨rfl, rfl, rfl, rfl⟩
  · exact ⟨rfl, rfl, rfl, rfl⟩
  · split
    · exact bootSlot_rst ..
    · exact ⟨rfl, rfl, rfl, rfl⟩
  · split
    · exact ⟨rfl, rfl, rfl, rfl⟩
    · rw [if_neg Bool.false_ne_true]
      exact bootSlot_rst ..

/-! ### A plain warm reset -/

/-- What a warm reset needs to come to the choice of its active image with nothing to put back. -/
structure WarmPlain (s : State) : Prop where
  powered : s.rst.powered = true
  held : s.rst.tripped = false
  trial : s.rst.trial = false
  pair : s.pair.state = .none
  cmd : s.sct.cmd = none
  mover : s.mover = []
  armed : s.sealing.armed = false
  retain : s.sealing.retain = false
  sel : s.rst.straps.bootSel = 0
  readable : s.rst.flash.readable = true
  pending : s.rst.flash.pending = false

/-- The package as such a reset leaves it before the choice of an image. -/
def warmedPlain (cause : Nat) (regs : Table Word64) (s : State) : State :=
  { s with
    regs := regs
    cad := { s.cad with marks := [], taken := [] }
    mem := { (zeroFill s 0x080020000000 0x20000000).mem with caches := [], scrubActive := false, scrubGranule := 0 }
    err := (abandonTests s).err
    pci := { s.pci with fns := [], vfEnable := false, numVfs := 0, linkUp := false, speed := 0, width := 0, flit := false, ide := [] }
    rng := (restartSource s).rng, chord := (restartLinks s).chord
    rings := { nextSerial := s.rings.nextSerial }
    mover := [], wake := [], eth := [], scl := {}, lat := [], rdma := {}, pair := {}
    heat := { pools := s.heat.pools }
    pins := { s.pins with fenceReq := false, trayReady := false }
    sealing := { s.sealing with sectors := [], mailboxes := [], udsLocked := true }
    rst := { s.rst with
      bootDone := false, halted := false, lastWarm := true, warmCause := cause, chosen := false, trial := false, fallback := false
      bootError := 0, recoveryReady := false, recoveryImage := [], sectorResets := [], pll := s.rst.pll ||| 0x7FFF0 } }

theorem bump_eq (s : State) (r : Reg) (i : Nat := 0) : ∃ regs, bump s r i = { s with regs := regs } := ⟨_, rfl⟩

theorem warmCadence_eq (s : State) : ∃ regs, warmCadence s = { s with cad := { s.cad with marks := [], taken := [] }, regs := regs } := ⟨_, rfl⟩

theorem dropHost_eq (s : State) : ∃ regs, dropHost s = { s with
    regs := regs
    pci := { s.pci with fns := [], vfEnable := false, numVfs := 0, linkUp := false, speed := 0, width := 0, flit := false, ide := [] } } :=
  ⟨_, rfl⟩

/-- A plain warm reset's own part. -/
theorem warmed_plain (h : WarmPlain s) (cause : Nat) : ∃ regs, warmed cause s = { warmedPlain cause regs s with
    sealing := { s.sealing with sectors := [], mailboxes := [] }
    rst := { (warmedPlain cause regs s).rst with pll := s.rst.pll } } := by
  have hlive : pairLive s = false := by simp [pairLive, pairFormed, h.pair]
  have hrevert : revertSectors s = s := by rw [revertSectors, h.cmd]
  have habandon : abandonPage (warmCadence s) = warmCadence s := by rw [abandonPage, show (warmCadence s).mover = [] from h.mover]
  obtain ⟨r1, hcad⟩ := warmCadence_eq s
  unfold warmed
  dsimp only
  rw [hlive, if_neg Bool.false_ne_true, hrevert, warmMemory, habandon, h.trial, hcad]
  generalize htests : abandonTests _ = t1
  obtain ⟨r2, hhost⟩ := dropHost_eq t1
  rw [hhost]
  generalize hlinks : restartLinks _ = t2
  obtain ⟨r3, hcount⟩ := bump_eq t2 .rstWarmCount
  rw [hcount]
  subst hlinks htests
  exact ⟨_, rfl⟩

theorem warmReset_plain (h : WarmPlain s) (cause : Nat) :
    ∃ regs, warmReset cause s = bootSlot s.rst.flash.activeB (warmedPlain cause regs s) := by
  have hlive : pairLive s = false := by simp [pairLive, pairFormed, h.pair]
  obtain ⟨regs, hwarmed⟩ := warmed_plain h cause
  refine ⟨regs, ?_⟩
  rw [warmReset_eq cause h.powered h.held, hlive, if_neg Bool.false_ne_true, h.trial, Bool.false_and, if_neg Bool.false_ne_true, hwarmed,
    startBoot_warm (by exact h.armed) (by exact h.retain)]
  exact selectImage_active h.sel h.readable h.pending

/-- The choice of a slot's image leaves everything but the boot block. -/
theorem bootSlot_eq (b : Bool) (s : State) : ∃ r, bootSlot b s = { s with rst := r } ∧ r.warmCause = s.rst.warmCause ∧ r.lastWarm = s.rst.lastWarm
    ∧ r.bootDone = s.rst.bootDone ∧ r.restored = s.rst.restored ∧ r.straps = s.rst.straps ∧ r.flash = s.rst.flash
    ∧ (if imageCheck s.rst.fuses (s.rst.flash.slot b) = 0 then r.chosen = true
        else r.halted = true ∧ r.bootError = imageCheck s.rst.fuses (s.rst.flash.slot b)) := by
  by_cases h : imageCheck s.rst.fuses (s.rst.flash.slot b) = 0
  · refine ⟨_, bootSlot_runs h, rfl, rfl, rfl, rfl, rfl, rfl, ?_⟩
    rw [if_pos h]
    rfl
  · refine ⟨_, bootSlot_halts h, rfl, rfl, rfl, rfl, rfl, rfl, ?_⟩
    rw [if_neg h]
    exact ⟨rfl, rfl⟩

/-- Memory over a plain warm reset: the lattice stores are zero and without poison, the rest stays. -/
theorem warmedPlain_mem (cause : Nat) (regs : Table Word64) (s : State) :
    (∀ a, ¬(0x080020000000 ≤ a ∧ a < 0x080040000000) → cellAt (warmedPlain cause regs s).mem.cells a = cellAt s.mem.cells a)
    ∧ (∀ a, 0x080020000000 ≤ a → a < 0x080040000000 → cellAt (warmedPlain cause regs s).mem.cells a = 0)
    ∧ (∀ l, ¬(0x080020000000 ≤ 64 * l ∧ 64 * l < 0x080040000000) → (l ∈ (warmedPlain cause regs s).mem.poison ↔ l ∈ s.mem.poison)) := by
  have hcells (a : Nat) := cellAt_zeroFill s 0x080020000000 0x20000000 a
  refine ⟨fun a ha => (hcells a).trans (if_neg (by omega)), fun a h1 h2 => (hcells a).trans (if_pos (by omega)), fun l hl => ?_⟩
  show l ∈ s.mem.poison.filter (fun l => l * 64 < 0x080020000000 || 0x080020000000 + 0x20000000 ≤ l * 64) ↔ _
  simp only [List.mem_filter, Bool.or_eq_true, decide_eq_true_eq, and_iff_left_iff_imp]
  omega

/-- The three causes of a warm reset that the statement names run it with their code. -/
theorem exec_warmReset {cmd : Instr} {cause : Nat} (htrial : s.rst.trial = false)
    (h : (cmd = .warmReset .pin ∧ cause = 1) ∨ (cmd = .warmReset (.register .pf 0x15752) ∧ cause = 2) ∨ (cmd = .watchdogExpiry ∧ cause = 3)) :
    exec cmd s = .next (warmReset cause s) := by
  obtain ⟨rfl, rfl⟩ | ⟨rfl, rfl⟩ | ⟨rfl, rfl⟩ := h
  · rfl
  · exact congrArg Host.Outcome.next (by rw [warmRow, if_pos (by decide)])
  · exact congrArg (fun t => Host.Outcome.next (warmReset 3 t)) (by rw [markTrial, if_neg (by simp [htrial])])

/-- A trial that does not reach the end of its boot falls back. -/
theorem trialTimer_fallsBack (htrial : s.rst.trial = true) (hdone : s.rst.bootDone = false) (hpow : s.rst.powered = true)
    (htrip : s.rst.tripped = false) (hpend : s.rst.flash.pending = false) :
    let t := warmReset 3 (markTrial s)
    t.rst.warmCause = 3 ∧ t.rst.fallback = true ∧ t.rst.trial = false ∧ t.rst.bootDone = false := by
  intro t
  have hmark : markTrial s = setRst { s.rst with bootError := 9 } s := by rw [markTrial, if_pos (by simp [htrial, hdone])]
  have hbeat : (if pairLive (markTrial s) then sendHeartbeat 7 (markTrial s) else markTrial s).rst = (markTrial s).rst := by
    split
    · exact sendHeartbeat_rst ..
    · rfl
  obtain ⟨u, hu, hrst⟩ := startBoot_none_eq (fallBack (warmed 3 (markTrial s)).rst.bootError (warmed 3 (markTrial s)))
  have ht : t = selectImage u := by
    rw [← hu]
    refine (warmReset_eq 3 (by rw [hmark]; exact hpow) (by rw [hmark]; exact htrip)).trans ?_
    rw [hbeat, if_pos (by rw [hmark]; simp [setRst, htrial, hdone])]
  rw [fallBack, writeRecord_rst] at hrst
  dsimp only [setRst] at hrst
  rw [warmed_rst, hmark] at hrst
  clear_value t
  subst ht
  obtain ⟨hc, hf, ht, hb⟩ := selectImage_rst (s := u) (by rw [hrst]; exact hpend)
  rw [hc, hf, ht, hb, hrst]
  exact ⟨rfl, rfl, rfl, rfl⟩

/-- The loss of PWR_GOOD holds the whole package in reset. -/
theorem powerFall_eq (hpow : s.rst.powered = true) : powerFall s = { powerCycled s with
    rst := { (powerCycled s).rst with powered := false, tripped := s.rst.tripped }
    pins := { (powerCycled s).pins with thermTrip := s.pins.thermTrip } } := by
  rw [powerFall, if_neg (by simp [hpow])]

/-- Settles O21: a warm reset that finds nothing to put back comes to the choice of the active image over the memory that it keeps. -/
theorem packageResets : Obligations.PackageResets := by
  refine ⟨fun s cmd cause hcmd hpow htrip htrial hpair hsct hmover harmed _ hretain hsel hread hpend => ?_, fun s h => ?_,
    fun s htrial hdone hscrub hpow htrip hpend => ?_, fun s hpow => ?_⟩
  · obtain ⟨regs, hplain⟩ := warmReset_plain ⟨hpow, htrip, htrial, hpair, hsct, hmover, harmed, hretain, hsel, hread, hpend⟩ cause
    obtain ⟨r, hr, hcause, hwarm, hdone, hrest, hstraps, hflash, himage⟩ := bootSlot_eq s.rst.flash.activeB (warmedPlain cause regs s)
    obtain ⟨hkeep, hzero, hpoison⟩ := warmedPlain_mem cause regs s
    refine ⟨{ warmedPlain cause regs s with rst := r }, ?_, hcause, hwarm, hdone, hrest, himage, rfl, rfl, rfl, rfl, rfl, rfl, rfl, rfl, rfl, rfl,
      hstraps, hflash, hkeep, hzero, hpoison⟩
    rw [exec_warmReset htrial hcmd, hplain, hr]
  · exact congrArg Host.Outcome.next (if_neg (by rw [h]; simp))
  · exact ⟨_, congrArg Host.Outcome.next (if_pos (by simp [htrial, hdone, hscrub])), trialTimer_fallsBack htrial hdone hpow htrip hpend⟩
  · exact ⟨_, congrArg Host.Outcome.next (powerFall_eq hpow), rfl, rfl, rfl, rfl, rfl, rfl, rfl, rfl, rfl, rfl, rfl, rfl⟩

end
end Sys2Proof.Machine

/-! # Wake queues as commands and readers see them (O19) -/
namespace Sys2Proof.Machine

section
variable {s : State}

/-! ### A queue read after a change (19 R908, R910) -/

@[simp] theorem wakeOf_setWake_same (s : State) (q : Nat) (w : WakeQ) : wakeOf (setWake s q w) q = w := by
  simp [wakeOf, setWake, Table.getD]

@[simp] theorem wakeOf_setWake_ne (s : State) {p q : Nat} (w : WakeQ) (h : p ≠ q) : wakeOf (setWake s q w) p = wakeOf s p := by
  simp [wakeOf, setWake, Table.getD, Table.find_put_ne _ _ h]

/-- A command that begins and is done at once. -/
theorem beginCommand_done {ring op st r0 r1 : Nat} {c : Cmd} {body : Cmd → State → Body} {t : State} (hb : Begins s ring op c)
    (hdone : body c s = .ok (.done st r0 r1 t)) : beginCommand op ring body s = finish c.serial st r0 r1 t := by
  obtain ⟨hnext, hop, hgate⟩ := hb
  rw [beginCommand_begins op body hnext hop hgate, hdone]
  rfl

/-- The closed words of a queue, the oldest first. -/
def WakeQ.stored (w : WakeQ) : List WideWord := w.older.words ++ w.filling.words

theorem takeWide_none {w : WakeQ} (h : w.stored = []) : takeWide w = none := by
  obtain ⟨hold, hfill⟩ := List.append_eq_nil_iff.mp h
  simp [takeWide, hold, hfill]

/-- The oldest stored word is taken. -/
theorem takeWide_some {w : WakeQ} {x : WideWord} {rest : List WideWord} (h : w.stored = x :: rest) :
    ∃ w', takeWide w = some (x, w') ∧ w'.stored = rest ∧ w'.lastEop = some x.eop := by
  unfold WakeQ.stored at h
  unfold takeWide
  split
  next y t hold =>
    rw [hold, List.cons_append, List.cons.injEq] at h
    obtain ⟨rfl, rfl⟩ := h
    refine ⟨_, rfl, ?_, rfl⟩
    cases t <;> rfl
  next hold =>
    rw [hold, List.nil_append] at h
    rw [h]
    refine ⟨_, rfl, ?_, rfl⟩
    unfold WakeQ.stored
    cases rest <;> simp [hold]

/-! ### WAKE_CONFIG (19 R919, R920, R978) -/

/-- A permitted WAKE_CONFIG sets the queue's fields, emptied first for another kind or RESET. -/
theorem wakeConfigBody_sets {c : Cmd} {q : Nat} (hq : c.param 24 1 = q) (hlt : q < 64) (hperm : wakePermitted c q s = true)
    (hkind : c.param 25 1 ≤ 2) (hflags : c.param 26 1 < 4) (hres : c.reserved [(32, 64)] = true)
    (hperiod : c.param 25 1 = 1 → 1 ≤ c.param 28 4 ∧ c.param 28 4 ≤ 65536) (hlog : c.param 25 1 = 2 → c.viaPf = true)
    (hlast : q = 63 → c.param 25 1 = 2) :
    let t := if (c.param 26 1).testBit 1 || (wakeOf s q).kind ≠ c.param 25 1 then emptyWake q s else s
    wakeConfigBody c s = .ok (.done stOk 0 0 (setWake t q { wakeOf t q with
      kind := c.param 25 1, emptyMode := (c.param 26 1).testBit 0, perfSelect := if c.param 25 1 = 1 then c.param 27 1 else 0
      period := if c.param 25 1 = 1 then c.param 28 4 else 0 })) := by
  subst hq
  unfold wakeConfigBody
  dsimp only
  rw [need_bind_of (by simp [hlt, hkind, hflags, hres]), need_bind_of (by simpa [imp_iff_not_or] using hperiod),
    need_bind_of (by simpa [hperm, imp_iff_not_or] using hlog), need_bind_of (by simpa [imp_iff_not_or] using hlast)]

/-- An emptied queue keeps its kind and its settings alone, with nothing lost. -/
theorem emptyWake_shows (q : Nat) (s : State) :
    wakeOf (emptyWake q s) q = { kind := (wakeOf s q).kind, emptyMode := (wakeOf s q).emptyMode, perfSelect := (wakeOf s q).perfSelect
                                 period := (wakeOf s q).period }
    ∧ rget (emptyWake q s) .wakeLost q = 0 ∧ ∀ p, p ≠ q → wakeOf (emptyWake q s) p = wakeOf s p :=
  ⟨wakeOf_setWake_same .., rget_rput_same .., fun _ hp => wakeOf_setWake_ne _ _ hp⟩

/-! ### WAKE_DRAIN (19 R921, R978) -/

/-- Wide words as host writes to consecutive slots. -/
def hostWords (n dest : Nat) (ws : List WideWord) : List Emit :=
  (List.range ws.length).map (fun i => Emit.hostWrite (.vf n) (dest + 32 * i) (wideBytes (ws.getD i ⟨[], false, false, 0⟩)))

theorem hostWords_cons (n dest : Nat) (x : WideWord) (ws : List WideWord) :
    hostWords n dest (x :: ws) = Emit.hostWrite (.vf n) dest (wideBytes x) :: hostWords n (dest + 32) ws := by
  unfold hostWords
  rw [List.length_cons, List.range_succ_eq_map, List.map_cons, List.map_map]
  congr 1
  refine List.map_congr_left fun i _ => ?_
  simp only [Function.comp_apply, Nat.succ_eq_add_one, List.getD_cons_succ]
  congr 1
  omega

/-- What a drain to unsealed host memory does with the words `ws` that it takes out of a queue. -/
structure Drained (n q dest : Nat) (ws : List WideWord) (s t : State) : Prop where
  out : t.out = s.out ++ hostWords n dest ws
  stored : (wakeOf t q).stored = (wakeOf s q).stored.drop ws.length
  others : ∀ p, p ≠ q → wakeOf t p = wakeOf s p
  kept : ∃ out wake, t = { s with out := out, wake := wake }

theorem Drained.none (n q dest : Nat) (s : State) : Drained n q dest [] s s :=
  ⟨(List.append_nil _).symm, rfl, fun _ _ => rfl, _, _, rfl⟩

/-- One word more at the front. -/
theorem Drained.cons {n q dest : Nat} {x : WideWord} {ws : List WideWord} {w : WakeQ} {t : State} (hw : (wakeOf s q).stored = x :: w.stored)
    (h : Drained n q (dest + 32) ws (setWake (emit (.hostWrite (.vf n) dest (wideBytes x)) s) q w) t) : Drained n q dest (x :: ws) s t := by
  obtain ⟨hout, hstored, hothers, out, wake, hkept⟩ := h
  refine ⟨?_, ?_, fun p hp => (hothers p hp).trans (wakeOf_setWake_ne _ _ hp), out, wake, hkept⟩
  · rw [hout, hostWords_cons]
    show (s.out ++ [_]) ++ _ = _
    rw [List.append_assoc, List.singleton_append]
  · rw [hstored, wakeOf_setWake_same, hw]
    rfl

/-- How many of at most `k` words a drain may write before the host port cannot perform one. -/
def writable (refused : Option Nat) (done k : Nat) : Nat := (refused.map (· - done)).getD k

/-- A drain without FLUSH writes the oldest words up to the refused one, and takes them out. -/
theorem drainWords_writes (faults : List LineFault) (refused : Option Nat) (n q : Nat) :
    ∀ (k dest done : Nat) (s : State), s.sealing.sealed = false → s.pci.linkUp = true → (∀ r, refused = some r → done ≤ r) →
      let offered := (wakeOf s q).stored.take k
      let ws := offered.take (writable refused done k)
      ∃ t, drainWords faults refused n false q false k dest done s
          = (if ws.length < offered.length then stHwFault else stOk, done + ws.length, t) ∧ Drained n q dest ws s t := by
  intro k
  induction k with
  | zero => exact fun dest done s _ _ _ => ⟨s, by simp [drainWords], by simpa using Drained.none n q dest s⟩
  | succ k ih =>
    intro dest done s hsealed hlink hdone offered ws
    match hstored : (wakeOf s q).stored with
    | [] =>
      refine ⟨s, ?_, ?_⟩
      · simp [drainWords, takeWide_none hstored, ws, offered, hstored]
      · simpa [ws, offered, hstored] using Drained.none n q dest s
    | x :: rest =>
      obtain ⟨w, htake, hrest, -⟩ := takeWide_some hstored
      by_cases hrefused : refused = some done
      · refine ⟨s, ?_, ?_⟩
        · simp [drainWords, htake, hrefused, ws, offered, hstored, writable]
        · simpa [ws, offered, hstored, hrefused, writable] using Drained.none n q dest s
      · have hnext : ∀ r, refused = some r → done + 1 ≤ r := fun r hr =>
          Nat.lt_of_le_of_ne (hdone r hr) fun he => hrefused (he ▸ hr)
        obtain ⟨t, ht, hdrained⟩ := ih (dest + 32) (done + 1) (setWake (emit (.hostWrite (.vf n) dest (wideBytes x)) s) q w) hsealed hlink hnext
        rw [wakeOf_setWake_same, hrest] at ht hdrained
        have hwritable : writable refused done (k + 1) = writable refused (done + 1) k + 1 := by
          cases refused with
          | none => rfl
          | some r =>
            have := hnext r rfl
            simp only [writable, Option.map_some, Option.getD_some]
            omega
        have hws : ws = x :: (rest.take k).take (writable refused (done + 1) k) := by
          simp only [ws, offered, hstored, hwritable, List.take_succ_cons]
        refine ⟨t, ?_, ?_⟩
        · have hwrite : hostWrite n dest (wideBytes x) s = .ok (emit (.hostWrite (.vf n) dest (wideBytes x)) s) := by
            simp [hostWrite, hsealed, hlink]
          simp only [drainWords, Bool.false_and, Bool.false_eq_true, if_false, htake, if_neg hrefused, hwrite, ht]
          simp only [hws, offered, hstored, List.take_succ_cons, List.length_cons, Nat.add_lt_add_iff_right]
          congr 2
          omega
        · rw [hws]
          exact .cons (hstored.trans (by rw [hrest])) hdrained

/-- WAKE_DRAIN to host memory, unsealed and without FLUSH. -/
theorem wakeDrainBody_plain {faults : List LineFault} {refused : Option Nat} {c : Cmd} (hlt : c.param 24 1 < 64)
    (hperm : wakePermitted c (c.param 24 1) s = true) (hflags : c.param 25 1 = 0) (hres : c.reserved [(26, 28), (40, 64)] = true)
    (hmin : 1 ≤ c.param 28 4) (hmax : c.param 28 4 ≤ 1024) (hal : c.param 32 8 % 32 = 0) (hsealed : s.sealing.sealed = false) :
    wakeDrainBody faults refused c s
      = (let r := drainWords faults refused (c.ring / 64) false (c.param 24 1) false (c.param 28 4) (c.param 32 8) 0 s
         .ok (.done r.1 r.2.1 0 r.2.2)) := by
  unfold wakeDrainBody
  dsimp only
  rw [need_bind_of (by simp [hlt, hflags, hmin, hmax, hal, hres]), need_bind_of (by simp [hflags]), need_bind_of hperm,
    need_bind_of (by simp [hflags, hostAllowed, hsealed]), if_neg (by simp [hsealed]), hflags]
  rfl

/-! ### DROP_PACKET (19 R923) -/

/-- The rest of a packet whose end is stored. -/
theorem packetRest_ended {pre post : List WideWord} {x : WideWord} (hpre : ∀ y ∈ pre, y.sop = false ∧ y.eop = false) (hsop : x.sop = false)
    (heop : x.eop = true) : packetRest (pre ++ x :: post) = (pre.length + 1, true) := by
  induction pre with
  | nil => simp [packetRest, hsop, heop]
  | cons y pre ih =>
    obtain ⟨hy, hys⟩ := List.forall_mem_cons.mp hpre
    simp [packetRest, hy.1, hy.2, ih hys]

theorem dropBank_words (b : Bank) (k : Nat) : (dropBank b k).words = b.words.drop k := by
  unfold dropBank
  split
  next h => rw [List.drop_eq_nil_of_le h]
  · rfl

/-- A packet whose end is stored goes up to that word, and nothing else changes. -/
theorem dropPacket_ended {w : WakeQ} {k : Nat} (hrest : packetRest w.stored = (k + 1, true)) :
    ∃ w', dropPacket w = (k + 1, w') ∧ w'.stored = w.stored.drop (k + 1) ∧ w'.partialWords = w.partialWords ∧ w'.nextSeq = w.nextSeq := by
  have hdrop : dropPacket w = (k + 1, { w with
      older := if w.older.words = [] then w.older else dropBank w.older (k + 1)
      filling := if w.older.words.length < k + 1 then dropBank w.filling (k + 1 - w.older.words.length) else w.filling }) := by
    rw [dropPacket, show w.older.words ++ w.filling.words = w.stored from rfl, hrest]
    rfl
  refine ⟨_, hdrop, ?_, rfl, rfl⟩
  unfold WakeQ.stored
  dsimp only
  rw [List.drop_append]
  congr 1
  · split
    next h => simp [h]
    · exact dropBank_words ..
  · split
    · exact dropBank_words ..
    next h => rw [Nat.sub_eq_zero_of_le (Nat.not_lt.mp h), List.drop_zero]

/-! ### POP and PERF_SAMPLE (19 R913-R918, R928, R929) -/

/-- A pop through the physical function of a queue that it may read. -/
theorem wakePop_pf {q size : Nat} (hq : q < 64) (hsize : size = 4 ∨ size = 8) (hboot : s.rst.bootDone = true) (hsealed : s.sealing.sealed = false) :
    wakePop .pf q size s = reply (leNat ((popWake (wakeOf s q) s.cad.stroke).1.take size)) (setWake s q
      { (popWake (wakeOf s q) s.cad.stroke).2 with
        latches := Table.put (popWake (wakeOf s q) s.cad.stroke).2.latches 0 (popWake (wakeOf s q) s.cad.stroke).1 }) := by
  have hreach : wakeReaches s q .pf = true := rfl
  simp only [wakePop, show ¬ 64 ≤ q by omega, hboot, hsealed, hreach]
  rcases hsize with rfl | rfl <;> rfl

/-- Settles O19: each command of the class and each read sets its queue as said, and the drain by induction on the words it may take. -/
theorem wakeQueues : Obligations.WakeQueues := by
  refine ⟨fun s ring c q hq hlt hperm => ⟨fun hb hkind hflags hres hperiod hlog hlast hnew => ?_,
      fun hb hkind hflags hle hres hperiod hlog hlast => ?_, fun hb hflags hres hmin hmax hal hsealed hlink faults refused => ?_,
      fun hb hres hlast pre post x hpre hsop heop hwords => ?_⟩,
    fun s q size hq hsize hboot hsealed => ⟨fun x rest hwords => ?_, fun hold hfill hpart hmode => ?_⟩,
    fun s q src counts hq hsrc hkind hsel hsealed harmed hperiod hstroke => ?_⟩
  · have hbody := wakeConfigBody_sets hq hlt hperm hkind hflags hres hperiod hlog hlast
    dsimp only at hbody
    rw [if_pos (by simpa using hnew)] at hbody
    obtain ⟨hempty, hlost, hothers⟩ := emptyWake_shows q s
    refine ⟨_, congrArg Host.Outcome.next (beginCommand_okWith hb hbody), ?_, hlost, fun p hp => ?_, rfl, rfl, rfl, rfl⟩
    · rw [wakeOf_setWake_same, hempty]
    · rw [wakeOf_setWake_ne _ _ hp, hothers p hp]
  · have hbody := wakeConfigBody_sets hq hlt hperm hle (by omega) hres hperiod hlog hlast
    have hreset : (c.param 26 1).testBit 1 = false := Nat.testBit_lt_two_pow hflags
    dsimp only at hbody
    rw [if_neg (by simp [hreset, hkind]), ← hkind] at hbody
    rw [← hkind]
    exact congrArg Host.Outcome.next (beginCommand_okWith hb hbody)
  · subst hq
    obtain ⟨t, hdrain, hout, hstored, hothers, out, wake, hkept⟩ :=
      drainWords_writes faults refused (c.ring / 64) (c.param 24 1) (c.param 28 4) (c.param 32 8) 0 s hsealed hlink (fun _ _ => Nat.zero_le _)
    have hws : ((wakeOf s (c.param 24 1)).stored.take (c.param 28 4)).take (writable refused 0 (c.param 28 4))
        = ((wakeOf s (c.param 24 1)).stored.take (c.param 28 4)).take (refused.getD 1024) := by
      cases refused with
      | some r => rfl
      | none =>
        simp only [writable, Option.map_none, Option.getD_none]
        rw [List.take_of_length_le (List.length_take_le ..), List.take_of_length_le ((List.length_take_le ..).trans hmax)]
    have hbody := wakeDrainBody_plain (faults := faults) (refused := refused) hlt hperm hflags hres hmin hmax hal hsealed
    rw [hdrain] at hbody
    rw [hws] at hbody hout hstored
    rw [Nat.zero_add] at hbody
    subst hkept
    exact ⟨_, _, _, congrArg Host.Outcome.next (beginCommand_done hb hbody), rfl, rfl, hout, hstored, hothers, rfl, rfl, rfl, rfl⟩
  · have hstored : (wakeOf s q).stored = pre ++ x :: post := hwords
    obtain ⟨w, hdrop, hleft, hpart, hseq⟩ := dropPacket_ended (by rw [hstored]; exact packetRest_ended hpre hsop heop)
    refine ⟨w, congrArg Host.Outcome.next (beginCommand_okWith hb ?_), ?_, hpart, hseq⟩
    · subst hq
      unfold dropPacketBody
      dsimp only
      rw [need_bind_of (by simp [hlt, hres]), need_bind_of hperm, need_bind_of (by simp [hlast]), hdrop]
    · show w.stored = post
      rw [hleft, hstored]
      simp
  · obtain ⟨w, htake, hrest, hlast⟩ := takeWide_some hwords
    have hpop : popWake (wakeOf s q) s.cad.stroke = (wideBytes x, w) := by rw [popWake, htake]
    have hread := wakePop_pf hq hsize hboot hsealed
    rw [hpop] at hread
    exact ⟨_, congrArg Host.Outcome.next hread, hrest, hlast, Table.find_put_same ..⟩
  · have hpop : popWake (wakeOf s q) s.cad.stroke = (padTo 28 [] ++ leBytes 4 ((wakeOf s q).nextSeq * 2 ^ 16), wakeOf s q) := by
      rw [popWake, takeWide_none (by simp [WakeQ.stored, hold, hfill]), if_pos hpart]
      simp [emptyItem, hmode]
    have hzero : leNat ((padTo 28 [] ++ leBytes 4 ((wakeOf s q).nextSeq * 2 ^ 16)).take size) = 0 := by
      rcases hsize with rfl | rfl <;> rfl
    have hread := wakePop_pf hq hsize hboot hsealed
    rw [hpop, hzero] at hread
    exact congrArg Host.Outcome.next hread
  · have hsample : perfSample q counts s = _ := if_neg (by simp [hkind, hsealed, harmed, hperiod, hstroke]; omega)
    rw [hsel, bitList_two_pow hsrc] at hsample
    exact congrArg Host.Outcome.next hsample

end
end Sys2Proof.Machine

/-! # Targeted self-tests (O23) -/
namespace Sys2Proof.Machine

section
variable {s : State}

/-! ### What records leave of tests and retirements (17 R846-R866) -/

/-- `t` is `s` with error records written: running tests, retirements, used rows and the counters of tests are kept. -/
structure TestKept (s t : State) : Prop where
  recorded : Recorded s t
  running : t.err.running = s.err.running
  retired : t.err.retired = s.err.retired
  toList : t.err.toList = s.err.toList
  rows : t.err.rowsUsed = s.err.rowsUsed
  counts : ∀ r, r = .errTests ∨ r = .errPersistent ∨ r = .errTransient → rget t r = rget s r

theorem TestKept.ite {s t u : State} {p : Prop} [Decidable p] (ht : TestKept s t) (hu : TestKept s u) : TestKept s (if p then t else u) := by
  split <;> assumption

/-- A counter of the ERR block that is none of tests raised. -/
theorem TestKept.bump {s t : State} (h : TestKept s t) {r : Reg} (hr : 0x1300000 ≤ r.info.off)
    (hne : ∀ q, q = Reg.errTests ∨ q = .errPersistent ∨ q = .errTransient → q.offset 0 0 ≠ r.offset 0 0) : TestKept s (bump t r) :=
  ⟨h.recorded.bump hr 0, h.running, h.retired, h.toList, h.rows, fun q hq => (rget_bump_ne t (hne q hq)).trans (h.counts q hq)⟩

theorem testCounter_offset_ne {r : Reg} (h : r = .errLost ∨ r = .errCorrected ∨ r = .errUncorrected ∨ r = .errFatal) :
    ∀ q, q = Reg.errTests ∨ q = .errPersistent ∨ q = .errTransient → q.offset 0 0 ≠ r.offset 0 0 := by
  rintro q (rfl | rfl | rfl) <;> rcases h with rfl | rfl | rfl | rfl <;> decide

theorem wakePush_testKept {s t : State} (h : TestKept s t) (ws : List (Word32 × Bool × Bool)) : TestKept s (wakePush 63 ws t) := by
  have hcounts (q : Reg) (hq : q = .errTests ∨ q = .errPersistent ∨ q = .errTransient) : rget (wakePush 63 ws t) q = rget s q := by
    refine (wakePush_rget ?_).trans (h.counts q hq)
    rcases hq with rfl | rfl | rfl <;> decide
  have hrec := h.recorded.wakePush 63 ws
  obtain ⟨regs, wake, heq⟩ := wakePush_eq 63 ws t
  rw [heq] at hrec hcounts ⊢
  exact ⟨hrec, h.running, h.retired, h.toList, h.rows, hcounts⟩

theorem writeRecord_testKept (r : Rec) (s : State) : TestKept s (writeRecord r s) := by
  unfold writeRecord
  split
  · have hlost : TestKept s { s with err := { s.err with lostBefore := true } } :=
      ⟨⟨rfl, rfl, rfl, rfl, fun _ _ => rfl⟩, rfl, rfl, rfl, rfl, fun _ _ => rfl⟩
    exact hlost.bump (by decide) (testCounter_offset_ne (.inl rfl))
  · extract_lets seq shown pub full old err s1 s2 pins s3
    clear_value pub full
    have h1 : TestKept s s1 := ⟨⟨rfl, rfl, rfl, rfl, fun _ _ => rfl⟩, rfl, rfl, rfl, rfl, fun _ _ => rfl⟩
    have h2 : TestKept s s2 := .ite (wakePush_testKept h1 _) h1
    clear_value s2
    have h3 : TestKept s s3 := .ite
      ⟨⟨h2.recorded.cad, h2.recorded.mem, h2.recorded.sct, h2.recorded.rings, h2.recorded.below⟩, h2.running, h2.retired, h2.toList, h2.rows, h2.counts⟩ h2
    clear_value s3
    exact .ite (h3.bump (by decide) (testCounter_offset_ne (.inr (.inl rfl))))
      (.ite (h3.bump (by decide) (testCounter_offset_ne (.inr (.inr (.inl rfl)))))
        (.ite (h3.bump (by decide) (testCounter_offset_ne (.inr (.inr (.inr rfl))))) h3))

/-! ### The end of a test (17 R857-R863, R871) -/

/-- The state at the end of a test, with the test gone and counted. -/
def testGone (t : SelfTest) (s : State) : State :=
  bump { s with err := { s.err with running := s.err.running.filter (fun u => u.res ≠ t.res) } } .errTests

/-- A resource that is no engine and no annulus stays as it is. -/
theorem releaseResource_of_ne {r : Res} (h5 : r.kind ≠ 5) (h11 : r.kind ≠ 11) (s : State) : releaseResource r s = s := by
  unfold releaseResource
  split
  next h => exact absurd h h5
  next h => exact absurd h h11
  · rfl

/-- A test that passes with transients below the limit. -/
theorem endTest_passed {t : SelfTest} (hkind : t.res.kind = 2) (hforced : t.forced = false) (href : t.ref ≠ 0) (hcounted : t.counted = 0)
    (hlimit : (noteTransient t.res (testGone t s)).1 < repeatLimit (noteTransient t.res (testGone t s)).2) :
    ∃ passed, endTest t false s = kickMoves (finishAll t.joined stOk 0 0
      (let u := followUp t 2 0 (bump (noteTransient t.res (testGone t s)).2 .errTransient)
       { u with err := { u.err with passed := passed } })) := by
  have hnot : countTransients t (testGone t s) = (false, (noteTransient t.res (testGone t s)).2) := by
    simp [countTransients, hcounted, href, List.range_succ, Nat.not_le.mpr hlimit]
  unfold endTest
  dsimp only
  rw [show bump _ .errTests = testGone t s from rfl, hforced, hnot]
  simp only [Bool.or_self, Bool.false_eq_true, if_false, Bool.false_and, hkind, show ¬ (2 : Nat) = 11 by decide]
  rw [releaseResource_of_ne (by omega) (by omega)]
  exact ⟨_, rfl⟩

/-- One more spare row of an HBM channel in use. -/
def useRow (k : Nat) (s : State) : State :=
  { s with err := { s.err with rowsUsed := Table.put s.err.rowsUsed k (Table.getD s.err.rowsUsed k 0 + 1) } }

/-- A failed acting test of an HBM row with a spare row left. -/
theorem endTest_row {t : SelfTest} (hkind : t.res.kind = 1) (hacts : t.acts = true)
    (hrows : Table.getD s.err.rowsUsed t.res.index 0 < 32) :
    endTest t true s = kickMoves (finishAll t.joined stOk 257 0 (retireRecord t.res 1 t.ref t.sector t.addr t.injected (followUp t 3 1
      (useRow t.res.index (bump (testGone t s) .errPersistent))))) := by
  have hact : actAny t.res t.injected (bump (testGone t s) .errPersistent) = (1, useRow t.res.index (bump (testGone t s) .errPersistent)) := by
    simp only [actAny, hkind, actMemory, if_true]
    exact if_pos hrows
  unfold endTest
  dsimp only
  rw [show bump _ .errTests = testGone t s from rfl]
  simp only [Bool.true_or, if_true, Bool.true_and, hacts, hact]
  rfl

/-! ### What the end of a test leaves (17 R862, R863, R866) -/

theorem testGone_counts (t : SelfTest) (s : State) : countedOne (testGone t s) s .errTests := bump_counts ..

theorem running_gone {t : SelfTest} {pre post : List SelfTest} (hrun : s.err.running = pre ++ t :: post) (hne : ∀ u ∈ pre ++ post, u.res ≠ t.res) :
    (testGone t s).err.running = pre ++ post := by
  show s.err.running.filter (fun u => u.res ≠ t.res) = _
  have hkeep (l : List SelfTest) (h : ∀ u ∈ l, u.res ≠ t.res) : l.filter (fun u => decide (u.res ≠ t.res)) = l :=
    List.filter_eq_self.mpr fun u hu => by simpa using h u hu
  rw [hrun, List.filter_append, List.filter_cons_of_neg (by simp), hkeep pre fun u hu => hne u (List.mem_append_left _ hu),
    hkeep post fun u hu => hne u (List.mem_append_right _ hu)]

/-- The running test of a resource is the one in the list. -/
theorem testEnd_ends {t : SelfTest} {pre post : List SelfTest} (hrun : s.err.running = pre ++ t :: post)
    (hne : ∀ u ∈ pre ++ post, u.res ≠ t.res) (hkind : t.res.kind ≠ 5) (failed : Bool) : testEnd t.res failed s = endTest t failed s := by
  have hfind : s.err.running.find? (fun u => decide (u.res = t.res)) = some t := by
    rw [hrun, List.find?_append, List.find?_eq_none.mpr fun u hu => by simpa using hne u (List.mem_append_left _ hu)]
    simp
  rw [testEnd, hfind]
  exact if_pos (by simp [mayEnd, hkind])

theorem kickMoves_eq (s : State) : ∃ rst, kickMoves s = { s with rst := rst } := ⟨_, rfl⟩

/-- Completing commands and waking power moves leaves the blocks, and the joined running commands are done. -/
theorem kickMoves_finishAll (l : List Nat) (st r0 r1 : Nat) (s : State) :
    (∃ rings rst, kickMoves (finishAll l st r0 r1 s) = { s with rings := rings, rst := rst })
    ∧ ∀ i, ∀ c ∈ (ringOf s i).inflight, c.phase = .running → c.serial ∈ l →
        { c with phase := .done st r0 r1 } ∈ (ringOf (kickMoves (finishAll l st r0 r1 s)) i).inflight := by
  refine ⟨?_, fun i c hc hrun hl => done_mem_finishAll hc hrun hl st r0 r1⟩
  obtain ⟨rings, h⟩ := finishAll_eq l st r0 r1 s
  exact ⟨rings, _, by rw [h]; rfl⟩

/-- A retirement's record and its entry. -/
theorem retireRecord_eq (r : Res) (ref sector addr : Nat) (s : State) : ∃ u, TestKept s u ∧
    retireRecord r 1 ref sector addr false s = { u with err := { u.err with
      retired := u.err.retired ++ [{ kind := r.kind, index := r.index, action := 1, addr := (match r.lane with | some l => l | none => r.addr) }]
      toList := u.err.toList ++ [{ kind := r.kind, index := r.index, action := 1, addr := (match r.lane with | some l => l | none => r.addr) }] } } :=
  ⟨_, writeRecord_testKept _ s, rfl⟩

/-- A first queued test that may start is the one found. -/
theorem testStart_starts {pre post : List SelfTest} {t : SelfTest} (dead : Bool) (hroom : s.err.running.length < 8)
    (hqueued : s.err.queued = pre ++ t :: post) (hpre : ∀ u ∈ pre, mayStart s u = false) (hmay : mayStart s t = true)
    (hne : ∀ u ∈ pre ++ post, u.res ≠ t.res) :
    testStart dead s = holdResource t.res { s with err := { s.err with
      queued := pre ++ post, running := s.err.running ++ [{ t with forced := t.forced || dead }] } } := by
  have hfind : s.err.queued.find? (mayStart s) = some t := by
    rw [hqueued, List.find?_append, List.find?_eq_none.mpr fun u hu => by simp [hpre u hu]]
    simp [hmay]
  have hkeep (l : List SelfTest) (h : ∀ u ∈ l, u.res ≠ t.res) : l.filter (fun u => decide (u.res ≠ t.res)) = l :=
    List.filter_eq_self.mpr fun u hu => by simpa using h u hu
  have hfilter : s.err.queued.filter (fun u => decide (u.res ≠ t.res)) = pre ++ post := by
    rw [hqueued, List.filter_append, List.filter_cons_of_neg (by simp), hkeep pre fun u hu => hne u (List.mem_append_left _ hu),
      hkeep post fun u hu => hne u (List.mem_append_right _ hu)]
  rw [testStart, if_neg (by omega), hfind]
  dsimp only
  rw [hfilter]

theorem holdResource_of_ne {r : Res} (h5 : r.kind ≠ 5) (h6 : r.kind ≠ 6) (h11 : r.kind ≠ 11) (s : State) : holdResource r s = s := by
  unfold holdResource
  split
  next h => exact absurd h h5
  next h => exact absurd h h6
  next h => exact absurd h h11
  · rfl

/-- SELFTEST_RUN of a resource without a test queues one that the command waits for. -/
theorem selftestRunBody_queues {c : Cmd} {r : Res} (hres : namedRes s (c.param 24 1) (c.param 26 2) (c.param 28 8) = some r)
    (hretire : c.param 25 1 ≤ 1) (hzero : c.reserved [(36, 64)] = true) (hin : resRetired s (c.param 24 1) (c.param 26 2) = false)
    (hon : resOff s (c.param 24 1) (c.param 26 2) = false) (hnone : ∀ t ∈ s.err.running ++ s.err.queued, sameRes t.res r = false)
    (hroom : s.err.queued.length < 256) :
    selftestRunBody c s = .ok (.running { s with err := { s.err with queued := s.err.queued ++
      [{ res := r, sector := resOwner s r, addr := r.addr, acts := (c.param 25 1).testBit 0, joined := [c.serial] }] } }) := by
  have hfind : (s.err.running ++ s.err.queued).find? (fun t => sameRes t.res r) = none :=
    List.find?_eq_none.mpr fun t ht => by simp [hnone t ht]
  unfold selftestRunBody
  simp only [hres]
  rw [need_bind_of (by simp [hretire, hzero]), need_bind_of (by simp [hin]), need_bind_of (by simp [hon]), hfind]
  dsimp only
  rw [need_bind_of (by simpa using hroom), queueTest, if_pos hroom]

/-- The transients noted with a test are those of its resource: the test's own end changes neither the window nor the limit. -/
theorem noteTransient_gone (t : SelfTest) (s : State) : (noteTransient t.res (testGone t s)).1 = (noteTransient t.res s).1
    ∧ repeatLimit (noteTransient t.res (testGone t s)).2 = repeatLimit s := by
  have hcfg : rget (testGone t s) .errCfg = rget s .errCfg := rget_bump_ne _ (by decide)
  have hlimit : repeatLimit (noteTransient t.res (testGone t s)).2 = bitsOf (rget (testGone t s) .errCfg) 0 4 := rfl
  refine ⟨?_, by rw [hlimit, hcfg]; rfl⟩
  simp only [noteTransient, rfield, hcfg]
  rfl

/-- Settles O23: a test is queued, started and ended as its lists say, its end being one equation for each outcome, and its records keep
the rest. -/
theorem selfTests : Obligations.SelfTests := by
  refine ⟨fun s ring c r hb hres hretire hzero hin hon hnone hroom => ?_,
    fun s dead pre post t hroom hqueued hpre hmay hne h5 h6 h11 => ?_,
    fun s pre post t hrun hne => ⟨fun hkind hforced href hcounted hlimit => ?_, fun hkind hacts hinj hrows => ?_⟩, fun s => rfl⟩
  · exact congrArg Host.Outcome.next (beginCommand_runs hb (selftestRunBody_queues hres hretire hzero hin hon hnone hroom))
  · exact congrArg Host.Outcome.next ((testStart_starts dead hroom hqueued hpre hmay hne).trans (holdResource_of_ne h5 h6 h11 _))
  · obtain ⟨hsame, hrepeat⟩ := noteTransient_gone t s
    obtain ⟨passed, hend⟩ := endTest_passed hkind hforced href hcounted (by rw [hsame, hrepeat]; exact hlimit)
    generalize hv : bump (noteTransient t.res (testGone t s)).2 .errTransient = v at hend
    have hkept : TestKept v (followUp t 2 0 v) := writeRecord_testKept ..
    obtain ⟨⟨rings, rst, heq⟩, hdone⟩ := kickMoves_finishAll t.joined stOk 0 0
      { followUp t 2 0 v with err := { (followUp t 2 0 v).err with passed := passed } }
    have htests : rget v .errTests = rget (testGone t s) .errTests := by
      rw [← hv]
      exact rget_bump_ne _ (by decide)
    have htransient : rget v .errTransient % 2 ^ 32 = min (rget s .errTransient % 2 ^ 32 + 1) (2 ^ 32 - 1) := by
      have hold : rget (noteTransient t.res (testGone t s)).2 .errTransient = rget s .errTransient :=
        (rget_bump_ne { s with err := { s.err with running := s.err.running.filter (fun u => u.res ≠ t.res) } } (by decide) :
          rget (testGone t s) .errTransient = _)
      rw [← hv, bump_counts, hold]
    refine ⟨_, congrArg (fun u => Host.Outcome.next (heatRow s u)) ((testEnd_ends hrun hne (by omega) false).trans hend), ?_⟩
    dsimp only
    refine ⟨?_, ?_, ?_, ?_, ?_, ?_, fun i c hc => hdone i c ?_⟩
    · rw [heq]
      exact hkept.running.trans (by rw [← hv]; exact running_gone hrun hne)
    · rw [heq]
      show rget (followUp t 2 0 v) .errTests % 2 ^ 32 = _
      rw [hkept.counts _ (.inl rfl), htests]
      exact testGone_counts t s
    · rw [heq]
      show rget (followUp t 2 0 v) .errTransient % 2 ^ 32 = _
      rw [hkept.counts _ (.inr (.inr rfl)), htransient]
    · rw [heq]
      exact hkept.retired.trans (by rw [← hv]; rfl)
    · rw [heq]
      exact hkept.recorded.mem.trans (by rw [← hv]; rfl)
    · rw [heq]
      exact hkept.recorded.sct.trans (by rw [← hv]; rfl)
    · have hrings : (followUp t 2 0 v).rings = s.rings := hkept.recorded.rings.trans (by rw [← hv]; rfl)
      show c ∈ (Table.getD (followUp t 2 0 v).rings.table i {}).inflight
      rw [hrings]
      exact hc
  · have hend := endTest_row hkind hacts hrows
    generalize hv : useRow t.res.index (bump (testGone t s) .errPersistent) = v at hend
    have hfollow : TestKept v (followUp t 3 1 v) := writeRecord_testKept ..
    obtain ⟨w, hretire, hw⟩ := retireRecord_eq t.res t.ref t.sector t.addr (followUp t 3 1 v)
    rw [hinj, hw] at hend
    obtain ⟨⟨rings, rst, heq⟩, hdone⟩ := kickMoves_finishAll t.joined stOk 257 0
      (retireRecord t.res 1 t.ref t.sector t.addr false (followUp t 3 1 v))
    rw [hw] at heq hdone
    have htests : rget v .errTests = rget (testGone t s) .errTests := by
      rw [← hv]
      exact rget_bump_ne _ (by decide)
    have hpersistent : rget v .errPersistent % 2 ^ 32 = min (rget s .errPersistent % 2 ^ 32 + 1) (2 ^ 32 - 1) := by
      have hold : rget (testGone t s) .errPersistent = rget s .errPersistent :=
        rget_bump_ne { s with err := { s.err with running := s.err.running.filter (fun u => u.res ≠ t.res) } } (by decide)
      have hcount := bump_counts (testGone t s) .errPersistent 0
      rw [hold] at hcount
      rw [← hv]
      exact hcount
    refine ⟨_, congrArg (fun u => Host.Outcome.next (heatRow s u)) ((testEnd_ends hrun hne (by omega) true).trans hend), ?_⟩
    refine ⟨?_, ?_, ?_, ?_, ?_, ?_, ?_, ?_, fun i c hc => hdone i c ?_⟩
    · rw [heq]
      exact (hretire.running.trans hfollow.running).trans (by rw [← hv]; exact running_gone hrun hne)
    · rw [heq]
      show Table.getD w.err.rowsUsed t.res.index 0 = _
      rw [hretire.rows, hfollow.rows, ← hv]
      simp [useRow, Table.getD]
      rfl
    · rw [heq]
      show rget w .errTests % 2 ^ 32 = _
      rw [hretire.counts _ (.inl rfl), hfollow.counts _ (.inl rfl), htests]
      exact testGone_counts t s
    · rw [heq]
      show rget w .errPersistent % 2 ^ 32 = _
      rw [hretire.counts _ (.inr (.inl rfl)), hfollow.counts _ (.inr (.inl rfl)), hpersistent]
    · rw [heq]
      have hold : w.err.retired = s.err.retired := (hretire.retired.trans hfollow.retired).trans (by rw [← hv]; rfl)
      show w.err.retired ++ _ = _
      rw [hold, hkind] <;> rfl
    · rw [heq]
      have hold : w.err.toList = s.err.toList := (hretire.toList.trans hfollow.toList).trans (by rw [← hv]; rfl)
      show (w.err.toList ++ _).length = _
      rw [hold, List.length_append, List.length_singleton]
    · rw [heq]
      exact (hretire.recorded.mem.trans hfollow.recorded.mem).trans (by rw [← hv]; rfl)
    · rw [heq]
      exact (hretire.recorded.sct.trans hfollow.recorded.sct).trans (by rw [← hv]; rfl)
    · have hrings : w.rings = s.rings := (hretire.recorded.rings.trans hfollow.recorded.rings).trans (by rw [← hv]; rfl)
      show c ∈ (Table.getD w.rings.table i {}).inflight
      rw [hrings]
      exact hc

end
end Sys2Proof.Machine

/-! # Context commands (O50) -/
namespace Sys2Proof.Machine

section
variable {s : State}

/-! ### Contexts read after a change (12 R603-R607) -/

@[simp] theorem ctxOf_setCtx_same (x : Nat) (c : Context) (s : State) : ctxOf (setCtx x c s) x = some c := Table.find_put_same ..

theorem ctxOf_setCtx_ne {x y : Nat} (h : y ≠ x) (c : Context) (s : State) : ctxOf (setCtx x c s) y = ctxOf s y := Table.find_put_ne _ _ h

/-- The number of a context that commands of a ring may name (12 R608). -/
theorem ctxPermitted_of {c : Cmd} {x n : Nat} (hn : n = c.ring / 64) (hx : x / 64 = n) (h60 : x % 64 < 60) : ctxPermitted c x = true := by
  simp [ctxPermitted, hx, hn, h60]

/-- A context without launches is dropped with its cached translations alone. -/
theorem dropContext_idle {x : Nat} (h : launchesOf s x = []) : dropContext x s = { s with
    scl := { s.scl with contexts := Table.drop s.scl.contexts x }
    mem := { s.mem with caches := s.mem.caches.map (fun e => (e.1, e.2.filter (fun d => d.ctx ≠ x))) } } := by
  rw [dropContext, h]
  rfl

/-- A live context begins to die of the cause, its queued descriptors discarded; one that is dying stays as it is (12 R641, R645). -/
theorem killContext_cases {x : Nat} {k : Context} (hk : ctxOf s x = some k) (hlive : k.killed = none) (d : Kill) :
    ∃ t kill, killContext x d s = t ∧ ctxOf t x = some { k with dying := some kill } ∧ (k.dying = none → kill = d)
      ∧ (∀ old, k.dying = some old → kill = old) ∧ (∀ y, y ≠ x → ctxOf t y = ctxOf s y) ∧ t.scl.launches = s.scl.launches
      ∧ t.scl.crews = s.scl.crews ∧ t.mem = s.mem ∧ t.sct = s.sct ∧ t.rings = s.rings := by
  cases hdying : k.dying with
  | some old =>
    have hsame : killContext x d s = s := by
      rw [killContext, hk]
      exact if_pos (by simp [hdying])
    refine ⟨s, old, hsame, ?_, nofun, fun _ h => Option.some.inj h, fun _ _ => rfl, rfl, rfl, rfl, rfl, rfl⟩
    rw [hk, ← hdying]
  | none =>
    have hkill : killContext x d s = discardDescriptors (fun i => (crewsOfContext s x).contains i) (setCtx x { k with dying := some d } s) := by
      rw [killContext, hk]
      exact if_neg (by simp [hdying, hlive])
    exact ⟨_, d, hkill, ctxOf_setCtx_same .., fun _ => rfl, nofun, fun _ hy => ctxOf_setCtx_ne hy .., rfl, rfl, rfl, rfl, rfl⟩

/-- A gate that a launch finds open, or a sector without eights (12 R610, R611). -/
theorem launch_gate {n eights : Nat} (howned : eights &&& ownedMask s.sct.eights n = eights)
    (h : ownedMask s.sct.eights n = 0
      ∨ ∃ e ∈ bitList 32 (if eights = 0 then ownedMask s.sct.eights n else eights), gateOpen s 1 e = true) :
    ((if eights = 0 then ownedMask s.sct.eights n else eights) = 0
      || (bitList 32 (if eights = 0 then ownedMask s.sct.eights n else eights)).any (gateOpen s 1)) = true := by
  obtain h | ⟨e, he, hopen⟩ := h
  · rw [h, Nat.and_zero] at howned
    simp [h, ← howned]
  · rw [List.any_eq_true.mpr ⟨e, he, hopen⟩, Bool.or_true]

/-- Settles O50: each command passes its checks, and what it does to the context table or the launches is said. -/
theorem contextCommands : Obligations.ContextCommands := by
  rintro s ring c n x hn
  refine ⟨fun hb hres hroot howns hfree => ?_, fun k hx hlt hsector h60 hk hres => ⟨fun hb hnone => ?_, fun hb hlive => ?_⟩,
    fun k crews vregs lb eights hb hx hlt hsector h60 hmode hcrews hc1 hc32 hvregs hv4 hv256 hval hentry hg1 hgmax hlb hlbmax hlbal htime hfits
      heights howned hk hlive hdying hgate hroom => ?_⟩
  · obtain ⟨-, hlo, hhi⟩ := Table.firstFree_spec _ _ _ _ hfree
    refine ⟨congrArg Host.Outcome.next (beginCommand_okWith hb ?_), hlo, hhi⟩
    subst hn
    unfold contextCreateBody
    dsimp only
    rw [need_bind_of (by simp [hres, hroot, howns]), hfree]
    rfl
  · refine congrArg Host.Outcome.next (beginCommand_okWith hb ?_)
    subst hx
    unfold contextDestroyBody
    dsimp only
    rw [need_bind_of (by simp [hres, hlt]), need_bind_of (ctxPermitted_of hn hsector h60), need_bind_of (by simp [hk, hnone]), dropContext_idle hnone]
  · subst hx
    obtain ⟨t, kill, hkill, hctx, hnew, hold, hothers, hlaunches, hcrews, hmem, hsct, hrings⟩ := killContext_cases hk hlive { cause := 9 }
    refine ⟨setCtx (c.param 24 4) { k with dying := some kill, waiters := k.waiters ++ [c.serial] } t, kill,
      congrArg Host.Outcome.next (beginCommand_runs hb ?_), ctxOf_setCtx_same .., fun h => by rw [hnew h], hold,
      fun y hy => (ctxOf_setCtx_ne hy ..).trans (hothers y hy), hlaunches, hcrews, hmem, hsct, hrings⟩
    unfold contextKillBody
    dsimp only
    rw [need_bind_of (by simp [hres, hlt]), need_bind_of (ctxPermitted_of hn hsector h60), hk]
    dsimp only
    rw [need_bind_of (by simp [hlive]), hkill, hctx]
    rfl
  · refine congrArg Host.Outcome.next (beginCommand_runs hb ?_)
    have hdistance : decide (c.param 28 1 = 1) = (sectorOf s n).distance := by
      rw [hmode]
      cases (sectorOf s n).distance <;> rfl
    have hle : c.param 28 1 ≤ 1 := by
      rw [hmode]
      cases (sectorOf s n).distance <;> decide
    have hopen := launch_gate howned hgate
    subst hx hcrews hvregs hlb heights hn
    unfold launchBody
    dsimp only
    rw [need_bind_of (by simp [hlt, hle, hc1, hc32, hv4, hv256, hval]), need_bind_of (by simp only [hentry, hg1, hgmax, hlbmax, hlbal, htime, decide_true, Bool.and_self]),
      hdistance, need_bind_of hfits, need_bind_of (by simp [ctxPermitted_of rfl hsector h60, howned]),
      need_bind_of (by simp [hk]), need_bind_of (by simp [hk, hlive, hdying]), need_bind_of hopen, need_bind_of (by simpa using hroom)]
    rfl

end
end Sys2Proof.Machine

/-! # The issue of a crew's instruction (O35) -/
namespace Sys2Proof.Machine

section
variable {s : State}

/-! ### Rows of chapter 13 as issues (13 R651-R656) -/

/-- What an issue makes of its instruction's outcome. -/
def Issued.after (i : Issue) (s : State) : Issued → State
  | .wait => s
  | .kill cause va u => faultCrew i.c i.g i.l cause va u
  | .go u => u

/-- A crew that issues a word of one of the row's opcodes performs the row's body. -/
theorem crewStep_issues {s' : State} {i : Issue} {op : Nat} (h : Issues s s' i op) {ops : List Nat} (hops : ops.contains op = true)
    (hop : assigned op = true) (body : Issue → State → Issued) : crewStep ops i.id body s = .next ((body i s').after i s) := by
  obtain ⟨hcrew, hgroup, hlaunch, hmay, hfetch, rfl, hscull⟩ := h
  simp only [crewStep, issue, hcrew, hgroup, hlaunch, hmay, hfetch, hop, hops, hscull, Bool.not_true, Bool.false_eq_true, if_false]
  cases body i s' <;> rfl

/-- A row of chapter 13 for crew `k`: its issue takes words of opcode `op`, and its body refuses one whose reserved bits are not zero. -/
def IsCrewRow (k op : Nat) (row : Instr) : Prop :=
  ∃ ops body, (∀ s, exec row s = crewStep ops k body s) ∧ ops.contains op = true ∧ assigned op = true
    ∧ ∀ (i : Issue) (u : State), reservedOk i.w = false → body i u = illegal u

section
variable {k op : Nat} {row : Instr} {ops : List Nat}

theorem crewBody_reserved (ok : Issue → Bool) (f : Issue → State → Issued) {i : Issue} (u : State) (h : reservedOk i.w = false) :
    crewBody ok f i u = illegal u := by
  simp [crewBody, h]

theorem not_legal_of_reserved {i : Issue} (sh : Shape) (h : reservedOk i.w = false) : i.legal sh = false := by
  simp [Issue.legal, h]

theorem threadBody_reserved (sh : Shape) (f : Issue → Nat → Nat → Nat → Nat → Nat) {i : Issue} (u : State) (h : reservedOk i.w = false) :
    threadBody sh f i u = illegal u := by
  rw [threadBody, not_legal_of_reserved sh h]
  rfl

theorem IsCrewRow.crew {ok : Issue → Bool} {f : Issue → State → Issued} (h : ∀ s, exec row s = crewStep ops k (crewBody ok f) s)
    (hops : ops.contains op = true) (hop : assigned op = true) : IsCrewRow k op row :=
  ⟨ops, _, h, hops, hop, fun _ u hr => crewBody_reserved ok f u hr⟩

theorem IsCrewRow.thread {sh : Shape} {f : Issue → Nat → Nat → Nat → Nat → Nat} (h : ∀ s, exec row s = crewStep ops k (threadBody sh f) s)
    (hops : ops.contains op = true) (hop : assigned op = true) : IsCrewRow k op row :=
  ⟨ops, _, h, hops, hop, fun _ u hr => threadBody_reserved sh f u hr⟩

/-- A body that opens with a test which a reserved bit fails. -/
theorem IsCrewRow.tested {body : Issue → State → Issued} (h : ∀ s, exec row s = crewStep ops k body s)
    (hbody : ∀ (i : Issue) (u : State), reservedOk i.w = false → body i u = illegal u)
    (hops : ops.contains op = true) (hop : assigned op = true) : IsCrewRow k op row :=
  ⟨ops, body, h, hops, hop, hbody⟩

end

/-! ### Bodies with a test of their own -/

/-- IMADW. -/
def imadwBody (i : Issue) (s : State) : Issued :=
  let product := fun a b => if iSigned i.w then ofSigned 64 (toSigned 32 a * toSigned 32 b) else a * b
  let sh : Shape := { dst := 2, a := 1, b := 1, c := 2 }
  if !i.legal sh then illegal s
  else if i.waits sh then .wait
  else .go (i.put (writeKeys (i.active.flatMap (fun t =>
    wordsFor (iDst i.w) t 2 (product (i.va 1 t) (i.vb 1 t) + i.vc 2 t))) i.next) s)

/-- FFUNC. -/
def ffuncBody (i : Issue) (s : State) : Issued :=
  if 4 < iMod i.w % 8 then illegal s
  else threadBody {} (fun i _ a _ _ => f32.round (fpFunc (iMod i.w % 8) (f32.value a))) i s

theorem bra_reserved : ∀ (i : Issue) (u : State), reservedOk i.w = false → braBody i u = illegal u := by
  intro i u h
  simp [braBody, h]

theorem bar_reserved : ∀ (i : Issue) (u : State), reservedOk i.w = false → barBody i u = illegal u := by
  intro i u h
  simp [barBody, h]

theorem fence_reserved : ∀ (i : Issue) (u : State), reservedOk i.w = false → fenceBody i u = illegal u := by
  intro i u h
  simp [fenceBody, h]

theorem plop_reserved : ∀ (i : Issue) (u : State), reservedOk i.w = false → plopBody i u = illegal u := by
  intro i u h
  simp [plopBody, h]

theorem mov_reserved : ∀ (i : Issue) (u : State), reservedOk i.w = false → movBody i u = illegal u := by
  intro i u h
  rw [movBody]
  split <;> exact threadBody_reserved _ _ u h

theorem iaddc_reserved : ∀ (i : Issue) (u : State), reservedOk i.w = false → iaddcBody i u = illegal u := by
  intro i u h
  simp [iaddcBody, not_legal_of_reserved _ h]

theorem modular_reserved (good : Nat → Nat → Nat → Nat → Bool) (f : Nat → Nat → Nat → Nat → Nat) : ∀ (i : Issue) (u : State), reservedOk i.w = false → modularBody good f i u = illegal u := by
  intro i u h
  simp [modularBody, not_legal_of_reserved _ h]

theorem cvt_reserved : ∀ (i : Issue) (u : State), reservedOk i.w = false → cvtBody i u = illegal u := by
  intro i u h
  simp [cvtBody, not_legal_of_reserved _ h]

theorem setp_reserved (f : Issue → Nat → Nat → Bool) : ∀ (i : Issue) (u : State), reservedOk i.w = false → setpBody f i u = illegal u := by
  intro i u h
  simp [setpBody, not_legal_of_reserved _ h]

theorem s2v_reserved : ∀ (i : Issue) (u : State), reservedOk i.w = false → s2vBody i u = illegal u := by
  intro i u h
  rw [s2vBody]
  split
  · rfl
  · exact threadBody_reserved _ _ u h

theorem load_reserved (isLocal : Bool) (faults : List LineFault) : ∀ (i : Issue) (u : State), reservedOk i.w = false → loadBody isLocal faults i u = illegal u := by
  intro i u h
  simp [loadBody, h]

theorem store_reserved (isLocal : Bool) (faults : List LineFault) : ∀ (i : Issue) (u : State), reservedOk i.w = false → storeBody isLocal faults i u = illegal u := by
  intro i u h
  simp [storeBody, h]

theorem atom_reserved (isLocal : Bool) (faults : List LineFault) : ∀ (i : Issue) (u : State), reservedOk i.w = false → atomBody isLocal faults i u = illegal u := by
  intro i u h
  simp [atomBody, h]

theorem ladd_reserved (faults : List LineFault) : ∀ (i : Issue) (u : State), reservedOk i.w = false → laddBody faults i u = illegal u := by
  intro i u h
  simp [laddBody, h]

theorem imadw_reserved : ∀ (i : Issue) (u : State), reservedOk i.w = false → imadwBody i u = illegal u := by
  intro i u h
  simp [imadwBody, not_legal_of_reserved _ h]

theorem ffunc_reserved : ∀ (i : Issue) (u : State), reservedOk i.w = false → ffuncBody i u = illegal u := by
  intro i u h
  rw [ffuncBody]
  split
  · rfl
  · exact threadBody_reserved _ _ u h

/-- Every row of chapter 13 is one. -/
theorem crewRows_rows (k x : Nat) (fs : List LineFault) : ∀ e ∈ crewRows k x fs, IsCrewRow k e.1 e.2 := by
  simp only [crewRows, List.forall_mem_cons]
  refine ⟨.crew (fun _ => rfl) (by decide) (by decide), .tested (fun _ => rfl) bra_reserved (by decide) (by decide),
    .crew (fun _ => rfl) (by decide) (by decide), .crew (fun _ => rfl) (by decide) (by decide),
    .crew (fun _ => rfl) (by decide) (by decide), .tested (fun _ => rfl) bar_reserved (by decide) (by decide),
    .tested (fun _ => rfl) fence_reserved (by decide) (by decide), .crew (fun _ => rfl) (by decide) (by decide),
    .crew (fun _ => rfl) (by decide) (by decide), .crew (fun _ => rfl) (by decide) (by decide),
    .crew (fun _ => rfl) (by decide) (by decide), .crew (fun _ => rfl) (by decide) (by decide),
    .crew (fun _ => rfl) (by decide) (by decide), .thread (fun _ => rfl) (by decide) (by decide),
    .thread (fun _ => rfl) (by decide) (by decide), .thread (fun _ => rfl) (by decide) (by decide),
    .thread (fun _ => rfl) (by decide) (by decide), .thread (fun _ => rfl) (by decide) (by decide),
    .thread (fun _ => rfl) (by decide) (by decide), .thread (fun _ => rfl) (by decide) (by decide),
    .thread (fun _ => rfl) (by decide) (by decide), .thread (fun _ => rfl) (by decide) (by decide),
    .thread (fun _ => rfl) (by decide) (by decide), .thread (fun _ => rfl) (by decide) (by decide),
    .thread (fun _ => rfl) (by decide) (by decide), .thread (fun _ => rfl) (by decide) (by decide),
    .thread (fun _ => rfl) (by decide) (by decide), .thread (fun _ => rfl) (by decide) (by decide),
    .thread (fun _ => rfl) (by decide) (by decide), .thread (fun _ => rfl) (by decide) (by decide),
    .tested (fun _ => rfl) mov_reserved (by decide) (by decide), .tested (fun _ => rfl) mov_reserved (by decide) (by decide),
    .thread (fun _ => rfl) (by decide) (by decide), .tested (fun _ => rfl) iaddc_reserved (by decide) (by decide),
    .tested (fun _ => rfl) (modular_reserved _ _) (by decide) (by decide),
    .tested (fun _ => rfl) (modular_reserved _ _) (by decide) (by decide),
    .tested (fun _ => rfl) (modular_reserved _ _) (by decide) (by decide),
    .tested (fun _ => rfl) imadw_reserved (by decide) (by decide), .thread (fun _ => rfl) (by decide) (by decide),
    .thread (fun _ => rfl) (by decide) (by decide), .thread (fun _ => rfl) (by decide) (by decide),
    .thread (fun _ => rfl) (by decide) (by decide), .thread (fun _ => rfl) (by decide) (by decide),
    .thread (fun _ => rfl) (by decide) (by decide), .tested (fun _ => rfl) ffunc_reserved (by decide) (by decide),
    .thread (fun _ => rfl) (by decide) (by decide), .thread (fun _ => rfl) (by decide) (by decide),
    .thread (fun _ => rfl) (by decide) (by decide), .tested (fun _ => rfl) cvt_reserved (by decide) (by decide),
    .thread (fun _ => rfl) (by decide) (by decide), .thread (fun _ => rfl) (by decide) (by decide),
    .tested (fun _ => rfl) (setp_reserved _) (by decide) (by decide),
    .tested (fun _ => rfl) (setp_reserved _) (by decide) (by decide),
    .tested (fun _ => rfl) plop_reserved (by decide) (by decide),
    .tested (fun _ => rfl) (load_reserved _ _) (by decide) (by decide),
    .tested (fun _ => rfl) (store_reserved _ _) (by decide) (by decide),
    .tested (fun _ => rfl) (atom_reserved _ _) (by decide) (by decide),
    .tested (fun _ => rfl) (ladd_reserved _) (by decide) (by decide),
    .tested (fun _ => rfl) (load_reserved _ _) (by decide) (by decide),
    .tested (fun _ => rfl) (store_reserved _ _) (by decide) (by decide),
    .tested (fun _ => rfl) (atom_reserved _ _) (by decide) (by decide), .crew (fun _ => rfl) (by decide) (by decide),
    .crew (fun _ => rfl) (by decide) (by decide), .crew (fun _ => rfl) (by decide) (by decide),
    .crew (fun _ => rfl) (by decide) (by decide), .crew (fun _ => rfl) (by decide) (by decide),
    .crew (fun _ => rfl) (by decide) (by decide), .crew (fun _ => rfl) (by decide) (by decide),
    .crew (fun _ => rfl) (by decide) (by decide), .crew (fun _ => rfl) (by decide) (by decide),
    .crew (fun _ => rfl) (by decide) (by decide), .tested (fun _ => rfl) s2v_reserved (by decide) (by decide),
    .crew (fun _ => rfl) (by decide) (by decide), .crew (fun _ => rfl) (by decide) (by decide), List.forall_mem_nil _⟩

/-! ### Fatal faults (12 R641-R645) -/

/-- A fault of a live context is noted as its kill; a context that is dying stays as it is. -/
theorem faultCrew_live {c : Crew} {g : Group} {l : Launch} {x : Context} (hx : ctxOf s l.ctx = some x) (hdying : x.dying = none)
    (hkilled : x.killed = none) (cause va : Nat) :
    ∃ k, ctxOf (faultCrew c g l cause va s) l.ctx = some { x with dying := some k } ∧ k.cause = cause % 256 ∧ k.scull = g.scull
      ∧ k.group = g.number ∧ k.crew = c.number ∧ k.pc = c.pc ∧ k.va = va := by
  obtain ⟨t, kill, ht, hctx, hnew, -⟩ := killContext_cases hx hkilled
    ⟨cause % 256, g.scull, g.number, c.number, c.pc, va, if cause = 2 then stPoisoned else if cause = gatedCause then stRetryPower else stContextKilled⟩
  obtain rfl := hnew hdying
  exact ⟨_, by rw [← hctx, ← ht]; rfl, rfl, rfl, rfl, rfl, rfl, rfl⟩

theorem faultCrew_dying {c : Crew} {g : Group} {l : Launch} {x : Context} (hx : ctxOf s l.ctx = some x) (hdying : x.dying.isSome = true)
    (cause va : Nat) : faultCrew c g l cause va s = s := by
  rw [faultCrew, killContext, hx]
  exact if_pos (by simp [hdying])

/-- Settles O35: every row is an issue whose body refuses reserved bits first, and the issue's own tests come before any body. -/
theorem crewIssue : Obligations.CrewIssue := by
  refine ⟨fun s k x op fs row hrow => ?_, fun s c g l cause va x hx hcause => ⟨fun hdying hkilled => ?_, fun hdying => faultCrew_dying hx hdying ..⟩⟩
  · obtain ⟨ops, body, hexec, hops, hop, hreserved⟩ := crewRows_rows k x fs _ hrow
    refine ⟨fun hnone => ?_, fun c g l hcrew hgroup hlaunch => ⟨fun hmay => ?_, fun hmay hpc => ?_, fun w s' hmay hfetch hassigned => ?_⟩,
      fun s' i hid hissues hres => ?_⟩
    · simp only [hexec, crewStep, issue, hnone]
    · simp [hexec, crewStep, issue, hcrew, hgroup, hlaunch, hmay]
    · simp [hexec, crewStep, issue, hcrew, hgroup, hlaunch, hmay, fetchWord, hpc]
    · simp [hexec, crewStep, issue, hcrew, hgroup, hlaunch, hmay, hfetch, hassigned]
    · subst hid
      rw [hexec, crewStep_issues hissues hops hop, hreserved i s' hres]
      rfl
  · obtain ⟨k, hctx, hk, hrest⟩ := faultCrew_live (c := c) (g := g) hx hdying hkilled cause va
    exact ⟨k, hctx, hk.trans (Nat.mod_eq_of_lt hcause), hrest⟩

end
end Sys2Proof.Machine

/-! # Registers of a crew, and its integer instructions (O36) -/
namespace Sys2Proof.Machine

section
variable {s : State}

/-! ### Keyed writes (13 R651, R654) -/

/-- A fold of keyed writes leaves the keys that it does not name. -/
theorem find_foldl_put_of_notMem {α : Type} {key : Nat} {ws : List (Nat × α)} (h : ∀ e ∈ ws, e.1 ≠ key) (t : Table α) :
    Table.find (ws.foldl (fun v e => Table.put v e.1 e.2) t) key = Table.find t key := by
  induction ws generalizing t with
  | nil => rfl
  | cons e ws ih =>
    obtain ⟨he, hws⟩ := List.forall_mem_cons.mp h
    exact (ih hws _).trans (Table.find_put_ne _ _ (Ne.symm he))

/-- Where its writes of a key agree, the key holds their value. -/
theorem find_foldl_put_of_mem {α : Type} {key : Nat} {x : α} {ws : List (Nat × α)} (hmem : (key, x) ∈ ws)
    (hsame : ∀ e ∈ ws, e.1 = key → e.2 = x) (t : Table α) : Table.find (ws.foldl (fun v e => Table.put v e.1 e.2) t) key = some x := by
  induction ws generalizing t with
  | nil => cases hmem
  | cons e ws ih =>
    obtain ⟨he, hws⟩ := List.forall_mem_cons.mp hsame
    by_cases hin : (key, x) ∈ ws
    · exact ih hin hws _
    · obtain rfl : (key, x) = e := (List.mem_cons.mp hmem).resolve_right hin
      by_cases hkey : ∃ e ∈ ws, e.1 = key
      · obtain ⟨e, hew, rfl⟩ := hkey
        exact absurd (by rw [← hws e hew rfl]; exact hew) hin
      · exact (find_foldl_put_of_notMem (fun e hew hek => hkey ⟨e, hew, hek⟩) _).trans (Table.find_put_same ..)

/-- The v registers after keyed writes. -/
theorem writeKeys_v (ws : List (Nat × Word32)) (c : Crew) : (writeKeys ws c).v = ws.foldl (fun v e => Table.put v e.1 e.2) c.v := by
  induction ws generalizing c with
  | nil => rfl
  | cons e ws ih => exact ih (writeKey e.1 e.2 c)

/-- Keyed writes change v registers and pending loads alone, and of these no fault. -/
theorem writeKeys_eq (ws : List (Nat × Word32)) (c : Crew) :
    ∃ loads, writeKeys ws c = { c with v := ws.foldl (fun v e => Table.put v e.1 e.2) c.v, loads := loads }
      ∧ loads.map Load.fault = c.loads.map Load.fault ∧ loads.length = c.loads.length := by
  induction ws generalizing c with
  | nil => exact ⟨c.loads, rfl, rfl, rfl⟩
  | cons e ws ih =>
    obtain ⟨loads, h, hfault, hlen⟩ := ih (writeKey e.1 e.2 c)
    refine ⟨loads, h, hfault.trans ?_, hlen.trans (by simp [writeKey])⟩
    simp [writeKey, Function.comp_def]

/-- The words of a number above its first. -/
theorem div_words (x j : Nat) : x / 2 ^ 32 / 2 ^ (32 * j) = x / 2 ^ (32 * (j + 1)) := by
  rw [Nat.div_div_eq_div_mul, ← pow_add, Nat.mul_succ, Nat.add_comm]

/-- The writes of the words of a number, one for each register. -/
theorem mem_wordsFor {key : Nat} {y : Word32} {n t k x : Nat} :
    (key, y) ∈ wordsFor n t k x ↔ ∃ j < k, key = (n + j) * 64 + t ∧ y = BitVec.ofNat 32 (x / 2 ^ (32 * j)) := by
  induction k generalizing n x with
  | zero => simp [wordsFor]
  | succ k ih =>
    rw [wordsFor, List.mem_cons, ih]
    constructor
    · rintro (h | ⟨j, hj, hkey, hy⟩)
      · obtain ⟨hkey, hy⟩ := Prod.mk.inj h
        exact ⟨0, by omega, by rw [hkey, Nat.add_zero], by rw [hy, Nat.mul_zero, pow_zero, Nat.div_one]⟩
      · refine ⟨j + 1, by omega, by omega, ?_⟩
        rw [hy, div_words]
    · rintro ⟨j, hj, hkey, hy⟩
      cases j with
      | zero => exact .inl (by rw [hkey, hy, Nat.add_zero, Nat.mul_zero, pow_zero, Nat.div_one])
      | succ j => exact .inr ⟨j, by omega, by omega, by rw [hy, div_words]⟩

/-- Registers that hold the words of a number read as it. -/
theorem readVs_of_words {c : Crew} {n t k x : Nat} (h : ∀ j < k, readV c (n + j) t = BitVec.ofNat 32 (x / 2 ^ (32 * j))) :
    readVs c n t k = x % 2 ^ (32 * k) := by
  induction k generalizing n x with
  | zero => simp [readVs, Nat.mod_one]
  | succ k ih =>
    have h0 : readV c n t = BitVec.ofNat 32 x := by simpa using h 0 (by omega)
    have hrest : readVs c (n + 1) t k = x / 2 ^ 32 % 2 ^ (32 * k) := ih fun j hj => by
      have := h (j + 1) (by omega)
      rw [show n + 1 + j = n + (j + 1) by omega, this, div_words]
    rw [readVs, h0, hrest, BitVec.toNat_ofNat, show 32 * (k + 1) = 32 + 32 * k by omega, pow_add]
    exact (Nat.mod_mul).symm

theorem active_lt {i : Issue} {t : Nat} (ht : t ∈ i.active) : t < 64 := by
  have hlt : t < i.threads := List.mem_range.mp (List.mem_of_mem_filter ht)
  have hthreads : i.threads ≤ 64 := by
    unfold Issue.threads
    split <;> omega
  omega

/-- The writes of a thread instruction: to each register of an active thread, once. -/
theorem writes_unique {i : Issue} {n k : Nat} {f : Nat → Nat} {key : Nat} {y : Word32} :
    (key, y) ∈ i.active.flatMap (fun t => wordsFor n t k (f t))
      ↔ ∃ t ∈ i.active, ∃ j < k, key = (n + j) * 64 + t ∧ y = BitVec.ofNat 32 (f t / 2 ^ (32 * j)) := by
  simp only [List.mem_flatMap, mem_wordsFor]

/-- What a thread instruction's writes leave of a crew (13 R651, R654, R659). -/
theorem writeKeys_wroteV (i : Issue) (k : Nat) (f : Nat → Nat) :
    WroteV i k f (writeKeys (i.active.flatMap (fun t => wordsFor (iDst i.w) t k (f t))) i.next) := by
  set ws := i.active.flatMap (fun t => wordsFor (iDst i.w) t k (f t)) with hws
  obtain ⟨loads, heq, hfault, -⟩ := writeKeys_eq ws i.next
  have hread (n t : Nat) : readV (writeKeys ws i.next) n t
      = (Table.find (ws.foldl (fun v e => Table.put v e.1 e.2) i.c.v) (n * 64 + t)).getD 0 := by
    rw [heq]
    rfl
  refine ⟨fun t ht => readVs_of_words fun j hj => ?_, fun n t ht hout => ?_, ?_, ?_⟩
  · rw [hread, find_foldl_put_of_mem (x := BitVec.ofNat 32 (f t / 2 ^ (32 * j))) (writes_unique.mpr ⟨t, ht, j, hj, rfl, rfl⟩)]
    · rfl
    · rintro ⟨key, y⟩ he hkey
      obtain ⟨t', ht', j', hj', hkey', rfl⟩ := writes_unique.mp he
      have hlt := active_lt ht
      have hlt' := active_lt ht'
      dsimp only at hkey hkey'
      obtain ⟨rfl, rfl⟩ : t' = t ∧ j' = j := by omega
      rfl
  · rw [hread, find_foldl_put_of_notMem]
    · rfl
    · rintro ⟨key, y⟩ he hkey
      obtain ⟨t', ht', j', hj', hkey', -⟩ := writes_unique.mp he
      have hlt' := active_lt ht'
      dsimp only at hkey hkey'
      obtain ⟨rfl, hn⟩ : t' = t ∧ n = iDst i.w + j' := by omega
      rcases hout with h | h | h
      · omega
      · omega
      · exact h ht'
  · rw [heq]
    rfl
  · rw [heq]
    exact hfault

/-! ### Thread instructions (13 R651-R657) -/

/-- A result counts modulo the registers that it is written to. -/
theorem WroteV.congr {i : Issue} {k : Nat} {f g : Nat → Nat} {c : Crew} (h : WroteV i k f c)
    (hfg : ∀ t ∈ i.active, f t % 2 ^ (32 * k) = g t % 2 ^ (32 * k)) : WroteV i k g c :=
  ⟨fun t ht => (h.1 t ht).trans (hfg t ht), h.2⟩

/-- A row whose body is that of a thread instruction, with its result. -/
theorem threadRow_of {s' : State} {i : Issue} {op : Nat} (h : Issues s s' i op) {row : Instr} {ops : List Nat} {sh : Shape}
    {f : Issue → Nat → Nat → Nat → Nat → Nat} (hops : ops.contains op = true) (hop : assigned op = true) {body : Issue → State → Issued}
    (hrow : exec row s = crewStep ops i.id body s) (hbody : body i s' = threadBody sh f i s') (g : Nat → Nat)
    (hresult : ∀ t ∈ i.active, f i t (i.va sh.a t) (i.vb sh.b t) (i.vc sh.c t) % 2 ^ (32 * sh.dst) = g t % 2 ^ (32 * sh.dst)) :
    ThreadRow s s' i row sh g := by
  have hstep : exec row s = .next ((threadBody sh f i s').after i s) := by rw [hrow, crewStep_issues h hops hop, hbody]
  refine ⟨⟨fun hok => ?_, fun hok hwaits => ?_⟩, fun hok hgo => ?_⟩
  · rw [hstep, threadBody, hok]
    rfl
  · rw [hstep, threadBody, hok, hwaits]
    rfl
  · refine ⟨_, ?_, (writeKeys_wroteV i sh.dst _).congr hresult⟩
    rw [hstep, threadBody, hok, hgo]
    rfl

/-! ### Operands of 32 bits (13 R657, R662) -/

section
variable (i : Issue) (t : Nat)

theorem readVs_one (c : Crew) (n t : Nat) : readVs c n t 1 = (readV c n t).toNat := by simp [readVs]

theorem va_one : i.va 1 t = (laneA i t).toNat := readVs_one ..

theorem vb_one : i.vb 1 t = (laneB i t).toNat := by
  rw [laneB, BitVec.toNat_ofNat, Nat.mod_eq_of_lt]
  unfold Issue.vb
  split
  · exact Nat.mod_lt _ (by decide)
  · split
    · exact Nat.mod_lt _ (by decide)
    · rw [readVs_one]
      exact BitVec.isLt _

theorem vc_one : i.vc 1 t = (laneC i t).toNat := by
  rw [laneC, BitVec.toNat_ofNat, Nat.mod_eq_of_lt]
  unfold Issue.vc
  split
  · exact Nat.mod_lt _ (by decide)
  · rw [readVs_one]
    exact BitVec.isLt _

end

/-! ### Signed numbers of a width -/

theorem toSigned_toNat {w : Nat} (hw : 0 < w) (x : BitVec w) : toSigned w x.toNat = x.toInt := by
  have hhalf : 2 ^ w = 2 * 2 ^ (w - 1) := by
    rw [← pow_succ']
    congr 1
    omega
  rw [toSigned, BitVec.toInt_eq_toNat_cond, Nat.mod_eq_of_lt x.isLt]
  by_cases h : x.toNat < 2 ^ (w - 1)
  · rw [if_pos h, if_pos (by omega)]
  · rw [if_neg h, if_neg (by omega)]

theorem ofSigned_eq (w : Nat) (z : Int) : ofSigned w z = (BitVec.ofInt w z).toNat := by
  rw [ofSigned, BitVec.toNat_ofInt]

theorem ofSigned_toInt {w : Nat} (x : BitVec w) : ofSigned w x.toInt = x.toNat := by rw [ofSigned_eq, BitVec.ofInt_toInt]

theorem ofSigned_lt (w : Nat) (z : Int) : ofSigned w z < 2 ^ w := by
  rw [ofSigned_eq]
  exact BitVec.isLt _

/-- The product of two sign-extended words is their signed product. -/
theorem signExtend_mul (a b : Word32) : (a.signExtend 64 * b.signExtend 64).toNat = ofSigned 64 (a.toInt * b.toInt) := by
  rw [← ofSigned_toInt, BitVec.toInt_mul, BitVec.toInt_signExtend_of_le (by decide), BitVec.toInt_signExtend_of_le (by decide), ofSigned,
    ofSigned, Int.bmod_emod]

theorem shiftRight_signed {w : Nat} (hw : 0 < w) (x : BitVec w) (n : Nat) : shiftRight w true x.toNat n = (x.sshiftRight n).toNat := by
  rw [shiftRight, if_pos rfl, toSigned_toNat hw, ← ofSigned_toInt (x.sshiftRight n), BitVec.toInt_sshiftRight, Int.shiftRight_eq_div_pow]

theorem below32_eq (g : Bool) (a b : Word32) : below32 g a.toNat b.toNat = if g then a.slt b else a.ult b := by
  cases g
  · rfl
  · simp only [below32, compareInt, if_true, toSigned_toNat (by decide : 0 < 32)]
    rfl

/-! ### Integer results (13 R659) -/

/-- The model's integer function `F` computes `f` modulo 2^32. -/
def Computes32 (F : Bool → Nat → Nat → Nat) (f : Bool → Word32 → Word32 → Word32) : Prop :=
  ∀ (g : Bool) (a b : Word32), F g a.toNat b.toNat % 2 ^ 32 = (f g a b).toNat

theorem computes_add : Computes32 (fun _ a b => a + b) (fun _ a b => a + b) := fun _ a b => (BitVec.toNat_add a b).symm

theorem computes_sub : Computes32 (fun _ a b => a + 2 ^ 32 - b) (fun _ a b => a - b) := fun _ a b => by
  have hb := b.isLt
  rw [BitVec.toNat_sub]
  dsimp only
  congr 1
  omega

theorem computes_mul : Computes32 (fun _ a b => a * b) (fun _ a b => a * b) := fun _ a b => (BitVec.toNat_mul a b).symm

theorem computes_mulHigh : Computes32 mulHigh (fun g a b =>
    if g then ((a.signExtend 64) * (b.signExtend 64)).extractLsb' 32 32 else ((a.setWidth 64) * (b.setWidth 64)).extractLsb' 32 32) := by
  intro g a b
  cases g
  · have hlt : a.toNat * b.toNat < 2 ^ 32 * 2 ^ 32 := Nat.mul_lt_mul'' a.isLt b.isLt
    simp only [mulHigh, Bool.false_eq_true, if_false, BitVec.extractLsb'_toNat, BitVec.toNat_mul, BitVec.toNat_setWidth,
      Nat.shiftRight_eq_div_pow]
    rw [Nat.mod_eq_of_lt (a.isLt.trans (by decide)), Nat.mod_eq_of_lt (b.isLt.trans (by decide)), Nat.mod_eq_of_lt (hlt.trans_eq (by decide))]
  · simp only [mulHigh, if_true, BitVec.extractLsb'_toNat, Nat.shiftRight_eq_div_pow, signExtend_mul, toSigned_toNat (by decide : 0 < 32)]

theorem computes_and : Computes32 (fun _ a b => a &&& b) (fun _ a b => a &&& b) := fun _ a b => by
  rw [BitVec.toNat_and, Nat.mod_eq_of_lt (Nat.and_lt_two_pow _ b.isLt)]

theorem computes_or : Computes32 (fun _ a b => a ||| b) (fun _ a b => a ||| b) := fun _ a b => by
  rw [BitVec.toNat_or, Nat.mod_eq_of_lt (Nat.or_lt_two_pow a.isLt b.isLt)]

theorem computes_xor : Computes32 (fun _ a b => a ^^^ b) (fun _ a b => a ^^^ b) := fun _ a b => by
  rw [BitVec.toNat_xor, Nat.mod_eq_of_lt (Nat.xor_lt_two_pow a.isLt b.isLt)]

theorem computes_shl : Computes32 (fun _ a b => a <<< (b % 32)) (fun _ a b => a <<< (b.toNat % 32)) := fun _ _ _ =>
  (BitVec.toNat_shiftLeft ..).symm

theorem computes_shr : Computes32 (fun g a b => shiftRight 32 g a (b % 32))
    (fun g a b => if g then a.sshiftRight (b.toNat % 32) else a >>> (b.toNat % 32)) := by
  intro g a b
  cases g
  · have hlt : a.toNat >>> (b.toNat % 32) < 2 ^ 32 := (Nat.shiftRight_le _ _).trans_lt a.isLt
    simp only [shiftRight, Bool.false_eq_true, if_false, BitVec.toNat_ushiftRight, Nat.mod_eq_of_lt hlt]
  · simp only [if_true, shiftRight_signed (by decide : 0 < 32)]
    exact Nat.mod_eq_of_lt (BitVec.isLt _)

theorem computes_min : Computes32 (fun g a b => if below32 g b a then b else a)
    (fun g a b => if (if g then b.slt a else b.ult a) then b else a) := by
  intro g a b
  dsimp only
  rw [below32_eq, ← apply_ite BitVec.toNat]
  exact Nat.mod_eq_of_lt (BitVec.isLt _)

theorem computes_max : Computes32 (fun g a b => if below32 g a b then b else a)
    (fun g a b => if (if g then a.slt b else a.ult b) then b else a) := by
  intro g a b
  dsimp only
  rw [below32_eq, ← apply_ite BitVec.toNat]
  exact Nat.mod_eq_of_lt (BitVec.isLt _)

theorem popCount_eq (x : Word32) : popCount 32 x.toNat = (List.range 32).countP (fun k => x.getLsbD k) := by
  rw [popCount, bitList, List.countP_eq_length_filter]
  rfl

/-! ### The statement -/

/-- An integer instruction in both formats. -/
theorem intRow_of {s' : State} {i : Issue} {op base : Nat} (h : Issues s s' i op) {row : Instr} {F : Bool → Nat → Nat → Nat}
    {f : Bool → Word32 → Word32 → Word32} (hbase : assigned base = true ∧ assigned (base + 0x10) = true)
    (hop : op = base ∨ op = base + 0x10) (hrow : exec row s = intStep base i.id F s) (hF : Computes32 F f) :
    ThreadRow s s' i row { b := 1 } (fun t => (f (iSigned i.w) (laneA i t) (laneB i t)).toNat) := by
  refine threadRow_of h (ops := [base, base + 0x10]) (by rcases hop with rfl | rfl <;> simp)
    (by rcases hop with rfl | rfl; exacts [hbase.1, hbase.2]) hrow rfl _ fun t _ => ?_
  have hresult := hF (iSigned i.w) (laneA i t) (laneB i t)
  rw [← va_one, ← vb_one] at hresult
  rw [← hresult]
  exact (Nat.mod_mod ..).symm

/-- The opcode of the word that a crew issues. -/
theorem opcode_of_issues {s' : State} {i : Issue} {op : Nat} (h : Issues s s' i op) : iOp i.w = op := by
  obtain ⟨-, -, -, -, -, hop, -⟩ := h
  exact hop

/-- A word of an unassigned opcode kills the context under any row. -/
theorem unassigned_kills {s' : State} {i : Issue} {op : Nat} (h : Issues s s' i op) (hop : assigned op = false) (ops : List Nat)
    (body : Issue → State → Issued) : crewStep ops i.id body s = .next (faultCrew i.c i.g i.l 4 0 s') := by
  obtain ⟨hcrew, hgroup, hlaunch, hmay, hfetch, rfl, -⟩ := h
  simp [crewStep, issue, hcrew, hgroup, hlaunch, hmay, hfetch, hop]

/-- Settles O36: each row is a thread instruction whose function computes the class table's result on words. -/
theorem crewIntegers : Obligations.CrewIntegers := by
  intro s s' i op h
  refine ⟨fun base row f hrow hop => ?_, fun hop => ?_, fun hop => ?_, fun hop => ?_, fun hop => ?_, fun hop => ?_, fun hop => ?_, fun hop => ?_,
    fun hop => ?_⟩
  · simp only [List.mem_cons, Prod.mk.injEq, List.not_mem_nil, or_false] at hrow
    rcases hrow with ⟨rfl, rfl, rfl⟩ | ⟨rfl, rfl, rfl⟩ | ⟨rfl, rfl, rfl⟩ | ⟨rfl, rfl, rfl⟩ | ⟨rfl, rfl, rfl⟩ | ⟨rfl, rfl, rfl⟩ | ⟨rfl, rfl, rfl⟩
      | ⟨rfl, rfl, rfl⟩ | ⟨rfl, rfl, rfl⟩ | ⟨rfl, rfl, rfl⟩ | ⟨rfl, rfl, rfl⟩
    · exact intRow_of h (by decide) hop rfl computes_add
    · exact intRow_of h (by decide) hop rfl computes_sub
    · exact intRow_of h (by decide) hop rfl computes_mul
    · exact intRow_of h (by decide) hop rfl computes_mulHigh
    · exact intRow_of h (by decide) hop rfl computes_and
    · exact intRow_of h (by decide) hop rfl computes_or
    · exact intRow_of h (by decide) hop rfl computes_xor
    · exact intRow_of h (by decide) hop rfl computes_shl
    · exact intRow_of h (by decide) hop rfl computes_shr
    · exact intRow_of h (by decide) hop rfl computes_min
    · exact intRow_of h (by decide) hop rfl computes_max
  · refine unassigned_kills h ?_ [0x10, 0x20] _
    rcases hop with rfl | ⟨hlo, hhi⟩
    · rfl
    · interval_cases op <;> rfl
  · subst hop
    refine threadRow_of h (ops := [0x14]) rfl rfl rfl rfl _ fun t _ => ?_
    dsimp only
    rw [va_one, vb_one, vc_one, BitVec.toNat_add, BitVec.toNat_mul, Nat.mod_mod, Nat.mod_add_mod]
  · subst hop
    refine threadRow_of h (ops := [0x1C]) rfl rfl rfl rfl _ fun t _ => ?_
    dsimp only
    rw [va_one, vb_one]
    split <;> rfl
  · subst hop
    refine threadRow_of h (ops := [0x1D]) rfl rfl rfl rfl _ fun t _ => ?_
    dsimp only
    rw [va_one, popCount_eq]
  · subst hop
    refine threadRow_of h (ops := [0x1E]) rfl rfl rfl rfl _ fun t _ => ?_
    dsimp only
    rw [va_one]
    have hzero : (laneA i t).toNat = 0 ↔ laneA i t = 0 := by rw [← BitVec.toNat_inj]; rfl
    simp only [hzero]
  · subst hop
    have hbody : movBody i s' = threadBody {} (fun _ _ a _ _ => a) i s' := if_neg (by rw [opcode_of_issues h]; decide)
    exact threadRow_of h (ops := [0x1F, 0x2F]) rfl rfl rfl hbody _ fun t _ => by rw [va_one]
  · subst hop
    have hformat : formatI (iOp i.w) = true := by rw [opcode_of_issues h]; decide
    have hbody : movBody i s' = threadBody { a := 0, b := 1 } (fun _ _ _ b _ => b) i s' := if_pos hformat
    exact threadRow_of h (ops := [0x1F, 0x2F]) rfl rfl rfl hbody _ fun t _ => by rw [Issue.vb, if_pos hformat]
  · subst hop
    refine threadRow_of h (ops := [0x0E]) rfl rfl rfl rfl _ fun t _ => ?_
    dsimp only
    rw [vb_one]

end
end Sys2Proof.Machine

/-! # Wide and modular instructions of a crew (O37) -/
namespace Sys2Proof.Machine

section
variable {s : State}

/-! ### Writes of s and p registers (13 R651, R653) -/

/-- A write of an s register after an advance of the PC. -/
theorem writeS_wroteS (i : Issue) (n x : Nat) : WroteS i n x (writeS n x i.next) := by
  refine ⟨fun m => ?_, rfl⟩
  unfold readS writeS
  by_cases hm : m = n
  · subst hm
    rw [if_pos rfl, Table.getD_put_same, BitVec.toNat_ofNat]
  · rw [if_neg hm, Table.getD_put_ne _ _ _ hm]
    rfl

/-- A p register but p0, read after a write of the listed threads. -/
theorem readP_writeP {n : Nat} (hn : n ≠ 0) (ts : List Nat) (f : Nat → Bool) (c : Crew) (m t : Nat) :
    readP (writeP n ts f c) m t = if m = n ∧ t ∈ ts then f t else readP c m t := by
  have hfold := testBit_foldl_setBits f 0 ts (Table.getD c.p n 0) t
  simp only [Nat.zero_add, Nat.zero_le, Nat.sub_zero, true_and] at hfold
  unfold readP writeP
  by_cases hm : m = n
  · subst hm
    rw [Table.getD_put_same, hfold]
    by_cases ht : t ∈ ts <;> simp [ht, hn]
  · rw [Table.getD_put_ne _ _ _ hm, if_neg (fun h => hm h.1)]

theorem writeP_wroteP {i : Issue} {n : Nat} (hn : n ≠ 0) (f : Nat → Bool) : WroteP i n f (writeP n i.active f i.next) :=
  ⟨fun m t => readP_writeP hn i.active f i.next m t, rfl⟩

/-! ### Rows with tests of their own (13 R656) -/

/-- A row whose body first refuses an encoding, then waits for an operand. -/
theorem guarded_of {s' : State} {i : Issue} {op : Nat} (h : Issues s s' i op) {row : Instr} {ops : List Nat} {body : Issue → State → Issued}
    (hops : ops.contains op = true) (hop : assigned op = true) (hrow : exec row s = crewStep ops i.id body s) {ok waits : Bool} {t : Issued}
    (hbody : body i s' = if !ok then illegal s' else if waits then .wait else t) :
    Guarded s s' i row ok waits ∧ (ok = true → waits = false → exec row s = .next (t.after i s)) := by
  have hstep : exec row s = .next ((body i s').after i s) := by rw [hrow, crewStep_issues h hops hop]
  rw [hbody] at hstep
  refine ⟨⟨fun hok => ?_, fun hok hwaits => ?_⟩, fun hok hgo => ?_⟩
  · subst hok
    exact hstep
  · subst hok hwaits
    exact hstep
  · subst hok hgo
    exact hstep

/-! ### Sums and products of 64 bits (13 R659) -/

theorem readVs_two (c : Crew) (n t : Nat) : readVs c n t 2 = (readV c n t).toNat + 2 ^ 32 * (readV c (n + 1) t).toNat := by
  simp [readVs]

/-- The product of IMADW with its addend. -/
theorem imadw_result (i : Issue) (t : Nat) :
    ((if iSigned i.w then ofSigned 64 (toSigned 32 (i.va 1 t) * toSigned 32 (i.vb 1 t)) else i.va 1 t * i.vb 1 t) + i.vc 2 t) % 2 ^ (32 * 2)
      = ((if iSigned i.w then (laneA i t).signExtend 64 * (laneB i t).signExtend 64 else (laneA i t).setWidth 64 * (laneB i t).setWidth 64)
          + BitVec.ofNat 64 (i.vc 2 t)).toNat % 2 ^ (32 * 2) := by
  have hproduct : (if iSigned i.w then ofSigned 64 (toSigned 32 (laneA i t).toNat * toSigned 32 (laneB i t).toNat)
        else (laneA i t).toNat * (laneB i t).toNat)
      = (if iSigned i.w then (laneA i t).signExtend 64 * (laneB i t).signExtend 64
        else (laneA i t).setWidth 64 * (laneB i t).setWidth 64).toNat := by
    cases iSigned i.w
    · have hlt : (laneA i t).toNat * (laneB i t).toNat < 2 ^ 32 * 2 ^ 32 := Nat.mul_lt_mul'' (laneA i t).isLt (laneB i t).isLt
      simp only [Bool.false_eq_true, if_false, BitVec.toNat_mul, BitVec.toNat_setWidth]
      rw [Nat.mod_eq_of_lt ((laneA i t).isLt.trans (by decide)), Nat.mod_eq_of_lt ((laneB i t).isLt.trans (by decide)),
        Nat.mod_eq_of_lt (hlt.trans_eq (by decide))]
    · simp only [if_true, signExtend_mul, toSigned_toNat (by decide : 0 < 32)]
  rw [va_one, vb_one, hproduct]
  generalize (if iSigned i.w then (laneA i t).signExtend 64 * (laneB i t).signExtend 64
    else (laneA i t).setWidth 64 * (laneB i t).setWidth 64) = p
  rw [BitVec.toNat_add, BitVec.toNat_ofNat, Nat.mod_mod, Nat.add_mod_mod]

/-! ### Modular arithmetic (13 R672, R673) -/

/-- A Montgomery product is below the modulus, and the product of its inputs modulo it when multiplied by 2^64. -/
theorem montgomery_spec {q qi a b : Nat} (hhigh : q < 2 ^ 62) (ha : a < q) (hb : b < q) (hinv : (q * qi + 1) % 2 ^ 64 = 0) :
    montgomery q qi a b < q ∧ montgomery q qi a b * 2 ^ 64 % q = a * b % q := by
  set m := (a * b % 2 ^ 64) * qi % 2 ^ 64 with hm
  set u := (a * b + m * q) / 2 ^ 64 with hu
  have hmod : a * b + m * q ≡ 0 [MOD 2 ^ 64] := by
    have hmq : m ≡ a * b * qi [MOD 2 ^ 64] := (Nat.mod_modEq _ _).trans ((Nat.mod_modEq _ _).mul_right qi)
    calc a * b + m * q ≡ a * b + a * b * qi * q [MOD 2 ^ 64] := (hmq.mul_right q).add_left _
      _ = a * b * (q * qi + 1) := by ring
      _ ≡ a * b * 0 [MOD 2 ^ 64] := Nat.ModEq.mul_left _ (hinv.trans (Nat.zero_mod _).symm)
  have hexact : u * 2 ^ 64 = a * b + m * q := Nat.div_mul_cancel (Nat.modEq_zero_iff_dvd.mp hmod)
  have hsmall : u < 2 * q := by
    have hmlt : m < 2 ^ 64 := Nat.mod_lt _ (by decide)
    have hab : a * b < 2 ^ 62 * q := Nat.mul_lt_mul'' (ha.trans hhigh) hb
    have hmq : m * q ≤ (2 ^ 64 - 1) * q := Nat.mul_le_mul_right q (by omega)
    omega
  have hresult : montgomery q qi a b = if q ≤ u then u - q else u := rfl
  rw [hresult]
  split
  next hle =>
    refine ⟨by omega, ?_⟩
    have hback : (u - q) * 2 ^ 64 + q * 2 ^ 64 = a * b + m * q := by rw [← Nat.add_mul, Nat.sub_add_cancel hle, hexact]
    calc (u - q) * 2 ^ 64 % q = ((u - q) * 2 ^ 64 + q * 2 ^ 64) % q := (Nat.add_mul_mod_self_left ..).symm
      _ = a * b % q := by rw [hback, Nat.add_mul_mod_self_right]
  next hlt => exact ⟨by omega, by rw [hexact, Nat.add_mul_mod_self_right]⟩

theorem modSub_spec {q a b : Nat} (hq : 0 < q) (hb : b < q) : (a + q - b) % q < q ∧ ((a + q - b) % q + b) % q = a % q := by
  refine ⟨Nat.mod_lt _ hq, ?_⟩
  rw [Nat.mod_add_mod, Nat.sub_add_cancel (by omega), Nat.add_mod_right]

/-- A modular row: its encoding checks, and the results where the modulus and inputs are as R673 asks. -/
theorem modularRow_of {s' : State} {i : Issue} {op : Nat} (h : Issues s s' i op) {row : Instr} (hop : assigned op = true)
    {good : Nat → Nat → Nat → Nat → Bool} {F : Nat → Nat → Nat → Nat → Nat} (hrow : exec row s = crewStep [op] i.id (modularBody good F) s)
    {ok result : Nat → Nat → Nat → Nat → Prop}
    (hF : ∀ q qi a b, ok q qi a b → good q qi a b = true ∧ F q qi a b < 2 ^ 64 ∧ result q a b (F q qi a b)) :
    let sh : Shape := { dst := 2, a := 2, b := 2 }
    Guarded s s' i row (i.legal sh && iCs i.w && decide (iC i.w ≤ 62)) (i.waits sh)
    ∧ (i.legal sh = true → iCs i.w = true → iC i.w ≤ 62 → i.waits sh = false →
      ∃ c f, exec row s = .next (i.put c { s' with fresh := s'.fresh + 64 }) ∧ WroteV i 2 f c
        ∧ ∀ t ∈ i.active, ok (readS i.c (iC i.w)) (readS i.c (iC i.w + 1)) (i.va 2 t) (i.vb 2 t) →
            result (readS i.c (iC i.w)) (i.va 2 t) (i.vb 2 t) (f t)) := by
  intro sh
  let value (t : Nat) : Nat := if good (readS i.c (iC i.w)) (readS i.c (iC i.w + 1)) (i.va 2 t) (i.vb 2 t)
    then F (readS i.c (iC i.w)) (readS i.c (iC i.w + 1)) (i.va 2 t) (i.vb 2 t) else Config.freeNat (s'.fresh + t)
  have hbody : modularBody good F i s' = if !(i.legal sh && iCs i.w && decide (iC i.w ≤ 62)) then illegal s' else if i.waits sh then .wait
      else .go (i.put (writeKeys (i.active.flatMap (fun t => wordsFor (iDst i.w) t 2 (value t))) i.next) { s' with fresh := s'.fresh + 64 }) := by
    have hchecks : (!i.legal sh || !iCs i.w || decide (62 < iC i.w)) = !(i.legal sh && iCs i.w && decide (iC i.w ≤ 62)) := by
      rw [Bool.not_and, Bool.not_and, ← decide_not]
      simp only [Nat.not_le]
    rw [← hchecks]
    rfl
  obtain ⟨hguard, hgo⟩ := guarded_of h (ops := [op]) (by simp) hop hrow hbody
  refine ⟨hguard, fun hlegal hcs hc hwaits => ⟨_, value, hgo (by simp [hlegal, hcs, hc]) hwaits, writeKeys_wroteV i 2 value, fun t _ hok => ?_⟩⟩
  obtain ⟨hgood, -, hresult⟩ := hF _ _ _ _ hok
  rw [show value t = _ from if_pos hgood]
  exact hresult

/-- IADDC: the sum with the carry in, and the carry out. -/
theorem addCarry_row {s' : State} {i : Issue} (h : Issues s s' i 0x31) :
    Guarded s s' i (.iaddc i.id) (i.legal { b := 1 } && iMod i.w % 8 ≠ 0) (i.waits { b := 1 })
      ∧ (i.legal { b := 1 } = true → iMod i.w % 8 ≠ 0 → i.waits { b := 1 } = false →
        let sum := fun t => (laneA i t).toNat + (laneB i t).toNat + bitNat (readP i.c (iMod i.w % 8) t)
        ∃ c, exec (.iaddc i.id) s = .next (i.put c s') ∧ WroteV i 1 sum { c with p := i.c.p }
          ∧ (∀ m t, readP c m t = if m = iMod i.w % 8 ∧ t ∈ i.active then decide (2 ^ 32 ≤ sum t) else readP i.c m t)) := by
  let r (t : Nat) : Nat × Bool := addCarry (i.va 1 t) (i.vb 1 t) (readP i.c (iMod i.w % 8) t)
  have hbody : iaddcBody i s' = if !(i.legal { b := 1 } && iMod i.w % 8 ≠ 0) then illegal s' else if i.waits { b := 1 } then .wait
      else .go (i.put (writeP (iMod i.w % 8) i.active (fun t => (r t).2)
        (writeKeys (i.active.flatMap (fun t => wordsFor (iDst i.w) t 1 (r t).1)) i.next)) s') := by
    have hchecks : (!i.legal { b := 1 } || decide (iMod i.w % 8 = 0)) = !(i.legal { b := 1 } && decide (iMod i.w % 8 ≠ 0)) := by simp
    rw [← hchecks]
    rfl
  obtain ⟨hguard, hgo⟩ := guarded_of h (ops := [0x31]) (row := .iaddc i.id) rfl rfl rfl hbody
  refine ⟨hguard, fun hlegal hp hwaits => ⟨_, hgo (by simp [hlegal, hp]) hwaits, ?_, fun m t => ?_⟩⟩
  · have hsum : WroteV i 1 (fun t => (laneA i t).toNat + (laneB i t).toNat + bitNat (readP i.c (iMod i.w % 8) t))
        (writeKeys (i.active.flatMap (fun t => wordsFor (iDst i.w) t 1 (r t).1)) i.next) := by
      refine (writeKeys_wroteV i 1 _).congr fun t _ => ?_
      simp only [r, addCarry, va_one, vb_one]
      exact Nat.mod_mod ..
    obtain ⟨loads, heq, -⟩ := writeKeys_eq (i.active.flatMap (fun t => wordsFor (iDst i.w) t 1 (r t).1)) i.next
    rw [heq] at hsum ⊢
    exact hsum
  · obtain ⟨loads, heq, -⟩ := writeKeys_eq (i.active.flatMap (fun t => wordsFor (iDst i.w) t 1 (r t).1)) i.next
    rw [readP_writeP hp, heq]
    simp only [r, addCarry, va_one, vb_one]
    rfl

/-- Settles O37: sums and products by their words, MODMUL by Montgomery reduction, MODADD and MODSUB by the residue. -/
theorem crewWide : Obligations.CrewWide := by
  intro s s' i op h
  refine ⟨fun hop => ?_, fun hop => ?_, fun hop => ?_, fun row ok result hrow => ?_⟩
  · subst hop
    exact threadRow_of h (ops := [0x30]) rfl rfl rfl rfl _ fun t _ => rfl
  · subst hop
    obtain ⟨hguard, hgo⟩ := guarded_of h (ops := [0x35]) rfl rfl (row := .imadw i.id) rfl (rfl : imadwBody i s' = _)
    exact ⟨hguard, fun hok hwaits => ⟨_, hgo hok hwaits, (writeKeys_wroteV i 2 _).congr fun t _ => imadw_result i t⟩⟩
  · subst hop
    exact addCarry_row h
  · simp only [List.mem_cons, Prod.mk.injEq, List.not_mem_nil, or_false] at hrow
    rcases hrow with ⟨rfl, rfl, hok, hresult⟩ | ⟨rfl, rfl, hok, hresult⟩ | ⟨rfl, rfl, hok, hresult⟩
    · refine modularRow_of h (row := .modmul i.id) (ok := ok) (result := result) rfl rfl fun q qi a b hgood => ?_
      subst hok hresult
      obtain ⟨hodd, hlow, hhigh, ha, hb, hinv⟩ := hgood
      obtain ⟨hlt, hprod⟩ := montgomery_spec hhigh ha hb hinv
      exact ⟨by simp only [hodd, hlow, hhigh, ha, hb, hinv, decide_true, Bool.and_self], hlt.trans (hhigh.trans (by decide)), hlt, hprod⟩
    · refine modularRow_of h (row := .modadd i.id) (ok := ok) (result := result) rfl rfl fun q qi a b hgood => ?_
      subst hok hresult
      obtain ⟨hlow, hhigh, ha, hb⟩ := hgood
      have hlt := Nat.mod_lt (a + b) (show 0 < q by omega)
      exact ⟨by simp only [addModulusOk, hlow, hhigh, ha, hb, decide_true, Bool.and_self], hlt.trans (hhigh.trans (by decide)), hlt, Nat.mod_mod ..⟩
    · refine modularRow_of h (row := .modsub i.id) (ok := ok) (result := result) rfl rfl fun q qi a b hgood => ?_
      subst hok hresult
      obtain ⟨hlow, hhigh, ha, hb⟩ := hgood
      obtain ⟨hlt, hdiff⟩ := modSub_spec (a := a) (show 0 < q by omega) hb
      exact ⟨by simp only [addModulusOk, hlow, hhigh, ha, hb, decide_true, Bool.and_self], hlt.trans (hhigh.trans (by decide)), hlt, hdiff⟩

end
end Sys2Proof.Machine

/-! # Float, conversion and predicate instructions of a crew (O38) -/
namespace Sys2Proof.Machine

section
variable {s : State}

/-! ### Widths of rounded values (13 R663, R666, R670) -/

theorem sign_add_infBits_lt (f : FpFmt) (neg : Bool) : f.sign neg + f.infBits < 2 ^ (f.ebits + f.mbits + 1) := by
  have hsign : f.sign neg ≤ 2 ^ (f.ebits + f.mbits) := by
    unfold FpFmt.sign
    split <;> simp
  have hinf : f.infBits < 2 ^ (f.ebits + f.mbits) := by
    rw [FpFmt.infBits, pow_add]
    exact Nat.mul_lt_mul_of_pos_right (Nat.sub_lt (Nat.two_pow_pos _) one_pos) (Nat.two_pow_pos _)
  rw [pow_succ]
  omega

/-- A rounded value fits its format. -/
theorem round_lt {f : FpFmt} (hnan : f.nan < 2 ^ (f.ebits + f.mbits + 1)) (x : Fp) : f.round x < 2 ^ (f.ebits + f.mbits + 1) := by
  cases x with
  | nan => exact hnan
  | inf neg => exact sign_add_infBits_lt f neg
  | fin neg m e => exact (Nat.add_le_add_left (min_le_right _ _) _).trans_lt (sign_add_infBits_lt f neg)

theorem round16_lt (b : Bool) (x : Fp) : (if b then bf16 else f16).round x < 2 ^ 16 := by
  cases b
  · exact round_lt (f := f16) (by decide) x
  · exact round_lt (f := bf16) (by decide) x

/-- A packed value fits a byte. -/
theorem pack8_lt (b sat : Bool) (x : Fp) : pack8 (if b then e5m2 else e4m3) sat x < 2 ^ 8 := by
  have hsign (neg : Bool) : FpFmt.sign e5m2 neg ≤ 128 ∧ FpFmt.sign e4m3 neg ≤ 128 := by cases neg <;> decide
  have hmax : e5m2.maxFinite = 123 ∧ e4m3.maxFinite = 126 ∧ e5m2.infBits = 124 := by decide
  have hbig (neg : Bool) : (if sat then FpFmt.sign e5m2 neg + e5m2.maxFinite else FpFmt.sign e5m2 neg + e5m2.infBits) < 2 ^ 8
      ∧ (if sat then FpFmt.sign e4m3 neg + e4m3.maxFinite else e4m3.nan) < 2 ^ 8 := by
    have := hsign neg
    cases sat <;> simp only [Bool.false_eq_true, if_false, if_true] <;> omega
  cases x with
  | nan => cases b <;> simp [pack8]
  | inf neg =>
    cases b
    · exact (hbig neg).2
    · exact (hbig neg).1
  | fin neg m e =>
    have := hsign neg
    cases b <;> simp only [pack8, Bool.false_eq_true, if_false, if_true] <;> split
    · exact (hbig neg).2
    · omega
    · exact (hbig neg).1
    · omega

/-! ### Halves and bytes of a result -/

theorem bitsOf_low {lo hi w : Nat} (h : lo < 2 ^ w) : bitsOf (lo + 2 ^ w * hi) 0 w = lo := by
  rw [bitsOf, Nat.shiftRight_zero, Nat.add_mul_mod_self_left, Nat.mod_eq_of_lt h]

theorem bitsOf_high {lo hi w : Nat} (h : lo < 2 ^ w) (hhi : hi < 2 ^ w) : bitsOf (lo + 2 ^ w * hi) w w = hi := by
  rw [bitsOf, Nat.shiftRight_eq_div_pow, Nat.add_mul_div_left _ _ (Nat.two_pow_pos w), Nat.div_eq_of_lt h, Nat.zero_add, Nat.mod_eq_of_lt hhi]

theorem bitsOf_word (x : Word32) : bitsOf x.toNat 16 16 = x.toNat / 2 ^ 16 := by
  have hx := x.isLt
  rw [bitsOf, Nat.shiftRight_eq_div_pow]
  omega

/-- Each half of a two-lane result is its lane's result. -/
theorem lanes16_half (m : Nat) (f : Fp → Fp → Fp → Fp) (a b c : Word32) {h : Nat} (hh : h < 2) :
    let fmt := if m.testBit 5 then bf16 else f16
    let half := fun (x : Word32) => fmt.value (bitsOf x.toNat (16 * h) 16)
    bitsOf (lanes16 m f a.toNat b.toNat c.toNat) (16 * h) 16 = fmt.round (f (modA m (half a)) (modB m (half b)) (modC m (half c))) := by
  intro fmt half
  obtain rfl | rfl : h = 0 ∨ h = 1 := by omega
  · exact bitsOf_low (round16_lt ..)
  · simp only [half, Nat.mul_one, bitsOf_word]
    exact bitsOf_high (round16_lt ..) (round16_lt ..)

/-- F8PACK writes two bytes of a word and leaves the other two. -/
theorem pack_halves (old p q k : Nat) (hp : p < 2 ^ 8) (hq : q < 2 ^ 8) (hk : k < 2) :
    bitsOf (setBits old (16 * k) 16 (p + 2 ^ 8 * q)) (16 * k) 8 = p ∧ bitsOf (setBits old (16 * k) 16 (p + 2 ^ 8 * q)) (16 * k + 8) 8 = q
    ∧ bitsOf (setBits old (16 * k) 16 (p + 2 ^ 8 * q)) (16 * (1 - k)) 16 = bitsOf old (16 * (1 - k)) 16 := by
  simp only [setBits_eq, bitsOf, Nat.shiftRight_eq_div_pow]
  obtain rfl | rfl : k = 0 ∨ k = 1 := by omega
  · norm_num
    omega
  · norm_num
    omega

/-! ### Predicates (13 R659, R668) -/

/-- A compare by its code, of values of which one is below the other or they are equal. -/
def compareCode (m : Nat) (lt eq : Bool) : Bool :=
  match m with
  | 0 => eq
  | 1 => !eq
  | 2 => lt
  | 3 => lt || eq
  | 4 => !(lt || eq)
  | _ => !lt

/-- An integer compare on words. -/
theorem compareInt_eq {m : Nat} (hm : m ≤ 5) (signed : Bool) (a b : Word32) :
    compareInt m signed a.toNat b.toNat = compareCode m (if signed then a.slt b else a.ult b) (a == b) := by
  have hlt : (if signed then decide (toSigned 32 a.toNat < toSigned 32 b.toNat) else decide (a.toNat < b.toNat))
      = if signed then a.slt b else a.ult b := below32_eq signed a b
  have heq : decide (a.toNat = b.toNat) = (a == b) := by
    rw [Bool.eq_iff_iff, decide_eq_true_iff, beq_iff_eq, BitVec.toNat_inj]
  have hne : decide (a.toNat ≠ b.toNat) = !(a == b) := by rw [← heq, decide_not]
  interval_cases m <;> simp only [compareInt, compareCode, hlt, heq, hne]

/-- A compare into a p register. -/
theorem setpRow_of {s' : State} {i : Issue} {op : Nat} (h : Issues s s' i op) {row : Instr} (hop : assigned op = true)
    {F : Issue → Nat → Nat → Bool} (hrow : exec row s = crewStep [op] i.id (setpBody F) s) {f : Nat → Bool}
    (hF : iMod i.w ≤ 5 → ∀ t, F i (laneA i t).toNat (laneB i t).toNat = f t) :
    let ok := i.legal { dst := 0, b := 1 } && decide (1 ≤ iDst i.w ∧ iDst i.w ≤ 7 ∧ iMod i.w ≤ 5)
    Guarded s s' i row ok (i.waits { dst := 0, b := 1 })
    ∧ (ok = true → i.waits { dst := 0, b := 1 } = false → ∃ c, exec row s = .next (i.put c s') ∧ WroteP i (iDst i.w) f c) := by
  intro ok
  have hbody : setpBody F i s' = if !ok then illegal s' else if i.waits { dst := 0, b := 1 } then .wait
      else .go (i.put (writeP (iDst i.w) i.active (fun t => F i (i.va 1 t) (i.vb 1 t)) i.next) s') := by
    have hchecks : (!i.legal { dst := 0, b := 1 } || decide (iDst i.w = 0) || decide (7 < iDst i.w) || decide (5 < iMod i.w)) = !ok := by
      rw [Bool.eq_iff_iff]
      cases hlegal : i.legal { dst := 0, b := 1 }
      · simp [ok, hlegal]
      · simp only [ok, hlegal, Bool.or_eq_true, Bool.not_eq_true', Bool.and_eq_false_iff, decide_eq_true_eq, decide_eq_false_iff_not,
          Bool.not_true, reduceCtorEq, false_or]
        omega
    rw [← hchecks]
    rfl
  obtain ⟨hguard, hgo⟩ := guarded_of h (ops := [op]) (row := row) (by simp) hop hrow hbody
  refine ⟨hguard, fun hok hwaits => ⟨_, hgo hok hwaits, ?_⟩⟩
  simp only [ok, Bool.and_eq_true, decide_eq_true_eq] at hok
  obtain ⟨-, hdst, -, hmod⟩ := hok
  have hvalue : (fun t => F i (i.va 1 t) (i.vb 1 t)) = f := funext fun t => by rw [va_one, vb_one, hF hmod]
  rw [hvalue]
  exact writeP_wroteP (by omega) f

/-- PLOP. -/
theorem plop_row {s' : State} {i : Issue} (h : Issues s s' i 0x62) :
    let ok := reservedOk i.w && decide (1 ≤ iDst i.w ∧ iDst i.w ≤ 7 ∧ iA i.w ≤ 7 ∧ iB i.w ≤ 7 ∧ iMod i.w ≤ 3)
    Guarded s s' i (.plop i.id) ok false
    ∧ (ok = true → ∃ c, exec (.plop i.id) s = .next (i.put c s')
        ∧ WroteP i (iDst i.w) (fun t => predOp (iMod i.w) (readP i.c (iA i.w) t) (readP i.c (iB i.w) t)) c) := by
  intro ok
  have hbody : plopBody i s' = if !ok then illegal s' else if false then .wait
      else .go (i.put (writeP (iDst i.w) i.active (fun t => predOp (iMod i.w) (readP i.c (iA i.w) t) (readP i.c (iB i.w) t)) i.next) s') := by
    have hchecks : (!reservedOk i.w || decide (iDst i.w = 0) || decide (7 < iDst i.w) || decide (7 < iA i.w) || decide (7 < iB i.w)
        || decide (3 < iMod i.w)) = !ok := by
      rw [Bool.eq_iff_iff]
      cases hres : reservedOk i.w
      · simp [ok, hres]
      · simp only [ok, hres, Bool.or_eq_true, Bool.not_eq_true', Bool.and_eq_false_iff, decide_eq_true_eq, decide_eq_false_iff_not,
          Bool.not_true, reduceCtorEq, false_or]
        omega
    rw [← hchecks]
    rfl
  obtain ⟨hguard, hgo⟩ := guarded_of h (ops := [0x62]) (row := .plop i.id) rfl rfl rfl hbody
  refine ⟨hguard, fun hok => ⟨_, hgo hok rfl, writeP_wroteP ?_ _⟩⟩
  simp only [ok, Bool.and_eq_true, decide_eq_true_eq] at hok
  omega

/-! ### Conversions (13 R667) -/

/-- CVT: its encoding checks, and the results that are stated. -/
theorem cvt_row {s' : State} {i : Issue} (h : Issues s s' i 0x50) :
    (4 < iMod i.w % 16 ∨ 4 < iMod i.w / 16 → exec (.cvt i.id) s = .next (faultCrew i.c i.g i.l 4 0 s'))
    ∧ (iMod i.w % 16 ≤ 4 → iMod i.w / 16 ≤ 4 → Guarded s s' i (.cvt i.id) (i.legal {}) (i.waits {}))
    ∧ (iMod i.w % 16 ≤ 4 → iMod i.w / 16 ≤ 4 → i.legal {} = true → i.waits {} = false →
      ∃ c f, exec (.cvt i.id) s = .next (i.put c { s' with fresh := s'.fresh + 64 }) ∧ WroteV i 1 f c
        ∧ ∀ t ∈ i.active, cvtStated (iMod i.w % 16) (iMod i.w / 16) (laneA i t).toNat = true →
            f t = cvtResult (iMod i.w / 16) (cvtSource (iMod i.w % 16) (laneA i t).toNat)) := by
  let value (t : Nat) : Nat := if cvtStated (iMod i.w % 16) (iMod i.w / 16) (i.va 1 t) then
    cvtResult (iMod i.w / 16) (cvtSource (iMod i.w % 16) (i.va 1 t)) else Config.freeNat (s'.fresh + t)
  have hbody : cvtBody i s' = if 4 < iMod i.w % 16 || 4 < iMod i.w / 16 || !i.legal {} then illegal s' else if !i.legal {} then
      illegal { s' with fresh := s'.fresh + 64 } else if i.waits {} then .wait
      else .go (i.put (writeKeys (i.active.flatMap (fun t => wordsFor (iDst i.w) t 1 (value t))) i.next) { s' with fresh := s'.fresh + 64 }) := rfl
  have hstep : exec (.cvt i.id) s = .next ((cvtBody i s').after i s) := crewStep_issues h (ops := [0x50]) rfl rfl _
  rw [hbody] at hstep
  refine ⟨fun hbad => ?_, fun hsrc hdst => ⟨fun hok => ?_, fun hok hwaits => ?_⟩, fun hsrc hdst hok hwaits => ⟨_, value, ?_, writeKeys_wroteV i 1 value, ?_⟩⟩
  · rw [hstep, if_pos (by simp only [Bool.or_eq_true, decide_eq_true_eq]; exact .inl hbad)]
    rfl
  · rw [hstep, if_pos (by simp [hok])]
    rfl
  · rw [hstep, if_neg (by simp [hok]; omega), if_neg (by simp [hok]), if_pos hwaits]
    rfl
  · rw [hstep, if_neg (by simp [hok]; omega), if_neg (by simp [hok]), if_neg (by simp [hwaits])]
    rfl
  · intro t _ hstated
    rw [← va_one] at hstated ⊢
    exact if_pos hstated

/-- Settles O38: each row writes what its function of the operands' values rounds to. -/
theorem crewFloats : Obligations.CrewFloats := by
  intro s s' i op h m a b
  refine ⟨fun hop => ?_, fun hop => ?_, fun hop => ?_, fun hop => ?_, fun hop => ?_, fun hop => ?_, fun hop => ⟨fun hm => ?_, fun hm => ?_⟩,
    fun row f sh hrow => ?_, fun hop => ?_, fun hop => ?_, fun hop => ?_, fun row f hrow => ?_, fun hop => ?_⟩
  · subst hop
    exact threadRow_of h (ops := [0x40]) rfl rfl rfl rfl _ fun t _ => by rw [va_one, vb_one]
  · subst hop
    exact threadRow_of h (ops := [0x41]) rfl rfl rfl rfl _ fun t _ => by rw [va_one, vb_one]
  · subst hop
    exact threadRow_of h (ops := [0x42]) rfl rfl rfl rfl _ fun t _ => by rw [va_one, vb_one]
  · subst hop
    exact threadRow_of h (ops := [0x43]) rfl rfl rfl rfl _ fun t _ => by rw [va_one, vb_one, vc_one]
  · subst hop
    exact threadRow_of h (ops := [0x44]) rfl rfl rfl rfl _ fun t _ => by rw [va_one, vb_one]
  · subst hop
    exact threadRow_of h (ops := [0x45]) rfl rfl rfl rfl _ fun t _ => by rw [va_one, vb_one]
  · subst hop
    have hbody : ffuncBody i s' = illegal s' := if_pos hm
    exact (crewStep_issues h (ops := [0x46]) rfl rfl ffuncBody).trans (by rw [hbody]; rfl)
  · subst hop
    exact threadRow_of h (ops := [0x46]) (body := ffuncBody) rfl rfl rfl (if_neg (Nat.not_lt.mpr hm)) _ fun t _ => by rw [va_one]
  · simp only [List.mem_cons, Prod.mk.injEq, List.not_mem_nil, or_false] at hrow
    rcases hrow with ⟨rfl, rfl, rfl, rfl⟩ | ⟨rfl, rfl, rfl, rfl⟩ | ⟨rfl, rfl, rfl, rfl⟩
    · exact ⟨_, threadRow_of h (ops := [0x48]) rfl rfl rfl rfl _ fun t _ => by rw [va_one, vb_one],
        fun t _ k hk => lanes16_half m _ (laneA i t) (laneB i t) 0 hk⟩
    · exact ⟨_, threadRow_of h (ops := [0x49]) rfl rfl rfl rfl _ fun t _ => by rw [va_one, vb_one],
        fun t _ k hk => lanes16_half m _ (laneA i t) (laneB i t) 0 hk⟩
    · exact ⟨_, threadRow_of h (ops := [0x4A]) rfl rfl rfl rfl _ fun t _ => by rw [va_one, vb_one, vc_one],
        fun t _ k hk => lanes16_half m _ (laneA i t) (laneB i t) (laneC i t) hk⟩
  · subst hop
    exact cvt_row h
  · subst hop
    refine ⟨_, threadRow_of h (ops := [0x51]) rfl rfl rfl rfl _ fun t _ => by rw [va_one, vb_one], fun t _ => ?_⟩
    exact pack_halves _ _ _ _ (pack8_lt ..) (pack8_lt ..) (Nat.mod_lt _ two_pos)
  · subst hop
    exact threadRow_of h (ops := [0x52]) rfl rfl rfl rfl _ fun t _ => by rw [va_one]
  · simp only [List.mem_cons, Prod.mk.injEq, List.not_mem_nil, or_false] at hrow
    rcases hrow with ⟨rfl, rfl, rfl⟩ | ⟨rfl, rfl, rfl⟩
    · exact setpRow_of h (row := .isetp i.id) rfl rfl fun hm t => compareInt_eq hm ..
    · exact setpRow_of h (row := .fsetp i.id) rfl rfl fun _ t => rfl
  · subst hop
    exact plop_row h

end
end Sys2Proof.Machine

/-! # Scalar instructions of a crew (O39) -/
namespace Sys2Proof.Machine

section
variable {s : State}

/-! ### Crew instructions (13 R651) -/

/-- A crew instruction: its encoding check; only the PC where its predicate does not hold in the cox lane; else what its body does. -/
theorem crewRow_of {s' : State} {i : Issue} {op : Nat} (h : Issues s s' i op) {row : Instr} {ops : List Nat} {ok : Issue → Bool}
    {f : Issue → State → Issued} (hops : ops.contains op = true) (hop : assigned op = true)
    (hrow : exec row s = crewStep ops i.id (crewBody ok f) s) :
    Guarded s s' i row (reservedOk i.w && ok i) false
    ∧ (reservedOk i.w = true → ok i = true → i.pred 0 = false → exec row s = .next (i.put i.next s'))
    ∧ (reservedOk i.w = true → ok i = true → i.pred 0 = true → exec row s = .next ((f i s').after i s)) := by
  have hstep : exec row s = .next ((crewBody ok f i s').after i s) := by rw [hrow, crewStep_issues h hops hop]
  refine ⟨⟨fun hbad => ?_, fun _ hwaits => nomatch hwaits⟩, fun hres hok hpred => ?_, fun hres hok hpred => ?_⟩
  · rw [hstep, crewBody, hbad]
    rfl
  · rw [hstep, crewBody, hres, hok, hpred]
    rfl
  · rw [hstep, crewBody, hres, hok, hpred]
    rfl

/-- A crew instruction that writes an s register. -/
theorem scalarRow_of {s' : State} {i : Issue} {op : Nat} (h : Issues s s' i op) {row : Instr} {ops : List Nat} {ok : Issue → Bool}
    {f : Issue → State → Issued} (hops : ops.contains op = true) (hop : assigned op = true)
    (hrow : exec row s = crewStep ops i.id (crewBody ok f) s) {good : Bool} (hok : ok i = good) {x y : Nat}
    (hf : f i s' = .go (i.put (writeS (iDst i.w) x i.next) s')) (hxy : x % 2 ^ 64 = y % 2 ^ 64) : ScalarRow s s' i row good y := by
  obtain ⟨hguard, hnot, hdo⟩ := crewRow_of h hops hop hrow
  subst hok
  refine ⟨hguard, hnot, fun hres hgood hpred => ⟨_, (hdo hres hgood hpred).trans (by rw [hf]; rfl), ?_⟩⟩
  obtain ⟨hread, hkept⟩ := writeS_wroteS i (iDst i.w) x
  exact ⟨fun m => (hread m).trans (by rw [hxy]), hkept⟩

/-! ### Results of 64 bits (13 R659) -/

/-- The model's scalar function `F` computes `f` modulo 2^64. -/
def Computes64 (F : Bool → Nat → Nat → Nat) (f : Bool → Word64 → Word64 → Word64) : Prop :=
  ∀ (g : Bool) (a b : Word64), F g a.toNat b.toNat % 2 ^ 64 = (f g a b).toNat

theorem computes64_add : Computes64 (fun _ a b => a + b) (fun _ a b => a + b) := fun _ a b => (BitVec.toNat_add a b).symm

theorem computes64_sub : Computes64 (fun _ a b => a + 2 ^ 64 - b) (fun _ a b => a - b) := fun _ a b => by
  have hb := b.isLt
  rw [BitVec.toNat_sub]
  dsimp only
  congr 1
  omega

theorem computes64_mul : Computes64 (fun _ a b => a * b) (fun _ a b => a * b) := fun _ a b => (BitVec.toNat_mul a b).symm

theorem computes64_and : Computes64 (fun _ a b => a &&& b) (fun _ a b => a &&& b) := fun _ a b => by
  rw [BitVec.toNat_and, Nat.mod_eq_of_lt (Nat.and_lt_two_pow _ b.isLt)]

theorem computes64_or : Computes64 (fun _ a b => a ||| b) (fun _ a b => a ||| b) := fun _ a b => by
  rw [BitVec.toNat_or, Nat.mod_eq_of_lt (Nat.or_lt_two_pow a.isLt b.isLt)]

theorem computes64_xor : Computes64 (fun _ a b => a ^^^ b) (fun _ a b => a ^^^ b) := fun _ a b => by
  rw [BitVec.toNat_xor, Nat.mod_eq_of_lt (Nat.xor_lt_two_pow a.isLt b.isLt)]

theorem computes64_shl : Computes64 (fun _ a b => a <<< (b % 64)) (fun _ a b => a <<< (b.toNat % 64)) := fun _ _ _ =>
  (BitVec.toNat_shiftLeft ..).symm

theorem computes64_shr : Computes64 (fun g a b => shiftRight 64 g a (b % 64))
    (fun g a b => if g then a.sshiftRight (b.toNat % 64) else a >>> (b.toNat % 64)) := by
  intro g a b
  cases g
  · have hlt : a.toNat >>> (b.toNat % 64) < 2 ^ 64 := (Nat.shiftRight_le _ _).trans_lt a.isLt
    simp only [shiftRight, Bool.false_eq_true, if_false, BitVec.toNat_ushiftRight, Nat.mod_eq_of_lt hlt]
  · simp only [if_true, shiftRight_signed (by decide : 0 < 64)]
    exact Nat.mod_eq_of_lt (BitVec.isLt _)

/-- A scalar instruction of two s registers. -/
theorem scalarRow_two {s' : State} {i : Issue} {op : Nat} (h : Issues s s' i op) {row : Instr} (hop : assigned op = true)
    {F : Bool → Nat → Nat → Nat} {f : Bool → Word64 → Word64 → Word64} (hrow : exec row s = scalarStep op i.id F s) (hF : Computes64 F f) :
    ScalarRow s s' i row (decide (iDst i.w < 64 ∧ iA i.w < 64 ∧ iB i.w < 64)) (f (iSigned i.w) (scalar i (iA i.w)) (scalar i (iB i.w))).toNat := by
  refine scalarRow_of h (ops := [op]) (by simp) hop hrow ?_ rfl ?_
  · simp only [Bool.decide_and, Bool.and_assoc]
  · rw [← hF, Nat.mod_mod]
    rfl

/-- The immediate sign-extended to a word. -/
theorem iSext_eq (w : Nat) : iSext w = ((BitVec.ofNat 32 (iImm w)).signExtend 64).toNat := by
  have himm : iImm w = (BitVec.ofNat 32 (iImm w)).toNat := by
    rw [BitVec.toNat_ofNat]
    exact (Nat.mod_mod ..).symm
  rw [iSext, himm, toSigned_toNat (by decide), ← ofSigned_toInt, BitVec.toInt_signExtend_of_le (by decide)]
  rw [← himm]

/-- The upper half of an s register replaced. -/
theorem setBits_upper {v x : Nat} (hv : v < 2 ^ 64) (hx : x < 2 ^ 32) : setBits v 32 32 x = v % 2 ^ 32 + x * 2 ^ 32 := by
  rw [setBits_eq]
  omega

theorem readS_lt (c : Crew) (n : Nat) : readS c n < 2 ^ 64 := BitVec.isLt _

/-- Settles O39: each row is a crew instruction whose value is that of the class table, and S2V a thread instruction. -/
theorem crewScalars : Obligations.CrewScalars := by
  intro s s' i op h
  refine ⟨fun row f hrow => ?_, fun hop => ?_, fun hop => ?_, fun hop => ?_, fun hop => ?_, fun hop cycle => ?_, fun hop => ?_, fun hop hpending => ?_⟩
  · simp only [List.mem_cons, Prod.mk.injEq, List.not_mem_nil, or_false] at hrow
    rcases hrow with ⟨rfl, rfl, rfl⟩ | ⟨rfl, rfl, rfl⟩ | ⟨rfl, rfl, rfl⟩ | ⟨rfl, rfl, rfl⟩ | ⟨rfl, rfl, rfl⟩ | ⟨rfl, rfl, rfl⟩ | ⟨rfl, rfl, rfl⟩
      | ⟨rfl, rfl, rfl⟩
    · exact scalarRow_two h rfl rfl computes64_add
    · exact scalarRow_two h rfl rfl computes64_sub
    · exact scalarRow_two h rfl rfl computes64_mul
    · exact scalarRow_two h rfl rfl computes64_and
    · exact scalarRow_two h rfl rfl computes64_or
    · exact scalarRow_two h rfl rfl computes64_xor
    · exact scalarRow_two h rfl rfl computes64_shl
    · exact scalarRow_two h rfl rfl computes64_shr
  · subst hop
    exact scalarRow_of h (ops := [0x98]) (row := .smovi i.id) rfl rfl rfl (Bool.and_true _) rfl (by dsimp only; rw [iSext_eq])
  · subst hop
    refine scalarRow_of h (ops := [0x99]) (row := .ssethi i.id) rfl rfl rfl (Bool.and_true _) rfl ?_
    dsimp only
    have himm : iImm i.w < 2 ^ 32 := Nat.mod_lt _ (by decide)
    rw [setBits_upper (readS_lt ..) himm]
  · subst hop
    refine scalarRow_of h (ops := [0x9C]) (row := .saddi i.id) rfl rfl rfl (Bool.decide_and ..).symm rfl ?_
    dsimp only
    rw [iSext_eq, BitVec.toNat_add, Nat.mod_mod]
    rfl
  · subst hop
    refine ⟨_, scalarRow_of h (ops := [0x0C]) (row := .vote i.id) rfl rfl rfl (Bool.decide_and ..).symm rfl rfl, fun t => ?_⟩
    rw [testBit_bitMask]
    simp
  · subst hop
    refine scalarRow_of h (ops := [0x09]) (row := .sread i.id cycle) rfl rfl rfl (Bool.decide_and ..).symm rfl ?_
    rfl
  · subst hop
    have hbody : s2vBody i s' = if !(i.legal { a := 0 } && decide (iA i.w < 64)) then illegal s' else if i.waits { a := 0 } then .wait
        else .go (i.put (writeKeys (i.active.flatMap (fun t => wordsFor (iDst i.w) t 1
          (bitsOf (readS i.c (iA i.w)) (if iMod i.w % 2 = 1 then 32 else 0) 32))) i.next) s') := by
      rw [s2vBody]
      by_cases ha : 64 ≤ iA i.w
      · rw [if_pos ha, if_pos (by simp [Nat.not_lt.mpr ha])]
      · rw [if_neg ha, threadBody, decide_eq_true (Nat.not_le.mp ha), Bool.and_true]
    obtain ⟨hguard, hgo⟩ := guarded_of h (ops := [0x9A]) (row := .s2v i.id) rfl rfl rfl hbody
    refine ⟨hguard, fun hlegal ha hwaits => ⟨_, hgo (by simp [hlegal, ha]) hwaits, (writeKeys_wroteV i 1 _).congr fun t _ => ?_⟩⟩
    rw [bitsOf, Nat.shiftRight_eq_div_pow]
    exact Nat.mod_mod ..
  · subst hop
    refine scalarRow_of h (ops := [0x9B]) (row := .v2s i.id) rfl rfl rfl rfl ?_ rfl
    exact if_neg (by rw [hpending]; decide)

end
end Sys2Proof.Machine

/-! # Control instructions of a crew (O40) -/
namespace Sys2Proof.Machine

/-! ### What the fetch of a word leaves (05 R240-R247; 13 R652) -/

section
variable (s : State)

theorem lineFrame_faultyRead (faults : List LineFault) (a n : Nat) : lineFrame (faultyRead faults a n s).2 = lineFrame s := by
  grind [faultyRead, holeRequest, eventRecord]
grind_pattern lineFrame_faultyRead => lineFrame (faultyRead faults a n s).2

theorem lineFrame_walkEntry (faults : List LineFault) (a : Nat) : lineFrame (walkEntry faults a s).2 = lineFrame s := by
  grind [walkEntry]
grind_pattern lineFrame_walkEntry => lineFrame (walkEntry faults a s).2

theorem lineFrame_walk (faults : List LineFault) (x n va k level table : Nat) : lineFrame (walk faults x n va k level table s).2 = lineFrame s := by
  fun_induction walk faults x n va k level table s <;> grind
grind_pattern lineFrame_walk => lineFrame (walk faults x n va k level table s).2

theorem lineFrame_setCache (eight : Nat) (l : List Cached) : lineFrame (setCache eight l s) = lineFrame s := rfl
grind_pattern lineFrame_setCache => lineFrame (setCache eight l s)

theorem lineFrame_useCopy (faults : List LineFault) (eight : Nat) (c : Cached) : lineFrame (useCopy faults eight c s) = lineFrame s := by
  grind [useCopy]
grind_pattern lineFrame_useCopy => lineFrame (useCopy faults eight c s)

theorem lineFrame_enterCopy (eight : Nat) (c : Cached) : lineFrame (enterCopy eight c s) = lineFrame s := rfl
grind_pattern lineFrame_enterCopy => lineFrame (enterCopy eight c s)

end

section
variable {s : State}

theorem lineFrame_useLeaf {faults : List LineFault} {eight va : Nat} {want : Want} {c : Cached} {a : Nat} {u : State}
    (h : useLeaf faults eight want va c s = .at a u) : lineFrame u = lineFrame s := by
  unfold useLeaf xlatFault at h
  dsimp only at h
  generalize (if c.giant = true then 2 ^ 30 else 2 ^ 21 : Nat) = size at h
  split at h
  · cases h
  · split at h
    · cases h
    · split at h
      · cases h
      · cases h
        exact lineFrame_useCopy ..

theorem lineFrame_translate {faults : List LineFault} {eight x va : Nat} {want : Want} {a : Nat} {u : State}
    (h : translate faults eight x want va s = .at a u) : lineFrame u = lineFrame s := by
  unfold translate xlatFault at h
  split at h
  · cases h
  · split at h
    · exact lineFrame_useLeaf h
    · have hwalk := lineFrame_walk s faults x (x / 64) va 3 1 ((ctxOf s x).getD {}).root
      split at h
      · cases h
      next c u' hu =>
        rw [hu] at hwalk
        exact (lineFrame_useLeaf h).trans hwalk

theorem lineFrame_fetchWord {c : Crew} {g : Group} {l : Launch} {w : Nat} {u : State} (h : fetchWord c g l s = .word w u) :
    lineFrame u = lineFrame s := by
  unfold fetchWord at h
  split at h
  · cases h
  · split at h
    · cases h
    · cases h
    · cases h
    next a v hv =>
      have hread := lineFrame_faultyRead v [] a 8
      split at h
      next bs t ht =>
        cases h
        rw [ht] at hread
        exact hread.trans (lineFrame_translate hv)
      · cases h

/-- The fetch of an instruction leaves crews, groups and launches, sectors and rings. -/
theorem fetch_kept {s' : State} {i : Issue} {op : Nat} (h : Issues s s' i op) : s'.scl = s.scl ∧ s'.sct = s.sct ∧ s'.rings = s.rings := by
  obtain ⟨-, -, -, -, hfetch, -⟩ := h
  have hframe := lineFrame_fetchWord hfetch
  have hscl := congrArg State.scl hframe
  have hsct := congrArg State.sct hframe
  have hrings := congrArg State.rings hframe
  exact ⟨hscl, hsct, hrings⟩

/-! ### Barriers and ends of groups (12 R612, R620, R639) -/

theorem find_map_crews (f : Crew → Crew) (p : Crew → Bool) (l : Table Crew) (k : Nat) :
    Table.find (l.map (fun e => if p e.2 then (e.1, f e.2) else e)) k = (Table.find l k).map (fun c => if p c then f c else c) := by
  induction l with
  | nil => rfl
  | cons e l ih =>
    obtain ⟨j, c⟩ := e
    rw [List.map_cons]
    by_cases hp : p c = true <;> by_cases hj : j = k <;> simp [Table.find, hp, hj, ih]

/-- While a crew of the group is on its way, the barrier holds. -/
theorem releaseBarrier_holds {g : Nat} (h : ∃ e ∈ s.scl.crews, e.2.group = g ∧ e.2.ended = false ∧ e.2.atBarrier = false) :
    releaseBarrier g s = s := by
  obtain ⟨e, he, hg, hended, hbar⟩ := h
  refine if_neg fun hall => ?_
  have := List.all_eq_true.mp hall e (List.mem_filter.mpr ⟨he, by simp [hg]⟩)
  simp [hended, hbar] at this

/-- Once every crew of the group is there or has ended, it ends for all. -/
theorem releaseBarrier_ends {g : Nat} (h : ∀ e ∈ s.scl.crews, e.2.group = g → e.2.ended = true ∨ e.2.atBarrier = true) :
    releaseBarrier g s = setScl { s.scl with
      crews := s.scl.crews.map (fun e => if e.2.group = g then (e.1, { e.2 with atBarrier := false }) else e) } s := by
  refine if_pos (List.all_eq_true.mpr fun e he => ?_)
  obtain ⟨hmem, hg⟩ := List.mem_filter.mp he
  simpa using h e hmem (by simpa using hg)

/-- A group with a crew that has not ended stays. -/
theorem settleGroup_stays {g elapsed : Nat} (h : ∃ e ∈ s.scl.crews, e.2.group = g ∧ e.2.ended = false) : settleGroup g elapsed s = s := by
  obtain ⟨e, he, hg, hended⟩ := h
  unfold settleGroup
  split
  · rfl
  · refine if_pos ?_
    rw [Bool.not_eq_true', List.all_eq_false]
    exact ⟨e, List.mem_filter.mpr ⟨he, by simp [hg]⟩, by simp [hended]⟩

/-- Without a sector command the end of a launch is no one's. -/
theorem noteLaunchEnd_idle (h : s.sct.cmd = none) (age : Nat) (killed : Bool) : noteLaunchEnd age killed s = s := by
  rw [noteLaunchEnd, h]

/-- The last group of a launch that ends alone completes the launch. -/
theorem settleGroup_completes {g elapsed : Nat} {grp : Group} {l : Launch} {k : Nat} {c : Crew} (hcrews : s.scl.crews = [(k, c)])
    (hg : c.group = g) (hended : c.ended = true) (hmatrix : s.scl.matrix = []) (hgroup : Table.find s.scl.groups g = some grp)
    (hlaunch : Table.find s.scl.launches grp.age = some l) (hlast : l.groups ≤ l.ended + 1) (hcmd : s.sct.cmd = none) :
    settleGroup g elapsed s = bump (finish l.serial stOk l.groups elapsed (setScl { s.scl with
      crews := [], groups := Table.drop s.scl.groups g, launches := Table.drop s.scl.launches grp.age } s)) .sclLaunchCount := by
  unfold settleGroup
  rw [hgroup]
  dsimp only
  rw [if_neg (by simp [hcrews, hg, hended, hasDescriptor, hmatrix])]
  have hgone : s.scl.crews.filter (fun e => decide (e.2.group ≠ g)) = [] := by simp [hcrews, hg]
  rw [hgone, show Table.find (setScl { s.scl with crews := [], groups := Table.drop s.scl.groups g } s).scl.launches grp.age = some l from hlaunch]
  dsimp only
  rw [if_neg (by omega)]
  refine (noteLaunchEnd_idle ?_ ..).trans ?_
  · exact hcmd
  · rfl

/-! ### Branches (13 R659, R661) -/

theorem target_eq (i : Issue) : i.target = (i.c.pc + 8 * ((BitVec.ofNat 32 (iImm i.w)).signExtend 64).toNat) % 2 ^ 64 := by
  rw [Issue.target, iSext_eq]

theorem branches_cox {i : Issue} (h : iDst i.w = 0) : i.branches = i.pred 0 := by
  simp [Issue.branches, h]

/-- A branch on any thread, and on all of them. -/
theorem branches_any {i : Issue} (h : iDst i.w = 1) : i.branches = !decide (i.active = []) := by
  have hany : i.branches = (List.range i.threads).any i.pred := by simp [Issue.branches, h]
  rw [hany, Bool.eq_iff_iff]
  simp [Issue.active, List.filter_eq_nil_iff]

theorem branches_all {i : Issue} (h : iDst i.w = 2) : i.branches = decide (i.active.length = i.threads) := by
  have hlen : (List.range i.threads).length = i.threads := List.length_range
  have hall : i.branches = (List.range i.threads).all i.pred := by simp [Issue.branches, h]
  rw [hall, Bool.eq_iff_iff, List.all_eq_true, decide_eq_true_iff, ← List.length_filter_eq_length_iff, hlen]
  rfl

/-- Tests of a control instruction that is no crew instruction. -/
theorem testedRow_of {s' : State} {i : Issue} {op : Nat} (h : Issues s s' i op) {row : Instr} {body : Issue → State → Issued}
    (hop : assigned op = true) (hrow : exec row s = crewStep [op] i.id body s) {ok : Bool} {t : State}
    (hbody : body i s' = if !ok then illegal s' else .go t) : Guarded s s' i row ok false ∧ (ok = true → exec row s = .next t) := by
  obtain ⟨hguard, hgo⟩ := guarded_of h (ops := [op]) (ok := ok) (waits := false) (t := .go t) (by simp) hop hrow (by rw [hbody]; simp)
  exact ⟨hguard, fun hok => hgo hok rfl⟩

theorem fence_row {s' : State} {i : Issue} (h : Issues s s' i 0x06) :
    Guarded s s' i (.fence i.id) (reservedOk i.w && decide (iMod i.w ≤ 2)) false
    ∧ ((reservedOk i.w && decide (iMod i.w ≤ 2)) = true → exec (.fence i.id) s = .next (i.put i.next s')) := by
  refine testedRow_of h (row := .fence i.id) (body := fenceBody) rfl rfl ?_
  rw [fenceBody, Bool.not_and, ← decide_not]
  simp only [Nat.not_le]

theorem bra_row {s' : State} {i : Issue} (h : Issues s s' i 0x01) :
    Guarded s s' i (.bra i.id) (reservedOk i.w && decide (iDst i.w ≤ 2)) false
    ∧ ((reservedOk i.w && decide (iDst i.w ≤ 2)) = true →
      exec (.bra i.id) s = .next (i.put (if i.branches then { i.c with pc := i.target } else i.next) s')) := by
  refine testedRow_of h (row := .bra i.id) (body := braBody) rfl rfl ?_
  rw [braBody, Bool.not_and, ← decide_not]
  simp only [Nat.not_le]

theorem bar_row {s' : State} {i : Issue} (h : Issues s s' i 0x05) :
    Guarded s s' i (.bar i.id) (reservedOk i.w && iPred i.w = 0 && !iNeg i.w) false
    ∧ ((reservedOk i.w && iPred i.w = 0 && !iNeg i.w) = true →
      exec (.bar i.id) s = .next (releaseBarrier i.c.group (i.put { i.next with atBarrier := true } s'))) := by
  refine testedRow_of h (row := .bar i.id) (body := barBody) rfl rfl ?_
  rw [barBody, Bool.not_and, Bool.not_and, ← decide_not, Bool.not_not]

/-! ### Matrix descriptors and tokens (13 R689) -/

/-- Token masks that meet share a token. -/
theorem and_ne_zero_iff (a b : Nat) : a &&& b ≠ 0 ↔ ∃ k, b.testBit k = true ∧ a.testBit k = true := by
  constructor
  · intro hne
    by_contra hnone
    refine hne (Nat.eq_of_testBit_eq fun k => ?_)
    rw [Nat.testBit_and, Nat.zero_testBit, Bool.and_eq_false_iff]
    by_contra hk
    simp only [not_or, Bool.not_eq_false] at hk
    exact hnone ⟨k, hk.2, hk.1⟩
  · rintro ⟨k, hb, ha⟩ hzero
    have := congrArg (fun n => n.testBit k) hzero
    simp [Nat.testBit_and, hb, ha] at this

/-- A descriptor's bytes are the words of eight registers. -/
theorem descriptor_word (f : Nat → Word32) {k : Nat} (hk : k < 8) :
    fieldLE ((List.range 8).flatMap (fun k => leBytes 4 (f k).toNat)) (4 * k) 4 = (f k).toNat := by
  have hword (j : Nat) : leNat (leBytes 4 (f j).toNat) = (f j).toNat := by
    rw [leNat_leBytes]
    exact Nat.mod_eq_of_lt (f j).isLt
  interval_cases k
  all_goals exact hword _

/-- MISSUE of a descriptor that the queue has room for, under a free token. -/
theorem missue_queues {i : Issue} (hal : iA i.w % 8 = 0) (hreg : i.vOk (iA i.w) 8 = true) (hready : pendingV i.c (iA i.w) 8 = false)
    (hroom : (matrixQueue s i.g.scull).length < 16) (htoken : i.c.tokens.testBit (iMod i.w % 8) = false) :
    missue i s = .go (let t := i.put { i.next with tokens := setBits i.c.tokens (iMod i.w % 8) 1 1 } s
      setScl { t.scl with matrix := Table.put t.scl.matrix i.g.scull (matrixQueue s i.g.scull ++
        [{ crew := i.id, token := iMod i.w % 8, pc := i.c.pc
           bytes := (List.range 8).flatMap (fun k => leBytes 4 (readV i.c (iA i.w + k) 0).toNat) }]) } t) := by
  unfold missue
  dsimp only
  rw [if_neg (by omega), if_neg (by simp [hreg]), if_neg (by simp [hready, htoken]; omega)]

/-! ### Pushes to wake queues (13 R692, R693) -/

section
variable {i : Issue} {ws : List Word32}

theorem pushWords_foreign (h : Table.find s.sct.wake (iMod i.w % 64) ≠ some (i.l.ctx / 64)) : pushWords i ws s = illegal s := if_pos h

theorem pushWords_misrouted (h : Table.find s.sct.wake (iMod i.w % 64) = some (i.l.ctx / 64)) (hkind : (wakeOf s (iMod i.w % 64)).kind ≠ 0)
    (hws : ws ≠ []) : pushWords i ws s = .go (bump (i.put i.next s) .wakeMisrouted) := by
  unfold pushWords
  dsimp only
  rw [if_neg (not_not_intro h), if_neg hws]
  exact if_pos hkind

theorem pushWords_pushes (h : Table.find s.sct.wake (iMod i.w % 64) = some (i.l.ctx / 64)) (hkind : (wakeOf s (iMod i.w % 64)).kind = 0)
    (hws : ws ≠ []) : pushWords i ws s = .go (wakePush (iMod i.w % 64) (ws.mapIdx (fun k w =>
      (w, k = 0 && (iMod i.w).testBit 6, k + 1 = ws.length && (iMod i.w).testBit 7))) (i.put i.next s)) := by
  unfold pushWords
  dsimp only
  rw [if_neg (not_not_intro h), if_neg hws]
  exact if_neg (not_not_intro hkind)

end

/-- A row that pushes words. -/
theorem pushRow_of {s' : State} {i : Issue} {op : Nat} (h : Issues s s' i op) {row : Instr} {ok : Issue → Bool} {f : Issue → State → Issued}
    (hop : assigned op = true) (hrow : exec row s = crewStep [op] i.id (crewBody ok f) s) {ws : List Word32}
    (hf : f i s' = pushWords i ws s') :
    let q := iMod i.w % 64
    Guarded s s' i row (reservedOk i.w && ok i) false
    ∧ (reservedOk i.w = true → ok i = true → i.pred 0 = false → exec row s = .next (i.put i.next s'))
    ∧ (reservedOk i.w = true → ok i = true → i.pred 0 = true →
      (Table.find s'.sct.wake q ≠ some (i.l.ctx / 64) → exec row s = .next (faultCrew i.c i.g i.l 4 0 s'))
      ∧ (Table.find s'.sct.wake q = some (i.l.ctx / 64) → (wakeOf s' q).kind ≠ 0 → ws ≠ [] →
          exec row s = .next (bump (i.put i.next s') .wakeMisrouted))
      ∧ (Table.find s'.sct.wake q = some (i.l.ctx / 64) → (wakeOf s' q).kind = 0 → ws ≠ [] →
          exec row s = .next (wakePush q (ws.mapIdx (fun k w =>
            (w, k = 0 && (iMod i.w).testBit 6, k + 1 = ws.length && (iMod i.w).testBit 7))) (i.put i.next s')))) := by
  intro q
  obtain ⟨hguard, hnot, hdo⟩ := crewRow_of h (ops := [op]) (by simp) hop hrow
  refine ⟨hguard, hnot, fun hres hok hpred => ⟨fun hown => ?_, fun hown hkind hws => ?_, fun hown hkind hws => ?_⟩⟩
  · rw [hdo hres hok hpred, hf, pushWords_foreign hown]
    rfl
  · rw [hdo hres hok hpred, hf, pushWords_misrouted hown hkind hws]
    rfl
  · rw [hdo hres hok hpred, hf, pushWords_pushes hown hkind hws]
    rfl

/-! ### The statement -/

/-- EXIT of the last crew of a launch's last group. -/
theorem exit_completes {s' : State} {i : Issue} (h : Issues s s' i 0x04) (hres : reservedOk i.w = true) (hpred : i.pred 0 = true)
    (hcrews : s.scl.crews = [(i.id, i.c)]) (hmatrix : s.scl.matrix = []) (hlast : i.l.groups ≤ i.l.ended + 1) (hcmd : s.sct.cmd = none)
    (elapsed : Nat) :
    ∃ t, exec (.exit i.id elapsed) s = .next t ∧ t.scl.crews = [] ∧ Table.find t.scl.groups i.c.group = none
      ∧ Table.find t.scl.launches i.g.age = none ∧ t.mem = s'.mem ∧ t.sct = s'.sct
      ∧ (∀ r, ∀ c ∈ (ringOf s r).inflight, c.serial = i.l.serial → c.phase = .running →
          { c with phase := .done 0 i.l.groups elapsed } ∈ (ringOf t r).inflight) := by
  obtain ⟨hscl, hsct, hrings⟩ := fetch_kept h
  obtain ⟨-, -, hdo⟩ := crewRow_of h (ops := [0x04]) (row := .exit i.id elapsed) rfl rfl rfl
  obtain ⟨-, hgroup, hlaunch, -⟩ := h
  have hput : (i.put { i.next with ended := true } s').scl.crews = [(i.id, { i.next with ended := true })] := by
    show Table.put s'.scl.crews i.id _ = _
    rw [hscl, hcrews]
    simp [Table.put]
  have hrelease := releaseBarrier_ends (s := i.put { i.next with ended := true } s') (g := i.c.group) (by rw [hput]; simp)
  have hsettle := settleGroup_completes (s := releaseBarrier i.c.group (i.put { i.next with ended := true } s')) (g := i.c.group)
    (elapsed := elapsed) (grp := i.g) (l := i.l) (k := i.id) (c := { i.next with ended := true, atBarrier := false })
    (by rw [hrelease]; show List.map _ (i.put { i.next with ended := true } s').scl.crews = _; rw [hput]; exact congrArg (· :: []) (if_pos rfl)) rfl rfl
    (by rw [hrelease]; show s'.scl.matrix = _; rw [hscl, hmatrix]) (by rw [hrelease]; show Table.find s'.scl.groups _ = _; rw [hscl, hgroup])
    (by rw [hrelease]; show Table.find s'.scl.launches _ = _; rw [hscl, hlaunch]) hlast (by rw [hrelease]; show s'.sct.cmd = _; rw [hsct, hcmd])
  refine ⟨_, (hdo hres rfl hpred).trans (congrArg Host.Outcome.next hsettle), rfl, Table.find_drop_same .., Table.find_drop_same .., ?_, ?_, ?_⟩
  · rw [hrelease]
    rfl
  · rw [hrelease]
    rfl
  · intro r c hc hserial hrun
    rw [hrelease]
    refine done_mem_finish (s := setScl _ _) ?_ hrun hserial ..
    show c ∈ (Table.getD s'.rings.table r {}).inflight
    rw [hrings]
    exact hc

/-- Settles O40: each row as an issue, with what a barrier, the end of a group, the matrix queue and a push do. -/
theorem crewControl : Obligations.CrewControl := by
  intro s s' i op h target
  obtain ⟨hscl, hsct, hrings⟩ := fetch_kept h
  have htarget : i.target = target := target_eq i
  refine ⟨fun hop hres => ?_, fun hop => ?_, fun hop => ?_, fun hop => ?_, fun hop => ?_, fun hop => ?_, fun hop hres elapsed => ?_,
    fun hop hres => ?_, fun hop hres => ?_, fun row ok ws hrow hready => ?_⟩
  · subst hop
    obtain ⟨-, hnot, hdo⟩ := crewRow_of h (ops := [0x00]) (row := .crewNop i.id) rfl rfl rfl
    cases hpred : i.pred 0
    · exact hnot hres rfl hpred
    · exact hdo hres rfl hpred
  · subst hop
    obtain ⟨hguard, hgo⟩ := fence_row h
    exact ⟨hguard, fun hres hmod => hgo (by simp [hres, hmod])⟩
  · subst hop
    obtain ⟨hguard, hgo⟩ := bra_row h
    refine ⟨hguard, fun hres => ⟨fun hdst => ?_, fun hdst => ?_, fun hdst => ?_⟩⟩
    · rw [hgo (by simp [hres, hdst]), branches_cox hdst, htarget]
    · rw [hgo (by simp [hres, hdst]), branches_any hdst, htarget]
      by_cases hnone : i.active = [] <;> simp [hnone]
    · rw [hgo (by simp [hres, hdst]), branches_all hdst, htarget]
      simp only [decide_eq_true_eq]
  · subst hop
    obtain ⟨hguard, hnot, hdo⟩ := crewRow_of h (ops := [0x02]) (row := .jmp i.id) rfl rfl rfl
    refine ⟨hguard, fun hres ha => ?_⟩
    cases hpred : i.pred 0
    · exact hnot hres (decide_eq_true ha) hpred
    · exact hdo hres (decide_eq_true ha) hpred
  · subst hop
    obtain ⟨hguard, hnot, hdo⟩ := crewRow_of h (ops := [0x03]) (row := .call i.id) rfl rfl rfl
    refine ⟨hguard, fun hres hdst => hnot hres (decide_eq_true hdst), fun hres hdst hpred => ⟨_, hdo hres (decide_eq_true hdst) hpred, htarget, ?_⟩⟩
    exact writeS_wroteS i (iDst i.w) _
  · subst hop
    obtain ⟨hguard, hgo⟩ := bar_row h
    refine ⟨hguard, fun hres hpred hneg => ⟨fun hwaits => ?_, fun hall => ?_⟩⟩
    · rw [hgo (by simp [hres, hpred, hneg]), releaseBarrier_holds]
      show ∃ e ∈ Table.put s'.scl.crews i.id _, _
      rw [hscl]
      exact hwaits
    · refine ⟨_, hgo (by simp [hres, hpred, hneg]), ?_⟩
      rw [releaseBarrier_ends (by show ∀ e ∈ Table.put s'.scl.crews i.id _, _; rw [hscl]; exact hall)]
      refine ⟨fun k c hc => ?_, rfl⟩
      show Table.find (List.map _ (Table.put s'.scl.crews i.id _)) k = _
      rw [hscl]
      have hfind := find_map_crews (fun c => { c with atBarrier := false }) (fun c => decide (c.group = i.c.group))
        (Table.put s.scl.crews i.id { i.next with atBarrier := true }) k
      simp only [decide_eq_true_eq] at hfind
      rw [hfind, hc]
      rfl
  · subst hop
    obtain ⟨-, hnot, hdo⟩ := crewRow_of h (ops := [0x04]) (row := .exit i.id elapsed) rfl rfl rfl
    refine ⟨hnot hres rfl, fun hpred hcrews hmatrix hlast hcmd => exit_completes h hres hpred hcrews hmatrix hlast hcmd elapsed,
      fun hpred hothers => ?_⟩
    have hput : ∃ e ∈ (i.put { i.next with ended := true } s').scl.crews, e.2.group = i.c.group ∧ e.2.ended = false ∧ e.2.atBarrier = false := by
      show ∃ e ∈ Table.put s'.scl.crews i.id _, _
      rw [hscl]
      exact hothers
    have ⟨e, he, hg, hended, _⟩ := hput
    refine (hdo hres rfl hpred).trans (congrArg Host.Outcome.next ?_)
    show settleGroup _ _ (releaseBarrier _ (i.put { i.next with ended := true } s')) = _
    rw [releaseBarrier_holds hput, settleGroup_stays ⟨e, he, hg, hended⟩]
  · subst hop
    obtain ⟨-, hnot, hdo⟩ := crewRow_of h (ops := [0x07]) (row := .missue i.id) rfl rfl rfl
    refine ⟨hnot hres rfl, fun hpred hal => ?_, fun hpred hal hreg hready => ⟨fun hfull => ?_, fun hroom htoken => ?_⟩⟩
    · rw [hdo hres rfl hpred, missue, if_pos hal]
      rfl
    · rw [hdo hres rfl hpred]
      unfold missue
      dsimp only
      rw [if_neg (by omega), if_neg (by simp [hreg]), if_pos (by simpa [hready] using hfull)]
      rfl
    · refine ⟨_, _, (hdo hres rfl hpred).trans (congrArg (fun x => Host.Outcome.next (Issued.after i s x)) (missue_queues hal hreg hready hroom htoken)), Table.getD_put_same .., rfl, rfl, rfl,
        fun k hk => descriptor_word (fun k => readV i.c (iA i.w + k) 0) hk, fun j hj => Table.getD_put_ne _ _ _ hj, ⟨_, Table.find_put_same .., rfl, fun k => ?_⟩, rfl, rfl⟩
      dsimp only
      rw [testBit_setBits]
      by_cases hk : k = iMod i.w % 8
      · rw [if_pos (by omega), hk]
        simp
      · rw [if_neg (by omega)]
        simp [hk]
  · subst hop
    obtain ⟨-, hnot, hdo⟩ := crewRow_of h (ops := [0x08]) (row := .mwait i.id) rfl rfl rfl
    refine ⟨fun hpred hpending => ?_, fun hclear => ?_⟩
    · rw [hdo hres rfl hpred, if_pos ((and_ne_zero_iff ..).mpr hpending)]
      rfl
    · cases hpred : i.pred 0
      · exact hnot hres rfl hpred
      · rw [hdo hres rfl hpred, if_neg]
        · rfl
        · rw [and_ne_zero_iff]
          rintro ⟨k, hmod, htok⟩
          obtain hfalse | hclear := hclear
          · rw [hpred] at hfalse
            cases hfalse
          · rw [hclear k hmod] at htok
            cases htok
  · simp only [List.mem_cons, Prod.mk.injEq, List.not_mem_nil, or_false] at hrow
    rcases hrow with ⟨rfl, rfl, rfl, rfl⟩ | ⟨rfl, rfl, rfl, rfl⟩
    · exact pushRow_of h (row := .tpush i.id) rfl rfl rfl
    · exact pushRow_of h (row := .tpushv i.id) rfl rfl (if_neg (by rw [hready rfl]; decide))

end
end Sys2Proof.Machine

/-! # Memory accesses of a crew: what they read, what they leave, and local memory (O41) -/
namespace Sys2Proof.Machine

section
variable {s u : State}

/-! ### Aligned accesses lie in one line (13 R676) -/

theorem widthBytes_dvd {w : Nat} (h : iWidth w ≤ 4) : widthBytes w ∣ 64 := by
  have : (2 : Nat) ^ iWidth w ∣ 2 ^ 6 := pow_dvd_pow 2 (by omega)
  exact this

theorem widthBytes_pos (w : Nat) : 0 < widthBytes w := Nat.two_pow_pos _

/-- Every byte of an aligned access lies in its first byte's line. -/
theorem line_of_aligned {n a k : Nat} (hn : n ∣ 64) (ha : a % n = 0) (hk : k < n) : (a + k) / 64 = a / 64 := by
  obtain ⟨m, hm⟩ := hn
  obtain ⟨q, rfl⟩ := Nat.dvd_of_mod_eq_zero ha
  have hpos : 0 < n := by omega
  rw [hm, ← Nat.div_div_eq_div_mul, ← Nat.div_div_eq_div_mul, Nat.mul_add_div hpos, Nat.div_eq_of_lt hk, Nat.add_zero,
    Nat.mul_div_cancel_left _ hpos]

theorem poisonedAt_line {a b : Nat} (h : b / 64 = a / 64) : poisonedAt u b = poisonedAt u a := by rw [poisonedAt, h, poisonedAt]

theorem faultyRead_aligned {n : Nat} {l : List (Nat × Nat)} {e : Nat × Nat} (hn : n ∣ 64) (hpos : 0 < n) (h : GoodLines u n l) (he : e ∈ l) :
    faultyRead [] e.2 n u = (.ok (peek u e.2 n), u) := by
  obtain ⟨hslots, hgood⟩ := h
  obtain ⟨hpoison, hfirst, hlast, hal⟩ := hgood e he
  refine faultyRead_clean (by omega) hslots ⟨hfirst, hlast, fun b hab hb => ?_⟩
  obtain ⟨k, rfl⟩ := Nat.exists_eq_add_of_le hab
  rw [poisonedAt_line (line_of_aligned hn hal (by omega)), hpoison]

/-! ### Threads and addresses of an access (12 R630; log entry 27) -/

theorem active_pairwise (i : Issue) : i.active.Pairwise (· < ·) := List.Pairwise.filter _ List.pairwise_lt_range

/-- Local offsets that fit and are aligned resolve. -/
theorem resolveLocal_fits {i : Issue} {n : Nat} {ts : List Nat} (h : ∀ t ∈ ts, i.addr 1 t + n ≤ i.l.localBytes ∧ i.addr 1 t % n = 0) :
    resolveLocal i n ts = (ts.map (fun t => (t, i.localBase + i.addr 1 t)), none) := by
  induction ts with
  | nil => rfl
  | cons t ts ih =>
    obtain ⟨⟨hfits, hal⟩, hts⟩ := List.forall_mem_cons.mp h
    rw [resolveLocal, if_neg (by omega), if_neg (by omega), ih hts]
    rfl

/-- The threads that a global access resolves are the asked ones, in their order. -/
theorem resolveGlobal_threads {faults : List LineFault} {i : Issue} {want : Want} {n : Nat} {ts : List Nat} {l : List (Nat × Nat)}
    (h : resolveGlobal faults i want n ts s = (l, none, false, u)) : l.map Prod.fst = ts := by
  induction ts generalizing s l with
  | nil =>
    obtain ⟨rfl, -⟩ := Prod.mk.inj h
    rfl
  | cons t ts ih =>
    rw [resolveGlobal] at h
    dsimp only at h
    split at h
    · cases h
    · split at h
      · cases h
      · cases h
      · cases h
      · generalize hrest : resolveGlobal faults i want n ts _ = r at h
        obtain ⟨l', f, w, u'⟩ := r
        obtain ⟨rfl, rfl, rfl, rfl⟩ : (t, _) :: l' = l ∧ f = none ∧ w = false ∧ u' = u := by simpa using h
        rw [List.map_cons, ih hrest]

theorem resolve_local {faults : List LineFault} {i : Issue} {want : Want} {n : Nat} {ts : List Nat} {l : List (Nat × Nat)}
    {k : List (Nat × Nat) → State → Issued} (h : resolveLocal i n ts = (l, none)) : resolve faults true want n ts i s k = k l s := by
  simp [resolve, h]

theorem resolve_global {faults : List LineFault} {i : Issue} {want : Want} {n : Nat} {ts : List Nat} {l : List (Nat × Nat)}
    {k : List (Nat × Nat) → State → Issued} (h : resolveGlobal faults i want n ts s = (l, none, false, u)) :
    resolve faults false want n ts i s k = k l u := by
  simp [resolve, h]

/-- The first thread whose local offset does not fit, or is not aligned, ends the access. -/
theorem resolve_outside {faults : List LineFault} {i : Issue} {want : Want} {n t : Nat} {ts : List Nat}
    {k : List (Nat × Nat) → State → Issued} (h : i.l.localBytes < i.addr 1 t + n) :
    resolve faults true want n (t :: ts) i s k = .kill 3 0 s := by
  simp [resolve, resolveLocal, h]

theorem resolve_misaligned {faults : List LineFault} {i : Issue} {want : Want} {n t : Nat} {ts : List Nat}
    {k : List (Nat × Nat) → State → Issued} (hfits : i.addr 1 t + n ≤ i.l.localBytes) (h : i.addr 1 t % n ≠ 0) :
    resolve faults true want n (t :: ts) i s k = .kill 5 0 s := by
  simp [resolve, resolveLocal, Nat.not_lt.mpr hfits, h]

theorem resolve_misaligned_global {faults : List LineFault} {i : Issue} {want : Want} {n t : Nat} {ts : List Nat}
    {k : List (Nat × Nat) → State → Issued} (h : i.addr 2 t % n ≠ 0) :
    resolve faults false want n (t :: ts) i s k = .kill 5 (i.addr 2 t) s := by
  simp [resolve, resolveGlobal, h]

/-! ### The bodies after their tests (13 R656, R675, R678) -/

section
variable {isLocal : Bool} {faults : List LineFault} {i : Issue} {k : Nat}

theorem loadBody_resolves (hk : k = if isLocal then 1 else 2) (h : loadOk i k) :
    loadBody isLocal faults i s = resolve faults isLocal .read (widthBytes i.w) i.active i s (fun l s =>
      endAccess i isLocal (loadAll faults i l s).1 (loadAll faults i l s).2.1 (loadAll faults i l s).2.2) := by
  subst hk
  obtain ⟨hres, hwidth, hdst, haddr, hwaits⟩ := h
  unfold loadBody
  dsimp only
  rw [if_neg (by simp [hres, hdst, haddr, Nat.not_lt.mpr hwidth]), if_neg (by simp [hwaits])]

theorem storeBody_resolves (hk : k = if isLocal then 1 else 2) (h : storeOk i k) :
    storeBody isLocal faults i s = resolve faults isLocal .write (widthBytes i.w) i.active i s (fun l s =>
      let r := storeLines faults (storeBytes i l) (((storeBytes i l).map (fun e => e.1 / 64)).eraseDups) s
      endAccess i isLocal [] ((l.find? (fun e => r.1.contains (e.2 / 64))).map Prod.fst) r.2) := by
  subst hk
  obtain ⟨hres, hwidth, hdata, haddr, hwaits, hpending⟩ := h
  unfold storeBody
  dsimp only
  rw [if_neg (by simp [hres, hdata, haddr, Nat.not_lt.mpr hwidth]), if_neg (by simp [hwaits, hpending])]

theorem atomBody_resolves (hk : k = if isLocal then 1 else 2) (h : atomOk i k) :
    atomBody isLocal faults i s = resolve faults isLocal .write (widthBytes i.w) i.active i s (fun l s =>
      let r := atomAll faults i l s
      endAccess i isLocal (if iBs i.w then [] else r.1) r.2.1 r.2.2) := by
  subst hk
  obtain ⟨hres, hwidth, hop, haddr, hwaits, hdata, hpending, hcas, hdst⟩ := h
  have hwidths : (decide (iWidth i.w = 2) || decide (iWidth i.w = 3)) = true := by simpa using hwidth
  have hret : (iBs i.w || i.vOk (iDst i.w) (widthRegs i.w)) = true := by
    cases hnoret : iBs i.w
    · exact hdst hnoret
    · rfl
  have hcmp : (decide (iOpmod i.w = 7) && !i.vOk (iC i.w) (widthRegs i.w)) = false
      ∧ (decide (iOpmod i.w = 7) && pendingV i.c (iC i.w) (widthRegs i.w)) = false := by
    by_cases h7 : iOpmod i.w = 7
    · obtain ⟨hreg, hready⟩ := hcas h7
      simp [hreg, hready]
    · simp [h7]
  unfold atomBody
  dsimp only
  rw [if_neg (by rw [hwidths, hret, hcmp.1]; simp [hres, haddr, hdata, Nat.not_lt.mpr hop]), if_neg (by rw [hcmp.2]; simp [hwaits, hpending])]

end

/-! ### Loads (13 R675) -/

theorem loadAll_clean {i : Issue} {l : List (Nat × Nat)} (hn : widthBytes i.w ∣ 64) (h : GoodLines u (widthBytes i.w) l) :
    loadAll [] i l u = (loadWrites i u l, none, u) := by
  induction l with
  | nil => rfl
  | cons e l ih =>
    have hread := faultyRead_aligned hn (widthBytes_pos _) h (List.mem_cons_self ..)
    obtain ⟨hslots, hgood⟩ := h
    rw [loadAll, hread]
    dsimp only
    rw [ih ⟨hslots, fun e he => hgood e (List.mem_cons_of_mem _ he)⟩]
    rfl

/-! ### Stores (13 R677; 05 R261-R268) -/

theorem Table.mem_of_find {α : Type} {l : Table α} {k : Nat} {x : α} (h : Table.find l k = some x) : (k, x) ∈ l := by
  induction l with
  | nil => cases h
  | cons e l ih =>
    obtain ⟨j, y⟩ := e
    rw [Table.find] at h
    split at h
    case isTrue hj =>
      obtain rfl := Option.some.inj h
      exact hj ▸ List.mem_cons_self ..
    case isFalse => exact List.mem_cons_of_mem _ (ih h)

/-- Bytes written one by one. -/
def pokeEach (ws : Table Byte) (s : State) : State := ws.foldl (fun s e => poke s e.1 [e.2]) s

/-- The state with other bytes in memory. -/
def withCells (cells : List (Nat × Byte)) (s : State) : State := { s with mem := { s.mem with cells := cells } }

/-- They change the listed bytes alone. -/
theorem pokeEach_eq (ws : Table Byte) (s : State) : ∃ cells, pokeEach ws s = withCells cells s := by
  induction ws generalizing s with
  | nil => exact ⟨s.mem.cells, rfl⟩
  | cons e ws ih =>
    obtain ⟨cells, h⟩ := ih (poke s e.1 [e.2])
    exact ⟨cells, h⟩

theorem cellAt_pokeEach {ws : Table Byte} (hws : ws.Pairwise (fun x y => x.1 < y.1)) (s : State) (a : Nat) :
    cellAt (pokeEach ws s).mem.cells a = (Table.find ws a).getD (cellAt s.mem.cells a) := by
  induction ws generalizing s with
  | nil => rfl
  | cons e ws ih =>
    obtain ⟨b, x⟩ := e
    obtain ⟨hhead, htail⟩ := List.pairwise_cons.mp hws
    refine (ih htail _).trans ?_
    rw [Table.find]
    by_cases hb : b = a
    · subst hb
      have hnone : Table.find ws b = none := by
        cases hfind : Table.find ws b with
        | none => rfl
        | some y => exact absurd (hhead _ (Table.mem_of_find hfind)) (Nat.lt_irrefl b)
      rw [hnone, if_pos rfl]
      exact cellAt_cellPut_same ..
    · rw [if_neg hb]
      congr 1
      exact cellAt_cellPut_ne _ _ (Ne.symm hb)

/-- A line of a store that finds no fault. -/
theorem storeLine_clean {line : Nat} (bytes : Table Byte) (hslots : u.err.slots = []) (hpoison : poisonedAt u (line * 64) = false) :
    storeLine [] line bytes u = (stOk, pokeEach (bytes.filter (fun e => e.1 / 64 = line)) u) := by
  unfold storeLine
  dsimp only
  split
  · rw [unpoison_clean hpoison]
    rfl
  · rw [readLine_plain hpoison hslots]
    rfl

/-- Lines of a store that find no fault: no line is refused, and in them each listed byte is written. -/
theorem storeLines_clean {bytes : Table Byte} (hrise : bytes.Pairwise (fun x y => x.1 < y.1)) {ls : List Nat} (hslots : u.err.slots = [])
    (hpoison : ∀ line ∈ ls, poisonedAt u (line * 64) = false) :
    ∃ cells, storeLines [] bytes ls u = ([], withCells cells u)
      ∧ ∀ a, cellAt cells a = if a / 64 ∈ ls then (Table.find bytes a).getD (cellAt u.mem.cells a) else cellAt u.mem.cells a := by
  induction ls generalizing u with
  | nil => exact ⟨u.mem.cells, rfl, fun a => (if_neg List.not_mem_nil).symm⟩
  | cons line ls ih =>
    obtain ⟨hline, hls⟩ := List.forall_mem_cons.mp hpoison
    obtain ⟨mid, hmid⟩ := pokeEach_eq (bytes.filter (fun e => e.1 / 64 = line)) u
    have hcells (a : Nat) : cellAt mid a = if a / 64 = line then (Table.find bytes a).getD (cellAt u.mem.cells a) else cellAt u.mem.cells a := by
      have hpoke := cellAt_pokeEach (hrise.filter (fun e => decide (e.1 / 64 = line))) u a
      rw [hmid, find_filter_out (fun a => decide (a / 64 = line))] at hpoke
      refine hpoke.trans ?_
      by_cases ha : a / 64 = line <;> simp [ha]
    obtain ⟨cells, hrest, hfinal⟩ := ih (u := withCells mid u) hslots hls
    refine ⟨cells, ?_, fun a => ?_⟩
    · rw [storeLines, storeLine_clean bytes hslots hline, hmid]
      exact hrest
    · rw [hfinal, show (withCells mid u).mem.cells = mid from rfl, hcells]
      cases Table.find bytes a <;> by_cases hin : a / 64 ∈ ls <;> by_cases ha : a / 64 = line <;> simp [hin, ha] at *

/-- The bytes that a thread stores. -/
def threadBytes (i : Issue) (e : Nat × Nat) : Table Byte :=
  (leBytes (widthBytes i.w) (readVs i.c (iB i.w) e.1 (widthRegs i.w))).mapIdx (fun k b => (e.2 + k, b))

theorem storeBytes_eq (i : Issue) (l : List (Nat × Nat)) :
    storeBytes i l = (l.flatMap (threadBytes i)).foldl (fun m x => Table.put m x.1 x.2) [] := by
  rw [List.foldl_flatMap]
  rfl

theorem leBytes_getElem {n k : Nat} (hk : k < n) (v : Nat) : (leBytes n v)[k]? = some (BitVec.ofNat 8 (v / 2 ^ (8 * k))) := by
  induction n generalizing k v with
  | zero => omega
  | succ n ih =>
    rw [leBytes]
    cases k with
    | zero => simp
    | succ k =>
      rw [List.getElem?_cons_succ, ih (by omega), Nat.div_div_eq_div_mul, Nat.mul_succ, Nat.add_comm (8 * k), pow_add]
      rfl

theorem mem_threadBytes {i : Issue} {e : Nat × Nat} {x : Nat × Byte} : x ∈ threadBytes i e
    ↔ ∃ k < widthBytes i.w, x = (e.2 + k, BitVec.ofNat 8 (readVs i.c (iB i.w) e.1 (widthRegs i.w) / 2 ^ (8 * k))) := by
  rw [threadBytes, List.mem_iff_getElem?]
  constructor
  · rintro ⟨k, hx⟩
    rw [List.getElem?_mapIdx] at hx
    obtain ⟨b, hb, rfl⟩ := Option.map_eq_some_iff.mp hx
    have hk : k < widthBytes i.w := by
      obtain ⟨hlt, -⟩ := List.getElem?_eq_some_iff.mp hb
      rwa [length_leBytes] at hlt
    rw [leBytes_getElem hk] at hb
    obtain rfl := Option.some.inj hb
    exact ⟨k, hk, rfl⟩
  · rintro ⟨k, hk, rfl⟩
    refine ⟨k, ?_⟩
    rw [List.getElem?_mapIdx, leBytes_getElem hk]
    rfl

theorem foldl_put_pairwise {α : Type} (ws : List (Nat × α)) (t : Table α) (h : t.Pairwise (fun x y => x.1 < y.1)) :
    (ws.foldl (fun m x => Table.put m x.1 x.2) t).Pairwise (fun x y => x.1 < y.1) := by
  induction ws generalizing t with
  | nil => exact h
  | cons e ws ih => exact ih _ (Table.put_pairwise _ _ _ h)

theorem mem_foldl_put {α : Type} {e : Nat × α} {ws : List (Nat × α)} {t : Table α}
    (h : e ∈ ws.foldl (fun m x => Table.put m x.1 x.2) t) : e ∈ ws ∨ e ∈ t := by
  induction ws generalizing t with
  | nil => exact .inr h
  | cons w ws ih =>
    obtain h | h := ih h
    · exact .inl (List.mem_cons_of_mem _ h)
    · obtain rfl | h := Table.mem_put _ _ _ _ h
      · exact .inl (List.mem_cons_self ..)
      · exact .inr h

/-- The byte that the highest thread gives (13 R677). -/
theorem find_storeBytes {i : Issue} {l : List (Nat × Nat)} (hl : l.Pairwise (fun x y => x.1 < y.1)) {e : Nat × Nat} (he : e ∈ l) {k : Nat}
    (hk : k < widthBytes i.w) (hlast : ∀ e' ∈ l, e.1 < e'.1 → ¬(e'.2 ≤ e.2 + k ∧ e.2 + k < e'.2 + widthBytes i.w)) :
    Table.find (storeBytes i l) (e.2 + k) = some (BitVec.ofNat 8 (readVs i.c (iB i.w) e.1 (widthRegs i.w) / 2 ^ (8 * k))) := by
  obtain ⟨before, after, rfl⟩ := List.append_of_mem he
  have hafter : ∀ e' ∈ after, e.1 < e'.1 := (List.pairwise_cons.mp (List.pairwise_append.mp hl).2.1).1
  rw [storeBytes_eq, List.flatMap_append, List.flatMap_cons, List.foldl_append, List.foldl_append, find_foldl_put_of_notMem]
  · refine find_foldl_put_of_mem (mem_threadBytes.mpr ⟨k, hk, rfl⟩) ?_ _
    rintro ⟨a, b⟩ hx ha
    obtain ⟨j, hj, hx⟩ := mem_threadBytes.mp hx
    obtain ⟨rfl, rfl⟩ := Prod.mk.inj hx
    obtain rfl : j = k := Nat.add_left_cancel ha
    rfl
  · rintro ⟨a, b⟩ hx rfl
    obtain ⟨e', he', hx⟩ := List.mem_flatMap.mp hx
    obtain ⟨j, hj, hx⟩ := mem_threadBytes.mp hx
    obtain ⟨hb, -⟩ := Prod.mk.inj hx
    exact hlast e' (by simp [he']) (hafter e' he') (by omega)

theorem find_storeBytes_outside {i : Issue} {l : List (Nat × Nat)} {a : Nat} (h : ∀ e ∈ l, ¬(e.2 ≤ a ∧ a < e.2 + widthBytes i.w)) :
    Table.find (storeBytes i l) a = none := by
  rw [storeBytes_eq, find_foldl_put_of_notMem]
  · rfl
  · rintro ⟨b, x⟩ hx rfl
    obtain ⟨e, he, hx⟩ := List.mem_flatMap.mp hx
    obtain ⟨j, hj, hx⟩ := mem_threadBytes.mp hx
    obtain ⟨hb, -⟩ := Prod.mk.inj hx
    exact h e he (by dsimp only; omega)

theorem bitsOf_byte (v k : Nat) : (BitVec.ofNat 8 (v / 2 ^ (8 * k))).toNat = bitsOf v (8 * k) 8 := by
  rw [BitVec.toNat_ofNat, bitsOf, Nat.shiftRight_eq_div_pow]

/-- What a store to memory without a fault leaves. -/
theorem store_clean {i : Issue} {l : List (Nat × Nat)} (hn : widthBytes i.w ∣ 64) (hl : l.Pairwise (fun x y => x.1 < y.1))
    (h : GoodLines u (widthBytes i.w) l) :
    ∃ cells, storeLines [] (storeBytes i l) (((storeBytes i l).map (fun e => e.1 / 64)).eraseDups) u
        = ([], withCells cells u)
      ∧ Stored i u (withCells cells u) l := by
  obtain ⟨hslots, hgood⟩ := h
  have hrise : (storeBytes i l).Pairwise (fun x y => x.1 < y.1) := by
    rw [storeBytes_eq]
    exact foldl_put_pairwise _ _ List.Pairwise.nil
  have hpoison : ∀ line ∈ ((storeBytes i l).map (fun e => e.1 / 64)).eraseDups, poisonedAt u (line * 64) = false := by
    intro line hline
    obtain ⟨x, hx, rfl⟩ := List.mem_map.mp (List.mem_eraseDups.mp hline)
    rw [storeBytes_eq] at hx
    obtain ⟨e, he, hx⟩ := List.mem_flatMap.mp ((mem_foldl_put hx).resolve_right List.not_mem_nil)
    obtain ⟨k, hk, rfl⟩ := mem_threadBytes.mp hx
    obtain ⟨hclean, -, -, hal⟩ := hgood e he
    dsimp only
    rw [line_of_aligned hn hal hk, poisonedAt_line (a := e.2) (by omega), hclean]
  obtain ⟨cells, hlines, hcells⟩ := storeLines_clean hrise hslots hpoison
  have hcell (a : Nat) : cellAt cells a = (Table.find (storeBytes i l) a).getD (cellAt u.mem.cells a) := by
    rw [hcells]
    split
    case isTrue => rfl
    case isFalse hout =>
      cases hfind : Table.find (storeBytes i l) a with
      | none => rfl
      | some x => exact absurd (List.mem_eraseDups.mpr (List.mem_map.mpr ⟨_, Table.mem_of_find hfind, rfl⟩)) hout
  refine ⟨cells, hlines, fun e he k hk hlast => ?_, fun a hout => ?_⟩
  · rw [← bitsOf_byte]
    show (cellAt cells _).toNat = _
    rw [hcell, find_storeBytes hl he hk hlast]
    rfl
  · show cellAt cells a = _
    rw [hcell, find_storeBytes_outside hout]
    rfl

theorem no_line_refused (l : List (Nat × Nat)) : l.find? (fun e => ([] : List Nat).contains (e.2 / 64)) = none := by simp

/-! ### Atomics (13 R678) -/

theorem atomicOp_mod (i : Issue) (old x cmp : Nat) :
    atomicOp (iOpmod i.w) (widthBytes i.w) (iSigned i.w) old x cmp % 2 ^ (8 * widthBytes i.w) = atomValue i old x cmp := by
  unfold atomicOp atomValue
  rfl

/-- The atomic of one thread at memory without a fault. -/
theorem atomAll_one {i : Issue} {t a : Nat} (hn : widthBytes i.w ∣ 64) (h : GoodLines u (widthBytes i.w) [(t, a)]) :
    atomAll [] i [(t, a)] u = (wordsFor (iDst i.w) t (widthRegs i.w) (leNat (peek u a (widthBytes i.w))), none,
      poke u a (leBytes (widthBytes i.w) (atomicOp (iOpmod i.w) (widthBytes i.w) (iSigned i.w) (leNat (peek u a (widthBytes i.w)))
        (readVs i.c (iB i.w) t (widthRegs i.w)) (readVs i.c (iC i.w) t (widthRegs i.w))))) := by
  rw [atomAll, faultyRead_aligned hn (widthBytes_pos _) h (List.mem_singleton.mpr rfl)]
  dsimp only
  rw [atomAll, List.append_nil]

/-- What it leaves in memory. -/
theorem atom_leaves (i : Issue) (u : State) (a n : Nat) (hn : n = widthBytes i.w) (x cmp : Nat) :
    let v := poke u a (leBytes n (atomicOp (iOpmod i.w) n (iSigned i.w) (leNat (peek u a n)) x cmp))
    leNat (peek v a n) = atomValue i (leNat (peek u a n)) x cmp
      ∧ ∀ b, ¬(a ≤ b ∧ b < a + n) → cellAt v.mem.cells b = cellAt u.mem.cells b := by
  subst hn
  intro v
  constructor
  · have hpeek := peek_poke_same u a (leBytes (widthBytes i.w)
      (atomicOp (iOpmod i.w) (widthBytes i.w) (iSigned i.w) (leNat (peek u a (widthBytes i.w))) x cmp))
    rw [length_leBytes] at hpeek
    rw [hpeek, leNat_leBytes, atomicOp_mod]
  · intro b hb
    exact cellAt_poke_outside _ _ _ _ (by rw [length_leBytes]; omega)

theorem width_of_atomOk {i : Issue} {k : Nat} (h : atomOk i k) : iWidth i.w ≤ 4 := by
  obtain ⟨-, hwidth, -⟩ := h
  omega

/-! ### The statement -/

/-- Settles O41: the local addresses resolve, and reads, stores and atomics of clean memory are what R675 to R678 say. -/
theorem crewLocalMemory : Obligations.CrewLocalMemory := by
  intro s s' i op h n at_ l
  have hstep {ops : List Nat} {row : Instr} {body : Issue → State → Issued} (hops : ops.contains op = true) (hop : assigned op = true)
      (hrow : exec row s = crewStep ops i.id body s) : exec row s = .next ((body i s').after i s) :=
    hrow.trans (crewStep_issues h hops hop body)
  refine ⟨fun hfits hgood => ⟨fun hop hok => ?_, fun hop hok => ?_, fun x hop hok hone => ?_⟩, fun x rest hactive row hrow => ?_⟩
  · subst hop
    have hn := widthBytes_dvd hok.2.1
    refine ⟨writeKeys (i.active.flatMap fun t => wordsFor (iDst i.w) t (widthRegs i.w) (extendLoad i.w (peek s' (at_ t) n))) i.next, s',
      (hstep (ops := [0x80]) (row := .lld i.id) (body := loadBody true []) rfl rfl rfl).trans ?_, rfl, rfl, writeKeys_wroteV i _ _⟩
    rw [loadBody_resolves rfl hok, resolve_local (resolveLocal_fits hfits), loadAll_clean hn hgood]
    show Host.Outcome.next (i.put (writeKeys (loadWrites i s' l) i.next) s') = _
    rw [loadWrites, List.flatMap_map]
  · subst hop
    have hn := widthBytes_dvd hok.2.1
    have hl : l.Pairwise (fun x y => x.1 < y.1) := List.pairwise_map.mpr (active_pairwise i)
    obtain ⟨cells, hlines, hstored⟩ := store_clean hn hl hgood
    refine ⟨_, (hstep (ops := [0x81]) (row := .lst i.id) (body := storeBody true []) rfl rfl rfl).trans ?_, hstored, rfl, rfl⟩
    rw [storeBody_resolves rfl hok, resolve_local (resolveLocal_fits hfits)]
    dsimp only
    rw [hlines, no_line_refused]
    rfl
  · subst hop
    have hn := widthBytes_dvd (width_of_atomOk hok)
    have hl : l = [(x, at_ x)] := by simp [l, hone]
    rw [hl] at hgood
    obtain ⟨hvalue, hframe⟩ := atom_leaves i s' (at_ x) n rfl (readVs i.c (iB i.w) x (widthRegs i.w)) (readVs i.c (iC i.w) x (widthRegs i.w))
    refine ⟨writeKeys (if iBs i.w then [] else wordsFor (iDst i.w) x (widthRegs i.w) (leNat (peek s' (at_ x) n))) i.next, _,
      (hstep (ops := [0x82]) (row := .latom i.id) (body := atomBody true []) rfl rfl rfl).trans ?_, fun hnoret => ?_, fun hret => ?_,
      hvalue, hframe, rfl⟩
    · rw [atomBody_resolves rfl hok, resolve_local (resolveLocal_fits hfits)]
      show Host.Outcome.next (Issued.after i s (let r := atomAll [] i l s'; endAccess i true (if iBs i.w then [] else r.1) r.2.1 r.2.2)) = _
      rw [hl, atomAll_one hn hgood]
      rfl
    · rw [hnoret]
      rfl
    · have hws : i.active.flatMap (fun t => wordsFor (iDst i.w) t (widthRegs i.w) (leNat (peek s' (at_ x) n)))
          = wordsFor (iDst i.w) x (widthRegs i.w) (leNat (peek s' (at_ x) n)) := by rw [hone, List.flatMap_cons, List.flatMap_nil, List.append_nil]
      rw [hret, if_neg Bool.false_ne_true, ← hws]
      exact writeKeys_wroteV i _ (fun _ => leNat (peek s' (at_ x) n))
  · rcases hrow with ⟨rfl, rfl, hok⟩ | ⟨rfl, rfl, hok⟩ | ⟨rfl, rfl, hok⟩
    · rw [hstep (ops := [0x80]) (body := loadBody true []) rfl rfl rfl, loadBody_resolves rfl hok, hactive]
      exact ⟨fun hout => by rw [resolve_outside hout]; rfl, fun hfits hal => by rw [resolve_misaligned hfits hal]; rfl⟩
    · rw [hstep (ops := [0x81]) (body := storeBody true []) rfl rfl rfl, storeBody_resolves rfl hok, hactive]
      exact ⟨fun hout => by rw [resolve_outside hout]; rfl, fun hfits hal => by rw [resolve_misaligned hfits hal]; rfl⟩
    · rw [hstep (ops := [0x82]) (body := atomBody true []) rfl rfl rfl, atomBody_resolves rfl hok, hactive]
      exact ⟨fun hout => by rw [resolve_outside hout]; rfl, fun hfits hal => by rw [resolve_misaligned hfits hal]; rfl⟩

end
end Sys2Proof.Machine

/-! # Global memory accesses of a crew and their return (O42) -/
namespace Sys2Proof.Machine

section
variable {s u : State}

/-! ### An access in flight (13 R683) -/

/-- Registers written back with what they hold read as before. -/
theorem readV_writtenBack (i : Issue) (ws : List (Nat × Word32)) {n t : Nat} (ht : t < 64) :
    readV (writeKeys (ws.map (fun e => (e.1, readV i.c (e.1 / 64) (e.1 % 64)))) i.next) n t = readV i.c n t := by
  rw [readV, writeKeys_v, Table.getD]
  by_cases hkey : ∃ e ∈ ws, e.1 = n * 64 + t
  · obtain ⟨e, he, hek⟩ := hkey
    rw [find_foldl_put_of_mem (x := readV i.c n t)]
    · rfl
    · exact List.mem_map.mpr ⟨e, he, by rw [hek, show (n * 64 + t) / 64 = n by omega, show (n * 64 + t) % 64 = t by omega]⟩
    · rintro x hx hxk
      obtain ⟨e', -, rfl⟩ := List.mem_map.mp hx
      dsimp only at hxk ⊢
      rw [hxk, show (n * 64 + t) / 64 = n by omega, show (n * 64 + t) % 64 = t by omega]
  · rw [find_foldl_put_of_notMem]
    · rfl
    · rintro x hx hxk
      obtain ⟨e, he, rfl⟩ := List.mem_map.mp hx
      exact hkey ⟨e, he, hxk⟩

/-- The end of a global access without a fault. -/
theorem endAccess_inFlight (i : Issue) (ws : List (Nat × Word32)) (u : State) :
    ∃ c, endAccess i false ws none u = .go (i.put c u) ∧ InFlight i ws c := by
  obtain ⟨loads, heq, -, hlen⟩ := writeKeys_eq (ws.map (fun e => (e.1, readV i.c (e.1 / 64) (e.1 % 64)))) i.next
  refine ⟨_, rfl, ?_, fun n t ht => readV_writtenBack i ws ht, ?_, ?_⟩
  · rw [Issue.inFlight, heq]
    rfl
  · rw [Issue.inFlight, heq]
    simp [hlen, Issue.next]
  · rw [Issue.inFlight]
    simp

/-! ### Line adds (13 R680; 05 R269) -/

theorem length_addElements (w : Nat) (sub : Bool) (m : Nat) (x y : List Byte) : (addElements w sub m x y).length = m * w := by
  induction m generalizing x y with
  | zero => simp [addElements]
  | succ m ih => rw [addElements, List.length_append, length_leBytes, ih, Nat.succ_mul, Nat.add_comm]

/-- An element of a line add. -/
theorem addElements_element {w : Nat} (sub : Bool) {m k : Nat} (hk : k < m) (x y : List Byte) :
    ((addElements w sub m x y).drop (w * k)).take w = leBytes w
      (let old := leNat ((x.drop (w * k)).take w)
       let d := leNat ((y.drop (w * k)).take w)
       if sub then old + 2 ^ (8 * w) - d else old + d) := by
  induction m generalizing k x y with
  | zero => omega
  | succ m ih =>
    rw [addElements]
    cases k with
    | zero => simp [length_leBytes]
    | succ k =>
      have hdrop (z : List Byte) : z.drop (w * (k + 1)) = (z.drop w).drop (w * k) := by rw [List.drop_drop, Nat.mul_succ, Nat.add_comm]
      rw [hdrop, List.drop_append_of_le_length (by rw [length_leBytes]), List.drop_of_length_le (l := leBytes w _) (by rw [length_leBytes]),
        List.nil_append, ih (by omega), hdrop, hdrop]

/-- Part of the bytes read. -/
theorem drop_take_peek (a : Nat) {m n k : Nat} (h : k + m ≤ n) : ((peek u a n).drop k).take m = peek u (a + k) m := by
  obtain ⟨r, rfl⟩ := Nat.exists_eq_add_of_le h
  rw [Nat.add_assoc, peek_add, List.drop_append_of_le_length (by rw [length_peek]), List.drop_of_length_le (by rw [length_peek]), List.nil_append,
    peek_add, List.take_append_of_le_length (by rw [length_peek]), List.take_of_length_le (by rw [length_peek])]

theorem regionOf_near {a : Nat} (h : isNear a = true) : regionOf u a = .near := if_pos (of_decide_eq_true h)

/-- A line add at a clean near-tier line. -/
theorem faultyLineAdd_clean {a w : Nat} (sub : Bool) (operand : List Byte) (hnear : isNear a = true) (hslots : u.err.slots = [])
    (hpoison : poisonedAt u a = false) :
    faultyLineAdd [] a w sub operand u = (stOk, poke u a (addElements w sub (64 / w) (peek u a 64) (padTo 64 operand))) := by
  unfold faultyLineAdd
  rw [if_neg (not_not_intro (regionOf_near hnear)), readLine_plain hpoison hslots]
  rfl

/-- What it leaves in the line. -/
theorem lineAdd_leaves {w : Nat} (hw : w ∣ 64) (sub : Bool) (u : State) (a : Nat) {operand : List Byte} (hlen : operand.length = 64) :
    let v := poke u a (addElements w sub (64 / w) (peek u a 64) (padTo 64 operand))
    (∀ b, ¬(a ≤ b ∧ b < a + 64) → cellAt v.mem.cells b = cellAt u.mem.cells b)
      ∧ ∀ k < 64 / w, leNat (peek v (a + w * k) w) = (if sub then leNat (peek u (a + w * k) w) + 2 ^ (8 * w) - leNat ((operand.drop (w * k)).take w)
          else leNat (peek u (a + w * k) w) + leNat ((operand.drop (w * k)).take w)) % 2 ^ (8 * w) := by
  intro v
  have hpad : padTo 64 operand = operand := by simp [padTo, sliceBytes, hlen]
  have hall : (addElements w sub (64 / w) (peek u a 64) (padTo 64 operand)).length = 64 := by
    rw [length_addElements, Nat.div_mul_cancel hw]
  constructor
  · intro b hb
    exact cellAt_poke_outside _ _ _ _ (by omega)
  · intro k hk
    have hfits : w * k + w ≤ 64 := by
      calc w * k + w = w * (k + 1) := (Nat.mul_succ ..).symm
        _ ≤ w * (64 / w) := Nat.mul_le_mul_left _ hk
        _ = 64 := Nat.mul_div_cancel' hw
    have hline := peek_poke_same u a (addElements w sub (64 / w) (peek u a 64) (padTo 64 operand))
    rw [hall] at hline
    rw [← drop_take_peek a hfits, hline, addElements_element sub hk, leNat_leBytes, drop_take_peek a hfits, hpad]

theorem length_operand (c : Crew) (n t : Nat) : ((List.range 16).flatMap (fun j => leBytes 4 (readV c n (t + j)).toNat)).length = 64 := by
  simp [List.length_flatMap, length_leBytes]

/-- The element width of a line add. -/
theorem addWidth_dvd (m : Nat) : 2 ^ (m % 4 + 1) ∣ 64 := by
  have : (2 : Nat) ^ (m % 4 + 1) ∣ 2 ^ 6 := pow_dvd_pow 2 (by omega)
  exact this

/-- LADD of one group after its tests. -/
theorem laddBody_adds {i : Issue} {x a : Nat} (hres : reservedOk i.w = true) (hwidth : iWidth i.w = 2) (hsize : iOpmod i.w % 4 ≠ 3)
    (hop : iOpmod i.w ≤ 7) (haddr : i.addrOk 2 = true) (hreg : i.vOk (iB i.w) 1 = true) (hwaits : i.addrWaits 2 = false)
    (hready : pendingV i.c (iB i.w) 1 = false)
    (hresolve : resolveGlobal [] i .write 64 (((List.range (i.threads / 16)).map (· * 16)).filter i.pred) s = ([(x, a)], none, false, u))
    (hgood : GoodLines u 64 [(x, a)]) (hnear : isNear a = true) :
    laddBody [] i s = endAccess i false [] none (poke u a (addElements (2 ^ (iOpmod i.w % 4 + 1)) ((iOpmod i.w).testBit 2)
      (64 / 2 ^ (iOpmod i.w % 4 + 1)) (peek u a 64) (padTo 64 ((List.range 16).flatMap (fun j => leBytes 4 (readV i.c (iB i.w) (x + j)).toNat))))) := by
  obtain ⟨hslots, hgood⟩ := hgood
  obtain ⟨hpoison, -⟩ := hgood _ (List.mem_singleton.mpr rfl)
  unfold laddBody
  dsimp only
  rw [if_neg (by simp [hres, hwidth, hsize, haddr, hreg, Nat.not_lt.mpr hop]), if_neg (by simp [hwaits, hready]), resolve_global hresolve]
  rw [List.find?_cons_of_neg (by simp [hnear]), List.find?_nil]
  dsimp only
  rw [laddAll, faultyLineAdd_clean _ _ hnear hslots hpoison]
  rfl

/-! ### The return of an access (13 R682, R683, R697) -/

theorem fabricCheck_unarmed (h : s.err.slots = []) : fabricCheck s = s := by simp [fabricCheck, h]

theorem accessReturn_writes {k : Nat} {c : Crew} {l : Load} {rest : List Load} (hcrew : Table.find s.scl.crews k = some c)
    (hloads : c.loads = l :: rest) (hfault : l.fault = none) :
    accessReturn k s = (let d := { c with loads := rest, v := l.writes.foldl (fun v e => Table.put v e.1 e.2) c.v }
      setScl { s.scl with crews := Table.put s.scl.crews k d } s) := by
  rw [accessReturn, hcrew]
  dsimp only
  rw [hloads]
  dsimp only
  rw [hfault]
  cases launchOfCrew s c <;> rfl

theorem accessReturn_kills {k : Nat} {c : Crew} {l : Load} {rest : List Load} {launch : Launch} {f : Kill}
    (hcrew : Table.find s.scl.crews k = some c) (hloads : c.loads = l :: rest) (hlaunch : launchOfCrew s c = some launch)
    (hfault : l.fault = some f) : accessReturn k s = killContext launch.ctx f s := by
  rw [accessReturn, hcrew]
  dsimp only
  rw [hloads]
  dsimp only
  rw [hlaunch, hfault]

/-! ### The statement -/

/-- Settles O42: accesses of clean memory, put in flight, and their return. -/
theorem crewGlobalMemory : Obligations.CrewGlobalMemory := by
  refine ⟨?_, fun s k c l rest hslots hcrew hloads => ⟨fun hfault => ?_, fun f launch hfault hlaunch => ?_⟩⟩
  · intro s s' i op faults h n
    have hstep {ops : List Nat} {row : Instr} {body : Issue → State → Issued} (hops : ops.contains op = true) (hop : assigned op = true)
        (hrow : exec row s = crewStep ops i.id body s) : exec row s = .next ((body i s').after i s) :=
      hrow.trans (crewStep_issues h hops hop body)
    refine ⟨fun l u hnone => ?_, fun x rest hactive hal row hrow => ?_⟩
    · subst hnone
      refine ⟨fun hop hresolve hgood hok => ?_, fun hop hresolve hgood hok => ?_, fun x a hop hresolve hgood hok => ?_,
        fun x a hop hresolve hgood hnear hres hwidth hsize hopmod haddr hreg hwaits hready => ?_⟩
      · subst hop
        obtain ⟨c, hend, hflight⟩ := endAccess_inFlight i (loadWrites i u l) u
        refine ⟨c, u, (hstep (ops := [0x70]) (row := .ld i.id []) (body := loadBody false []) rfl rfl rfl).trans ?_, hflight, rfl, rfl⟩
        rw [loadBody_resolves rfl hok, resolve_global hresolve, loadAll_clean (widthBytes_dvd hok.2.1) hgood]
        dsimp only
        rw [hend]
        rfl
      · subst hop
        have hl : l.Pairwise (fun x y => x.1 < y.1) := by
          have hsorted := active_pairwise i
          rw [← resolveGlobal_threads hresolve] at hsorted
          exact List.pairwise_map.mp hsorted
        obtain ⟨cells, hlines, hstored⟩ := store_clean (widthBytes_dvd hok.2.1) hl hgood
        obtain ⟨c, hend, hflight⟩ := endAccess_inFlight i [] (withCells cells u)
        refine ⟨c, _, (hstep (ops := [0x71]) (row := .st i.id []) (body := storeBody false []) rfl rfl rfl).trans ?_, hflight, hstored, rfl, rfl⟩
        rw [storeBody_resolves rfl hok, resolve_global hresolve]
        dsimp only
        rw [hlines, no_line_refused]
        exact congrArg (fun x => Host.Outcome.next (Issued.after i s x)) hend
      · subst hop
        obtain ⟨hvalue, hframe⟩ := atom_leaves i u a n rfl (readVs i.c (iB i.w) x (widthRegs i.w)) (readVs i.c (iC i.w) x (widthRegs i.w))
        obtain ⟨c, hend, hflight⟩ := endAccess_inFlight i (if iBs i.w then [] else wordsFor (iDst i.w) x (widthRegs i.w) (leNat (peek u a n)))
          (poke u a (leBytes n (atomicOp (iOpmod i.w) n (iSigned i.w) (leNat (peek u a n)) (readVs i.c (iB i.w) x (widthRegs i.w))
            (readVs i.c (iC i.w) x (widthRegs i.w)))))
        refine ⟨c, _, (hstep (ops := [0x72]) (row := .atom i.id []) (body := atomBody false []) rfl rfl rfl).trans ?_, hflight, hvalue, hframe, rfl⟩
        rw [atomBody_resolves rfl hok, resolve_global hresolve]
        dsimp only
        rw [atomAll_one (widthBytes_dvd (width_of_atomOk hok)) hgood]
        exact congrArg (fun x => Host.Outcome.next (Issued.after i s x)) hend
      · subst hop
        obtain ⟨hframe, hvalue⟩ := lineAdd_leaves (addWidth_dvd (iOpmod i.w)) ((iOpmod i.w).testBit 2) u a (length_operand i.c (iB i.w) x)
        obtain ⟨c, hend, hflight⟩ := endAccess_inFlight i [] (poke u a (addElements (2 ^ (iOpmod i.w % 4 + 1)) ((iOpmod i.w).testBit 2)
          (64 / 2 ^ (iOpmod i.w % 4 + 1)) (peek u a 64) (padTo 64 ((List.range 16).flatMap (fun j => leBytes 4 (readV i.c (iB i.w) (x + j)).toNat)))))
        refine ⟨c, _, (hstep (ops := [0x73]) (row := .ladd i.id []) (body := laddBody []) rfl rfl rfl).trans ?_, hflight, ?_, hframe, hvalue⟩
        case refine_2 => rfl
        rw [laddBody_adds hres hwidth hsize hopmod haddr hreg hwaits hready hresolve hgood hnear, hend]
        rfl
    · rcases hrow with ⟨rfl, rfl, hok⟩ | ⟨rfl, rfl, hok⟩ | ⟨rfl, rfl, hok⟩
      · rw [hstep (ops := [0x70]) (body := loadBody false faults) rfl rfl rfl, loadBody_resolves rfl hok, hactive, resolve_misaligned_global hal]
        rfl
      · rw [hstep (ops := [0x71]) (body := storeBody false faults) rfl rfl rfl, storeBody_resolves rfl hok, hactive,
          resolve_misaligned_global hal]
        rfl
      · rw [hstep (ops := [0x72]) (body := atomBody false faults) rfl rfl rfl, atomBody_resolves rfl hok, hactive,
          resolve_misaligned_global hal]
        rfl
  · refine ⟨{ c with loads := rest, v := l.writes.foldl (fun v e => Table.put v e.1 e.2) c.v }, ?_, rfl, fun e he hone => ?_, fun key hkey => ?_⟩
    · show Host.Outcome.next (accessReturn k (fabricCheck s)) = _
      rw [fabricCheck_unarmed hslots, accessReturn_writes hcrew hloads hfault]
    · exact find_foldl_put_of_mem he (fun e' he' hk => by rw [hone e' he' hk]) _
    · exact find_foldl_put_of_notMem hkey _
  · show Host.Outcome.next (accessReturn k (fabricCheck s)) = _
    rw [fabricCheck_unarmed hslots, accessReturn_kills hcrew hloads hlaunch hfault]

end
end Sys2Proof.Machine

/-! # Placement, timeouts, kills and matrix descriptors (O51) -/
namespace Sys2Proof.Machine

section
variable {s : State}

/-! ### Placement of a group (12 R615-R618) -/

/-- The crew of a number in a newly placed group (12 R618). -/
def startCrew (l : Launch) (g number n : Nat) : Crew :=
  { group := g, number := n, half := if l.distance then n % 2 else 0, pc := l.entry,
    v := ((List.range (if l.distance then 64 else 32)).map (fun i =>
      (i, BitVec.ofNat 32 (n * (if l.distance then 64 else 32) + i)))).filter (fun e => e.2 ≠ 0),
    s := [(0, BitVec.ofNat 64 l.arg), (1, BitVec.ofNat 64 number), (2, BitVec.ofNat 64 (n + l.crews * 2 ^ 32)), (3, BitVec.ofNat 64 l.groups)] }

/-- Every crew of a placed group stands at its key. -/
theorem find_startCrews {l : Launch} {g number base n : Nat} (hn : n < l.crews) {k : Nat} (hk : k ≤ l.crews) (t : Table Crew) :
    Table.find (startCrews l g number k base t) (base + n) = if l.crews - k ≤ n then some (startCrew l g number n) else Table.find t (base + n) := by
  induction k generalizing t with
  | zero =>
    rw [if_neg (by omega)]
    rfl
  | succ k ih =>
    refine (ih (by omega) (Table.put t (base + (l.crews - (k + 1))) (startCrew l g number (l.crews - (k + 1))))).trans ?_
    by_cases hhere : n = l.crews - (k + 1)
    · rw [if_neg (by omega), if_pos (by omega), ← hhere]
      exact Table.find_put_same ..
    · rw [Table.find_put_ne _ _ (by omega : base + n ≠ base + (l.crews - (k + 1)))]
      by_cases hlate : l.crews - k ≤ n
      · rw [if_pos hlate, if_pos (by omega)]
      · rw [if_neg hlate, if_neg (by omega)]

/-- A register that is zero need not be listed. -/
theorem find_nonzero (f : Nat → Word32) (keys : List Nat) (key : Nat) :
    (Table.find ((keys.map (fun i => (i, f i))).filter (fun e => e.2 ≠ 0)) key).getD 0 = if key ∈ keys then f key else 0 := by
  induction keys with
  | nil => rfl
  | cons i keys ih =>
    rw [List.map_cons, List.filter_cons]
    by_cases hzero : f i = 0
    · rw [if_neg (by simp [hzero]), ih]
      by_cases hi : key = i
      · subst hi
        simp [hzero]
      · simp [hi]
    · rw [if_pos (decide_eq_true hzero), Table.find]
      by_cases hi : i = key
      · subst hi
        simp
      · rw [if_neg hi, ih]
        simp [Ne.symm hi]

theorem readV_startCrew (l : Launch) (g number n r t : Nat) : readV (startCrew l g number n) r t
    = if r * 64 + t < (if l.distance then 64 else 32) then BitVec.ofNat 32 (n * (if l.distance then 64 else 32) + (r * 64 + t)) else 0 := by
  have hfind := find_nonzero (fun i => BitVec.ofNat 32 (n * (if l.distance then 64 else 32) + i)) (List.range (if l.distance then 64 else 32))
    (r * 64 + t)
  simp only [List.mem_range] at hfind
  exact hfind

theorem readV_startCrew_zero {l : Launch} {n t : Nat} (hn : n < 32) (ht : t < if l.distance then 64 else 32) (g number : Nat) :
    (readV (startCrew l g number n) 0 t).toNat = n * (if l.distance then 64 else 32) + t := by
  have hthreads : (if l.distance then 64 else 32) ≤ 64 := by split <;> omega
  rw [readV_startCrew, Nat.zero_mul, Nat.zero_add, if_pos ht, BitVec.toNat_ofNat, Nat.mod_eq_of_lt]
  have := Nat.mul_le_mul hn.le hthreads
  omega

theorem readV_startCrew_above {l : Launch} {r : Nat} (hr : 1 ≤ r) (g number n t : Nat) : readV (startCrew l g number n) r t = 0 := by
  rw [readV_startCrew, if_neg]
  split <;> omega

theorem readS_startCrew_above {l : Launch} {r : Nat} (hr : 4 ≤ r) (g number n : Nat) : readS (startCrew l g number n) r = 0 := by
  have hne (j : Nat) (hj : j < 4) : j ≠ r := by omega
  simp [readS, startCrew, Table.getD, Table.find, hne]

/-- The state with a launch's next group on a scull (12 R615, R618). -/
def placed (a : Nat) (l : Launch) (j off : Nat) (s : State) : State :=
  setScl { s.scl with
    groups := Table.put s.scl.groups s.scl.nextGroup { age := a, number := l.next, scull := j, localOff := off }
    nextGroup := s.scl.nextGroup + 1
    crews := startCrews l s.scl.nextGroup l.next l.crews s.scl.nextCrew s.scl.crews
    nextCrew := s.scl.nextCrew + l.crews
    launches := Table.put s.scl.launches a { l with next := l.next + 1, lastScull := some j } } s

theorem groupPlacement_places {n a j : Nat} {l : Launch}
    (h : findPlace s (s.scl.launches.filter (fun e => e.2.ctx / 64 = n && unplaced s e.2)) [] = some (a, l, j)) :
    groupPlacement n s = (let off := (freeLocal s j l.localBytes).getD 0
      placed a l j off (if l.localBytes = 0 then s else zeroFill s (0x080040000000 + j * 0x40000 + off) l.localBytes)) := by
  rw [groupPlacement]
  dsimp only
  rw [h]
  rfl

/-- Local memory that a placement zeroes. -/
theorem zeroed_local (s : State) (base bytes : Nat) :
    ∃ mem, (if bytes = 0 then s else zeroFill s base bytes) = { s with mem := mem }
      ∧ (∀ b < bytes, cellAt mem.cells (base + b) = 0)
      ∧ ∀ b, ¬(base ≤ b ∧ b < base + bytes) → cellAt mem.cells b = cellAt s.mem.cells b := by
  by_cases hbytes : bytes = 0
  · subst hbytes
    exact ⟨s.mem, rfl, fun b hb => absurd hb (Nat.not_lt_zero b), fun _ _ => rfl⟩
  · refine ⟨(zeroFill s base bytes).mem, if_neg hbytes, fun b hb => ?_, fun b hb => ?_⟩
    · rw [cellAt_zeroFill, if_pos (by omega)]
    · rw [cellAt_zeroFill, if_neg hb]

/-! ### The end of a kill (12 R642, R643) -/

theorem killRecord_eq (x : Nat) (k : Kill) (s : State) :
    ∃ regs wake err pins, killRecord x k s = { s with regs := regs, wake := wake, err := err, pins := pins } := writeRecord_eq _ s

/-- Launches removed at a kill, while no sector command drains. -/
theorem removeLaunches (ages : List Nat) (hcmd : s.sct.cmd = none) :
    ∃ scl, ages.foldl (fun s a => noteLaunchEnd a true (removeLaunch a s)) s = { s with scl := scl } ∧ scl.contexts = s.scl.contexts
      ∧ (∀ a ∈ ages, Table.find scl.launches a = none) ∧ ∀ a, Table.find s.scl.launches a = none → Table.find scl.launches a = none := by
  induction ages generalizing s with
  | nil => exact ⟨s.scl, rfl, rfl, nofun, fun _ h => h⟩
  | cons a ages ih =>
    obtain ⟨scl, h, hctx, hin, hkept⟩ := ih (s := removeLaunch a s) hcmd
    refine ⟨scl, ?_, hctx, fun b hb => ?_, fun b hb => hkept b ?_⟩
    · rw [List.foldl_cons, noteLaunchEnd_idle (s := removeLaunch a s) hcmd]
      exact h
    · obtain rfl | hb := List.mem_cons.mp hb
      · exact hkept b (Table.find_drop_same ..)
      · exact hin b hb
    · show Table.find (Table.drop s.scl.launches a) b = none
      rw [Table.find_drop, hb, ite_self]

theorem mem_finishAll_of_notMem {c : Cmd} {i : Nat} {l : List Nat} (h : c ∈ (ringOf s i).inflight) (hl : c.serial ∉ l) (st r0 r1 : Nat) :
    c ∈ (ringOf (finishAll l st r0 r1 s) i).inflight := by
  induction l generalizing s with
  | nil => exact h
  | cons n l ih =>
    rw [List.mem_cons, not_or] at hl
    obtain ⟨hn, hl⟩ := hl
    exact ih (mem_finish_of_ne h (.inl hn) st r0 r1) hl

/-- The numbers of the LAUNCH commands of a context. -/
def launchSerials (s : State) (x : Nat) : List Nat := (launchesOf s x).filterMap (fun a => (Table.find s.scl.launches a).map (·.serial))

theorem mem_launchSerials {x n : Nat} :
    n ∈ launchSerials s x → ∃ a l, Table.find s.scl.launches a = some l ∧ n = l.serial := by
  intro h
  obtain ⟨a, -, ha⟩ := List.mem_filterMap.mp h
  obtain ⟨l, hl, rfl⟩ := Option.map_eq_some_iff.mp ha
  exact ⟨a, l, hl, rfl⟩

theorem launchSerials_mem {x a : Nat} {l : Launch} (hl : Table.find s.scl.launches a = some l) (hx : l.ctx = x) : l.serial ∈ launchSerials s x := by
  refine List.mem_filterMap.mpr ⟨a, ?_, by rw [hl]; rfl⟩
  exact List.mem_map.mpr ⟨(a, l), List.mem_filter.mpr ⟨Table.mem_of_find hl, by simp [hx]⟩, rfl⟩

/-- The end of a kill: launches gone, the context KILLED, its commands ended. -/
theorem killComplete_eq {x : Nat} {c : Context} {k : Kill} (hctx : ctxOf s x = some c) (hdying : c.dying = some k) (hcmd : s.sct.cmd = none) :
    ∃ scl regs wake err pins, killComplete x s = finishAll c.waiters stOk 0 0 (bumpField
        (finishAll (launchSerials s x) stContextKilled (k.cause + k.scull * 2 ^ 8 + k.group * 2 ^ 32) k.va
          { s with scl := scl, regs := regs, wake := wake, err := err, pins := pins }) .sclLaunchCount 0 0 32 (launchesOf s x).length)
      ∧ Table.find scl.contexts x = some { c with dying := none, killed := some k.cause, waiters := [] }
      ∧ (∀ y, y ≠ x → Table.find scl.contexts y = Table.find s.scl.contexts y) ∧ ∀ a ∈ launchesOf s x, Table.find scl.launches a = none := by
  obtain ⟨scl, hfold, hcontexts, hgone, -⟩ := removeLaunches (launchesOf s x) hcmd
  have hrecord : ∃ regs wake err pins, bump (killRecord x k { s with scl := scl }) .sclKillCount
      = { s with scl := scl, regs := regs, wake := wake, err := err, pins := pins } := by
    obtain ⟨regs, wake, err, pins, h⟩ := killRecord_eq x k { s with scl := scl }
    obtain ⟨regs', h'⟩ := bump_eq (killRecord x k { s with scl := scl }) .sclKillCount
    refine ⟨regs', wake, err, pins, h'.trans ?_⟩
    rw [h]
  obtain ⟨regs, wake, err, pins, hrecord⟩ := hrecord
  refine ⟨{ scl with contexts := Table.put scl.contexts x { c with dying := none, killed := some k.cause, waiters := [] } },
    regs, wake, err, pins, ?_, Table.find_put_same .., fun y hy => ?_, hgone⟩
  · rw [killComplete, hctx]
    dsimp only
    rw [hdying]
    dsimp only
    rw [hfold, hrecord]
    rfl
  · exact (Table.find_put_ne _ _ hy).trans (by rw [hcontexts])

/-! ### Bytes of a matrix operand (13 R684, R685) -/

/-- A field of bytes read from memory. -/
theorem fieldLE_peek {a m off n : Nat} (h : off + n ≤ m) : fieldLE (peek s a m) off n = leNat (peek s (a + off) n) := by
  rw [fieldLE, sliceBytes, drop_take_peek a h, length_peek, Nat.sub_self, List.replicate_zero, List.append_nil]

/-- One of several pieces of the same length. -/
theorem piece_of_flatMap {α : Type} (f : Nat → List α) {w m i : Nat} (hf : ∀ j < m, (f j).length = w) (hi : i < m) :
    (((List.range m).flatMap f).drop (i * w)).take w = f i := by
  have hlen (n : Nat) (hn : n ≤ m) : ((List.range n).flatMap f).length = n * w := by
    rw [List.length_flatMap, List.map_congr_left fun j hj => hf j (by have := List.mem_range.mp hj; omega), List.map_const', List.sum_replicate,
      List.length_range, smul_eq_mul]
  obtain ⟨r, rfl⟩ := Nat.exists_eq_add_of_lt hi
  rw [show i + r + 1 = i + 1 + r by omega, List.range_add, List.flatMap_append, List.range_succ, List.flatMap_append, List.append_assoc,
    List.drop_append_of_le_length (by rw [hlen i (by omega)]), List.drop_of_length_le (by rw [hlen i (by omega)]), List.nil_append,
    List.flatMap_singleton, List.take_append_of_le_length (by rw [hf i hi]), List.take_of_length_le (by rw [hf i hi])]

/-- An element of D in its bytes. -/
theorem dResult_piece (d : Descriptor) (a b old : List Byte) {r q : Nat} (hr : r < d.m) (hq : q < d.n) :
    ((dResult d a b old).drop ((r * d.n + q) * 4)).take 4 = leBytes 4 (dElement d a b r q (fieldLE old ((r * d.n + q) * 4) 4)) := by
  have hcol (row : Nat) : ((List.range d.n).flatMap (fun col => leBytes 4 (dElement d a b row col (fieldLE old ((row * d.n + col) * 4) 4)))).length
      = d.n * 4 := by simp [List.length_flatMap, length_leBytes]
  have hrow := piece_of_flatMap (fun row => (List.range d.n).flatMap (fun col =>
    leBytes 4 (dElement d a b row col (fieldLE old ((row * d.n + col) * 4) 4)))) (fun j _ => hcol j) hr
  have helem := piece_of_flatMap (fun col => leBytes 4 (dElement d a b r col (fieldLE old ((r * d.n + col) * 4) 4)))
    (fun j _ => length_leBytes ..) hq
  rw [← helem, ← hrow, List.drop_take, List.take_take, List.drop_drop, min_eq_left (by omega)]
  rw [dResult, show (r * d.n + q) * 4 = r * (d.n * 4) + q * 4 by ring]

theorem length_dResult (d : Descriptor) (a b old : List Byte) : (dResult d a b old).length = d.dBytes := by
  simp [dResult, List.length_flatMap, length_leBytes, Descriptor.dBytes, Nat.mul_assoc]

/-! ### One element of D (13 R686) -/

/-- An element of D from its row of A, its row of B and its old value. -/
theorem dElement_eq {d : Descriptor} {a b : List Byte} {r q : Nat} {fa fb : Nat → Nat} (hk : 32 ≤ d.k)
    (ha : ∀ k < d.k, element d.aType a (r * d.k + k) = fa k) (hb : ∀ k < d.k, element d.bType b (q * d.k + k) = fb k) (old start : Nat)
    (hstart : start = if d.accumulate then old else 0) :
    let out : Nat := dElement d a b r q old % 2 ^ 32
    if typeClass d.aType = 1 then
      (out : Int) = ((start : Int) + ((List.range d.k).map (fun k => elementInt d.aType (fa k) * elementInt d.bType (fb k))).sum) % (2 ^ 32 : Nat)
    else out = (List.range (d.k / 32)).foldl (fun run blk => f32.round (((List.range 32).map (fun k =>
      (elementFp d.aType (fa (blk * 32 + k))).mul (elementFp d.bType (fb (blk * 32 + k))))).foldl Fp.add (f32.value run))) start := by
  intro out
  by_cases hclass : typeClass d.aType = 1
  · rw [if_pos hclass]
    have hsum : (List.range d.k).map (fun j => elementInt d.aType (element d.aType a (r * d.k + j)) * elementInt d.bType (element d.bType b (q * d.k + j)))
        = (List.range d.k).map (fun k => elementInt d.aType (fa k) * elementInt d.bType (fb k)) :=
      List.map_congr_left fun j hj => by rw [ha j (List.mem_range.mp hj), hb j (List.mem_range.mp hj)]
    have hout : dElement d a b r q old = ofSigned 32 ((start : Int) + ((List.range d.k).map (fun k =>
        elementInt d.aType (fa k) * elementInt d.bType (fb k))).sum) := by
      rw [dElement, if_pos hclass, hsum, hstart]
    have hlt := ofSigned_lt 32 ((start : Int) + ((List.range d.k).map (fun k => elementInt d.aType (fa k) * elementInt d.bType (fb k))).sum)
    show ((dElement d a b r q old % 2 ^ 32 : Nat) : Int) = _
    rw [hout, Nat.mod_eq_of_lt hlt, ofSigned, Int.toNat_of_nonneg (Int.emod_nonneg _ (by decide))]
  · rw [if_neg hclass]
    have hblock (run blk : Nat) (hblk : blk ∈ List.range (d.k / 32)) : blockSum d a b r q blk run = f32.round (((List.range 32).map (fun k =>
        (elementFp d.aType (fa (blk * 32 + k))).mul (elementFp d.bType (fb (blk * 32 + k))))).foldl Fp.add (f32.value run)) := by
      rw [blockSum]
      have hlt := List.mem_range.mp hblk
      congr 2
      refine List.map_congr_left fun j hj => ?_
      have hj := List.mem_range.mp hj
      rw [Nat.add_assoc, Nat.add_assoc, ha _ (by omega), hb _ (by omega)]
    have hout : dElement d a b r q old = (List.range (d.k / 32)).foldl (fun run blk => f32.round (((List.range 32).map (fun k =>
        (elementFp d.aType (fa (blk * 32 + k))).mul (elementFp d.bType (fb (blk * 32 + k))))).foldl Fp.add (f32.value run))) start := by
      rw [dElement, if_neg hclass, hstart]
      exact List.foldl_ext _ _ _ hblock
    have hlast : ∃ z, dElement d a b r q old = f32.round z := by
      obtain ⟨m, hm⟩ : ∃ m, d.k / 32 = m + 1 := ⟨d.k / 32 - 1, by omega⟩
      rw [hout, hm, List.range_succ (n := m), List.foldl_append]
      exact ⟨_, rfl⟩
    obtain ⟨z, hz⟩ := hlast
    show dElement d a b r q old % 2 ^ 32 = _
    rw [← hout, Nat.mod_eq_of_lt]
    rw [hz]
    exact round_lt (f := f32) (by decide) z

/-! ### The end of a descriptor (13 R687-R689) -/

/-- The shape of a valid descriptor. -/
theorem ok_shape {d : Descriptor} {alloc : Nat} (h : d.ok alloc = true) : 16 ≤ d.m ∧ 16 ≤ d.n ∧ 32 ≤ d.k := by
  simp only [Descriptor.ok, Bool.and_eq_true, decide_eq_true_eq] at h
  omega

theorem typeBytes_pos (t : Nat) : 0 < typeBytes t := by
  unfold typeBytes
  split <;> omega

/-- A clean local operand reads as its bytes. -/
theorem readOperand_local {g : Group} {x addr bytes : Nat} (hbytes : bytes ≠ 0) (hslots : s.err.slots = [])
    (hclean : CleanRange s (0x080040000000 + g.scull * 0x40000 + g.localOff + addr) bytes) :
    readOperand [] g x false addr bytes s = (.ok (peek s (0x080040000000 + g.scull * 0x40000 + g.localOff + addr) bytes), s) := by
  unfold readOperand
  rw [if_neg Bool.false_ne_true, faultyRead_clean hbytes hslots hclean]

/-- An element of an operand in memory. -/
theorem element_peek {t a rows k r j : Nat} (hr : r < rows) (hj : j < k) :
    element t (peek s a (rows * k * typeBytes t)) (r * k + j) = leNat (peek s (a + (r * k + j) * typeBytes t) (typeBytes t)) := by
  have hlast : r * k + j + 1 ≤ rows * k := by
    calc r * k + j + 1 ≤ r * k + k := by omega
      _ = (r + 1) * k := (Nat.succ_mul ..).symm
      _ ≤ rows * k := Nat.mul_le_mul_right _ hr
  refine fieldLE_peek ?_
  calc (r * k + j) * typeBytes t + typeBytes t = (r * k + j + 1) * typeBytes t := (Nat.succ_mul ..).symm
    _ ≤ rows * k * typeBytes t := Nat.mul_le_mul_right _ hlast

/-- An element of D lies in D. -/
theorem element_fits {d : Descriptor} {r q : Nat} (hr : r < d.m) (hq : q < d.n) : (r * d.n + q) * 4 + 4 ≤ d.dBytes := by
  have hlast : r * d.n + q + 1 ≤ d.m * d.n := by
    calc r * d.n + q + 1 ≤ r * d.n + d.n := by omega
      _ = (r + 1) * d.n := (Nat.succ_mul ..).symm
      _ ≤ d.m * d.n := Nat.mul_le_mul_right _ hr
  rw [Descriptor.dBytes]
  omega

/-- The old D that a descriptor reads. -/
def oldD (d : Descriptor) (base : Nat) (s : State) : List Byte := if d.accumulate then peek s (base + d.dOff) d.dBytes else []

theorem fieldLE_oldD {d : Descriptor} {base r q : Nat} (hr : r < d.m) (hq : q < d.n) (hacc : d.accumulate = true) :
    fieldLE (oldD d base s) ((r * d.n + q) * 4) 4 = leNat (peek s (base + d.dOff + (r * d.n + q) * 4) 4) := by
  rw [oldD, if_pos hacc, fieldLE_peek (element_fits hr hq)]

/-- The product of a descriptor over clean local operands. -/
def matrixProduct (d : Descriptor) (base : Nat) (s : State) : List Byte :=
  dResult d (peek s (base + d.aAddr) d.aBytes) (peek s (base + d.bAddr) d.bBytes) (oldD d base s)

/-- The facts of a descriptor at the head of its queue, and clean local operands (13 R688). -/
structure LocalDescriptor (s : State) (j base : Nat) (d : Descriptor) (rest : List Descriptor) (c : Crew) (g : Group) (l : Launch) : Prop where
  queue : matrixQueue s j = d :: rest
  crew : Table.find s.scl.crews d.crew = some c
  group : Table.find s.scl.groups c.group = some g
  launch : Table.find s.scl.launches g.age = some l
  slots : s.err.slots = []
  running : s.err.running = []
  ok : d.ok l.localBytes = true
  aLocal : d.aGlobal = false
  bLocal : d.bGlobal = false
  base_eq : base = 0x080040000000 + g.scull * 0x40000 + g.localOff
  aClean : CleanRange s (base + d.aAddr) d.aBytes
  bClean : CleanRange s (base + d.bAddr) d.bBytes
  dClean : CleanRange s (base + d.dOff) d.dBytes

section
variable {j base elapsed : Nat} {d : Descriptor} {rest : List Descriptor} {c : Crew} {g : Group} {l : Launch}

/-- A descriptor starts at its checks when no fault is injected and no test runs on its engine. -/
theorem descriptorComplete_invalid (hqueue : matrixQueue s j = d :: rest) (hcrew : Table.find s.scl.crews d.crew = some c)
    (hgroup : Table.find s.scl.groups c.group = some g) (hlaunch : Table.find s.scl.launches g.age = some l) (hslots : s.err.slots = [])
    (hrunning : s.err.running = []) (hok : d.ok l.localBytes = false) :
    descriptorComplete j elapsed [] s = descriptorKill d g l c 6 0 s := by
  unfold descriptorComplete
  simp only [hqueue, hcrew, hgroup, hlaunch, hrunning, List.any_nil, Bool.false_eq_true, if_false, firePoint_unarmed hslots, hok, Bool.not_false,
    if_true]

/-- A valid one writes D, frees its token and leaves the queue. -/
theorem descriptorComplete_multiplies (h : LocalDescriptor s j base d rest c g l) :
    descriptorComplete j elapsed [] s = settleGroup c.group elapsed (let u := poke s (base + d.dOff) (matrixProduct d base s)
      setScl { u.scl with crews := Table.put u.scl.crews d.crew { c with tokens := setBits c.tokens d.token 1 0 },
                          matrix := Table.put u.scl.matrix j rest } u) := by
  obtain ⟨hqueue, hcrew, hgroup, hlaunch, hslots, hrunning, hok, haLocal, hbLocal, rfl, haClean, hbClean, hdClean⟩ := h
  obtain ⟨hm, hn, hk⟩ := ok_shape hok
  have ha : d.aBytes ≠ 0 := (Nat.mul_pos (Nat.mul_pos (by omega) (by omega)) (typeBytes_pos _)).ne'
  have hb : d.bBytes ≠ 0 := (Nat.mul_pos (Nat.mul_pos (by omega) (by omega)) (typeBytes_pos _)).ne'
  have hd : d.dBytes ≠ 0 := (Nat.mul_pos (Nat.mul_pos (by omega) (by omega)) (by omega)).ne'
  have hold : (if d.accumulate then readOperand [] g l.ctx false d.dOff d.dBytes s else (.ok [], s))
      = (.ok (oldD d (0x080040000000 + g.scull * 0x40000 + g.localOff) s), s) := by
    unfold oldD
    split
    · exact readOperand_local hd hslots hdClean
    · rfl
  have hwrite : trustedWrite (0x080040000000 + g.scull * 0x40000 + g.localOff + d.dOff)
      (matrixProduct d (0x080040000000 + g.scull * 0x40000 + g.localOff) s) s
      = (stOk, poke s (0x080040000000 + g.scull * 0x40000 + g.localOff + d.dOff)
          (matrixProduct d (0x080040000000 + g.scull * 0x40000 + g.localOff) s)) := by
    refine faultyWrite_clean ?_ hslots (by rwa [matrixProduct, length_dResult])
    exact List.length_pos_iff.mp (by rw [matrixProduct, length_dResult]; omega)
  unfold descriptorComplete
  simp only [hqueue, hcrew, hgroup, hlaunch, hrunning, List.any_nil, Bool.false_eq_true, if_false, firePoint_unarmed hslots, hok, Bool.not_true,
    haLocal, hbLocal, readOperand_local ha hslots haClean, readOperand_local hb hslots hbClean, hold]
  rw [← matrixProduct, hwrite]

/-- The elements of D in memory. -/
theorem matrixProduct_element (base : Nat) {r q : Nat} (hr : r < d.m) (hq : q < d.n) :
    leNat (peek (poke s (base + d.dOff) (matrixProduct d base s)) (base + d.dOff + (r * d.n + q) * 4) 4)
      = dElement d (peek s (base + d.aAddr) d.aBytes) (peek s (base + d.bAddr) d.bBytes) r q
          (fieldLE (oldD d base s) ((r * d.n + q) * 4) 4) % 2 ^ 32 := by
  have hlen : (matrixProduct d base s).length = d.dBytes := length_dResult ..
  have hfits := element_fits hr hq
  have hpeek := peek_poke_same s (base + d.dOff) (matrixProduct d base s)
  rw [hlen] at hpeek
  rw [← drop_take_peek _ hfits, hpeek, matrixProduct, dResult_piece d _ _ _ hr hq, leNat_leBytes]

end

/-! ### The statement -/

/-- Settles O51: placement, timeout and end of a kill as the scull state changes, and a descriptor as the product that it writes. -/
theorem contextEvents : Obligations.ContextEvents := by
  refine ⟨?_, ?_, ?_, ?_⟩
  · intro s n a j l hplace _ hcrews
    obtain ⟨mem, hmem, hzero, houtside⟩ := zeroed_local s (0x080040000000 + j * 0x40000 + (freeLocal s j l.localBytes).getD 0) l.localBytes
    refine ⟨placed a l j ((freeLocal s j l.localBytes).getD 0) { s with mem := mem }, (freeLocal s j l.localBytes).getD 0,
      congrArg Host.Outcome.next ?_, ?_, Table.find_put_same .., rfl, rfl, Table.find_put_same .., ?_, hzero, houtside, rfl, rfl⟩
    · exact (groupPlacement_places hplace).trans (congrArg (placed a l j _) hmem)
    · cases freeLocal s j l.localBytes with
      | none => exact .inr ⟨rfl, rfl⟩
      | some off => exact .inl rfl
    · intro k hk
      refine ⟨startCrew l s.scl.nextGroup l.next k, ?_, rfl, rfl, rfl, rfl, rfl, rfl, rfl, rfl, rfl,
        fun t' ht => readV_startCrew_zero (by omega) ht _ _, fun r t' hr _ => readV_startCrew_above hr .., ?_, ?_, ?_, ?_,
        fun r hr => readS_startCrew_above hr ..⟩
      · exact (find_startCrews hk le_rfl _).trans (if_pos (by omega))
      · exact BitVec.toNat_ofNat ..
      · exact BitVec.toNat_ofNat ..
      · exact BitVec.toNat_ofNat ..
      · exact BitVec.toNat_ofNat ..
  · intro s a l x hlaunch hctx
    refine ⟨fun hnone => ?_, fun htime hnext hdying hkilled => ?_⟩
    · refine congrArg Host.Outcome.next ?_
      rw [launchTimeout, hlaunch]
      exact if_neg (by simpa [or_iff_not_imp_left] using hnone)
    · obtain ⟨t, kill, ht, hnow, hcause, -, hothers, hlaunches, -, hmem, -, hrings⟩ := killContext_cases hctx hkilled { cause := 7 }
      refine ⟨t, congrArg Host.Outcome.next ?_, by rw [hnow, hcause hdying], hothers, hlaunches, hmem, hrings⟩
      rw [launchTimeout, hlaunch, ← ht]
      exact if_pos (by simp [htime, hnext])
  · intro s x c k hctx hdying hcmd
    obtain ⟨scl, regs, wake, err, pins, hkill, hnow, hothers, hgone⟩ := killComplete_eq hctx hdying hcmd
    obtain ⟨rings, hfirst⟩ := finishAll_eq (launchSerials s x) stContextKilled (k.cause + k.scull * 2 ^ 8 + k.group * 2 ^ 32) k.va
      { s with scl := scl, regs := regs, wake := wake, err := err, pins := pins }
    obtain ⟨rings', hsecond⟩ := finishAll_eq c.waiters stOk 0 0 (bumpField
        (finishAll (launchSerials s x) stContextKilled (k.cause + k.scull * 2 ^ 8 + k.group * 2 ^ 32) k.va
          { s with scl := scl, regs := regs, wake := wake, err := err, pins := pins }) .sclLaunchCount 0 0 32 (launchesOf s x).length)
    refine ⟨_, congrArg Host.Outcome.next hkill, ?_, ?_, ?_, fun i e he hrun => ⟨?_, ?_⟩, ?_, ?_⟩
    · rw [hsecond, hfirst]
      exact hnow
    · intro y hy
      rw [hsecond, hfirst]
      exact hothers y hy
    · intro a ha
      rw [hsecond, hfirst]
      exact hgone a ha
    · rintro ⟨a, l, hl, hx, hserial⟩
      exact done_mem_finishAll_of_done ⟨_, _, _, rfl⟩ _ _ _ _
        (done_mem_finishAll (s := { s with scl := scl, regs := regs, wake := wake, err := err, pins := pins }) he hrun
          (hserial ▸ launchSerials_mem hl hx) _ _ _)
    · intro hwaits hother
      refine done_mem_finishAll (s := bumpField _ _ _ _ _ _) ?_ hrun hwaits _ _ _
      refine mem_finishAll_of_notMem (s := { s with scl := scl, regs := regs, wake := wake, err := err, pins := pins }) he ?_ _ _ _
      intro hmem
      obtain ⟨a, l, hl, hserial⟩ := mem_launchSerials hmem
      exact hother a l hl hserial
    · rw [hsecond, hfirst]
      rfl
    · rw [hsecond, hfirst]
      rfl
  · intro s j elapsed d rest c g l hqueue hcrew hgroup hlaunch hslots hrunning
    refine ⟨fun hok => congrArg Host.Outcome.next (descriptorComplete_invalid hqueue hcrew hgroup hlaunch hslots hrunning hok), ?_⟩
    intro base hok haLocal hbLocal hended hbase _ haClean hbClean hdClean a b old
    have h : LocalDescriptor s j base d rest c g l :=
      ⟨hqueue, hcrew, hgroup, hlaunch, hslots, hrunning, hok, haLocal, hbLocal, hbase, haClean, hbClean, hdClean⟩
    obtain ⟨-, -, hk⟩ := ok_shape hok
    have hsettle := settleGroup_stays (s := let u := poke s (base + d.dOff) (matrixProduct d base s)
      setScl { u.scl with crews := Table.put u.scl.crews d.crew { c with tokens := setBits c.tokens d.token 1 0 },
                          matrix := Table.put u.scl.matrix j rest } u) (g := c.group) (elapsed := elapsed)
      ⟨(d.crew, { c with tokens := setBits c.tokens d.token 1 0 }), Table.mem_of_find (Table.find_put_same ..), rfl, hended⟩
    refine ⟨_, congrArg Host.Outcome.next ((descriptorComplete_multiplies h).trans hsettle), fun r q hr hq => ?_, ?_, ?_, ?_, ?_, rfl, rfl⟩
    · have helem := dElement_eq (d := d) (a := peek s (base + d.aAddr) d.aBytes) (b := peek s (base + d.bAddr) d.bBytes) (r := r) (q := q)
        (fa := a r) (fb := b q) hk (fun k hk => element_peek hr hk) (fun k hk => element_peek hq hk)
        (fieldLE (oldD d base s) ((r * d.n + q) * 4) 4) (old r q) ?_
      · rw [← matrixProduct_element base hr hq] at helem
        exact helem
      · by_cases hacc : d.accumulate = true
        · simp only [old, hacc, if_true, fieldLE_oldD hr hq hacc]
        · simp only [old, hacc, Bool.false_eq_true, if_false]
    · exact Table.getD_put_same ..
    · exact fun i hi => Table.getD_put_ne _ _ _ hi
    · refine ⟨_, Table.find_put_same .., rfl, fun k => ?_⟩
      dsimp only
      rw [testBit_setBits]
      by_cases hk : k = d.token
      · subst hk
        simp
      · rw [if_neg (by omega)]
        simp [hk]
    · intro x hx
      refine cellAt_poke_outside s _ x _ ?_
      rw [matrixProduct, length_dResult]
      omega

end
end Sys2Proof.Machine

/-! # Attestation, certificates, bounce windows, operator keys, SEAL_ARM and JTAG (O56) -/
namespace Sys2Proof.Machine

section
variable {s : State} {c : Cmd} {n : Nat}

theorem hostAllowed_unsealed (h : s.sealing.sealed = false) (n : Nat) (d2h : Bool) (addr len : Nat) : hostAllowed s n d2h addr len = true := by
  simp [hostAllowed, h]

theorem hostRead_unsealed (h : s.sealing.sealed = false) (n addr len : Nat) (raw : List Byte) :
    hostRead n addr len (.data raw) s = (.ok (padTo len raw), s) := by
  simp [hostRead, h]

/-- A command whose body refuses it, other than for a closed gate, ends with the refusal. -/
theorem beginCommand_refuses {ring op : Nat} {body : Cmd → State → Body} {r : Refuse} (hb : Begins s ring op c) (hbody : body c s = .error r)
    (hr : r.status ≠ stRetryPower) : beginCommand op ring body s = finish c.serial r.status r.r0 r.r1 s := by
  obtain ⟨hnext, hop, hgate⟩ := hb
  rw [beginCommand_begins op body hnext hop hgate, hbody, settle_error _ _ _ hr]

/-- A command whose body leaves it for later. -/
theorem beginCommand_later {ring op : Nat} {body : Cmd → State → Body} {t : State} (hb : Begins s ring op c) (hbody : body c s = .ok (.later t)) :
    beginCommand op ring body s = t := by
  obtain ⟨hnext, hop, hgate⟩ := hb
  rw [beginCommand_begins op body hnext hop hgate, hbody]
  rfl

/-! ### ATTEST_REPORT and CERT_READ (14 R716, R718) -/

theorem attestChecks_pass {dest : Nat} (hres : c.reserved [(112, 128)] = true) (hdest : c.param 24 8 = dest) (hal : dest % 4096 = 0)
    (hnot0 : dest ≠ 0) (hsealed : s.sealing.sealed = false) (hident : s.top.identBad = 0) : attestChecks false c s = .ok () := by
  subst hdest
  unfold attestChecks
  dsimp only
  rw [need_bind_of (by simp [hres, hal, hnot0]), need_bind_of (by simp [hostAllowed_unsealed hsealed])]
  simp [hident]

/-- ATTEST_REPORT waits while its generator has no seed. -/
theorem attestReportBody_waits {u : State} (hchecks : attestChecks false c s = .ok ()) (hdraw : internalBytes 5 80 s = (none, u)) :
    attestReportBody c s = .ok (.later u) := by
  unfold attestReportBody makeReport
  rw [hchecks, hdraw]
  rfl

/-- The report with its signatures, written to host memory. -/
theorem attestReportBody_reports {u : State} {draw : List Byte} {dest : Nat} (hchecks : attestChecks false c s = .ok ())
    (hn : n = c.ring / 64) (hdest : c.param 24 8 = dest) (hsealed : s.sealing.sealed = false) (hlink : s.pci.linkUp = true)
    (hdraw : internalBytes 5 80 s = (some draw, u)) :
    attestReportBody c s = (let body := reportBody u (sliceBytes c.bytes 32 32) (sliceBytes c.bytes 64 48)
      let report := body ++ aliasEcSign u body (draw.take 48) ++ aliasMlSign u body (draw.drop 48)
      .ok (.done stOk report.length 0 (emit (.hostWrite (.vf n) dest report) u))) := by
  subst hn hdest
  have hopen : u.sealing.sealed = false ∧ u.pci.linkUp = true := by
    obtain ⟨rng, regs, rfl⟩ := internalBytes_eq hdraw
    exact ⟨hsealed, hlink⟩
  unfold attestReportBody makeReport
  rw [hchecks, hdraw]
  dsimp only [bind, Except.bind]
  rw [hostWrite_unsealed hopen.1 hopen.2]

theorem certReadBody_pass {dest : Nat} (hn : n = c.ring / 64) (hres : c.reserved [(25, 32), (44, 64)] = true) (hkind : c.param 24 1 ≤ 1)
    (hdest : c.param 32 8 = dest) (hal : dest % 4096 = 0) (hsealed : s.sealing.sealed = false) (hlink : s.pci.linkUp = true) :
    let chain := chainOf s (c.param 24 1 = 1)
    certReadBody c s = if chain.length ≤ c.param 40 4 then .ok (.done stOk chain.length 0 (emit (.hostWrite (.vf n) dest chain) s))
      else .error { status := stBadParam } := by
  subst hn hdest
  intro chain
  unfold certReadBody
  dsimp only
  rw [need_bind_of (by simp [hres, hal, hkind]), need_bind_of (hostAllowed_unsealed hsealed ..)]
  by_cases hfits : chain.length ≤ c.param 40 4
  · rw [if_pos hfits, need_bind_of (decide_eq_true hfits), hostWrite_unsealed hsealed hlink]
  · rw [if_neg hfits, decide_eq_false hfits]
    rfl

/-! ### Bounce windows (14 R729, R735) -/

theorem areasClash_false {a b : List (Nat × Nat)} (h : ∀ x ∈ a, ∀ y ∈ b, overlaps x.1 x.2 y.1 y.2 = false) : areasClash a b = false := by
  simpa [areasClash] using h

theorem bounceAddBody_adds {w : Window} {k : Nat} (hn : n = c.ring / 64) (hres : c.reserved [(45, 64)] = true) (hdir : c.param 44 1 ≤ 1)
    (hw : w = { d2h := c.param 44 1 = 1, dataBase := c.param 24 8, tagBase := c.param 32 8, slots := c.param 40 4 })
    (hdata : w.dataBase % 4096 = 0) (htag : w.tagBase % 4096 = 0) (hlo : 1 ≤ w.slots) (hhi : w.slots ≤ 65536)
    (happart : w.dataBase + 4096 * w.slots ≤ w.tagBase ∨ w.tagBase + 32 * w.slots ≤ w.dataBase)
    (hothers : ∀ e ∈ (sealOf s n).windows, ∀ x ∈ w.areas, ∀ y ∈ e.2.areas, overlaps x.1 x.2 y.1 y.2 = false)
    (hsealed : s.sealing.sealed = true) (hkeys : (sealOf s n).h2d.isSome = true) (hfree : Table.firstFree (sealOf s n).windows 0 16 = some k)
    (hsum : ((sealOf s n).windows.map (fun e => e.2.slots)).sum + w.slots ≤ 65536) :
    bounceAddBody c s = .ok (.done stOk k 0 (setSeal s n { sealOf s n with windows := Table.put (sealOf s n).windows k w })) := by
  subst hn hw
  have hself : overlaps (c.param 24 8) (4096 * c.param 40 4) (c.param 32 8) (32 * c.param 40 4) = false := by
    simp only [overlaps, Bool.and_eq_false_iff, decide_eq_false_iff_not]
    dsimp only at happart
    omega
  have hclash : (sealOf s (c.ring / 64)).windows.any (fun e => areasClash
      (Window.areas { d2h := c.param 44 1 = 1, dataBase := c.param 24 8, tagBase := c.param 32 8, slots := c.param 40 4 }) e.2.areas) = false := by
    rw [List.any_eq_false]
    exact fun e he => by rw [areasClash_false (hothers e he)]; exact Bool.false_ne_true
  unfold bounceAddBody
  dsimp only
  rw [need_bind_of (by simp [hres, hdir, hdata, htag, hlo, hhi]), need_bind_of (by rw [hself, hclash]; rfl),
    need_bind_of (by simp [hsealed, hkeys]), hfree]
  dsimp only
  rw [need_bind_of (decide_eq_true hsum)]

theorem bounceRemoveBody_drops {w : Window} {k : Nat} (hn : n = c.ring / 64) (hres : c.reserved [(25, 64)] = true) (hk : c.param 24 1 = k)
    (h15 : k ≤ 15) (hsealed : s.sealing.sealed = true) (hkeys : (sealOf s n).h2d.isSome = true)
    (hw : Table.find (sealOf s n).windows k = some w) (hrings : ringInWindow s n w = false) :
    bounceRemoveBody c s = .ok (.done stOk 0 0 (setSeal s n { sealOf s n with windows := Table.drop (sealOf s n).windows k })) := by
  subst hn hk
  unfold bounceRemoveBody
  dsimp only
  rw [need_bind_of (by simp [hres, h15]), need_bind_of (by simp [hsealed, hkeys]), hw]
  dsimp only
  rw [need_bind_of (by simp [hrings])]

/-! ### Operator keys (14 R740, R741) -/

theorem opkeyLoadBody_loads {raw : List Byte} (hres : c.reserved [(33, 40), (48, 64)] = true) (hhandle : c.param 24 8 ≠ 0)
    (hal : c.param 40 8 % 4096 = 0) (hsealed : s.sealing.sealed = false) (hroom : s.sealing.opkeys.length < 64) :
    let k : OpKey := { sectors := c.param 32 1, point := (padTo 1281 raw).take 97, ek := (padTo 1281 raw).drop 97 }
    opkeyLoadBody (.data raw) c s = .ok (if Config.p384OnCurve k.point && Config.mlkemEkOk k.ek then
      .done stOk 0 0 { s with sealing := { s.sealing with opkeys := Table.put s.sealing.opkeys (c.param 24 8) k } } else .done stBadParam 0 0 s) := by
  intro k
  unfold opkeyLoadBody
  dsimp only
  rw [need_bind_of (by simp [hres, hal, hhandle]), need_bind_of (hostAllowed_unsealed hsealed ..), hostRead_unsealed hsealed]
  dsimp only
  cases hkey : Config.p384OnCurve k.point && Config.mlkemEkOk k.ek
  · rw [if_pos (by rfl), if_neg Bool.false_ne_true]
  · rw [if_neg (by simp), if_neg (by simp; omega), if_pos rfl]
    rfl

theorem opkeyRemoveBody_drops (hres : c.reserved [(32, 64)] = true) (hhandle : c.param 24 8 ≠ 0)
    (hkey : (Table.find s.sealing.opkeys (c.param 24 8)).isSome = true) (hslots : ∀ e ∈ s.heat.slots, e.2.handle ≠ c.param 24 8) :
    opkeyRemoveBody c s
      = .ok (.done stOk 0 0 { s with sealing := { s.sealing with opkeys := Table.drop s.sealing.opkeys (c.param 24 8) } }) := by
  have hunused : s.heat.slots.any (fun e => e.2.handle = c.param 24 8) = false := by
    rw [List.any_eq_false]
    exact fun e he => by simpa using hslots e he
  unfold opkeyRemoveBody
  dsimp only
  rw [need_bind_of (by simp [hres, hhandle]), need_bind_of (by rw [hkey, hunused]; rfl)]
  rfl

/-! ### SEAL_ARM (14 R701, R702) -/

theorem sealArmBody_arms (hres : c.reserved [(24, 64)] = true) (hsectors : ∀ e ∈ s.sct.sectors, e.1 ≠ 0 → e.2.state = .undefined)
    (hheat : s.heat.slots = []) (hpair : pairFormed s = false) (hraw : s.rng.raw = false) (hmover : s.mover = [])
    (hsealed : s.sealing.sealed = false) (harmed : s.sealing.armed = false) (hident : s.top.identBad = 0) :
    sealArmBody c s = .ok (.done stOk 0 0 { s with
      err := { s.err with slots := [] }
      mem := { (zeroFill (zeroFill s 0 0x008000000000) 0x080000000000 0x10000000).mem with far := [], pageTags := [] }
      sealing := { s.sealing with armed := true } }) := by
  have hall : s.sct.sectors.all (fun e => e.1 = 0 || e.2.state = .undefined) = true := by
    rw [List.all_eq_true]
    intro e he
    by_cases h0 : e.1 = 0
    · simp [h0]
    · simp [hsectors e he h0]
  unfold sealArmBody
  rw [need_bind_of hres, need_bind_of (by rw [hall]; simp [hheat, hpair, hraw, hmover, hsealed, harmed]), need_bind_of (decide_eq_true hident)]
  rfl

/-! ### The statement -/

/-- Settles O56: the body of each command as it ends, and the port's instructions. -/
theorem sealingCommands : Obligations.SealingCommands := by
  intro s ring c n hn
  refine ⟨?_, ?_, ?_, ?_, ?_, ?_, ?_, fun dr code => ⟨rfl, rfl, ?_⟩⟩
  · intro dest hb hres hdest hal hnot0 hsealed hlink hident
    have hchecks := attestChecks_pass hres hdest hal hnot0 hsealed hident
    refine congrArg Host.Outcome.next ?_
    cases hdraw : internalBytes 5 80 s with
    | mk draw s1 =>
      cases draw with
      | none => exact beginCommand_later hb (attestReportBody_waits hchecks hdraw)
      | some draw => exact beginCommand_okWith hb (attestReportBody_reports hchecks hn hdest hsealed hlink hdraw)
  · intro dest hb hres hkind hdest hal hsealed hlink chain
    have hbody := certReadBody_pass hn hres hkind hdest hal hsealed hlink
    refine congrArg Host.Outcome.next ?_
    by_cases hfits : chain.length ≤ c.param 40 4
    · rw [if_pos hfits]
      exact beginCommand_okWith hb (hbody.trans (if_pos hfits))
    · rw [if_neg hfits]
      exact beginCommand_refuses hb (hbody.trans (if_neg hfits)) (by decide)
  · intro w k hb hres hdir hw hdata htag hlo hhi happart hothers hsealed hkeys hfree hsum
    exact congrArg Host.Outcome.next (beginCommand_okWith hb
      (bounceAddBody_adds hn hres hdir hw hdata htag hlo hhi happart hothers hsealed hkeys hfree hsum))
  · intro w k hb hres hk h15 hsealed hkeys hw hrings
    exact congrArg Host.Outcome.next (beginCommand_okWith hb (bounceRemoveBody_drops hn hres hk h15 hsealed hkeys hw hrings))
  · intro raw hb hres hhandle hal hsealed hroom bs k
    have hbody := opkeyLoadBody_loads (raw := raw) hres hhandle hal hsealed hroom
    refine congrArg Host.Outcome.next ?_
    cases hkey : Config.p384OnCurve k.point && Config.mlkemEkOk k.ek
    · exact beginCommand_done hb (hbody.trans (congrArg _ (if_neg (by rw [hkey]; exact Bool.false_ne_true))))
    · exact beginCommand_okWith hb (hbody.trans (congrArg _ (if_pos hkey)))
  · intro hb hres hhandle hkey hslots
    exact congrArg Host.Outcome.next (beginCommand_okWith hb (opkeyRemoveBody_drops hres hhandle hkey hslots))
  · intro hb hres hsectors hheat hpair hraw hmover hsealed harmed hident z
    exact congrArg Host.Outcome.next (beginCommand_okWith hb
      (sealArmBody_arms hres hsectors hheat hpair hraw hmover hsealed harmed hident))
  · show (if s.sealing.sealed then _ else _) = _
    split <;> rfl

end
end Sys2Proof.Machine

/-! # SPDM requests outside a session (O57) -/
namespace Sys2Proof.Machine

section
variable {s : State} {p row : Nat} {req m : List Byte} {d : HostRead}

/-! ### The row of a request (14 R720) -/

theorem rowOf_open (h : openCodes.contains (reqCode m) = true) (p : Nat) : rowOf p m = some (reqCode m) := by
  unfold rowOf
  exact if_pos h

theorem rowOf_session (hp : p < 9) (hopen : openCodes.contains (reqCode m) = false) (h : sessionCodes.contains (reqCode m) = true) :
    rowOf p m = some (reqCode m) := by
  unfold rowOf
  dsimp only
  rw [if_neg (by rw [hopen]; exact Bool.false_ne_true), if_neg (by omega), if_pos h]

theorem rowOf_mctp (hp : 9 ≤ p) (hopen : openCodes.contains (reqCode m) = false) : rowOf p m = none := by
  unfold rowOf
  dsimp only
  rw [if_neg (by rw [hopen]; exact Bool.false_ne_true), if_pos hp]

/-! ### Responses placed (14 R722) -/

theorem largeResponse_short {secured : Bool} {r : List Byte} (h : r.length ≤ room secured) (p : Nat) (s : State) :
    largeResponse p secured r s = (r, s) := by
  simp [largeResponse, h]

theorem replied_short {r : List Byte} (h : r.length ≤ 16384) (p : Nat) (s : State) : replied p r s = placeResponse p r s := by
  unfold replied
  rw [largeResponse_short (secured := false) h]

theorem placeResponse_mctp (hp : 9 ≤ p) (r : List Byte) (s : State) : placeResponse p r s = emit (.mctp p r) s := if_pos hp

/-- A response placed in a mailbox. -/
theorem placeResponse_mailbox (hp : p < 9) (r : List Byte) (s : State) :
    ∃ regs, placeResponse p r s = { setMailbox p { mailboxOf s p with resp := r, busy := false } s with regs := regs } := by
  unfold placeResponse
  rw [if_neg (by omega)]
  exact ⟨_, rfl⟩

theorem rget_placeResponse (hp : p < 9) (r : List Byte) (s : State) : rget (placeResponse p r s) .sealMboxCtrl p
    = setBits (setBits (setBits (rget s .sealMboxCtrl p) 0 1 0) 1 1 1) 32 15 r.length % 2 ^ 64 := by
  unfold placeResponse
  rw [if_neg (by omega)]
  exact rget_rput_same ..

theorem testBit_bitsOf (v lo w k : Nat) : (bitsOf v lo w).testBit k = (decide (k < w) && v.testBit (lo + k)) := by
  rw [bitsOf, Nat.testBit_mod_two_pow, Nat.testBit_shiftRight]

/-- GO and BUSY are clear, DONE is set. -/
theorem placeResponse_done (hp : p < 9) (r : List Byte) (s : State) : bitsOf (rget (placeResponse p r s) .sealMboxCtrl p) 0 2 = 2 := by
  rw [rget_placeResponse hp]
  refine Nat.eq_of_testBit_eq fun k => ?_
  rw [testBit_bitsOf, Nat.testBit_mod_two_pow, testBit_setBits, testBit_setBits, testBit_setBits]
  match k with
  | 0 => rfl
  | 1 => rfl
  | k + 2 =>
    rw [decide_eq_false (by omega), Bool.false_and]
    exact (Nat.testBit_lt_two_pow (calc 2 = 2 ^ 1 := rfl
      _ < 2 ^ (k + 2) := Nat.pow_lt_pow_right (by decide) (by omega))).symm

/-- RESP_LEN is the response's length. -/
theorem placeResponse_length (hp : p < 9) (r : List Byte) (s : State) :
    bitsOf (rget (placeResponse p r s) .sealMboxCtrl p) 32 15 = r.length % 2 ^ 15 := by
  rw [rget_placeResponse hp]
  refine Nat.eq_of_testBit_eq fun k => ?_
  rw [testBit_bitsOf, Nat.testBit_mod_two_pow, testBit_setBits, Nat.testBit_mod_two_pow]
  by_cases hk : k < 15
  · rw [if_pos (by omega), Nat.add_sub_cancel_left, decide_eq_true (by omega : 32 + k < 64), decide_eq_true hk]
    simp
  · simp [hk]

/-! ### A request outside a session -/

section
variable {r : List Byte} {t : State}

theorem spdmRow_unsupported (h : Asked s p req m) (hsession : sessionAt s p = none) (hp : 9 ≤ p) (hopen : openCodes.contains (reqCode m) = false) :
    spdmRow row p req d s = emit (.mctp p (spdmError 0x07 (reqCode m))) s := by
  obtain ⟨hready, rfl⟩ := h
  unfold spdmRow
  simp only [hready, hsession, rowOf_mctp hp hopen, Bool.not_true, Bool.false_eq_true, if_false, Option.filter_none, Option.getD_none, ne_eq,
    not_true, Option.map_none]
  show replied p _ s = _
  rw [replied_short (by simp [spdmError, length_leBytes]), placeResponse_mctp hp]

/-- What a row answers: the chunk messages, or one of the others. -/
def answerRow (p row : Nat) (x : Option Session) (d : HostRead) (m : List Byte) (s : State) : Answer :=
  if row = 0x85 then answerChunkSend p x d m s else if row = 0x86 then answerChunkGet p x m s else answerOne p row x d m s

/-- A request outside a session is answered in the clear. -/
theorem spdmRow_answers (h : Asked s p req m) (hsession : sessionAt s p = none) (hrow : rowOf p m = some row)
    (ha : answerRow p row none d m s = (some r, t)) : spdmRow row p req d s = replied p r t := by
  obtain ⟨hready, hraw⟩ := h
  unfold answerRow at ha
  unfold spdmRow
  simp only [hready, hsession, ← hraw, hrow, Bool.not_true, Bool.false_eq_true, if_false, Option.filter_none, Option.getD_some, ne_eq,
    not_true, Option.map_none]
  split at ha
  case isTrue h85 =>
    subst h85
    simp only [ha]
  case isFalse h85 =>
    split at ha
    case isTrue h86 =>
      subst h86
      simp only [ha]
    case isFalse h86 =>
      simp only [ha]

/-- A request that needs a seed while there is none waits. -/
theorem spdmRow_waits (h : Asked s p req m) (hsession : sessionAt s p = none) (hrow : rowOf p m = some row)
    (ha : answerRow p row none d m s = (none, t)) : spdmRow row p req d s = { s with rng := t.rng, regs := t.regs } := by
  obtain ⟨hready, hraw⟩ := h
  unfold answerRow at ha
  unfold spdmRow
  simp only [hready, hsession, ← hraw, hrow, Bool.not_true, Bool.false_eq_true, if_false, Option.filter_none, Option.getD_some, ne_eq,
    not_true, Option.map_none]
  split at ha
  case isTrue h85 =>
    subst h85
    simp only [ha]
  case isFalse h85 =>
    split at ha
    case isTrue h86 =>
      subst h86
      simp only [ha]
    case isFalse h86 =>
      simp only [ha]

/-- A short answer is placed whole. -/
theorem spdmRow_places (h : Asked s p req m) (hsession : sessionAt s p = none) (hrow : rowOf p m = some row)
    (ha : answerRow p row none d m s = (some r, t)) (hlen : r.length ≤ 16384) : spdmRow row p req d s = placeResponse p r t := by
  rw [spdmRow_answers h hsession hrow ha, replied_short hlen]

end

/-! ### Negotiation and certificates (14 R720, R721) -/

section
variable (hv : fieldLE m 0 1 = 0x13)

theorem answerRow_version (p : Nat) (d : HostRead) (m : List Byte) (s : State) : answerRow p 0x84 none d m s = answerVersion p m s := by
  simp [answerRow, answerOne]

include hv

theorem answerRow_capabilities : answerRow p 0xE1 none d m s = answerCapabilities p m s := by simp [answerRow, answerOne, hv]
theorem answerRow_algorithms : answerRow p 0xE3 none d m s = answerAlgorithms p m s := by simp [answerRow, answerOne, hv]
theorem answerRow_digests : answerRow p 0x81 none d m s = answerDigests p m s := by simp [answerRow, answerOne, hv]
theorem answerRow_certificate : answerRow p 0x82 none d m s = answerCertificate p m s := by simp [answerRow, answerOne, hv]
theorem answerRow_challenge : answerRow p 0x83 none d m s = answerChallenge p m s := by simp [answerRow, answerOne, hv]
theorem answerRow_measurements : answerRow p 0xE0 none d m s = answerMeasurements p m s := by simp [answerRow, answerOne, hv]
theorem answerRow_keyExchange : answerRow p 0xE4 none d m s = answerKeyExchange p m s := by simp [answerRow, answerOne, hv]
theorem answerRow_mldsa : answerRow p 0x104 none d m s = answerMldsa ((vendorOf m).2.2.drop 1) s := by simp [answerRow, answerOne, hv]

end

theorem answerRow_chunkSend : answerRow p 0x85 none d m s = answerChunkSend p none d m s := if_pos rfl

theorem answerRow_chunkGet : answerRow p 0x86 none d m s = answerChunkGet p none m s := by
  unfold answerRow
  rw [if_neg (by decide), if_pos rfl]

section
variable {b : Mailbox} (hb : mailboxOf s p = b)
include hb

theorem answerCapabilities_gives (hneg : b.negotiated ≠ 0) : answerCapabilities p m s =
      (let r := spdmHead 0x61 0 0 ++ leBytes 1 0 ++ leBytes 1 (Config.freeNat s.fresh) ++ leBytes 2 0 ++ leBytes 4 0x262F6
         ++ leBytes 4 16384 ++ leBytes 4 (Config.freeNat (s.fresh + 1))
       (some r, setMailbox p { b with negotiated := 2, vca := b.vca ++ m ++ r } { s with fresh := s.fresh + 2 })) := by
  have hflags : capabilityFlags = 0x262F6 := by decide
  unfold answerCapabilities
  dsimp only
  rw [hb, if_neg hneg, hflags]
  rfl

theorem answerAlgorithms_gives (hneg : 2 ≤ b.negotiated) (hnone : fieldLE m 2 1 = 0) : answerAlgorithms p m s =
      (let r := spdmHead 0x63 0 0 ++ leBytes 2 36 ++ leBytes 1 (fieldLE m 6 1 &&& 1) ++ leBytes 1 (fieldLE m 7 1 &&& 2) ++ leBytes 4 4
        ++ leBytes 4 (fieldLE m 8 4 &&& 0x80) ++ leBytes 4 (fieldLE m 12 4 &&& 2) ++ leBytes 16 0
       (some r, setMailbox p { b with negotiated := 3, vca := b.vca ++ m ++ r } s)) := by
  have hzeros : leBytes 12 0 ++ leBytes 4 0 = leBytes 16 0 := rfl
  unfold answerAlgorithms
  dsimp only
  rw [hb, if_neg (by omega), hnone, chosenStructs, List.append_nil, List.append_assoc _ (leBytes 12 0), hzeros]
  rfl

theorem answerChallenge_signs {draw : List Byte} {u : State} (hneg : 3 ≤ b.negotiated) (hslot : fieldLE m 2 1 = 0)
    (hdraw : internalBytes 5 80 s = (some draw, u)) : answerChallenge p m s =
      (let r := spdmHead 0x03 0 1 ++ hash384 (slotChain u) ++ draw.take 32 ++ summaryHash u (fieldLE m 3 1) ++ leBytes 2 0 ++ sliceBytes m 36 8
       let sig := aliasEcSign u (signedMessage "responder-challenge_auth signing" (b.vca ++ b.certs ++ m ++ r)) (draw.drop 32)
       (some (r ++ sig), setMailbox p { b with certs := [] } u)) := by
  unfold answerChallenge
  dsimp only
  rw [hb, if_neg (by omega), if_neg (by simp [hslot]), hdraw]

theorem answerChallenge_waits {u : State} (hneg : 3 ≤ b.negotiated) (hslot : fieldLE m 2 1 = 0) (hdraw : internalBytes 5 80 s = (none, u)) :
    answerChallenge p m s = (none, u) := by
  unfold answerChallenge
  dsimp only
  rw [hb, if_neg (by omega), if_neg (by simp [hslot]), hdraw]

theorem answerMeasurements_all {draw : List Byte} {u : State} (hneg : 3 ≤ b.negotiated) (hplain : fieldLE m 2 1 = 0) (hall : fieldLE m 3 1 = 0xFF)
    (hdraw : internalBytes 5 80 s = (some draw, u)) : answerMeasurements p m s = (let blocks := (measureBlocks s).flatten
      let r := spdmHead 0x60 0 0 ++ leBytes 1 4 ++ leBytes 3 blocks.length ++ blocks ++ draw.take 32 ++ leBytes 2 0 ++ sliceBytes m 4 8
      (some r, setMailbox p { b with meas := b.meas ++ m ++ r } u)) := by
  unfold answerMeasurements
  dsimp only
  rw [hb, hplain, hall, if_neg (by omega), if_neg (by simp), hdraw]
  rfl

theorem answerMeasurements_waits {u : State} (hneg : 3 ≤ b.negotiated) (hplain : fieldLE m 2 1 = 0) (hall : fieldLE m 3 1 = 0xFF)
    (hdraw : internalBytes 5 80 s = (none, u)) : answerMeasurements p m s = (none, u) := by
  unfold answerMeasurements
  dsimp only
  rw [hb, hplain, hall, if_neg (by omega), if_neg (by simp), hdraw]

/-! ### Chunks (14 R722) -/

theorem answerChunkSend_keeps (hv : fieldLE m 0 1 = 0x13) (hmore : (fieldLE m 2 1).testBit 0 = false) (x : Option Session) :
    answerChunkSend p x d m s = (let off := if fieldLE m 4 2 = 0 then 16 else 12
      let whole := (if fieldLE m 4 2 = 0 then [] else b.chunkIn) ++ sliceBytes m off (fieldLE m 8 4)
      (some (spdmHead 0x05 0 (fieldLE m 3 1) ++ leBytes 2 (fieldLE m 4 2)), setMailbox p { b with chunkIn := whole } s)) := by
  unfold answerChunkSend
  dsimp only
  rw [hb, if_neg (by simp [hv]), if_neg (by simp [hmore])]

theorem answerChunkGet_whole (hv : fieldLE m 0 1 = 0x13) (hseq : fieldLE m 4 2 = 0) (hhandle : fieldLE m 3 1 = b.handle) (hne : b.chunkOut ≠ [])
    (hlen : b.chunkOut.length ≤ 16368) : answerChunkGet p none m s = (some (spdmHead 0x06 1 b.handle ++ leBytes 2 0 ++ leBytes 2 0
        ++ leBytes 4 b.chunkOut.length ++ leBytes 4 b.chunkOut.length ++ b.chunkOut), setMailbox p { b with chunkOut := [] } s) := by
  have hpart : (b.chunkOut.drop 0).take (room false - 12 - 4) = b.chunkOut := by
    rw [List.drop_zero]
    exact List.take_of_length_le hlen
  unfold answerChunkGet
  simp only [hb, hseq, hv, hhandle, Option.isSome_none, if_true, hpart, ne_eq, not_true, if_false, hne, decide_false, Bool.or_false, Nat.zero_add,
    Bool.false_eq_true, le_refl, decide_true, bitNat]

/-! ### The exchange of keys (14 R723) -/

section
variable (hfree : (sealOf s (mailboxSector p)).session = none) (hneg : 3 ≤ b.negotiated)
include hfree hneg

theorem answerKeyExchange_offCurve (hcurve : Config.p384OnCurve (leBytes 1 4 ++ sliceBytes m 40 96) = false) :
    answerKeyExchange p m s = (some (spdmError 0x01 0), s) := by
  unfold answerKeyExchange
  dsimp only
  rw [hb, if_neg (by simp [hfree]), if_neg (by omega), if_pos (by simp [hcurve])]

theorem answerKeyExchange_waits {u : State} (hslot : fieldLE m 3 1 = 0)
    (hcurve : Config.p384OnCurve (leBytes 1 4 ++ sliceBytes m 40 96) = true)
    (hdraw : internalBytes 5 128 s = (none, u)) : answerKeyExchange p m s = (none, u) := by
  unfold answerKeyExchange
  dsimp only
  rw [hb, if_neg (by simp [hfree]), if_neg (by omega), if_neg (by simp [hcurve, hslot]), hdraw]

/-- The session that an exchange makes. -/
theorem answerKeyExchange_session {draw : List Byte} {u : State} (hslot : fieldLE m 3 1 = 0)
    (hcurve : Config.p384OnCurve (leBytes 1 4 ++ sliceBytes m 40 96) = true)
    (hdraw : internalBytes 5 128 s = (some draw, u)) :
    ∃ r x, answerKeyExchange p m s = (some r, setSession p x { u with fresh := u.fresh + 2 }) ∧ x.mailbox = p ∧ x.finished = false
      ∧ x.kemSeed = none ∧ x.kemDone = false ∧ x.id = fieldLE m 4 2 + Config.freeNat (u.fresh + 1) % 65536 * 65536
      ∧ x.handshake = hmac384 (padTo 48 []) (Config.p384Ecdh (draw.take 48) (leBytes 1 4 ++ sliceBytes m 40 96)) := by
  unfold answerKeyExchange
  dsimp only
  rw [hb, if_neg (by simp [hfree]), if_neg (by omega), if_neg (by simp [hcurve, hslot]), hdraw]
  exact ⟨_, _, rfl, rfl, rfl, rfl, rfl, rfl, rfl⟩

end

end

theorem answerKeyExchange_limited (h : (sealOf s (mailboxSector p)).session.isSome = true) :
    answerKeyExchange p m s = (some (spdmError 0x0A 0), s) := if_pos h

/-- A response changes no session. -/
theorem replied_eq (hp : p < 9) (r : List Byte) (s : State) :
    ∃ regs mailboxes, replied p r s = { s with regs := regs, sealing := { s.sealing with mailboxes := mailboxes } } := by
  have hlarge : ∃ e mailboxes, largeResponse p false r s = (e, { s with sealing := { s.sealing with mailboxes := mailboxes } }) := by
    unfold largeResponse
    split
    · exact ⟨_, s.sealing.mailboxes, rfl⟩
    · exact ⟨_, _, rfl⟩
  obtain ⟨e, mailboxes, hlarge⟩ := hlarge
  obtain ⟨regs, hplace⟩ := placeResponse_mailbox hp e { s with sealing := { s.sealing with mailboxes := mailboxes } }
  unfold replied
  rw [hlarge]
  dsimp only
  rw [hplace]
  exact ⟨_, _, rfl⟩

/-! ### The statement -/

/-- Settles O57: the row of the request, what it answers, and the response as it is placed. -/
theorem spdmOpen : Obligations.SpdmOpen := by
  intro s p req m h hsession b
  have hopen {row : Nat} (hcode : reqCode m = row) (hin : openCodes.contains row = true) : rowOf p m = some row :=
    hcode ▸ rowOf_open (hcode ▸ hin) p
  refine ⟨fun r => ⟨fun hp => placeResponse_mctp hp r s, fun hp => ⟨?_, placeResponse_done hp r s, placeResponse_length hp r s⟩⟩,
    fun hp hcode => ?_, fun hcode => ?_, fun hv => ⟨fun hcode hneg => ?_, fun hcode hneg hnone => ?_, fun hcode => ?_,
      fun hcode hslot => ?_, fun hcode hneg hslot => ?_, fun hcode hneg hplain hall => ?_, fun hp => ⟨fun hcode hmore d => ?_,
      fun hcode hseq hhandle hne hlen => ?_, fun hrow => ?_, fun hcode => ⟨fun hsome => ?_, fun hfree hneg hslot => ?_⟩⟩⟩⟩
  · obtain ⟨regs, hplace⟩ := placeResponse_mailbox hp r s
    rw [hplace]
    exact mailboxOf_setMailbox_same ..
  · intro t
    have hrow (row : Nat) (d : HostRead) : spdmRow row p req d s = t := spdmRow_unsupported h hsession hp hcode
    exact ⟨congrArg _ (hrow ..), congrArg _ (hrow ..), congrArg _ (hrow ..), congrArg _ (hrow ..), congrArg _ (hrow ..), congrArg _ (hrow ..),
      congrArg _ (hrow ..), fun d => congrArg _ (hrow _ d), congrArg _ (hrow ..), congrArg _ (hrow ..), fun d => congrArg _ (hrow _ d),
      congrArg _ (hrow ..)⟩
  · exact congrArg Host.Outcome.next (spdmRow_places h hsession (hopen hcode rfl) (answerRow_version p _ m s) (by decide))
  · exact congrArg Host.Outcome.next (spdmRow_places h hsession (hopen hcode rfl)
      ((answerRow_capabilities hv).trans (answerCapabilities_gives rfl hneg)) (by simp [spdmHead, length_leBytes]))
  · exact congrArg Host.Outcome.next (spdmRow_places h hsession (hopen hcode rfl)
      ((answerRow_algorithms hv).trans (answerAlgorithms_gives rfl hneg hnone)) (by simp [spdmHead, length_leBytes]))
  · exact congrArg Host.Outcome.next (spdmRow_places h hsession (hopen hcode rfl) (answerRow_digests hv)
      (by simp [spdmHead, length_leBytes, hash384, length_padTo]))
  · refine congrArg Host.Outcome.next ?_
    dsimp only
    split
    case isTrue hpast =>
      refine spdmRow_places h hsession (hopen hcode rfl) ((answerRow_certificate hv).trans ?_) (by simp [spdmError, length_leBytes])
      exact if_pos (by simp [hpast])
    case isFalse hin =>
      refine spdmRow_answers h hsession (hopen hcode rfl) ((answerRow_certificate hv).trans ?_)
      exact if_neg (by simp [hslot, hin])
  · refine congrArg Host.Outcome.next ?_
    cases hdraw : internalBytes 5 80 s with
    | mk draw u =>
      cases draw with
      | none => exact spdmRow_waits h hsession (hopen hcode rfl) ((answerRow_challenge hv).trans (answerChallenge_waits rfl hneg hslot hdraw))
      | some draw =>
        exact spdmRow_answers h hsession (hopen hcode rfl) ((answerRow_challenge hv).trans (answerChallenge_signs rfl hneg hslot hdraw))
  · refine congrArg Host.Outcome.next ?_
    cases hdraw : internalBytes 5 80 s with
    | mk draw u =>
      cases draw with
      | none =>
        exact spdmRow_waits h hsession (hopen hcode rfl)
          ((answerRow_measurements hv).trans (answerMeasurements_waits rfl hneg hplain hall hdraw))
      | some draw =>
        exact spdmRow_answers h hsession (hopen hcode rfl)
          ((answerRow_measurements hv).trans (answerMeasurements_all rfl hneg hplain hall hdraw))
  · have hrow : rowOf p m = some 0x85 := hcode ▸ rowOf_session hp (by rw [hcode]; rfl) (by rw [hcode]; rfl)
    exact congrArg Host.Outcome.next (spdmRow_places h hsession hrow (answerRow_chunkSend.trans (answerChunkSend_keeps rfl hv hmore none))
      (by simp [spdmHead, length_leBytes]))
  · have hrow : rowOf p m = some 0x86 := hcode ▸ rowOf_session hp (by rw [hcode]; rfl) (by rw [hcode]; rfl)
    exact congrArg Host.Outcome.next (spdmRow_places h hsession hrow (answerRow_chunkGet.trans (answerChunkGet_whole rfl hv hseq hhandle hne hlen))
      (by simp [spdmHead, length_leBytes]; omega))
  · exact congrArg Host.Outcome.next (spdmRow_answers h hsession hrow (answerRow_mldsa hv))
  · have hrow : rowOf p m = some 0xE4 := hcode ▸ rowOf_session hp (by rw [hcode]; rfl) (by rw [hcode]; rfl)
    exact congrArg Host.Outcome.next (spdmRow_places h hsession hrow ((answerRow_keyExchange hv).trans (answerKeyExchange_limited hsome))
      (by simp [spdmError, length_leBytes]))
  · have hrow : rowOf p m = some 0xE4 := hcode ▸ rowOf_session hp (by rw [hcode]; rfl) (by rw [hcode]; rfl)
    refine ⟨_, rfl, fun hcurve => ?_, fun hcurve => ?_⟩
    · exact spdmRow_places h hsession hrow ((answerRow_keyExchange hv).trans (answerKeyExchange_offCurve rfl hfree hneg hcurve))
        (by simp [spdmError, length_leBytes])
    · cases hdraw : internalBytes 5 128 s with
      | mk draw u =>
        cases draw with
        | none => exact spdmRow_waits h hsession hrow ((answerRow_keyExchange hv).trans (answerKeyExchange_waits rfl hfree hneg hslot hcurve hdraw))
        | some draw =>
          obtain ⟨r, x, ha, hbox, hfinished, hseed, hdone, hid, hhandshake⟩ := answerKeyExchange_session (p := p) rfl hfree hneg hslot hcurve hdraw
          have hstep := spdmRow_answers (d := .error) h hsession hrow ((answerRow_keyExchange hv).trans ha)
          obtain ⟨regs, mailboxes, hreplied⟩ := replied_eq hp r (setSession p x { u with fresh := u.fresh + 2 })
          have hseal : (sealOf (spdmRow 0xE4 p req .error s) (mailboxSector p)).session = some x := by
            rw [hstep, hreplied]
            exact congrArg SealSector.session (Table.getD_put_same ..)
          dsimp only
          refine ⟨?_, fun y hy => ?_⟩
          · rw [hseal]
            rfl
          · rw [hseal] at hy
            obtain rfl := Option.some.inj hy
            refine ⟨hbox, hfinished, hseed, hdone, hid, hhandshake, ?_, ?_, ?_⟩
            · rw [hstep, hreplied]
              rfl
            · rw [hstep, hreplied]
              rfl
            · rw [hstep, hreplied]
              rfl

end
end Sys2Proof.Machine

/-! # SPDM requests secured in a session (O58) -/
namespace Sys2Proof.Machine

section
variable {s : State} {p : Nat} {req raw m : List Byte} {x y : Session} {d : HostRead}

/-- A request of session `x` stands at the endpoint. -/
structure InSession (s : State) (p : Nat) (req raw : List Byte) (x : Session) : Prop where
  asked : Asked s p req raw
  session : sessionAt s p = some x
  named : fieldLE raw 0 4 = x.id
  long : 4 ≤ raw.length

/-- The session once a record of it was opened. -/
def counted (x : Session) : Session := { x with reqCount := x.reqCount + 1 }

/-- A response kept for CHUNK_GET leaves the sessions. -/
theorem sessionAt_largeResponse (secured : Bool) (r : List Byte) (s : State) (p q : Nat) :
    sessionAt (largeResponse p secured r s).2 q = sessionAt s q := by
  unfold largeResponse
  split <;> rfl

/-! ### The record (14 R722, R724) -/

/-- A record that does not open. -/
theorem spdmRow_undecrypted (h : InSession s p req raw x) (hopen : openSecured x raw = none) (row : Nat) (d : HostRead) :
    spdmRow row p req d s = placeResponse p (spdmError 0x06 0) s := by
  obtain ⟨⟨hready, hraw⟩, hsession, hid, hlen⟩ := h
  unfold spdmRow
  simp only [hready, hsession, ← hraw, Bool.not_true, Bool.false_eq_true, if_false, Option.filter_some, hid, hlen, decide_true, Bool.and_self,
    if_true, hopen]

section
variable {row : Nat} {r : List Byte} {t : State}

/-- A request in a session is answered in it. -/
theorem spdmRow_answersIn (h : InSession s p req raw x) (hopen : openSecured x raw = some m) (hrow : rowOf p m = some row)
    (ha : answerRow p row (some (counted x)) d m (setSession p (counted x) s) = (some r, t)) :
    spdmRow row p req d s = repliedIn p (if row = 0xE5 || row = 0xEC then counted x else nowAt t p (counted x)) r t := by
  obtain ⟨⟨hready, hraw⟩, hsession, hid, hlen⟩ := h
  unfold counted at ha ⊢
  unfold answerRow at ha
  unfold spdmRow
  simp only [hready, hsession, ← hraw, Bool.not_true, Bool.false_eq_true, if_false, Option.filter_some, hid, hlen, decide_true, Bool.and_self,
    if_true, hopen, hrow, Option.getD_some, ne_eq, not_true, Option.map_some]
  split at ha
  case isTrue h85 =>
    subst h85
    simp only [ha, sessionAt_largeResponse]
  case isFalse h85 =>
    split at ha
    case isTrue h86 =>
      subst h86
      simp only [ha, sessionAt_largeResponse]
    case isFalse h86 =>
      simp only [ha, sessionAt_largeResponse]

theorem spdmRow_waitsIn (h : InSession s p req raw x) (hopen : openSecured x raw = some m) (hrow : rowOf p m = some row)
    (ha : answerRow p row (some (counted x)) d m (setSession p (counted x) s) = (none, t)) :
    spdmRow row p req d s = { s with rng := t.rng, regs := t.regs } := by
  obtain ⟨⟨hready, hraw⟩, hsession, hid, hlen⟩ := h
  unfold counted at ha
  unfold answerRow at ha
  unfold spdmRow
  simp only [hready, hsession, ← hraw, Bool.not_true, Bool.false_eq_true, if_false, Option.filter_some, hid, hlen, decide_true, Bool.and_self,
    if_true, hopen, hrow, Option.getD_some, ne_eq, not_true, Option.map_some]
  split at ha
  case isTrue h85 =>
    subst h85
    simp only [ha]
  case isFalse h85 =>
    split at ha
    case isTrue h86 =>
      subst h86
      simp only [ha]
    case isFalse h86 =>
      simp only [ha]

end

/-! ### Rows of a session (14 R724-R728; 15 R772) -/

theorem answerRow_finish (hv : fieldLE m 0 1 = 0x13) : answerRow p 0xE5 (some y) d m s = answerFinish p y m s := by
  simp [answerRow, answerOne, hv]

section
variable (hv : fieldLE m 0 1 = 0x13) (hfinished : y.finished = true)
include hv hfinished

theorem answerRow_heartbeat : answerRow p 0xE8 (some y) d m s = (some (spdmHead 0x68 0 0), s) := by
  simp [answerRow, answerOne, hv, hfinished, inSession, answerHeartbeat]
theorem answerRow_keyUpdate : answerRow p 0xE9 (some y) d m s = answerKeyUpdate p y m s := by
  simp [answerRow, answerOne, hv, hfinished, inSession]
theorem answerRow_endSession : answerRow p 0xEC (some y) d m s = answerEndSession p s := by
  simp [answerRow, answerOne, hv, hfinished, inSession]
theorem answerRow_kemKey : answerRow p 0x101 (some y) d m s = answerKemKey p y s := by
  simp [answerRow, answerOne, hv, hfinished, inSession]
theorem answerRow_kemCipher : answerRow p 0x102 (some y) d m s = answerKemCipher p y ((vendorOf m).2.2.drop 1) s := by
  simp [answerRow, answerOne, hv, hfinished, inSession]
theorem answerRow_vendor (hkem : y.kemDone = true) :
    answerRow p 0x103 (some y) d m s = answerVendorCommand p d ((vendorOf m).2.2.drop 1) s := by
  simp [answerRow, answerOne, hv, hfinished, inSession, hkem]
theorem answerRow_ide : answerRow 0 0x200 (some y) d m s = answerIde (vendorOf m).2.2 s := by
  simp [answerRow, answerOne, hv, hfinished, inSession]

end

theorem answerEndSession_ends (h : ∀ e ∈ s.rings.table, e.1 / 64 = mailboxSector p → e.2.state = .disabled) :
    answerEndSession p s = (some (spdmHead 0x6C 0 0), endSession (mailboxSector p) s) := by
  have hnone : s.rings.table.any (fun e => e.1 / 64 = mailboxSector p && e.2.state ≠ .disabled) = false := by
    rw [List.any_eq_false]
    intro e he
    by_cases hsector : e.1 / 64 = mailboxSector p
    · simp [h e he hsector]
    · simp [hsector]
  unfold answerEndSession
  dsimp only
  rw [if_neg (by rw [hnone]; exact Bool.false_ne_true)]

theorem answerKemCipher_keys {seed body : List Byte} (hseed : y.kemSeed = some seed) (hdone : y.kemDone = false) (hlen : body.length = 1088) :
    answerKemCipher p y body s = (some (vendorReply 0x1E5B [2, 0]),
      (let n := mailboxSector p
       let master := hmac384 (Config.mlkemDecaps (Config.mlkemKeys seed).2 body) y.exportMaster
       let key := fun (dir : String) => hkdfExpand hmac384 master (ascii "TGSL rec " ++ ascii dir ++ leBytes 1 n) 36
       setSeal s n { sealOf s n with session := some { y with kemDone := true }, h2d := some (key "h2d"), d2h := some (key "d2h"),
                                     nextCounter := 1 })) := by
  unfold answerKemCipher
  rw [hseed]
  dsimp only
  rw [hdone, if_neg Bool.false_ne_true, if_neg (not_not_intro hlen)]

/-! ### Commands in vendor messages (14 R728) -/

section
variable {body : List Byte}

/-- The command that a vendor message carries. -/
def vendorCmd (p : Nat) (body : List Byte) : Cmd :=
  { ring := mailboxSector p * 64, bytes := padTo (64 * min 8 (max 1 (fieldLE body 3 1))) body, fn := mailboxFn p }

theorem answerVendorCommand_foreign (hlo : 64 ≤ body.length) (hhi : body.length ≤ 512) (hop : (vendorCmd p body).opcode / 256 ≠ 0x0A) :
    answerVendorCommand p d body s = vendorDone (vendorCmd p body) 0x0201 0 0 [] s := by
  unfold answerVendorCommand
  dsimp only
  rw [if_neg (by simp; omega)]
  exact if_pos hop

section
variable (hlo : 64 ≤ body.length) (hhi : body.length ≤ 512) (hop : (vendorCmd p body).opcode / 256 = 0x0A)
  (hreport : (vendorCmd p body).opcode ≠ 0x0A01) (hlen1 : 1 ≤ fieldLE body 3 1) (hlen8 : fieldLE body 3 1 ≤ 8)
  (hfits : 64 * fieldLE body 3 1 ≤ body.length) (hheader : headerCheck (mailboxSector p * 64) 2 (vendorCmd p body) s = none)
  (hstroke : (vendorCmd p body).notBefore ≤ s.cad.stroke) (hlock : (vendorCmd p body).lockstep = false)
  (hgate : commandGate s (vendorCmd p body).opcode = none)
include hlo hhi hop hreport hlen1 hlen8 hfits hheader hstroke hlock hgate

/-- A command of class 0x0A that passes its checks answers as its body does. -/
theorem answerVendorCommand_runs {b : Body} (hb : vendorBody d (vendorCmd p body) s = b) :
    (∀ e, b = .error e → answerVendorCommand p d body s = vendorDone (vendorCmd p body) e.status e.r0 e.r1 [] s)
    ∧ (∀ st r0 r1 t, b = .ok (.done st r0 r1 t) → answerVendorCommand p d body s = vendorDone (vendorCmd p body) st r0 r1 [] t)
    ∧ (∀ t, b = .ok (.running t) ∨ b = .ok (.later t) → answerVendorCommand p d body s = (none, t)) := by
  have hanswer : answerVendorCommand p d body s = answerVendorCommand p d body s := rfl
  conv at hanswer =>
    rhs
    unfold answerVendorCommand
  unfold vendorCmd at *
  dsimp only at *
  rw [if_neg (by simp; omega), if_neg (not_not_intro hop), if_neg (by simp; omega), hheader] at hanswer
  dsimp only at hanswer
  rw [if_neg (by simp [hlock]; omega), hgate] at hanswer
  dsimp only at hanswer
  rw [if_neg (by simp [hreport]), hb] at hanswer
  refine ⟨fun e he => ?_, fun st r0 r1 t ht => ?_, fun t ht => ?_⟩
  · subst he
    exact hanswer
  · subst ht
    exact hanswer
  · rcases ht with rfl | rfl
    · exact hanswer
    · exact hanswer

end

end

/-! ### What each row leaves -/

/-- The state with a completion placed as the response to a vendor message. -/
def completionIn (p : Nat) (y : Session) (c : Cmd) (st r0 r1 : Nat) (t : State) : State :=
  let u := { t with fresh := t.fresh + 1 }
  repliedIn p (nowAt u p y) (vendorReply 0x1E5B (leBytes 1 3
    ++ completionBytes c.tag st r0 r1 t.cad.stroke (Config.freeNat t.fresh % 2 = 1) false ++ [])) u

/-- VD_COMMAND as the body of its command answers. -/
structure VendorAnswers (s : State) (p : Nat) (req m : List Byte) (x : Session) (d : HostRead) : Prop where
  error : ∀ e, vendorBody d (vendorCmd p ((vendorOf m).2.2.drop 1)) (setSession p (counted x) s) = .error e →
    spdmRow 0x103 p req d s = completionIn p (counted x) (vendorCmd p ((vendorOf m).2.2.drop 1)) e.status e.r0 e.r1 (setSession p (counted x) s)
  done : ∀ st r0 r1 t, vendorBody d (vendorCmd p ((vendorOf m).2.2.drop 1)) (setSession p (counted x) s) = .ok (.done st r0 r1 t) →
    spdmRow 0x103 p req d s = completionIn p (counted x) (vendorCmd p ((vendorOf m).2.2.drop 1)) st r0 r1 t
  waits : ∀ t, vendorBody d (vendorCmd p ((vendorOf m).2.2.drop 1)) (setSession p (counted x) s) = .ok (.running t)
      ∨ vendorBody d (vendorCmd p ((vendorOf m).2.2.drop 1)) (setSession p (counted x) s) = .ok (.later t) →
    spdmRow 0x103 p req d s = { s with rng := t.rng, regs := t.regs }

section
variable (h : InSession s p req raw x) (hopen : openSecured x raw = some m)
include h hopen

/-- A request whose session outlives its answer. -/
theorem spdmRow_repliedIn {row : Nat} {r : List Byte} {t : State} (hrow : rowOf p m = some row) (hplain : row ≠ 0xE5 ∧ row ≠ 0xEC)
    (ha : answerRow p row (some (counted x)) d m (setSession p (counted x) s) = (some r, t)) :
    spdmRow row p req d s = repliedIn p (nowAt t p (counted x)) r t := by
  rw [spdmRow_answersIn h hopen hrow ha, if_neg (by simpa using hplain)]

variable (hv : fieldLE m 0 1 = 0x13)
include hv

theorem spdmRow_finish (hrow : rowOf p m = some 0xE5) (hfinished : x.finished = false) : spdmRow 0xE5 p req d s =
    if sliceBytes m 4 48 = verifyData x.reqSecret (hash384 (x.transcript ++ m.take 4)) then
      let r := spdmHead 0x65 0 0
      let th2 := hash384 (x.transcript ++ m ++ r)
      let ms := masterSecret x.handshake
      repliedIn p (counted x) r (setSession p { counted x with
        finished := true, th := th2, reqSecret := derive ms 48 "req app data" th2, rspSecret := derive ms 48 "rsp app data" th2,
        reqCount := 0, rspCount := 0, exportMaster := derive ms 48 "exp master" th2 } (setSession p (counted x) s))
    else repliedIn p (counted x) (spdmError 0x06 0) (setSession p (counted x) s) := by
  have hanswer := answerRow_finish (p := p) (y := counted x) (d := d) (s := setSession p (counted x) s) hv
  have hnot : ¬(counted x).finished = true := by
    rw [show (counted x).finished = false from hfinished]
    exact Bool.false_ne_true
  unfold answerFinish at hanswer
  rw [if_neg hnot] at hanswer
  split
  case isTrue hverify =>
    rw [spdmRow_answersIn h hopen hrow (hanswer.trans (if_neg (not_not_intro hverify))), if_pos (by simp)]
    rfl
  case isFalse hverify =>
    rw [spdmRow_answersIn h hopen hrow (hanswer.trans (if_pos hverify)), if_pos (by simp)]

variable (hfinished : x.finished = true)
include hfinished

theorem spdmRow_keyUpdate (hrow : rowOf p m = some 0xE9) :
    let next := fun (k : List Byte) => derive k 48 "traffic upd" []
    let r := spdmHead 0x69 (fieldLE m 2 1) (fieldLE m 3 1)
    (fieldLE m 2 1 = 1 →
      let t := setSession p { counted x with reqSecret := next x.reqSecret, reqCount := 0 } (setSession p (counted x) s)
      spdmRow 0xE9 p req d s = repliedIn p (nowAt t p (counted x)) r t)
    ∧ (fieldLE m 2 1 = 2 →
      let t := setSession p { counted x with reqSecret := next x.reqSecret, reqCount := 0, rspSecret := next x.rspSecret, rspCount := 0 }
        (setSession p (counted x) s)
      spdmRow 0xE9 p req d s = repliedIn p (nowAt t p (counted x)) r t)
    ∧ (fieldLE m 2 1 = 3 →
      spdmRow 0xE9 p req d s = repliedIn p (nowAt (setSession p (counted x) s) p (counted x)) r (setSession p (counted x) s)) := by
  intro next r
  have hanswer := answerRow_keyUpdate (p := p) (d := d) (s := setSession p (counted x) s) hv (y := counted x) hfinished
  unfold answerKeyUpdate at hanswer
  refine ⟨fun hop => ?_, fun hop => ?_, fun hop => ?_⟩
  · exact spdmRow_repliedIn h hopen hrow (by decide) (hanswer.trans (if_pos hop))
  · exact spdmRow_repliedIn h hopen hrow (by decide) (hanswer.trans ((if_neg (by omega)).trans (if_pos hop)))
  · exact spdmRow_repliedIn h hopen hrow (by decide) (hanswer.trans ((if_neg (by omega)).trans ((if_neg (by omega)).trans (if_pos hop))))

theorem spdmRow_endSession (hrow : rowOf p m = some 0xEC)
    (hrings : ∀ e ∈ s.rings.table, e.1 / 64 = mailboxSector p → e.2.state = .disabled) :
    spdmRow 0xEC p req d s = repliedIn p (counted x) (spdmHead 0x6C 0 0) (endSession (mailboxSector p) (setSession p (counted x) s)) := by
  rw [spdmRow_answersIn h hopen hrow ((answerRow_endSession hv (y := counted x) hfinished).trans
    (answerEndSession_ends (s := setSession p (counted x) s) hrings)), if_pos (by simp)]

theorem spdmRow_kemKey (hrow : rowOf p m = some 0x101) (hseed : x.kemSeed = none) :
    (∀ u, internalBytes 5 96 (setSession p (counted x) s) = (none, u) → spdmRow 0x101 p req d s = { s with rng := u.rng, regs := u.regs })
    ∧ ∀ draw u, internalBytes 5 96 (setSession p (counted x) s) = (some draw, u) →
      let ek := padTo 1184 (Config.mlkemKeys (draw.take 64)).1
      let sig := aliasMlSign u (ascii "TGSL kem" ++ x.th ++ ek) (draw.drop 64)
      let t := setSession p { counted x with kemSeed := some (draw.take 64) } u
      spdmRow 0x101 p req d s = repliedIn p (nowAt t p (counted x)) (vendorReply 0x1E5B (leBytes 1 1 ++ ek ++ sig)) t := by
  have hanswer := answerRow_kemKey (p := p) (d := d) (s := setSession p (counted x) s) hv (y := counted x) hfinished
  have hnot : ¬(counted x).kemSeed.isSome = true := by
    rw [show (counted x).kemSeed = none from hseed]
    exact Bool.false_ne_true
  unfold answerKemKey at hanswer
  rw [if_neg hnot] at hanswer
  refine ⟨fun u hdraw => ?_, fun draw u hdraw => ?_⟩
  · rw [hdraw] at hanswer
    exact spdmRow_waitsIn h hopen hrow hanswer
  · rw [hdraw] at hanswer
    exact spdmRow_repliedIn h hopen hrow (by decide) hanswer

/-- A vendor message that carries a command, answered with its completion. -/
theorem spdmRow_vendor (hrow : rowOf p m = some 0x103) (hkem : x.kemDone = true) {st r0 r1 : Nat} {t : State}
    (ha : answerVendorCommand p d ((vendorOf m).2.2.drop 1) (setSession p (counted x) s)
      = vendorDone (vendorCmd p ((vendorOf m).2.2.drop 1)) st r0 r1 [] t) :
    spdmRow 0x103 p req d s = completionIn p (counted x) (vendorCmd p ((vendorOf m).2.2.drop 1)) st r0 r1 t := by
  have hanswer := (answerRow_vendor (p := p) (d := d) (s := setSession p (counted x) s) hv (y := counted x) hfinished hkem).trans ha
  exact spdmRow_repliedIn h hopen hrow (by decide) hanswer

/-- It answers as the body of its command does. -/
theorem spdmRow_vendorAnswers (hrow : rowOf p m = some 0x103) (hkem : x.kemDone = true)
    (ha : (∀ e, vendorBody d (vendorCmd p ((vendorOf m).2.2.drop 1)) (setSession p (counted x) s) = .error e →
        answerVendorCommand p d ((vendorOf m).2.2.drop 1) (setSession p (counted x) s)
          = vendorDone (vendorCmd p ((vendorOf m).2.2.drop 1)) e.status e.r0 e.r1 [] (setSession p (counted x) s))
      ∧ (∀ st r0 r1 t, vendorBody d (vendorCmd p ((vendorOf m).2.2.drop 1)) (setSession p (counted x) s) = .ok (.done st r0 r1 t) →
        answerVendorCommand p d ((vendorOf m).2.2.drop 1) (setSession p (counted x) s)
          = vendorDone (vendorCmd p ((vendorOf m).2.2.drop 1)) st r0 r1 [] t)
      ∧ (∀ t, vendorBody d (vendorCmd p ((vendorOf m).2.2.drop 1)) (setSession p (counted x) s) = .ok (.running t)
          ∨ vendorBody d (vendorCmd p ((vendorOf m).2.2.drop 1)) (setSession p (counted x) s) = .ok (.later t) →
        answerVendorCommand p d ((vendorOf m).2.2.drop 1) (setSession p (counted x) s) = (none, t))) :
    VendorAnswers s p req m x d := by
  obtain ⟨herror, hdone, hwaits⟩ := ha
  exact ⟨fun e hb => spdmRow_vendor h hopen hv hfinished hrow hkem (herror e hb),
    fun st r0 r1 t hb => spdmRow_vendor h hopen hv hfinished hrow hkem (hdone st r0 r1 t hb),
    fun t hb => spdmRow_waitsIn h hopen hrow
      ((answerRow_vendor hv (y := counted x) hfinished hkem).trans (hwaits t hb))⟩

end

theorem spdmRow_ide (h : InSession s 0 req raw x) (hopen : openSecured x raw = some m) (hv : fieldLE m 0 1 = 0x13)
    (hfinished : x.finished = true) (hrow : rowOf 0 m = some 0x200) :
    let payload := (vendorOf m).2.2
    let stream := fieldLE payload 4 1 * 256 + fieldLE payload 6 1
    let answer := fun (o : Nat) => vendorReply 1 (leBytes 1 0 ++ leBytes 1 o ++ leBytes 2 0 ++ sliceBytes payload 4 4)
    let u := setSession 0 (counted x) s
    (fieldLE payload 1 1 = 2 →
      let t := { u with pci := { u.pci with ide := Table.put u.pci.ide stream (sliceBytes payload 8 40) } }
      spdmRow 0x200 0 req d s = repliedIn 0 (nowAt t 0 (counted x)) (answer 3) t)
    ∧ (fieldLE payload 1 1 = 5 →
      let t := { u with pci := { u.pci with ide := Table.drop u.pci.ide stream } }
      spdmRow 0x200 0 req d s = repliedIn 0 (nowAt t 0 (counted x)) (answer 6) t) := by
  intro payload stream answer u
  have hanswer := answerRow_ide (d := d) (s := u) hv (y := counted x) hfinished
  unfold answerIde at hanswer
  dsimp only at hanswer
  refine ⟨fun hobj => ?_, fun hobj => ?_⟩
  · have hset : fieldLE (vendorOf m).2.2 1 1 = 2 := hobj
    rw [if_neg (by omega), if_pos hset] at hanswer
    exact spdmRow_repliedIn h hopen hrow (by decide) hanswer
  · have hdrop : fieldLE (vendorOf m).2.2 1 1 = 5 := hobj
    rw [if_neg (by omega), if_neg (by omega), if_neg (by omega), if_pos hdrop] at hanswer
    exact spdmRow_repliedIn h hopen hrow (by decide) hanswer

/-! ### The statement -/

/-- Settles O58: a record that opens is counted, its row answers in the session, and the response is secured in it. -/
theorem spdmSession : Obligations.SpdmSession := by
  intro s p req raw x d hasked hsession hid hlen y s1 n
  have h : InSession s p req raw x := ⟨hasked, hsession, hid, hlen⟩
  cases hopen : openSecured x raw with
  | none =>
    have hrow (row : Nat) (d : HostRead) : (Host.Outcome.next (spdmRow row p req d s) : Out) = .next (placeResponse p (spdmError 0x06 0) s) :=
      congrArg _ (spdmRow_undecrypted h hopen row d)
    exact ⟨hrow .., hrow .., hrow .., hrow .., hrow .., hrow .., hrow .., hrow .., hrow .., hrow .., hrow ..⟩
  | some m =>
    intro hv body
    refine ⟨fun hrow hfinished => congrArg Host.Outcome.next (spdmRow_finish h hopen hv hrow hfinished),
      fun hfinished => ⟨fun hrow => ?_, fun hrow => ?_, fun hrow hrings => ?_,
      fun hrow hseed => ?_, fun seed hrow hseed hdone hbody => ?_, fun hrow hkem hlo hhi => ?_, fun hrow hp => ?_⟩⟩
    · exact congrArg Host.Outcome.next (spdmRow_repliedIn h hopen hrow (by decide) (answerRow_heartbeat hv (y := counted x) hfinished))
    · obtain ⟨hone, hboth, hnone⟩ := spdmRow_keyUpdate (d := .error) h hopen hv hfinished hrow
      exact ⟨fun hop => congrArg Host.Outcome.next (hone hop), fun hop => congrArg Host.Outcome.next (hboth hop),
        fun hop => congrArg Host.Outcome.next (hnone hop)⟩
    · exact congrArg Host.Outcome.next (spdmRow_endSession h hopen hv hfinished hrow hrings)
    · obtain ⟨hwaits, hdraws⟩ := spdmRow_kemKey (d := .error) h hopen hv hfinished hrow hseed
      refine congrArg Host.Outcome.next ?_
      cases hdraw : internalBytes 5 96 s1 with
      | mk draw s2 =>
        cases draw with
        | none => exact hwaits s2 hdraw
        | some draw => exact hdraws draw s2 hdraw
    · exact congrArg Host.Outcome.next (spdmRow_repliedIn h hopen hrow (by decide)
        ((answerRow_kemCipher hv (y := counted x) hfinished).trans (answerKemCipher_keys (y := counted x) hseed hdone hbody)))
    · intro len c done
      refine ⟨fun hop => ?_, fun hop hreport hlen1 hlen8 hfits hheader hstroke hlock hgate => ?_⟩
      · exact congrArg Host.Outcome.next (spdmRow_vendor h hopen hv hfinished hrow hkem
          (answerVendorCommand_foreign (p := p) (body := body) hlo hhi hop))
      · have hanswers : VendorAnswers s p req m x d := spdmRow_vendorAnswers h hopen hv hfinished hrow hkem
          (answerVendorCommand_runs (p := p) (body := body) (s := s1) hlo hhi hop hreport hlen1 hlen8 hfits hheader hstroke hlock hgate rfl)
        cases hb : vendorBody d c s1 with
        | error e => exact congrArg Host.Outcome.next (hanswers.error e hb)
        | ok b =>
          cases b with
          | done st r0 r1 s2 => exact congrArg Host.Outcome.next (hanswers.done st r0 r1 s2 hb)
          | running s2 => exact congrArg Host.Outcome.next (hanswers.waits s2 (.inl hb))
          | later s2 => exact congrArg Host.Outcome.next (hanswers.waits s2 (.inr hb))
    · subst hp
      obtain ⟨hset, hdrop⟩ := spdmRow_ide (d := .error) h hopen hv hfinished hrow
      exact ⟨fun hobj => congrArg Host.Outcome.next (hset hobj), fun hobj => congrArg Host.Outcome.next (hdrop hobj)⟩

end
end Sys2Proof.Machine

/-! # Chord transfers, folds and packets (O60) -/
namespace Sys2Proof.Machine

section
variable {s t u : State} {p : Packet} {link typ : Nat} {poison : List Nat}

/-! ### Routes -/

/-- A route depends on the registers and the links alone. -/
theorem routeLink_congr (hregs : t.regs = s.regs) (hlinks : t.chord.links = s.chord.links) (pkg stream : Nat) :
    routeLink t pkg stream = routeLink s pkg stream := by
  unfold routeLink routable linkOf rget
  rw [hregs, hlinks]

/-- A packet with a route goes to its link. -/
theorem sendPacket_routed {l : Nat} (h : routeLink s (bitsOf p.dest 46 6) p.stream = some l) :
    sendPacket p s = some (l, putPacket l p s) := by
  rw [sendPacket, h]
  rfl

/-! ### Rows of packets (11 R569) -/

/-- A packet for this package is acted on. -/
theorem packetRow_here {act : Packet → State → State} (h : takePacket link typ poison s = some (p, t)) (hpkg : bitsOf p.dest 46 6 = pkgNumber t) :
    packetRow link typ poison act s = act p t := by
  simp only [packetRow, h, hpkg, if_true]

/-- A packet for another package is forwarded. -/
theorem packetRow_elsewhere {act : Packet → State → State} (h : takePacket link typ poison s = some (p, t)) (hpkg : bitsOf p.dest 46 6 ≠ pkgNumber t) :
    packetRow link typ poison act s = forwardPacket p t := by
  simp only [packetRow, h, if_neg hpkg]

/-- A packet of a sector that the access list does not allow. -/
theorem memoryPacket_refused {right : Nat} {act : State → State} (hsys : p.srcSector ≠ 15) (hacl : aclAllows s p right p.decoded = false) :
    memoryPacket p right act s = refusePacket p 0x0201 (bump s .chdAclRefused) := by
  simp only [memoryPacket, if_neg hsys, hacl, Bool.not_false, if_true]

/-- A packet of a sector that is allowed and was not applied. -/
theorem memoryPacket_acts {right : Nat} {act : State → State} (hsys : p.srcSector ≠ 15) (hacl : aclAllows s p right p.decoded = true)
    (hnew : wasApplied p s = false) : memoryPacket p right act s = act s := by
  simp only [memoryPacket, if_neg hsys, hacl, hnew, Bool.not_true, Bool.false_eq_true, if_false]

/-! ### The end of a transfer (R587) -/

/-- A transfer with chunks open goes on. -/
theorem settleTransfer_open {k : Nat} {x : Transfer} (h : Table.find s.chord.transfers k = some x)
    (hopen : x.acked.length + x.refused.length < chunkCount x.bytes) : settleTransfer k s = s := by
  simp only [settleTransfer, h, if_pos hopen]

/-- A transfer with every chunk acknowledged ends with OK. -/
theorem settleTransfer_done {k : Nat} {x : Transfer} (h : Table.find s.chord.transfers k = some x)
    (hfull : chunkCount x.bytes ≤ x.acked.length) (hclean : x.refused = []) :
    settleTransfer k s = finish x.serial 0 x.acked.length x.sent (setChord { s.chord with transfers := Table.drop s.chord.transfers k } s) := by
  have hnone : (List.range (chunkCount x.bytes)).find? (fun c => x.refused.any (fun r => r.1 = c)) = none := by
    simp [hclean]
  simp only [settleTransfer, h]
  rw [if_neg (by omega), hnone]

/-- A transfer of one chunk that was refused ends with the status of the refusal. -/
theorem settleTransfer_refused {k st : Nat} {x : Transfer} (h : Table.find s.chord.transfers k = some x) (hone : chunkCount x.bytes = 1)
    (hrefused : x.refused = [(0, st)]) (hnone : x.acked = []) :
    settleTransfer k s = finish x.serial st 0 x.sent (setChord { s.chord with transfers := Table.drop s.chord.transfers k } s) := by
  simp [settleTransfer, h, hone, hrefused, hnone]

/-- One more chunk of a transfer acknowledged. -/
theorem settleTransfer_acked (s : State) {k c : Nat} {x : Transfer} (hclean : x.refused = []) :
    let u := setTransfer k { x with acked := x.acked ++ [c] } s
    settleTransfer k u = if x.acked.length + 1 < chunkCount x.bytes then u
      else finish x.serial 0 (x.acked.length + 1) x.sent { u with chord := { u.chord with transfers := Table.drop u.chord.transfers k } } := by
  intro u
  have hfind : Table.find u.chord.transfers k = some { x with acked := x.acked ++ [c] } := Table.find_put_same _ _ _
  split
  case isTrue hopen => exact settleTransfer_open hfind (by simpa [hclean] using hopen)
  case isFalse hfull =>
    rw [settleTransfer_done hfind (by simpa using hfull) hclean, List.length_append]
    rfl

/-! ### The rows of packets -/

/-- A packet with hops left leaves by its route; without, it is discarded and counted. -/
theorem forwardPacket_eq (p : Packet) (s : State) : forwardPacket p s
    = if p.hops = 0 then writeRecord { source := 0, severity := 0, addr := p.dest } (bump s .chdHopDrops)
      else match routeLink s (bitsOf p.dest 46 6) p.stream with
        | some c => putPacket c { p with hops := p.hops - 1 } s
        | none => s := by
  unfold forwardPacket sendPacket
  split
  · rfl
  · cases routeLink s (bitsOf p.dest 46 6) p.stream <;> rfl

/-- The reply to a packet that was acted on with a status. -/
theorem settlePacket_eq (p : Packet) (w : Nat × State) :
    settlePacket p w = if w.1 = 0 then ackPacket p (noteApplied p w.2) else refusePacket p w.1 w.2 := rfl

/-- WRITE of a chunk that is new and allowed. -/
theorem writePacket_writes {bs : List Byte} (hsys : p.srcSector ≠ 15) (hacl : aclAllows s p 1 p.decoded = true) (hnew : wasApplied p s = false)
    (hbs : decodedOf p = some bs) :
    writePacket p s = settlePacket p (trustedWrite (p.dest % 2 ^ 46) bs s) := by
  unfold writePacket
  rw [memoryPacket_acts hsys hacl hnew]
  simp only [hbs]

/-- ACCUM of a chunk that is new and allowed. -/
theorem accumPacket_adds {bs : List Byte} {faults : List LineFault} (hsys : p.srcSector ≠ 15) (hacl : aclAllows s p 3 p.decoded = true)
    (hnew : wasApplied p s = false) (htype : p.etype ≤ 4) (hbs : decodedOf p = some bs) :
    accumPacket faults p s = settlePacket p (accumLines p.etype faults (bs.length / 64 + 1) (p.dest % 2 ^ 46) bs s) := by
  unfold accumPacket
  rw [memoryPacket_acts hsys hacl hnew]
  simp only [hbs]
  rw [if_neg (by omega)]

/-- READ_REQ of a range that reads. -/
theorem readPacket_answers {bs : List Byte} {faults : List LineFault} (hsys : p.srcSector ≠ 15) (hacl : aclAllows s p 2 p.decoded = true)
    (hnew : wasApplied p s = false) (hread : faultyRead faults (p.dest % 2 ^ 46) p.decoded s = (.ok bs, t)) :
    readPacket faults p s = answerPacket p 3 0 bs t := by
  unfold readPacket
  rw [memoryPacket_acts hsys hacl hnew]
  simp only [hread]

section
variable {x : Transfer}

/-- The data of a chunk of a READ transfer. -/
theorem readRespPacket_counts (hfind : Table.find s.chord.transfers p.stream = some x) (hsrc : p.srcPkg = bitsOf x.remote 46 6)
    (hopen : p.chunk ∈ x.open) (hop : x.op = 1) (hlen : p.payload.length = chunkLen x.bytes p.chunk)
    (hwrite : trustedWrite (x.localAddr + p.chunk * 65536) p.payload s = (0, t)) :
    readRespPacket p s = settleTransfer p.stream (setTransfer p.stream { x with acked := x.acked ++ [p.chunk] } t) := by
  simp only [readRespPacket, hfind, hop, ← hsrc, hlen, hwrite, List.contains_iff_mem.mpr hopen, ne_eq, not_true, decide_false, Bool.not_true,
    Bool.or_self, Bool.false_eq_true, if_false]

/-- ACK of a transfer's chunk. -/
theorem ackArrives_counts (hsys : p.srcSector ≠ 15) (hfold : foldAnswered p s = none) (hfind : Table.find s.chord.transfers p.stream = some x)
    (hsrc : p.srcPkg = bitsOf x.remote 46 6) (hopen : p.chunk ∈ x.open) (hop : x.op ≠ 1) :
    ackArrives p s = settleTransfer p.stream (setTransfer p.stream { x with acked := x.acked ++ [p.chunk] } s) := by
  simp only [ackArrives, if_neg hsys, hfold, hfind, hop, ← hsrc, List.contains_iff_mem.mpr hopen, ne_eq, not_true, decide_false, Bool.not_true,
    Bool.or_self, Bool.false_eq_true, if_false]

/-- REFUSE of a transfer's chunk. -/
theorem refuseArrives_notes (hsys : p.srcSector ≠ 15) (hfold : foldAnswered p s = none) (hfind : Table.find s.chord.transfers p.stream = some x)
    (hsrc : p.srcPkg = bitsOf x.remote 46 6) (hopen : p.chunk ∈ x.open) :
    refuseArrives p s = settleTransfer p.stream (setTransfer p.stream { x with refused := x.refused ++ [(p.chunk, p.status)] } s) := by
  simp only [refuseArrives, if_neg hsys, hfold, hfind, ← hsrc, List.contains_iff_mem.mpr hopen, ne_eq, not_true, decide_false, Bool.not_true,
    Bool.or_self, Bool.false_eq_true, if_false]

/-- REFUSE of the one chunk of a transfer ends it. -/
theorem refuseArrives_ends (hsys : p.srcSector ≠ 15) (hfold : foldAnswered p s = none) (hfind : Table.find s.chord.transfers p.stream = some x)
    (hsrc : p.srcPkg = bitsOf x.remote 46 6) (hopen : p.chunk ∈ x.open) (hclean : x.refused = []) (hone : chunkCount x.bytes = 1)
    (hnone : x.acked = []) :
    let u := setTransfer p.stream { x with refused := [(p.chunk, p.status)] } s
    refuseArrives p s
      = finish x.serial p.status 0 x.sent { u with chord := { u.chord with transfers := Table.drop u.chord.transfers p.stream } } := by
  have hzero : p.chunk = 0 := by
    have hlt := List.mem_range.mp (List.mem_filter.mp hopen).1
    omega
  intro u
  rw [refuseArrives_notes hsys hfold hfind hsrc hopen, hclean, List.nil_append]
  refine settleTransfer_refused (x := { x with refused := [(p.chunk, p.status)] }) (Table.find_put_same _ _ _) hone ?_ hnone
  rw [hzero]

end

/-- FOLD at the TAIL: the sum of the chunk is written (R589). -/
theorem foldChunk_tail {k : Nat} {f : Fold} {faults : List LineFault} {bs own : List Byte} (hnew : wasApplied p s = false)
    (hfind : s.chord.folds.find? (fun e => e.2.stream = p.stream) = some (k, f)) (hrole : f.role = 2) (hprev : f.prev = p.srcPkg)
    (hsrc : p.srcSector < 8) (hwin : windowGrants s f.sector 4 p.srcPkg p.srcSector f.localAddr f.bytes = true)
    (hchunk : p.chunk < chunkCount f.bytes) (hlen : p.decoded = chunkLen f.bytes p.chunk) (htype : p.etype = f.etype) (hpoison : p.poison = [])
    (hbs : decodedOf p = some bs) (hown : ownLines faults (p.decoded / 64) 0 (f.localAddr + p.chunk * 65536) s = ((own, [], 0), t)) :
    foldChunk faults p s = settleFold k (writeSum [] (p.decoded / 64) 0 (f.dest + p.chunk * 65536)
      (blankLines [] (p.decoded / 64) 0 (sumBytes f.etype bs own))
      (ackPacket p (noteApplied p (setFold k { f with written := insertNat p.chunk f.written } t)))) := by
  have hguard : (decide (f.role = 0) || decide (f.prev ≠ p.srcPkg) || decide (8 ≤ p.srcSector)
      || !windowGrants s f.sector 4 p.srcPkg p.srcSector f.localAddr f.bytes) = false := by
    simp [hrole, hprev, hwin, hsrc]
  have hfits : (decide (p.chunk < chunkCount f.bytes) && decide (p.decoded = chunkLen f.bytes p.chunk) && decide (p.etype = f.etype)) = true := by
    simp [hchunk, hlen, htype]
  have hfailed : (if f.failed ≠ 0 then f.failed else 0) = f.failed := by
    split
    · rfl
    · omega
  have hmarks : (List.range (p.decoded / 64)).filter (fun i => p.poison.contains i || ([] : List Nat).contains i) = [] := by
    simp [hpoison]
  unfold foldChunk
  simp only [hnew, hfind, hguard, hfits, hbs, Bool.false_eq_true, if_false, if_true]
  simp only [← hlen, hown, hmarks, hrole, hfailed, List.length_nil, Nat.add_zero]
  rfl

/-! ### CHORD_XFER and CHORD_FOLD (R583, R588) -/

/-- The number of a new transfer is the next one where it is free. -/
theorem foldl_skip_free {k n : Nat} {l : Table Transfer} (h : Table.find l k = none) :
    (List.range n).foldl (fun k _ => if (Table.find l k).isSome then (k + 1) % 2 ^ 32 else k) k = k := by
  induction n with
  | zero => rfl
  | succ n ih =>
    rw [List.range_succ, List.foldl_append, ih]
    simp [h]

/-- CHORD_XFER with its fields in range begins a transfer. -/
theorem chordXferBody_runs {c : Cmd} {n a bytes et r op k l : Nat} (hn : n = c.ring / 64) (ha : c.param 24 8 = a) (hb : c.param 40 8 = bytes)
    (het : c.param 49 1 = et) (hal : a % 64 = 0) (hlo : 64 ≤ bytes) (hhi : bytes ≤ 65536) (hmul : bytes % 64 = 0) (hfl : c.param 50 1 = 0)
    (hown : ownsFree s n a bytes = true) (hres : c.reserved [(51, 64)] = true) (hr : c.param 32 8 = r) (hral : r % 64 = 0) (hrlt : r < 2 ^ 52)
    (hpkg : bitsOf r 46 6 ≠ pkgNumber s) (hop : c.param 48 1 = op) (hople : op ≤ 2) (hetle : et ≤ 7) (haccum : op = 2 → et ≤ 4)
    (hk : k = (s.chord.lastStream + 1) % 2 ^ 32) (hfree : Table.find s.chord.transfers k = none)
    (hroute : routeLink s (bitsOf r 46 6) k = some l) :
    chordXferBody c s = .ok (.running (setTransfer k
      { serial := c.serial, sector := n, op := op, etype := et, compress := false, localAddr := a, remote := r, bytes := bytes }
      { s with chord := { s.chord with lastStream := k } })) := by
  subst hn ha hb het hr hop
  have hsize : c.param 40 8 ≤ 2 ^ 36 := by omega
  have htype : (decide (c.param 48 1 ≠ 2) || decide (c.param 49 1 ≤ 4)) = true := by
    by_cases h : c.param 48 1 = 2
    · simp [haccum h]
    · simp [h]
  unfold chordXferBody
  simp only [← hk, foldl_skip_free hfree]
  rw [need_bind_of (by simp only [hres, hal, hlo, hmul, hfl, hown, hral, hrlt, hople, hetle, hsize, htype]; simpa using hpkg),
    need_bind_of (by rw [hroute]; rfl)]
  simp [hfl]
  rfl

/-- The packet of the first chunk of transfer `x` that is also its last. -/
def firstChunk (s : State) (k : Nat) (x : Transfer) (bs : List Byte) : Packet :=
  { typ := if x.op = 0 then 1 else if x.op = 1 then 2 else 4, flags := 2, srcPkg := pkgNumber s, srcSector := x.sector,
    etype := x.etype, dest := x.remote, stream := k, chunk := 0, decoded := x.bytes, payload := bs }

/-- The first chunk of a new transfer goes out, and the transfer waits for its answer. -/
theorem sendOpen_first {x : Transfer} {k l : Nat} {bs : List Byte} (hfind : Table.find s.chord.transfers k = some x)
    (hlo : 0 < x.bytes) (hhi : x.bytes ≤ 65536) (hplain : x.compress = false) (hacked : x.acked = []) (hrefused : x.refused = [])
    (hsent : x.sent = 0) (hdata : (if x.op = 1 then (.ok [], s) else trustedRead x.localAddr x.bytes s) = (.ok bs, t))
    (hroute : routeLink t (bitsOf x.remote 46 6) k = some l) :
    sendOpen k s = setTransfer k { x with sent := bs.length, link := l }
      (putPacket l (firstChunk s k x bs) t) := by
  have hcount : chunkCount x.bytes = 1 := by
    unfold chunkCount ceilDiv chunkSize
    omega
  have hlen : chunkLen x.bytes 0 = x.bytes := by
    unfold chunkLen chunkSize
    omega
  have hopen : x.open = [0] := by simp [Transfer.open, hcount, hacked, hrefused]
  have hsend : sendChunk k 0 s = setTransfer k { x with sent := bs.length, link := l }
      (putPacket l (firstChunk s k x bs) t) := by
    have hgo : sendPacket (firstChunk s k x bs) t = some (l, putPacket l (firstChunk s k x bs) t) := sendPacket_routed hroute
    unfold firstChunk at hgo ⊢
    have hflags : chunkFlags false x.bytes 0 = 2 := by simp [chunkFlags, hcount, bitNat]
    simp only [sendChunk, hfind, hlen, Nat.zero_mul, Nat.add_zero, hdata, hplain, Bool.false_eq_true, if_false, hflags, hgo, hsent, Nat.zero_add]
  unfold sendOpen
  simp only [hfind, hopen, List.foldl_cons, List.foldl_nil, hsend]
  exact settleTransfer_open (Table.find_put_same _ _ _) (by simp [hacked, hrefused, hcount])

/-- CHORD_FOLD of a TAIL or of a member in the middle, with its fields in range, takes a slot. -/
theorem chordFoldBody_runs {c : Cmd} {n a bytes et stream k role : Nat} (hn : n = c.ring / 64) (ha : c.param 24 8 = a)
    (hb : c.param 40 8 = bytes) (het : c.param 49 1 = et) (hal : a % 64 = 0) (hlo : 64 ≤ bytes) (hhi : bytes ≤ 65536) (hmul : bytes % 64 = 0)
    (hfl : c.param 50 1 = 0) (hown : ownsFree s n a bytes = true) (hres : c.reserved [(57, 64)] = true) (hetle : et ≤ 4)
    (hstream : c.param 52 4 = stream) (hrole : c.param 48 1 = role)
    (hplace : role = 2 ∧ c.param 32 8 % 64 = 0 ∧ ownsFree s n (c.param 32 8) bytes = true ∧ c.param 51 1 = 0
      ∨ role = 1 ∧ c.param 32 8 = 0 ∧ c.param 51 1 < 64 ∧ c.param 51 1 ≠ pkgNumber s ∧ (routeLink s (c.param 51 1) stream).isSome = true)
    (hprev : c.param 56 1 < 64) (hself : c.param 56 1 ≠ pkgNumber s) (hnew : ∀ e ∈ s.chord.folds, e.2.stream ≠ stream)
    (hfree : Table.firstFree s.chord.folds 0 64 = some k) :
    chordFoldBody c s = .ok (.running (setFold k
      { serial := c.serial, sector := n, role := role, stream := stream, etype := et, compress := false, localAddr := a,
        dest := c.param 32 8, bytes := bytes, next := c.param 51 1, prev := c.param 56 1 } s)) := by
  subst hn ha hb het hrole hstream
  have hle : c.param 48 1 ≤ 2 := by omega
  have hnz : c.param 48 1 ≠ 0 := by omega
  have hsize : c.param 40 8 ≤ 2 ^ 36 := by omega
  have hfold : s.chord.folds.any (fun e => decide (e.2.stream = c.param 52 4)) = false := by
    rw [List.any_eq_false]
    intro e he
    simpa using hnew e he
  have hend : (if c.param 48 1 = 2 then decide (c.param 32 8 % 64 = 0) && ownsFree s (c.ring / 64) (c.param 32 8) (c.param 40 8)
        && decide (c.param 51 1 = 0)
      else decide (c.param 32 8 = 0) && decide (c.param 51 1 < 64) && decide (c.param 51 1 ≠ pkgNumber s)) = true := by
    obtain ⟨htail, hdest, howns, hnext⟩ | ⟨hmid, hdest, hlt, hne, -⟩ := hplace
    · simp [htail, hdest, howns, hnext]
    · simp [hmid, hdest, hlt, hne]
  have hroute : (decide (c.param 48 1 = 2) || (routeLink s (c.param 51 1) (c.param 52 4)).isSome) = true := by
    obtain ⟨htail, -⟩ | ⟨-, -, -, -, hsome⟩ := hplace
    · simp [htail]
    · simp [hsome]
  unfold chordFoldBody
  simp only [hfree]
  rw [need_bind_of (by simp only [hres, hal, hlo, hmul, hfl, hown, hetle, hle, hsize]; simp), need_bind_of hend,
    need_bind_of (by simp [hnz, hprev, hself]), need_bind_of (by rw [hfold]; rfl), need_bind_of hroute]
  simp [hfl]

/-- A fold of another role than HEAD sends nothing when it begins. -/
theorem foldHead_waits {k : Nat} {f : Fold} (hfind : Table.find s.chord.folds k = some f) (hrole : f.role ≠ 0) : foldHead k s = s := by
  simp only [foldHead, hfind, ne_eq, hrole, not_false_eq_true, if_true]

/-- A key of a table is found. -/
theorem Table.find_ne_none_of_mem {α : Type} {l : Table α} {e : Nat × α} (h : e ∈ l) : Table.find l e.1 ≠ none := by
  induction l with
  | nil => simp at h
  | cons x l ih =>
    unfold Table.find
    split
    · simp
    · rename_i hne
      obtain rfl | hmem := List.mem_cons.mp h
      · exact absurd rfl hne
      · exact ih hmem

/-- Of the slots of `put`, only the one written was free before. -/
theorem filter_put_new {α : Type} {l : Table α} {k : Nat} {a : α} {e : Nat × α}
    (h : e ∈ (Table.put l k a).filter (fun e => (Table.find l e.1).isNone)) : e = (k, a) := by
  obtain ⟨hmem, hfree⟩ := List.mem_filter.mp h
  obtain rfl | hold := Table.mem_put l k a e hmem
  · rfl
  · exact absurd (Option.isNone_iff_eq_none.mp hfree) (Table.find_ne_none_of_mem hold)

end

/-! ### The statements of O60 -/

section
variable {s t s1 : State} {p : Packet} {link typ : Nat} {poison : List Nat} {faults : List LineFault}

/-- CHORD_XFER of one chunk. -/
theorem chordXfer_sends {ring n a bytes et r op k l : Nat} {c : Cmd} (hn : n = c.ring / 64) (ha : c.param 24 8 = a) (hb : c.param 40 8 = bytes)
    (het : c.param 49 1 = et) (hal : a % 64 = 0) (hlo : 64 ≤ bytes) (hhi : bytes ≤ 65536) (hmul : bytes % 64 = 0) (hfl : c.param 50 1 = 0)
    (hown : ownsFree s n a bytes = true) (hbegins : Begins s ring 0x0913 c) (hres : c.reserved [(51, 64)] = true) (hr : c.param 32 8 = r)
    (hral : r % 64 = 0) (hrlt : r < 2 ^ 52) (hpkg : bitsOf r 46 6 ≠ pkgNumber s) (hop : c.param 48 1 = op) (hople : op ≤ 2) (hetle : et ≤ 7)
    (haccum : op = 2 → et ≤ 4) (hk : k = (s.chord.lastStream + 1) % 2 ^ 32) (hfree : Table.find s.chord.transfers k = none) :
    let x : Transfer := { serial := c.serial, sector := n, op := op, etype := et, compress := false, localAddr := a, remote := r, bytes := bytes }
    let s1 := setPhase c.serial .running (setTransfer k x { s with chord := { s.chord with lastStream := k } })
    routeLink s (bitsOf r 46 6) k = some l → ∀ bs s2, (if op = 1 then (.ok [], s1) else trustedRead a bytes s1) = (.ok bs, s2) →
      s2.chord = s1.chord → s2.regs = s1.regs →
      execChordXfer ring s = .next (setTransfer k { x with sent := bs.length, link := l } (putPacket l (firstChunk s k x bs) s2)) := by
  intro x s1 hroute bs s2 hdata hchord hregs
  have hbegun : beginCommand 0x0913 ring chordXferBody s = s1 :=
    beginCommand_runs hbegins (chordXferBody_runs hn ha hb het hal hlo hhi hmul hfl hown hres hr hral hrlt hpkg hop hople hetle haccum hk hfree hroute)
  have hlast : s1.chord.lastStream = k := rfl
  have hfind : Table.find s1.chord.transfers k = some x := Table.find_put_same _ _ _
  have hmoved : k ≠ s.chord.lastStream := by omega
  have hroute2 : routeLink s2 (bitsOf x.remote 46 6) k = some l := by
    rw [← hroute]
    exact routeLink_congr hregs (by rw [hchord]) _ _
  unfold execChordXfer
  simp only [hbegun, hlast, if_neg hmoved]
  rw [sendOpen_first hfind (show 0 < bytes by omega) hhi rfl rfl rfl rfl hdata hroute2]
  rfl

/-- CHORD_FOLD of a TAIL or of a member in the middle. -/
theorem chordFold_waits {ring k : Nat} {c : Cmd} {f : Fold} (hbegins : Begins s ring 0x0914 c)
    (hbody : chordFoldBody c s = .ok (.running (setFold k f s))) (hrole : f.role ≠ 0) :
    execChordFold ring s = .next (setPhase c.serial .running (setFold k f s)) := by
  unfold execChordFold
  simp only [beginCommand_runs hbegins hbody]
  refine congrArg Host.Outcome.next (List.foldlRecOn (motive := fun t => t = setPhase c.serial .running (setFold k f s)) _ _ rfl ?_)
  intro t ht e he
  rw [filter_put_new he, ht]
  exact foldHead_waits (Table.find_put_same _ _ _) hrole

/-- ACCUM of a sector, in its row. -/
theorem accum_sector (h : takePacket link 4 [] s = some (p, s1)) (hpkg : bitsOf p.dest 46 6 = pkgNumber s1) (hsys : p.srcSector ≠ 15) :
    exec (.accum link faults) s = .next (heatRow s (accumPacket faults p s1)) := by
  refine congrArg (fun t => Host.Outcome.next (heatRow s t)) ?_
  rw [packetRow_here h hpkg, if_neg hsys]

/-- Settles O60: what each command, packet and expiry row makes of transfers and folds. -/
theorem chordTransfers : Obligations.ChordTransfers := by
  unfold Obligations.ChordTransfers
  refine ⟨?_, ?_, ?_, ?_⟩
  · intro s ring c n a bytes et hn ha hb het hal hlo hhi hmul hfl hown
    constructor
    · intro r op k l hbegins hres hr hral hrlt hpkg hop hople hetle haccum hk hfree
      exact chordXfer_sends hn ha hb het hal hlo hhi hmul hfl hown hbegins hres hr hral hrlt hpkg hop hople hetle haccum hk hfree
    · intro stream k role hbegins hres hetle hstream hrole hplace hprev hself hnew hfree
      refine chordFold_waits hbegins (chordFoldBody_runs hn ha hb het hal hlo hhi hmul hfl hown hres hetle hstream hrole hplace hprev hself hnew hfree) ?_
      show role ≠ 0
      omega
  · intro s s1 link typ poison faults p htake
    refine ⟨fun hpkg => ?_, fun hpkg hpoison => ⟨fun hsys => ?_, ?_, ?_⟩⟩
    · have hforward (act : Packet → State → State) := (packetRow_elsewhere (act := act) htake hpkg).trans (forwardPacket_eq p s1)
      intro t
      refine ⟨?_, ?_, ?_, ?_, ?_, ?_, ?_⟩
      · rintro rfl rfl
        exact congrArg Host.Outcome.next (hforward _)
      · rintro rfl rfl
        exact congrArg Host.Outcome.next (hforward _)
      · rintro rfl rfl
        exact congrArg Host.Outcome.next (hforward _)
      · rintro rfl rfl
        exact congrArg (fun t => Host.Outcome.next (heatRow s t)) (hforward _)
      · rintro rfl
        exact congrArg Host.Outcome.next (hforward _)
      · rintro rfl rfl
        exact congrArg Host.Outcome.next (hforward _)
      · rintro rfl rfl
        exact congrArg Host.Outcome.next (hforward _)
    · subst hpoison
      refine ⟨?_, ?_, ?_, ?_⟩
      · rintro rfl hacl
        exact congrArg Host.Outcome.next ((packetRow_here htake hpkg).trans (memoryPacket_refused hsys hacl))
      · rintro rfl hacl hnew bs hbs
        exact congrArg Host.Outcome.next ((packetRow_here htake hpkg).trans (writePacket_writes hsys hacl hnew hbs))
      · rintro rfl hacl hnew htype bs hbs
        exact (accum_sector htake hpkg hsys).trans
          (congrArg (fun t => Host.Outcome.next (heatRow s t)) (accumPacket_adds hsys hacl hnew htype hbs))
      · rintro rfl hacl hnew bs s2 hread
        exact congrArg Host.Outcome.next ((packetRow_here htake hpkg).trans (readPacket_answers hsys hacl hnew hread))
    · subst hpoison
      intro x hfind hsrc hopen
      refine ⟨?_, fun hsys hfold hclean => ⟨?_, ?_⟩⟩
      · rintro rfl hop hlen hwrite s2 hclean
        exact congrArg Host.Outcome.next ((packetRow_here htake hpkg).trans
          ((readRespPacket_counts hfind hsrc hopen hop hlen (Prod.ext hwrite rfl)).trans (settleTransfer_acked _ hclean)))
      · rintro rfl hop
        exact congrArg Host.Outcome.next ((packetRow_here htake hpkg).trans
          ((ackArrives_counts hsys hfold hfind hsrc hopen hop).trans (settleTransfer_acked _ hclean)))
      · rintro rfl hone hnone
        exact congrArg Host.Outcome.next ((packetRow_here htake hpkg).trans
          (refuseArrives_ends hsys hfold hfind hsrc hopen hclean hone hnone))
    · subst hpoison
      rintro k f rfl hnew hfind hrole hprev hsrc hwin hchunk hlen htype hpoison bs own s2 hbs hown
      exact congrArg Host.Outcome.next ((packetRow_here htake hpkg).trans
        (foldChunk_tail hnew hfind hrole hprev hsrc hwin hchunk hlen htype hpoison hbs hown))
  · intro s k f hfind
    refine ⟨fun hbusy => ?_, fun c l p hbusy hwait hchunk hroute => ?_, fun hwaits => ?_⟩
    · refine (show exec (.foldRetry k) s = execFoldRetry k s from rfl).trans ?_
      simp only [execFoldRetry, hfind, hbusy, List.foldl_nil]
    · refine (show exec (.foldRetry k) s = execFoldRetry k s from rfl).trans ?_
      simp only [execFoldRetry, hfind, hbusy, List.foldl_cons, List.foldl_nil, hwait, foldSend, sendPacket_routed hroute, hchunk]
      simp
    · refine (show exec (.foldWaitExpiry k) s = execFoldWaitExpiry k s from rfl).trans ?_
      simp only [execFoldWaitExpiry, hfind]
      rw [if_pos (by simpa using hwaits)]
      rfl
  · intro s pkg stream fold
    cases fold <;> rfl

end

end Sys2Proof.Machine

/-! # Chord links: commands, states and flits (O59) -/
namespace Sys2Proof.Machine

/-! ### What records leave -/

/-- `t` is `s` with records written: registers, wake queues, the ERR block and the pins may differ. -/
def Logged (s t : State) : Prop := ∃ regs wake err pins, t = { s with regs := regs, wake := wake, err := err, pins := pins }

/-- `t` is `s` with link `k` replaced by `l`, and records written. -/
def Linked (k : Nat) (l : Link) (s t : State) : Prop := Logged (setLink k l s) t

section
variable {s t u : State} {k : Nat} {l m : Link}

theorem Logged.refl (s : State) : Logged s s := ⟨_, _, _, _, rfl⟩

theorem Logged.trans (h : Logged s t) (h' : Logged t u) : Logged s u := by
  obtain ⟨_, _, _, _, rfl⟩ := h
  obtain ⟨_, _, _, _, rfl⟩ := h'
  exact ⟨_, _, _, _, rfl⟩

theorem Logged.chord (h : Logged s t) : t.chord = s.chord := by
  obtain ⟨_, _, _, _, rfl⟩ := h
  rfl

theorem Logged.link (h : Logged s t) (j : Nat) : linkOf t j = linkOf s j := by
  rw [linkOf, linkOf, h.chord]

theorem Logged.mem (h : Logged s t) : t.mem = s.mem := by
  obtain ⟨_, _, _, _, rfl⟩ := h
  rfl

theorem Logged.sct (h : Logged s t) : t.sct = s.sct := by
  obtain ⟨_, _, _, _, rfl⟩ := h
  rfl

theorem Logged.top (h : Logged s t) : t.top = s.top := by
  obtain ⟨_, _, _, _, rfl⟩ := h
  rfl

theorem Logged.rst (h : Logged s t) : t.rst = s.rst := by
  obtain ⟨_, _, _, _, rfl⟩ := h
  rfl

theorem Logged.sealing (h : Logged s t) : t.sealing = s.sealing := by
  obtain ⟨_, _, _, _, rfl⟩ := h
  rfl

theorem Logged.rings (h : Logged s t) : t.rings = s.rings := by
  obtain ⟨_, _, _, _, rfl⟩ := h
  rfl

/-- Raising a counter is like a record. -/
theorem logged_bumpField (r : Reg) (i lo w n : Nat) (s : State) : Logged s (bumpField s r i lo w n) := ⟨_, _, _, _, rfl⟩

theorem logged_logRecord (queue typ : Nat) (body : List Byte) (s : State) : Logged s (logRecord queue typ body s) := by
  obtain ⟨regs, wake, h⟩ := logRecord_eq queue typ body s
  exact ⟨regs, wake, s.err, s.pins, h⟩

theorem logged_writeRecord (r : Rec) (s : State) : Logged s (writeRecord r s) := by
  obtain ⟨regs, wake, err, pins, h⟩ := writeRecord_eq r s
  exact ⟨regs, wake, err, pins, h⟩

theorem logged_firePoint (point target : Nat) (s : State) : Logged s (firePoint point target s).2.2 := by
  obtain ⟨regs, slots, h⟩ := firePoint_eq point target s
  exact ⟨regs, s.wake, _, s.pins, h⟩

/-! ### A link replaced -/

/-- A second update of a link replaces the first. -/
theorem setLink_setLink (k : Nat) (l m : Link) (s : State) : setLink k m (setLink k l s) = setLink k m s := by
  unfold setLink setChord
  dsimp only
  rw [Table.put_put]

theorem Linked.link (h : Linked k l s t) : linkOf t k = l := (Logged.link h k).trans (linkOf_setLink_same s k l)

theorem Linked.others (h : Linked k l s t) (j : Nat) (hj : j ≠ k) : linkOf t j = linkOf s j :=
  (Logged.link h j).trans (linkOf_setLink_ne s l hj)

theorem Linked.logged (h : Linked k l s t) (h' : Logged t u) : Linked k l s u := Logged.trans h h'

theorem Logged.linked (h : Logged s t) (k : Nat) (l : Link) : Linked k l s (setLink k l t) := by
  obtain ⟨_, _, _, _, rfl⟩ := h
  exact ⟨_, _, _, _, rfl⟩

theorem Linked.setLink (h : Linked k l s t) (m : Link) : Linked k m s (setLink k m t) := by
  have hset : Linked k m (Machine.setLink k l s) (Machine.setLink k m t) := Logged.linked h k m
  unfold Linked at hset ⊢
  rwa [setLink_setLink] at hset

theorem Linked.trans (h : Linked k l s t) (h' : Linked k m t u) : Linked k m s u := (h.setLink m).logged h'

theorem Logged.trans_linked (h : Logged s t) (h' : Linked k l t u) : Linked k l s u := (h.linked k l).logged h'

theorem Linked.mem (h : Linked k l s t) : t.mem = s.mem := Logged.mem (s := Machine.setLink k l s) h
theorem Linked.sct (h : Linked k l s t) : t.sct = s.sct := Logged.sct (s := Machine.setLink k l s) h
theorem Linked.top (h : Linked k l s t) : t.top = s.top := Logged.top (s := Machine.setLink k l s) h
theorem Linked.rst (h : Linked k l s t) : t.rst = s.rst := Logged.rst (s := Machine.setLink k l s) h
theorem Linked.sealing (h : Linked k l s t) : t.sealing = s.sealing := Logged.sealing (s := Machine.setLink k l s) h
theorem Linked.rings (h : Linked k l s t) : t.rings = s.rings := Logged.rings (s := Machine.setLink k l s) h

/-- What waits to be sent is not part of the links. -/
theorem Linked.chord (h : Linked k l s t) : t.chord = { s.chord with links := Table.put s.chord.links k l } := Logged.chord (s := Machine.setLink k l s) h

/-! ### Link states (11 R561-R566) -/

/-- A link that enters a state. -/
theorem enterLink_linked (k : Nat) (st : LinkState) (s : State) : Linked k { linkOf s k with state := st } s (enterLink k st s) :=
  logged_logRecord ..

/-- The link that is left when link `l` goes DOWN. -/
def downLink (l : Link) (cause : Nat) : Link :=
  { state := .down, cause := cause, pairMode := l.pairMode, retired := l.retired, spareUsed := l.spareUsed,
    peerPkg := l.peerPkg, peerLink := l.peerLink, peerSerial := l.peerSerial, peerEpoch := l.peerEpoch,
    epoch := (l.epoch + 1) % 2 ^ 32, rx := [] }

/-- A link without BIST goes DOWN. -/
theorem linkDown_linked {cause : Nat} {injected : Bool} (hstate : (linkOf s k).state ≠ .down) (hbist : (linkOf s k).bist = none) :
    Linked k (downLink (linkOf s k) cause) s (linkDown k cause injected s) := by
  unfold linkDown
  simp only [if_neg hstate, hbist]
  have hcause := (Logged.refl s).linked k { linkOf s k with cause := cause, bist := none }
  generalize setLink k { linkOf s k with cause := cause, bist := none } s = s1 at hcause ⊢
  have hentered := hcause.trans (enterLink_linked k .down s1)
  generalize enterLink k .down s1 = s2 at hentered ⊢
  have hcounted := hentered.logged (logged_bumpField .chdLinkCounts k 48 16 1 s2)
  generalize bumpField s2 .chdLinkCounts k 48 16 1 = s3 at hcounted ⊢
  exact (hcounted.logged (logged_writeRecord _ s3)).setLink (downLink (linkOf s k) cause)

/-- A link in UP that enters RETRAIN. -/
theorem linkRetrain_linked (hup : (linkOf s k).state = .up) :
    Linked k { linkOf s k with state := .retrain, trained := false, naks := 0 } s (linkRetrain k s) := by
  have hentered : Linked k { linkOf s k with state := .retrain } s (bumpField (enterLink k .retrain s) .chdLinkCounts k 32 16 1) :=
    (enterLink_linked k .retrain s).logged (logged_bumpField ..)
  unfold linkRetrain
  rw [if_neg (by simp [hup])]
  dsimp only
  rw [hentered.link]
  exact hentered.setLink _

/-! ### Chunks of a link that went DOWN -/

/-- Without transfers, folds and tree chunks there is nothing to send again. -/
theorem resendOver_idle (htransfers : s.chord.transfers = []) (hfolds : s.chord.folds = []) (htree : s.chord.tree = []) :
    resendOver s = s := by
  unfold resendOver
  simp only [htransfers, List.filter_nil, List.foldl_nil, hfolds, htree]

/-- An event after which the link is not DOWN. -/
theorem linkEvent_alive (h : (linkOf t k).state ≠ .down) : linkEvent k s t = t := by
  unfold linkEvent
  rw [if_neg (by simp [h])]

/-- An event with nothing to send again. -/
theorem linkEvent_idle (htransfers : t.chord.transfers = []) (hfolds : t.chord.folds = []) (htree : t.chord.tree = []) : linkEvent k s t = t := by
  unfold linkEvent
  split
  · exact resendOver_idle htransfers hfolds htree
  · rfl

/-- Nothing that is sent over chord links waits for an answer. -/
structure Quiet (s : State) : Prop where
  transfers : s.chord.transfers = []
  folds : s.chord.folds = []
  tree : s.chord.tree = []

theorem Quiet.linkEvent (h : Quiet s) (hlinked : Linked k l s t) (u : State) : linkEvent k u t = t := by
  refine linkEvent_idle ?_ ?_ ?_ <;> rw [hlinked.chord]
  · exact h.transfers
  · exact h.folds
  · exact h.tree

/-! ### Lane faults (R563, R566) -/

theorem logged_followUp (x : SelfTest) (test action : Nat) (s : State) : Logged s (followUp x test action s) := logged_writeRecord ..

theorem logged_queueTest (x : SelfTest) (s : State) : Logged s (queueTest x s) := by
  unfold queueTest
  split
  · exact ⟨_, _, _, _, rfl⟩
  · exact logged_followUp ..

theorem logged_retireRecord (r : Res) (action ref sector addr : Nat) (injected : Bool) (s : State) :
    Logged s (retireRecord r action ref sector addr injected s) := by
  unfold retireRecord
  dsimp only
  split
  · exact logged_writeRecord ..
  · exact (logged_writeRecord _ s).trans ⟨_, _, _, _, rfl⟩

/-- What a detected error does to the blocks outside the records, an action may do. -/
theorem detect_logged (act : ActFn) (d : Detect) (s : State) :
    Logged s (detect act d s) ∨ ∃ t, Logged s t ∧ Logged (act d.res d.injected t).2 (detect act d s) := by
  unfold detect
  split
  · exact .inl (logged_writeRecord ..)
  · split
    · exact .inl ((logged_writeRecord _ s).trans ⟨_, _, _, _, rfl⟩)
    · dsimp only
      split
      · split
        · exact .inl (Logged.trans ⟨_, _, _, _, rfl⟩ (logged_writeRecord _ (noteTransient d.res s).2))
        · refine .inr ⟨(noteTransient d.res s).2, ⟨_, _, _, _, rfl⟩, ?_⟩
          exact ((logged_writeRecord ..).trans (logged_bumpField ..)).trans (logged_retireRecord ..)
      · exact .inl ((logged_writeRecord _ s).trans (logged_queueTest ..))

/-- A lane fault of a link with its spare leaves records, or the link with the lane retired and the spare used. -/
theorem laneError_linked {lane : Nat} (hspare : (linkOf s k).spareUsed = false) (hlane : lane < 9) :
    Logged s (laneError k lane s) ∨ ∃ r, Linked k { linkOf s k with retired := r, spareUsed := true } s (laneError k lane s) := by
  unfold laneError
  dsimp only
  have hfire := logged_firePoint 0x0701 (k * 16 + lane) s
  generalize firePoint 0x0701 (k * 16 + lane) s = w at hfire ⊢
  obtain ⟨fired, forced, s1⟩ := w
  generalize hd : ({ source := 0x0701, severity := 1, res := { kind := 6, index := k * 16 + lane }, d0 := k + lane * 16 + (linkOf s1 k).epoch * 2 ^ 32,
                     d1 := (linkOf s1 k).replayed, injected := fired, forced := forced } : Detect) = d
  obtain hlog | ⟨t, ht, hact⟩ := detect_logged actChordLane d s1
  · exact .inl (hfire.trans hlog)
  · have hst : Logged s t := hfire.trans ht
    have hindex : d.res.index / 16 = k := by
      rw [← hd]
      show (k * 16 + lane) / 16 = k
      omega
    have hdo : (actChordLane d.res d.injected t).2
        = setLink k { linkOf s k with retired := setBits (linkOf s k).retired (d.res.index % 16) 1 1, spareUsed := true } t := by
      unfold actChordLane
      simp only [hindex, hst.link k, hspare, Bool.not_false, if_true]
    rw [hdo] at hact
    exact .inr ⟨_, (hst.linked k _).logged hact⟩

/-- A lane fault of a link in UP with its spare sends it to RETRAIN. -/
theorem laneFault_retrains {lane : Nat} (hup : (linkOf s k).state = .up) (hspare : (linkOf s k).spareUsed = false) (hlane : lane < 9) :
    ∃ l, Linked k l s (linkRetrain k (laneError k lane s)) ∧ l.state = .retrain ∧ l.trained = false ∧ l.replay = (linkOf s k).replay := by
  obtain hlog | ⟨r, hlinked⟩ := laneError_linked hspare hlane
  · have hretrain := linkRetrain_linked (s := laneError k lane s) (k := k) (by rw [hlog.link]; exact hup)
    exact ⟨_, hlog.trans_linked hretrain, rfl, rfl, by rw [hlog.link]⟩
  · have hretrain := linkRetrain_linked (s := laneError k lane s) (k := k) (by rw [hlinked.link]; exact hup)
    exact ⟨_, hlinked.trans hretrain, rfl, rfl, by rw [hlinked.link]⟩

/-! ### Training and IDENT (R561, R562) -/

/-- A plain link that trains without a failed lane reaches IDENT and sends it. -/
theorem reachIdent_sends (hstate : (linkOf s k).state = .training) (hplain : s.sealing.sealed = false) :
    ∃ t, Linked k { linkOf s k with state := .ident, trained := true } s t ∧ reachIdent k s = emit (.ident k (ownIdent t k)) t := by
  unfold reachIdent
  simp only [hplain, Bool.false_and, Bool.false_eq_true, if_false, hstate, if_true]
  have hentered := enterLink_linked k .ident s
  generalize enterLink k .ident s = s1 at hentered ⊢
  refine ⟨setLink k { linkOf s1 k with trained := true } s1, ?_, rfl⟩
  rw [hentered.link]
  exact hentered.setLink _

/-- A BIST without a failed lane ends with OK. -/
theorem linkTrainingComplete_bist {serial : Nat} (hstate : (linkOf s k).state = .training) (hbist : (linkOf s k).bist = some serial) :
    ∃ t, linkTrainingComplete k 0 s = t ∧
      Linked k { linkOf s k with state := .down, bist := none } (finish serial stOk 0 0 s) t := by
  unfold linkTrainingComplete
  rw [if_neg (by simp [hstate])]
  simp only [show bitList 9 0 = [] from rfl, List.foldl_nil, hbist, if_true]
  have hset := (Logged.refl (finish serial stOk 0 0 s)).linked k { linkOf s k with bist := none }
  refine ⟨_, rfl, ?_⟩
  have hdown := enterLink_linked k .down (setLink k { linkOf s k with bist := none } (finish serial stOk 0 0 s))
  rw [hset.link] at hdown
  exact hset.trans hdown

/-- Nothing waits for a link. -/
theorem pushLink_idle (h : (linkOf s k).txWait = []) : pushLink k s = s := by
  unfold pushLink pushData
  simp only [h]

/-- No system message waits for a link. -/
theorem retrySys_idle (h : s.chord.unsent = []) : retrySys s = s := by
  unfold retrySys setChord
  rw [h, List.foldl_nil, ← h]

/-- The link after the IDENT of its peer passed in plain mode. -/
def upLink (l : Link) (i : IdentInfo) : Link :=
  { l with state := .up, peerPkg := i.pkg, peerLink := i.link, peerSerial := i.serial, peerEpoch := i.epoch, trained := false, rxCount := 0,
           txCount := 0, replay := [], credits := 2048, rx := [], due := 0, replayed := 0, txKey := [], rxKey := [], txOther := 0, rxOther := 0,
           nakSent := false, ephemeral := [] }

/-- IDENT of the right peer in plain mode puts the link UP. -/
theorem linkIdent_up {i : IdentInfo} (hstate : (linkOf s k).state = .ident) (htrained : (linkOf s k).trained = true)
    (hplain : s.sealing.sealed = false) (hpass : identRefused s k i = none) (hwait : (linkOf s k).txWait = []) (hunsent : s.chord.unsent = []) :
    Linked k (upLink (linkOf s k) i) s (linkIdent k i s) := by
  unfold linkIdent
  simp only [htrained, Bool.not_true, Bool.false_eq_true, if_false, hpass, hstate, if_true, hplain]
  have hset := (Logged.refl s).linked k { upLink (linkOf s k) i with state := .ident }
  have hentered := hset.trans (enterLink_linked k .up _)
  rw [hset.link] at hentered
  have hlink : linkOf (enterLink k .up (setLink k { upLink (linkOf s k) i with state := .ident } s)) k = upLink (linkOf s k) i := hentered.link
  have hpush := pushLink_idle (k := k) (s := enterLink k .up (setLink k { upLink (linkOf s k) i with state := .ident } s)) (by rw [hlink]; exact hwait)
  have hretry := retrySys_idle (s := enterLink k .up (setLink k { upLink (linkOf s k) i with state := .ident } s))
    (by rw [hentered.chord]; exact hunsent)
  unfold upLink at hpush hretry hentered ⊢
  rw [hpush, hretry]
  exact hentered

/-- IDENT that is refused takes the link DOWN. -/
theorem linkIdent_refused {i : IdentInfo} {cause : Nat} (htrained : (linkOf s k).trained = true) (hrefused : identRefused s k i = some cause) :
    linkIdent k i s = linkDown k cause false s := by
  unfold linkIdent
  simp only [htrained, Bool.not_true, Bool.false_eq_true, if_false, hrefused]

/-! ### Received flits (R557-R559) -/

/-- The unacknowledged flits that a flit acknowledges. -/
def ackedBy (l : Link) (flit : List Byte) : Nat :=
  let ack := (fieldLE flit 2 2 + 1 + 65536 - (l.txCount - l.replay.length) % 65536) % 65536
  if ack ≤ l.replay.length then ack else 0

/-- The link with a flit's acknowledgement and credits noted. -/
def ackedLink (l : Link) (flit : List Byte) : Link :=
  { l with replay := l.replay.drop (ackedBy l flit), credits := l.credits + fieldLE flit 5 1, naks := if ackedBy l flit = 0 then l.naks else 0 }

/-- The acknowledgement and the credits of a flit, where nothing waits to be sent. -/
theorem noteAck_eq {flit : List Byte} (hwait : (linkOf s k).txWait = []) : noteAck k flit s = setLink k (ackedLink (linkOf s k) flit) s := by
  have hmod (first : Nat) : ((fieldLE flit 2 2 + 1) % 65536 + 65536 - first % 65536) % 65536
      = (fieldLE flit 2 2 + 1 + 65536 - first % 65536) % 65536 := by omega
  unfold noteAck
  simp only [hmod]
  exact pushLink_idle (by rw [linkOf_setLink_same]; exact hwait)

/-- A flit sent changes what its link may return and counts, and is emitted. -/
theorem emitFlit_eq (c kind number : Nat) (payload : List Byte) (marks : List Nat) (s : State) :
    ∃ bs due other, emitFlit c kind number payload marks s = emit (.flit c bs marks) (setLink c { linkOf s c with due := due, txOther := other } s) :=
  ⟨_, _, _, rfl⟩

/-- DATA in order whose check fails. -/
theorem dataFlit_unopened {flit : List Byte} (hup : (linkOf s k).state = .up) (hkind : fieldLE flit 4 1 = 1)
    (horder : fieldLE flit 0 2 = (linkOf s k).rxCount % 65536) (hopen : openFlit (linkOf s k).rxKey 0 (linkOf s k).rxCount flit = none) :
    dataFlit k flit s = sendFlitNak k s := by
  unfold dataFlit
  simp [hup, hkind, horder, hopen]

/-- DATA in order with a right check is accepted. -/
theorem dataFlit_accepts {flit payload : List Byte} (hup : (linkOf s k).state = .up) (hwait : (linkOf s k).txWait = []) (hkind : fieldLE flit 4 1 = 1)
    (horder : fieldLE flit 0 2 = (linkOf s k).rxCount % 65536) (hopen : openFlit (linkOf s k).rxKey 0 (linkOf s k).rxCount flit = some payload) :
    dataFlit k flit s = setLink k { ackedLink (linkOf s k) flit with
      rxCount := (linkOf s k).rxCount + 1, nakSent := false, rx := (linkOf s k).rx ++ payload } s := by
  unfold dataFlit
  simp [hup, hkind, horder, hopen, noteAck_eq hwait, setLink_setLink]
  rfl

/-- A flit other than DATA with a right check. -/
theorem otherFlit_opens {kind : Nat} {flit payload : List Byte} (hup : (linkOf s k).state = .up) (hwait : (linkOf s k).txWait = [])
    (hkind : fieldLE flit 4 1 = kind) (hopen : openFlit (linkOf s k).rxKey 1 (otherCount (linkOf s k) flit) flit = some payload) :
    otherFlit k kind flit s
      = some (payload, setLink k { ackedLink (linkOf s k) flit with rxOther := otherCount (linkOf s k) flit + 1 } s) := by
  have hack := noteAck_eq (flit := flit) (k := k)
    (s := setLink k { linkOf s k with rxOther := otherCount (linkOf s k) flit + 1 } s) (by rw [linkOf_setLink_same]; exact hwait)
  rw [linkOf_setLink_same, setLink_setLink] at hack
  unfold otherFlit
  rw [if_neg (by simp [hup, hkind])]
  dsimp only
  rw [hopen]
  exact congrArg (fun t => some (payload, t)) hack

/-- A flit other than DATA whose check fails. -/
theorem otherFlit_unopened {kind : Nat} {flit : List Byte} (hopen : openFlit (linkOf s k).rxKey 1 (otherCount (linkOf s k) flit) flit = none) :
    otherFlit k kind flit s = none := by
  unfold otherFlit
  simp [hopen]

/-- A first NAK makes the sender send again what the link holds. -/
theorem nakFlit_resends {flit payload : List Byte} (hup : (linkOf s k).state = .up) (hwait : (linkOf s k).txWait = [])
    (hkind : fieldLE flit 4 1 = 2) (hfirst : (linkOf s k).naks = 0)
    (hopen : openFlit (linkOf s k).rxKey 1 (otherCount (linkOf s k) flit) flit = some payload) :
    nakFlit k flit s = resendLink k (setLink k { ackedLink (linkOf s k) flit with
      rxOther := otherCount (linkOf s k) flit + 1, naks := 1, nakSeq := (fieldLE flit 2 2 + 1) % 65536 } s) := by
  have hnaks : (ackedLink (linkOf s k) flit).naks = 0 := by
    unfold ackedLink
    simp [hfirst]
  unfold nakFlit
  simp only [otherFlit_opens hup hwait hkind hopen, linkOf_setLink_same, setLink_setLink, hnaks]
  simp

/-- A link that holds nothing sends nothing again. -/
theorem resendLink_nothing (h : (linkOf s k).replay = []) : ∃ t, resendLink k s = t ∧ Linked k { linkOf s k with replayed := (linkOf s k).replayed } s t
    ∧ t.out = s.out := by
  refine ⟨_, rfl, ?_, ?_⟩
  · unfold resendLink
    simp only [h, List.length_nil, Nat.add_zero, List.zip_nil_left, List.foldl_nil]
    have hset := (logged_bumpField .chdLinkCounts k 0 32 0 s).linked k (linkOf s k)
    rw [← h]
    exact hset
  · unfold resendLink
    simp only [h, List.zip_nil_left, List.foldl_nil]
    rfl

/-- A link that holds one flit sends it again, and counts. -/
theorem resendLink_one {x : List Byte} (h : (linkOf s k).replay = [x]) : ∃ bs due other,
    resendLink k s = emit (.flit k bs []) (setLink k { linkOf s k with replayed := (linkOf s k).replayed + 1, due := due, txOther := other }
      (bump s .chdLinkCounts k)) := by
  obtain ⟨bs, due, other, hemit⟩ := emitFlit_eq k 1 ((linkOf s k).txCount - 1) x []
    (setLink k { linkOf s k with replayed := (linkOf s k).replayed + 1 } (bump s .chdLinkCounts k))
  rw [linkOf_setLink_same, setLink_setLink] at hemit
  refine ⟨bs, due, other, ?_⟩
  rw [← hemit, resendLink]
  simp only [h, List.length_singleton, show List.range 1 = [0] from rfl, List.zip_cons_cons, List.zip_nil_left, List.foldl_cons, List.foldl_nil,
    Nat.add_zero]
  rw [← h]
  rfl

/-! ### CHORD_ROUTE, CHORD_ACL and CHORD_LINK (R601, R602) -/

section
variable {ring : Nat} {c : Cmd}

/-- CHORD_ROUTE with its fields in range, while no system message waits. -/
theorem chordRouteBody_writes (hk : c.param 24 1 = k) (hres : c.reserved [(25, 26), (28, 64)] = true) (hlt : k < 64) (hset : c.param 26 2 < 4096)
    (hunsent : s.chord.unsent = []) : chordRouteBody c s = .ok (.done stOk 0 0 (rput s .chdRoute k 0 (c.param 26 2))) := by
  subst hk
  unfold chordRouteBody
  rw [need_bind_of (by simp [hres, hlt, hset]), retrySys_idle (by exact hunsent)]

/-- CHORD_ACL with its fields in range. -/
theorem chordAclBody_writes {e : Nat} (hk : c.param 24 1 = k) (hres : c.reserved [(26, 32), (48, 64)] = true) (hlt : k < 8)
    (he : c.param 25 1 = e) (helt : e < 16) :
    chordAclBody c s = .ok (.done stOk 0 0 (rput (rput s .chdAclSrc k e (c.param 32 8)) .chdAclWin k e (c.param 40 8))) := by
  subst hk he
  unfold chordAclBody
  rw [need_bind_of (by simp [hres, hlt, helt])]

/-- CHORD_LINK with ACTION 0. -/
theorem chordLinkBody_down (hk : c.param 24 1 = k) (hres : c.reserved [(26, 64)] = true) (hlt : k < 10) (hact : c.param 25 1 = 0) :
    chordLinkBody c s = .ok (.done stOk 0 0 (linkDown k 6 false s)) := by
  subst hk
  unfold chordLinkBody
  dsimp only
  rw [need_bind_of (by simp [hres, hact]; omega), need_bind_of (by simp; omega), if_pos hact]

/-- CHORD_LINK with ACTION 1. -/
theorem chordLinkBody_trains (hk : c.param 24 1 = k) (hres : c.reserved [(26, 64)] = true) (hlt : k < 10) (hact : c.param 25 1 = 1)
    (hdown : (linkOf s k).state = .down) (havail : linkAvail s k = true) :
    chordLinkBody c s = .ok (.done stOk 0 0 (enterLink k .training s)) := by
  subst hk
  unfold chordLinkBody
  dsimp only
  rw [need_bind_of (by simp [hres, hact]; omega), need_bind_of (by simp; omega), if_neg (by omega), if_pos hact,
    need_bind_of (by simp [hdown, havail])]
  unfold linkTrain
  rw [if_pos (by simp [hdown, havail])]

/-- CHORD_LINK with ACTION 2. -/
theorem chordLinkBody_bist (hk : c.param 24 1 = k) (hres : c.reserved [(26, 64)] = true) (hlt : k < 10) (hact : c.param 25 1 = 2)
    (hdown : (linkOf s k).state = .down) (havail : linkAvail s k = true) :
    ∃ t, Linked k { linkOf s k with state := .training, bist := some c.serial } s t ∧ chordLinkBody c s = .ok (.running t) := by
  subst hk
  have hentered := enterLink_linked (c.param 24 1) .training s
  have hset := hentered.setLink { linkOf s (c.param 24 1) with state := .training, bist := some c.serial }
  refine ⟨_, hset, ?_⟩
  unfold chordLinkBody
  dsimp only
  rw [need_bind_of (by simp [hres, hact]; omega), need_bind_of (by simp; omega), if_neg (by omega), if_neg (by omega),
    need_bind_of (by simp [hdown, havail]), hentered.link]

/-- After CHORD_LINK nothing goes out again where nothing waits for an answer, or where no link went DOWN. -/
theorem execChordLink_idle (h : ∀ j, (linkOf s j).state ≠ .down → (linkOf t j).state = .down → resendOver t = t)
    (hbegun : beginCommand 0x0910 ring chordLinkBody s = t) : execChordLink ring s = .next t := by
  unfold execChordLink
  rw [hbegun]
  refine congrArg Host.Outcome.next (List.foldl_fixed' (fun j => ?_) _)
  split
  case isTrue hgone =>
    simp only [Bool.and_eq_true, decide_eq_true_eq] at hgone
    exact h j hgone.1 hgone.2
  case isFalse => rfl

end

/-! ### The statements of O59 -/

/-- The commands. -/
theorem chordLinks_commands (s : State) (ring : Nat) (c : Cmd) (k : Nat) (hk : c.param 24 1 = k) (hbegins : Begins s ring 0x0910 c)
    (hres : c.reserved [(26, 64)] = true) (hlt : k < 10) :
    (c.param 25 1 = 0 → (linkOf s k).state ≠ .down → (linkOf s k).bist = none → Quiet s →
      ∃ t, exec (.chordLink ring) s = .next (okWith c 0 0 t) ∧ Linked k (downLink (linkOf s k) 6) s t)
    ∧ (c.param 25 1 = 1 → (linkOf s k).state = .down → linkAvail s k = true →
      ∃ t, exec (.chordLink ring) s = .next (okWith c 0 0 t) ∧ Linked k { linkOf s k with state := .training } s t)
    ∧ (c.param 25 1 = 2 → (linkOf s k).state = .down → linkAvail s k = true →
      ∃ t, exec (.chordLink ring) s = .next (setPhase c.serial .running t)
        ∧ Linked k { linkOf s k with state := .training, bist := some c.serial } s t) := by
  refine ⟨fun hact hstate hbist hquiet => ?_, fun hact hdown havail => ?_, fun hact hdown havail => ?_⟩
  · have hlinked := linkDown_linked (cause := 6) (injected := false) hstate hbist
    refine ⟨_, execChordLink_idle (fun _ _ _ => ?_) (beginCommand_okWith hbegins (chordLinkBody_down hk hres hlt hact)), hlinked⟩
    exact resendOver_idle ((congrArg Chord.transfers hlinked.chord).trans hquiet.transfers)
      ((congrArg Chord.folds hlinked.chord).trans hquiet.folds) ((congrArg Chord.tree hlinked.chord).trans hquiet.tree)
  · have hlinked := enterLink_linked k .training s
    refine ⟨_, execChordLink_idle (fun j hj hgone => ?_) (beginCommand_okWith hbegins (chordLinkBody_trains hk hres hlt hact hdown havail)), hlinked⟩
    by_cases hjk : j = k
    · exact absurd hdown (hjk ▸ hj)
    · exact absurd ((hlinked.others j hjk).symm ▸ hgone) hj
  · obtain ⟨t, hlinked, hbody⟩ := chordLinkBody_bist hk hres hlt hact hdown havail
    refine ⟨t, execChordLink_idle (fun j hj hgone => ?_) (beginCommand_runs hbegins hbody), hlinked⟩
    by_cases hjk : j = k
    · exact absurd hdown (hjk ▸ hj)
    · exact absurd ((hlinked.others j hjk).symm ▸ hgone) hj

/-- A link in RETRAIN whose time is over. -/
theorem retrainTimeout_down (hstate : (linkOf s k).state = .retrain) (hbist : (linkOf s k).bist = none) (hquiet : Quiet s) :
    ∃ t, exec (.retrainTimeout k) s = .next t ∧ Linked k (downLink (linkOf s k) 4) s t := by
  have hfire := logged_firePoint 0x0702 k s
  have hdown := linkDown_linked (s := (firePoint 0x0702 k s).2.2) (k := k) (cause := 4) (injected := (firePoint 0x0702 k s).1)
    (by rw [hfire.link, hstate]; decide) (by rw [hfire.link]; exact hbist)
  rw [hfire.link] at hdown
  have hlinked := hfire.trans_linked hdown
  refine ⟨_, ?_, hlinked⟩
  refine (show exec (.retrainTimeout k) s = execRetrainTimeout k s from rfl).trans ?_
  unfold execRetrainTimeout
  rw [if_neg (by simp [hstate])]
  exact congrArg Host.Outcome.next (hquiet.linkEvent hlinked (firePoint 0x0702 k s).2.2)

/-- Training that ends without a failed lane. -/
theorem linkTrainingComplete_idents (hstate : (linkOf s k).state = .training) (hbist : (linkOf s k).bist = none)
    (hplain : s.sealing.sealed = false) : ∃ t, exec (.linkTrainingComplete k 0) s = .next (emit (.ident k (ownIdent t k)) t)
      ∧ Linked k { linkOf s k with state := .ident, trained := true } s t := by
  obtain ⟨t, hlinked, hreach⟩ := reachIdent_sends hstate hplain
  have hrow : linkTrainingComplete k 0 s = emit (.ident k (ownIdent t k)) t := by
    unfold linkTrainingComplete
    rw [if_neg (by simp [hstate]), ← hreach]
    simp [show bitList 9 0 = [] from rfl, hbist, hstate]
  refine ⟨t, ?_, hlinked⟩
  have hevent : linkEvent k s (linkTrainingComplete k 0 s) = linkTrainingComplete k 0 s := by
    refine linkEvent_alive ?_
    rw [hrow, show linkOf (emit (.ident k (ownIdent t k)) t) k = linkOf t k from rfl, hlinked.link]
    simp
  exact congrArg Host.Outcome.next (hevent.trans hrow)

/-- A BIST that ends without a failed lane. -/
theorem linkTrainingComplete_ends {serial : Nat} (hstate : (linkOf s k).state = .training) (hbist : (linkOf s k).bist = some serial)
    (hquiet : Quiet s) : ∃ t, exec (.linkTrainingComplete k 0) s = .next t
      ∧ Linked k { linkOf s k with state := .down, bist := none } (finish serial 0 0 0 s) t := by
  obtain ⟨t, hrow, hlinked⟩ := linkTrainingComplete_bist hstate hbist
  have hdone : Quiet (finish serial 0 0 0 s) := ⟨hquiet.transfers, hquiet.folds, hquiet.tree⟩
  refine ⟨t, ?_, hlinked⟩
  exact congrArg Host.Outcome.next ((congrArg (linkEvent k s) hrow).trans (hdone.linkEvent hlinked s))

/-- IDENT that passes. -/
theorem ident_up {i : IdentInfo} (hstate : (linkOf s k).state = .ident) (htrained : (linkOf s k).trained = true)
    (hplain : s.sealing.sealed = false) (hpass : identRefused s k i = none) (hwait : (linkOf s k).txWait = []) (hunsent : s.chord.unsent = []) :
    ∃ t, exec (.ident k i) s = .next t ∧ Linked k (upLink (linkOf s k) i) s t := by
  have hlinked := linkIdent_up hstate htrained hplain hpass hwait hunsent
  refine ⟨_, congrArg Host.Outcome.next (linkEvent_alive ?_), hlinked⟩
  rw [hlinked.link]
  simp [upLink]

/-- IDENT that is refused. -/
theorem ident_refused {i : IdentInfo} {cause : Nat} (hstate : (linkOf s k).state = .ident) (htrained : (linkOf s k).trained = true)
    (hrefused : identRefused s k i = some cause) (hbist : (linkOf s k).bist = none) (hquiet : Quiet s) :
    ∃ t, exec (.ident k i) s = .next t ∧ Linked k (downLink (linkOf s k) cause) s t := by
  have hlinked := linkDown_linked (cause := cause) (injected := false) (s := s) (k := k) (by simp [hstate]) hbist
  refine ⟨_, congrArg Host.Outcome.next ?_, hlinked⟩
  rw [linkIdent_refused htrained hrefused]
  exact hquiet.linkEvent hlinked s

/-- A lane that loses lock and a burst of code errors are one event. -/
theorem laneRows_retrain {lane : Nat} (hup : (linkOf s k).state = .up) (hspare : (linkOf s k).spareUsed = false) (hlane : lane < 9) :
    ∃ t l, exec (.laneLockLoss k lane) s = .next t ∧ exec (.fecErrorBurst k lane) s = .next t
      ∧ Linked k l s t ∧ l.state = .retrain ∧ l.trained = false ∧ l.replay = (linkOf s k).replay := by
  obtain ⟨l, hlinked, hstate, htrained, hreplay⟩ := laneFault_retrains hup hspare hlane
  have hevent : linkEvent k s (linkRetrain k (laneError k lane s)) = linkRetrain k (laneError k lane s) := by
    refine linkEvent_alive ?_
    rw [hlinked.link, hstate]
    decide
  refine ⟨_, l, ?_, ?_, hlinked, hstate, htrained, hreplay⟩
  · refine (show exec (.laneLockLoss k lane) s = execLaneLockLoss k lane s from rfl).trans ?_
    unfold execLaneLockLoss
    rw [if_neg (by simp [hup]), hevent]
  · refine (show exec (.fecErrorBurst k lane) s = execFecErrorBurst k lane s from rfl).trans ?_
    unfold execFecErrorBurst
    rw [if_neg (by simp [hup]), hevent]

/-- DATA in order whose check fails is answered by one NAK. -/
theorem sendFlitNak_cases (s : State) (k : Nat) :
    ∃ t, sendFlitNak k s = t ∧ (∀ j, j ≠ k → linkOf t j = linkOf s j) ∧ t.mem = s.mem ∧ t.regs = s.regs ∧ t.rings = s.rings
      ∧ ((linkOf s k).nakSent = true → t = s)
      ∧ ((linkOf s k).nakSent = false → (linkOf t k).nakSent = true ∧ ∃ bs, t.out = s.out ++ [.flit k bs []]) := by
  unfold sendFlitNak
  dsimp only
  split
  case isTrue hsent => exact ⟨s, rfl, fun _ _ => rfl, rfl, rfl, rfl, fun _ => rfl, fun h => by simp [h] at hsent⟩
  case isFalse hnew =>
    obtain ⟨bs, due, other, hemit⟩ := emitFlit_eq k 2 0 [] [] (setLink k { linkOf s k with nakSent := true } s)
    rw [linkOf_setLink_same, setLink_setLink] at hemit
    refine ⟨_, rfl, ?_⟩
    rw [hemit]
    refine ⟨fun j hj => linkOf_setLink_ne s _ hj, rfl, rfl, rfl, fun h => absurd h hnew, fun _ => ⟨?_, bs, rfl⟩⟩
    exact congrArg Link.nakSent (linkOf_setLink_same s k _)

/-- NAK on a link that holds one flit. -/
theorem nakFlit_one {flit payload x : List Byte} (hup : (linkOf s k).state = .up) (hwait : (linkOf s k).txWait = [])
    (hkind : fieldLE flit 4 1 = 2) (hfirst : (linkOf s k).naks = 0) (hx : (linkOf s k).replay = [x])
    (hopen : openFlit (linkOf s k).rxKey 1 (otherCount (linkOf s k) flit) flit = some payload) :
    ∃ t, nakFlit k flit s = t ∧ (linkOf t k).naks = 1 ∧ (linkOf t k).nakSeq = (fieldLE flit 2 2 + 1) % 65536 ∧ (linkOf t k).state = .up
      ∧ (ackedBy (linkOf s k) flit = 0 → (linkOf t k).replayed = (linkOf s k).replayed + 1 ∧ countedOne t s .chdLinkCounts k
          ∧ ∃ bs, t.out = s.out ++ [.flit k bs []])
      ∧ (ackedBy (linkOf s k) flit = 1 → (linkOf t k).replay = [] ∧ t.out = s.out)
      ∧ (∀ j, j ≠ k → linkOf t j = linkOf s j) ∧ t.mem = s.mem := by
  refine ⟨_, nakFlit_resends hup hwait hkind hfirst hopen, ?_⟩
  generalize hm : ({ ackedLink (linkOf s k) flit with
      rxOther := otherCount (linkOf s k) flit + 1, naks := 1, nakSeq := (fieldLE flit 2 2 + 1) % 65536 } : Link) = m
  have hreplay : m.replay = [x].drop (ackedBy (linkOf s k) flit) := by
    rw [← hm, ← hx]
    rfl
  have hnaks : m.naks = 1 := by rw [← hm]
  have hseq : m.nakSeq = (fieldLE flit 2 2 + 1) % 65536 := by rw [← hm]
  have hstate : m.state = .up := by
    rw [← hm]
    exact hup
  have hreplayed : m.replayed = (linkOf s k).replayed := by
    rw [← hm]
    rfl
  have hset := linkOf_setLink_same s k m
  have hcases : ackedBy (linkOf s k) flit = 0 ∨ ackedBy (linkOf s k) flit = 1 := by
    have hle : ackedBy (linkOf s k) flit ≤ (linkOf s k).replay.length := by
      unfold ackedBy
      dsimp only
      split
      · assumption
      · exact Nat.zero_le _
    rw [hx, List.length_singleton] at hle
    omega
  obtain hzero | hone := hcases
  · obtain ⟨bs, due, other, hsend⟩ := resendLink_one (s := setLink k m s) (k := k) (x := x) (by rw [hset, hreplay, hzero]; rfl)
    rw [hset] at hsend
    have hlink := linkOf_setLink_same (bump (setLink k m s) .chdLinkCounts k) k { m with replayed := m.replayed + 1, due := due, txOther := other }
    rw [hsend]
    refine ⟨(congrArg Link.naks hlink).trans hnaks, (congrArg Link.nakSeq hlink).trans hseq, (congrArg Link.state hlink).trans hstate,
      fun _ => ⟨(congrArg Link.replayed hlink).trans (congrArg (· + 1) hreplayed), bump_counts (setLink k m s) .chdLinkCounts k, bs, rfl⟩,
      fun hone => by omega, fun j hj => ?_, rfl⟩
    exact (linkOf_setLink_ne (bump (setLink k m s) .chdLinkCounts k) _ hj).trans (linkOf_setLink_ne s m hj)
  · obtain ⟨t, hsend, hlinked, hout⟩ := resendLink_nothing (s := setLink k m s) (k := k) (by rw [hset, hreplay, hone]; rfl)
    rw [hset] at hlinked
    have hlink : linkOf t k = m := hlinked.link
    rw [hsend]
    refine ⟨hlink ▸ hnaks, hlink ▸ hseq, hlink ▸ hstate, fun hzero => by omega, fun _ => ⟨?_, hout⟩, fun j hj => ?_, hlinked.mem⟩
    · rw [hlink, hreplay, hone]
      rfl
    · exact (hlinked.others j hj).trans (linkOf_setLink_ne s m hj)

/-- Settles O59: what the commands of a chord link, its events and its flits leave of it. -/
theorem chordLinks : Obligations.ChordLinks := by
  unfold Obligations.ChordLinks
  refine ⟨fun s ring c k hk => ⟨?_, ?_, ?_⟩, ?_⟩
  · intro hbegins hres hlt hset hunsent
    exact congrArg Host.Outcome.next (beginCommand_okWith hbegins (chordRouteBody_writes hk hres hlt hset hunsent))
  · intro e hbegins hres hlt he helt
    exact congrArg Host.Outcome.next (beginCommand_okWith hbegins (chordAclBody_writes hk hres hlt he helt))
  · intro hbegins hres hlt
    obtain ⟨hdown, htrain, hbist⟩ := chordLinks_commands s ring c k hk hbegins hres hlt
    refine ⟨fun hact hstate hnone htransfers hfolds htree => ?_, fun hact hstate havail => ?_, fun hact hstate havail => ?_⟩
    · obtain ⟨t, hexec, hl⟩ := hdown hact hstate hnone ⟨htransfers, hfolds, htree⟩
      refine ⟨t, hexec, ?_, ?_, ?_, ?_, ?_, hl.others, hl.mem, hl.sct⟩ <;> rw [hl.link] <;> rfl
    · obtain ⟨t, hexec, hl⟩ := htrain hact hstate havail
      exact ⟨t, hexec, hl.link, hl.others, hl.mem, hl.sct⟩
    · obtain ⟨t, hexec, hl⟩ := hbist hact hstate havail
      exact ⟨t, hexec, hl.link, hl.others, hl.mem, hl.sct⟩
  · rintro s k lane l rfl
    refine ⟨?_, ?_, ?_, ?_, ?_⟩
    · intro hup hspare hlane
      obtain ⟨t, l, hlock, hfec, hl, hstate, htrained, hreplay⟩ := laneRows_retrain hup hspare hlane
      exact ⟨t, hlock, hfec, hl.link ▸ hstate, hl.link ▸ htrained, hl.link ▸ hreplay, hl.others, hl.mem⟩
    · intro hstate hbist htransfers hfolds htree
      obtain ⟨t, hexec, hl⟩ := retrainTimeout_down hstate hbist ⟨htransfers, hfolds, htree⟩
      refine ⟨t, hexec, ?_, ?_, ?_, ?_, hl.others, hl.mem⟩ <;> rw [hl.link] <;> rfl
    · intro hstate hplain
      refine ⟨fun hbist => ?_, fun serial hbist htransfers hfolds htree => ?_⟩
      · obtain ⟨t, hexec, hl⟩ := linkTrainingComplete_idents hstate hbist hplain
        have hepoch : (linkOf t k).epoch = (linkOf s k).epoch := by rw [hl.link]
        have hcount : (linkOf t k).rxCount = (linkOf s k).rxCount := by rw [hl.link]
        refine ⟨_, hexec, hl.link, ⟨ownIdent t k, ?_, rfl, ?_, ?_, ?_, ?_⟩, hl.others, hl.mem⟩
        · exact congrArg (fun r : Rst => r.straps.pkgSlot) hl.rst
        · exact congrArg Top.serial hl.top
        · exact hepoch
        · exact hcount
        · exact List.mem_append_right _ (List.mem_singleton.mpr rfl)
      · obtain ⟨t, hexec, hl⟩ := linkTrainingComplete_ends hstate hbist ⟨htransfers, hfolds, htree⟩
        refine ⟨t, hexec, hl.link, fun r => ?_, hl.others, hl.mem⟩
        rw [ringOf, hl.rings]
        exact congrArg Ring.inflight (ringOf_mapInflight s _ r)
    · intro i hstate htrained hplain
      refine ⟨fun hpass hwait hunsent => ?_, fun cause hrefused hbist htransfers hfolds htree => ?_⟩
      · obtain ⟨t, hexec, hl⟩ := ident_up hstate htrained hplain hpass hwait hunsent
        exact ⟨t, hexec, hl.link, hl.others, hl.mem⟩
      · obtain ⟨t, hexec, hl⟩ := ident_refused hstate htrained hrefused hbist ⟨htransfers, hfolds, htree⟩
        refine ⟨t, hexec, ?_, ?_, hl.others, hl.mem⟩ <;> rw [hl.link] <;> rfl
    · intro flit hup hwait ack drop
      refine ⟨fun hkind horder => ?_, fun hkind => ?_, fun hkind hfirst x hx => ?_⟩
      · cases hopen : openFlit (linkOf s k).rxKey 0 (linkOf s k).rxCount flit with
        | none =>
          obtain ⟨t, hsend, hothers, hmem, hregs, hrings, hold, hnew⟩ := sendFlitNak_cases s k
          exact ⟨t, congrArg Host.Outcome.next ((dataFlit_unopened hup hkind horder hopen).trans hsend), hothers, hmem, hregs, hrings, hold, hnew⟩
        | some payload =>
          exact ⟨_, congrArg Host.Outcome.next (dataFlit_accepts hup hwait hkind horder hopen), fun j hj => linkOf_setLink_ne s _ hj, rfl, rfl, rfl,
            linkOf_setLink_same s k _, rfl⟩
      · cases hopen : openFlit (linkOf s k).rxKey 1 (otherCount (linkOf s k) flit) flit with
        | none =>
          refine ⟨s, (show exec (.idle k flit) s = execIdle k flit s from rfl).trans ?_, rfl⟩
          rw [execIdle, otherFlit_unopened hopen]
        | some payload =>
          refine ⟨_, (show exec (.idle k flit) s = execIdle k flit s from rfl).trans ?_, linkOf_setLink_same s k _,
            fun j hj => linkOf_setLink_ne s _ hj, rfl, rfl, rfl, rfl⟩
          rw [execIdle, otherFlit_opens hup hwait hkind hopen]
          rfl
      · cases hopen : openFlit (linkOf s k).rxKey 1 (otherCount (linkOf s k) flit) flit with
        | none =>
          have hsame : nakFlit k flit s = s := by rw [nakFlit, otherFlit_unopened hopen]
          have hevent : linkEvent k s (nakFlit k flit s) = s := by
            rw [hsame]
            exact linkEvent_alive (by rw [hup]; decide)
          exact ⟨s, congrArg Host.Outcome.next hevent, rfl⟩
        | some payload =>
          obtain ⟨t, hrow, hnaks, hseq, hstate, hagain, hgone, hothers, hmem⟩ := nakFlit_one hup hwait hkind hfirst hx hopen
          have hevent : linkEvent k s (nakFlit k flit s) = t := by
            rw [hrow]
            exact linkEvent_alive (by rw [hstate]; decide)
          exact ⟨t, congrArg Host.Outcome.next hevent, hnaks, hseq, hstate, hagain, hgone, hothers, hmem⟩

end

end Sys2Proof.Machine

/-! # What records, packets and lost links leave (for O47 and O48) -/
namespace Sys2Proof.Machine

/-! ### Pins -/

section
variable {s : State}

/-- Only a record of the board's thermal source drives SMB_ALERT_N. -/
theorem writeRecord_samePins {r : Rec} (h : r.source ≠ 0x0A05) : (writeRecord r s).pins = s.pins := by
  unfold writeRecord
  split
  · rfl
  · extract_lets seq shown pub full old err s1 s2 pins s3
    clear_value pub
    have h2 : s2.pins = s.pins := by
      unfold s2
      split
      · obtain ⟨regs, wake, hpush⟩ := wakePush_eq 63 (packetOf (narrowWords pub)) s1
        rw [hpush]
      · rfl
    clear_value s2
    have h3 : s3.pins = s.pins := by
      unfold s3
      rw [if_neg (by simp [h])]
      exact h2
    clear_value s3
    split_ifs <;> exact h3

theorem eventRecord_pins {source : Nat} (h : source ≠ 0x0A05) (sector status addr : Nat) (s : State) :
    (eventRecord source sector status addr s).pins = s.pins := writeRecord_samePins h

theorem logRecord_pins (queue typ : Nat) (body : List Byte) (s : State) : (logRecord queue typ body s).pins = s.pins := by
  obtain ⟨regs, wake, h⟩ := logRecord_eq queue typ body s
  rw [h]

theorem queueTest_pins {x : SelfTest} (h : x.source ≠ 0x0A05) : (queueTest x s).pins = s.pins := by
  unfold queueTest
  split
  · rfl
  · exact writeRecord_samePins h

theorem retireRecord_pins (r : Res) (action ref sector addr : Nat) (injected : Bool) (s : State) :
    (retireRecord r action ref sector addr injected s).pins = s.pins := by
  have hsource : (0x0B06 : Nat) ≠ 0x0A05 := by decide
  unfold retireRecord
  dsimp only
  split
  · exact writeRecord_samePins hsource
  · exact writeRecord_samePins hsource

theorem actMemory_pins (r : Res) (b : Bool) (s : State) : (actMemory r b s).2.pins = s.pins := by
  unfold actMemory
  dsimp only
  split_ifs <;> rfl

/-- A memory fault leaves the pins. -/
theorem detect_pins {d : Detect} (h : d.source ≠ 0x0A05) : (detect actMemory d s).pins = s.pins := by
  have hrec (test action ref : Nat) (t : State) : (writeRecord (d.record test action ref) t).pins = t.pins := writeRecord_samePins h
  unfold detect
  split
  · exact hrec ..
  · split
    · exact hrec ..
    · dsimp only
      split
      · split
        · exact (hrec ..).trans rfl
        · exact (retireRecord_pins ..).trans ((hrec ..).trans (actMemory_pins ..))
      · exact (queueTest_pins h).trans (hrec ..)

theorem lineDetect_pins {source : Nat} (h : source ≠ 0x0A05) (u : State) (a severity status n : Nat) (injected forced : Bool) (s : State) :
    (detect actMemory (lineDetect u a source severity status n injected forced) s).pins = s.pins := detect_pins h

theorem faultAt_pins (a : Nat) (kind : FaultKind) (n : Nat) (injected forced : Bool) (s : State) :
    (faultAt a kind n injected forced s).2.pins = s.pins := by
  unfold faultAt
  cases kind with
  | undetected => rfl
  | corrected =>
    have hspoil : (if guaranteed a n then s else spoilLine a s).pins = s.pins := by split <;> rfl
    refine (lineDetect_pins ?_ ..).trans hspoil
    split <;> decide
  | uncorrectable =>
    dsimp only
    split
    · exact lineDetect_pins (by decide) ..
    · exact lineDetect_pins (by decide) ..
  | tagFail =>
    dsimp only
    split
    · exact lineDetect_pins (by decide) ..
    · rfl
  | busRetried =>
    dsimp only
    split
    · exact lineDetect_pins (by decide) ..
    · rfl
  | busFailed =>
    dsimp only
    split
    · exact lineDetect_pins (by decide) ..
    · rfl

theorem fireSlot_pins (k : Nat) (s : State) : (fireSlot k s).pins = s.pins := by
  unfold fireSlot
  dsimp only
  split <;> rfl

theorem foldl_fireSlot_pins (l : Table Inject) (s : State) : (l.foldl (fun s e => fireSlot e.1 s) s).pins = s.pins := by
  induction l generalizing s with
  | nil => rfl
  | cons e l ih => exact (ih _).trans (fireSlot_pins ..)

theorem patternKind_pins (a n : Nat) (s : State) : (patternKind a n s).2.pins = s.pins := by
  unfold patternKind
  split
  · rfl
  · dsimp only
    generalize (if isNear a = true then 5 else 2) = limit
    split <;> rfl

theorem injectedFault_pins (a : Nat) (s : State) : (injectedFault a s).2.pins = s.pins := by
  unfold injectedFault
  split
  · rfl
  · dsimp only
    split
    · exact (foldl_fireSlot_pins ..).trans (foldl_fireSlot_pins ..)
    · split
      · exact (patternKind_pins ..).trans (foldl_fireSlot_pins ..)
      · split <;> exact foldl_fireSlot_pins ..

theorem readLine_pins (faults : List LineFault) (a : Nat) (s : State) : (readLine faults a s).2.pins = s.pins := by
  have hinj := injectedFault_pins a s
  unfold readLine
  split
  · rfl
  · split
    next heq =>
      rw [heq] at hinj
      exact (faultAt_pins ..).trans hinj
    next heq =>
      rw [heq] at hinj
      split
      · exact (faultAt_pins ..).trans hinj
      · exact hinj

theorem readLines_pins (faults : List LineFault) (k l : Nat) (s : State) : (readLines faults k l s).2.pins = s.pins := by
  induction k generalizing l s with
  | zero => rfl
  | succ k ih =>
    have hline := readLine_pins faults (l * 64) s
    unfold readLines
    split
    next heq =>
      rw [heq] at hline
      exact (ih ..).trans hline
    · exact hline

theorem faultyRead_pins (faults : List LineFault) (a n : Nat) (s : State) : (faultyRead faults a n s).2.pins = s.pins := by
  have hlines := readLines_pins faults ((a + n - 1) / 64 - a / 64 + 1) (a / 64) s
  unfold faultyRead
  split
  · rfl
  · split
    · exact eventRecord_pins (by decide) ..
    · split
      next heq => rwa [heq] at hlines
      next heq => rwa [heq] at hlines

theorem writeLine_pins (faults : List LineFault) (a : Nat) (bs : List Byte) (s : State) : (writeLine faults a bs s).2.pins = s.pins := by
  have hline := readLine_pins faults a s
  unfold writeLine
  split
  · rfl
  · split
    · rfl
    · split
      next heq => rwa [heq] at hline
      · exact hline

theorem writeLines_pins (faults : List LineFault) (k a : Nat) (bs : List Byte) (s : State) : (writeLines faults k a bs s).2.pins = s.pins := by
  induction k generalizing a bs s with
  | zero => rfl
  | succ k ih =>
    have hline := writeLine_pins faults a (bs.take (64 - a % 64)) s
    unfold writeLines
    split
    · rfl
    · dsimp only
      split
      next heq =>
        rw [heq] at hline
        exact (ih ..).trans hline
      · exact hline

theorem faultyWrite_pins (faults : List LineFault) (a : Nat) (bs : List Byte) (s : State) : (faultyWrite faults a bs s).2.pins = s.pins := by
  unfold faultyWrite
  split
  · rfl
  · split
    · exact eventRecord_pins (by decide) ..
    · exact writeLines_pins ..

end

end Sys2Proof.Machine

/-! ### Packets sent and sent again (11 R568-R571, R584, R597) -/
namespace Sys2Proof.Machine

/-- `t` is `s` with packets sent, chunks sent again, or transfers and folds ended: pair, queue pairs, pins, held classes and the modes of
the links stay, and so do the commands that are done. -/
structure SendKept (s t : State) : Prop where
  pair : t.pair = s.pair
  rdma : t.rdma = s.rdma
  pins : t.pins = s.pins
  held : t.rings.held = s.rings.held
  modes : ∀ j, (linkOf t j).pairMode = (linkOf s j).pairMode
  done : ∀ r, ∀ c ∈ (ringOf s r).inflight, (∃ st r0 r1, c.phase = .done st r0 r1) → c ∈ (ringOf t r).inflight

section
variable {s t u : State}

theorem SendKept.refl (s : State) : SendKept s s := ⟨rfl, rfl, rfl, rfl, fun _ => rfl, fun _ _ hc _ => hc⟩

theorem SendKept.trans (h : SendKept s t) (h' : SendKept t u) : SendKept s u :=
  ⟨h'.pair.trans h.pair, h'.rdma.trans h.rdma, h'.pins.trans h.pins, h'.held.trans h.held, fun j => (h'.modes j).trans (h.modes j),
    fun r c hc hdone => h'.done r c (h.done r c hc hdone) hdone⟩

/-- A fold of steps that each serve. -/
theorem SendKept.foldl {α : Type} {f : State → α → State} (hf : ∀ s a, SendKept s (f s a)) (l : List α) (s : State) : SendKept s (l.foldl f s) := by
  induction l generalizing s with
  | nil => exact .refl s
  | cons a l ih => exact (hf s a).trans (ih _)

/-- What sending can change in the chord block besides the modes of the links. -/
theorem sendKept_setChord {x : Chord} (h : x.links = s.chord.links) : SendKept s (setChord x s) :=
  ⟨rfl, rfl, rfl, rfl, fun j => congrArg (fun l => (Table.getD l j {}).pairMode) h, fun _ _ hc _ => hc⟩

theorem sendKept_setLink {k : Nat} {l : Link} (h : l.pairMode = (linkOf s k).pairMode) : SendKept s (setLink k l s) := by
  refine ⟨rfl, rfl, rfl, rfl, fun j => ?_, fun _ _ hc _ => hc⟩
  by_cases hj : j = k
  · rw [hj, linkOf_setLink_same, h]
  · rw [linkOf_setLink_ne s l hj]

theorem sendKept_bumpField (r : Reg) (i lo w n : Nat) (s : State) : SendKept s (bumpField s r i lo w n) :=
  ⟨rfl, rfl, rfl, rfl, fun _ => rfl, fun _ _ hc _ => hc⟩

theorem sendKept_emit (e : Emit) (s : State) : SendKept s (emit e s) := ⟨rfl, rfl, rfl, rfl, fun _ => rfl, fun _ _ hc _ => hc⟩

theorem sendKept_finish (n st r0 r1 : Nat) (s : State) : SendKept s (finish n st r0 r1 s) :=
  ⟨rfl, rfl, rfl, rfl, fun _ => rfl, fun _ _ hc hdone => mem_finish_of_ne hc (.inr hdone) st r0 r1⟩

/-- An access to lines serves. -/
theorem sendKept_of_lineFrame (h : lineFrame t = lineFrame s) (hpins : t.pins = s.pins) : SendKept s t := by
  have hrings : t.rings = s.rings := (congrArg State.rings h :)
  have hchord : t.chord = s.chord := (congrArg State.chord h :)
  exact ⟨(congrArg State.pair h :), (congrArg State.rdma h :), hpins, by rw [hrings], fun j => by rw [linkOf, hchord, ← linkOf],
    fun r c hc _ => by rwa [ringOf, hrings, ← ringOf]⟩

theorem sendKept_trustedRead (a n : Nat) (s : State) : SendKept s (trustedRead a n s).2 :=
  sendKept_of_lineFrame (lineFrame_trustedRead s a n) (faultyRead_pins [] a n s)

theorem sendKept_emitFlit (c kind number : Nat) (payload : List Byte) (marks : List Nat) (s : State) :
    SendKept s (emitFlit c kind number payload marks s) := by
  refine SendKept.trans ?_ (sendKept_emit ..)
  exact sendKept_setLink rfl

theorem sendKept_pushData (c n : Nat) (s : State) : SendKept s (pushData c n s) := by
  induction n generalizing s with
  | zero => exact .refl s
  | succ n ih =>
    unfold pushData
    dsimp only
    split
    · exact .refl s
    · split
      · exact .refl s
      · refine SendKept.trans (SendKept.trans ?_ (sendKept_emitFlit ..)) (ih _)
        exact sendKept_setLink rfl

theorem sendKept_putPacket (c : Nat) (p : Packet) (s : State) : SendKept s (putPacket c p s) := by
  refine SendKept.trans (SendKept.trans (SendKept.trans ?_ (sendKept_bumpField ..)) (sendKept_bumpField ..)) (sendKept_pushData ..)
  exact sendKept_setLink rfl

theorem sendKept_sendPacket {p : Packet} {l : Nat} (h : sendPacket p s = some (l, t)) : SendKept s t := by
  unfold sendPacket at h
  obtain ⟨c, -, heq⟩ := Option.map_eq_some_iff.mp h
  obtain ⟨-, rfl⟩ := Prod.mk.inj heq
  exact sendKept_putPacket ..

theorem sendKept_sysSend (viaPair : Bool) (dest : Nat) (m : SysMsg) (s : State) : SendKept s (sysSend viaPair dest m s) := by
  unfold sysSend
  dsimp only
  split
  · exact (sendKept_putPacket ..).trans (sendKept_emit ..)
  · exact sendKept_setChord rfl

/-! ### Chunks (R584, R587, R597) -/

theorem sendKept_setTransfer (k : Nat) (x : Transfer) (s : State) : SendKept s (setTransfer k x s) := sendKept_setChord rfl

theorem sendKept_settleTransfer (k : Nat) (s : State) : SendKept s (settleTransfer k s) := by
  unfold settleTransfer
  split
  · exact .refl s
  · split
    · exact .refl s
    · refine SendKept.trans ?_ (sendKept_finish ..)
      exact sendKept_setChord rfl

/-- A chunk whose data was read, or not. -/
theorem sendKept_sendChunk (k c : Nat) (s : State) : SendKept s (sendChunk k c s) := by
  unfold sendChunk
  split
  · exact .refl s
  next x _ =>
    dsimp only
    have hread := sendKept_trustedRead (x.localAddr + c * chunkSize) (chunkLen x.bytes c) s
    have hdata : SendKept s (if x.op = 1 then ((.ok [], s) : Except Nat (List Byte) × State)
        else trustedRead (x.localAddr + c * chunkSize) (chunkLen x.bytes c) s).2 := by
      split
      · exact .refl s
      · exact hread
    generalize (if x.op = 1 then ((.ok [], s) : Except Nat (List Byte) × State)
        else trustedRead (x.localAddr + c * chunkSize) (chunkLen x.bytes c) s) = w at hdata ⊢
    obtain ⟨data, s1⟩ := w
    dsimp only
    split
    · exact hdata.trans (sendKept_setTransfer ..)
    · split
      next hsend => exact (hdata.trans (sendKept_sendPacket hsend)).trans (sendKept_setTransfer ..)
      · refine hdata.trans (SendKept.trans ?_ (sendKept_finish ..))
        exact sendKept_setChord rfl

theorem sendKept_sendOpen (k : Nat) (s : State) : SendKept s (sendOpen k s) := by
  unfold sendOpen
  split
  · exact .refl s
  · exact (SendKept.foldl (fun s c => sendKept_sendChunk k c s) _ s).trans (sendKept_settleTransfer ..)

theorem sendKept_foldSend (k : Nat) (p : Packet) (s : State) : SendKept s (foldSend k p s) := by
  unfold foldSend
  split
  · exact .refl s
  · split
    next hsend => exact (sendKept_sendPacket hsend).trans (sendKept_setChord rfl)
    · refine SendKept.trans ?_ (sendKept_finish ..)
      exact sendKept_setChord rfl

/-- A tree chunk sent again where its link is DOWN. -/
def sendTree (s : State) (e : Nat × Packet) : State :=
  if !(decide ((linkOf s e.1).state = .down)) then s
  else
    match sendPacket e.2 s with
    | some (c, s) => setChord { s.chord with tree := s.chord.tree.map (fun x => if x = e then (c, x.2) else x) } s
    | none => s

theorem sendKept_sendTree (s : State) (e : Nat × Packet) : SendKept s (sendTree s e) := by
  unfold sendTree
  split
  · exact .refl s
  · split
    next hsend => exact (sendKept_sendPacket hsend).trans (sendKept_setChord rfl)
    · exact .refl s

/-- The chunks of a fold that were not refused sent again. -/
def sendFold (s : State) (e : Nat × Fold) : State :=
  (e.2.waiting.filter (fun w => !e.2.busy.contains w.1)).foldl (fun s w => foldSend e.1 w.2 s) s

theorem sendKept_sendFold (s : State) (e : Nat × Fold) : SendKept s (sendFold s e) := by
  unfold sendFold
  exact SendKept.foldl (f := fun s (w : Nat × Packet) => foldSend e.1 w.2 s) (fun s w => sendKept_foldSend e.1 w.2 s) _ s

/-- What is sent again after a link went DOWN. -/
theorem sendKept_resendOver (s : State) : SendKept s (resendOver s) := by
  let s1 := (s.chord.transfers.filter (fun e => (linkOf s e.2.link).state = .down)).foldl (fun s e => sendOpen e.1 s) s
  let s2 := (s1.chord.folds.filter (fun e => e.2.role ≠ 2 && decide ((linkOf s1 e.2.link).state = .down))).foldl sendFold s1
  have h1 : SendKept s s1 := SendKept.foldl (f := fun s (e : Nat × Transfer) => sendOpen e.1 s) (fun s e => sendKept_sendOpen e.1 s) _ s
  have h2 : SendKept s1 s2 := SendKept.foldl sendKept_sendFold _ s1
  have h3 : SendKept s2 (s2.chord.tree.foldl sendTree s2) := SendKept.foldl sendKept_sendTree _ s2
  exact (h1.trans h2).trans h3

end

/-! ### Links that change mode (11 R600) -/

/-- `t` is `s` as in `SendKept`, but for the modes of the links. -/
structure CoreKept (s t : State) : Prop where
  pair : t.pair = s.pair
  rdma : t.rdma = s.rdma
  pins : t.pins = s.pins
  held : t.rings.held = s.rings.held
  done : ∀ r, ∀ c ∈ (ringOf s r).inflight, (∃ st r0 r1, c.phase = .done st r0 r1) → c ∈ (ringOf t r).inflight

/-- A state apart from what a link that changes its state can change: registers, wake queues, records, pins, rings and the links. -/
def downFrame (s : State) : State :=
  { s with regs := [], wake := [], err := {}, pins := {}, rings := {}, chord := { s.chord with links := [] } }

section
variable {s t u : State}

theorem SendKept.core (h : SendKept s t) : CoreKept s t := ⟨h.pair, h.rdma, h.pins, h.held, h.done⟩

theorem CoreKept.trans (h : CoreKept s t) (h' : CoreKept t u) : CoreKept s u :=
  ⟨h'.pair.trans h.pair, h'.rdma.trans h.rdma, h'.pins.trans h.pins, h'.held.trans h.held,
    fun r c hc hdone => h'.done r c (h.done r c hc hdone) hdone⟩

theorem coreKept_setLink (k : Nat) (l : Link) (s : State) : CoreKept s (setLink k l s) := ⟨rfl, rfl, rfl, rfl, fun _ _ hc _ => hc⟩

theorem sendKept_logRecord (queue typ : Nat) (body : List Byte) (s : State) : SendKept s (logRecord queue typ body s) := by
  obtain ⟨regs, wake, h⟩ := logRecord_eq queue typ body s
  rw [h]
  exact ⟨rfl, rfl, rfl, rfl, fun _ => rfl, fun _ _ hc _ => hc⟩

theorem sendKept_writeRecord {r : Rec} (h : r.source ≠ 0x0A05) (s : State) : SendKept s (writeRecord r s) := by
  have hpins := writeRecord_samePins (s := s) h
  obtain ⟨regs, wake, err, pins, heq⟩ := writeRecord_eq r s
  rw [heq] at hpins ⊢
  exact ⟨rfl, rfl, hpins, rfl, fun _ => rfl, fun _ _ hc _ => hc⟩

theorem sendKept_enterLink (k : Nat) (st : LinkState) (s : State) : SendKept s (enterLink k st s) := by
  refine SendKept.trans ?_ (sendKept_logRecord ..)
  exact sendKept_setLink rfl

theorem sendKept_linkTrain (k : Nat) (s : State) : SendKept s (linkTrain k s) := by
  unfold linkTrain
  split
  · exact sendKept_enterLink ..
  · exact .refl s

/-- The end of a BIST whose link goes DOWN. -/
theorem sendKept_endBist (b : Option Nat) (s : State) : SendKept s (match b with | some n => finish n stHwFault 0 0 s | none => s) := by
  cases b with
  | none => exact .refl s
  | some n => exact sendKept_finish ..

theorem sendKept_linkDown (k cause : Nat) (injected : Bool) (s : State) : SendKept s (linkDown k cause injected s) := by
  unfold linkDown
  dsimp only
  split
  · exact .refl s
  · have h1 : SendKept s (setLink k { linkOf s k with cause := cause } s) := sendKept_setLink rfl
    generalize setLink k { linkOf s k with cause := cause } s = s1 at h1 ⊢
    have h2 := h1.trans (sendKept_enterLink k .down s1)
    generalize enterLink k .down s1 = s2 at h2 ⊢
    have h3 := h2.trans (sendKept_bumpField .chdLinkCounts k 48 16 1 s2)
    generalize bumpField s2 .chdLinkCounts k 48 16 1 = s3 at h3 ⊢
    have h4 := h3.trans (sendKept_endBist (linkOf s k).bist s3)
    have hsource : (0x0702 : Nat) ≠ 0x0A05 := by decide
    refine SendKept.trans (h4.trans (sendKept_writeRecord ?_ _)) (sendKept_setLink ?_)
    · exact hsource
    · exact ((h4.trans (sendKept_writeRecord hsource _)).modes k).symm

/-! ### What a link that changes its state leaves -/

theorem downFrame_logRecord (queue typ : Nat) (body : List Byte) (s : State) : downFrame (logRecord queue typ body s) = downFrame s := by
  obtain ⟨regs, wake, h⟩ := logRecord_eq queue typ body s
  rw [h]
  rfl

theorem downFrame_writeRecord (r : Rec) (s : State) : downFrame (writeRecord r s) = downFrame s := by
  obtain ⟨regs, wake, err, pins, h⟩ := writeRecord_eq r s
  rw [h]
  rfl

theorem downFrame_enterLink (k : Nat) (st : LinkState) (s : State) : downFrame (enterLink k st s) = downFrame s :=
  (downFrame_logRecord ..).trans rfl

theorem downFrame_linkDown (k cause : Nat) (injected : Bool) (s : State) : downFrame (linkDown k cause injected s) = downFrame s := by
  unfold linkDown
  dsimp only
  split
  · rfl
  · have hset (l : Link) (t : State) : downFrame (setLink k l t) = downFrame t := rfl
    have hbist (b : Option Nat) (t : State) : downFrame (match b with | some n => finish n stHwFault 0 0 t | none => t) = downFrame t := by
      cases b <;> rfl
    exact (hset ..).trans ((downFrame_writeRecord ..).trans ((hbist ..).trans (downFrame_enterLink k .down _)))

theorem downFrame_switchMode (k : Nat) (b : Bool) (s : State) : downFrame (switchMode k b s) = downFrame s := by
  have htrain (t : State) : downFrame (linkTrain k t) = downFrame t := by
    unfold linkTrain
    split
    · exact downFrame_enterLink ..
    · rfl
  have hset (l : Link) (t : State) : downFrame (setLink k l t) = downFrame t := rfl
  exact (htrain _).trans ((hset _ _).trans (downFrame_linkDown k 6 false s))

theorem Quiet.of_downFrame (h : Quiet s) (ht : downFrame t = downFrame s) : Quiet t := by
  have htransfers : t.chord.transfers = s.chord.transfers := (congrArg (fun u => u.chord.transfers) ht :)
  have hfolds : t.chord.folds = s.chord.folds := (congrArg (fun u => u.chord.folds) ht :)
  have htree : t.chord.tree = s.chord.tree := (congrArg (fun u => u.chord.tree) ht :)
  exact ⟨htransfers.trans h.transfers, hfolds.trans h.folds, htree.trans h.tree⟩

/-- A link that changes its mode. -/
theorem coreKept_switchMode (k : Nat) (b : Bool) (s : State) : CoreKept s (switchMode k b s) :=
  ((sendKept_linkDown k 6 false s).core.trans (coreKept_setLink k _ _)).trans (sendKept_linkTrain k _).core

theorem switchMode_same (k : Nat) (b : Bool) (s : State) : (linkOf (switchMode k b s) k).pairMode = b := by
  refine ((sendKept_linkTrain k _).modes k).trans ?_
  rw [linkOf_setLink_same]

theorem switchMode_ne {j k : Nat} (h : j ≠ k) (b : Bool) (s : State) : (linkOf (switchMode k b s) j).pairMode = (linkOf s j).pairMode := by
  refine ((sendKept_linkTrain k _).modes j).trans ?_
  rw [linkOf_setLink_ne _ _ h]
  exact (sendKept_linkDown k 6 false s).modes j

/-- Both links of the pair that change their mode. -/
theorem coreKept_switchLinks (b : Bool) (s : State) : CoreKept s (switchLinks b s) :=
  ((coreKept_switchMode 10 b s).trans (coreKept_switchMode 11 b _)).trans (sendKept_resendOver _).core

theorem switchLinks_modes (b : Bool) (s : State) :
    (linkOf (switchLinks b s) 10).pairMode = b ∧ (linkOf (switchLinks b s) 11).pairMode = b := by
  have hresend := (sendKept_resendOver (switchMode 11 b (switchMode 10 b s))).modes
  refine ⟨(hresend 10).trans ?_, (hresend 11).trans (switchMode_same 11 b _)⟩
  rw [switchMode_ne (by decide)]
  exact switchMode_same 10 b s

/-- Where nothing is sent again, memory, sectors and heats stay. -/
theorem downFrame_switchLinks (b : Bool) (h : Quiet s) : downFrame (switchLinks b s) = downFrame s := by
  have hmode : downFrame (switchMode 11 b (switchMode 10 b s)) = downFrame s := (downFrame_switchMode ..).trans (downFrame_switchMode ..)
  obtain ⟨htransfers, hfolds, htree⟩ := h.of_downFrame hmode
  unfold switchLinks
  rw [resendOver_idle htransfers hfolds htree]
  exact hmode

/-! ### States of a pair -/

/-- A pair that enters a state. -/
theorem enterPair_eq (st : PairState) (s : State) :
    ∃ regs wake, enterPair st s = { s with pair := { s.pair with state := st }, regs := regs, wake := wake } := by
  unfold enterPair
  split
  next h => exact ⟨s.regs, s.wake, by rw [← h]⟩
  · obtain ⟨regs, wake, hlog⟩ := logRecord_eq (pairQueue s) 0x06 _ (setPair { s.pair with state := st } s)
    rw [hlog]
    exact ⟨_, _, rfl⟩

end

end Sys2Proof.Machine

/-! # Forming, heartbeats and breaking of a pair (O47) -/
namespace Sys2Proof.Machine

section
variable {s t u : State}

/-! ### PAIR_FORM (18 R876-R878) -/

/-- The heartbeat queue pair that PAIR_FORM makes. -/
def heartbeatQp (c : Cmd) : Qp :=
  { sector := 0, kind := 1, port := c.param 25 1, srcIndex := c.param 26 1, sqRing := 64, rqRing := 64, state := 3,
    qkey := heartbeatKey, vlan := c.param 28 2, destMac := sliceBytes c.bytes 30 6, destIp := sliceBytes c.bytes 40 16 }

/-- The pair that PAIR_FORM begins, in the state before. -/
def newPair (c : Cmd) (k : Nat) (p : Pair) : Pair :=
  { p with twin := c.param 24 1, serial := some c.serial, resync := c.param 27 1 = 1, qp := some k }

/-- What PAIR_FORM makes of the state once its fields passed. -/
def pairBegun (c : Cmd) (k : Nat) (s : State) : State :=
  let s1 := switchLinks true (enterPair .forming (setPair (newPair c k s.pair) (setQp k (heartbeatQp c) s)))
  sysSend true (c.param 24 1) (.pairHello (c.param 24 1) s1.rst.straps.pairSide (0x10000 + k)) s1

theorem pairFormBody_forms {c : Cmd} {k : Nat} (htwin : c.param 24 1 < 64) (hport : c.param 25 1 ≤ 7) (hindex : c.param 26 1 ≤ 15)
    (hresync : c.param 27 1 ≤ 1) (hres : c.reserved [(36, 40), (56, 64)] = true) (htray : c.param 24 1 / 4 ≠ pkgNumber s / 4)
    (hmember : (rget s .chdPodMembers).testBit (c.param 24 1) = true) (hnone : s.pair.state = .none) (hcad : s.cad.configured = true)
    (htable : hasTable s 0 = true) (hquota : Table.countIf s.rdma.qps (fun _ q => q.sector = 0) < (sectorOf s 0).qps)
    (hfree : Table.firstFree s.rdma.qps 0 65536 = some k) : pairFormBody c s = .ok (.running (pairBegun c k s)) := by
  have hcreate : createQp 0 (heartbeatQp c) s = some (k, setQp k (heartbeatQp c) s) := by
    unfold createQp
    rw [if_neg (by simp [heartbeatQp]; omega), hfree]
    rfl
  unfold heartbeatQp at hcreate
  unfold pairFormBody
  dsimp only
  rw [need_bind_of (by simp [htwin, hport, hindex, hresync, hres]), need_bind_of (by simp [htray, hmember]),
    need_bind_of (by simp [hnone, hcad]), need_bind_of htable, hcreate]
  simp only [pairBegun, newPair, heartbeatQp, setQp_pair]

/-- The state before the links change their mode. -/
theorem enterPair_setPair (st : PairState) (p : Pair) (s : State) :
    ∃ regs wake, enterPair st (setPair p s) = { s with pair := { p with state := st }, regs := regs, wake := wake } := enterPair_eq ..

/-- What a pair that begins to form leaves. -/
theorem pairBegun_leaves (c : Cmd) (k : Nat) (s : State) :
    (pairBegun c k s).pair = { newPair c k s.pair with state := .forming }
    ∧ (pairBegun c k s).rdma = (setQp k (heartbeatQp c) s).rdma
    ∧ (linkOf (pairBegun c k s) 10).pairMode = true ∧ (linkOf (pairBegun c k s) 11).pairMode = true
    ∧ (Quiet s → (pairBegun c k s).mem = s.mem ∧ (pairBegun c k s).sct = s.sct ∧ (pairBegun c k s).heat = s.heat) := by
  obtain ⟨regs, wake, henter⟩ := enterPair_setPair .forming (newPair c k s.pair) (setQp k (heartbeatQp c) s)
  unfold pairBegun
  rw [henter]
  generalize hv : ({ setQp k (heartbeatQp c) s with pair := { newPair c k s.pair with state := .forming }, regs := regs, wake := wake } : State) = v
  have hcore := coreKept_switchLinks true v
  obtain ⟨h10, h11⟩ := switchLinks_modes true v
  have hframe := downFrame_switchLinks (s := v) true
  generalize switchLinks true v = w at hcore h10 h11 hframe ⊢
  have hsend := sendKept_sysSend true (c.param 24 1) (.pairHello (c.param 24 1) w.rst.straps.pairSide (0x10000 + k)) w
  have hlink := linkFrame_sysSend w true (c.param 24 1) (.pairHello (c.param 24 1) w.rst.straps.pairSide (0x10000 + k))
  refine ⟨?_, ?_, (hsend.modes 10).trans h10, (hsend.modes 11).trans h11, fun hquiet => ?_⟩
  · rw [hsend.pair, hcore.pair, ← hv]
  · rw [hsend.rdma, hcore.rdma, ← hv]
  · have hdown := hframe (by rw [← hv]; exact ⟨hquiet.transfers, hquiet.folds, hquiet.tree⟩)
    have hmem : w.mem = v.mem := (congrArg State.mem hdown :)
    have hsct : w.sct = v.sct := (congrArg State.sct hdown :)
    have hheat : w.heat = v.heat := (congrArg State.heat hdown :)
    refine ⟨(congrArg State.mem hlink :).trans (hmem.trans ?_), (congrArg State.sct hlink :).trans (hsct.trans ?_),
      (congrArg State.heat hlink :).trans (hheat.trans ?_)⟩ <;> rw [← hv] <;> rfl

/-! ### The end of a pair (R878, R902) -/

/-- What is left of a pair that ended, before its links change their mode: its queue pair and what waited for its links are gone. -/
def unpaired (s : State) : State :=
  let s := match s.pair.qp with
    | some k => setRdma { s.rdma with qps := Table.drop s.rdma.qps k } s
    | none => s
  let s := setChord { s.chord with unsent := s.chord.unsent.filter (fun e => !e.1) } s
  driveFence false (setPair {} s)

theorem unpaired_pair (s : State) : (unpaired s).pair = {} := by
  unfold unpaired
  cases s.pair.qp <;> rfl

theorem unpaired_qps (k : Nat) (s : State) :
    Table.find (unpaired s).rdma.qps k = if s.pair.qp = some k then none else Table.find s.rdma.qps k := by
  unfold unpaired
  cases s.pair.qp with
  | none => rfl
  | some j =>
    refine (Table.find_drop s.rdma.qps j k).trans ?_
    by_cases h : k = j
    · simp [h]
    · rw [if_neg h, if_neg (fun hj => h (Option.some.inj hj).symm)]

theorem unpaired_pins (s : State) : (unpaired s).pins = { s.pins with fenceReq := false } := by
  unfold unpaired
  cases s.pair.qp <;> rfl

theorem unpaired_rings (s : State) : (unpaired s).rings = s.rings := by
  unfold unpaired
  cases s.pair.qp <;> rfl

theorem unpaired_mem (s : State) : (unpaired s).mem = s.mem := by
  unfold unpaired
  cases s.pair.qp <;> rfl

theorem unpaired_sct (s : State) : (unpaired s).sct = s.sct := by
  unfold unpaired
  cases s.pair.qp <;> rfl

theorem unpaired_chord (s : State) : (unpaired s).chord = { s.chord with unsent := s.chord.unsent.filter (fun e => !e.1) } := by
  unfold unpaired
  cases s.pair.qp <;> rfl

theorem Quiet.unpaired (h : Quiet s) : Quiet (unpaired s) := by
  refine ⟨?_, ?_, ?_⟩ <;> rw [unpaired_chord]
  · exact h.transfers
  · exact h.folds
  · exact h.tree

/-- Moves and a detach of a package without slots that end leave their commands done. -/
theorem dropMoves_slotless (hslots : s.heat.slots = []) : ∃ rings,
    dropMoves (dropOpening s) = { s with rings := rings, pair := { s.pair with moves := [], asked := [], serial := none } }
    ∧ ∀ r, ∀ c ∈ (ringOf s r).inflight, (∃ st r0 r1, c.phase = .done st r0 r1) → c ∈ (ringOf { s with rings := rings } r).inflight := by
  have hopening : dropOpening s = s := by simp [dropOpening, hslots]
  have hdone (r : Nat) (c : Cmd) (hc : c ∈ (ringOf s r).inflight) (hd : ∃ st r0 r1, c.phase = .done st r0 r1) :=
    done_mem_finishAll_of_done (s := s) hd stBadState 0 0 (s.pair.moves.map Prod.fst ++ s.pair.serial.toList) hc
  obtain ⟨rings, hmoves⟩ := finishAll_eq (s.pair.moves.map Prod.fst ++ s.pair.serial.toList) stBadState 0 0 s
  rw [hmoves] at hdone
  refine ⟨rings, ?_, hdone⟩
  rw [hopening, dropMoves]
  simp only [hmoves]
  rfl

/-- Without slots a pair ends with its command, its links and its queue pair. -/
theorem endPair_slotless (hslots : s.heat.slots = []) : ∃ regs wake rings,
    endPair s = switchLinks false (unpaired { s with
      rings := rings, pair := { s.pair with state := .none, moves := [], asked := [], serial := none }, regs := regs, wake := wake })
    ∧ ∀ r, ∀ c ∈ (ringOf s r).inflight, (∃ st r0 r1, c.phase = .done st r0 r1) → c ∈ (ringOf { s with rings := rings } r).inflight := by
  obtain ⟨rings, hmoves, hdone⟩ := dropMoves_slotless hslots
  obtain ⟨regs, wake, henter⟩ := enterPair_eq .none (dropMoves (dropOpening s))
  have hheat : (dropMoves (dropOpening s)).heat.slots = [] := by
    rw [hmoves]
    exact hslots
  refine ⟨regs, wake, rings, ?_, hdone⟩
  have hstroke : strokeSlots (dropMoves (dropOpening s)) = [] := by simp [strokeSlots, hheat]
  have hshadow : shadowSlots (dropMoves (dropOpening s)) = [] := by simp [shadowSlots, hheat]
  have hunmirror : (strokeSlots (dropMoves (dropOpening s))).foldl (fun s k => unmirror k s) (dropMoves (dropOpening s))
      = dropMoves (dropOpening s) := by
    rw [hstroke]
    rfl
  have hfree : (shadowSlots (dropMoves (dropOpening s))).foldl (fun s k => freeSlot k s) (dropMoves (dropOpening s))
      = dropMoves (dropOpening s) := by
    rw [hshadow]
    rfl
  unfold endPair
  simp only [hunmirror, hfree]
  rw [henter, hmoves]
  rfl

/-- What the end of a pair without slots leaves. -/
theorem endPair_leaves (hslots : s.heat.slots = []) :
    (endPair s).pair = {} ∧ (endPair s).pins.fenceReq = false
    ∧ (linkOf (endPair s) 10).pairMode = false ∧ (linkOf (endPair s) 11).pairMode = false
    ∧ (∀ k, Table.find (endPair s).rdma.qps k = if s.pair.qp = some k then none else Table.find s.rdma.qps k)
    ∧ (∀ r, ∀ c ∈ (ringOf s r).inflight, (∃ st r0 r1, c.phase = .done st r0 r1) → c ∈ (ringOf (endPair s) r).inflight)
    ∧ (Quiet s → (endPair s).mem = s.mem ∧ (endPair s).sct = s.sct) := by
  obtain ⟨regs, wake, rings, hend, hdone⟩ := endPair_slotless hslots
  rw [hend]
  generalize hv : ({ s with rings := rings, pair := { s.pair with state := .none, moves := [], asked := [], serial := none },
                            regs := regs, wake := wake } : State) = v
  have hvs : v.rings = rings ∧ v.pair.qp = s.pair.qp ∧ v.rdma = s.rdma ∧ v.mem = s.mem ∧ v.sct = s.sct ∧ (Quiet s → Quiet v) := by
    rw [← hv]
    exact ⟨rfl, rfl, rfl, rfl, rfl, fun h => ⟨h.transfers, h.folds, h.tree⟩⟩
  obtain ⟨hrings, hqp, hrdma, hmem, hsct, hquiet⟩ := hvs
  have hcore := coreKept_switchLinks false (unpaired v)
  obtain ⟨h10, h11⟩ := switchLinks_modes false (unpaired v)
  have hframe := downFrame_switchLinks (s := unpaired v) false
  generalize switchLinks false (unpaired v) = w at hcore h10 h11 hframe ⊢
  refine ⟨hcore.pair.trans (unpaired_pair v), ?_, h10, h11, fun k => ?_, fun r c hc hd => ?_, fun hq => ?_⟩
  · rw [hcore.pins, unpaired_pins]
  · rw [hcore.rdma, unpaired_qps, hqp, hrdma]
  · refine hcore.done r c ?_ hd
    have hmoved := hdone r c hc hd
    rw [ringOf, unpaired_rings, hrings]
    exact hmoved
  · have hdown := hframe (hquiet hq).unpaired
    have hwmem : w.mem = (unpaired v).mem := (congrArg State.mem hdown :)
    have hwsct : w.sct = (unpaired v).sct := (congrArg State.sct hdown :)
    exact ⟨hwmem.trans ((unpaired_mem v).trans hmem), hwsct.trans ((unpaired_sct v).trans hsct)⟩

/-! ### The twin's offer, and the end of waiting (R878-R880) -/

/-- An offer of opposite side that arrives while FORMING. -/
theorem takeHello_forms {side : Bool} {qpn n : Nat} (hforming : s.pair.state = .forming) (hserial : s.pair.serial = some n)
    (hside : side ≠ s.rst.straps.pairSide) (hresync : s.pair.resync = false) : ∃ regs wake,
    takeHello (pkgNumber s) side qpn s
      = { finish n 0 0 0 s with pair := { s.pair with state := .formed, twinQpn := qpn, serial := none }, regs := regs, wake := wake } := by
  obtain ⟨regs, wake, henter⟩ := enterPair_setPair .formed { s.pair with twinQpn := qpn } s
  refine ⟨regs, wake, ?_⟩
  have hend : endForm stOk (enterPair .formed (setPair { s.pair with twinQpn := qpn } s))
      = { finish n 0 0 0 s with pair := { s.pair with state := .formed, twinQpn := qpn, serial := none }, regs := regs, wake := wake } := by
    rw [henter]
    simp only [endForm, hserial, if_true]
    rfl
  unfold takeHello
  rw [if_neg (by simp [hforming]), if_neg hside]
  simp only [hend]
  rw [if_neg (by simp [hresync])]

/-- FORM_WAIT_EXPIRY while FORMING. -/
theorem formWaitExpiry_ends {n : Nat} (hforming : s.pair.state = .forming) (hserial : s.pair.serial = some n) :
    formWaitExpiry s = endPair (finish n 0x0403 0 0 s) := by
  unfold formWaitExpiry endForm
  rw [if_pos hforming]
  simp only [hserial]
  rw [if_neg (by decide)]

/-- PAIR_BREAK of a package without slots. -/
theorem pairBreakBody_ends {c : Cmd} (hres : c.reserved [(24, 64)] = true) (hslots : s.heat.slots = []) :
    pairBreakBody c s = .ok (.done stOk 0 0
      (if s.pair.state = .none then s else if s.pair.state = .forming then endForm stBadState s else endPair s)) := by
  unfold pairBreakBody
  rw [need_bind_of hres, need_bind_of (by simp [strokeSlots, shadowSlots, hslots])]

/-! ### Heartbeats (R882-R884; 11 R599) -/

/-- A flit that opens leaves everything but its link. -/
theorem linkFrame_otherFlit {c kind : Nat} {flit x : List Byte} (h : otherFlit c kind flit s = some (x, u)) : linkFrame u = linkFrame s := by
  unfold otherFlit at h
  dsimp only at h
  split at h
  · simp at h
  · obtain ⟨y, -, heq⟩ := Option.map_eq_some_iff.mp h
    obtain ⟨-, rfl⟩ := Prod.mk.inj heq
    exact (linkFrame_pushData _ _ _).trans rfl

/-- A heartbeat where no pair is alive. -/
theorem heardTwin_dead (viaLink : Bool) (st : Nat) (h : pairLive s = false) : heardTwin viaLink st s = s := by
  unfold heardTwin
  rw [if_pos (by simp [h])]

/-- The pair with a heartbeat of its twin noted. -/
def heard (viaLink : Bool) (p : Pair) : Pair := if viaLink then { p with heardLink := true } else { p with heardEth := true }

/-- A heartbeat of the twin while FORMED, where no slot is stopped. -/
theorem heardTwin_formed (viaLink : Bool) {st : Nat} (hslots : s.heat.slots = []) (hst : st ≠ 7) (hformed : s.pair.state = .formed) :
    heardTwin viaLink st s = { s with pair := heard viaLink s.pair } := by
  have hlive : pairLive s = true := by simp [pairLive, pairFormed, hformed]
  unfold heardTwin heard
  cases viaLink <;> simp [hlive, hst, setPair, stoppedSlots, hslots, hformed]

/-- A heartbeat over the pair link that ends SUSPECT. -/
theorem heardTwin_suspect {st : Nat} (hslots : s.heat.slots = []) (hst : st ≠ 7) (hsuspect : s.pair.state = .suspect) :
    heardTwin true st s = enterPair .formed { s with pair := heard true s.pair } := by
  have hlive : pairLive s = true := by simp [pairLive, pairFormed, hsuspect]
  unfold heardTwin heard
  simp [hlive, hst, setPair, stoppedSlots, hslots, hsuspect, relink]

theorem enterPair_state (st : PairState) (s : State) : (enterPair st s).pair = { s.pair with state := st } := by
  obtain ⟨regs, wake, h⟩ := enterPair_eq st s
  rw [h]

/-! ### A heartbeat over Ethernet (R882) -/

theorem sendFrame_qps (f : RoceFrame) (s : State) : (sendFrame f s).rdma.qps = s.rdma.qps := by
  unfold sendFrame
  dsimp only
  split
  · rfl
  · split <;> rfl

/-- Congestion noted at a queue pair that exists leaves it, and changes frames, queue pairs and registers alone. -/
theorem noteCe_eq {k now : Nat} {p : RocePacket} (h : Table.find s.rdma.qps k ≠ none) :
    ∃ out rdma regs, noteCe k p now s = { s with out := out, rdma := rdma, regs := regs } ∧ Table.find rdma.qps k ≠ none := by
  unfold noteCe
  split
  · exact ⟨_, _, _, rfl, h⟩
  next q _ =>
    dsimp only
    split
    · exact ⟨_, _, _, rfl, h⟩
    · generalize hv : setQp k { q with lastCnp := some now } s = v
      have hkeep : (sendOn k q { dest := if q.kind = 1 then p.source else 0, op := .cnp } v).rdma.qps = v.rdma.qps := sendFrame_qps _ v
      have hsend : ∃ out rdma, sendOn k q { dest := if q.kind = 1 then p.source else 0, op := .cnp } v = { v with out := out, rdma := rdma } :=
        sendFrame_eq _ v
      obtain ⟨out, rdma, hsend⟩ := hsend
      rw [hsend] at hkeep ⊢
      refine ⟨out, rdma, (bump { v with out := out, rdma := rdma } .rdmaCnpSent).regs, ?_, ?_⟩
      · rw [← hv]
        rfl
      · rw [show rdma.qps = v.rdma.qps from hkeep, ← hv, show (setQp k { q with lastCnp := some now } s).rdma.qps
          = Table.put s.rdma.qps k { q with lastCnp := some now } from rfl, Table.find_put_same]
        simp

/-- A heartbeat of the twin to the queue pair of a pair that is FORMED. -/
theorem pairHeartbeat_heard {p : RocePacket} {now k : Nat} {q : Qp} (hslots : s.heat.slots = []) (hformed : s.pair.state = .formed)
    (hqp : s.pair.qp = some k) (hop : p.op = .send true true none) (hvalid : p.valid = true) (hfind : qpFind s p.dest = some (k, q))
    (hstate : q.state = 2 ∨ q.state = 3 ∨ q.state = 4) (hkey : p.qkey = heartbeatKey) (hlen : p.payload.length = 16)
    (htwin : fieldBE p.payload 8 1 = s.pair.twin) (hst : fieldBE p.payload 9 1 ≠ 7) : ∃ out rdma regs,
    pairHeartbeat p now s = { s with out := out, rdma := rdma, regs := regs, pair := { s.pair with heardEth := true } } := by
  have hexists : Table.find s.rdma.qps k ≠ none := by
    unfold qpFind at hfind
    obtain ⟨j, -, hj⟩ := Option.bind_eq_some_iff.mp hfind
    obtain ⟨q', hq', heq⟩ := Option.map_eq_some_iff.mp hj
    obtain ⟨rfl, -⟩ := Prod.mk.inj heq
    simp [hq']
  obtain ⟨out, rdma, regs, hnote, hstay⟩ :=
    noteCe_eq (s := bumpField s .rdmaCacheMisses 0 0 32 p.misses) (k := k) (now := now) (p := p) hexists
  obtain ⟨q', hq'⟩ := Option.ne_none_iff_exists'.mp hstay
  have hlive : q.state ≠ 0 ∧ (decide (q.state = 2) || decide (q.state = 3) || decide (q.state = 4)) = true := by
    obtain h | h | h := hstate <;> simp [h]
  have hbeat := heardTwin_formed (s := noteCe k p now (bumpField s .rdmaCacheMisses 0 0 32 p.misses)) false (by rw [hnote]; exact hslots) hst
    (by rw [hnote]; exact hformed)
  have hpair : (noteCe k p now (bumpField s .rdmaCacheMisses 0 0 32 p.misses)).pair = s.pair := by rw [hnote]; rfl
  have hqps : Table.find (noteCe k p now (bumpField s .rdmaCacheMisses 0 0 32 p.misses)).rdma.qps k = some q' := by rw [hnote]; exact hq'
  refine ⟨out, rdma, regs, ?_⟩
  unfold pairHeartbeat inboundPacket
  simp only [hop, hvalid, Bool.not_true, Bool.false_eq_true, if_false, hfind, if_neg hlive.1, hlive.2, if_true, hqps]
  rw [if_neg (by simp [hpair, hqp, hkey, hlen, htwin]), hbeat, hnote]
  rfl

/-! ### Stroke boundaries (02 R56; 18 R882, R883) -/

/-- A state apart from what a heartbeat that is sent can change. -/
def beatFrame (s : State) : State := { s with out := [], rdma := {}, chord := {} }

theorem beatFrame_sendHeartbeat (st : Nat) (s : State) : beatFrame (sendHeartbeat st s) = beatFrame s := by
  have hflits : ∀ (l : List Nat) (payload : List Byte) (t : State), beatFrame (l.foldl (fun s c => emitFlit c 3 0 payload [] s) t) = beatFrame t := by
    intro l payload
    induction l with
    | nil => exact fun _ => rfl
    | cons c l ih => exact fun t => (ih _).trans rfl
  unfold sendHeartbeat
  dsimp only
  split
  · exact hflits ..
  · split
    · exact hflits ..
    · obtain ⟨out, rdma, h⟩ := sendFrame_eq _ _
      rw [h]
      exact hflits ..

/-- The counts of a live pair after a stroke boundary. -/
def missed (p : Pair) : Pair :=
  { p with heardLink := false, heardEth := false, misses := if p.heardLink then 0 else p.misses + 1,
           ethMisses := if p.heardEth then 0 else p.ethMisses + 1 }

/-- A stroke boundary of a live pair counts the heartbeats missed, and leaves cadence, memory and sectors. -/
theorem pairBoundary_live (h : pairLive s = true) : (pairBoundary s).pair = missed s.pair ∧ (pairBoundary s).cad = s.cad
    ∧ (pairBoundary s).mem = s.mem ∧ (pairBoundary s).sct = s.sct := by
  have hcount : ∃ regs, (if s.pair.heardLink then s else bump s .pairHbMissed) = { s with regs := regs } := by
    split
    · exact ⟨_, rfl⟩
    · exact ⟨_, rfl⟩
  obtain ⟨regs, hcount⟩ := hcount
  have hbeat (st : Nat) := beatFrame_sendHeartbeat st { s with regs := regs, pair := missed s.pair }
  have hsame : ∃ st, pairBoundary s = sendHeartbeat st { s with regs := regs, pair := missed s.pair } := by
    refine ⟨pairCode s.pair.state, ?_⟩
    unfold pairBoundary
    rw [if_neg (by simp [h])]
    simp only [hcount]
    rfl
  obtain ⟨st, hsame⟩ := hsame
  have hframe := hbeat st
  rw [hsame]
  generalize sendHeartbeat st { s with regs := regs, pair := missed s.pair } = w at hframe ⊢
  exact ⟨(congrArg State.pair hframe :), (congrArg State.cad hframe :), (congrArg State.mem hframe :), (congrArg State.sct hframe :)⟩

/-- A stroke boundary without marks raises the stroke count and the local time alone. -/
theorem strokeBoundary_rises {now : Nat} (hconf : s.cad.configured = true) (horigin : s.cad.origin ≤ now) (hrise : s.cad.stroke < strokeAt s.cad now)
    (hhold : s.cad.stepHold = none) (hmarks : s.cad.marks = []) :
    strokeBoundary now s = { s with cad := { s.cad with
      timeNs := max now s.cad.timeNs, stroke := strokeAt s.cad now, stepHold := none, preOrigin := false } } := by
  have hv : strokeAt (setCad { s.cad with timeNs := max now s.cad.timeNs } s).cad now = strokeAt s.cad now := rfl
  unfold strokeBoundary
  simp only [hv]
  rw [if_neg (by simp [setCad, hconf, horigin]), if_neg (by simp [setCad, hrise, hhold])]
  unfold takeMarks setCad
  simp [hmarks]

/-! ### The statements of O47 -/

/-- PAIR_FORM. -/
theorem pairForm_forms {ring k : Nat} {c : Cmd} (hbegins : Begins s ring 0x0C01 c)
    (hbody : pairFormBody c s = .ok (.running (pairBegun c k s))) :
    ∃ t q, exec (.pairForm ring) s = .next (heatRow s (setPhase c.serial .running t))
      ∧ t.pair = { s.pair with state := .forming, twin := c.param 24 1, serial := some c.serial, resync := decide (c.param 27 1 = 1),
                               qp := some k }
      ∧ Table.find t.rdma.qps k = some q ∧ q.kind = 1 ∧ q.state = 3 ∧ q.port = c.param 25 1 ∧ q.qkey = heartbeatKey
      ∧ (∀ j, j ≠ k → Table.find t.rdma.qps j = Table.find s.rdma.qps j)
      ∧ (linkOf t 10).pairMode = true ∧ (linkOf t 11).pairMode = true
      ∧ (s.chord.transfers = [] → s.chord.folds = [] → s.chord.tree = [] → t.mem = s.mem ∧ t.sct = s.sct ∧ t.heat = s.heat) := by
  obtain ⟨hpair, hrdma, h10, h11, hstill⟩ := pairBegun_leaves c k s
  refine ⟨pairBegun c k s, heartbeatQp c, congrArg (fun t => Host.Outcome.next (heatRow s t)) (beginCommand_runs hbegins hbody), hpair, ?_, rfl, rfl,
    rfl, rfl, fun j hj => ?_, h10, h11, fun ht hf hr => hstill ⟨ht, hf, hr⟩⟩
  · rw [hrdma]
    exact Table.find_put_same _ _ _
  · rw [hrdma]
    exact Table.find_put_ne _ _ hj

/-- SYSTEM with an offer. -/
theorem hello_forms {u : State} {side : Bool} {qpn n : Nat} (hforming : u.pair.state = .forming) (hserial : u.pair.serial = some n)
    (hside : side ≠ u.rst.straps.pairSide) (hresync : u.pair.resync = false) :
    ∃ t, takeSys [] (.pairHello (pkgNumber u) side qpn) u = t
      ∧ t.pair = { u.pair with state := .formed, twinQpn := qpn, serial := none }
      ∧ (∀ r, ∀ c ∈ (ringOf u r).inflight, c.serial = n → c.phase = .running →
          { c with phase := .done 0 0 0 } ∈ (ringOf t r).inflight) ∧ t.mem = u.mem ∧ t.sct = u.sct := by
  obtain ⟨regs, wake, hello⟩ := takeHello_forms (qpn := qpn) hforming hserial hside hresync
  exact ⟨_, hello, rfl, fun r c hc hn hrun => done_mem_finish hc hrun hn 0 0 0, rfl, rfl⟩

/-- FORM_WAIT_EXPIRY. -/
theorem formWait_leaves {n : Nat} (hforming : s.pair.state = .forming) (hserial : s.pair.serial = some n) (hslots : s.heat.slots = []) :
    ∃ t, exec .formWaitExpiry s = .next (heatRow s t) ∧ t.pair = {} ∧ (linkOf t 10).pairMode = false ∧ (linkOf t 11).pairMode = false
      ∧ (∀ r, ∀ c ∈ (ringOf s r).inflight, c.serial = n → c.phase = .running →
          { c with phase := .done 0x0403 0 0 } ∈ (ringOf t r).inflight)
      ∧ (s.chord.transfers = [] → s.chord.folds = [] → s.chord.tree = [] → t.mem = s.mem ∧ t.sct = s.sct) := by
  obtain ⟨hpair, -, h10, h11, -, hdone, hstill⟩ := endPair_leaves (s := finish n 0x0403 0 0 s) hslots
  refine ⟨_, congrArg (fun t => Host.Outcome.next (heatRow s t)) (formWaitExpiry_ends hforming hserial), hpair, h10, h11,
    fun r c hc hn hrun => ?_, fun ht hf hr => hstill ⟨ht, hf, hr⟩⟩
  exact hdone r _ (done_mem_finish hc hrun hn 0x0403 0 0) ⟨_, _, _, rfl⟩

/-- HEARTBEAT. -/
theorem heartbeat_row (s : State) (link : Nat) (flit : List Byte) (hslots : s.heat.slots = []) :
    match otherFlit link 3 flit s with
    | none => exec (.heartbeat link flit) s = .next (heatRow s s)
    | some (payload, u) =>
      ((linkOf u link).pairMode = false ∨ pairLive u = false → exec (.heartbeat link flit) s = .next (heatRow s u))
      ∧ ((linkOf u link).pairMode = true → fieldLE payload 8 1 ≠ 7 →
        (u.pair.state = .formed → exec (.heartbeat link flit) s = .next (heatRow s { u with pair := { u.pair with heardLink := true } }))
        ∧ (u.pair.state = .suspect →
            exec (.heartbeat link flit) s
              = .next (heatRow s (enterPair .formed { u with pair := { u.pair with heardLink := true } }))
            ∧ (enterPair .formed { u with pair := { u.pair with heardLink := true } }).pair.state = .formed)) := by
  have hrow {t : State} (h : heartbeatFlit link flit s = t) : exec (.heartbeat link flit) s = .next (heatRow s t) :=
    congrArg (fun t => Host.Outcome.next (heatRow s t)) h
  cases hflit : otherFlit link 3 flit s with
  | none => exact hrow (by rw [heartbeatFlit, hflit])
  | some x =>
    obtain ⟨payload, u⟩ := x
    have hu : u.heat.slots = [] := by
      have hheat : u.heat = s.heat := (congrArg State.heat (linkFrame_otherFlit hflit) :)
      rw [hheat, hslots]
    have hbeat : heartbeatFlit link flit s = if (linkOf u link).pairMode then heardTwin true (fieldLE payload 8 1) u else u := by
      simp only [heartbeatFlit, hflit]
    refine ⟨fun hdead => hrow ?_, fun hmode hst => ⟨fun hformed => hrow ?_, fun hsuspect => ⟨hrow ?_, ?_⟩⟩⟩
    · rw [hbeat]
      split
      case isTrue hmode => exact heardTwin_dead true _ (hdead.resolve_left (by simp [hmode]))
      case isFalse => rfl
    · rw [hbeat, if_pos hmode]
      exact heardTwin_formed true hu hst hformed
    · rw [hbeat, if_pos hmode]
      exact heardTwin_suspect hu hst hsuspect
    · rw [enterPair_state]

/-- STROKE_BOUNDARY. -/
theorem strokeBoundary_row {now : Nat} (hconf : s.cad.configured = true) (horigin : s.cad.origin ≤ now)
    (hrise : s.cad.stroke < strokeAt s.cad now) (hhold : s.cad.stepHold = none) (hmarks : s.cad.marks = []) :
    ∃ t, exec (.strokeBoundary now) s = .next t ∧ t.cad.stroke = strokeAt s.cad now ∧ t.cad.timeNs = max now s.cad.timeNs
      ∧ t.cad.marks = [] ∧ t.mem = s.mem ∧ t.sct = s.sct
      ∧ (pairLive s = false → t.pair = s.pair) ∧ (pairLive s = true → t.pair = missed s.pair) := by
  have hrow : exec (.strokeBoundary now) s = .next (pairBoundary (strokeBoundary now s)) := by
    refine (show exec (.strokeBoundary now) s = execStrokeBoundary now s from rfl).trans ?_
    unfold execStrokeBoundary
    rw [strokeBoundary_rises hconf horigin hrise hhold hmarks]
    exact congrArg Host.Outcome.next (if_pos hrise)
  refine ⟨_, hrow, ?_⟩
  rw [strokeBoundary_rises hconf horigin hrise hhold hmarks]
  generalize hv : ({ s with cad := { s.cad with
      timeNs := max now s.cad.timeNs, stroke := strokeAt s.cad now, stepHold := none, preOrigin := false } } : State) = v
  have hcad : v.cad.stroke = strokeAt s.cad now ∧ v.cad.timeNs = max now s.cad.timeNs ∧ v.cad.marks = [] := by
    rw [← hv]
    exact ⟨rfl, rfl, hmarks⟩
  have hrest : v.mem = s.mem ∧ v.sct = s.sct ∧ v.pair = s.pair := by
    rw [← hv]
    exact ⟨rfl, rfl, rfl⟩
  have hlive : pairLive v = pairLive s := by
    unfold pairLive pairFormed
    rw [hrest.2.2]
  obtain ⟨hstroke, htime, hmarks'⟩ := hcad
  obtain ⟨hmem, hsct, hpair⟩ := hrest
  cases hl : pairLive s with
  | false =>
    have hidle : pairBoundary v = v := by
      unfold pairBoundary
      rw [if_pos (by simp [hlive, hl])]
    rw [hidle]
    exact ⟨hstroke, htime, hmarks', hmem, hsct, fun _ => hpair, fun h => by simp at h⟩
  | true =>
    obtain ⟨hp, hc, hm, hs⟩ := pairBoundary_live (hlive.trans hl)
    rw [hp, hc, hm, hs]
    exact ⟨hstroke, htime, hmarks', hmem, hsct, fun h => by simp at h, fun _ => by rw [hpair]⟩

/-- Settles O47: what the rows that form, keep alive and break a pair do. -/
theorem pairForming : Obligations.PairForming := by
  unfold Obligations.PairForming
  refine ⟨?_, ?_, ?_, ?_, ?_, ?_, ?_⟩
  · intro s ring c k hbegins htwin hport hindex hresync hres htray hmember hnone hcad htable hquota hfree
    exact pairForm_forms hbegins (pairFormBody_forms htwin hport hindex hresync hres htray hmember hnone hcad htable hquota hfree)
  · intro s link msg
    have hrow {t : State} (h : packetRow link 8 [] (fun _ s => takeSys [] msg s) s = t) : exec (.system link msg []) s = .next (pairRow s t) :=
      congrArg (fun t => Host.Outcome.next (pairRow s t)) h
    cases htake : takePacket link 8 [] s with
    | none => exact hrow (by rw [packetRow, htake])
    | some x =>
      obtain ⟨p, u⟩ := x
      refine ⟨fun hpkg => hrow (packetRow_elsewhere htake hpkg), fun hpkg => ⟨?_, ?_⟩⟩
      · rintro failed succ heat rfl
        exact hrow (packetRow_here htake hpkg)
      · rintro side qpn n rfl hforming hserial hside hresync
        obtain ⟨t, hello, hpair, hdone, hmem, hsct⟩ := hello_forms (qpn := qpn) hforming hserial hside hresync
        exact ⟨t, hrow ((packetRow_here htake hpkg).trans hello), hpair, hdone, hmem, hsct⟩
  · intro s n hforming hserial hslots _
    exact formWait_leaves hforming hserial hslots
  · intro s ring c hbegins hres hslots
    have hrow {t : State} (h : pairBreakBody c s = .ok (.done stOk 0 0 t)) : exec (.pairBreak ring) s = .next (heatRow s (okWith c 0 0 t)) :=
      congrArg (fun t => Host.Outcome.next (heatRow s t)) (beginCommand_okWith hbegins h)
    have hbody := pairBreakBody_ends hres hslots
    refine ⟨fun hnone => hrow ?_, fun hsome hwait _ _ => ?_⟩
    · rw [hbody, if_pos hnone]
    · obtain ⟨hpair, hpins, h10, h11, hqps, -, hstill⟩ := endPair_leaves hslots
      refine ⟨endPair s, hrow ?_, hpair, hpins, h10, h11, hqps, fun ht hf hr => hstill ⟨ht, hf, hr⟩⟩
      rw [hbody, if_neg hsome, if_neg hwait]
  · intro s link flit hslots
    exact heartbeat_row s link flit hslots
  · intro s p now k q hslots hformed hqp hop hvalid hfind hstate hkey hlen htwin hst
    obtain ⟨out, rdma, regs, hbeat⟩ := pairHeartbeat_heard (now := now) hslots hformed hqp hop hvalid hfind hstate hkey hlen htwin hst
    exact ⟨_, congrArg (fun t => Host.Outcome.next (heatRow s t)) hbeat, rfl, rfl, rfl, rfl, rfl⟩
  · intro s now hconf horigin hrise hhold hmarks
    exact strokeBoundary_row hconf horigin hrise hhold hmarks

end

end Sys2Proof.Machine

/-! # Silence, fencing, takeover, handover and detaching (O48) -/
namespace Sys2Proof.Machine

/-! ### Slots changed together -/

/-- The slots of a list changed by a function. -/
def touched (ks : List Nat) (f : HeatSlot → HeatSlot) (l : Table HeatSlot) : Table HeatSlot :=
  l.map (fun e => if e.1 ∈ ks then (e.1, f e.2) else e)

section
variable {s t u : State} {f : HeatSlot → HeatSlot}

theorem touched_nil (f : HeatSlot → HeatSlot) (l : Table HeatSlot) : touched [] f l = l := by simp [touched]

/-- A change that is made twice where a slot is named twice is made once. -/
theorem touched_change (hf : ∀ x, f (f x) = f x) (k : Nat) (ks : List Nat) (l : Table HeatSlot) :
    touched ks f (Table.change l k f) = touched (k :: ks) f l := by
  unfold touched Table.change
  rw [List.map_map]
  refine List.map_congr_left fun e _ => ?_
  by_cases hk : e.1 = k
  · by_cases hin : k ∈ ks <;> simp [hk, hin, hf]
  · simp [hk]

/-- Slots that are changed in turn. -/
theorem foldl_changeSlot (hf : ∀ x, f (f x) = f x) (ks : List Nat) (s : State) :
    ks.foldl (fun s k => changeSlot k f s) s = { s with heat := { s.heat with slots := touched ks f s.heat.slots } } := by
  induction ks generalizing s with
  | nil => rw [List.foldl_nil, touched_nil]
  | cons k ks ih =>
    rw [List.foldl_cons, ih, ← touched_change hf]
    rfl

theorem find_touched (ks : List Nat) (f : HeatSlot → HeatSlot) (l : Table HeatSlot) (j : Nat) :
    Table.find (touched ks f l) j = if j ∈ ks then (Table.find l j).map f else Table.find l j := by
  induction l with
  | nil => simp [touched]
  | cons e l ih =>
    have hcons : touched ks f (e :: l) = (if e.1 ∈ ks then (e.1, f e.2) else e) :: touched ks f l := rfl
    rw [hcons]
    by_cases hj : e.1 = j
    · by_cases hin : j ∈ ks <;> simp [Table.find, hj, hin]
    · by_cases hin : e.1 ∈ ks <;> simp [Table.find, hj, hin, ih]

/-- A change that keeps the role keeps the shadow slots. -/
theorem filter_touched (hrole : ∀ x, (f x).role = x.role) (ks : List Nat) (l : Table HeatSlot) :
    ((touched ks f l).filter (fun e => e.2.role = 2)).map Prod.fst = (l.filter (fun e => e.2.role = 2)).map Prod.fst := by
  induction l with
  | nil => rfl
  | cons e l ih =>
    have hcons : touched ks f (e :: l) = (if e.1 ∈ ks then (e.1, f e.2) else e) :: touched ks f l := rfl
    rw [hcons]
    by_cases hin : e.1 ∈ ks <;> by_cases hshadow : e.2.role = 2 <;> simp [hin, hshadow, hrole, ih]

/-! ### Registers of the pair -/

/-- The registers of the PAIR block read the same in `t` as in `s`. -/
structure PairRegs (s t : State) : Prop where
  find : ∀ off, 0x1500000 ≤ off → off < 0x1600000 → Table.find t.regs off = Table.find s.regs off

theorem PairRegs.of_regs (h : t.regs = s.regs) : PairRegs s t := ⟨fun _ _ _ => by rw [h]⟩

theorem PairRegs.trans (h : PairRegs s t) (h' : PairRegs t u) : PairRegs s u :=
  ⟨fun off hlo hhi => (h'.find off hlo hhi).trans (h.find off hlo hhi)⟩

theorem PairRegs.rget_eq (h : PairRegs s t) {r : Reg} {i j : Nat} (hlo : 0x1500000 ≤ r.offset i j) (hhi : r.offset i j < 0x1600000) :
    rget t r i j = rget s r i j := by
  simp only [rget, regGet, h.find _ hlo hhi]

/-- A counter of another block. -/
theorem pairRegs_bumpField {r : Reg} {i : Nat} (h : r.offset i 0 < 0x1500000 ∨ 0x1600000 ≤ r.offset i 0) (lo w n : Nat) (s : State) :
    PairRegs s (bumpField s r i lo w n) :=
  ⟨fun off hlo hhi => Table.find_put_ne _ _ (by omega)⟩

theorem pairRegs_logRecord (queue typ : Nat) (body : List Byte) (s : State) : PairRegs s (logRecord queue typ body s) := by
  have hlost : 0x1600000 ≤ Reg.wakeLost.offset queue 0 := by
    simp only [Reg.offset, Reg.info]
    omega
  unfold logRecord
  dsimp only
  split
  · refine PairRegs.trans (t := setWake s queue _) ?_ (pairRegs_bumpField (.inr hlost) ..)
    exact .of_regs rfl
  · exact pairRegs_bumpField (.inr (by decide)) ..

theorem pairRegs_enterPair (st : PairState) (s : State) : PairRegs s (enterPair st s) := by
  unfold enterPair
  split
  · exact .of_regs rfl
  · refine PairRegs.trans (t := setPair { s.pair with state := st } s) ?_ (pairRegs_logRecord ..)
    exact .of_regs rfl

/-! ### Silence (18 R884, R886, R888) -/

/-- A slot stopped under R888. -/
def stop (h : HeatSlot) : HeatSlot := { h with stopped := true }

theorem strokeSlots_congr (h : t.heat = s.heat) : strokeSlots t = strokeSlots s := by rw [strokeSlots, h, ← strokeSlots]

/-- While FORMED the limit is not reached. -/
theorem missLimitReached_short (hformed : s.pair.state = .formed) (h : linkSilent s (missLimit s) = false) : missLimitReached s = s := by
  unfold missLimitReached
  simp [hformed, h]

/-- The link silent alone. -/
theorem missLimitReached_link (hformed : s.pair.state = .formed) (hlink : linkSilent s (missLimit s) = true)
    (heth : ethSilent s (missLimit s) = false) : missLimitReached s = enterPair .suspect s := by
  have hsame : ethSilent (enterPair .suspect s) (missLimit s) = ethSilent s (missLimit s) := by
    unfold ethSilent
    rw [enterPair_state]
  unfold missLimitReached
  simp [hformed, hlink, hsame, heth]

/-- Own stroke-side slots stopped, and the fence of this package counted. -/
def fencedSelf (s : State) : State :=
  bump ((strokeSlots s).foldl (fun s k => changeSlot k stop s) (enterPair .suspect s)) .pairSelfFences

/-- Both paths silent. -/
theorem missLimitReached_both (hformed : s.pair.state = .formed) (hlink : linkSilent s (missLimit s) = true)
    (heth : ethSilent s (missLimit s) = true) (hconf : shadowSlots (fencedSelf s) = [] ∨ (fencedSelf s).pins.fenceConf = false) :
    missLimitReached s = if shadowSlots (fencedSelf s) = [] then enterPair .selfFenced (fencedSelf s)
      else enterPair .fencing (driveFence true (bump (fencedSelf s) .pairFences)) := by
  have hsl : linkSilent (enterPair .suspect s) (missLimit s) = true := by
    unfold linkSilent at hlink ⊢
    rwa [enterPair_state]
  have hse : ethSilent (enterPair .suspect s) (missLimit s) = true := by
    unfold ethSilent at heth ⊢
    rwa [enterPair_state]
  have hst : (enterPair .suspect s).pair.state = .suspect := by rw [enterPair_state]
  have hstroke : strokeSlots (enterPair .suspect s) = strokeSlots s := by
    obtain ⟨regs, wake, h⟩ := enterPair_eq .suspect s
    exact strokeSlots_congr (by rw [h])
  unfold missLimitReached
  simp only [hformed, hlink, decide_true, Bool.and_self, if_true, hst, hsl, hse, hstroke, ne_eq, not_true, decide_false, Bool.not_true,
    Bool.or_self, Bool.false_eq_true, if_false]
  refine (?_ : (if shadowSlots (fencedSelf s) = [] then enterPair .selfFenced (fencedSelf s)
    else if (enterPair .fencing (driveFence true (bump (fencedSelf s) .pairFences))).pins.fenceConf
      then takeover 0 (enterPair .fencing (driveFence true (bump (fencedSelf s) .pairFences)))
      else enterPair .fencing (driveFence true (bump (fencedSelf s) .pairFences))) = _)
  split
  case isTrue => rfl
  case isFalse hshadow =>
    have hfalse := hconf.resolve_left hshadow
    obtain ⟨regs, wake, h⟩ := enterPair_eq .fencing (driveFence true (bump (fencedSelf s) .pairFences))
    rw [if_neg]
    rw [h]
    simpa [driveFence] using hfalse

/-- The slots that stop, and what a package that fences itself leaves. -/
theorem fencedSelf_leaves (s : State) : ∃ regs wake,
    fencedSelf s = bump { s with pair := { s.pair with state := .suspect }, regs := regs, wake := wake,
                                 heat := { s.heat with slots := touched (strokeSlots s) stop s.heat.slots } } .pairSelfFences
    ∧ PairRegs s { s with regs := regs } := by
  have hregs := pairRegs_enterPair .suspect s
  obtain ⟨regs, wake, h⟩ := enterPair_eq .suspect s
  refine ⟨regs, wake, ?_, ?_⟩
  · unfold fencedSelf
    rw [foldl_changeSlot (f := stop) (fun _ => rfl), h]
  · rw [h] at hregs
    exact ⟨hregs.find⟩

theorem shadowSlots_fencedSelf (s : State) : shadowSlots (fencedSelf s) = shadowSlots s := by
  obtain ⟨regs, wake, h, -⟩ := fencedSelf_leaves s
  rw [h]
  exact filter_touched (f := stop) (fun _ => rfl) (strokeSlots s) s.heat.slots

/-- Every slot that is stroke side here is stopped. -/
theorem touched_stopped {e : Nat × HeatSlot} (he : e ∈ touched (strokeSlots s) stop s.heat.slots) (hrole : e.2.role ≠ 2)
    (hmirror : e.2.mirrored = true) : e.2.stopped = true := by
  obtain ⟨e0, hmem, heq⟩ := List.mem_map.mp he
  by_cases hin : e0.1 ∈ strokeSlots s
  · rw [if_pos hin] at heq
    rw [← heq]
    rfl
  · rw [if_neg hin] at heq
    subst heq
    refine absurd (List.mem_map.mpr ⟨e0, List.mem_filter.mpr ⟨hmem, ?_⟩, rfl⟩) hin
    simp [hrole, hmirror]

/-- `t` is `s` with the stroke-side slots stopped and a self-fence counted. -/
structure StrokeStopped (s t : State) : Prop where
  mem : t.mem = s.mem
  sct : t.sct = s.sct
  rings : t.rings = s.rings
  counted : countedOne t s .pairSelfFences
  slots : t.heat.slots = touched (strokeSlots s) stop s.heat.slots

theorem StrokeStopped.stopped (h : StrokeStopped s t) : ∀ e ∈ t.heat.slots, e.2.role ≠ 2 → e.2.mirrored = true → e.2.stopped = true := by
  rw [h.slots]
  exact fun e he => touched_stopped he

theorem StrokeStopped.others (h : StrokeStopped s t) (k : Nat) (hk : k ∉ strokeSlots s) :
    Table.find t.heat.slots k = Table.find s.heat.slots k := by
  rw [h.slots, find_touched, if_neg hk]

theorem strokeStopped_fencedSelf (s : State) : StrokeStopped s (fencedSelf s) := by
  obtain ⟨regs, wake, hself, hregs⟩ := fencedSelf_leaves s
  rw [hself]
  refine ⟨rfl, rfl, rfl, ?_, rfl⟩
  generalize hv : ({ s with pair := { s.pair with state := .suspect }, regs := regs, wake := wake,
                            heat := { s.heat with slots := touched (strokeSlots s) stop s.heat.slots } } : State) = v
  have hbump := bump_counts v .pairSelfFences 0
  have hsame : rget v .pairSelfFences = rget s .pairSelfFences := by
    rw [← hv]
    exact hregs.rget_eq (by decide) (by decide)
  rwa [hsame] at hbump

theorem rget_fencedSelf_pairFences (s : State) : rget (fencedSelf s) .pairFences = rget s .pairFences := by
  obtain ⟨regs, wake, hself, hregs⟩ := fencedSelf_leaves s
  rw [hself, rget_bump_ne _ (by decide)]
  exact hregs.rget_eq (by decide) (by decide)

theorem fencedSelf_pair (st : PairState) (s : State) : { (fencedSelf s).pair with state := st } = { s.pair with state := st } := by
  obtain ⟨regs, wake, hself, -⟩ := fencedSelf_leaves s
  rw [hself]
  rfl

theorem fencedSelf_pins (s : State) : (fencedSelf s).pins = s.pins := by
  obtain ⟨regs, wake, hself, -⟩ := fencedSelf_leaves s
  rw [hself]
  rfl

/-- A change of the pair's state leaves what StrokeStopped names. -/
theorem StrokeStopped.enterPair (h : StrokeStopped s t) (st : PairState) : StrokeStopped s (enterPair st t) := by
  have hregs := pairRegs_enterPair st t
  obtain ⟨regs, wake, henter⟩ := enterPair_eq st t
  rw [henter] at hregs ⊢
  refine ⟨h.mem, h.sct, h.rings, ?_, h.slots⟩
  unfold countedOne
  rw [hregs.rget_eq (by decide) (by decide)]
  exact h.counted

theorem StrokeStopped.driveFence (h : StrokeStopped s t) : StrokeStopped s (driveFence true (bump t .pairFences)) := by
  refine ⟨h.mem, h.sct, h.rings, ?_, h.slots⟩
  unfold countedOne
  rw [show rget (Machine.driveFence true (bump t .pairFences)) .pairSelfFences = rget (bump t .pairFences) .pairSelfFences from rfl,
    rget_bump_ne _ (by decide)]
  exact h.counted

theorem enterPair_pins (st : PairState) (s : State) : (enterPair st s).pins = s.pins := by
  obtain ⟨regs, wake, henter⟩ := enterPair_eq st s
  rw [henter]

/-- MISS_LIMIT_REACHED with both paths silent. -/
theorem silence_fences (hformed : s.pair.state = .formed) (hlink : linkSilent s (missLimit s) = true)
    (heth : ethSilent s (missLimit s) = true) (hconf : shadowSlots s = [] ∨ s.pins.fenceConf = false) :
    ∃ t, exec .missLimitReached s = .next (heatRow s t) ∧ StrokeStopped s t
      ∧ (shadowSlots s = [] → t.pair = { s.pair with state := .selfFenced } ∧ t.pins.fenceReq = s.pins.fenceReq)
      ∧ (shadowSlots s ≠ [] → t.pair = { s.pair with state := .fencing } ∧ t.pins.fenceReq = true ∧ countedOne t s .pairFences) := by
  have hrow := missLimitReached_both hformed hlink heth (by rwa [shadowSlots_fencedSelf, fencedSelf_pins])
  rw [shadowSlots_fencedSelf] at hrow
  have hself := strokeStopped_fencedSelf s
  by_cases hnone : shadowSlots s = []
  · rw [if_pos hnone] at hrow
    refine ⟨_, congrArg (fun t => Host.Outcome.next (heatRow s t)) hrow, hself.enterPair .selfFenced, fun _ => ⟨?_, ?_⟩, fun h => absurd hnone h⟩
    · rw [enterPair_state, fencedSelf_pair]
    · rw [enterPair_pins, fencedSelf_pins]
  · rw [if_neg hnone] at hrow
    refine ⟨_, congrArg (fun t => Host.Outcome.next (heatRow s t)) hrow, hself.driveFence.enterPair .fencing, fun h => absurd h hnone,
      fun _ => ⟨?_, ?_, ?_⟩⟩
    · rw [enterPair_state]
      exact fencedSelf_pair .fencing s
    · rw [enterPair_pins]
      rfl
    · have hbump := bump_counts (fencedSelf s) .pairFences 0
      rw [rget_fencedSelf_pairFences] at hbump
      unfold countedOne
      rw [(pairRegs_enterPair .fencing (driveFence true (bump (fencedSelf s) .pairFences))).rget_eq (by decide) (by decide)]
      exact hbump

end

/-! ### Messages of a takeover (18 R891, R892) -/

/-- `t` is `s` with messages sent to packages or to slots: the pair, sectors, cadence, slots and successors stay, and the registers of the
pair read the same. -/
structure Messaged (s t : State) : Prop where
  pair : t.pair = s.pair
  sct : t.sct = s.sct
  cad : t.cad = s.cad
  slots : t.heat.slots = s.heat.slots
  successor : t.chord.successor = s.chord.successor
  regs : PairRegs s t

section
variable {s t u : State}

theorem Messaged.refl (s : State) : Messaged s s := ⟨rfl, rfl, rfl, rfl, rfl, .of_regs rfl⟩

theorem Messaged.trans (h : Messaged s t) (h' : Messaged t u) : Messaged s u :=
  ⟨h'.pair.trans h.pair, h'.sct.trans h.sct, h'.cad.trans h.cad, h'.slots.trans h.slots, h'.successor.trans h.successor, h.regs.trans h'.regs⟩

theorem Messaged.foldl {α : Type} {f : State → α → State} (hf : ∀ s a, Messaged s (f s a)) (l : List α) (s : State) :
    Messaged s (l.foldl f s) := by
  induction l generalizing s with
  | nil => exact .refl s
  | cons a l ih => exact (hf s a).trans (ih _)

/-- Flits that leave change neither registers nor successors. -/
theorem pushData_keeps (c n : Nat) (s : State) :
    (pushData c n s).regs = s.regs ∧ (pushData c n s).chord.successor = s.chord.successor := by
  induction n generalizing s with
  | zero => exact ⟨rfl, rfl⟩
  | succ n ih =>
    unfold pushData
    dsimp only
    split
    · exact ⟨rfl, rfl⟩
    · split
      · exact ⟨rfl, rfl⟩
      · exact ⟨(ih _).1.trans rfl, (ih _).2.trans rfl⟩

/-- A packet put on one of the 12 links. -/
theorem messaged_putPacket {c : Nat} (hc : c < 12) (p : Packet) (s : State) : Messaged s (putPacket c p s) := by
  have hframe := linkFrame_putPacket s c p
  have hpair : (putPacket c p s).pair = s.pair := (congrArg State.pair hframe :)
  have hsct : (putPacket c p s).sct = s.sct := (congrArg State.sct hframe :)
  have hcad : (putPacket c p s).cad = s.cad := (congrArg State.cad hframe :)
  have hheat : (putPacket c p s).heat = s.heat := (congrArg State.heat hframe :)
  have hdecoded : Reg.chdTxDecoded.offset c 0 < 0x1500000 := by
    simp only [Reg.offset, Reg.info]
    omega
  have hcoded : Reg.chdTxCoded.offset c 0 < 0x1500000 := by
    simp only [Reg.offset, Reg.info]
    omega
  refine ⟨hpair, hsct, hcad, by rw [hheat], (pushData_keeps _ _ _).2, ?_⟩
  refine PairRegs.trans (PairRegs.trans ?_ (pairRegs_bumpField (.inl hdecoded) 0 64 (32 + p.decoded) _))
    (PairRegs.trans (pairRegs_bumpField (.inl hcoded) 0 64 (p.header ++ p.payload).length _) (.of_regs (pushData_keeps _ _ _).1))
  exact .of_regs rfl

theorem routeLink_lt {pkg stream c : Nat} (h : routeLink s pkg stream = some c) : c < 12 := by
  unfold routeLink at h
  dsimp only at h
  split at h
  · simp at h
  · exact (mem_bitList.mp (List.mem_filter.mp (List.mem_of_getElem? h)).1).1

theorem pairLinks_lt {c : Nat} (h : (pairLinks s).head? = some c) : c < 12 := by
  have hmem := (List.mem_filter.mp (List.mem_of_mem_head? h)).1
  simp at hmem
  omega

theorem messaged_sysSend (viaPair : Bool) (dest : Nat) (m : SysMsg) (s : State) : Messaged s (sysSend viaPair dest m s) := by
  unfold sysSend
  dsimp only
  split
  next c hlink =>
    refine (messaged_putPacket ?_ _ s).trans ⟨rfl, rfl, rfl, rfl, rfl, .of_regs rfl⟩
    split at hlink
    · exact pairLinks_lt hlink
    · exact routeLink_lt hlink
  · exact ⟨rfl, rfl, rfl, rfl, rfl, .of_regs rfl⟩

theorem messaged_heatSend (h : HeatSlot) (home : Nat) (m : HeatMsg) (s : State) : Messaged s (heatSend h home m s) := by
  unfold heatSend
  split
  · split
    · exact ⟨rfl, rfl, rfl, rfl, rfl, .of_regs rfl⟩
    · exact .refl s
  · exact messaged_sysSend ..

/-- A message that waited, sent to the package that acts now. -/
theorem messaged_again (failed succ heat : Nat) (s : State) (e : Bool × Nat × SysMsg) : Messaged s
    (match e.2.2 with
    | .heat id home m =>
      if heat = 0 || id = heat then heatSend { params := padTo 24 [] ++ leBytes 8 id } home m s else sysSend false failed e.2.2 s
    | m => if heat = 0 then sysSend false succ m s else sysSend false failed m s) := by
  split
  · split
    · exact messaged_heatSend ..
    · exact messaged_sysSend ..
  · split <;> exact messaged_sysSend ..

/-! ### A takeover of one slot (R887, R891) -/

/-- The state after a package took the place of another, before the messages that waited are sent again. -/
def renamed (failed succ heat : Nat) (s : State) : State :=
  let moved := s.chord.successor.map (fun e => if e.2 = failed && (heat = 0 || e.1 / 64 = heat) then (e.1, succ) else e)
  let stale := fun (p : Packet) => p.srcSector = 15 && bitsOf p.dest 46 6 = failed && (heat = 0 || p.stream / 128 = heat % 2 ^ 25)
  let c := { s.chord with
    successor := Table.put moved (heat * 64 + failed) succ
    tree := s.chord.tree.filter (fun e => !stale e.2)
    unsent := s.chord.unsent.filter (fun e => e.1 || e.2.1 ≠ failed) }
  { setChord c s with heat := { s.heat with slots := s.heat.slots.map (fun e =>
    if e.2.role ≠ 2 && !e.2.leads && e.2.homes ≠ [] && e.2.parentOf e.2.self = failed && (heat = 0 || e.2.id = heat)
    then (e.1, { e.2 with sentUp := 0 }) else e) } }

theorem messaged_applySubstitution (failed succ heat : Nat) (s : State) :
    Messaged (renamed failed succ heat s) (applySubstitution failed succ heat s) :=
  Messaged.foldl (messaged_again failed succ heat) _ (renamed failed succ heat s)

theorem messaged_substitute (failed heat : Nat) (s : State) : Messaged (renamed failed (pkgNumber s) heat s) (substitute failed heat s) :=
  (messaged_applySubstitution failed (pkgNumber s) heat s).trans
    (Messaged.foldl (f := fun s p => sysSend false p (.substitution failed _ heat) s) (fun s p => messaged_sysSend false p _ s) _ _)

/-- Names change in the only slot at most which partials went up. -/
theorem renamed_one {k : Nat} {h : HeatSlot} (hslots : s.heat.slots = [(k, h)]) (failed succ heat : Nat) :
    ∃ up, (renamed failed succ heat s).heat.slots = [(k, { h with sentUp := up })] := by
  unfold renamed
  simp only [hslots, List.map_cons, List.map_nil]
  split
  · exact ⟨0, rfl⟩
  · exact ⟨h.sentUp, rfl⟩

/-- What the slot is once it is taken over. -/
def takenSlot (h : HeatSlot) : HeatSlot :=
  { h with role := h.strokeRole, mirrored := false, msnSent := h.msnApplied, msnAcked := h.msnApplied, complete := [] }

theorem takeSlot_eq {k : Nat} {h : HeatSlot} (hslots : s.heat.slots = [(k, h)]) (hcomplete : h.complete = []) :
    takeSlot k s = setSlot k (takenSlot h) s := by
  have hslot : slotOf s k = h := slotOf_of_find (by simp [hslots, Table.find])
  unfold takeSlot
  simp only [hslot, hcomplete, List.foldl_nil]
  rfl

/-- SOLO of a package whose slots are not mirrored and wait for no shadow. -/
theorem enterSolo_unmirrored (hopening : ∀ e ∈ s.heat.slots, e.2.opening = none) (hmirror : ∀ e ∈ s.heat.slots, e.2.mirrored = false)
    (hmoves : s.pair.moves = []) (hserial : s.pair.serial = none) : ∃ regs wake,
    enterSolo s = { s with pair := { s.pair with state := .solo, moves := [], asked := [], serial := none }, regs := regs, wake := wake }
    ∧ PairRegs s (enterSolo s) := by
  have hdrop : dropOpening s = s := by
    have hnone : s.heat.slots.filter (fun e => e.2.opening.isSome) = [] :=
      List.filter_eq_nil_iff.mpr fun e he => by simp [hopening e he]
    unfold dropOpening
    rw [hnone]
    rfl
  have hmoved : dropMoves (dropOpening s) = setPair { s.pair with moves := [], asked := [], serial := none } s := by
    rw [hdrop, dropMoves]
    simp [hmoves, hserial, finishAll]
  have hstroke : strokeSlots (dropMoves (dropOpening s)) = [] := by
    rw [hmoved]
    refine List.map_eq_nil_iff.mpr (List.filter_eq_nil_iff.mpr fun e he => ?_)
    simp [hmirror e he]
  have hsolo : enterSolo s = enterPair .solo (setPair { s.pair with moves := [], asked := [], serial := none } s) := by
    unfold enterSolo
    simp only [hstroke]
    rw [hmoved]
    rfl
  obtain ⟨regs, wake, henter⟩ := enterPair_setPair .solo { s.pair with moves := [], asked := [], serial := none } s
  refine ⟨regs, wake, hsolo.trans henter, ?_⟩
  rw [hsolo]
  refine PairRegs.trans ?_ (pairRegs_enterPair ..)
  exact .of_regs rfl

/-- A slot in CLOSE, or one whose deadline is to come, that works again. -/
theorem resumeSlot_quiet {k : Nat} {h : HeatSlot} (hslots : s.heat.slots = [(k, h)])
    (hphase : h.phase = 7 ∨ (1 ≤ h.phase ∧ h.phase ≤ 6 ∧ s.cad.stroke < h.deadline h.phase ∧ h.got = [])) :
    resumeSlot k s = { s with heat := { s.heat with slots := [(k, { h with late := false })] } } := by
  have hchange : changeSlot k (fun h => { h with late := false }) s = { s with heat := { s.heat with slots := [(k, { h with late := false })] } } := by
    unfold changeSlot
    simp [hslots, Table.change]
  have hslot : slotOf (changeSlot k (fun h => { h with late := false }) s) k = { h with late := false } :=
    slotOf_changeSlot _ (by simp [hslots, Table.find])
  have htimed : ({ h with late := false } : HeatSlot).timed = none ∨ ({ h with late := false } : HeatSlot).timed = some h.phase
      ∧ s.cad.stroke < h.deadline h.phase ∧ h.got = [] := by
    unfold HeatSlot.timed
    obtain hclose | ⟨hlo, hhi, hdue, hgot⟩ := hphase
    · simp [hclose]
    · have hne : h.phase ≠ 9 := by omega
      simp only [if_neg hne]
      split
      · exact .inr ⟨rfl, hdue, hgot⟩
      · exact .inl rfl
  unfold resumeSlot takeDeadlines
  simp only [hslot]
  obtain hnone | ⟨hsome, hdue, hgot⟩ := htimed
  · rw [hnone]
    exact hchange
  · rw [hsome]
    dsimp only
    rw [if_pos]
    · exact hchange
    · simp only [hgot, List.contains_nil, Bool.not_false, Bool.and_true, decide_eq_true_eq]
      exact hdue

theorem logRecord_keeps (queue typ : Nat) (body : List Byte) (s : State) :
    (logRecord queue typ body s).pair = s.pair ∧ (logRecord queue typ body s).heat = s.heat ∧ (logRecord queue typ body s).cad = s.cad
      ∧ (logRecord queue typ body s).chord = s.chord ∧ (logRecord queue typ body s).sct = s.sct := by
  obtain ⟨regs, wake, h⟩ := logRecord_eq queue typ body s
  rw [h]
  exact ⟨rfl, rfl, rfl, rfl, rfl⟩

/-- The last steps of a takeover of one slot: its record, the count, and the slot works again. -/
theorem takeover_counts {k failed cond : Nat} {h : HeatSlot} (hslots : s.heat.slots = [(k, h)])
    (hphase : h.phase = 7 ∨ (1 ≤ h.phase ∧ h.phase ≤ 6 ∧ s.cad.stroke < h.deadline h.phase ∧ h.got = [])) :
    ∃ t, resumeSlot k (bump (takeoverRecord failed cond k s) .pairTakeovers) = t ∧ t.pair = s.pair ∧ t.sct = s.sct
      ∧ t.chord.successor = s.chord.successor ∧ t.heat.slots = [(k, { h with late := false })] ∧ countedOne t s .pairTakeovers := by
  have hregs : PairRegs s (takeoverRecord failed cond k s) := pairRegs_logRecord ..
  have hkeeps : (takeoverRecord failed cond k s).pair = s.pair ∧ (takeoverRecord failed cond k s).heat = s.heat
      ∧ (takeoverRecord failed cond k s).cad = s.cad ∧ (takeoverRecord failed cond k s).chord = s.chord
      ∧ (takeoverRecord failed cond k s).sct = s.sct := logRecord_keeps ..
  generalize takeoverRecord failed cond k s = u at hregs hkeeps ⊢
  obtain ⟨hpair, hheat, hcad, hchord, hsct⟩ := hkeeps
  have hresume := resumeSlot_quiet (s := bump u .pairTakeovers) (k := k) (h := h)
    (by rwa [show (bump u .pairTakeovers).heat = s.heat from hheat]) (by rwa [show (bump u .pairTakeovers).cad = s.cad from hcad])
  refine ⟨_, hresume, hpair, hsct, congrArg Chord.successor hchord, rfl, ?_⟩
  have hbump := bump_counts u .pairTakeovers 0
  rwa [hregs.rget_eq (by decide) (by decide)] at hbump

/-- A takeover of the only slot, a shadow without staged vectors. -/
theorem takeover_one {k cond : Nat} {h : HeatSlot} (hslots : s.heat.slots = [(k, h)]) (hrole : h.role = 2) (hopening : h.opening = none)
    (hcomplete : h.complete = []) (hphase : h.phase = 7 ∨ (1 ≤ h.phase ∧ h.phase ≤ 6 ∧ s.cad.stroke < h.deadline h.phase ∧ h.got = []))
    (hmoves : s.pair.moves = []) (hserial : s.pair.serial = none) :
    ∃ t, takeover cond s = t ∧ t.pair.state = .solo ∧ t.pair.byGrace = decide (cond = 1) ∧ (slotOf t k).role = h.strokeRole
      ∧ (slotOf t k).mirrored = false ∧ countedOne t s .pairTakeovers 0
      ∧ Table.find t.chord.successor s.pair.twin = some (pkgNumber s) ∧ t.sct = s.sct := by
  have hshadow : shadowSlots s = [k] := by simp [shadowSlots, hslots, hrole]
  have htake := takeSlot_eq hslots hcomplete
  have hslots1 : (setSlot k (takenSlot h) s).heat.slots = [(k, takenSlot h)] := by simp [setSlot, hslots, Table.put]
  obtain ⟨up, hup⟩ := renamed_one hslots1 s.pair.twin (pkgNumber s) 0
  have hsub : Messaged (renamed s.pair.twin (pkgNumber s) 0 (setSlot k (takenSlot h) s)) (substitute s.pair.twin 0 (setSlot k (takenSlot h) s)) :=
    messaged_substitute s.pair.twin 0 (setSlot k (takenSlot h) s)
  have hregs0 : PairRegs s (renamed s.pair.twin (pkgNumber s) 0 (setSlot k (takenSlot h) s)) := .of_regs rfl
  have hnamed : Table.find (renamed s.pair.twin (pkgNumber s) 0 (setSlot k (takenSlot h) s)).chord.successor s.pair.twin = some (pkgNumber s) := by
    unfold renamed
    dsimp only [setChord]
    rw [Nat.zero_mul, Nat.zero_add, Table.find_put_same]
  generalize hs2 : substitute s.pair.twin 0 (setSlot k (takenSlot h) s) = s2 at hsub
  have hslots2 : s2.heat.slots = [(k, { takenSlot h with sentUp := up })] := hsub.slots.trans hup
  have hpair2 : s2.pair = s.pair := hsub.pair
  have hcad2 : s2.cad = s.cad := hsub.cad
  have hsct2 : s2.sct = s.sct := hsub.sct
  have hnamed2 : Table.find s2.chord.successor s.pair.twin = some (pkgNumber s) := by rw [hsub.successor]; exact hnamed
  have hregs2 : PairRegs s s2 := hregs0.trans hsub.regs
  have hstroke2 : strokeSlots s2 = [] := by simp [strokeSlots, hslots2, takenSlot]
  have hunmirror : (if cond = 0 then (strokeSlots s2).foldl (fun s k => unmirror k s) s2 else s2) = s2 := by
    rw [hstroke2]
    exact ite_self _
  obtain ⟨regs, wake, hsolo, hregs4⟩ := enterSolo_unmirrored (s := setPair { s2.pair with byGrace := decide (cond = 1) } s2)
    (by simp [hslots2, takenSlot, hopening]) (by simp [hslots2, takenSlot]) (by simpa [hpair2] using hmoves) (by simpa [hpair2] using hserial)
  generalize hs4 : enterSolo (setPair { s2.pair with byGrace := decide (cond = 1) } s2) = s4 at hsolo hregs4
  have hslots4 : s4.heat.slots = [(k, { takenSlot h with sentUp := up })] := by rw [hsolo]; exact hslots2
  obtain ⟨t, hend, hpair, hsct, hsuccessor, hslotst, hcount⟩ := takeover_counts (failed := s.pair.twin) (cond := cond) hslots4
    (by rw [show s4.cad.stroke = s.cad.stroke by rw [hsolo]; exact congrArg Cad.stroke hcad2]; exact hphase)
  have hslott : slotOf t k = { { takenSlot h with sentUp := up } with late := false } := slotOf_of_find (by simp [hslotst, Table.find])
  refine ⟨t, ?_, ?_, ?_, ?_, ?_, ?_, ?_, ?_⟩
  · unfold takeover
    simp only [hshadow, List.foldl_cons, List.foldl_nil, htake, hs2, hunmirror, hs4]
    exact hend
  · rw [hpair, hsolo]
  · rw [hpair, hsolo]
    rfl
  · rw [hslott]
    rfl
  · rw [hslott]
    rfl
  · unfold countedOne at hcount ⊢
    rwa [hregs4.rget_eq (by decide) (by decide), show rget (setPair { s2.pair with byGrace := decide (cond = 1) } s2) .pairTakeovers
      = rget s2 .pairTakeovers from rfl, hregs2.rget_eq (by decide) (by decide)] at hcount
  · rw [hsuccessor, hsolo]
    exact hnamed2
  · rw [hsct, hsolo]
    exact hsct2

/-! ### Handover and detaching (R897, R899) -/

/-- A slot that begins to move for a command. -/
def moveFor (serial : Nat) (h : HeatSlot) : HeatSlot := { h with moving := some (h.moving.getD serial) }

theorem startHandover_eq (ks : List Nat) (serial : Nat) (s : State) :
    startHandover ks serial s = { s with heat := { s.heat with slots := touched ks (moveFor serial) s.heat.slots } } :=
  foldl_changeSlot (f := moveFor serial) (fun _ => rfl) ks s

/-- The slots named begin to move, and no other slot changes. -/
theorem startHandover_slots {ks : List Nat} {serial : Nat} (hks : ∀ k ∈ ks, Table.find s.heat.slots k ≠ none) :
    (∀ k ∈ ks, (slotOf s k).moving = none → (slotOf (startHandover ks serial s) k).moving = some serial)
    ∧ (∀ k, k ∉ ks → slotOf (startHandover ks serial s) k = slotOf s k) := by
  rw [startHandover_eq]
  refine ⟨fun k hk hnone => ?_, fun k hk => ?_⟩
  · obtain ⟨h, hh⟩ := Option.ne_none_iff_exists'.mp (hks k hk)
    rw [slotOf_of_find hh] at hnone
    have hfind : Table.find (touched ks (moveFor serial) s.heat.slots) k = some (moveFor serial h) := by
      rw [find_touched, if_pos hk, hh]
      rfl
    unfold slotOf Table.getD
    rw [hfind]
    simp [moveFor, hnone]
  · unfold slotOf Table.getD
    rw [show Table.find (touched ks (moveFor serial) s.heat.slots) k = Table.find s.heat.slots k by rw [find_touched, if_neg hk]]

theorem find_movable {id k : Nat} (h : k ∈ movable s id) : Table.find s.heat.slots k ≠ none := by
  obtain ⟨e, he, rfl⟩ := List.mem_map.mp (List.mem_filter.mp h).1
  exact Table.find_ne_none_of_mem (List.mem_filter.mp he).1

/-- PAIR_TAKEOVER of slots here, or of every slot. -/
theorem pairTakeoverBody_moves {c : Cmd} {id : Nat} (hres : c.reserved [(32, 64)] = true) (hid : c.param 24 8 = id)
    (hformed : s.pair.state = .formed) (hown : movable s id ≠ [] ∨ id = 0) :
    pairTakeoverBody c s
      = .ok (.running (startHandover (movable s id) c.serial (setPair { s.pair with moves := Table.put s.pair.moves c.serial 0 } s))) := by
  subst hid
  unfold pairTakeoverBody
  dsimp only
  rw [need_bind_of hres, need_bind_of (by simp [hformed]), if_pos (by simpa using hown)]

/-- PAIR_TAKEOVER of a slot that the twin holds. -/
theorem pairTakeoverBody_asks {c : Cmd} {id : Nat} (hres : c.reserved [(32, 64)] = true) (hid : c.param 24 8 = id)
    (hformed : s.pair.state = .formed) (hnone : movable s id = []) (hne : id ≠ 0) (hshadow : (shadowOf s id).isSome = true) :
    pairTakeoverBody c s = .ok (.running (sysSend true s.pair.twin (.handoverAsk id)
      (setPair { s.pair with moves := Table.put s.pair.moves c.serial 0, asked := s.pair.asked ++ [(id, c.serial)] } s))) := by
  subst hid
  unfold pairTakeoverBody
  dsimp only
  rw [need_bind_of hres, need_bind_of (by simp [hformed]), if_neg (by simp [hnone, hne]), need_bind_of hshadow]
  rfl

/-- `t` is `s` with sectors quiesced: pair and pins stay, and no class that is held is released. -/
structure Quiesced (s t : State) : Prop where
  pair : t.pair = s.pair
  pins : t.pins = s.pins
  held : ∀ n, Table.getD s.rings.held n 0 &&& 31 = 31 → Table.getD t.rings.held n 0 &&& 31 = 31

theorem Quiesced.refl (s : State) : Quiesced s s := ⟨rfl, rfl, fun _ h => h⟩

theorem Quiesced.trans (h : Quiesced s t) (h' : Quiesced t u) : Quiesced s u :=
  ⟨h'.pair.trans h.pair, h'.pins.trans h.pins, fun n hn => h'.held n (h.held n hn)⟩

theorem Quiesced.of_rings (hpair : t.pair = s.pair) (hpins : t.pins = s.pins) (hrings : t.rings = s.rings) : Quiesced s t :=
  ⟨hpair, hpins, fun n hn => by rwa [hrings]⟩

theorem quiesced_changeHead (f : Mover → Mover) (s : State) : Quiesced s (changeHead f s) := by
  unfold changeHead
  split
  · exact .refl s
  · exact .of_rings rfl rfl rfl

theorem quiesced_abandonPage (s : State) : Quiesced s (abandonPage s) := by
  have hleaf (pte : Nat) (f : Nat → Nat) : Quiesced s (writeLeaf [] pte f s).2 := by
    unfold writeLeaf
    split
    · exact .refl s
    · have hframe := lineFrame_trustedWrite s pte (leBytes 8 (f (word64 s pte)))
      exact .of_rings (congrArg State.pair hframe :) (faultyWrite_pins ..) (congrArg State.rings hframe :)
  unfold abandonPage
  split
  · exact .refl s
  · split
    · split
      · exact (hleaf _ _).trans (quiesced_changeHead ..)
      · exact .refl s
    · exact quiesced_changeHead ..

theorem quiesced_yieldMover (n : Nat) (s : State) : Quiesced s (yieldMover n s) := by
  unfold yieldMover
  split
  · exact .refl s
  · split
    · exact .refl s
    · refine Quiesced.trans ?_ (quiesced_changeHead ..)
      split
      · exact quiesced_abandonPage s
      · exact .refl s

theorem quiesced_holdMover (n : Nat) (s : State) : Quiesced s (holdMover n s) := by
  unfold holdMover
  split
  · exact .refl s
  next m _ _ =>
    have habandon : Quiesced s (if m.movesPages && m.sector = n then abandonPage s else s) := by
      split
      · exact quiesced_abandonPage s
      · exact .refl s
    exact habandon.trans (.of_rings rfl rfl rfl)

theorem or_and_31 (x : Nat) : (x ||| 31) &&& 31 = 31 := by
  rw [Nat.and_or_distrib_right, Nat.and_self]
  refine Nat.eq_of_testBit_eq fun i => ?_
  simp only [Nat.testBit_or, Nat.testBit_and]
  cases x.testBit i <;> simp

/-- Every class of a sector held. -/
theorem quiesceSector_holds (n : Nat) (s : State) :
    Quiesced s (quiesceSector n 31 s) ∧ Table.getD (quiesceSector n 31 s).rings.held n 0 &&& 31 = 31 := by
  have hheld := or_and_31 (Table.getD s.rings.held n 0)
  have hne : Table.getD s.rings.held n 0 ||| 31 ≠ 0 := fun h => by rw [h] at hheld; simp at hheld
  have hset (j : Nat) : Table.getD (setHeld n (Table.getD s.rings.held n 0 ||| 31) s).rings.held j 0
      = if j = n then Table.getD s.rings.held n 0 ||| 31 else Table.getD s.rings.held j 0 := by
    unfold setHeld
    simp only [if_neg hne]
    unfold Table.getD
    rw [Table.find_put]
    split <;> rfl
  have h1 : Quiesced s (setHeld n (Table.getD s.rings.held n 0 ||| 31) s) := by
    refine ⟨rfl, rfl, fun j hj => ?_⟩
    rw [hset]
    split
    · exact hheld
    · exact hj
  have h2 := (quiesced_yieldMover n (setHeld n (Table.getD s.rings.held n 0 ||| 31) s)).trans (quiesced_holdMover n _)
  refine ⟨h1.trans h2, h2.held n ?_⟩
  rw [hset, if_pos rfl]
  exact hheld

theorem quiesced_eventRecord {source : Nat} (h : source ≠ 0x0A05) (sector status addr : Nat) (s : State) :
    Quiesced s (eventRecord source sector status addr s) := by
  have hframe := lineFrame_writeRecord s { source := source, severity := 0, sector := sector, status := status, addr := addr }
  exact .of_rings (congrArg State.pair hframe :) (eventRecord_pins h ..) (congrArg State.rings hframe :)

/-- Every class of the sectors of a list held, each with its record. -/
theorem foldl_quiesce (l : List Nat) (s : State) :
    Quiesced s (l.foldl (fun s n => eventRecord 0x0B05 n stOk 0 (quiesceSector n 31 s)) s)
    ∧ ∀ n ∈ l, Table.getD (l.foldl (fun s n => eventRecord 0x0B05 n stOk 0 (quiesceSector n 31 s)) s).rings.held n 0 &&& 31 = 31 := by
  induction l generalizing s with
  | nil => exact ⟨.refl s, fun n hn => by simp at hn⟩
  | cons m l ih =>
    obtain ⟨hq, hm⟩ := quiesceSector_holds m s
    have hevent : Quiesced (quiesceSector m 31 s) (eventRecord 0x0B05 m stOk 0 (quiesceSector m 31 s)) := quiesced_eventRecord (by decide) ..
    obtain ⟨hrest, hall⟩ := ih (eventRecord 0x0B05 m stOk 0 (quiesceSector m 31 s))
    refine ⟨(hq.trans hevent).trans hrest, fun n hn => ?_⟩
    obtain rfl | hn := List.mem_cons.mp hn
    · exact hrest.held n (hevent.held n hm)
    · exact hall n hn

/-- Steps 2 to 5 of TRAY_DETACH while SOLO. -/
theorem detach_solo (hsolo : s.pair.state = .solo) :
    (detach s).pair = { s.pair with state := .detached, serial := none } ∧ (detach s).pins = { s.pins with trayReady := true }
    ∧ (linkOf (detach s) 10).pairMode = false ∧ (linkOf (detach s) 11).pairMode = false
    ∧ (∀ e ∈ s.sct.sectors, e.2.state = .active → Table.getD (detach s).rings.held e.1 0 &&& 31 = 31)
    ∧ ((∀ e ∈ s.sct.sectors, e.2.state ≠ .active) → Quiet s → (detach s).mem = s.mem ∧ (detach s).heat = s.heat ∧ (detach s).sct = s.sct) := by
  have hactive (e : Nat × Sector) (he : e ∈ s.sct.sectors) (ha : e.2.state = .active) :
      e.1 ∈ (s.sct.sectors.filter (fun e => e.2.state = .active)).map Prod.fst :=
    List.mem_map.mpr ⟨e, List.mem_filter.mpr ⟨he, by simp [ha]⟩, rfl⟩
  have hidle (h : ∀ e ∈ s.sct.sectors, e.2.state ≠ .active) : (s.sct.sectors.filter (fun e => e.2.state = .active)).map Prod.fst = [] :=
    List.map_eq_nil_iff.mpr (List.filter_eq_nil_iff.mpr fun e he => by simpa using h e he)
  obtain ⟨hq, hall⟩ := foldl_quiesce ((s.sct.sectors.filter (fun e => e.2.state = .active)).map Prod.fst) s
  unfold detach
  simp only [if_neg (show ¬s.pair.state = .formed by simp [hsolo])]
  generalize hl : (s.sct.sectors.filter (fun e => e.2.state = .active)).map Prod.fst = l at hactive hidle hq hall ⊢
  have hnone (h : l = []) : l.foldl (fun s n => eventRecord 0x0B05 n stOk 0 (quiesceSector n 31 s)) s = s := by rw [h]; rfl
  generalize l.foldl (fun s n => eventRecord 0x0B05 n stOk 0 (quiesceSector n 31 s)) s = s1 at hq hall hnone ⊢
  have hcore := coreKept_switchLinks false s1
  obtain ⟨h10, h11⟩ := switchLinks_modes false s1
  have hframe := downFrame_switchLinks (s := s1) false
  generalize switchLinks false s1 = s2 at hcore h10 h11 hframe ⊢
  obtain ⟨regs, wake, henter⟩ := enterPair_setPair .detached { s1.pair with serial := none } s2
  rw [henter]
  have hpins : s2.pins = s.pins := hcore.pins.trans hq.pins
  refine ⟨?_, ?_, h10, h11, fun e he ha => ?_, fun hnot hquiet => ?_⟩
  · dsimp only
    rw [hq.pair]
  · dsimp only
    rw [hpins]
  · dsimp only
    rw [hcore.held]
    exact hall _ (hactive e he ha)
  · have hs1 := hnone (hidle hnot)
    have hdown := hframe (by rwa [hs1])
    rw [hs1] at hdown
    exact ⟨(congrArg State.mem hdown :), (congrArg State.heat hdown :), (congrArg State.sct hdown :)⟩

theorem trayDetachBody_solo {c : Cmd} (hres : c.reserved [(24, 64)] = true) (hmirrored : ∀ e ∈ s.heat.slots, e.2.role = 2 ∨ e.2.mirrored = true)
    (hsolo : s.pair.state = .solo) : trayDetachBody c s = .ok (.done stOk 0 0 (detach s)) := by
  have hall : s.heat.slots.any (fun e => decide (e.2.role ≠ 2) && !e.2.mirrored) = false := by
    rw [List.any_eq_false]
    intro e he
    obtain h | h := hmirrored e he <;> simp [h]
  unfold trayDetachBody
  rw [need_bind_of hres, need_bind_of (by simp [hsolo]), need_bind_of (by rw [hall]; rfl), if_pos hsolo]

theorem trayDetachBody_formed {c : Cmd} (hres : c.reserved [(24, 64)] = true) (hmirrored : ∀ e ∈ s.heat.slots, e.2.role = 2 ∨ e.2.mirrored = true)
    (hformed : s.pair.state = .formed) (hserial : s.pair.serial = none) :
    trayDetachBody c s = .ok (.running (startHandover (movable s 0) c.serial (setPair { s.pair with serial := some c.serial } s))) := by
  have hall : s.heat.slots.any (fun e => decide (e.2.role ≠ 2) && !e.2.mirrored) = false := by
    rw [List.any_eq_false]
    intro e he
    obtain h | h := hmirrored e he <;> simp [h]
  unfold trayDetachBody
  rw [need_bind_of hres, need_bind_of (by simp [hformed, hserial]), need_bind_of (by rw [hall]; rfl), if_neg (by simp [hformed])]

/-- What a handover that begins leaves, with the pair replaced. -/
theorem handover_leaves (p : Pair) (id serial : Nat) (s : State) :
    let t := startHandover (movable s id) serial (setPair p s)
    t.pair = p ∧ (∀ k ∈ movable s id, (slotOf s k).moving = none → (slotOf t k).moving = some serial)
      ∧ (∀ k, k ∉ movable s id → slotOf t k = slotOf s k) ∧ t.mem = s.mem ∧ t.sct = s.sct ∧ t.rings = s.rings := by
  intro t
  obtain ⟨hmoving, hother⟩ := startHandover_slots (s := setPair p s) (serial := serial) (ks := movable s id) (fun k hk => find_movable hk)
  have heq : t = { setPair p s with heat := { s.heat with slots := touched (movable s id) (moveFor serial) s.heat.slots } } :=
    startHandover_eq (movable s id) serial (setPair p s)
  refine ⟨?_, hmoving, hother, ?_, ?_, ?_⟩ <;> rw [heq] <;> rfl

/-! ### The statements of O48 -/

/-- Settles O48: silence, fencing, takeover, handover and detaching. -/
theorem pairLoss : Obligations.PairLoss := by
  unfold Obligations.PairLoss
  refine ⟨?_, ?_, ?_, ?_, ?_, ?_⟩
  · intro s hformed
    refine ⟨fun h => ?_, fun hlink heth => ⟨?_, enterPair_state ..⟩, fun hlink heth hconf => ?_⟩
    · exact congrArg (fun t => Host.Outcome.next (heatRow s t)) (missLimitReached_short hformed h)
    · exact congrArg (fun t => Host.Outcome.next (heatRow s t)) (missLimitReached_link hformed hlink heth)
    · obtain ⟨t, hexec, hstop, hself, hfence⟩ := silence_fences hformed hlink heth hconf
      exact ⟨t, hexec, hstop.mem, hstop.sct, hstop.rings, hstop.counted, hself, hfence, hstop.stopped, hstop.others⟩
  · intro s on hidle
    have hrow : fenceConf on s = { s with pins := { s.pins with fenceConf := on } } := by
      unfold fenceConf
      refine if_neg ?_
      obtain h | h := hidle <;> simp [h]
    exact congrArg (fun t => Host.Outcome.next (heatRow s t)) hrow
  · intro s row k h hfencing hslots hrole hopening hcomplete hphase hmoves hserial hrow
    obtain rfl | ⟨rfl, hsilent⟩ := hrow
    · have hexec : fenceConf true s = takeover 0 { s with pins := { s.pins with fenceConf := true } } := by
        unfold fenceConf
        exact if_pos (by simp [hfencing])
      obtain ⟨t, htake, hsolo, hgrace, hr, hm, hcount, hsucc, hsct⟩ := takeover_one (cond := 0)
        (s := { s with pins := { s.pins with fenceConf := true } }) hslots hrole hopening hcomplete hphase hmoves hserial
      exact ⟨t, congrArg (fun t => Host.Outcome.next (heatRow s t)) (hexec.trans htake), hsolo, hgrace.trans (by simp), hr, hm, hcount, hsucc, hsct⟩
    · have hexec : graceExpiry s = takeover 1 s := by
        unfold graceExpiry
        exact if_pos (by simp [hfencing, hsilent])
      obtain ⟨t, htake, hsolo, hgrace, hr, hm, hcount, hsucc, hsct⟩ := takeover_one (cond := 1) hslots hrole hopening hcomplete hphase hmoves hserial
      exact ⟨t, congrArg (fun t => Host.Outcome.next (heatRow s t)) (hexec.trans htake), hsolo, hgrace.trans (by simp), hr, hm, hcount, hsucc, hsct⟩
  · intro s hidle
    have hrow : graceExpiry s = s := by
      unfold graceExpiry
      refine if_neg ?_
      obtain h | h := hidle <;> simp [h]
    exact congrArg (fun t => Host.Outcome.next (heatRow s t)) hrow
  · intro s ring c id hbegins hres hid hformed
    refine ⟨fun hown => ?_, fun hnone hne hshadow => ?_⟩
    · obtain ⟨hpair, hmoving, hother, hmem, hsct, hrings⟩ :=
        handover_leaves { s.pair with moves := Table.put s.pair.moves c.serial 0 } id c.serial s
      exact ⟨_, congrArg (fun t => Host.Outcome.next (pairRow s t)) (beginCommand_runs hbegins (pairTakeoverBody_moves hres hid hformed hown)),
        hpair, hmoving, hother, hmem, hsct, hrings⟩
    · have hbody := pairTakeoverBody_asks hres hid hformed hnone hne hshadow
      generalize hv : setPair { s.pair with moves := Table.put s.pair.moves c.serial 0, asked := s.pair.asked ++ [(id, c.serial)] } s = v at hbody
      have hframe := linkFrame_sysSend v true s.pair.twin (.handoverAsk id)
      generalize sysSend true s.pair.twin (.handoverAsk id) v = w at hbody hframe
      have hpair : w.pair = v.pair := (congrArg State.pair hframe :)
      have hheat : w.heat = v.heat := (congrArg State.heat hframe :)
      have hmem : w.mem = v.mem := (congrArg State.mem hframe :)
      have hsct : w.sct = v.sct := (congrArg State.sct hframe :)
      refine ⟨w, congrArg (fun t => Host.Outcome.next (pairRow s t)) (beginCommand_runs hbegins hbody), hpair.trans ?_, hheat.trans ?_, hmem.trans ?_,
        hsct.trans ?_⟩ <;> rw [← hv] <;> rfl
  · intro s ring c hbegins hres hmirrored
    refine ⟨fun hsolo => ?_, fun hformed hserial => ?_⟩
    · obtain ⟨hpair, hpins, h10, h11, hheld, hstill⟩ := detach_solo hsolo
      exact ⟨detach s, congrArg (fun t => Host.Outcome.next (pairRow s t)) (beginCommand_okWith hbegins (trayDetachBody_solo hres hmirrored hsolo)),
        hpair, hpins, h10, h11, hheld, fun hnot ht hf hr => hstill hnot ⟨ht, hf, hr⟩⟩
    · obtain ⟨hpair, hmoving, hother, hmem, hsct, hrings⟩ := handover_leaves { s.pair with serial := some c.serial } 0 c.serial s
      exact ⟨_, congrArg (fun t => Host.Outcome.next (pairRow s t))
        (beginCommand_runs hbegins (trayDetachBody_formed hres hmirrored hformed hserial)), hpair, hmoving, hother, hmem, hsct, hrings⟩

end

end Sys2Proof.Machine
